-- ==== Sys2Proof/Word.lean ====
section
/-!
DEFINITION. The 72-bit word of R33 with its plainest accessors, bit-field helpers over 64-bit register
images, and the small closed name sets that commands and state share: worlds (R59), access kinds (R27),
exception causes (R187), violation rule classes (R26).
-/

namespace Sys2Proof

/-- A register image or payload: 64 bits. -/
abbrev W64 := BitVec 64

/-- The 72-bit word of R33: payload, TAG, POISON, COLOUR. -/
structure Word where
  data : W64
  tag : Bool
  poison : Bool
  colour : BitVec 6
  deriving DecidableEq, Repr, Inhabited

/-- The metadata of one memory word (R33). -/
structure Meta where
  tag : Bool
  poison : Bool
  colour : BitVec 6
  deriving DecidableEq, Repr, Inhabited

/-- Payload 0 and metadata 0: what g0 reads (R71) and what cleared registers hold (R146). -/
def Word.zero : Word := ⟨0, false, false, 0⟩

/-- An untagged, unpoisoned, uncoloured word. -/
def Word.plain (d : W64) : Word := ⟨d, false, false, 0⟩

/-- All metadata 0. -/
def Meta.zero : Meta := ⟨false, false, 0⟩

/-- The `n` bits of `v` from bit `lo`, as a number. -/
def fld (v : W64) (lo n : Nat) : Nat := (v.toNat >>> lo) % 2 ^ n

/-- Bit `i` of `v`. -/
def bit (v : W64) (i : Nat) : Bool := v.getLsbD i

/-- `v` with the `n` bits from `lo` replaced by the low `n` bits of `x`. -/
def setFld (v : W64) (lo n x : Nat) : W64 :=
  let m : W64 := BitVec.ofNat 64 ((2 ^ n - 1) <<< lo)
  (v &&& ~~~m) ||| (BitVec.ofNat 64 ((x % 2 ^ n) <<< lo))

/-- `v` with bit `i` set to `b`. -/
def setBit (v : W64) (i : Nat) (b : Bool) : W64 := setFld v i 1 (if b then 1 else 0)

/-- `min (x + k) cap`: a saturating count. -/
def satAdd (x k cap : Nat) : Nat := min (x + k) cap

/-- 0 or 1 of a condition, as a payload. -/
def ofBool (b : Bool) : W64 := if b then 1 else 0

/-- CURSOR of R43. -/
def Word.cursor (w : Word) : Nat := fld w.data 0 48
/-- INDEX of R43. -/
def Word.index (w : Word) : Nat := fld w.data 48 11
/-- TSEL of R43: true names the world table. -/
def Word.tsel (w : Word) : Bool := bit w.data 59
/-- GEN of R43. -/
def Word.gen (w : Word) : Nat := fld w.data 60 4
/-- The word with another CURSOR, modulo 2^48 (R43). -/
def Word.withCursor (w : Word) (c : Nat) : Word := { w with data := setFld w.data 0 48 c }
/-- The word with another INDEX (R57). -/
def Word.withIndex (w : Word) (i : Nat) : Word := { w with data := setFld w.data 48 11 i }
/-- A tagged capability with these fields (R43). -/
def Word.cap (cursor index : Nat) (tsel : Bool) (gen : Nat) : Word :=
  ⟨setFld (setFld (setBit (setFld 0 0 48 cursor) 59 tsel) 48 11 index) 60 4 gen, true, false, 0⟩

/-- Worlds, R59 and R209. -/
inductive World where
  | host | guest | secure
  deriving DecidableEq, Repr, Inhabited

/-- The encoding of R59. -/
def World.code : World → Nat
  | .host => 0 | .guest => 1 | .secure => 2

/-- The world that a two-bit field names; 3 is reserved. -/
def World.ofCode : Nat → Option World
  | 0 => some .host | 1 => some .guest | 2 => some .secure | _ => none

/-- Access types of R27. -/
inductive Acc where
  | read | write | fetch | atomic | capld | capst | dmard | dmawr | ctlrd | ctlwr | vector | noacc
  deriving DecidableEq, Repr, Inhabited

/-- The encoding of R27. -/
def Acc.code : Acc → Nat
  | .read => 0 | .write => 1 | .fetch => 2 | .atomic => 3 | .capld => 4 | .capst => 5
  | .dmard => 6 | .dmawr => 7 | .ctlrd => 8 | .ctlwr => 9 | .vector => 0xA | .noacc => 0xB

/-- Violation rule classes of R26. -/
inductive Rule where
  | none | cap | xlate | carve | ctlPerm | ctlForm | ctlUnmapped | ctlUnpowered
  deriving DecidableEq, Repr, Inhabited

/-- The encoding of R26. -/
def Rule.code : Rule → Nat
  | .none => 0 | .cap => 1 | .xlate => 2 | .carve => 3 | .ctlPerm => 4 | .ctlForm => 5
  | .ctlUnmapped => 6 | .ctlUnpowered => 7

/-- Exception causes of R187. -/
inductive Cause where
  | illegal | capTag | capBounds | capPerm | capGrant | colour | noexec | xlate1 | xlate2
  | atomicAlign | poison | fetchUe | vector | gate | ledger | event | nmi | mirror
  deriving DecidableEq, Repr, Inhabited

/-- The cause codes of R187. -/
def Cause.code : Cause → Nat
  | .illegal => 0x01 | .capTag => 0x02 | .capBounds => 0x03 | .capPerm => 0x04 | .capGrant => 0x05
  | .colour => 0x06 | .noexec => 0x07 | .xlate1 => 0x08 | .xlate2 => 0x09 | .atomicAlign => 0x0A
  | .poison => 0x0B | .fetchUe => 0x0C | .vector => 0x0D | .gate => 0x0E | .ledger => 0x0F
  | .event => 0x10 | .nmi => 0x11 | .mirror => 0x12

/-- Permission bits of R47, by bit number. -/
inductive Perm where
  | R | W | X | LC | SC | GM | RV | SE | US | GT | CTL | DB | PMU | DMA | MIR | DBG
  deriving DecidableEq, Repr, Inhabited

/-- The bit number of R47. -/
def Perm.bit : Perm → Nat
  | .R => 0 | .W => 1 | .X => 2 | .LC => 3 | .SC => 4 | .GM => 5 | .RV => 6 | .SE => 7 | .US => 8
  | .GT => 9 | .CTL => 10 | .DB => 11 | .PMU => 12 | .DMA => 13 | .MIR => 14 | .DBG => 15

/-- Context states of R143. -/
inductive CoreState where
  | off | stopped | running | waiting | halted | fatal | stopping
  deriving DecidableEq, Repr, Inhabited

/-- The encoding of R143. -/
def CoreState.code : CoreState → Nat
  | .off => 0 | .stopped => 1 | .running => 2 | .waiting => 3 | .halted => 4 | .fatal => 5
  | .stopping => 6

/-- Who makes a control-region access or sends a command to a block: its stop and unit (R27), the world its
request carries (R210), and whether it is the Sytum. -/
structure Master where
  stop : Nat
  unit : Nat
  world : World
  vmid : Nat
  sytum : Bool
  deriving DecidableEq, Repr, Inhabited

end Sys2Proof
end

