-- ==== Sys2Proof/Machine/Payload.lean ====
section
/-!
DEFINITION. What commands bring from outside the machine: structured operands that the commands and the machine share.
-/

namespace Sys2Proof.Machine

/-- A violation as a detecting block records it (R25). -/
structure Viol where
  addr : Nat
  virt : Bool
  mstop : Nat
  munit : Nat
  acc : Acc
  rule : Rule
  deriving DecidableEq, Repr, Inhabited

/-- An occurrence on its way to the fault collector (R328): the source, and the address and master of the access
where the detector has them. -/
structure Report where
  src : Nat
  addr : Option Nat
  mstop : Nat
  munit : Nat
  acc : Option Nat
  deriving DecidableEq, Repr, Inhabited

/-- What a request asks of a memory controller (R288, R295): a read, a write of the bytes in a mask with a POISON bit per
word, or an atomic on word `i` of the line. -/
inductive McOp where
  | read
  | write (mask : Nat) (data : List W64) (poison : Nat)
  | atomic (i op : Nat) (a b : Word)
  deriving DecidableEq, Repr, Inhabited

/-- A frame that a port's MAC received (R350, R371): its stored part, whether it ends in an error or was cut off, and the
device time at which its start was detected, in units of 1/16 ns. -/
structure RxFrame where
  bytes : List (BitVec 8)
  bad : Bool
  time : Nat
  deriving DecidableEq, Repr, Inhabited

/-- What a heartbeat carries (R437). -/
structure Heartbeat where
  id : Bool
  state : Nat
  ml : Bool
  leaving : Bool
  deriving DecidableEq, Repr, Inhabited

/-- What an Epnis frame brings besides what has a command of its own: a heartbeat, the partner's FENCE command (R429) or its
RAISE command (R447). -/
inductive EpBody where
  | other
  | heartbeat (h : Heartbeat)
  | pairFence
  | pairRaise
  deriving DecidableEq, Repr, Inhabited

/-- A PSENSE frame (R424): one with a bad CRC, a heartbeat, a leave notice, or a fence command of a device. -/
inductive PsFrame where
  | badCrc
  | heartbeat (h : Heartbeat)
  | leave
  | fence (id : Bool)
  deriving DecidableEq, Repr, Inhabited

/-- A record as the partner sends it (R430): header fields and stored part. -/
structure MirRec where
  flags : Nat
  data : List (BitVec 8)
  port : Nat
  lput : Bool
  pri : Nat
  handle : Nat
  vqf : Nat
  ts : Nat
  atime : Nat
  hcount : Nat
  pcmp : Nat
  deriving DecidableEq, Repr, Inhabited

/-- What an acknowledgement of the partner is for (R394, R431, R262, R466); `quiet` is the partner's report of its quiescent
sequence point (R447). -/
inductive MirAck where
  | record (q s : Nat)
  | marker (q s : Nat)
  | write (stop unit seq : Nat) (refused : Bool)
  | drop (q : Nat)
  | quiet
  deriving DecidableEq, Repr, Inhabited

/-- A queue as the partner's handshake gives it (R426, R440, R443): `took` says that the partner took it over. -/
structure JoinQueue where
  q : Nat
  enabled : Bool
  mir : Bool
  j : Bool
  g3 : Bool
  primary : Bool
  took : Bool
  deriving DecidableEq, Repr, Inhabited

/-- The partner's handshake (R443): PAIR_ID, the highest level that it offers (none: no level that this device supports), whether it is in
TAKEOVER, its queues, and its IN entries as ranges. -/
structure JoinInfo where
  id : Bool
  level : Option Bool
  takeover : Bool
  queues : List JoinQueue
  ins : List (Nat × Nat)
  deriving DecidableEq, Repr, Inhabited

/-- A memory request of a device behind a host I/O group (R481, R483): the local root port, the requester ID, the address, the
bytes of a write or the length of a read, and the EP bit of a write. -/
structure DmaReq where
  port : Nat
  rid : Nat
  write : Bool
  addr : Nat
  len : Nat
  data : List (BitVec 8)
  ep : Bool
  deriving DecidableEq, Repr, Inhabited

/-- A completion at a root port (R476, R478): of the oldest configuration request (0 success, 1 Configuration Request Retry, 2
Unsupported Request), or of the waiting read of a core, with the poison that the device reports. -/
inductive RpAnswer where
  | config (status data : Nat)
  | read (c : Nat) (data : W64) (poison : Bool)
  | unsupported (c : Nat)
  deriving DecidableEq, Repr, Inhabited

/-- What a root port trains to (R475, R479): rate, whether below 8 GT/s, FLIT mode, lanes, and whether CXL.mem operates. -/
structure RpTrain where
  rate : Nat
  low : Bool
  flit : Bool
  width : Nat
  cxl : Bool
  deriving DecidableEq, Repr, Inhabited

/-- The boot descriptor (R539): roots and tables, the payload with its load address, and the index, TSEL and cursor of PCC and
LINK. -/
structure BootDesc where
  s1 : W64
  wtab : W64
  gtab : W64
  load : Nat
  payload : List W64
  pcc : Nat × Bool × Nat
  link : Nat × Bool × Nat
  deriving DecidableEq, Repr, Inhabited

/-- A configuration image in one slot as the Sytum reads it (R533, R534): whether its magic, format and length pass and whether its sections
are well formed, the SHA-384 of its key, whether its signature is valid, its security version, its REGS list, its reaction sets by source (R333), its slice table,
its remap entries as stop, window, index and value, and its boot descriptor. -/
structure SlotIn where
  format : Bool
  sections : Bool
  keyHash : Nat
  sigOk : Bool
  version : Nat
  regs : List (Nat × W64)
  react : List (Nat × Nat)
  slt : Option (List Nat)
  remaps : List (Nat × Nat × Nat × W64)
  boot : BootDesc
  deriving DecidableEq, Repr, Inhabited

/-- How a channel's training ends (R285, R300, R302, R325): FAILWHY (0 for success), its capacity in GiB, whether the stored record applied, its
modules as bits [11:3] of DPHY_STATUS (R308), the service bound of its timings in ns, and the hPPR rows that its module refused. -/
structure TrainIn where
  why : Nat
  gib : Nat
  stored : Bool
  mods : Nat
  bound : Nat
  refused : List Nat
  deriving DecidableEq, Repr, Inhabited

/-- The secure image (R228, R231, R232): whether its signature is valid, its digest, where its words are loaded, the context of its first
core, its translation root and world table, and the gate descriptors it publishes. -/
structure SecIn where
  sigOk : Bool
  digest : BitVec 384
  load : Nat
  code : List Word
  pcc : Word
  savecap : Word
  evcap : Word
  link : Word
  gtab : W64
  cmpid : Nat
  s1 : W64
  wtab : W64
  gates : List (List Word)
  deriving DecidableEq, Repr, Inhabited

/-- What start-up reads from outside the device (R530 to R540): the fuse words with those corrected and those uncorrectable, the PAIR_ID
strap, the flash's own outcome (0 good, 2 NOFLASH, 3 DIRECTORY) and its size in MiB with whether it can suspend (R489), the offset and length of its TRAINREC region (R532), both slots, the transfer rate and the training of each
channel (R285), the secure image, and the time to release in µs. -/
structure BootIn where
  fuses : List (Nat × Nat)
  fuseCe : List Nat
  fuseUe : List Nat
  pairId : Bool
  flash : Nat
  mib : Nat
  susp : Bool
  trec : Nat × Nat
  slotA : SlotIn
  slotB : SlotIn
  rate : Nat
  train : List TrainIn
  sec : SecIn
  us : Nat
  deriving DecidableEq, Repr, Inhabited

/-- What a control register's write leaves to the outside: whether a long-vector instruction of the core that a STOP names is under way
(R145); the lost lines of a block reset, or the dirty lines of what a reaction resets, with what their homes know of them (R152, R347);
whether the boot flash reports an error (R490); what the modules answer to a soft repair (R325); and the queues of which the partner holds a
mirrored standby (R468). -/
structure CtlIn where
  vec : Bool
  known : List (Nat × List W64)
  err : Bool
  result : Nat
  partner : List Nat
  deriving DecidableEq, Repr, Inhabited

end Sys2Proof.Machine
end

