-- ==== Sys2Proof/Syntax.lean ====
section
/-!
DEFINITION. The commands: one constructor per row of the operation table. A core instruction carries its core
number (0 to 143 the V-cores, 144 to 175 the C-cores) and the fields of its encoding (R74); fields that must be 0
are left out. The other rows carry what the rule of the row leaves to the outside: who sends the command and with
which values.
-/

namespace Sys2Proof

/-- The commands that the block takes. -/
inductive Instr where
  /-- ADD (R77). Writes srcA plus srcB modulo 2^64 to dst. -/
  | add (c : Nat) (d a b : BitVec 6)
  /-- SUB (R77). Writes srcA minus srcB modulo 2^64 to dst. -/
  | sub (c : Nat) (d a b : BitVec 6)
  /-- AND (R77). Writes the bitwise AND of srcA and srcB. -/
  | and (c : Nat) (d a b : BitVec 6)
  /-- OR (R77). Writes the bitwise OR of srcA and srcB; this is also the integer move. -/
  | or (c : Nat) (d a b : BitVec 6)
  /-- XOR (R77). Writes the bitwise XOR of srcA and srcB. -/
  | xor (c : Nat) (d a b : BitVec 6)
  /-- ANDN (R77). Writes srcA AND NOT srcB. -/
  | andn (c : Nat) (d a b : BitVec 6)
  /-- ORN (R77). Writes srcA OR NOT srcB. -/
  | orn (c : Nat) (d a b : BitVec 6)
  /-- XNOR (R77). Writes NOT (srcA XOR srcB). -/
  | xnor (c : Nat) (d a b : BitVec 6)
  /-- SHL (R77). Shifts srcA left by srcB[5:0]. -/
  | shl (c : Nat) (d a b : BitVec 6)
  /-- SHR (R77). Shifts srcA right logically by srcB[5:0]. -/
  | shr (c : Nat) (d a b : BitVec 6)
  /-- SRA (R77). Shifts srcA right arithmetically by srcB[5:0]. -/
  | sra (c : Nat) (d a b : BitVec 6)
  /-- ROR (R77). Rotates srcA right by srcB[5:0]. -/
  | ror (c : Nat) (d a b : BitVec 6)
  /-- SLT (R77). Writes 1 if srcA is less than srcB as signed values, else 0. -/
  | slt (c : Nat) (d a b : BitVec 6)
  /-- SLTU (R77). Writes 1 if srcA is less than srcB as unsigned values, else 0. -/
  | sltu (c : Nat) (d a b : BitVec 6)
  /-- SEQ (R77). Writes 1 if srcA equals srcB, else 0. -/
  | seq (c : Nat) (d a b : BitVec 6)
  /-- MIN (R77). Writes the signed minimum of srcA and srcB. -/
  | min (c : Nat) (d a b : BitVec 6)
  /-- MAX (R77). Writes the signed maximum of srcA and srcB. -/
  | max (c : Nat) (d a b : BitVec 6)
  /-- MINU (R77). Writes the unsigned minimum of srcA and srcB. -/
  | minu (c : Nat) (d a b : BitVec 6)
  /-- MAXU (R77). Writes the unsigned maximum of srcA and srcB. -/
  | maxu (c : Nat) (d a b : BitVec 6)
  /-- CLZ (R77). Counts the leading zero bits of srcA. -/
  | clz (c : Nat) (d a : BitVec 6)
  /-- CTZ (R77). Counts the trailing zero bits of srcA. -/
  | ctz (c : Nat) (d a : BitVec 6)
  /-- POPC (R77). Counts the one bits of srcA. -/
  | popc (c : Nat) (d a : BitVec 6)
  /-- BSWAP (R77). Writes the 8 bytes of srcA in reverse order. -/
  | bswap (c : Nat) (d a : BitVec 6)
  /-- SEXTB (R77). Sign-extends srcA[7:0]. -/
  | sextb (c : Nat) (d a : BitVec 6)
  /-- SEXTH (R77). Sign-extends srcA[15:0]. -/
  | sexth (c : Nat) (d a : BitVec 6)
  /-- SEXTW (R77). Sign-extends srcA[31:0]. -/
  | sextw (c : Nat) (d a : BitVec 6)
  /-- ZEXTW (R77). Zero-extends srcA[31:0]. -/
  | zextw (c : Nat) (d a : BitVec 6)
  /-- CSEL (R77). Selects srcA or srcB by the old dst payload; the POISON of all three sources is ORed into the result. -/
  | csel (c : Nat) (d a b : BitVec 6)
  /-- MUL (R78). Writes the low 64 bits of the product of srcA and srcB. -/
  | mul (c : Nat) (d a b : BitVec 6)
  /-- MULH (R78). Writes the high 64 bits of the signed product. -/
  | mulh (c : Nat) (d a b : BitVec 6)
  /-- MULHU (R78). Writes the high 64 bits of the unsigned product. -/
  | mulhu (c : Nat) (d a b : BitVec 6)
  /-- MULHSU (R78). Writes the high 64 bits of signed srcA times unsigned srcB. -/
  | mulhsu (c : Nat) (d a b : BitVec 6)
  /-- DIV (R78). Writes the signed quotient with fixed results for a zero divisor and for overflow. -/
  | div (c : Nat) (d a b : BitVec 6)
  /-- DIVU (R78). Writes the unsigned quotient. -/
  | divu (c : Nat) (d a b : BitVec 6)
  /-- REM (R78). Writes the signed remainder. -/
  | rem (c : Nat) (d a b : BitVec 6)
  /-- REMU (R78). Writes the unsigned remainder. -/
  | remu (c : Nat) (d a b : BitVec 6)
  /-- ADDI (R79). Writes srcA plus the sign-extended immediate. -/
  | addi (c : Nat) (d a : BitVec 6) (imm : BitVec 14)
  /-- ANDI (R79). Writes srcA AND the sign-extended immediate. -/
  | andi (c : Nat) (d a : BitVec 6) (imm : BitVec 14)
  /-- ORI (R79). Writes srcA OR the sign-extended immediate. -/
  | ori (c : Nat) (d a : BitVec 6) (imm : BitVec 14)
  /-- XORI (R79). Writes srcA XOR the sign-extended immediate. -/
  | xori (c : Nat) (d a : BitVec 6) (imm : BitVec 14)
  /-- SLTI (R79). Compares srcA with the immediate as signed values. -/
  | slti (c : Nat) (d a : BitVec 6) (imm : BitVec 14)
  /-- SLTIU (R79). Compares srcA with the sign-extended immediate as unsigned values. -/
  | sltiu (c : Nat) (d a : BitVec 6) (imm : BitVec 14)
  /-- SHIFTI (R79). Shifts or rotates srcA by an immediate amount, with the kind selected by imm[13:12]. -/
  | shifti (c : Nat) (d a : BitVec 6) (imm : BitVec 14)
  /-- ORIS (R79). Shifts srcA left by 14 and ORs in the zero-extended immediate. -/
  | oris (c : Nat) (d a : BitVec 6) (imm : BitVec 14)
  /-- BFX (R79). Extracts a bit field of srcA, zero- or sign-extended. -/
  | bfx (c : Nat) (d a : BitVec 6) (imm : BitVec 14)
  /-- LD (R80). Loads 8 bytes through the capability in srcA after the checks of R51. -/
  | ld (c : Nat) (d a : BitVec 6) (imm : BitVec 14)
  /-- LW (R81). Loads 4 bytes and sign-extends them. -/
  | lw (c : Nat) (d a : BitVec 6) (imm : BitVec 14)
  /-- LWU (R81). Loads 4 bytes and zero-extends them. -/
  | lwu (c : Nat) (d a : BitVec 6) (imm : BitVec 14)
  /-- SD (R80). Stores 8 bytes from the dst-field register through the capability in srcA. -/
  | sd (c : Nat) (src a : BitVec 6) (imm : BitVec 14)
  /-- SW (R81). Stores the low 4 bytes. -/
  | sw (c : Nat) (src a : BitVec 6) (imm : BitVec 14)
  /-- LB (R81). Loads 1 byte and sign-extends it. -/
  | lb (c : Nat) (d a : BitVec 6) (imm : BitVec 11)
  /-- LBU (R81). Loads 1 byte and zero-extends it. -/
  | lbu (c : Nat) (d a : BitVec 6) (imm : BitVec 11)
  /-- LH (R81). Loads 2 bytes and sign-extends them. -/
  | lh (c : Nat) (d a : BitVec 6) (imm : BitVec 11)
  /-- LHU (R81). Loads 2 bytes and zero-extends them. -/
  | lhu (c : Nat) (d a : BitVec 6) (imm : BitVec 11)
  /-- SB (R81). Stores the low byte. -/
  | sb (c : Nat) (src a : BitVec 6) (imm : BitVec 11)
  /-- SH (R81). Stores the low 2 bytes. -/
  | sh (c : Nat) (src a : BitVec 6) (imm : BitVec 11)
  /-- LBX (R81). Indexed signed byte load with the offset taken from srcB. -/
  | lbx (c : Nat) (d a b : BitVec 6)
  /-- LBUX (R81). Indexed unsigned byte load. -/
  | lbux (c : Nat) (d a b : BitVec 6)
  /-- LHX (R81). Indexed signed halfword load. -/
  | lhx (c : Nat) (d a b : BitVec 6)
  /-- LHUX (R81). Indexed unsigned halfword load. -/
  | lhux (c : Nat) (d a b : BitVec 6)
  /-- LWX (R81). Indexed signed word load. -/
  | lwx (c : Nat) (d a b : BitVec 6)
  /-- LWUX (R81). Indexed unsigned word load. -/
  | lwux (c : Nat) (d a b : BitVec 6)
  /-- LDX (R81). Indexed 8-byte load. -/
  | ldx (c : Nat) (d a b : BitVec 6)
  /-- SBX (R81). Indexed byte store. -/
  | sbx (c : Nat) (src a b : BitVec 6)
  /-- SHX (R81). Indexed halfword store. -/
  | shx (c : Nat) (src a b : BitVec 6)
  /-- SWX (R81). Indexed word store. -/
  | swx (c : Nat) (src a b : BitVec 6)
  /-- SDX (R81). Indexed 8-byte store. -/
  | sdx (c : Nat) (src a b : BitVec 6)
  /-- AMOSWAP (R82). Atomically swaps the memory word with srcB and returns the old word. -/
  | amoswap (c : Nat) (d a b : BitVec 6) (order : BitVec 2)
  /-- AMOADD (R82). Atomically adds srcB to the memory word. -/
  | amoadd (c : Nat) (d a b : BitVec 6) (order : BitVec 2)
  /-- AMOAND (R82). Atomically ANDs srcB into the memory word. -/
  | amoand (c : Nat) (d a b : BitVec 6) (order : BitVec 2)
  /-- AMOOR (R82). Atomically ORs srcB into the memory word. -/
  | amoor (c : Nat) (d a b : BitVec 6) (order : BitVec 2)
  /-- AMOXOR (R82). Atomically XORs srcB into the memory word. -/
  | amoxor (c : Nat) (d a b : BitVec 6) (order : BitVec 2)
  /-- AMOMIN (R82). Atomically writes the signed minimum. -/
  | amomin (c : Nat) (d a b : BitVec 6) (order : BitVec 2)
  /-- AMOMAX (R82). Atomically writes the signed maximum. -/
  | amomax (c : Nat) (d a b : BitVec 6) (order : BitVec 2)
  /-- AMOMINU (R82). Atomically writes the unsigned minimum. -/
  | amominu (c : Nat) (d a b : BitVec 6) (order : BitVec 2)
  /-- AMOMAXU (R82). Atomically writes the unsigned maximum. -/
  | amomaxu (c : Nat) (d a b : BitVec 6) (order : BitVec 2)
  /-- CAS (R83). Compares and swaps, trapping POISON on a poisoned expected value or old word. -/
  | cas (c : Nat) (d a b : BitVec 6) (order : BitVec 2)
  /-- BEQ (R85). Branches if the payloads of srcA and srcB are equal. -/
  | beq (c : Nat) (a b : BitVec 6) (h : Bool) (off : BitVec 13)
  /-- BNE (R85). Branches if the payloads differ. -/
  | bne (c : Nat) (a b : BitVec 6) (h : Bool) (off : BitVec 13)
  /-- BLT (R85). Branches if srcA is less than srcB as signed values. -/
  | blt (c : Nat) (a b : BitVec 6) (h : Bool) (off : BitVec 13)
  /-- JAL (R86). Jumps PC-relative and writes the link PCC, checking the target under R87. -/
  | jal (c : Nat) (d : BitVec 6) (off : BitVec 19)
  /-- JALR (R86). Jumps through the capability in srcA and writes the link PCC. -/
  | jalr (c : Nat) (d a : BitVec 6) (off : BitVec 13)
  /-- GMINT (R56). Mints a grant entry, or a sealed pair, from a parent grant and a mint request. -/
  | gmint (c : Nat) (d a b : BitVec 6)
  /-- GREVOKE (R64). Revokes a grant entry by bumping its generation or exhausting it, and broadcasts a shootdown. -/
  | grevoke (c : Nat) (d a b : BitVec 6)
  /-- CSETC (R58). Adds an offset to the CURSOR of a capability. -/
  | csetc (c : Nat) (d a b : BitVec 6)
  /-- CSETC_A (R58). Sets the CURSOR of a capability to an absolute value. -/
  | csetcA (c : Nat) (d a b : BitVec 6)
  /-- CSETC_SR (R58). Writes the result of CSETC into SAVECAP or EVCAP. -/
  | csetcSr (c : Nat) (n a b : BitVec 6)
  /-- CSEAL (R57). Moves a capability from the unsealed twin to the sealed half of a pair. -/
  | cseal (c : Nat) (d a b : BitVec 6)
  /-- CUNSEAL (R57). Moves a capability from the sealed half to the unsealed twin of a pair. -/
  | cunseal (c : Nat) (d a b : BitVec 6)
  /-- CGATE (R61). Enters a gate: writes a link frame and switches compartment, world and PCC. -/
  | cgate (c : Nat) (a : BitVec 6)
  /-- CRETG (R192). Returns from an open exception frame, or from the latest CGATE under R62. -/
  | cretg (c : Nat)
  /-- CTEST (R58). Writes the tag, poison, colour, liveness and entry information of a word, never faulting. -/
  | ctest (c : Nat) (d a : BitVec 6)
  /-- LDC (R58). Loads a word with its tag through a capability whose grant carries LC. -/
  | ldc (c : Nat) (d a : BitVec 6) (imm : BitVec 14)
  /-- STC (R58). Stores a word with its tag through a capability. -/
  | stc (c : Nat) (src a : BitVec 6) (imm : BitVec 14)
  /-- FADD (R91). Floating-point add. -/
  | fadd (c : Nat) (d a b : BitVec 6) (single : Bool)
  /-- FSUB (R91). Floating-point subtract. -/
  | fsub (c : Nat) (d a b : BitVec 6) (single : Bool)
  /-- FMUL (R91). Floating-point multiply. -/
  | fmul (c : Nat) (d a b : BitVec 6) (single : Bool)
  /-- FDIV (R91). Floating-point divide. -/
  | fdiv (c : Nat) (d a b : BitVec 6) (single : Bool)
  /-- FSQRT (R91). Floating-point square root. -/
  | fsqrt (c : Nat) (d a : BitVec 6) (single : Bool)
  /-- FMIN (R91). IEEE minimumNumber. -/
  | fmin (c : Nat) (d a b : BitVec 6) (single : Bool)
  /-- FMAX (R91). IEEE maximumNumber. -/
  | fmax (c : Nat) (d a b : BitVec 6) (single : Bool)
  /-- FSGNJ (R91). Writes srcA with the sign of srcB. -/
  | fsgnj (c : Nat) (d a b : BitVec 6) (single : Bool)
  /-- FSGNJN (R91). Writes srcA with the inverted sign of srcB. -/
  | fsgnjn (c : Nat) (d a b : BitVec 6) (single : Bool)
  /-- FSGNJX (R91). Writes srcA with the XOR of the two signs. -/
  | fsgnjx (c : Nat) (d a b : BitVec 6) (single : Bool)
  /-- FEQ (R91). Quiet floating-point equality compare. -/
  | feq (c : Nat) (d a b : BitVec 6) (single : Bool)
  /-- FLT (R91). Signalling floating-point less-than compare. -/
  | flt (c : Nat) (d a b : BitVec 6) (single : Bool)
  /-- FLE (R91). Signalling floating-point less-or-equal compare. -/
  | fle (c : Nat) (d a b : BitVec 6) (single : Bool)
  /-- FCLASS (R91). Writes the class mask of srcA. -/
  | fclass (c : Nat) (d a : BitVec 6) (single : Bool)
  /-- FMADD (R91). Fused srcA times srcB plus dst. -/
  | fmadd (c : Nat) (d a b : BitVec 6) (single : Bool)
  /-- FMSUB (R91). Fused srcA times srcB minus dst. -/
  | fmsub (c : Nat) (d a b : BitVec 6) (single : Bool)
  /-- FNMADD (R91). Fused negative product minus dst. -/
  | fnmadd (c : Nat) (d a b : BitVec 6) (single : Bool)
  /-- FNMSUB (R91). Fused negative product plus dst. -/
  | fnmsub (c : Nat) (d a b : BitVec 6) (single : Bool)
  /-- FCVT_D_L (R92). Converts int64 to binary64. -/
  | fcvtDL (c : Nat) (d a : BitVec 6)
  /-- FCVT_D_LU (R92). Converts uint64 to binary64. -/
  | fcvtDLu (c : Nat) (d a : BitVec 6)
  /-- FCVT_L_D (R92). Converts binary64 to int64 with saturation. -/
  | fcvtLD (c : Nat) (d a : BitVec 6)
  /-- FCVT_LU_D (R92). Converts binary64 to uint64 with saturation. -/
  | fcvtLuD (c : Nat) (d a : BitVec 6)
  /-- FCVT_S_L (R92). Converts int64 to binary32. -/
  | fcvtSL (c : Nat) (d a : BitVec 6)
  /-- FCVT_S_LU (R92). Converts uint64 to binary32. -/
  | fcvtSLu (c : Nat) (d a : BitVec 6)
  /-- FCVT_L_S (R92). Converts binary32 to int64. -/
  | fcvtLS (c : Nat) (d a : BitVec 6)
  /-- FCVT_LU_S (R92). Converts binary32 to uint64. -/
  | fcvtLuS (c : Nat) (d a : BitVec 6)
  /-- FCVT_S_D (R92). Converts binary64 to binary32. -/
  | fcvtSD (c : Nat) (d a : BitVec 6)
  /-- FCVT_D_S (R92). Converts binary32 to binary64. -/
  | fcvtDS (c : Nat) (d a : BitVec 6)
  /-- FCVT_H_S (R92). Converts binary32 to binary16. -/
  | fcvtHS (c : Nat) (d a : BitVec 6)
  /-- FCVT_S_H (R92). Converts binary16 to binary32. -/
  | fcvtSH (c : Nat) (d a : BitVec 6)
  /-- FCVT_B_S (R92). Converts binary32 to bfloat16. -/
  | fcvtBS (c : Nat) (d a : BitVec 6)
  /-- FCVT_S_B (R92). Converts bfloat16 to binary32. -/
  | fcvtSB (c : Nat) (d a : BitVec 6)
  /-- PKADD (R93). Packed wrapping add per lane. -/
  | pkadd (c : Nat) (d a b : BitVec 6) (w : BitVec 2)
  /-- PKSUB (R93). Packed wrapping subtract per lane. -/
  | pksub (c : Nat) (d a b : BitVec 6) (w : BitVec 2)
  /-- PKADDSS (R93). Packed signed saturating add. -/
  | pkaddss (c : Nat) (d a b : BitVec 6) (w : BitVec 2)
  /-- PKADDUS (R93). Packed unsigned saturating add. -/
  | pkaddus (c : Nat) (d a b : BitVec 6) (w : BitVec 2)
  /-- PKSUBSS (R93). Packed signed saturating subtract. -/
  | pksubss (c : Nat) (d a b : BitVec 6) (w : BitVec 2)
  /-- PKSUBUS (R93). Packed unsigned saturating subtract. -/
  | pksubus (c : Nat) (d a b : BitVec 6) (w : BitVec 2)
  /-- PKMIN (R93). Packed signed minimum. -/
  | pkmin (c : Nat) (d a b : BitVec 6) (w : BitVec 2)
  /-- PKMAX (R93). Packed signed maximum. -/
  | pkmax (c : Nat) (d a b : BitVec 6) (w : BitVec 2)
  /-- PKMINU (R93). Packed unsigned minimum. -/
  | pkminu (c : Nat) (d a b : BitVec 6) (w : BitVec 2)
  /-- PKMAXU (R93). Packed unsigned maximum. -/
  | pkmaxu (c : Nat) (d a b : BitVec 6) (w : BitVec 2)
  /-- PKMEANU (R93). Packed unsigned rounded mean. -/
  | pkmeanu (c : Nat) (d a b : BitVec 6) (w : BitVec 2)
  /-- PKDIFU (R93). Packed unsigned absolute difference. -/
  | pkdifu (c : Nat) (d a b : BitVec 6) (w : BitVec 2)
  /-- PKEQ (R93). Packed equality mask. -/
  | pkeq (c : Nat) (d a b : BitVec 6) (w : BitVec 2)
  /-- PKGT (R93). Packed signed greater-than mask. -/
  | pkgt (c : Nat) (d a b : BitVec 6) (w : BitVec 2)
  /-- PKGTU (R93). Packed unsigned greater-than mask. -/
  | pkgtu (c : Nat) (d a b : BitVec 6) (w : BitVec 2)
  /-- PKMUL (R93). Packed multiply, keeping the low bits of each lane. -/
  | pkmul (c : Nat) (d a b : BitVec 6) (w : BitVec 2)
  /-- PKSHL (R93). Packed shift left. -/
  | pkshl (c : Nat) (d a b : BitVec 6) (w : BitVec 2)
  /-- PKSHR (R93). Packed logical shift right. -/
  | pkshr (c : Nat) (d a b : BitVec 6) (w : BitVec 2)
  /-- PKSRA (R93). Packed arithmetic shift right. -/
  | pksra (c : Nat) (d a b : BitVec 6) (w : BitVec 2)
  /-- PKSEL (R94). Byte permute from srcA and the old dst, indexed by srcB. -/
  | pksel (c : Nat) (d a b : BitVec 6)
  /-- PKNRW16S (R94). Narrows 16-bit lanes to bytes with signed saturation. -/
  | pknrw16s (c : Nat) (d a b : BitVec 6)
  /-- PKNRW16U (R94). Narrows 16-bit lanes to bytes with unsigned saturation. -/
  | pknrw16u (c : Nat) (d a b : BitVec 6)
  /-- PKNRW32S (R94). Narrows 32-bit lanes to 16 bits with signed saturation. -/
  | pknrw32s (c : Nat) (d a b : BitVec 6)
  /-- PKZIPL8 (R94). Interleaves the low bytes of srcA and srcB. -/
  | pkzipl8 (c : Nat) (d a b : BitVec 6)
  /-- PKZIPH8 (R94). Interleaves the high bytes of srcA and srcB. -/
  | pkziph8 (c : Nat) (d a b : BitVec 6)
  /-- PKZIPL16 (R94). Interleaves the low 16-bit lanes. -/
  | pkzipl16 (c : Nat) (d a b : BitVec 6)
  /-- PKZIPH16 (R94). Interleaves the high 16-bit lanes. -/
  | pkziph16 (c : Nat) (d a b : BitVec 6)
  /-- PKDOT16 (R94). Sum of the four signed 16-bit products. -/
  | pkdot16 (c : Nat) (d a b : BitVec 6)
  /-- PKDOTU8 (R94). Sum of the eight unsigned 8-bit products. -/
  | pkdotu8 (c : Nat) (d a b : BitVec 6)
  /-- PKDIFSUM8 (R94). Sum of the absolute byte differences. -/
  | pkdifsum8 (c : Nat) (d a b : BitVec 6)
  /-- PKSUMU8 (R94). Unsigned sum of the bytes of srcA. -/
  | pksumu8 (c : Nat) (d a : BitVec 6)
  /-- PKSUMS16 (R94). Signed sum of the 16-bit lanes of srcA. -/
  | pksums16 (c : Nat) (d a : BitVec 6)
  /-- CTLR (R15). Reads one control register in a block window through a capability with CTL. -/
  | ctlr (c : Nat) (d a b : BitVec 6)
  /-- CTLW (R15). Writes one control register that has no row of its own, under the access codes of R7. -/
  | ctlw (c : Nat) (src a b : BitVec 6) (x : Machine.CtlIn)
  /-- FENCE (R260). Orders earlier and later accesses by the sense bits of its mask. -/
  | fence (c : Nat) (mask : BitVec 6)
  /-- MFENCE (R436). Waits until every earlier mirror-window write of this core is settled. -/
  | mfence (c : Nat)
  /-- ISYNC (R97). Serialises the context. -/
  | isync (c : Nat)
  /-- HALT (R98). Stops the context in HALTED. -/
  | halt (c : Nat)
  /-- RDSR (R72). Reads a state register by number. -/
  | rdsr (c : Nat) (d n : BitVec 6)
  /-- WRSR (R72). Writes a writable state register by number and serialises. -/
  | wrsr (c : Nat) (n a : BitVec 6)
  /-- LTAKE (R404). Takes the lowest delivered record of a queue as a sealed record capability. -/
  | ltake (c : Nat) (d a : BitVec 6)
  /-- LOUT (R405). Captures an output descriptor on a taken record. -/
  | lout (c : Nat) (d a b : BitVec 6)
  /-- LRET (R406). Retires a taken record after MFENCE for M queues, and revokes its pair. -/
  | lret (c : Nat) (d a : BitVec 6)
  /-- LPUT (R408). Creates a record from memory and waits for its acceptance. -/
  | lput (c : Nat) (d a b : BitVec 6)
  /-- LSTAT (R409). Returns the status word of a queue. -/
  | lstat (c : Nat) (d a : BitVec 6)
  /-- LHAND (R407). Hands a taken record back to DELIVERED. -/
  | lhand (c : Nat) (d a : BitVec 6)
  /-- MNTQ (R277). Queues a maintenance operation in a slot. -/
  | mntq (c : Nat) (d a b : BitVec 6)
  /-- MNTT (R279). Returns the BUSY and ERR bits of the masked slots without waiting. -/
  | mntt (c : Nat) (d a : BitVec 6)
  /-- MNTT_W (R279). Waits until the masked slots are idle. -/
  | mnttW (c : Nat) (d a : BitVec 6)
  /-- EWAIT (R205). Collects one selected pending event or the timer, or waits for one. -/
  | ewait (c : Nat) (d a : BitVec 6)
  /-- ESIG (R206). Raises a SOFT event. -/
  | esig (c : Nat) (a : BitVec 6)
  /-- LOOP (R175). Starts a hardware loop with a count taken from a register. -/
  | loop (c : Nat) (lv : Bool) (a : BitVec 6) (len : BitVec 13)
  /-- LOOPI (R175). Starts a hardware loop with an immediate count. -/
  | loopi (c : Nat) (lv : Bool) (count : BitVec 10) (len : BitVec 13)
  /-- SETVL (R108). Sets VL and VTYPE. -/
  | setvl (c : Nat) (d a : BitVec 6) (imm : BitVec 14)
  /-- VLD (R117). Unit-stride vector load. -/
  | vld (c : Nat) (k : Bool) (vd : BitVec 5) (a b : BitVec 6)
  /-- VST (R117). Unit-stride vector store. -/
  | vst (c : Nat) (k : Bool) (vd : BitVec 5) (a b : BitVec 6)
  /-- VLDS (R117). Strided vector load. -/
  | vlds (c : Nat) (k : Bool) (vd : BitVec 5) (a b : BitVec 6)
  /-- VSTS (R117). Strided vector store. -/
  | vsts (c : Nat) (k : Bool) (vd : BitVec 5) (a b : BitVec 6)
  /-- VGATHER (R117). Indexed vector load. -/
  | vgather (c : Nat) (k : Bool) (vd : BitVec 5) (a : BitVec 6) (vb : BitVec 5) (sc : BitVec 2)
  /-- VSCATTER (R117). Indexed vector store. -/
  | vscatter (c : Nat) (k : Bool) (vd : BitVec 5) (a : BitVec 6) (vb : BitVec 5) (sc : BitVec 2)
  /-- VADD (R112). Vector integer add. -/
  | vadd (c : Nat) (k : Bool) (vd va : BitVec 5) (scalar : Bool) (b : BitVec 6)
  /-- VSUB (R112). Vector integer subtract. -/
  | vsub (c : Nat) (k : Bool) (vd va : BitVec 5) (scalar : Bool) (b : BitVec 6)
  /-- VAND (R112). Vector AND. -/
  | vand (c : Nat) (k : Bool) (vd va : BitVec 5) (scalar : Bool) (b : BitVec 6)
  /-- VOR (R112). Vector OR. -/
  | vor (c : Nat) (k : Bool) (vd va : BitVec 5) (scalar : Bool) (b : BitVec 6)
  /-- VXOR (R112). Vector XOR. -/
  | vxor (c : Nat) (k : Bool) (vd va : BitVec 5) (scalar : Bool) (b : BitVec 6)
  /-- VSHL (R112). Vector shift left. -/
  | vshl (c : Nat) (k : Bool) (vd va : BitVec 5) (scalar : Bool) (b : BitVec 6)
  /-- VSHR (R112). Vector logical shift right. -/
  | vshr (c : Nat) (k : Bool) (vd va : BitVec 5) (scalar : Bool) (b : BitVec 6)
  /-- VSRA (R112). Vector arithmetic shift right. -/
  | vsra (c : Nat) (k : Bool) (vd va : BitVec 5) (scalar : Bool) (b : BitVec 6)
  /-- VMIN (R112). Vector signed minimum. -/
  | vmin (c : Nat) (k : Bool) (vd va : BitVec 5) (scalar : Bool) (b : BitVec 6)
  /-- VMAX (R112). Vector signed maximum. -/
  | vmax (c : Nat) (k : Bool) (vd va : BitVec 5) (scalar : Bool) (b : BitVec 6)
  /-- VMINU (R112). Vector unsigned minimum. -/
  | vminu (c : Nat) (k : Bool) (vd va : BitVec 5) (scalar : Bool) (b : BitVec 6)
  /-- VMAXU (R112). Vector unsigned maximum. -/
  | vmaxu (c : Nat) (k : Bool) (vd va : BitVec 5) (scalar : Bool) (b : BitVec 6)
  /-- VMUL (R112). Vector multiply, keeping the low bits. -/
  | vmul (c : Nat) (k : Bool) (vd va : BitVec 5) (scalar : Bool) (b : BitVec 6)
  /-- VMULH (R112). Vector signed multiply, keeping the high bits. -/
  | vmulh (c : Nat) (k : Bool) (vd va : BitVec 5) (scalar : Bool) (b : BitVec 6)
  /-- VMULHU (R112). Vector unsigned multiply, keeping the high bits. -/
  | vmulhu (c : Nat) (k : Bool) (vd va : BitVec 5) (scalar : Bool) (b : BitVec 6)
  /-- VMACC (R112). Vector multiply-accumulate. -/
  | vmacc (c : Nat) (k : Bool) (vd va : BitVec 5) (scalar : Bool) (b : BitVec 6)
  /-- VADDS (R112). Vector signed saturating add. -/
  | vadds (c : Nat) (k : Bool) (vd va : BitVec 5) (scalar : Bool) (b : BitVec 6)
  /-- VADDUS (R112). Vector unsigned saturating add. -/
  | vaddus (c : Nat) (k : Bool) (vd va : BitVec 5) (scalar : Bool) (b : BitVec 6)
  /-- VSUBS (R112). Vector signed saturating subtract. -/
  | vsubs (c : Nat) (k : Bool) (vd va : BitVec 5) (scalar : Bool) (b : BitVec 6)
  /-- VSUBUS (R112). Vector unsigned saturating subtract. -/
  | vsubus (c : Nat) (k : Bool) (vd va : BitVec 5) (scalar : Bool) (b : BitVec 6)
  /-- VFADD (R113). Vector floating-point add. -/
  | vfadd (c : Nat) (k : Bool) (vd va : BitVec 5) (scalar : Bool) (b : BitVec 6)
  /-- VFSUB (R113). Vector floating-point subtract. -/
  | vfsub (c : Nat) (k : Bool) (vd va : BitVec 5) (scalar : Bool) (b : BitVec 6)
  /-- VFMUL (R113). Vector floating-point multiply. -/
  | vfmul (c : Nat) (k : Bool) (vd va : BitVec 5) (scalar : Bool) (b : BitVec 6)
  /-- VFDIV (R113). Vector floating-point divide. -/
  | vfdiv (c : Nat) (k : Bool) (vd va : BitVec 5) (scalar : Bool) (b : BitVec 6)
  /-- VFSQRT (R113). Vector floating-point square root. -/
  | vfsqrt (c : Nat) (k : Bool) (vd va : BitVec 5)
  /-- VFMIN (R113). Vector IEEE minimumNumber. -/
  | vfmin (c : Nat) (k : Bool) (vd va : BitVec 5) (scalar : Bool) (b : BitVec 6)
  /-- VFMAX (R113). Vector IEEE maximumNumber. -/
  | vfmax (c : Nat) (k : Bool) (vd va : BitVec 5) (scalar : Bool) (b : BitVec 6)
  /-- VFMACC (R113). Vector fused multiply-accumulate. -/
  | vfmacc (c : Nat) (k : Bool) (vd va : BitVec 5) (scalar : Bool) (b : BitVec 6)
  /-- VFNMSAC (R113). Vector fused negative multiply-accumulate. -/
  | vfnmsac (c : Nat) (k : Bool) (vd va : BitVec 5) (scalar : Bool) (b : BitVec 6)
  /-- VFCVT_F_X (R113). Vector integer to floating-point conversion. -/
  | vfcvtFX (c : Nat) (k : Bool) (vd va : BitVec 5)
  /-- VFCVT_X_F (R113). Vector floating-point to integer conversion with saturation. -/
  | vfcvtXF (c : Nat) (k : Bool) (vd va : BitVec 5)
  /-- VMSEQ (R114). Vector equality compare into a mask register. -/
  | vmseq (c : Nat) (k : Bool) (md : BitVec 3) (va : BitVec 5) (scalar : Bool) (b : BitVec 6)
  /-- VMSNE (R114). Vector inequality compare into a mask register. -/
  | vmsne (c : Nat) (k : Bool) (md : BitVec 3) (va : BitVec 5) (scalar : Bool) (b : BitVec 6)
  /-- VMSLT (R114). Vector signed less-than compare. -/
  | vmslt (c : Nat) (k : Bool) (md : BitVec 3) (va : BitVec 5) (scalar : Bool) (b : BitVec 6)
  /-- VMSLTU (R114). Vector unsigned less-than compare. -/
  | vmsltu (c : Nat) (k : Bool) (md : BitVec 3) (va : BitVec 5) (scalar : Bool) (b : BitVec 6)
  /-- VMFEQ (R114). Vector floating-point equality compare. -/
  | vmfeq (c : Nat) (k : Bool) (md : BitVec 3) (va : BitVec 5) (scalar : Bool) (b : BitVec 6)
  /-- VMFLT (R114). Vector floating-point less-than compare. -/
  | vmflt (c : Nat) (k : Bool) (md : BitVec 3) (va : BitVec 5) (scalar : Bool) (b : BitVec 6)
  /-- VMFLE (R114). Vector floating-point less-or-equal compare. -/
  | vmfle (c : Nat) (k : Bool) (md : BitVec 3) (va : BitVec 5) (scalar : Bool) (b : BitVec 6)
  /-- VMAND (R114). Mask AND. -/
  | vmand (c : Nat) (md ma mb : BitVec 3)
  /-- VMOR (R114). Mask OR. -/
  | vmor (c : Nat) (md ma mb : BitVec 3)
  /-- VMXOR (R114). Mask XOR. -/
  | vmxor (c : Nat) (md ma mb : BitVec 3)
  /-- VMANDN (R114). Mask AND NOT. -/
  | vmandn (c : Nat) (md ma mb : BitVec 3)
  /-- VMNOT (R114). Mask NOT. -/
  | vmnot (c : Nat) (md ma : BitVec 3)
  /-- VMPOPC (R114). Counts the set mask bits below VL. -/
  | vmpopc (c : Nat) (d : BitVec 6) (ma : BitVec 3)
  /-- VMFIRST (R114). Returns the lowest set mask bit below VL. -/
  | vmfirst (c : Nat) (d : BitVec 6) (ma : BitVec 3)
  /-- VMRDL (R114). Reads mask bits [63:0] into a general register. -/
  | vmrdl (c : Nat) (d : BitVec 6) (ma : BitVec 3)
  /-- VMRDH (R114). Reads mask bits [127:64] into a general register. -/
  | vmrdh (c : Nat) (d : BitVec 6) (ma : BitVec 3)
  /-- VMWRL (R114). Writes mask bits [63:0] from a general register. -/
  | vmwrl (c : Nat) (md : BitVec 3) (a : BitVec 6)
  /-- VMWRH (R114). Writes mask bits [127:64] from a general register. -/
  | vmwrh (c : Nat) (md : BitVec 3) (a : BitVec 6)
  /-- VMV_V_X (R116). Splats a scalar into the active elements. -/
  | vmvVX (c : Nat) (k : Bool) (vd : BitVec 5) (a : BitVec 6)
  /-- VMV_X_S (R116). Moves element 0, sign-extended, to a general register. -/
  | vmvXS (c : Nat) (d : BitVec 6) (va : BitVec 5)
  /-- VMV_V_V (R116). Vector register move. -/
  | vmvVV (c : Nat) (k : Bool) (vd va : BitVec 5)
  /-- VID (R116). Writes each element's index. -/
  | vid (c : Nat) (k : Bool) (vd : BitVec 5)
  /-- VRGATHER (R116). Permutes elements by an index vector. -/
  | vrgather (c : Nat) (k : Bool) (vd va vb : BitVec 5)
  /-- VSLIDEDN (R116). Slides elements down by n. -/
  | vslidedn (c : Nat) (k : Bool) (vd va : BitVec 5) (b : BitVec 6)
  /-- VSLIDEUP (R116). Slides elements up by n. -/
  | vslideup (c : Nat) (k : Bool) (vd va : BitVec 5) (b : BitVec 6)
  /-- VREDSUM (R116). Integer sum reduction. -/
  | vredsum (c : Nat) (d : BitVec 6) (va : BitVec 5) (b : BitVec 6)
  /-- VREDMAX (R116). Signed maximum reduction. -/
  | vredmax (c : Nat) (d : BitVec 6) (va : BitVec 5) (b : BitVec 6)
  /-- VREDMIN (R116). Signed minimum reduction. -/
  | vredmin (c : Nat) (d : BitVec 6) (va : BitVec 5) (b : BitVec 6)
  /-- VFREDSUM (R116). Ordered floating-point sum reduction. -/
  | vfredsum (c : Nat) (d : BitVec 6) (va : BitVec 5) (b : BitVec 6)
  /-- TAKE_EVENT_EXCEPTION (R204). Takes an EVENT exception at an instruction boundary for an enabled pending line or timer. -/
  | takeEventException (c : Nat) (vec : Bool)
  /-- TAKE_NMI (R144). Takes a delivered NMI through the exception entry, or holds it while NA = 1. -/
  | takeNmi (c : Nat) (vec : Bool)
  /-- REFUSED_STORE_RESPONSE (R200). A refusal of a retired store or CTLW arrives at the core and makes a refused-store exception pending. -/
  | refusedStoreResponse (c : Nat) (a : Acc) (r : Rule) (addr : Nat) (phys old : Bool)
  /-- TAKE_REFUSED_STORE (R200). Takes the pending refused-store exception imprecisely at the next boundary. -/
  | takeRefusedStore (c : Nat)
  /-- TIMER_EXPIRES (R204). The core's DT reaches TIMECMP and the timer becomes pending. -/
  | timerExpires (c : Nat)
  /-- EVENT_DELIVERY (R203). A raised event reaches its target core's line, making it pending or waking EWAIT. -/
  | eventDelivery (n : Nat)
  /-- SYT_EVR_ROUTE_WRITE (R202). Writes one event route, which takes effect at every stop within 1 µs. -/
  | sytEvrRouteWrite (mst : Master) (v : W64)
  /-- SYT_EVR_FIRE (R203). Raises an event for test as its source would. -/
  | sytEvrFire (mst : Master) (v : W64)
  /-- NMI_N_ASSERT (R207). A qualified assertion of NMI_N is counted and delivered to the target V-cores. -/
  | nmiNAssert
  /-- STOP (R144). A STOP command through the core window moves the context to STOPPING, or from HALTED to STOPPED. -/
  | stop (mst : Master) (c : Nat) (vec : Bool)
  /-- STOP_COMPLETE (R145). A stopping core reaches a serialising point and enters STOPPED with RESUMABLE = 1. -/
  | stopComplete (c : Nat)
  /-- RESUME (R144). A RESUME command continues a resumable stopped context. -/
  | resume (mst : Master) (c : Nat)
  /-- RESTART (R146). A RESTART command performs a context restart from the CTX_ registers. -/
  | restart (mst : Master) (c : Nat)
  /-- CTX_REGISTER_WRITE (R147). A CTLW to a CTX_ register stores the whole tagged word, or is ignored and sets WIGN. -/
  | ctxRegisterWrite (mst : Master) (c off : Nat) (w : Word)
  /-- EXPERT_UNLOCK_WRITE (R19). A write to EXPERT_UNLOCK advances or breaks the unlock sequence. -/
  | expertUnlockWrite (mst : Master) (st k : Nat) (v : W64)
  /-- BLK_CTRL_WRITE (R23). Writes ENABLE and QUIESCE, starting the disable sequence if work is in flight. -/
  | blkCtrlWrite (mst : Master) (st k : Nat) (v : W64)
  /-- DISABLE_COMPLETE (R23). The block's work in flight ends and ENABLE reads 0. -/
  | disableComplete (st k : Nat)
  /-- VIOL_ADDR_CLEAR (R25). Clearing VALID clears the violation capture. -/
  | violAddrClear (mst : Master) (st k : Nat) (v : W64) (arrivals : List Machine.Viol)
  /-- SERIALISE_TIMEOUT (R69). A core that reaches no serialising point within 20 µs of a sweep request serialises and clears matching tags. -/
  | serialiseTimeout (c : Nat)
  /-- POD_RESET (R151). A block reset of a pod stops the cores, writes back the L2s, resets and releases. -/
  | podReset (mst : Master) (p : Nat) (lost : List (Nat × List W64))
  /-- CC_RESET (R185). A block reset of a C-cluster stops the cores, drains the merging buffers, resets and releases. -/
  | ccReset (mst : Master) (k : Nat) (lost : List (Nat × List W64))
  /-- CCORE_L1_DISABLE (R163). A write of 0 to CCORE_L1_CTRL.EN drains the merging buffer and invalidates the L1. -/
  | ccoreL1Disable (mst : Master) (c : Nat)
  /-- CCORE_BTB_FLUSH (R174). FLUSH clears the C-core branch-target buffer. -/
  | ccoreBtbFlush (mst : Master) (c : Nat)
  /-- MB_IDLE_DRAIN (R165). A merging-buffer entry idle for IDLE cycles drains to its home. -/
  | mbIdleDrain (c i : Nat)
  /-- PREFETCH_ISSUE (R137). A trained prefetcher sends a prefetch within the page. -/
  | prefetchIssue (c w trained va : Nat)
  /-- L2_HARDWARE_CLEAN (R266). A write of 0 to VCORE_L2_CTRL.EN empties the L1s and the L2 and leaves the core uncached. -/
  | l2HardwareClean (mst : Master) (c : Nat)
  /-- L3_DISABLE (R272). A write of 0 to L3H_L3_CTRL.EN stops allocation and walks the slice, writing dirty lines. -/
  | l3Disable (mst : Master) (p : Nat)
  /-- RDS (R252). A read-for-sharing request arrives at the home and runs its flow. -/
  | rds (a line tc : Nat) (victim : Option Nat) (pinned : Bool)
  /-- RDX (R252). A read-for-ownership request arrives at the home. -/
  | rdx (a line tc : Nat) (victim : Option Nat) (pinned : Bool)
  /-- UPG (R252). An upgrade request arrives at the home. -/
  | upg (a line tc : Nat) (victim : Option Nat) (pinned : Bool)
  /-- RDU (R252). An uncached read arrives at the home. -/
  | rdu (mst : Master) (line tc : Nat)
  /-- WRU (R252). A masked write without ownership arrives at the home. -/
  | wru (mst : Master) (line tc mask : Nat) (data : List W64) (poison : Nat)
  /-- WRM (R261). A mirror-window write arrives at the home and is forwarded. -/
  | wrm (mst : Master) (line tc mask : Nat) (data : List W64) (poison : Nat)
  /-- ATOMF (R252). An atomic or grant-entry update is performed at the home. -/
  | atomf (mst : Master) (line tc i op : Nat) (a b : Word)
  /-- WBD (R253). A writeback of an M line arrives at the home. -/
  | wbd (a line : Nat)
  /-- EVC (R250). A clean-eviction notice arrives at the home. -/
  | evc (a line : Nat)
  /-- SNPK (R251). The owner or keeper supplies the line and keeps a K copy. -/
  | snpk (a line : Nat) (wb : Bool)
  /-- SNPX (R251). The owner or keeper forwards or returns the data and invalidates. -/
  | snpx (a line : Nat) (wb : Bool)
  /-- SNPI (R251). A sharer invalidates its copy. -/
  | snpi (a line : Nat)
  /-- SNPC (R251). The owner returns a copy to the home, and M becomes E. -/
  | snpc (a line : Nat) (wb : Bool)
  /-- DATA (R251). Line data arrives at the requester. -/
  | data (stop unit line : Nat)
  /-- GO (R251). The home's ordering and completion response arrives at the requester. -/
  | go (stop unit line : Nat)
  /-- RSPS (R251). A snooped agent reports that it kept a copy. -/
  | rsps (a line : Nat)
  /-- RSPI (R251). A snooped agent reports that it invalidated. -/
  | rspi (a line : Nat)
  /-- RSPWBF (R253). A snooped agent reports a writeback in flight. -/
  | rspwbf (a line : Nat)
  /-- CMP (R252). The requester reports the line installed, ending the block. -/
  | cmp (stop unit line : Nat)
  /-- WBACK (R251). The home acknowledges a writeback or eviction. -/
  | wback (a line : Nat)
  /-- RETRY (R247). The home or controller refuses a request for lack of a tracker or position. -/
  | retry (stop unit line : Nat)
  /-- CREDIT (R247). A freed tracker invites the oldest retried requester to resend. -/
  | credit (p : Nat)
  /-- SLICE_TABLE_WRITE (R246). A write to SYT_SLT_DATA starts a bucket move. -/
  | sliceTableWrite (v : W64)
  /-- BUCKET_MOVE_COMPLETE (R246). The old home finishes recalling and writing back the bucket, and the routers release the held requests. -/
  | bucketMoveComplete
  /-- FLIT_RECEIVE (R240). A router receives a flit, correcting, poisoning or discarding it on error. -/
  | flitReceive (st : Nat) (tc0 : Bool) (ce : Nat) (bad : List Nat) (header : Bool)
  /-- MAINTENANCE_COMMAND (R276). The engine issues one line command of a running slot, and the home carries it out. -/
  | maintenanceCommand (n : Nat)
  /-- SLOT_DONE (R282). A maintenance slot ends in DONE with its status and raises its event. -/
  | slotDone (n : Nat)
  /-- MNT_ABORT (R282). A write naming a running slot ends it with ABORTED. -/
  | mntAbort (mst : Master) (v : W64)
  /-- MC_REQUEST (R295). A request takes a controller position, or is retried, and is served under the ordering mode. -/
  | mcRequest (mst : Master) (line tc : Nat) (op : Machine.McOp) (summMiss : Bool) (slots : Nat)
  /-- MC_ORDER_WRITE (R298). A write of ORDER changes the ordering mode, or is ignored while a journal copy is present. -/
  | mcOrderWrite (mst : Master) (mc : Nat) (compat : Bool)
  /-- REFRESH (R301). The controller refreshes a bank once per tREFI. -/
  | refresh (ch sub rank bank : Nat) (postpone : Bool)
  /-- CALIBRATION (R303). The periodic impedance calibration or DQS oscillator read of an active channel. -/
  | calibration (ch sub : Nat)
  /-- DPHY_FAIL (R305). A FAIL command declares the channel FAILED. -/
  | dphyFail (mst : Master) (ch : Nat)
  /-- DPHY_RETRAIN (R303). A RETRAIN command adds one retraining step. -/
  | dphyRetrain (mst : Master) (ch : Nat)
  /-- PARITY_RETRY_FAIL (R305). Three failed command-parity retries make the channel FAILED. -/
  | parityRetryFail (ch : Nat)
  /-- BANKMASK_WRITE (R291). Writes a bank mask, or ignores it and sets MIGN. -/
  | bankmaskWrite (mst : Master) (ch j : Nat) (v : W64)
  /-- SPPR_START (R325). Soft post-package repair of one row, preserving its contents. -/
  | spprStart (mst : Master) (mc : Nat) (v : W64) (result : Nat)
  /-- PATROL_SCRUB (R322). The paced patrol reads, corrects and rewrites the next line. -/
  | patrolScrub (mc : Nat)
  /-- INTERNAL_PATROL (R322). The internal patrol of the L3, cluster memory and ledger SRAM. -/
  | internalPatrol (st k : Nat)
  /-- REGION_INIT_WALK (R538). The background walk initialises the next uninitialised 2 MiB region. -/
  | regionInitWalk (ch : Nat)
  /-- PROT_REMAP_WRITE (R324). Copies a location into or out of a spare and switches the redirection. -/
  | protRemapWrite (mst : Master) (st k : Nat) (v : W64)
  /-- PROT_LOGSEL_WRITE (R320). Selects a log entry, and may clear it or clear OVF. -/
  | protLogselWrite (mst : Master) (st k : Nat) (v : W64)
  /-- FAULT_OCCURRENCE (R334). A report reaches the collector and takes its capture, pending bits and reactions. -/
  | faultOccurrence (rs : List Machine.Report) (known : List (Nat × List W64))
  /-- COLLECTOR_SELF_FAULT (R339). A copy or lockstep mismatch, or an uncorrectable copy, enters Caldera directly. -/
  | collectorSelfFault (kind off : Nat)
  /-- FC_PEND_CLEAR (R336). Clears pending bits; a persisting condition raises a new occurrence. -/
  | fcPendClear (mst : Master) (n : Nat) (v : W64)
  /-- FC_FE_CLEAR (R335). Clears the first-error record, the ALSO bitmap and FC_ALSO_STAT. -/
  | fcFeClear (mst : Master)
  /-- FC_CALD_FORCE (R344). A write with KEY 0xCA1D enters the Caldera state with cause FORCED. -/
  | fcCaldForce (mst : Master) (key : Nat)
  /-- FC_INJ_GO (R347). Makes one occurrence of the chosen source. -/
  | fcInjGo (mst : Master) (v : W64) (known : List (Nat × List W64))
  /-- FC_INJ_SELF (R347). Forces a mismatch of FC_INJ's copies. -/
  | fcInjSelf (mst : Master) (v : W64)
  /-- FC_CFGLOCK (R345). Locks every reaction set. -/
  | fcCfglock (mst : Master)
  /-- SHADOW_END (R337). A reset shadow ends 10 µs after reset release. -/
  | shadowEnd (st : Nat)
  /-- FRAME_RECEIVE (R354). A frame received whole passes the MAC and the ingress pipeline, or is discarded or refused. -/
  | frameReceive (q : Nat) (f : Machine.RxFrame)
  /-- PAUSE_RECEIVE (R352). A received PAUSE or PFC frame pauses egress queues. -/
  | pauseReceive (q : Nat) (pfc : Bool) (enable : Nat) (times : List Nat)
  /-- LINK_UP (R377). A port's link becomes up after 1 ms of lock without faults. -/
  | linkUp (q : Nat)
  /-- LINK_DOWN (R377). A port's link goes down when lock or fault status fails. -/
  | linkDown (q why : Nat)
  /-- DOWNHOLD_EXPIRY (R378). After DOWNHOLD the queues of a down link discard at their heads. -/
  | downholdExpiry (q : Nat)
  /-- FRAME_TRANSMIT (R366). At a transmission opportunity the port sends from the highest eligible egress queue. -/
  | frameTransmit (q : Nat) (part : Option Nat) (late : Bool)
  /-- GCL_CHANGE (R368). At the change time the admin gate control list becomes operational. -/
  | gclChange (q : Nat)
  /-- GCL_INTERVAL_END (R368). A gate control list entry's interval ends and the next entry's gates apply. -/
  | gclIntervalEnd (q : Nat)
  /-- STREAM_GATE_INTERVAL_END (R357). A stream gate schedule entry's interval ends. -/
  | streamGateIntervalEnd (px g : Nat)
  /-- RECOVERY_RESET_TIMEOUT (R364). After RESET_MS with no frame passed, the recovery history resets. -/
  | recoveryResetTimeout (px i : Nat)
  /-- PREEMPT_VERIFY (R370). IEEE 802.3br verification of a preempting port completes or fails. -/
  | preemptVerify (q : Nat) (ok : Bool)
  /-- TXTS_INFO_READ (R372). A read takes the head timestamp entry and latches its time. -/
  | txtsInfoRead (mst : Master) (q : Nat)
  /-- PX_SF_READ (R382). Copies the selected stream table entry into the data words. -/
  | pxSfRead (mst : Master) (px : Nat)
  /-- PX_SF_WRITE (R382). Writes the selected stream table entry whole, or refuses it. -/
  | pxSfWrite (mst : Master) (px : Nat)
  /-- PX_EG_READ (R383). Reads the selected egress table entry. -/
  | pxEgRead (mst : Master) (px : Nat)
  /-- PX_EG_WRITE (R383). Writes the selected egress table entry, including a gate list CHANGE. -/
  | pxEgWrite (mst : Master) (px : Nat)
  /-- PX_RESET (R380). A block reset of a port complex. -/
  | pxReset (mst : Master) (px : Nat)
  /-- PX_PORT_CFG_WRITE (R349). Changes rate, FEC or MAC settings, restarting lock on a rate or FEC change. -/
  | pxPortCfgWrite (mst : Master) (q : Nat) (v : W64)
  /-- PX_PAIR_WRITE (R363). Defines or enables a replication pair. -/
  | pxPairWrite (mst : Master) (px n : Nat) (v : W64)
  /-- IRESUME (R379). Resumes a halted ingress DMA channel. -/
  | iresume (mst : Master) (q : Nat) (v : W64)
  /-- ERESUME (R379). Resumes a halted egress DMA channel. -/
  | eresume (mst : Master) (q : Nat) (v : W64)
  /-- RECORD_ADMIT (R393). A record from a complex reaches the engine, which admits or refuses it. -/
  | recordAdmit (px : Nat)
  /-- RECORD_ACCEPT (R394). The last acknowledgement of an admitted record arrives and it is accepted. -/
  | recordAccept (q n : Nat)
  /-- RECORD_DELIVER (R397). An accepted record whose lower numbers are accepted and whose slot is free is delivered. -/
  | recordDeliver (q bad : Nat) (partnerBad : Bool)
  /-- RECORD_RELEASE (R398). A retired record's release writes are acknowledged and its outputs enter egress. -/
  | recordRelease (q : Nat)
  /-- RECORD_SENT (R392). Every output of a released record is read or discarded and its resources are freed. -/
  | recordSent (q n : Nat)
  /-- RECORD_PAIR_REVOKED (R400). A foreign revocation of a record pair reaches the engine and acts as LHAND. -/
  | recordPairRevoked (q i : Nat)
  /-- LE_Q_READ (R420). Reads the selected queue descriptor. -/
  | leQRead (mst : Master) (e : Nat)
  /-- LE_Q_WRITE (R385). Writes a queue descriptor, enabling, stopping or refusing. -/
  | leQWrite (mst : Master) (e : Nat)
  /-- LE_RESET (R414). A block reset of a ledger engine with journal replay. -/
  | leReset (mst : Master) (e : Nat)
  /-- LEDGER_REBUILD_COMPLETE (R543). An engine finishes rebuilding its J queues after a warm reset. -/
  | ledgerRebuildComplete (e : Nat)
  /-- EPNIS_FRAME_RECEIVE (R423). An Epnis frame arrives, is passed on in order or requested again. -/
  | epnisFrameReceive (l num corr : Nat) (bad : Bool) (ack nak : Option Nat) (b : Machine.EpBody)
  /-- EPNIS_LINK_DOWN (R423). A link loses lane lock for 1 µs or exhausts retransmissions. -/
  | epnisLinkDown (l : Nat)
  /-- EPNIS_LINK_UP (R423). Training completes on all 16 lanes. -/
  | epnisLinkUp (l : Nat)
  /-- PSENSE_FRAME_RECEIVE (R424). A PSENSE frame is received or discarded for its CRC. -/
  | psenseFrameReceive (p : Nat) (f : Machine.PsFrame)
  /-- HEARTBEAT_SEND (R437). A heartbeat is sent every 10 µs on each path. -/
  | heartbeatSend
  /-- HEARTBEAT_PERIOD_END (R437). A 10 µs period ends, counting a miss or declaring the partner lost. -/
  | heartbeatPeriodEnd
  /-- FENCE_IN_ASSERTED (R437). FENCE_IN_N asserted for 1 µs declares the partner lost. -/
  | fenceInAsserted
  /-- FENCE_COMMAND_RECEIVE (R439). A valid fence command from the partner enters Caldera. -/
  | fenceCommandReceive (path : Nat) (id : Bool)
  /-- TAKEOVER (R441). The survivor flips roles and replays the partner's unreleased records. -/
  | takeover
  /-- PAIR_JOIN (R429). A JOIN command starts JOINING. -/
  | pairJoin (mst : Master) (e : Nat)
  /-- PAIR_FENCE (R429). A FENCE command enters FENCED on both devices. -/
  | pairFence (mst : Master) (e : Nat)
  /-- PAIR_RAISE (R447). A RAISE command raises the pair from ML2 to ML3. -/
  | pairRaise (mst : Master) (e : Nat)
  /-- RAISE_TIMEOUT (R447). No quiescent point within 200 µs abandons the raise. -/
  | raiseTimeout
  /-- PAIR_TAKEOVER_CMD (R442). A keyed TAKEOVER command starts takeover from SOLO or FENCED. -/
  | pairTakeoverCmd (mst : Master) (e key : Nat)
  /-- JOIN_HANDSHAKE (R443). The handshake fixes the mirror level and exchanges roles and windows, or fails. -/
  | joinHandshake (p : Machine.JoinInfo)
  /-- RESYNC_COMPLETE (R444). Both devices report completion of resynchronisation and enter PAIRED or DEGRADED. -/
  | resyncComplete
  /-- MIRRORED_RECORD_RECEIVE (R430). The standby journals a mirrored record and acknowledges it. -/
  | mirroredRecordReceive (q n : Nat) (r : Machine.MirRec) (first : Bool)
  /-- RELEASE_MARKER_RECEIVE (R431). The standby records a release marker and acknowledges it. -/
  | releaseMarkerReceive (q n : Nat)
  /-- MIRROR_ACK_RECEIVE (R394). A partner acknowledgement completes a record, marker or window write. -/
  | mirrorAckReceive (a : Machine.MirAck)
  /-- FORWARDED_WRITE_RECEIVE (R434). A forwarded window write is applied in an IN entry or refused. -/
  | forwardedWriteReceive (l line mask : Nat) (data : List W64) (poison : Nat)
  /-- DROP_MARKER_RECEIVE (R466). The standby discards its copies of a dropped queue. -/
  | dropMarkerReceive (q : Nat)
  /-- PARTNER_COPY_READ (R433). The standby answers a read of its journal copy of a record. -/
  | partnerCopyRead (q n : Nat)
  /-- EPN_MW_READ (R435). Reads the selected mirror-window entry. -/
  | epnMwRead (mst : Master) (e : Nat) (mir : Bool)
  /-- EPN_MW_WRITE (R435). Writes a mirror-window entry, with the downgrade walk on enabling an OUT entry. -/
  | epnMwWrite (mst : Master) (e : Nat) (mir : Bool)
  /-- EPN_ROLE_WRITE (R425). Changes role bits of disabled queues in SOLO or FENCED. -/
  | epnRoleWrite (mst : Master) (e n : Nat) (v : W64)
  /-- VQF_ENABLE (R455). Enables a disabled VQF with non-zero weight. -/
  | vqfEnable (mst : Master) (e : Nat)
  /-- VQF_DISABLE (R460). Stops every queue of an enabled VQF. -/
  | vqfDisable (mst : Master) (e : Nat)
  /-- VQF_FREEZE (R463). Freezes every queue of the VQF. -/
  | vqfFreeze (mst : Master) (e : Nat)
  /-- VQF_THAW (R469). Returns the frozen queues to ENABLED or STOPPING. -/
  | vqfThaw (mst : Master) (e : Nat)
  /-- VQF_SAVE (R464). Writes the state block and record area of a frozen VQF. -/
  | vqfSave (mst : Master) (e : Nat)
  /-- VQF_RESTORE (R467). Loads a saved image into a disabled VQF. -/
  | vqfRestore (mst : Master) (e : Nat) (partner : List Nat)
  /-- VQF_DROP (R466). Discards the records of a saved frozen VQF. -/
  | vqfDrop (mst : Master) (e : Nat) (force : Bool)
  /-- VQF_RESUME (R471). Ends a delivery halt. -/
  | vqfResume (mst : Master) (e : Nat)
  /-- VQF_ROUND_START (R456). A new 2 µs round fixes quotas and retests waiting LPUTs. -/
  | vqfRoundStart
  /-- VQF_STOP_COMPLETE (R461). The stop of every queue completes and the VQF enters DISABLED. -/
  | vqfStopComplete (e v : Nat)
  /-- XL_INV_WRITE (R221). Invalidates translations everywhere within the bounds of the writer's world. -/
  | xlInvWrite (mst : Master) (c : Nat) (v : W64)
  /-- XL_G_S1_WRITE (R212). Changes the live guest stage-1 root and the VM table entry. -/
  | xlGS1Write (mst : Master) (c : Nat) (v : W64)
  /-- SEC_WATCHDOG_EXPIRE (R230). The secure watchdog expires and triggers a restart. -/
  | secWatchdogExpire
  /-- KICK (R230). Restarts the secure watchdog period. -/
  | kick (mst : Master)
  /-- SEC_RESTART_REQUEST (R230). The secure world requests its restart. -/
  | secRestartRequest (mst : Master)
  /-- SEC_HOLD_TIMEOUT (R229). A held domain is not released within TMO, triggering a restart. -/
  | secHoldTimeout (d : Nat)
  /-- SEC_HOLD_WRITE (R229). The secure world changes its hold set, releasing deferred requests. -/
  | secHoldWrite (mst : Master) (v : W64)
  /-- SECURE_RESTART (R231). Scrubs the carve-outs and reloads, measures and restarts the secure world. -/
  | secureRestart (img : Machine.SecIn)
  /-- PM_ON (R518). Requests power-on of a domain. -/
  | pmOn (mst : Master) (dom : Nat)
  /-- PM_OFF (R518). Requests power-off of a domain. -/
  | pmOff (mst : Master) (dom : Nat)
  /-- PM_FREQ (R518). Requests a pod frequency. -/
  | pmFreq (mst : Master) (dom mhz : Nat)
  /-- POWER_REQUEST_EXECUTE (R519). The controller carries out a queued power request. -/
  | powerRequestExecute (d : Nat) (known : List (Nat × List W64))
  /-- SUPPLY_FAILURE (R521). A domain supply leaves range or fails to ramp, and the domain becomes FAILED. -/
  | supplyFailure (d : Nat) (known : List (Nat × List W64))
  /-- POWER_CAP_TICK (R523). Every 100 µs the controller measures power and adjusts the cap ceiling. -/
  | powerCapTick (mw : Nat)
  /-- PM_PLIMIT_WRITE (R524). Sets the power limit or rejects it for the grade. -/
  | pmPlimitWrite (mst : Master) (w : Nat)
  /-- FREQ_CHANGE_COMPLETE (R522). A pod's granted operating point changes. -/
  | freqChangeComplete (p : Nat)
  /-- THERMAL_SAMPLE (R525). Every 100 µs the sensors are compared with WARN and THROT. -/
  | thermalSample (ts : List (Nat × Int))
  /-- THERMAL_TRIP (R526). A sensor at 115 °C drives THERMTRIP_N and raises TRIP. -/
  | thermalTrip
  /-- DT_STEP (R511). Adds an offset to device time everywhere at one instant. -/
  | dtStep (mst : Master) (v : W64)
  /-- DT_SET (R511). Loads device time everywhere at one instant. -/
  | dtSet (mst : Master) (v : W64)
  /-- DT_RATE_WRITE (R511). Sets the device-time rate adjustment. -/
  | dtRateWrite (mst : Master) (v : W64)
  /-- PPS_IN_EDGE (R513). A rising PPS_IN edge is captured and steers the servo. -/
  | ppsInEdge (t : Nat)
  /-- DT_PPS (R514). At each whole second the Sytum raises DT_PPS and pulses PPS_OUT. -/
  | dtPps
  /-- DT_HOLDOVER (R512). The synchronisation source times out and device time enters holdover. -/
  | dtHoldover
  /-- DMA_REQUEST (R483). A device memory request is checked by the DMAT and carried out or refused. -/
  | dmaRequest (h : Nat) (q : Machine.DmaReq)
  /-- RP_CFG_ACCESS (R476). An access to RP_CFG_DATA issues one configuration request. -/
  | rpCfgAccess (mst : Master) (r : Nat) (write : Bool) (data : Nat)
  /-- HOTRST (R474). Sends a hot reset on a root-port link. -/
  | hotrst (mst : Master) (r : Nat)
  /-- RP_LINK_CHANGE (R478). A root-port link goes up or down. -/
  | rpLinkChange (r : Nat) (t : Option Machine.RpTrain)
  /-- COMPLETION_TIMEOUT (R478). A read without completion within CTO returns poisoned all ones. -/
  | completionTimeout (c : Nat)
  /-- DMAT_INV (R484). Drops the cached state of the named contexts. -/
  | dmatInv (mst : Master) (h : Nat) (v : W64)
  /-- DMAT_RESUME (R487). Resumes a halted requester. -/
  | dmatResume (mst : Master) (h rid : Nat)
  /-- HIO_RESET (R488). A block reset of a host I/O group. -/
  | hioReset (mst : Master) (h : Nat)
  /-- XSPI_READ (R490). Reads flash into the buffer. -/
  | xspiRead (mst : Master) (len : Nat) (err : Bool)
  /-- XSPI_PROGRAM (R490). Programs flash from the buffer. -/
  | xspiProgram (mst : Master) (len : Nat) (err : Bool)
  /-- XSPI_ERASE_4K (R490). Erases a 4 KiB block. -/
  | xspiErase4k (mst : Master) (err : Bool)
  /-- XSPI_ERASE_64K (R490). Erases a 64 KiB block. -/
  | xspiErase64k (mst : Master) (err : Bool)
  /-- GET_STATUS (R493). Mailbox command that returns the device status. -/
  | getStatus
  /-- GET_FE (R493). Mailbox command that returns the first-error and Caldera records. -/
  | getFe
  /-- GET_PEND (R493). Mailbox command that returns the pending bitmaps. -/
  | getPend
  /-- GET_BOOTLOG (R546). Mailbox command that returns a chunk of the start-up record. -/
  | getBootlog
  /-- READ_REG (R493). Mailbox command that reads a control register. -/
  | readReg
  /-- CLEAR_FE (R493). Mailbox command that clears the first-error record. -/
  | clearFe
  /-- SET_PLIMIT (R524). Mailbox command that sets the power limit. -/
  | setPlimit
  /-- CHIP_RESET (R493). Mailbox command that begins a warm reset 1 ms after DONE. -/
  | chipReset
  /-- CALDERA (R493). Mailbox command that enters the Caldera state. -/
  | caldera
  /-- ENTDAA (R491). I3C dynamic address assignment. -/
  | entdaa (a : Nat)
  /-- SETDASA (R491). I3C sets the dynamic address from the static address. -/
  | setdasa (sa a : Nat)
  /-- RSTDAA (R491). I3C resets the dynamic address. -/
  | rstdaa
  /-- GETPID (R491). I3C returns the provisioned ID. -/
  | getpid
  /-- GETBCR (R491). I3C returns the BCR. -/
  | getbcr
  /-- GETDCR (R491). I3C returns the DCR. -/
  | getdcr
  /-- I3C_GETSTATUS (R491). I3C GETSTATUS common command. -/
  | i3cGetstatus
  /-- MAILBOX_WRITE (R492). An I3C private write sets the offset and writes mailbox bytes. -/
  | mailboxWrite (off : Nat) (bs : List (BitVec 8))
  /-- DBG_SESS_OPEN (R495). Opens a debug session authorised by a DBG grant. -/
  | dbgSessOpen (c : Nat) (cap : Word)
  /-- DBG_SESS_CLOSE (R495). Closes the debug session. -/
  | dbgSessClose (mst : Master)
  /-- DBG_STOP (R495). DBGACC stops a core in scope. -/
  | dbgStop (c : Nat) (vec : Bool)
  /-- DBG_RESUME (R495). DBGACC resumes a core in scope. -/
  | dbgResume (c : Nat)
  /-- DBG_STEP (R495). DBGACC single-steps a stopped core. -/
  | dbgStep (c : Nat)
  /-- DBG_READ_REGS (R495). DBGACC reads registers of a stopped core with tags. -/
  | dbgReadRegs (c : Nat)
  /-- DBG_WRITE_REGS (R495). DBGACC writes registers of a stopped core with TAG = 0. -/
  | dbgWriteRegs (c : Nat) (state : Bool) (n : Nat) (v : W64)
  /-- EXTEST (R494). Boundary drive and capture. -/
  | extest
  /-- IDCODE (R494). Selects the identification register. -/
  | idcode
  /-- SAMPLE (R494). SAMPLE/PRELOAD of the boundary. -/
  | sample
  /-- HIGHZ (R494). Places every output in high impedance. -/
  | highz
  /-- CLAMP (R494). Holds the boundary outputs and selects bypass. -/
  | clamp
  /-- EXTEST_PULSE (R494). IEEE 1149.6 pulse test. -/
  | extestPulse
  /-- EXTEST_TRAIN (R494). IEEE 1149.6 pulse train. -/
  | extestTrain
  /-- DBGACC (R495). Selects debug access. -/
  | dbgacc
  /-- BYPASS (R494). Selects bypass. -/
  | bypass
  /-- PMC_OVF_CLEAR (R505). Clears overflow bits and resumes a frozen bank. -/
  | pmcOvfClear (mst : Master) (st k : Nat) (v : W64)
  /-- FUMAROLE_BOUNDARY (R507). At each window boundary all ports' counts are latched and peaks raised. -/
  | fumaroleBoundary (px : Nat)
  /-- FUM_CFG_WRITE (R507). Discards the window in progress and restarts on the new period. -/
  | fumCfgWrite (mst : Master) (px : Nat) (v : W64)
  /-- FUM_CLRPEAK (R507). Clears PEAK of the named ports. -/
  | fumClrpeak (mst : Master) (px : Nat) (v : W64)
  /-- POWER_ON_RESET (R528). PWRGOOD falls, sending LEAVING and resetting everything. -/
  | powerOnReset
  /-- COLD_BOOT (R540). Start-up from PWRGOOD and RESET_N high through release of the first V-core. -/
  | coldBoot (b : Machine.BootIn)
  /-- RESET_N_ASSERT (R541). RESET_N low for 1 µs begins a chip warm reset. -/
  | resetNAssert
  /-- SYT_RESET (R541). A keyed write begins a chip warm reset. -/
  | sytReset (mst : Master) (key : Nat)
  /-- CHIP_WARM_RESET (R542). The device settles its work in flight and asserts reset. -/
  | chipWarmReset
  /-- RESET_RELEASE (R543). Reset is released and start-up reruns from step 2 with resumed DRAM. -/
  | resetRelease (b : Machine.BootIn)
  /-- ILLEGAL_ENCODING (R75). An instruction word with a reserved or permanently undefined opcode, an unlisted func, or a non-zero must-be-0 field traps ILLEGAL before any other check. -/
  | illegalEncoding (c : Nat) (word : BitVec 32)
  /-- INSTRUCTION_FETCH_FAULT (R194). The fetch of the next instruction fails its X, translation, carve-out, FETCH_UE or poison check, and the core faults on that fetch. -/
  | instructionFetchFault (c : Nat)
  /-- ROOT_PORT_COMPLETION (R476). A PCIe or CXL completion arrives at a root port for a configuration request or a core read of a root-port range, including Configuration Request Retry, Unsupported Request and poisoned data. -/
  | rootPortCompletion (r : Nat) (a : Machine.RpAnswer)
  /-- MAILBOX_READ (R492). An I3C private read returns mailbox bytes and advances the mailbox offset with each byte, wrapping at 0xFF. -/
  | mailboxRead (n : Nat)
  /-- PPS_OUT_PULSE_END (R514). PPS_OUT returns low PPSO_MS ms after the whole-second boundary that raised it. -/
  | ppsOutPulseEnd
  /-- INTEGRATED_REGULATORS_OFF (R526). 1 ms after THERMTRIP_N falls, the device turns off every integrated regulator and leaves VDDQ untouched. -/
  | integratedRegulatorsOff
  /-- ROW_IDLE_CLOSE (R296). An open DRAM row closes once its bank has been idle for DPHY_PAGE.IDLE memory clocks. -/
  | rowIdleClose (ch sub rank bank : Nat)
  /-- PAUSE_TIME_EXPIRY (R352). The pause time that a received PAUSE or PFC frame set for a priority runs out, and its egress queue may send again. -/
  | pauseTimeExpiry (q p : Nat)
  /-- PCS_BLOCK_LOCK (R377). A port's PCS gains block lock, and for RSFEC codeword alignment, setting PX_PORT_STATUS.LOCK and starting the 1 ms count toward link up. -/
  | pcsBlockLock (q : Nat)
  /-- FENCE_IN_N_EDGE (R556). A filtered change of FENCE_IN_N sets or clears EPN_PAIR_STATUS.FENCEIN, with an assertion starting and a release restarting the 1 µs count of R437. -/
  | fenceInNEdge (asserted : Bool)
  /-- NMI_N_RELEASE (R556). NMI_N goes high for 100 ns, re-arming the input for its next qualified assertion and clearing SYT_NMI_STAT.LEVEL. -/
  | nmiNRelease
  deriving DecidableEq, Repr

end Sys2Proof
end

