-- ==== Sys2Proof/Decode.lean ====
section
/-!
DEFINITION. The command that a word spells by the table's bits: the operation table gives no row any bits, so no word
spells a command.
-/

namespace Sys2Proof

/-- The command that the `nbits` bits of `w` spell: none, as no row of the operation table has bits. -/
def decodeTableWord (_nbits _w : Nat) : Option Instr := none

end Sys2Proof
end

