-- ==== Sys2Proof/Config.lean ====
section
/-!
DEFINITION. What the spec leaves open, as opaque constants: no proof can see a value of them.
-/

namespace Sys2Proof.Config

/-- The value of the n-th open choice: a payload that the spec does not fix (log entry 2). -/
opaque freeValue : Nat → W64

/-- SHA-384 of the concatenation of two 384-bit values (R235): the function is named by the spec and defined
outside it, so it stays uninterpreted (log entry 4). -/
opaque sha384Pair : BitVec 384 → BitVec 384 → BitVec 384

/-- Whether tininess is found after rounding or before: IEEE 754-2019, which R90 follows, leaves it to the
implementation (log entry 11). -/
opaque tinyAfter : Bool

/-- Whether a fused multiply-add of infinity, zero and a quiet NaN signals invalid: IEEE 754-2019 leaves it to the
implementation (log entry 11). -/
opaque fmaInfZeroNan : Bool

/-- The check bits that a RAW checker write leaves different from the code's own (R326): the code's matrix is not in
the spec, so the difference is open (log entry 12). -/
opaque rawCheckDiff : Nat → BitVec 128 → BitVec 128

/-- Byte `i` of a start-up record with these contents (R546): the spec lists what the record holds and no layout (log entry 21). -/
opaque bootRecordByte : List Nat → Nat → BitVec 8

/-- The supply in mV of the operating point at some MHz, from the VF words of the fuse array (R522, R530): the words' layout is not in the spec
(log entry 22). -/
opaque podSupply : List Nat → Nat → Nat

/-- Byte `a` of the boot flash before a command of this model programs or erases it (R489): the flash is outside the device (log entry 26). -/
opaque flashByte : Nat → BitVec 8

end Sys2Proof.Config
end

