-- ==== Sys2Proof/Machine/Tab.lean ====
section
/-!
DEFINITION. Sparse tables in one canonical form: a list of (key, value) pairs with rising keys, no entry
equal to the value an unlisted key reads as. Reads, writes and the predicate `Tab.wf`.
-/

namespace Sys2Proof.Tab

/-- The value at key `k`; an unlisted key reads as `d`. -/
def get {β : Type} (d : β) : List (Nat × β) → Nat → β
  | [], _ => d
  | (j, v) :: t, k => if j = k then v else get d t k

/-- Insert or replace the entry of `k`, keys rising. -/
def ins {β : Type} : List (Nat × β) → Nat → β → List (Nat × β)
  | [], k, v => [(k, v)]
  | (j, w) :: t, k, v =>
    if k < j then (k, v) :: (j, w) :: t
    else if j = k then (k, v) :: t
    else (j, w) :: ins t k v

/-- Remove every entry of `k`. -/
def del {β : Type} : List (Nat × β) → Nat → List (Nat × β)
  | [], _ => []
  | (j, w) :: t, k => if j = k then del t k else (j, w) :: del t k

/-- Write `v` at `k`; writing the value an unlisted key reads as removes the entry. -/
def set {β : Type} [DecidableEq β] (d : β) (t : List (Nat × β)) (k : Nat) (v : β) : List (Nat × β) :=
  if v = d then del t k else ins t k v

/-- Change every listed value; a value that becomes the default of an unlisted key is no longer listed. -/
def mapV {β : Type} [DecidableEq β] (d : β) (f : Nat → β → β) : List (Nat × β) → List (Nat × β)
  | [] => []
  | (j, v) :: t => if f j v = d then mapV d f t else (j, f j v) :: mapV d f t

/-- Keys rise strictly, from above `lo`. -/
def rising {β : Type} : Option Nat → List (Nat × β) → Bool
  | _, [] => true
  | none, (j, _) :: t => rising (some j) t
  | some i, (j, _) :: t => decide (i < j) && rising (some j) t

/-- Canonical form: keys rise strictly and no entry equals the value `d k` of an unlisted key. -/
def wf {β : Type} [DecidableEq β] (d : Nat → β) (t : List (Nat × β)) : Bool :=
  rising none t && t.all (fun p => decide (p.2 ≠ d p.1))

end Sys2Proof.Tab
end

