-- ==== Sys2Proof/Machine/CoreTypes.lean ====
section
/-!
DEFINITION. The record of one core: the context registers (R44, R71, R72), the long-vector registers (R104),
the context state and its window's flags (R143, R148), loop banks (R175, R177), translation buffer (R138, R167),
grant cache (R54), merging buffer (R164), C-core L1 (R159), predictor domains (R130) and held asynchronous causes.
-/

namespace Sys2Proof.Machine

/-- A long-vector register (R104): 1,024 bits and one POISON bit per byte. -/
structure VReg where
  bits : BitVec 1024
  poison : BitVec 128
  deriving DecidableEq, Repr, Inhabited

/-- A mask register (R104). -/
structure MReg where
  bits : BitVec 128
  poison : Bool
  deriving DecidableEq, Repr, Inhabited

/-- One loop level (R175). -/
structure LoopLevel where
  active : Bool
  count : W64
  start : Nat
  stop : Nat
  deriving DecidableEq, Repr, Inhabited

/-- One loop bank: levels 0 and 1 (R175, R177). -/
structure LoopBank where
  l0 : LoopLevel
  l1 : LoopLevel
  deriving DecidableEq, Repr, Inhabited

/-- A held translation (R138, R167, R220): a page of `2 ^ log2` bytes, its stage-1 and stage-2 rights, and
whether stage 2 still withholds writes for dirty logging (R219). -/
structure TlbEntry where
  world : World
  vmid : Nat
  asid : Nat
  glob : Bool
  log2 : Nat
  vbase : Nat
  ibase : Nat
  pbase : Nat
  r1 : Bool
  w1 : Bool
  x1 : Bool
  r2 : Bool
  w2 : Bool
  x2 : Bool
  clean : Bool
  ptype : Nat
  deriving DecidableEq, Repr, Inhabited

/-- A held grant entry: the physical address of the entry and its four words (R54, R139). -/
structure GrantLine where
  pa : Nat
  w0 : W64
  w1 : W64
  w2 : W64
  w3 : W64
  deriving DecidableEq, Repr, Inhabited

/-- One word of a merging-buffer entry (R164): the valid bytes, their data, the metadata the stores gave, and
whether the old POISON of memory still joins in (the partial-word row of R34). -/
structure MbWord where
  mask : BitVec 8
  data : W64
  tag : Bool
  poison : Bool
  orOld : Bool
  deriving DecidableEq, Repr, Inhabited

/-- One merging-buffer entry (R164): a line and its words 0 to 7. -/
structure MbEntry where
  line : Nat
  words : List (Nat × MbWord)
  deriving DecidableEq, Repr, Inhabited

/-- One line position of a C-core L1 (R159, R162). -/
structure L1Line where
  line : Nat
  way : Nat
  valid : Bool
  deriving DecidableEq, Repr, Inhabited

/-- A pending refused store (R200). -/
structure Refused where
  cause : Cause
  rule : Rule
  acc : Acc
  addr : Nat
  phys : Bool
  more : Bool
  deriving DecidableEq, Repr, Inhabited

/-- The values that the CTX_ registers hold (R148). -/
structure Ctx where
  pcc : Word
  savecap : Word
  evcap : Word
  link : Word
  gtab : W64
  wtab : W64
  cmpid : Nat
  deriving DecidableEq, Repr, Inhabited

/-- A predictor-domain triple (world, VMID, CMPID) and its domain number (R130). -/
structure PDom where
  world : World
  vmid : Nat
  cmpid : Nat
  dom : Nat
  deriving DecidableEq, Repr, Inhabited

/-- A load of a root-port range (R478), or a CTLR or CTLW of RP_CFG_DATA (R476, `cfg`), that waits for its completion: the destination
register (none for a CTLW), the physical and virtual address, the size, and whether the result is sign-extended. -/
structure RpWait where
  dst : Option Nat
  cfg : Bool
  pa : Nat
  va : Nat
  size : Nat
  signed : Bool
  deriving DecidableEq, Repr, Inhabited

/-- An LPUT that waits at its engine (R408, R458): the queue, the number of the record once it is admitted, the round starts
left, and the refusal once it is final. -/
structure PutWait where
  queue : Nat
  seq : Option Nat
  tries : Nat
  refused : Option Nat
  data : List (BitVec 8)
  pri : Nat
  deriving DecidableEq, Repr, Inhabited

/-- Line states of V-core caches (R248). -/
inductive LineSt where
  | I | S | K | E | M
  deriving DecidableEq, Repr, Inhabited

/-- A swept entry whose tags the core clears at its next serialising point (R69, R140). -/
structure SweepReq where
  tsel : Bool
  index : Nat
  gtab : W64
  pa : Nat
  deriving DecidableEq, Repr, Inhabited

/-- One core (R127, R155). `stepping` says that the next instruction is a debugger's single step (R495). `sel` and `wdst` are the selection and the destination that EWAIT waits with (R205). -/
structure Core where
  st : CoreState
  resumable : Bool
  wign : Bool
  cign : Bool
  nmiLost : Nat
  g : List (Nat × Word)
  pcc : Word
  savecap : Word
  evcap : Word
  link : Word
  gtab : W64
  wtab : W64
  cmpid : Nat
  world : World
  vmid : Nat
  s1 : W64
  s2root : W64
  vl : Nat
  vtype : W64
  v : List (Nat × VReg)
  mreg : List (Nat × MReg)
  evmask : W64
  timecmp : W64
  fcsr : W64
  na : Bool
  nmi : Bool
  window : Bool
  sel : W64
  wdst : Nat
  refused : Option Refused
  lastFrame : List Word
  ctx : Ctx
  pdom : Nat
  domains : List PDom
  progBank : LoopBank
  handBank : LoopBank
  handLive : Bool
  tlb : List TlbEntry
  gcache : List GrantLine
  mb : List MbEntry
  l1 : List L1Line
  btb : List (Nat × Nat)
  lines : List (Nat × LineSt)
  vAbandons : Nat
  vAbPc : Nat
  rpWait : Option RpWait
  put : Option PutWait
  sweeps : List SweepReq
  mirrorSent : Nat
  mirrorLost : Bool
  stepping : Bool
  deriving DecidableEq, Repr

/-- A cleared vector register. -/
def VReg.zero : VReg := ⟨0, 0⟩
/-- A cleared mask register. -/
def MReg.zero : MReg := ⟨0, false⟩
/-- An inactive loop level. -/
def LoopLevel.clear : LoopLevel := ⟨false, 0, 0, 0⟩
/-- A cleared loop bank (R177). -/
def LoopBank.clear : LoopBank := ⟨.clear, .clear⟩
/-- CTX_ registers at reset (R148: each is 0). -/
def Ctx.zero : Ctx := ⟨.zero, .zero, .zero, .zero, 0, 0, 0⟩
/-- VTYPE with VILL = 1 (R105). -/
def vill : W64 := BitVec.ofNat 64 (2 ^ 63)

/-- A core at power-on: OFF (R143), registers cleared as by a restart (R144, R146); the values that the spec
does not state at power-on are log entry 3. -/
def Core.reset : Core where
  st := .off
  resumable := false
  wign := false
  cign := false
  nmiLost := 0
  g := []
  pcc := .zero
  savecap := .zero
  evcap := .zero
  link := .zero
  gtab := 0
  wtab := 0
  cmpid := 0
  world := .host
  vmid := 0
  s1 := 0
  s2root := 0
  vl := 0
  vtype := vill
  v := []
  mreg := []
  evmask := 0
  timecmp := 0
  fcsr := 0
  na := false
  nmi := false
  window := false
  sel := 0
  wdst := 0
  refused := none
  lastFrame := []
  ctx := .zero
  pdom := 0
  domains := []
  progBank := .clear
  handBank := .clear
  handLive := false
  tlb := []
  gcache := []
  mb := []
  l1 := []
  btb := []
  lines := []
  vAbandons := 0
  vAbPc := 0
  rpWait := none
  put := none
  sweeps := []
  mirrorSent := 0
  mirrorLost := false
  stepping := false

end Sys2Proof.Machine
end

