-- ==== Sys2Proof/Machine/BlockTypes.lean ====
section
/-!
DEFINITION. The state of the blocks that is not register cells: maintenance slots (R273, R274, R277).
-/

namespace Sys2Proof.Machine

/-- A maintenance slot (R273, R277, R282): its state, the request, the issuer's identity and regime, where it stands, and
how it is to end. `cap` is the grant entry that gave it authority, with its GEN; `colour` of a coloured grant is `need`. -/
structure Slot where
  state : Nat
  status : Nat
  ticket : Nat
  op : Nat
  virt : Bool
  evt : Bool
  final : Bool
  colour : Nat
  need : Nat
  ranges : List (Nat × Nat)
  addr : Nat
  world : World
  vmid : Nat
  cmpid : Nat
  asid : Nat
  s1root : Nat
  s2root : Nat
  cap : Option (Nat × Nat)
  sweep : SweepReq
  ending : Option Nat
  ueAt : Option Nat
  deriving DecidableEq, Repr, Inhabited

/-- A slot that was never taken (R273). -/
def Slot.idle : Slot where
  state := 0
  status := 0
  ticket := 0
  op := 0
  virt := false
  evt := false
  final := false
  colour := 0
  need := 0
  ranges := []
  addr := 0
  world := .host
  vmid := 0
  cmpid := 0
  asid := 0
  s1root := 0
  s2root := 0
  cap := none
  sweep := ⟨false, 0, 0, 0⟩
  ending := none
  ueAt := none

/-- The initialised 2 MiB regions of a channel as a bit map, the next region of the walk, and the regions that a write
initialised before the walk (R538). -/
structure Regions where
  map : Nat
  next : Nat
  demand : Nat
  deriving DecidableEq, Repr, Inhabited

/-- A request that holds a position of a controller, or that was answered Retry (R295, R297): its channel and channel
address, source, class and world; whether it is served as TC0 (promoted, R299); the source stops ordering that held when it
arrived; and for a retried one whether a Credit invited it. -/
structure McReq where
  chan : Nat
  ca : Nat
  line : Nat
  stop : Nat
  unit : Nat
  tc : Nat
  world : World
  write : Bool
  compat : Bool
  promoted : Bool
  credited : Bool
  deriving DecidableEq, Repr, Inhabited

/-- What the collector keeps of a source (R332, R335 to R337): its reaction set, its counts, and its pending, shadow and ALSO
bits. -/
structure FcSrc where
  react : Nat
  count : Nat
  shcount : Nat
  pend : Bool
  shadow : Bool
  also : Bool
  deriving DecidableEq, Repr, Inhabited

end Sys2Proof.Machine
end

