-- ==== Sys2Proof/Machine/CohTypes.lean ====
section
/-!
DEFINITION. The state of the homes: L3 lines (R268, R269), directory entries (R249), open transactions with their
snoops, answers and waits (R247, R251 to R254), and requests that were answered Retry.
-/

namespace Sys2Proof.Machine

/-- A line position of an L3 slice (R268, R271): its line, way, DIRTY, whether it holds data (a locked position may not,
R271), and, where an owner has made the line newer, what the L3 holds of it. -/
structure L3Line where
  line : Nat
  way : Nat
  dirty : Bool
  valid : Bool
  heldOld : Option (List Word)
  deriving DecidableEq, Repr, Inhabited

/-- A directory entry (R249): an owner; or a keeper, up to four sharers by agent, and beyond them the marked groups. -/
structure DirEnt where
  owner : Option Nat
  keeper : Option Nat
  sharers : List Nat
  groups : List Nat
  deriving DecidableEq, Repr, Inhabited

/-- No entry: no cache holds the line. -/
def DirEnt.none : DirEnt := ⟨Option.none, Option.none, [], []⟩

/-- Snoops (R251). -/
inductive Snp where
  | K | X | I | C
  deriving DecidableEq, Repr, Inhabited

/-- Answers to a snoop (R251). -/
inductive Rsp where
  | S | I | wbf
  deriving DecidableEq, Repr, Inhabited

/-- Requests to a home (R251); an eviction is complete when it arrives. -/
inductive ReqKind where
  | rds | rdx | upg | rdu | wru | wrm | atomf
  deriving DecidableEq, Repr, Inhabited

/-- A request and its transaction (R247, R252): what it asks, its source, class and world; the bytes it writes, or the
atomic with its operands; whether it is the active transaction of its line, or waits for a directory way; the snoops
under way, the answers under way (with a line or not), and the agents whose writeback is awaited or has come; whether
data and GO were sent and have arrived, the granted state, and an atomic's old value. -/
structure Txn where
  kind : ReqKind
  line : Nat
  stop : Nat
  unit : Nat
  agent : Option Nat
  tc : Nat
  world : World
  mask : Nat
  data : List W64
  poison : Nat
  op : Nat
  a : Word
  b : Word
  active : Bool
  pinned : Bool
  snoops : List (Nat × Snp)
  answers : List (Nat × Rsp × Bool)
  wbAwaited : List Nat
  wbHere : List Nat
  dataSent : Bool
  goSent : Bool
  gotData : Bool
  gotGo : Bool
  grant : LineSt
  old : Word
  deriving DecidableEq, Repr, Inhabited

/-- A request that a home answered Retry (R247): the home's slice, the request, whether the Retry has reached the
requester, and whether a Credit invited it to resend. -/
structure Retried where
  slice : Nat
  req : Txn
  told : Bool
  credited : Bool
  deriving DecidableEq, Repr, Inhabited

end Sys2Proof.Machine
end

