-- ==== Sys2Proof/Machine/LedgerTypes.lean ====
section
/-!
DEFINITION. The state of the ledger engines and the pair that is not register cells: records with their outputs (R387 to
R392), queues (R384, R385, R427), journal entries (R395), queue functions (R454 to R458, R473).
-/

namespace Sys2Proof.Machine

/-- An output captured on a record (R405): its data and descriptor fields; `left` counts its frames that are not yet read or
discarded; `buf` is the payload buffer that a restore gave it (R467). -/
structure OutRec where
  pa : Nat
  len : Nat
  port : Nat
  pri : Nat
  repl : Bool
  tsreq : Bool
  seqgen : Nat
  tstag : Nat
  left : Nat
  buf : Option Nat
  deriving DecidableEq, Repr, Inhabited

/-- The states of a record (R392); a record that is SENT is held no more. -/
inductive RecState where
  | admitted | accepted | delivered | taken | retired | released
  deriving DecidableEq, Repr, Inhabited

/-- What an acknowledgement of the partner stands at (R394, R398): not needed, awaited, or here. -/
inductive Ack where
  | none | awaited | here
  deriving DecidableEq, Repr, Inhabited

/-- A record (R387 to R389, R392): `bad` tells which part no copy gives (0 none, 1 the inline part, 2 the rest, 3 the header:
R411); `partner` and `marker` are the partner's acknowledgements of the record and of its release marker; `copyB` says that
its acceptance used journal copy B. -/
structure LRec where
  seq : Nat
  st : RecState
  flags : Nat
  data : List (BitVec 8)
  port : Nat
  lput : Bool
  pri : Nat
  handle : Nat
  vqf : Nat
  ts : Nat
  atime : Nat
  hcount : Nat
  pcmp : Nat
  pbuf : Option Nat
  bad : Nat
  outs : List OutRec
  pair : Option Nat
  taker : Option (Nat × Nat)
  partner : Ack
  marker : Ack
  copyB : Bool
  deriving DecidableEq, Repr, Inhabited

/-- A queue: descriptor words 0 to 3 (R420), its state and the state before a freeze (R464), the number to assign next, its
records in sequence order, whether it is held (R440), mirrored (R426) and its delivery
halted (R471); and the standby's copies with the number expected and the number after the highest released (R427). -/
structure Queue where
  w0 : W64
  w1 : W64
  w2 : W64
  w3 : W64
  st : Nat
  pre : Nat
  next : Nat
  recs : List LRec
  held : Bool
  mirrored : Bool
  halted : Bool
  copies : List LRec
  expected : Nat
  relAt : Nat
  deriving DecidableEq, Repr, Inhabited

/-- A queue as reset leaves it. -/
def Queue.reset : Queue where
  w0 := 0
  w1 := 0
  w2 := 0
  w3 := 0
  st := 0
  pre := 0
  next := 0
  recs := []
  held := false
  mirrored := false
  halted := false
  copies := []
  expected := 0
  relAt := 0

/-- A journal entry (R395): a record, a release or a state entry, and the records it describes. -/
structure JEnt where
  kind : Nat
  recs : List (Nat × Nat)
  deriving DecidableEq, Repr, Inhabited

/-- An engine: its journal from tail to head with the tail's position, the payload buffers in use, whether it rebuilds its
queues (R543), and the journaled bytes of the present round (R456). -/
structure Engine where
  journal : List JEnt
  tail : Nat
  pbufs : List Nat
  rebuilding : Bool
  jb : Nat
  deriving DecidableEq, Repr, Inhabited

/-- An engine that holds nothing. -/
def Engine.reset : Engine := ⟨[], 0, [], false, 0⟩

/-- A queue function on one engine (R451, R456, R473): its registers, and of the current round the quotas (with whether it
is in the active set) and the records and bytes admitted; and the queues whose drop the partner has not acknowledged (R466). -/
structure Vqf where
  cfg : W64
  share : W64
  ports0 : W64
  ports1 : W64
  st : Nat
  busy : Bool
  saved : Bool
  halted : Bool
  hcause : Bool
  result : Nat
  shareRef : Nat
  blk : W64
  recArea : W64
  avail : Nat
  need : Nat
  s2root : W64
  cmd : Nat
  q : Nat
  b : Nat
  u : Nat
  j : Nat
  drops : List Nat
  deriving DecidableEq, Repr, Inhabited

/-- A queue function before an image loads it. -/
def Vqf.reset : Vqf := ⟨0, 0, 0, 0, 0, false, false, false, false, 0, 0, 0, 0, 0, 0, 0, 0, 0, 0, 0, 0, []⟩

end Sys2Proof.Machine
end

