-- ==== Sys2Proof/Machine/PairTypes.lean ====
section
/-!
DEFINITION. The state of the pair that is not register cells: Epnis links (R423), heartbeats and the partner (R437, R438,
R443, R447).
-/

namespace Sys2Proof.Machine

/-- An Epnis link (R423): the number of the frame to pass on next, the number of the frame to send next, the frames sent and not
yet acknowledged, and the retransmissions of the oldest of them. -/
structure LinkRt where
  rxNext : Nat
  txNext : Nat
  unacked : List Nat
  retx : Nat
  deriving DecidableEq, Repr, Inhabited

/-- A link with nothing sent. -/
def LinkRt.idle : LinkRt := ⟨0, 0, [], 0⟩

/-- What the device keeps of the pair: a raise under way (R447); the heartbeats seen in the present period on link 0, link 1 and
the PSENSE pairs 0 and 1, and the consecutive periods missed on the Epnis path and on the pair-sense channel (R437); the device
times of the last heartbeat with LEAVING and of the assertion of FENCE_IN_N; whether this device has sent LEAVING; the
partner's PAIR_ID and state as its heartbeats carry them; whether the handshake of a JOINING is done (R443); of a raise, whether
the partner is at its quiescent point, and the links still to retrain (R447); and the links. -/
structure PairRt where
  raising : Bool
  seen : List Bool
  epMiss : Nat
  psMiss : Nat
  leftAt : Option Nat
  fenceAt : Option Nat
  leaving : Bool
  partnerId : Bool
  partnerState : Nat
  shaken : Bool
  partnerQuiet : Bool
  relinks : List Nat
  link0 : LinkRt
  link1 : LinkRt
  deriving DecidableEq, Repr, Inhabited

/-- No partner. -/
def PairRt.reset : PairRt where
  raising := false
  seen := [false, false, false, false]
  epMiss := 0
  psMiss := 0
  leftAt := none
  fenceAt := none
  leaving := false
  partnerId := false
  partnerState := 0
  shaken := false
  partnerQuiet := false
  relinks := []
  link0 := .idle
  link1 := .idle

/-- Link `l`. -/
def PairRt.link (x : PairRt) (l : Nat) : LinkRt := if l = 0 then x.link0 else x.link1
/-- Write link `l`. -/
def PairRt.setLink (x : PairRt) (l : Nat) (r : LinkRt) : PairRt := if l = 0 then { x with link0 := r } else { x with link1 := r }

end Sys2Proof.Machine
end

