-- ==== Sys2Proof/Machine/PortTypes.lean ====
section
/-!
DEFINITION. The state of the port complexes that is not register cells: frames handed to the engines (R359, R360), egress
frames (R365, R366), timestamps (R372), recovery histories (R364), meter buckets (R358), and what a port holds.
-/

namespace Sys2Proof.Machine

/-- A frame that passed the ingress pipeline and awaits its engine (R359): port, queue, stored part, stream handle (none for
a frame steered to DEFQ), priority, ingress timestamp, and whether it takes the TC0 reservation of the buffer. -/
structure Handover where
  port : Nat
  queue : Nat
  bytes : List (BitVec 8)
  handle : Option Nat
  pri : Nat
  ts : Nat
  tc0 : Bool
  deriving DecidableEq, Repr, Inhabited

/-- A released output in an egress queue (R365, R366): the record's queue and number, which output it is, its data, priority,
R-TAG number, the timestamp it asks for, and whether it has waited for a gate (R508). -/
structure EgFrame where
  queue : Nat
  seq : Nat
  k : Nat
  pa : Nat
  len : Nat
  pri : Nat
  rtag : Option Nat
  tsreq : Bool
  tstag : Nat
  waited : Bool
  deriving DecidableEq, Repr, Inhabited

/-- What a port holds: its egress queues by number, the paused priorities (bit 8 for a PAUSE, R352), the priorities for which
PFC is sent, the credits of shaped queues in 10^-6 bits with the time of their last change (R367), the timestamp FIFO (R372),
a preempted frame with its queue and the bytes already sent (R370), whether its hold time is over (R378), the frames and bytes
of its Fumarole window (R506), the operational gate list with its base and cycle, and the list, cycle and time of the
pending or last change (R368). -/
structure PortRt where
  eqs : List (Nat × List EgFrame)
  paused : Nat
  pfc : Nat
  credits : List (Nat × Int × Nat)
  txts : List (Nat × Nat)
  txOvf : Bool
  cut : Option (Nat × EgFrame × Nat)
  downEnded : Bool
  rx : Nat × Nat
  tx : Nat × Nat
  oper : List W64
  operBase : Nat
  operCycle : Nat
  changeAt : Nat
  pendingChange : Bool
  everOper : Bool
  adm : List W64
  admCycle : Nat
  deriving DecidableEq, Repr, Inhabited

/-- A port with nothing held. -/
def PortRt.idle : PortRt where
  eqs := []
  paused := 0
  pfc := 0
  credits := []
  txts := []
  txOvf := false
  cut := none
  downEnded := false
  rx := (0, 0)
  tx := (0, 0)
  oper := []
  operBase := 0
  operCycle := 0
  changeAt := 0
  pendingChange := false
  everOper := false
  adm := []
  admCycle := 0

/-- A recovery function's history (R364): the number of the latest frame, and a bit for each number up to it, by distance; none
before the first frame. -/
structure RcvHist where
  seq : Nat
  hist : Nat
  deriving DecidableEq, Repr, Inhabited

/-- Meter buckets in units of 1/8,000,000 byte, and the time of their last fill (R358). -/
structure MeterRt where
  c : Nat
  e : Nat
  t : Nat
  deriving DecidableEq, Repr, Inhabited

end Sys2Proof.Machine
end

