-- ==== Sys2Proof/Machine/RegMap.lean ====
section
/-!
DEFINITION. The stop map (R12), the block windows of each stop (R16), the block types (R22), the fault-source
ranges (R329), and the register tables of the windows as access masks (R5 to R10).
-/

namespace Sys2Proof.Machine

/-- Block types of R22. -/
inductive Blk where
  | syt | pm | fc | fuse | dt | xspi | i3c | dbg | therm | carve | pod | vcore | l3h | pmu | rtr | cc | ccore | mc | dphy | px | port | sflt | egs | le | epn | psns | vqf | hio | rp | dmat | mnt
  deriving DecidableEq, Repr, Inhabited

/-- The type codes of R22. -/
def Blk.code : Blk → Nat
  | .syt => 0x1
  | .pm => 0x2
  | .fc => 0x3
  | .fuse => 0x4
  | .dt => 0x5
  | .xspi => 0x6
  | .i3c => 0x7
  | .dbg => 0x8
  | .therm => 0x9
  | .carve => 0xa
  | .pod => 0xb
  | .vcore => 0xc
  | .l3h => 0xd
  | .pmu => 0xe
  | .rtr => 0xf
  | .cc => 0x10
  | .ccore => 0x11
  | .mc => 0x12
  | .dphy => 0x13
  | .px => 0x14
  | .port => 0x15
  | .sflt => 0x16
  | .egs => 0x17
  | .le => 0x18
  | .epn => 0x19
  | .psns => 0x1a
  | .vqf => 0x1b
  | .hio => 0x1c
  | .rp => 0x1d
  | .dmat => 0x1e
  | .mnt => 0x1f

/-- Stop kinds of R12 with their instance numbers. -/
inductive Stop where
  | syt | hio (h : Nat) | px (n : Nat) | cc (k : Nat) | le (e : Nat) | mnt | mc (m : Nat) | pod (p : Nat)
  | none
  deriving DecidableEq, Repr, Inhabited

/-- The stop map of R12. -/
def stopKind (s : Nat) : Stop :=
  if s = 0 then .syt else if s = 1 then .hio 0 else if s = 2 then .px 0 else if s = 3 then .cc 0
  else if s = 4 then .cc 1 else if s = 5 then .px 1 else if s = 6 then .le 0 else if s = 7 then .mnt
  else if s = 8 then .mc 0 else if s < 15 then .pod (s - 9) else if s = 15 then .mc 1
  else if s < 24 then .pod (s - 10) else if s = 24 then .mc 2 else if s < 31 then .pod (s - 11)
  else if s = 31 then .mc 3 else if s < 40 then .pod (s - 12) else if s = 40 then .mc 4
  else if s < 47 then .pod (s - 13) else if s = 47 then .mc 5 else if s = 48 then .pod 34
  else if s = 49 then .le 1 else if s = 50 then .px 2 else if s = 51 then .cc 2 else if s = 52 then .cc 3
  else if s = 53 then .px 3 else if s = 54 then .hio 1 else if s = 55 then .pod 35 else .none

/-- The stop of pod `p` (R12). -/
def podStop (p : Nat) : Nat :=
  if p < 6 then p + 9 else if p < 14 then p + 10 else if p < 20 then p + 11 else if p < 28 then p + 12
  else if p < 34 then p + 13 else if p = 34 then 48 else 55
/-- The stop of C-cluster `k` (R12). -/
def ccStop (k : Nat) : Nat := if k = 0 then 3 else if k = 1 then 4 else if k = 2 then 51 else 52
/-- The stop of memory controller `m` (R12). -/
def mcStop (m : Nat) : Nat :=
  if m = 0 then 8 else if m = 1 then 15 else if m = 2 then 24 else if m = 3 then 31 else if m = 4 then 40 else 47
/-- The stop of port complex `n` (R12). -/
def pxStop (n : Nat) : Nat := if n = 0 then 2 else if n = 1 then 5 else if n = 2 then 50 else 53
/-- The stop of ledger engine `e` (R12). -/
def leStop (e : Nat) : Nat := if e = 0 then 6 else 49
/-- The stop of host I/O group `h` (R12). -/
def hioStop (h : Nat) : Nat := if h = 0 then 1 else 54
/-- The stop of the maintenance engine (R12). -/
def mntStop : Nat := 7

/-- The block type and instance of window `k` of stop `s`, or none where R16 lists no window. -/
def winBlk (s k : Nat) : Option (Blk × Nat) :=
  if k = 0xFE then (if s < 56 then some (.rtr, s) else none) else
  match stopKind s with
  | .pod p => if k = 0 then some (.pod, p) else if k ≤ 4 then some (.vcore, 4 * p + k - 1)
      else if k = 5 then some (.l3h, p) else if k = 6 then some (.pmu, s) else none
  | .cc c => if k = 0 then some (.cc, c) else if k ≤ 8 then some (.ccore, 8 * c + k - 1)
      else if k = 9 then some (.pmu, s) else none
  | .mc m => if k = 0 then some (.mc, m) else if k ≤ 2 then some (.dphy, 2 * m + k - 1)
      else if k = 3 then some (.pmu, s) else none
  | .px n => if k = 0 then some (.px, n) else if k ≤ 32 then some (.port, 32 * n + k - 1)
      else if k = 0x21 then some (.sflt, n) else if k = 0x22 then some (.egs, n)
      else if k = 0x23 then some (.pmu, s) else none
  | .le e => if k = 0 then some (.le, e) else if k = 1 then some (.epn, e) else if k = 2 then some (.psns, e)
      else if k = 3 then some (.vqf, e) else if k = 4 then some (.pmu, s) else none
  | .hio h => if k = 0 then some (.hio, h) else if k ≤ 16 then some (.rp, 16 * h + k - 1)
      else if k = 0x11 then some (.dmat, h) else if k = 0x12 then some (.pmu, s) else none
  | .syt => if k = 0 then some (.syt, 0) else if k = 1 then some (.pm, 0) else if k = 2 then some (.fc, 0)
      else if k = 3 then some (.fuse, 0) else if k = 4 then some (.dt, 0) else if k = 5 then some (.xspi, 0)
      else if k = 6 then some (.i3c, 0) else if k = 7 then some (.dbg, 0) else if k = 8 then some (.therm, 0)
      else if k = 9 then some (.carve, 0) else none
  | .mnt => if k = 0 then some (.mnt, 0) else if k = 1 then some (.pmu, s) else none
  | .none => none

/-- The fault-source range of a stop: BASE and COUNT (R329). -/
def faultRange (s : Nat) : Nat × Nat :=
  match stopKind s with
  | .syt => (0, 21) | .pod p => (21 + 10 * p, 10) | .cc k => (381 + 13 * k, 13) | .mc m => (433 + 6 * m, 6)
  | .px n => (469 + 4 * n, 4) | .le e => (485 + 8 * e, 8) | .hio h => (501 + 4 * h, 4) | .mnt => (509, 3)
  | .none => (0, 0)

/-- One row of a register table: offset, number of registers and their stride, the bits that a write sets (RW),
clears by 1 (W1C), sets when the expert page is unlocked (RWX, R18), writes once (RWO), the bits that only
read (RO), the bits loaded from the configuration image, and the reset value. -/
structure RegSpec where
  off : Nat
  cnt : Nat
  stride : Nat
  rw : W64
  w1c : W64
  rwx : W64
  rwo : W64
  ro : W64
  image : W64
  reset : W64
  deriving DecidableEq, Repr, Inhabited

/-- The register tables of the VCORE window (R16), offsets above the header of R21. -/
def regs_vcore : List RegSpec := [
  ⟨0x40, 1, 0x8, 0, 0, 0, 0, 0, 0, 0⟩,  -- VCORE_CTRL
  ⟨0x100, 1, 0x8, 0x1fff01, 0, 0, 0, 0x2, 0x1, 0⟩,  -- VCORE_L2_CTRL
  ⟨0x180, 1, 0x8, 0xffffffffffffff, 0, 0, 0, 0, 0, 0⟩,  -- XL_H_S1
  ⟨0x188, 1, 0x8, 0xffffffff0000, 0, 0, 0, 0, 0, 0⟩,  -- XL_H_WTAB
  ⟨0x190, 1, 0x8, 0xfffffffff0001, 0, 0, 0, 0, 0, 0⟩,  -- XL_VMT
  ⟨0x1a0, 1, 0x8, 0xffffffffffffff, 0, 0, 0, 0, 0, 0⟩,  -- XL_S_S1
  ⟨0x1a8, 1, 0x8, 0xffffffff0000, 0, 0, 0, 0, 0, 0⟩,  -- XL_S_WTAB
  ⟨0x1b0, 1, 0x8, 0xfffffffff000, 0, 0, 0, 0, 0, 0⟩,  -- XL_INV_ADDR
  ⟨0x1b8, 1, 0x8, 0, 0, 0, 0, 0, 0, 0⟩,  -- XL_INV
  ⟨0x1c0, 1, 0x8, 0, 0x8000000000000000, 0, 0, 0xfffffffff000, 0, 0⟩,  -- XL_FIPA
  ⟨0x308, 1, 0x8, 0xffffffffffffffff, 0, 0, 0, 0, 0, 0⟩,  -- PROT_CNT
  ⟨0x310, 1, 0x8, 0xff1f, 0, 0, 0, 0xffff0000, 0, 0x1000⟩,  -- PROT_LOGSEL
  ⟨0x900, 1, 0x8, 0, 0, 0xffff, 0, 0x8000000000000000, 0, 0⟩,  -- PROT_CHK_CTRL
  ⟨0x908, 1, 0x8, 0, 0, 0xffffffffffff8, 0, 0, 0, 0⟩,  -- PROT_CHK_ADDR
  ⟨0x910, 1, 0x8, 0, 0, 0xffffffffffffffff, 0, 0, 0, 0⟩,  -- PROT_CHK_DMASK
  ⟨0x918, 1, 0x8, 0, 0, 0xffffffffffffffff, 0, 0, 0, 0⟩  -- PROT_CHK_CMASK
  ]

/-- The register tables of the CCORE window (R16), offsets above the header of R21. -/
def regs_ccore : List RegSpec := [
  ⟨0x40, 1, 0x8, 0, 0, 0, 0, 0, 0, 0⟩,  -- VCORE_CTRL
  ⟨0x180, 1, 0x8, 0xffffffffffffff, 0, 0, 0, 0, 0, 0⟩,  -- XL_H_S1
  ⟨0x188, 1, 0x8, 0xffffffff0000, 0, 0, 0, 0, 0, 0⟩,  -- XL_H_WTAB
  ⟨0x190, 1, 0x8, 0xfffffffff0001, 0, 0, 0, 0, 0, 0⟩,  -- XL_VMT
  ⟨0x1a0, 1, 0x8, 0xffffffffffffff, 0, 0, 0, 0, 0, 0⟩,  -- XL_S_S1
  ⟨0x1a8, 1, 0x8, 0xffffffff0000, 0, 0, 0, 0, 0, 0⟩,  -- XL_S_WTAB
  ⟨0x1b0, 1, 0x8, 0xfffffffff000, 0, 0, 0, 0, 0, 0⟩,  -- XL_INV_ADDR
  ⟨0x1b8, 1, 0x8, 0, 0, 0, 0, 0, 0, 0⟩,  -- XL_INV
  ⟨0x1c0, 1, 0x8, 0, 0x8000000000000000, 0, 0, 0xfffffffff000, 0, 0⟩,  -- XL_FIPA
  ⟨0x100, 1, 0x8, 0x771, 0, 0, 0, 0x2, 0, 0x1⟩,  -- CCORE_L1_CTRL
  ⟨0x108, 1, 0x8, 0x3, 0, 0, 0, 0, 0, 0⟩,  -- CCORE_LOCK_CTRL
  ⟨0x110, 1, 0x8, 0x2, 0, 0, 0, 0, 0, 0⟩,  -- CCORE_BTB_CTRL
  ⟨0x118, 1, 0x8, 0xff0f, 0, 0, 0, 0xf000000, 0, 0x2004⟩,  -- CCORE_MB_CFG
  ⟨0x308, 1, 0x8, 0xffffffffffffffff, 0, 0, 0, 0, 0, 0⟩,  -- PROT_CNT
  ⟨0x310, 1, 0x8, 0xff1f, 0, 0, 0, 0xffff0000, 0, 0x1000⟩,  -- PROT_LOGSEL
  ⟨0x900, 1, 0x8, 0, 0, 0xffff, 0, 0x8000000000000000, 0, 0⟩,  -- PROT_CHK_CTRL
  ⟨0x908, 1, 0x8, 0, 0, 0xffffffffffff8, 0, 0, 0, 0⟩,  -- PROT_CHK_ADDR
  ⟨0x910, 1, 0x8, 0, 0, 0xffffffffffffffff, 0, 0, 0, 0⟩,  -- PROT_CHK_DMASK
  ⟨0x918, 1, 0x8, 0, 0, 0xffffffffffffffff, 0, 0, 0, 0⟩  -- PROT_CHK_CMASK
  ]

/-- The register tables of the POD window (R16), offsets above the header of R21. -/
def regs_pod : List RegSpec := [
  ⟨0x40, 1, 0x8, 0, 0, 0, 0, 0xffff000f, 0, 0x8000000⟩,  -- POD_CFG
  ⟨0x48, 1, 0x8, 0, 0, 0, 0, 0xffffffff0fff, 0, 0⟩,  -- POD_STATUS
  ⟨0x50, 1, 0x8, 0, 0, 0, 0, 0, 0, 0⟩,  -- POD_RESET
  ⟨0x800, 1, 0x8, 0, 0, 0x1f, 0, 0, 0, 0⟩  -- POD_SPEC_CTRL
  ]

/-- The register tables of the CC window (R16), offsets above the header of R21. -/
def regs_cc : List RegSpec := [
  ⟨0x40, 1, 0x8, 0, 0, 0, 0, 0xffffff03, 0x3, 0x4000000⟩,  -- CC_CFG
  ⟨0x48, 1, 0x8, 0, 0, 0, 0, 0, 0, 0⟩,  -- CC_RESET
  ⟨0x80, 8, 0x10, 0xffffffffff001, 0, 0, 0, 0, 0, 0⟩,  -- CC_TC0_BASEn
  ⟨0x88, 8, 0x10, 0xffffffffff000, 0, 0, 0, 0, 0, 0⟩,  -- CC_TC0_LIMITn
  ⟨0x308, 1, 0x8, 0xffffffffffffffff, 0, 0, 0, 0, 0, 0⟩,  -- PROT_CNT
  ⟨0x310, 1, 0x8, 0xff1f, 0, 0, 0, 0xffff0000, 0, 0x1000⟩,  -- PROT_LOGSEL
  ⟨0x900, 1, 0x8, 0, 0, 0xffff, 0, 0x8000000000000000, 0, 0⟩,  -- PROT_CHK_CTRL
  ⟨0x908, 1, 0x8, 0, 0, 0xffffffffffff8, 0, 0, 0, 0⟩,  -- PROT_CHK_ADDR
  ⟨0x910, 1, 0x8, 0, 0, 0xffffffffffffffff, 0, 0, 0, 0⟩,  -- PROT_CHK_DMASK
  ⟨0x918, 1, 0x8, 0, 0, 0xffffffffffffffff, 0, 0, 0, 0⟩  -- PROT_CHK_CMASK
  ]

/-- The register tables of the SYT window (R16), offsets above the header of R21. -/
def regs_syt : List RegSpec := [
  ⟨0x600, 1, 0x8, 0, 0, 0, 0, 0, 0, 0⟩,  -- SYT_EVR_ROUTE
  ⟨0x608, 1, 0x8, 0x3ff, 0, 0, 0, 0, 0, 0⟩,  -- SYT_EVR_RSEL
  ⟨0x618, 1, 0x8, 0, 0, 0, 0, 0, 0, 0⟩,  -- SYT_EVR_FIRE
  ⟨0x620, 1, 0x8, 0xffffffffffffffff, 0, 0, 0, 0, 0, 0⟩,  -- SYT_EVR_STAT
  ⟨0x640, 3, 0x8, 0xffffffffffffffff, 0, 0, 0, 0, 0xffffffffffffffff, 0⟩,  -- SYT_NMI_TARGETn
  ⟨0x658, 1, 0x8, 0xffffffff, 0, 0, 0, 0x100000000, 0, 0⟩,  -- SYT_NMI_STAT
  ⟨0x700, 1, 0x8, 0, 0, 0, 0, 0xffffffff0077, 0, 0⟩,  -- SYT_SEC_STATUS
  ⟨0x708, 1, 0x8, 0, 0, 0, 0, 0, 0, 0⟩,  -- SYT_SEC_CTRL
  ⟨0x710, 1, 0x8, 0x3ff03ff, 0, 0, 0, 0, 0x3ff03ff, 0⟩,  -- SYT_SEC_CFG
  ⟨0x718, 1, 0x8, 0x1ffffffffffff, 0, 0, 0, 0, 0x1ffffffffffff, 0⟩,  -- SYT_SEC_HOLD
  ⟨0x720, 1, 0x8, 0xffffffffff000, 0, 0, 0, 0, 0, 0⟩,  -- SYT_SEC_WTAB_PA
  ⟨0x728, 1, 0x8, 0xffffffffff000, 0, 0, 0, 0, 0, 0⟩,  -- SYT_SEC_PUB
  ⟨0x740, 6, 0x8, 0, 0, 0, 0, 0xffffffffffffffff, 0, 0⟩,  -- SYT_SEC_MEASn
  ⟨0x680, 1, 0x8, 0x1ff, 0, 0, 0, 0, 0, 0⟩,  -- SYT_SLT_SEL
  ⟨0x690, 1, 0x8, 0, 0x2, 0, 0, 0xffff0001, 0, 0⟩,  -- SYT_SLT_STAT
  ⟨0x40, 1, 0x8, 0, 0, 0, 0, 0xffffffffffffffff, 0, 0⟩,  -- SYT_BOOT_STATUS
  ⟨0x48, 1, 0x8, 0, 0, 0, 0, 0, 0, 0⟩  -- SYT_RESET
  ]

/-- The register tables of the CARVE window (R16), offsets above the header of R21. -/
def regs_carve : List RegSpec := [
  ⟨0x100, 16, 0x10, 0xfffffffe00001, 0, 0, 0, 0, 0xfffffffe00001, 0⟩,  -- CARVE_Bn
  ⟨0x108, 16, 0x10, 0xfffffffe00000, 0, 0, 0, 0, 0xfffffffe00000, 0⟩,  -- CARVE_Ln
  ⟨0x200, 1, 0x8, 0xffffffffff000, 0, 0, 0, 0, 0xffffffffff000, 0⟩,  -- CARVE_GDESC
  ⟨0x208, 1, 0x8, 0, 0, 0, 0, 0xffffffff, 0, 0⟩  -- CARVE_STAT
  ]

/-- The register tables of the RTR window (R16), offsets above the header of R21. -/
def regs_rtr : List RegSpec := [
  ⟨0x40, 1, 0x8, 0, 0, 0, 0, 0x1f7f, 0, 0⟩,  -- RTR_CFG
  ⟨0x48, 1, 0x8, 0xff07ff, 0, 0, 0, 0, 0xff07ff, 0⟩,  -- RTR_TC0_CFG
  ⟨0x50, 1, 0x8, 0xffffffffffffffff, 0, 0, 0, 0, 0, 0⟩,  -- RTR_TC0_STAT
  ⟨0x58, 1, 0x8, 0xffff0000, 0x100000000, 0, 0, 0xf, 0, 0⟩  -- RTR_LINK_STAT
  ]

/-- The register tables of the L3H window (R16), offsets above the header of R21. -/
def regs_l3h : List RegSpec := [
  ⟨0x100, 1, 0x8, 0, 0, 0xffff, 0, 0, 0, 0x2010⟩,  -- L3H_HA_CFG
  ⟨0x108, 1, 0x8, 0xffffffff01ff0000, 0, 0, 0, 0x1ff, 0, 0⟩,  -- L3H_HA_STAT
  ⟨0x110, 1, 0x8, 0xffffffffffffffff, 0, 0, 0, 0, 0, 0⟩,  -- L3H_DIR_STAT
  ⟨0x120, 1, 0x8, 0xf1ffff1, 0, 0, 0, 0x2, 0, 0x1⟩,  -- L3H_L3_CTRL
  ⟨0x128, 1, 0x8, 0xffffffffffffffff, 0, 0, 0, 0, 0, 0xffffffffffffffff⟩,  -- L3H_WAYMASK
  ⟨0x130, 1, 0x8, 0xffffffffffffffff, 0, 0, 0, 0, 0, 0⟩,  -- L3H_AGRP0
  ⟨0x138, 1, 0x8, 0xffffffffffff, 0, 0, 0, 0, 0, 0⟩,  -- L3H_AGRP1
  ⟨0x308, 1, 0x8, 0xffffffffffffffff, 0, 0, 0, 0, 0, 0⟩,  -- PROT_CNT
  ⟨0x310, 1, 0x8, 0xff1f, 0, 0, 0, 0xffff0000, 0, 0x1000⟩,  -- PROT_LOGSEL
  ⟨0x900, 1, 0x8, 0, 0, 0xffff, 0, 0x8000000000000000, 0, 0⟩,  -- PROT_CHK_CTRL
  ⟨0x908, 1, 0x8, 0, 0, 0xffffffffffff8, 0, 0, 0, 0⟩,  -- PROT_CHK_ADDR
  ⟨0x910, 1, 0x8, 0, 0, 0xffffffffffffffff, 0, 0, 0, 0⟩,  -- PROT_CHK_DMASK
  ⟨0x918, 1, 0x8, 0, 0, 0xffffffffffffffff, 0, 0, 0, 0⟩,  -- PROT_CHK_CMASK
  ⟨0x330, 1, 0x8, 0xf, 0, 0, 0, 0, 0, 0⟩  -- PROT_REMAPSEL
  ]

/-- The register tables of the MNT window (R16), offsets above the header of R21. -/
def regs_mnt : List RegSpec := [
  ⟨0x40, 1, 0x8, 0x7ff, 0, 0, 0, 0, 0, 0x3e8⟩,  -- MNT_CFG
  ⟨0x48, 1, 0x8, 0, 0, 0, 0, 0, 0, 0⟩  -- MNT_ABORT
  ]

/-- The register tables of the MC window (R16), offsets above the header of R21. -/
def regs_mc : List RegSpec := [
  ⟨0x40, 1, 0x8, 0x5, 0x8, 0, 0, 0xfffff0002, 0x7, 0⟩,  -- MC_CFG
  ⟨0x48, 1, 0x8, 0xffffffff03ff0000, 0, 0, 0, 0x3ff, 0, 0⟩,  -- MC_REQ_STAT
  ⟨0x50, 1, 0x8, 0, 0, 0, 0, 0x1fff, 0, 0⟩,  -- MC_TC0_BOUND
  ⟨0x800, 1, 0x8, 0, 0, 0xffff, 0, 0, 0, 0x2010⟩,  -- MC_REQ_CFG
  ⟨0x308, 1, 0x8, 0xffffffffffffffff, 0, 0, 0, 0, 0, 0⟩,  -- PROT_CNT
  ⟨0x310, 1, 0x8, 0xff1f, 0, 0, 0, 0xffff0000, 0, 0x1000⟩,  -- PROT_LOGSEL
  ⟨0x900, 1, 0x8, 0, 0, 0xffff, 0, 0x8000000000000000, 0, 0⟩,  -- PROT_CHK_CTRL
  ⟨0x908, 1, 0x8, 0, 0, 0xffffffffffff8, 0, 0, 0, 0⟩,  -- PROT_CHK_ADDR
  ⟨0x910, 1, 0x8, 0, 0, 0xffffffffffffffff, 0, 0, 0, 0⟩,  -- PROT_CHK_DMASK
  ⟨0x918, 1, 0x8, 0, 0, 0xffffffffffffffff, 0, 0, 0, 0⟩,  -- PROT_CHK_CMASK
  ⟨0x330, 1, 0x8, 0xf, 0, 0, 0, 0, 0, 0⟩,  -- PROT_REMAPSEL
  ⟨0x340, 1, 0x8, 0xff01, 0, 0, 0, 0, 0xff01, 0⟩,  -- MC_PATROL_CFG
  ⟨0x348, 1, 0x8, 0, 0, 0, 0, 0xffff00ffffffffc0, 0, 0⟩,  -- MC_PATROL_STAT
  ⟨0x840, 1, 0x8, 0, 0, 0xffffc7fe, 0, 0x7000000000000000, 0, 0⟩  -- MC_PPR_CMD
  ]

/-- The register tables of the DPHY window (R16), offsets above the header of R21. -/
def regs_dphy : List RegSpec := [
  ⟨0x40, 1, 0x8, 0, 0x1000000, 0, 0, 0xf3fff, 0, 0⟩,  -- DPHY_STATUS
  ⟨0x48, 1, 0x8, 0, 0, 0, 0, 0xf03ff03ff03ff, 0x3ff00000000, 0⟩,  -- DPHY_SIZE
  ⟨0x50, 1, 0x8, 0x7ff, 0, 0, 0, 0, 0x7ff, 0⟩,  -- DPHY_PAGE
  ⟨0x58, 1, 0x8, 0, 0, 0, 0, 0, 0, 0⟩,  -- DPHY_CTRL
  ⟨0x60, 1, 0x8, 0, 0, 0, 0, 0xffffffff03ffff01, 0, 0⟩,  -- DPHY_INIT
  ⟨0x800, 5, 0x8, 0, 0, 0xfffffffffffff, 0, 0, 0, 0⟩  -- DPHY_BANKMASKj
  ]

/-- The register tables of the LE window (R16), offsets above the header of R21. -/
def regs_le : List RegSpec := [
  ⟨0x308, 1, 0x8, 0xffffffffffffffff, 0, 0, 0, 0, 0, 0⟩,  -- PROT_CNT
  ⟨0x310, 1, 0x8, 0xff1f, 0, 0, 0, 0xffff0000, 0, 0x1000⟩,  -- PROT_LOGSEL
  ⟨0x900, 1, 0x8, 0, 0, 0xffff, 0, 0x8000000000000000, 0, 0⟩,  -- PROT_CHK_CTRL
  ⟨0x908, 1, 0x8, 0, 0, 0xffffffffffff8, 0, 0, 0, 0⟩,  -- PROT_CHK_ADDR
  ⟨0x910, 1, 0x8, 0, 0, 0xffffffffffffffff, 0, 0, 0, 0⟩,  -- PROT_CHK_DMASK
  ⟨0x918, 1, 0x8, 0, 0, 0xffffffffffffffff, 0, 0, 0, 0⟩,  -- PROT_CHK_CMASK
  ⟨0x40, 1, 0x8, 0x3f3fff, 0, 0, 0, 0, 0x3f3fff, 0⟩,  -- LE_CFG
  ⟨0x48, 1, 0x8, 0xffffffffff000, 0, 0, 0, 0, 0xffffffffff000, 0⟩,  -- LE_JRNL_A
  ⟨0x50, 1, 0x8, 0xffffffffff000, 0, 0, 0, 0, 0xffffffffff000, 0⟩,  -- LE_JRNL_B
  ⟨0x58, 1, 0x8, 0xffffffffff000, 0, 0, 0, 0, 0xffffffffff000, 0⟩,  -- LE_PBUF_A
  ⟨0x60, 1, 0x8, 0xffffffffff000, 0, 0, 0, 0, 0xffffffffff000, 0⟩,  -- LE_PBUF_B
  ⟨0x68, 1, 0x8, 0, 0x10, 0, 0, 0x3ffffff0000002f, 0, 0⟩,  -- LE_STATUS
  ⟨0x78, 1, 0x8, 0xffffffff, 0, 0, 0, 0xf00000000, 0, 0⟩,  -- LE_REFUSE
  ⟨0x80, 1, 0x8, 0, 0, 0, 0, 0, 0, 0⟩,  -- LE_RESET
  ⟨0x100, 1, 0x8, 0x7ff, 0, 0, 0, 0, 0, 0⟩,  -- LE_Q_SEL
  ⟨0x108, 1, 0x8, 0, 0, 0, 0, 0xffffffffffffffff, 0, 0⟩,  -- LE_Q_CMD
  ⟨0x140, 8, 0x8, 0xffffffffffffffff, 0, 0, 0, 0, 0, 0⟩  -- LE_Q_DATAi
  ]

/-- The register tables of the FC window (R16), offsets above the header of R21. -/
def regs_fc : List RegSpec := [
  ⟨0x40, 1, 0x8, 0, 0, 0, 0x1, 0, 0, 0⟩,  -- FC_CTRL
  ⟨0x50, 1, 0x8, 0x1ff, 0, 0, 0, 0, 0, 0⟩,  -- FC_SEL
  ⟨0x188, 1, 0x8, 0xffffffffffffffff, 0, 0, 0, 0, 0, 0⟩,  -- FC_SEVCNT
  ⟨0x100, 1, 0x8, 0, 0x8000000000000000, 0, 0, 0x3f3dff, 0, 0⟩,  -- FC_FE_SRC
  ⟨0x108, 1, 0x8, 0, 0, 0, 0, 0x800fffffffffffff, 0, 0⟩,  -- FC_FE_ADDR
  ⟨0x110, 1, 0x8, 0, 0, 0, 0, 0x10f3f3f, 0, 0⟩,  -- FC_FE_MASTER
  ⟨0x118, 1, 0x8, 0, 0, 0, 0, 0xffffffffffffffff, 0, 0⟩,  -- FC_FE_TIME
  ⟨0x180, 1, 0x8, 0, 0, 0, 0, 0x7ffff, 0, 0⟩,  -- FC_ALSO_STAT
  ⟨0x190, 1, 0x8, 0, 0, 0, 0, 0xffff07ff0003, 0, 0⟩,  -- FC_CALD
  ⟨0x198, 1, 0x8, 0, 0, 0, 0, 0xffffffffffffffff, 0, 0⟩,  -- FC_CALD_TIME
  ⟨0x1a0, 1, 0x8, 0, 0, 0, 0, 0, 0, 0⟩,  -- FC_CALD_FORCE
  ⟨0x1a8, 1, 0x8, 0, 0, 0, 0, 0xffff0fff0007, 0, 0⟩,  -- FC_SELF
  ⟨0x800, 1, 0x8, 0, 0, 0x4000001f3f3f01ff, 0, 0, 0, 0⟩,  -- FC_INJ
  ⟨0x808, 1, 0x8, 0, 0, 0x800fffffffffffff, 0, 0, 0, 0⟩  -- FC_INJ_ADDR
  ]

/-- The register tables of the PX window (R16), offsets above the header of R21. -/
def regs_px : List RegSpec := [
  ⟨0x40, 1, 0x8, 0, 0, 0, 0, 0xffffffff, 0, 0⟩,  -- PX_CFG
  ⟨0x48, 1, 0x8, 0xffff1fff, 0, 0, 0, 0, 0, 0x18200040⟩,  -- PX_BUF
  ⟨0x50, 1, 0x8, 0, 0, 0, 0, 0, 0, 0⟩,  -- PX_RESET
  ⟨0x80, 16, 0x8, 0x8000000000001f1f, 0, 0, 0, 0, 0, 0⟩  -- PX_PAIRn
  ]

/-- The register tables of the PORT window (R16), offsets above the header of R21. -/
def regs_port : List RegSpec := [
  ⟨0x40, 1, 0x8, 0xffff003fffff, 0, 0, 0, 0, 0x7, 0x5f200⟩,  -- PX_PORT_CFG
  ⟨0x48, 1, 0x8, 0, 0x100, 0, 0, 0xffffffffffff003f, 0, 0⟩,  -- PX_PORT_STATUS
  ⟨0x50, 1, 0x8, 0xffff07ffffff, 0, 0, 0, 0, 0, 0⟩,  -- PX_PORT_SETUP
  ⟨0x58, 1, 0x8, 0xffffff, 0, 0, 0, 0, 0, 0xfac688⟩,  -- PX_PORT_EQMAP
  ⟨0x60, 1, 0x8, 0xffffffff, 0, 0, 0, 0, 0, 0⟩,  -- PX_PORT_TSLAT
  ⟨0x70, 1, 0x8, 0, 0, 0, 0, 0xffffffffffffffff, 0, 0⟩,  -- PX_PORT_TXTS_TIME
  ⟨0x78, 1, 0x8, 0, 0xc, 0, 0, 0xfffffffffffc0003, 0, 0⟩,  -- PX_PORT_DMA
  ⟨0x80, 1, 0x8, 0xffffffffffff, 0, 0, 0, 0, 0, 0⟩  -- PX_PORT_DROP
  ]

/-- The register tables of the SFLT window (R16), offsets above the header of R21. -/
def regs_sflt : List RegSpec := [
  ⟨0x40, 1, 0x8, 0xfff0007, 0, 0, 0, 0, 0, 0⟩,  -- PX_SF_SEL
  ⟨0x48, 1, 0x8, 0, 0, 0, 0, 0xc000000000000000, 0, 0⟩,  -- PX_SF_CMD
  ⟨0x80, 4, 0x8, 0xffffffffffffffff, 0, 0, 0, 0, 0, 0⟩  -- PX_SF_DATAi
  ]

/-- The register tables of the EGS window (R16), offsets above the header of R21. -/
def regs_egs : List RegSpec := [
  ⟨0x40, 1, 0x8, 0x3ff1f03, 0, 0, 0, 0, 0, 0⟩,  -- PX_EG_SEL
  ⟨0x48, 1, 0x8, 0, 0, 0, 0, 0xc000000000000000, 0, 0⟩,  -- PX_EG_CMD
  ⟨0x80, 4, 0x8, 0xffffffffffffffff, 0, 0, 0, 0, 0, 0⟩  -- PX_EG_DATAi
  ]

/-- The register tables of the EPN window (R16), offsets above the header of R21. -/
def regs_epn : List RegSpec := [
  ⟨0x40, 1, 0x8, 0xffffffff0001, 0, 0, 0, 0, 0xffffffff0001, 0⟩,  -- EPN_LINK_CFG
  ⟨0x48, 1, 0x8, 0, 0x8, 0, 0, 0xffffff0007, 0, 0⟩,  -- EPN_LINK_STATUS
  ⟨0x50, 1, 0x8, 0xffffffffffffff, 0, 0, 0, 0, 0, 0⟩,  -- EPN_LINK_CNT
  ⟨0x80, 1, 0x8, 0x3, 0, 0, 0, 0, 0x3, 0⟩,  -- EPN_PAIR_CFG
  ⟨0x88, 1, 0x8, 0, 0, 0, 0, 0, 0, 0⟩,  -- EPN_PAIR_CTRL
  ⟨0x90, 1, 0x8, 0, 0x6000, 0, 0, 0xffffffff9fff, 0, 0⟩,  -- EPN_PAIR_STATUS
  ⟨0x100, 32, 0x8, 0xffffffffffffffff, 0, 0, 0, 0, 0xffffffffffffffff, 0⟩,  -- EPN_ROLEn
  ⟨0x200, 1, 0x8, 0x3f, 0, 0, 0, 0, 0, 0⟩,  -- EPN_MW_SEL
  ⟨0x208, 1, 0x8, 0, 0, 0, 0, 0xc000000000000f00, 0, 0⟩,  -- EPN_MW_CMD
  ⟨0x210, 3, 0x8, 0xffffffffffffffff, 0, 0, 0, 0, 0, 0⟩  -- EPN_MW_DATAi
  ]

/-- The register tables of the PSNS window (R16), offsets above the header of R21. -/
def regs_psns : List RegSpec := [
  ⟨0x40, 1, 0x8, 0xffff00000000, 0, 0, 0, 0xff03, 0, 0⟩  -- PSNS_STATUS
  ]

/-- The register tables of the VQF window (R16), offsets above the header of R21. -/
def regs_vqf : List RegSpec := [
  ⟨0x40, 1, 0x8, 0x3ff, 0, 0, 0, 0, 0, 0⟩  -- VQF_SEL
  ]

/-- The register tables of the HIO window (R16), offsets above the header of R21. -/
def regs_hio : List RegSpec := [
  ⟨0x40, 1, 0x8, 0, 0, 0, 0, 0xffffffffffff, 0xffffffffffff, 0⟩,  -- HIO_BIF
  ⟨0x48, 1, 0x8, 0, 0, 0, 0, 0, 0, 0⟩  -- HIO_RESET
  ]

/-- The register tables of the DMAT window (R16), offsets above the header of R21. -/
def regs_dmat : List RegSpec := [
  ⟨0x40, 1, 0x8, 0xfffffffc00001, 0, 0, 0, 0, 0, 0⟩,  -- DMAT_CTX
  ⟨0x48, 1, 0x8, 0, 0, 0, 0, 0, 0, 0⟩,  -- DMAT_INV
  ⟨0x50, 1, 0x8, 0x1f, 0, 0, 0, 0, 0, 0⟩,  -- DMAT_HSEL
  ⟨0x68, 1, 0x8, 0, 0, 0, 0, 0, 0, 0⟩,  -- DMAT_RESUME
  ⟨0x70, 1, 0x8, 0, 0, 0, 0, 0xffff003f, 0, 0⟩  -- DMAT_HSTAT
  ]

/-- The register tables of the RP window (R16), offsets above the header of R21. -/
def regs_rp : List RegSpec := [
  ⟨0x40, 1, 0x8, 0xffff0003ff07, 0, 0, 0, 0, 0xffff00000007, 0x3200⟩,  -- RP_CTRL
  ⟨0x48, 1, 0x8, 0, 0x800, 0, 0, 0xffffffff000007ff, 0, 0⟩,  -- RP_STATUS
  ⟨0x50, 1, 0x8, 0x3fffff, 0, 0, 0, 0, 0x3fffff, 0⟩,  -- RP_WIN
  ⟨0x58, 1, 0x8, 0xffffffc, 0, 0, 0, 0, 0, 0⟩,  -- RP_CFG_ADDR
  ⟨0x68, 1, 0x8, 0xfffffffffffffffd, 0, 0, 0, 0, 0, 0⟩,  -- RP_MSI
  ⟨0x60, 1, 0x8, 0xffffffff, 0, 0, 0, 0, 0, 0⟩  -- RP_CFG_DATA
  ]

/-- The register tables of the XSPI window (R16), offsets above the header of R21. -/
def regs_xspi : List RegSpec := [
  ⟨0x40, 1, 0x8, 0, 0, 0, 0, 0xffffffffffffffff, 0, 0⟩,  -- XSPI_CFG
  ⟨0x48, 1, 0x8, 0, 0, 0, 0, 0x8000007000000000, 0, 0⟩,  -- XSPI_CMD
  ⟨0x50, 1, 0x8, 0x1fffffff, 0, 0, 0, 0, 0, 0⟩,  -- XSPI_FADDR
  ⟨0x58, 1, 0x8, 0xffffffffff000, 0, 0, 0, 0, 0, 0⟩,  -- XSPI_MEM
  ⟨0x80, 4, 0x8, 0x3ffff1ffff001, 0, 0, 0, 0, 0x3ffff1ffff001, 0⟩  -- XSPI_PROTn
  ]

/-- The register tables of the I3C window (R16), offsets above the header of R21. -/
def regs_i3c : List RegSpec := [
  ⟨0x40, 1, 0x8, 0xf, 0, 0, 0, 0, 0xf, 0⟩  -- I3C_ALLOW
  ]

/-- The register tables of the DBG window (R16), offsets above the header of R21. -/
def regs_dbg : List RegSpec := [
  ⟨0x40, 1, 0x8, 0, 0, 0, 0, 0x4, 0, 0⟩  -- DBG_SESS
  ]

/-- The register tables of the PMU window (R16), offsets above the header of R21. -/
def regs_pmu : List RegSpec := [
  ⟨0x380, 1, 0x8, 0x800000ffffffffff, 0, 0, 0, 0, 0, 0⟩,  -- FUM_CFG
  ⟨0x388, 1, 0x8, 0, 0, 0, 0, 0xffffffffffffffff, 0, 0⟩,  -- FUM_LAST
  ⟨0x390, 1, 0x8, 0, 0, 0, 0, 0, 0, 0⟩,  -- FUM_CLRPEAK
  ⟨0x400, 32, 0x20, 0, 0, 0, 0, 0xffffffffffffffff, 0, 0⟩,  -- FUM_RXj
  ⟨0x408, 32, 0x20, 0, 0, 0, 0, 0xffffffffffffffff, 0, 0⟩,  -- FUM_TXj
  ⟨0x410, 32, 0x20, 0, 0, 0, 0, 0xffffffffffffffff, 0, 0⟩  -- FUM_PEAKj
  ]

/-- The register tables of the PM window (R16), offsets above the header of R21. -/
def regs_pm : List RegSpec := [
  ⟨0x40, 1, 0x8, 0x3ff, 0, 0, 0, 0, 0x3ff, 0⟩,  -- PM_PLIMIT
  ⟨0x48, 1, 0x8, 0, 0x1000, 0, 0, 0xfff0fff, 0, 0⟩,  -- PM_STATUS
  ⟨0x50, 1, 0x8, 0, 0, 0, 0, 0, 0, 0⟩,  -- PM_REQ
  ⟨0x58, 1, 0x8, 0, 0, 0, 0, 0x7ffff, 0, 0⟩,  -- PM_RESP
  ⟨0x60, 1, 0x8, 0x7ff, 0, 0, 0, 0, 0, 0⟩,  -- PM_CFG
  ⟨0x100, 49, 0x8, 0, 0, 0, 0, 0xfffffff007f, 0xfff00000007, 0⟩  -- PM_DOMn
  ]

/-- The register tables of the DT window (R16), offsets above the header of R21. -/
def regs_dt : List RegSpec := [
  ⟨0x40, 1, 0x8, 0xffff0003ff07, 0, 0, 0, 0, 0x7, 0x3e800006400⟩,  -- DT_CFG
  ⟨0x48, 1, 0x8, 0, 0x8, 0, 0, 0xffffffffffff0007, 0, 0⟩,  -- DT_STATUS
  ⟨0x58, 1, 0x8, 0xffffffff, 0, 0, 0, 0, 0, 0⟩,  -- DT_RATE
  ⟨0x60, 1, 0x8, 0, 0, 0, 0, 0, 0, 0⟩,  -- DT_STEP
  ⟨0x68, 1, 0x8, 0, 0, 0, 0, 0, 0, 0⟩,  -- DT_SET
  ⟨0x70, 1, 0x8, 0, 0, 0, 0, 0xffffffffffffffff, 0, 0⟩,  -- DT_PPSIN
  ⟨0x78, 1, 0x8, 0xffffffff, 0, 0, 0, 0, 0, 0⟩  -- DT_PPSLAT
  ]

/-- The register tables of the THERM window (R16), offsets above the header of R21. -/
def regs_therm : List RegSpec := [
  ⟨0x40, 1, 0x8, 0xffff, 0, 0, 0, 0xff0000, 0, 0x73645f⟩,  -- THERM_CFG
  ⟨0x48, 1, 0x8, 0, 0x100000, 0, 0, 0xfff000fffff, 0, 0⟩,  -- THERM_STATUS
  ⟨0x50, 1, 0x8, 0x3f, 0, 0, 0, 0, 0, 0⟩  -- THERM_SEL
  ]

/-- The register tables of the FUSE window (R16), offsets above the header of R21. -/
def regs_fuse : List RegSpec := [
  ⟨0x40, 1, 0x8, 0x1ff, 0, 0, 0, 0, 0, 0⟩  -- FUSE_SEL
  ]

/-- The register tables of block type `b`. -/
def regsOf : Blk → List RegSpec
  | .syt => regs_syt
  | .pm => regs_pm
  | .fc => regs_fc
  | .fuse => regs_fuse
  | .dt => regs_dt
  | .xspi => regs_xspi
  | .i3c => regs_i3c
  | .dbg => regs_dbg
  | .therm => regs_therm
  | .carve => regs_carve
  | .pod => regs_pod
  | .vcore => regs_vcore
  | .l3h => regs_l3h
  | .pmu => regs_pmu
  | .rtr => regs_rtr
  | .cc => regs_cc
  | .ccore => regs_ccore
  | .mc => regs_mc
  | .dphy => regs_dphy
  | .px => regs_px
  | .port => regs_port
  | .sflt => regs_sflt
  | .egs => regs_egs
  | .le => regs_le
  | .epn => regs_epn
  | .psns => regs_psns
  | .vqf => regs_vqf
  | .hio => regs_hio
  | .rp => regs_rp
  | .dmat => regs_dmat
  | .mnt => regs_mnt

/-- The row of a block type's tables that holds offset `off`. -/
def findReg (b : Blk) (off : Nat) : Option RegSpec :=
  (regsOf b).find? (fun r => decide (r.off ≤ off) && decide ((off - r.off) % r.stride = 0)
    && decide ((off - r.off) / r.stride < r.cnt))

/-- The reset value of the raw register at `off` of block type `b` (0 where no table names it, R16).
DPHY_BANKMASKj has the values of R291. -/
def resetOf (b : Blk) (off : Nat) : W64 :=
  if b = .dphy ∧ 0x800 ≤ off ∧ off < 0x828 then
    let j := (off - 0x800) / 8
    BitVec.ofNat 64 (2 ^ (14 + j) + 2 ^ (21 + j))
  else match findReg b off with
    | some r => r.reset
    | none => 0

end Sys2Proof.Machine
end

