-- ==== Sys2Proof/Machine/SysTypes.lean ====
section
/-!
DEFINITION. The state of host I/O, management access, power control and start-up that is not register cells (R476, R482, R487,
R490 to R495, R513, R518 to R525, R546).
-/

namespace Sys2Proof.Machine

/-- A halt record (R487): the requester, whether its cause is recorded, its kind (true for poison), and the address. -/
structure HaltRec where
  rid : Nat
  cause : Bool
  poison : Bool
  addr : Nat
  deriving DecidableEq, Repr, Inhabited

/-- What a host I/O group's DMAT holds (R482, R487): the cached grant lists by requester, the halt records by index, and the halted
requesters. -/
structure HioRt where
  lists : List (Nat × List Word)
  recs : List (Nat × HaltRec)
  halted : List Nat
  deriving DecidableEq, Repr, Inhabited

/-- A DMAT that holds nothing. -/
def HioRt.idle : HioRt := ⟨[], [], []⟩

/-- A configuration request that awaits its completion (R476): root port, master, whether it writes, whether it is a Type 1 request, its
address and data, and the device time of its issue. -/
structure CfgReq where
  rp : Nat
  stop : Nat
  unit : Nat
  write : Bool
  type1 : Bool
  addr : Nat
  data : Nat
  issued : Nat
  deriving DecidableEq, Repr, Inhabited

/-- The I3C target and its mailbox (R491, R492): the dynamic address, the mailbox offset, STATUS, SEQ, RESULT and RLEN, the command under
way, SEQIN, and request and response data. -/
structure Mbx where
  dyn : Option Nat
  off : Nat
  busy : Bool
  done : Bool
  overrun : Bool
  seq : Nat
  result : Nat
  rlen : Nat
  cmd : Nat
  seqin : Nat
  req : List (Nat × BitVec 8)
  rsp : List (BitVec 8)
  deriving DecidableEq, Repr, Inhabited

/-- The mailbox before a request. -/
def Mbx.reset : Mbx := ⟨none, 0, false, false, false, 0, 0, 0, 0, 0, [], []⟩

/-- A debug session (R495): the physical address of the authorising grant entry, and the cores of its scope. -/
structure DbgSess where
  pa : Nat
  scope : List Nat
  deriving DecidableEq, Repr, Inhabited

/-- A power request (R518). -/
structure PmReq where
  ticket : Nat
  op : Nat
  dom : Nat
  mhz : Nat
  deriving DecidableEq, Repr, Inhabited

/-- The power controller (R519, R523, R525, R229): queued requests, deferred ones in order, deferred requests that the secure world
has released, the 100 µs steps for which the average has stayed below 95 % of the limit, those for which every sensor has stayed below
the throttle limit's release, whether a sensor stands above WARN, the last reading of each stop, and the power limits that still
govern, each with the 100 µs steps left to it (R524). -/
structure PowRt where
  queue : List PmReq
  deferred : List PmReq
  below : Nat
  cool : Nat
  warned : Bool
  temps : List (Nat × Nat)
  limits : List (Nat × Nat)
  deriving DecidableEq, Repr, Inhabited

/-- A controller with nothing to do. -/
def PowRt.idle : PowRt := ⟨[], [], 0, 0, false, [], []⟩

/-- The start-up record (R546): phase times, training results by channel, slot rejections with their reasons, hPPR refusals, the
measurement, and the reset cause. -/
structure BootRec where
  phases : List (Nat × Nat)
  training : List (Nat × Nat)
  rejects : List (Nat × Nat)
  hppr : List Nat
  meas : List W64
  cause : Nat
  deriving DecidableEq, Repr, Inhabited

/-- No start-up. -/
def BootRec.none : BootRec := ⟨[], [], [], [], [], 0⟩

end Sys2Proof.Machine
end

