-- ==== Sys2Proof/Machine/Mach.lean ====
section
/-!
DEFINITION. The machine without its command queue: everything that the commands change.
-/

namespace Sys2Proof.Machine

/-- The common header of a block window (R21): ENABLE, QUIESCE, the disable sequence of R23, the expert-page lock
of R19 (0 LOCKED, 1 ARMED, 2 UNLOCKED), VIOL_ADDR and VIOL_INFO. -/
structure BlkState where
  enable : Bool
  quiesce : Bool
  disabling : Bool
  lock : Nat
  violAddr : W64
  violInfo : W64
  deriving DecidableEq, Repr, Inhabited

/-- A block before any load of the configuration image (R10). -/
def BlkState.reset : BlkState := ⟨false, false, false, 0, 0, 0⟩

/-- A stored word whose data or check bits differ from what was written (R326): the owning window, the class of
R309, the word's physical address, and the differing payload, metadata and check bits. -/
structure Upset where
  st : Nat
  k : Nat
  cls : Nat
  pa : Nat
  dx : W64
  mx : Nat
  cx : BitVec 128
  deriving DecidableEq, Repr, Inhabited

/-- One entry of a protection log (R319): address, class, count (0 for an invalid entry), location, sub-channel, channel, the
second of the latest correction, and the order in which entries were taken (R320). -/
structure LogEnt where
  addr : Nat
  cls : Nat
  count : Nat
  loc : Nat
  subch : Bool
  ch : Bool
  lastS : Nat
  seq : Nat
  deriving DecidableEq, Repr, Inhabited

/-- The DRAM layout that start-up leaves (R286, R287): the interleave set in ascending channel number, the bytes
that each gives to interleaved DRAM, and the bytes of each channel's pinned region. -/
structure Dram where
  chans : List Nat
  ilv : Nat
  pins : List (Nat × Nat)
  deriving DecidableEq, Repr, Inhabited

/-- A mirror-window entry (R434, R435): direction (`out`), link, range, partner base, and STATE: 0 OFF, 1 IDLE, 2
SYNCING, 3 ACTIVE, 4 ERROR. -/
structure MirWin where
  en : Bool
  out : Bool
  link : Nat
  lbase : Nat
  llimit : Nat
  pbase : Nat
  st : Nat
  deriving DecidableEq, Repr, Inhabited

/-- An entry that is off. -/
def MirWin.off : MirWin := ⟨false, false, 0, 0, 0, 0, 0⟩

/-- A forwarded write that awaits the partner's acknowledgement (R262): its source, the source's mirror sequence number,
the window entry, the link, and the word with its byte mask, at the partner's address. -/
structure Fwd where
  stop : Nat
  unit : Nat
  seq : Nat
  win : Nat
  link : Nat
  addr : Nat
  mask : Nat
  data : W64
  deriving DecidableEq, Repr, Inhabited

/-- What the device as a whole does (R340, R528, R540, R544): not started or in reset, running, in the Caldera state, or
stopped during start-up. -/
inductive Phase where
  | reset | run | caldera | bootStop
  deriving DecidableEq, Repr, Inhabited

/-- The machine. `stale` holds, for each line that a cache holds newer than memory, what memory holds of it (R269, R275);
`gone` the requests whose block has ended and whose GO is under way (R252); `tokens` the TC0 bucket of each stop with the
device time of its last fill (R241). Of the memory controllers: `mcDrain` the writes left of a batch and `mcTc3` the TC2 and
TC3 services since the last TC3 one, by channel (R299); `rows` the open row of each bank (R296); `refreshDue` the postponed
refreshes of each bank (R301); `retrains` the retraining steps due on a channel (R303); `remaps` PROT_REMAP by window and
index (R324); `patrols` where the patrol of each channel stands (R322). `sramPoison` are the poisoned words of ledger SRAMs, by stop and offset (R313). `fcSrc` is the collector's
record of each source (R332, R336); `caldLow` says that CALD_N is driven low (R340, R343), `warm` that a chip warm reset has
begun (R541). `pxTab` and `egTab` are the stream and egress tables of the complexes (R382, R383), `hists` and `meters` what
recovery functions and meters remember. `warmWhy` is the cause of the latest reset as LASTRST gives it (R546), `dramKept` that trained
channels hold their contents in self-refresh (R537, R542); `flash` the boot flash's bytes; `jtag` the test access port's instruction; `ppsLast` the
device time of the last qualified edge of PPS_IN and `ppsGood` the consecutive ones within 50 ns (R513); `ppsOut` when PPS_OUT, if high, went
high (R514); `kickAt` when the secure watchdog's period began (R230), `holdAt` the first deferral of each domain (R229), `secImage` the secure image as last read, `holdImage` the image's hold set (R229); `regsOff` that the integrated regulators are off (R526);
`fuseCe` and `fuseUe` the corrected and the uncorrectable fuse words (R531);
`fumSkip` the complexes whose Fumarole window in progress is discarded (R507, R515). `tapOut` is what the test access port last shifted out (R494, R495), `busOut`
the bytes that the I3C target last returned (R491, R492). -/
structure Mach where
  phase : Phase
  shadows : List Nat
  cores : List (Nat × Core)
  mem : List Host.Cell
  mmeta : List (Nat × Meta)
  ctl : List (Nat × W64)
  blks : List (Nat × BlkState)
  routes : List (Nat × W64)
  evPend : List Nat
  reports : List Report
  upsets : List Upset
  protLogs : List (Nat × List LogEnt)
  sweepsRun : List SweepReq
  tagonly : Bool
  dram : Dram
  slt : List (Nat × Nat)
  fuses : List (Nat × Nat)
  dt : Nat
  secTrig : Option Nat
  mirWins : List (Nat × MirWin)
  mirSeqs : List (Nat × Nat)
  fwds : List Fwd
  l3 : List (Nat × List L3Line)
  dir : List (Nat × DirEnt)
  stale : List (Nat × List Word)
  txns : List Txn
  retried : List Retried
  gone : List Txn
  heldReqs : List Txn
  wbufs : List (Nat × Nat)
  sltMove : Option (Nat × Nat)
  tokens : List (Nat × Nat × Nat)
  slots : List (Nat × Slot)
  slotNext : Nat
  regions : List (Nat × Regions)
  mcReqs : List McReq
  mcRetried : List McReq
  mcDrain : List (Nat × Nat)
  mcTc3 : List (Nat × Nat)
  rows : List (Nat × Nat)
  refreshDue : List (Nat × Nat)
  retrains : List (Nat × Nat)
  remaps : List (Nat × W64)
  patrols : List (Nat × Nat)
  sramPoison : List (Nat × Nat)
  fcSrc : List (Nat × FcSrc)
  caldLow : Bool
  pxTab : List (Nat × List W64)
  egTab : List (Nat × List W64)
  handovers : List (Nat × Handover)
  ports : List (Nat × PortRt)
  hists : List (Nat × RcvHist)
  meters : List (Nat × MeterRt)
  queues : List (Nat × Queue)
  engines : List (Nat × Engine)
  vqfs : List (Nat × Vqf)
  pair : PairRt
  warm : Bool
  warmWhy : Nat
  dramKept : Bool
  hios : List (Nat × HioRt)
  cfgReqs : List CfgReq
  flash : List (Nat × BitVec 8)
  mbx : Mbx
  dbg : Option DbgSess
  jtag : Nat
  power : PowRt
  ppsLast : Option Nat
  ppsGood : Nat
  ppsOut : Option Nat
  kickAt : Nat
  holdAt : List (Nat × Nat)
  secImage : Option SecIn
  holdImage : W64
  bootRec : BootRec
  prevRec : BootRec
  regsOff : Bool
  fuseCe : List Nat
  fuseUe : List Nat
  fumSkip : List Nat
  tapOut : List Word
  busOut : List (BitVec 8)
  free : Nat
  deriving DecidableEq, Repr

/-- The machine right after a power-on reset. -/
def Mach.reset : Mach where
  phase := .reset
  shadows := []
  cores := []
  mem := []
  mmeta := []
  ctl := []
  blks := []
  routes := []
  evPend := []
  reports := []
  upsets := []
  protLogs := []
  sweepsRun := []
  tagonly := false
  dram := ⟨[], 0, []⟩
  slt := []
  fuses := []
  dt := 0
  secTrig := none
  mirWins := []
  mirSeqs := []
  fwds := []
  l3 := []
  dir := []
  stale := []
  txns := []
  retried := []
  gone := []
  heldReqs := []
  wbufs := []
  sltMove := none
  tokens := []
  slots := []
  slotNext := 0
  regions := []
  mcReqs := []
  mcRetried := []
  mcDrain := []
  mcTc3 := []
  rows := []
  refreshDue := []
  retrains := []
  remaps := []
  patrols := []
  sramPoison := []
  fcSrc := []
  caldLow := true
  pxTab := []
  egTab := []
  handovers := []
  ports := []
  hists := []
  meters := []
  queues := []
  engines := []
  vqfs := []
  pair := .reset
  warm := false
  warmWhy := 0
  dramKept := false
  hios := []
  cfgReqs := []
  flash := []
  mbx := .reset
  dbg := none
  jtag := 0x01
  power := .idle
  ppsLast := none
  ppsGood := 0
  ppsOut := none
  kickAt := 0
  holdAt := []
  secImage := none
  holdImage := 0
  bootRec := .none
  prevRec := .none
  regsOff := false
  fuseCe := []
  fuseUe := []
  fumSkip := []
  tapOut := []
  busOut := []
  free := 0

end Sys2Proof.Machine
end

