-- ==== Sys2Proof/Machine/Mem.lean ====
section
/-!
DEFINITION. Named operations over the register cells, memory and the address map: raw registers (R14, R16), fuse
and power state of a block (R28, R516, R530), what lies at a physical address (R14, R17, R287, R477), the home of a
line (R245), the carve-outs (R223), and reads and writes of memory words with their metadata (R33, R34, R37, R42).
-/

namespace Sys2Proof.Machine

/-! ### Register cells -/

/-- The key of the register cell at offset `off` of window `k` of stop `st`. -/
def cellKey (st k off : Nat) : Nat := (st * 256 + k) * 512 + off / 8

/-- What an unwritten register cell reads as: the reset value of the register tables. -/
def cellReset (key : Nat) : W64 :=
  match winBlk (key / 512 / 256) (key / 512 % 256) with
  | some (b, _) => resetOf b (key % 512 * 8)
  | none => 0

/-- The raw register at offset `off` of window `k` of stop `st`. -/
def Mach.reg (m : Mach) (st k off : Nat) : W64 :=
  Tab.get (cellReset (cellKey st k off)) m.ctl (cellKey st k off)

/-- Write a raw register. -/
def Mach.setReg (m : Mach) (st k off : Nat) (v : W64) : Mach :=
  { m with ctl := Tab.set (cellReset (cellKey st k off)) m.ctl (cellKey st k off) v }

/-- A field of a raw register. -/
def Mach.regFld (m : Mach) (st k off lo n : Nat) : Nat := fld (m.reg st k off) lo n

/-- Write a field of a raw register. -/
def Mach.setRegFld (m : Mach) (st k off lo n x : Nat) : Mach :=
  m.setReg st k off (setFld (m.reg st k off) lo n x)

/-- Set a bit of a raw register. -/
def Mach.setRegBit (m : Mach) (st k off i : Nat) (b : Bool) : Mach :=
  m.setReg st k off (setBit (m.reg st k off) i b)

/-- Add to a saturating count in a field of a raw register. -/
def Mach.countReg (m : Mach) (st k off lo n by_ : Nat) : Mach :=
  m.setRegFld st k off lo n (min (m.regFld st k off lo n + by_) (2 ^ n - 1))

/-- The header state of window `k` of stop `st`. -/
def Mach.blk (m : Mach) (st k : Nat) : BlkState := Tab.get .reset m.blks (st * 256 + k)

/-- Write the header state of a window. -/
def Mach.setBlk (m : Mach) (st k : Nat) (b : BlkState) : Mach :=
  { m with blks := Tab.set .reset m.blks (st * 256 + k) b }

/-- Core record `c`: 0 to 143 the V-cores, 144 to 175 the C-cores. -/
def Mach.core (m : Mach) (c : Nat) : Core := Tab.get Core.reset m.cores c

/-- Write a core record. -/
def Mach.setCore (m : Mach) (c : Nat) (x : Core) : Mach := { m with cores := Tab.set Core.reset m.cores c x }

/-! ### Cores and their windows -/

/-- Whether core record `c` is a C-core. -/
def isC (c : Nat) : Bool := decide (144 ≤ c)
/-- The stop of core `c` (R12). -/
def coreStop (c : Nat) : Nat := if c < 144 then podStop (c / 4) else ccStop ((c - 144) / 8)
/-- The window of core `c` at its stop (R16). -/
def coreWin (c : Nat) : Nat := if c < 144 then c % 4 + 1 else (c - 144) % 8 + 1
/-- The master unit of core `c` (R27). -/
def coreUnit (c : Nat) : Nat := if c < 144 then c % 4 else (c - 144) % 8
/-- The window that holds BLK_CTRL of the core's pod or cluster (R150, R184): window 0. -/
def parentWin : Nat := 0
/-- The core whose window is window `k` of stop `st`. -/
def coreAt (st k : Nat) : Option Nat :=
  match winBlk st k with
  | some (.vcore, i) => some i
  | some (.ccore, i) => some (144 + i)
  | _ => none

/-! ### Fuses and power -/

/-- Bit `i` of the DISABLE field, words 2 to 17 of the fuse array (R530). -/
def Mach.disabled (m : Mach) (i : Nat) : Bool := (Tab.get 0 m.fuses (2 + i / 32)).testBit (i % 32)

/-- Whether the fuse disable map removes this block (R22 FUSED_OFF; the order of R530's list). -/
def Mach.fusedOff (m : Mach) (st k : Nat) : Bool :=
  match winBlk st k with
  | some (.vcore, i) => m.disabled i
  | some (.ccore, i) => m.disabled (144 + i)
  | some (.port, i) => m.disabled (176 + i)
  | some (.l3h, i) => m.disabled (304 + i)
  | some (.dphy, i) => m.disabled (340 + i)
  | some (.rp, i) => m.disabled (352 + i)
  | some (.le, i) => m.disabled (384 + i)
  | some (.epn, i) => m.disabled (384 + i)
  | some (.psns, i) => m.disabled (384 + i)
  | some (.vqf, i) => m.disabled (384 + i)
  | _ => false

/-- The switched domain of a block (R497, R516), or none for the always-on set. -/
def domainOf (st k : Nat) : Option Nat :=
  match winBlk st k with
  | some (.vcore, i) => some (i / 4)
  | some (.cc, i) => some (36 + i)
  | some (.ccore, i) => some (36 + i / 8)
  | some (.px, i) => some (40 + i)
  | some (.port, i) => some (40 + i / 32)
  | some (.sflt, i) => some (40 + i)
  | some (.egs, i) => some (40 + i)
  | some (.hio, i) => some (44 + i)
  | some (.rp, i) => some (44 + i / 16)
  | some (.dmat, i) => some (44 + i)
  | some (.le, i) => some (46 + i)
  | some (.epn, i) => some (46 + i)
  | some (.psns, i) => some (46 + i)
  | some (.vqf, i) => some (46 + i)
  | some (.mnt, _) => some 48
  | some (.pmu, i) => match stopKind i with
    | .cc j => some (36 + j) | .px j => some (40 + j) | .hio j => some (44 + j) | .le j => some (46 + j)
    | .mnt => some 48 | _ => none
  | _ => none

/-- PM_DOMn.STATE (R517). -/
def Mach.domState (m : Mach) (d : Nat) : Nat := m.regFld 0 1 (0x100 + 8 * d) 0 3

/-- Whether the bifurcation layout leaves the root port of a window OFF (R474): such a window answers as an unpowered block. -/
def Mach.layoutOff (m : Mach) (st k : Nat) : Bool :=
  match winBlk st k with
  | some (.rp, i) => decide (m.regFld (hioStop (i / 16)) 0 0x40 (3 * (i % 16)) 3 = 0)
  | _ => false

/-- Whether the block of a window has power: its domain is ON, or it is always on (R21 POWERED). -/
def Mach.powered (m : Mach) (st k : Nat) : Bool :=
  (match domainOf st k with
  | some d => decide (m.domState d = 1)
  | none => true) && ! m.layoutOff st k

/-! ### The address map -/

/-- What lies at a physical address. -/
inductive Loc where
  | dram
  | pinned (c : Nat)
  | rp (r off : Nat)
  | cm (k off : Nat)
  | window (st k off : Nat)
  | bell (q off : Nat)
  | hole (st : Nat)
  | none
  deriving DecidableEq, Repr, Inhabited

/-- The base of the control region (R14). -/
def ctlBase : Nat := 0xFE00000000000
/-- The base of the pinned windows (R287). -/
def pinBase : Nat := 0x8000000000000
/-- The base of the root-port ranges (R477). -/
def rpBase : Nat := 0xC000000000000

/-- The stop of root port `r`. -/
def rpStop (r : Nat) : Nat := hioStop (r / 16)
/-- The window of root port `r`. -/
def rpWin (r : Nat) : Nat := r % 16 + 1

/-- What lies at physical address `pa` (R14, R16, R17, R287, R477). -/
def Mach.locate (m : Mach) (pa : Nat) : Loc :=
  if pa < m.dram.chans.length * m.dram.ilv then .dram
  else if pinBase ≤ pa ∧ pa < pinBase + 12 * 0x10000000000 then
    let c := (pa - pinBase) / 0x10000000000
    if (pa - pinBase) % 0x10000000000 < Tab.get 0 m.dram.pins c then .pinned c else .none
  else if rpBase ≤ pa ∧ pa < rpBase + 32 * 0x20000000000 then
    let r := (pa - rpBase) / 0x20000000000
    let off := (pa - rpBase) % 0x20000000000
    if off < m.regFld (rpStop r) (rpWin r) 0x50 0 22 * 0x100000 then .rp r off else .none
  else if ctlBase ≤ pa ∧ pa < ctlBase + 56 * 0x1000000 then
    let st := (pa - ctlBase) / 0x1000000
    let o := (pa - ctlBase) % 0x1000000
    if o < 0x100000 then
      (if (winBlk st (o / 0x1000)).isSome then .window st (o / 0x1000) (o % 0x1000) else .hole st)
    else match stopKind st with
      | .cc k => if o < 0x200000 then .cm k (o - 0x100000) else .hole st
      | .le e => if o < 0x100000 + 2048 * 0x1000 then
          .bell (2048 * e + (o - 0x100000) / 0x1000) (o % 0x1000) else .hole st
      | _ => .hole st
  else .none

/-- Whether an address holds memory that loads and stores act on: DRAM, cluster memory or a root-port range. -/
def Mach.isMem (m : Mach) (pa : Nat) : Bool :=
  match m.locate pa with
  | .dram | .pinned _ | .cm _ _ => true
  | _ => false

/-- Whether memory at `pa` has a metadata store (R42): interleaved DRAM and cluster memory do. -/
def Mach.hasMeta (m : Mach) (pa : Nat) : Bool :=
  match m.locate pa with
  | .dram | .cm _ _ => true
  | _ => false

/-- The 9-bit fold of R245. -/
def foldH (pa : Nat) : Nat :=
  let l := pa / 64
  (l % 512) ^^^ (l / 2 ^ 9 % 512) ^^^ (l / 2 ^ 18 % 512) ^^^ (l / 2 ^ 27 % 512) ^^^ (l / 2 ^ 36 % 512)
    ^^^ (l / 2 ^ 45 % 2)

/-- The slices that the fuse disable map leaves, ascending (R246). -/
def Mach.slicesPresent (m : Mach) : List Nat := (List.range 36).filter (fun p => ! m.disabled (304 + p))

/-- Entry `i` of the slice table; an entry that no image and no bucket move wrote is the default of R246. -/
def Mach.slice (m : Mach) (i : Nat) : Nat :=
  match m.slt.lookup i with
  | some p => p
  | none => (m.slicesPresent)[i % m.slicesPresent.length]?.getD 0

/-- The home slice of `pa` (R245). -/
def Mach.homeSlice (m : Mach) (pa : Nat) : Nat := m.slice (foldH pa)

/-- The channel hash of R289: the channel and the channel address of `pa` in interleaved DRAM; for a pinned
window, its channel and offset (R287). -/
def Mach.channelOf (m : Mach) (pa : Nat) : Nat × Nat :=
  match m.locate pa with
  | .pinned c => (c, (pa - pinBase) % 0x10000000000)
  | _ =>
    let n := m.dram.chans.length
    let u := pa / 256
    let q := u / n
    let h := ((q % 4096) ^^^ (q / 2 ^ 12 % 4096) ^^^ (q / 2 ^ 24 % 4096) ^^^ (q / 2 ^ 36 % 256)) % n
    let p := (u % n + h) % n
    let c := (m.dram.chans[p]?).getD 0
    (c, Tab.get 0 m.dram.pins c + q * 256 + pa % 256)

/-- The stop of the controller of channel `c` (R12). -/
def chanStop (c : Nat) : Nat := mcStop (c / 2)

/-- The BASE of the enabled carve-out that holds `pa` (R223). -/
def Mach.carveOf (m : Mach) (pa : Nat) : Option Nat :=
  ((List.range 16).find? (fun n =>
      let b := m.reg 0 9 (0x100 + 0x10 * n)
      bit b 0 && decide (fld b 21 31 * 0x200000 ≤ pa)
        && decide (pa < m.regFld 0 9 (0x108 + 0x10 * n) 21 31 * 0x200000))).map
    (fun n => m.regFld 0 9 (0x100 + 0x10 * n) 21 31 * 0x200000)

/-! ### Channels that are lost, and regions not yet initialised -/

/-- DPHY_STATUS.STATE of channel `c` (R305). -/
def Mach.chanState (m : Mach) (c : Nat) : Nat := m.regFld (chanStop c) (1 + c % 2) 0x40 0 3

/-- Whether a cache holds the line of `a`. -/
def Mach.cached (m : Mach) (a : Nat) : Bool :=
  decide (Tab.get DirEnt.none m.dir (a / 64) ≠ .none)
    || m.l3.any (fun p => p.2.any (fun e => decide (e.line = a / 64) && e.valid))
    || m.cores.any (fun p => p.2.l1.any (fun e => decide (e.line = a / 64) && e.valid))

/-- Whether `a` lies in DRAM of a FAILED channel and in no cache (R305). -/
def Mach.lost (m : Mach) (a : Nat) : Bool :=
  (match m.locate a with
    | .dram | .pinned _ => decide (m.chanState (m.channelOf a).1 = 4)
    | _ => false) && ! m.cached a

/-- The capacity of channel `c` in bytes (R308). -/
def Mach.capacity (m : Mach) (c : Nat) : Nat := m.regFld (chanStop c) (1 + c % 2) 0x48 0 10 * 2 ^ 30

/-- The bytes reserved in a channel (R286). -/
def Mach.reserve (m : Mach) (c : Nat) : Nat := m.capacity c / (if m.tagonly then 64 else 8)

/-- The channel addresses of the store line and the summary line of an interleaved channel address (R292). -/
def Mach.storeCa (m : Mach) (c ca : Nat) : List Nat :=
  let o := ca - Tab.get 0 m.dram.pins c
  let rb := m.capacity c - m.reserve c
  let sz := m.dram.ilv / (if m.tagonly then 64 else 8)
  [rb + o / (if m.tagonly then 64 else 8), rb + sz + o / 512]

/-- Regions of channel `c`. -/
def Mach.regionsOf (m : Mach) (c : Nat) : Regions := Tab.get ⟨0, 0, 0⟩ m.regions c

/-- A write initialises the region of a channel address (R538). -/
def Mach.initRegion (m : Mach) (c ca : Nat) : Mach :=
  let r := m.regionsOf c
  let i := ca / 0x200000
  if r.map.testBit i then m
  else { m with regions := Tab.set ⟨0, 0, 0⟩ m.regions c ⟨r.map ||| 2 ^ i, r.next, min (r.demand + 1) 0xFFFFFFFF⟩ }

/-- A write that reaches DRAM at `a` (R292, R294, R538): its line, and for interleaved DRAM the store line and the summary
line. -/
def Mach.touchDram (m : Mach) (a : Nat) : Mach :=
  match m.locate a with
  | .pinned c => m.initRegion c ((m.channelOf a).2)
  | .dram =>
    let (c, ca) := m.channelOf a
    (m.storeCa c ca).foldl (fun acc x => acc.initRegion c x) (m.initRegion c ca)
  | _ => m

/-! ### Memory words -/

/-- The byte at `a`; a byte that nothing has written reads 0 (R186, R538), and so does a byte of a FAILED channel (R305). -/
def Mach.byte (m : Mach) (a : Nat) : BitVec 8 := if m.lost a then 0 else Tab.get 0 m.mem a

/-- Write one byte; a write to a FAILED channel is discarded (R305). -/
def Mach.setByte (m : Mach) (a : Nat) (v : BitVec 8) : Mach :=
  if m.lost a then m
  else
    let m1 := if (m.stale.lookup (a / 64)).isSome then m else m.touchDram a
    { m1 with mem := Tab.set 0 m1.mem a v }

/-- The `n` bytes at `a`, little-endian (R73). -/
def Mach.readN (m : Mach) (a : Nat) : Nat → Nat
  | 0 => 0
  | n + 1 => (m.byte a).toNat + 256 * m.readN (a + 1) n

/-- Write the low `n` bytes of `v` at `a`, little-endian. -/
def Mach.writeN (m : Mach) (a : Nat) : Nat → Nat → Mach
  | 0, _ => m
  | n + 1, v => (m.setByte a (BitVec.ofNat 8 v)).writeN (a + 1) n (v / 256)

/-- The metadata of the word that holds `a`: poisoned in a FAILED channel (R305). -/
def Mach.metaAt (m : Mach) (a : Nat) : Meta := if m.lost a then ⟨false, true, 0⟩ else Tab.get .zero m.mmeta (a / 8)

/-- Whether `pa` lies in a pinned region, which keeps poison by line and nothing else (R42, R314). -/
def Mach.isPinned (m : Mach) (pa : Nat) : Bool :=
  match m.locate pa with
  | .pinned _ => true
  | _ => false

/-- The words of the line of `a`, by word number. -/
def lineWords (a : Nat) : List Nat := (List.range 8).map (fun i => a / 64 * 8 + i)

/-- Whether memory at `pa` keeps POISON by line: a pinned region (R314), and DRAM in TAGONLY (R39). -/
def Mach.byLine (m : Mach) (pa : Nat) : Bool :=
  m.isPinned pa || (m.tagonly && (match m.locate pa with | .dram => true | _ => false))

/-- A whole-line write begins: a poisoned line of memory that keeps POISON by line is no longer poisoned (R39, R314). -/
def Mach.openLine (m : Mach) (a : Nat) : Mach :=
  if m.byLine a then { m with mmeta := (lineWords a).foldl (fun t w => Tab.del t w) m.mmeta } else m

/-- Write the metadata of the word that holds `a`. Where POISON is kept by line, a poisoned word poisons the line and
clears its TAGs, and an unpoisoned word leaves the line poisoned while another word of it is (R39, R314); a pinned region
keeps no TAG and no COLOUR (R42). Cluster memory and DRAM otherwise keep the metadata by word, with COLOUR 0 in TAGONLY
(R37, R170). Other memory keeps none (R42). -/
def Mach.setMeta (m : Mach) (a : Nat) (x : Meta) : Mach :=
  if m.lost a then m
  else if m.byLine a then
    let others := (lineWords a).any (fun w => decide (w ≠ a / 8) && (Tab.get .zero m.mmeta w).poison)
    if x.poison || others then
      { m with mmeta := (lineWords a).foldl (fun t w => Tab.set .zero t w ⟨false, true, 0⟩) m.mmeta }
    else { m with mmeta := Tab.set .zero m.mmeta (a / 8) ⟨x.tag && m.hasMeta a, false, 0⟩ }
  else if m.hasMeta a then
    let y : Meta := if m.tagonly then ⟨x.tag, x.poison, 0⟩ else x
    { m with mmeta := Tab.set .zero m.mmeta (a / 8) y }
  else m

/-- The word at the 8-byte-aligned address `a` (R33). -/
def Mach.word (m : Mach) (a : Nat) : Word :=
  let x := m.metaAt a
  ⟨BitVec.ofNat 64 (m.readN a 8), x.tag, x.poison, x.colour⟩

/-- Write a whole word with its TAG and POISON, COLOUR unchanged: the full-word rows of R34. -/
def Mach.putWord (m : Mach) (a : Nat) (d : W64) (tag poison : Bool) : Mach :=
  (m.writeN a 8 d.toNat).setMeta a ⟨tag, poison, (m.metaAt a).colour⟩

/-- Write `n` bytes that lie in one word, TAG 0 and COLOUR unchanged: a full word takes the source POISON, a part
of one ORs it into the old POISON (R34). -/
def Mach.storePart (m : Mach) (a n v : Nat) (poison : Bool) : Mach :=
  let x := m.metaAt a
  (m.writeN a n v).setMeta a ⟨false, if n = 8 then poison else x.poison || poison, x.colour⟩

/-- Write `n` bytes (at most 8) from `a`, which may span two words (R34, R84 item 5). -/
def Mach.storeBytes (m : Mach) (a n v : Nat) (poison : Bool) : Mach :=
  let k := 8 - a % 8
  if n ≤ k then m.storePart a n v poison
  else (m.storePart a k v poison).storePart (a + k) (n - k) (v / 256 ^ k) poison

/-- The value and the metadata of an ordinary load of `n` bytes: TAG 0, POISON of every word touched, their
COLOUR when both agree (R34). -/
def Mach.loadBytes (m : Mach) (a n : Nat) : Nat × Bool × BitVec 6 :=
  let x := m.metaAt a
  let y := m.metaAt (a + n - 1)
  (m.readN a n, x.poison || y.poison, if x.colour = y.colour then x.colour else 0)

/-- Write a list of words from `a` upward; the list stands first. -/
def putWordsAt : List Word → Nat → Mach → Mach
  | [], _, m => m
  | w :: ws, a, m => putWordsAt ws (a + 8) (m.putWord a w.data w.tag w.poison)

/-- Write a list of words from `a` upward. -/
def Mach.putWords (m : Mach) (a : Nat) (ws : List Word) : Mach := putWordsAt ws a m

/-- The `n` words from `a` upward. -/
def Mach.words (m : Mach) (a : Nat) : Nat → List Word
  | 0 => []
  | n + 1 => m.word a :: m.words (a + 8) n

/-! ### The free value -/

/-- Advance the count of free values drawn. -/
def Mach.drawn (m : Mach) : Mach := { m with free := m.free + 1 }

end Sys2Proof.Machine
end

