-- ==== Sys2Proof/Machine/Ops.lean ====
section
/-!
DEFINITION. Shared operations of every block: free values, reports to the fault collector (R328, R330), the
violation response (R24 to R28, R560), the event router (R202 to R204) and the counter banks (R496 to R505).
-/

namespace Sys2Proof.Machine

/-! ### Free values -/

/-- The next free value (log entry 2). -/
def Mach.fresh (m : Mach) : W64 := Config.freeValue m.free

/-! ### Reports -/

/-- Send an occurrence to the fault collector (R328). -/
def Mach.report (m : Mach) (r : Report) : Mach := { m with reports := m.reports ++ [r] }

/-- Raise source `off` of stop `st` (R330), with the address and the access of the failing access. -/
def Mach.raiseSrc (m : Mach) (st off : Nat) (addr : Option Nat) (mstop munit : Nat) (acc : Option Acc) : Mach :=
  m.report ⟨(faultRange st).1 + off, addr, mstop, munit, acc.map Acc.code⟩

/-- Raise source `off` of stop `st` by the stop's own engine (R27 MUNIT 0x3F). -/
def Mach.raiseOwn (m : Mach) (st off : Nat) (addr : Option Nat) : Mach :=
  m.raiseSrc st off addr st 0x3F none

/-! ### Violations -/

/-- VIOL_ADDR of a capture (R21). -/
def violAddrOf (v : Viol) : W64 :=
  setBit (setBit (setFld 0 0 52 v.addr) 62 v.virt) 63 true

/-- VIOL_INFO of a capture with this COUNT (R21). -/
def violInfoOf (v : Viol) (count : Nat) : W64 :=
  setFld (setFld (setFld (setFld (setFld 0 0 6 v.mstop) 8 6 v.munit) 16 4 v.acc.code) 20 4 v.rule.code) 32 16 count

/-- The detecting block records a violation and raises its violation source (R25), with the physical address where the detector has one. -/
def Mach.logViol (m : Mach) (st k : Nat) (v : Viol) : Mach :=
  let b := m.blk st k
  let b' := if bit b.violAddr 63 then
      { b with violInfo := setFld b.violInfo 32 16 (min (fld b.violInfo 32 16 + 1) 0xFFFF) }
    else { b with violAddr := violAddrOf v, violInfo := violInfoOf v 1 }
  (m.setBlk st k b').raiseSrc st 0 (if v.virt then none else some v.addr) v.mstop v.munit (some v.acc)

/-! ### Events -/

/-- Insert into a strictly rising list. -/
def insNat : List Nat → Nat → List Nat
  | [], n => [n]
  | x :: t, n => if n < x then n :: x :: t else if n = x then x :: t else x :: insNat t n

/-- The route of event `n`, in the layout of SYT_EVR_ROUTE (R202). -/
def Mach.route (m : Mach) (n : Nat) : W64 := Tab.get 0 m.routes n

/-- Raise event `n` (R201 to R203): reserved numbers are never raised, a disabled route drops the raise and counts
it, a set pending bit coalesces it and counts it. -/
def Mach.raiseEvent (m : Mach) (n : Nat) : Mach :=
  if 792 ≤ n then m
  else if ! bit (m.route n) 10 then m.countReg 0 0 0x620 32 32 1
  else if m.evPend.contains n then m.countReg 0 0 0x620 0 32 1
  else { m with evPend := insNat m.evPend n }

/-- Raise an event that a block's set-up names, in the range that may be assigned (R201). -/
def Mach.raiseAssigned (m : Mach) (n : Nat) : Mach :=
  if 256 ≤ n ∧ n < 768 then m.raiseEvent n else m

/-- Whether event `n` makes line `j` of core `c` pending: its route is enabled, targets the core and the line, and
SEC matches the core's world (R202, R204). -/
def Mach.onLine (m : Mach) (c j n : Nat) : Bool :=
  let r := m.route n
  bit r 10 && (bit r 24 == isC c) && decide (fld r 16 8 = if isC c then c - 144 else c)
    && decide (fld r 12 4 = j) && (bit r 11 == decide ((m.core c).world = .secure))

/-- The lowest pending event of line `j` of core `c` (R205). -/
def Mach.lineEvent (m : Mach) (c j : Nat) : Option Nat := m.evPend.find? (fun n => m.onLine c j n)

/-- The pending lines of core `c` as bits [15:0] (R204). -/
def Mach.lines (m : Mach) (c : Nat) : W64 :=
  (List.range 16).foldl (fun w j => setBit w j (m.lineEvent c j).isSome) 0

/-- The core's device time (R72). -/
def Mach.dtNow (m : Mach) : W64 := BitVec.ofNat 64 m.dt

/-- Whether the timer of core `c` is pending (R204). -/
def Mach.timerPending (m : Mach) (c : Nat) : Bool :=
  decide ((m.core c).timecmp ≠ 0) && decide ((m.core c).timecmp.toNat ≤ m.dtNow.toNat)

/-- The pending set of core `c`: lines in [15:0], timer in [16] (R187). -/
def Mach.pendSet (m : Mach) (c : Nat) : W64 := setBit (m.lines c) 16 (m.timerPending c)

/-! ### Counter banks -/

/-- Whether a core bank can count event `e` (R508). -/
def coreEvent (c e : Nat) : Bool :=
  if isC c then
    (decide (1 ≤ e) && decide (e ≤ 0x0F) && decide (e ≠ 0x009)) || (decide (0x15 ≤ e) && decide (e ≤ 0x19)) || decide (e = 0x84)
  else (decide (1 ≤ e) && decide (e ≤ 0x14)) || (decide (0x80 ≤ e) && decide (e ≤ 0x84))

/-- Programmable counters of a core bank: 6 on a V-core, 4 on a C-core (R496). -/
def coreSels (c : Nat) : Nat := if isC c then 4 else 6

/-- Whether counter `i` of core `c`'s bank counts event `e` of a context in this world and compartment (R496,
R501). -/
def Mach.coreSelects (m : Mach) (c : Nat) (wd : World) (cmpid i e : Nat) : Bool :=
  if i = 6 then decide (e = 0x001)
  else if i = 7 then decide (e = 0x002)
  else
    let s := m.reg (coreStop c) (coreWin c) (0x410 + 8 * i)
    decide (i < coreSels c) && decide (fld s 0 10 = e) && coreEvent c e
      && (match wd with | .host => bit s 12 | .guest => bit s 13 | .secure => false)
      && (! bit s 14 || decide ((cmpid ^^^ fld s 16 16) &&& fld s 32 16 = 0))

/-- A bank's counter `i` counts `k`; on a wrap it sets OVF and acts as R504 says. Offsets: control register,
overflow register, first count. -/
def Mach.bumpCount (m : Mach) (st k ctrl ovf cnt i by_ : Nat) : Mach :=
  let v := m.regFld st k (cnt + 8 * i) 0 48 + by_
  let m1 := m.setRegFld st k (cnt + 8 * i) 0 48 v
  if v < 2 ^ 48 then m1
  else
    let m2 := m1.setRegBit st k ovf i true
    let m3 := if bit (m.reg st k ctrl) 1 then m2.setRegBit st k ctrl 2 true else m2
    if bit (m.reg st k ctrl) 26 then m3.raiseAssigned (m.regFld st k ctrl 16 10) else m3

/-- Count `by_` occurrences of event `e` at core `c`, for a context in this world and compartment (R498, R499, R501,
R504). -/
def Mach.countAs (m : Mach) (c : Nat) (wd : World) (cmpid e by_ : Nat) : Mach :=
  let st := coreStop c
  let k := coreWin c
  let ctl := m.reg st k 0x400
  if m.phase = .caldera ∨ wd = .secure ∨ bit ctl 0 = false ∨ bit ctl 2 = true then m
  else (List.range 8).foldl
    (fun acc i => if m.coreSelects c wd cmpid i e then acc.bumpCount st k 0x400 0x408 0x440 i by_ else acc) m

/-- Count for the core's present context. -/
def Mach.countCore (m : Mach) (c e by_ : Nat) : Mach := m.countAs c (m.core c).world (m.core c).cmpid e by_

/-- Count several events of one retired instruction, for the context that retired it (R499). -/
def Mach.countEvents (m : Mach) (c : Nat) (wd : World) (cmpid : Nat) (es : List Nat) : Mach :=
  es.foldl (fun acc e => acc.countAs c wd cmpid e 1) m

/-- The PMU window of a stop (R16). -/
def pmuWin (st : Nat) : Nat :=
  match stopKind st with
  | .pod _ => 6 | .cc _ => 9 | .mc _ => 3 | .px _ => 0x23 | .le _ => 4 | .hio _ => 0x12 | .mnt => 1 | _ => 0

/-- Whether the uncore bank of a stop can count event `e` (R508). -/
def uncoreEvent (st e : Nat) : Bool :=
  match stopKind st with
  | .pod _ => decide (0x200 ≤ e) && decide (e ≤ 0x208)
  | .mc _ => decide (0x220 ≤ e) && decide (e ≤ 0x227)
  | .cc _ => decide (0x240 ≤ e) && decide (e ≤ 0x241)
  | .le _ => decide (0x260 ≤ e) && decide (e ≤ 0x266)
  | .px _ => decide (0x280 ≤ e) && decide (e ≤ 0x284)
  | .hio _ => decide (0x2A0 ≤ e) && decide (e ≤ 0x2A3)
  | .mnt => decide (0x2C0 ≤ e) && decide (e ≤ 0x2C1)
  | _ => false

/-- The attributes of an uncore happening that filters test (R501). -/
structure UncoreEv where
  ev : Nat
  world : World
  tc : Option Nat
  master : Option (Nat × Nat)
  pa : Option Nat
  deriving DecidableEq, Repr, Inhabited

/-- A happening without a request (R501: treated as HOST). -/
def UncoreEv.plain (e : Nat) : UncoreEv := ⟨e, .host, none, none, none⟩

/-- Whether counter `i` of the uncore bank of stop `st` counts `u` (R501). -/
def Mach.uncoreSelects (m : Mach) (st i : Nat) (u : UncoreEv) : Bool :=
  let k := pmuWin st
  let s := m.reg st k (0x80 + 8 * i)
  decide (fld s 0 10 = u.ev) && uncoreEvent st u.ev
    && (match u.world with | .host => bit s 12 | .guest => bit s 13 | .secure => false)
    && (decide (fld s 14 4 = 0) || (match u.tc with | some c => decide (c < 4) && bit s (14 + c) | none => false))
    && (! bit s 18 || (match u.master with
        | some (ms, mu) => decide (fld s 19 6 = ms) && (bit s 31 || decide (fld s 25 6 = mu))
        | none => false))
    && (! bit s 32 || (match u.pa with
        | some pa => decide (m.regFld st k 0x50 6 46 ≤ pa / 64) && decide (pa / 64 < m.regFld st k 0x58 6 46)
        | none => false))

/-- Count a happening in the uncore bank of stop `st`, adding `by_` (R500, R504). A bank without power and a device in
the Caldera state count nothing (R497). -/
def Mach.countUncore (m : Mach) (st : Nat) (u : UncoreEv) (by_ : Nat) : Mach :=
  let k := pmuWin st
  let ctl := m.reg st k 0x40
  if m.phase = .caldera ∨ k = 0 ∨ u.world = .secure ∨ bit ctl 0 = false ∨ bit ctl 2 = true then m
  else (List.range 8).foldl
    (fun acc i => if m.uncoreSelects st i u then acc.bumpCount st k 0x40 0x48 0xC0 i by_ else acc) m

/-- Counts and overflow bits of the uncore bank of a stop clear (R497); with no overflow bit left it is not frozen (R504). -/
def Mach.clearBank (m : Mach) (st : Nat) : Mach :=
  if pmuWin st = 0 then m
  else (List.range 8).foldl (fun acc i => acc.setReg st (pmuWin st) (0xC0 + 8 * i) 0)
    ((m.setReg st (pmuWin st) 0x48 0).setRegBit st (pmuWin st) 0x40 2 false)

end Sys2Proof.Machine
end

