-- ==== Sys2Proof/Machine/Cache.lean ====
section
/-!
DEFINITION. What caches hold: line states of V-cores (R248), directory entries (R249), L3 allocation and victims (R269 to
R272), and what memory still holds of a line that a cache holds newer. The contents of memory in this model are the latest
ones; `stale` keeps the older ones that DRAM holds.
-/

namespace Sys2Proof.Machine

/-- Whether a line has a home: interleaved DRAM (R245, R288). -/
def Mach.homed (m : Mach) (pa : Nat) : Bool :=
  match m.locate pa with
  | .dram => true
  | _ => false

/-- The words of line `line`. -/
def Mach.lineOf (m : Mach) (line : Nat) : List Word := m.words (line * 64) 8

/-- The state of a line in V-core `c`'s L2 (R248). -/
def Mach.lineSt (m : Mach) (c line : Nat) : LineSt := Tab.get .I (m.core c).lines line

/-- Set it. -/
def Mach.setLine (m : Mach) (c line : Nat) (st : LineSt) : Mach :=
  m.setCore c { m.core c with lines := Tab.set .I (m.core c).lines line st }

/-- The directory entry of a line. -/
def Mach.dirOf (m : Mach) (line : Nat) : DirEnt := Tab.get .none m.dir line

/-- A cache takes a line of a FAILED channel: what it reads is payload 0, poisoned (R305). -/
def Mach.takeLost (m : Mach) (line : Nat) : Mach :=
  if ! m.lost (line * 64) then m
  else { m with
    mem := (List.range 64).foldl (fun t i => Tab.del t (line * 64 + i)) m.mem
    mmeta := (lineWords (line * 64)).foldl (fun t w => Tab.set .zero t w ⟨false, true, 0⟩) m.mmeta }

/-- Set it; a line of a FAILED channel that a cache takes is poisoned. -/
def Mach.setDir (m : Mach) (line : Nat) (e : DirEnt) : Mach :=
  let m1 := if e = .none then m else m.takeLost line
  { m1 with dir := Tab.set .none m1.dir line e }

/-- The V-core that holds the line in M, if any (R248). -/
def Mach.holderM (m : Mach) (line : Nat) : Option Nat :=
  (m.cores.find? (fun p => decide (Tab.get .I p.2.lines line = .M))).map Prod.fst

/-- Every V-core but `keep` loses the line. -/
def Mach.dropLines (m : Mach) (keep : Option Nat) (line : Nat) : Mach :=
  { m with cores := Tab.mapV Core.reset (fun i x =>
      if keep = some i then x else { x with lines := Tab.del x.lines line }) m.cores }

/-- CHECKER_ARMED_WRITE (R326): a write that stores the word at `a` into class `cls` of the window, while its checker
is armed for that word and class, stores it with the changes of the masks; ARM clears and DONE sets. -/
def Mach.armedWrite (m : Mach) (st k cls a : Nat) : Mach :=
  let ctl := m.reg st k 0x900
  let tgt := fld (m.reg st k 0x908) 3 49 * 8
  if bit ctl 0 ∧ fld ctl 2 4 = cls ∧ tgt = a / 8 * 8 then
    let cm := m.reg st k 0x918
    let wide : BitVec 128 := if bit ctl 7 then (cm.zeroExtend 128) <<< 64 else cm.zeroExtend 128
    let cx : BitVec 128 := if bit ctl 1 then Config.rawCheckDiff m.free (cm.zeroExtend 128) else wide
    let m1 := m.setReg st k 0x900 (setBit (setBit ctl 0 false) 63 true)
    let m2 := if bit ctl 1 then m1.drawn else m1
    let kept := m1.upsets.filter (fun u => ! (decide (u.st = st) && decide (u.k = k) && decide (u.cls = cls)
      && decide (u.pa = tgt)))
    { m2 with upsets := ⟨st, k, cls, tgt, m.reg st k 0x910, fld ctl 8 8, cx⟩ :: kept }
  else { m with upsets := m.upsets.filter (fun u => ! (decide (u.st = st) && decide (u.k = k)
      && decide (u.cls = cls) && decide (u.pa = a / 8 * 8))) }

/-- The line of `a` is written to DRAM: its data words, and the metadata of interleaved DRAM (R292, R326). -/
def Mach.dramStored (m : Mach) (a : Nat) : Mach :=
  let st := chanStop (m.channelOf a).1
  (lineWords a).foldl (fun acc w =>
    let m1 := acc.armedWrite st 0 8 (w * 8)
    if m1.isPinned a then m1 else m1.armedWrite st 0 9 (w * 8)) m

/-- What memory holds of a line is noted, before a cache makes the line newer. -/
def Mach.noteStale (m : Mach) (line : Nat) : Mach :=
  if (m.stale.lookup line).isSome then m else { m with stale := Tab.ins m.stale line (m.lineOf line) }

/-- The line is written to memory: memory holds the latest contents. -/
def Mach.unstale (m : Mach) (line : Nat) : Mach :=
  if (m.stale.lookup line).isSome then
    ({ m with stale := Tab.del m.stale line }.touchDram (line * 64)).dramStored (line * 64)
  else m

/-- What the caches hold of the line is discarded: memory's contents are the latest. -/
def Mach.revertLine (m : Mach) (line : Nat) : Mach :=
  match m.stale.lookup line with
  | some ws =>
    let m1 := (List.range 8).foldl (fun acc i =>
      let w := (ws[i]?).getD .zero
      let a := line * 64 + 8 * i
      let m2 := acc.writeN a 8 w.data.toNat
      { m2 with mmeta := Tab.set .zero m2.mmeta (a / 8) ⟨w.tag, w.poison, w.colour⟩ }) m
    { m1 with stale := Tab.del m1.stale line }
  | none => m

/-- An agent no longer holds the line. -/
def DirEnt.remove (e : DirEnt) (a : Nat) : DirEnt :=
  ⟨if e.owner = some a then Option.none else e.owner, if e.keeper = some a then Option.none else e.keeper,
    e.sharers.filter (fun x => decide (x ≠ a)), e.groups⟩

/-! ### L3 slices -/

/-- Register `off` of the L3H window of slice `p`. -/
def Mach.l3Reg (m : Mach) (p off : Nat) : W64 := m.reg (podStop p) 5 off

/-- The positions in use of slice `p`. -/
def Mach.slotsL3 (m : Mach) (p : Nat) : List L3Line := Tab.get [] m.l3 p

/-- Write them. -/
def Mach.setSlotsL3 (m : Mach) (p : Nat) (l : List L3Line) : Mach := { m with l3 := Tab.set [] m.l3 p l }

/-- The set of a line (R268). -/
def l3Set (line : Nat) : Nat := (line / 512 % 4096) ^^^ (line % 512 * 8)

/-- Whether the L3 holds a line. -/
def Mach.l3Holds (m : Mach) (line : Nat) : Bool :=
  (m.slotsL3 (m.homeSlice (line * 64))).any (fun e => decide (e.line = line) && e.valid)

/-- Whether the L3 holds it DIRTY. -/
def Mach.l3Dirty (m : Mach) (line : Nat) : Bool :=
  (m.slotsL3 (m.homeSlice (line * 64))).any (fun e => decide (e.line = line) && e.valid && e.dirty)

/-- Change the L3's copy of a line, if any. -/
def Mach.modL3 (m : Mach) (line : Nat) (f : L3Line → L3Line) : Mach :=
  let p := m.homeSlice (line * 64)
  m.setSlotsL3 p ((m.slotsL3 p).map (fun e => if e.line = line ∧ e.valid then f e else e))

/-- Whether a way of slice `p` is locked (R271). -/
def Mach.l3Locked (m : Mach) (p way : Nat) : Bool := decide (way < 12) && bit (m.l3Reg p 0x120) (4 + way)

/-- The L3 copy of a line goes: a locked position keeps its tag (R271). -/
def Mach.dropL3 (m : Mach) (line : Nat) : Mach :=
  let p := m.homeSlice (line * 64)
  m.setSlotsL3 p ((m.slotsL3 p).filterMap (fun e =>
    if e.line = line ∧ e.valid then
      (if m.l3Locked p e.way then some { e with valid := false, dirty := false, heldOld := none } else none)
    else some e))

/-- The DIRTY contents of an L3 position reach memory (R269): they are the latest unless an owner's are newer. -/
def Mach.l3ToMemory (m : Mach) (e : L3Line) : Mach :=
  if ! (e.valid && e.dirty) then m
  else match e.heldOld with
    | some ws => { m with stale := Tab.ins m.stale e.line ws }
    | none => m.unstale e.line

/-- Whether a line has an open transaction at its home. -/
def Mach.lineOpen (m : Mach) (line : Nat) : Bool := m.txns.any (fun t => decide (t.line = line) && t.active)

/-- The allocation group of a stop at slice `p` (R270). -/
def Mach.allocGroup (m : Mach) (p stop : Nat) : Nat :=
  if stop < 32 then fld (m.l3Reg p 0x130) (2 * stop) 2 else fld (m.l3Reg p 0x138) (2 * (stop - 32)) 2

/-- The way for an allocation (R270, R271): the locked position of the line's own tag; the forced way; else an invalid
eligible way; else an eligible one that a free value picks, as the tree pseudo-LRU choice among eligible ways is not
stated (log entry 17). -/
def Mach.allocWay (m : Mach) (p line stop : Nat) : Option Nat × Mach :=
  let ctl := m.l3Reg p 0x120
  let inSet := (m.slotsL3 p).filter (fun e => decide (l3Set e.line = l3Set line))
  let free := fun w => ! inSet.any (fun e => decide (e.way = w) && e.valid)
  let closed := fun w => ! inSet.any (fun e => decide (e.way = w) && m.lineOpen e.line && decide (e.line ≠ line))
  match inSet.find? (fun e => decide (e.line = line) && ! e.valid && m.l3Locked p e.way) with
  | some e => (some e.way, m)
  | none =>
    if bit ctl 20 then (if closed (fld ctl 16 4) then (some (fld ctl 16 4), m) else (none, m))
    else
      let mask := fld (m.l3Reg p 0x128) (16 * m.allocGroup p stop) 16
      let ok := (List.range 16).filter (fun w => mask.testBit w && ! m.l3Locked p w && closed w)
      match ok.find? free, ok with
      | some w, _ => (some w, m)
      | none, [] => (none, m)
      | none, _ => (ok[m.fresh.toNat % ok.length]?, m.drawn)

/-- Count a happening at a slice's stop (R508). -/
def Mach.countSlice (m : Mach) (p ev : Nat) : Mach := m.countUncore (podStop p) (.plain ev) 1

/-- Allocate a line in its slice for a stop (R269, R270); true where it took place. A DIRTY victim goes to memory. -/
def Mach.allocL3 (m : Mach) (line stop : Nat) (dirty : Bool) : Bool × Mach :=
  let p := m.homeSlice (line * 64)
  if ! bit (m.l3Reg p 0x120) 0 then (false, m)
  else match m.allocWay p line stop with
    | (none, m1) => (false, m1)
    | (some w, m1) =>
      let victim := fun (e : L3Line) => decide (l3Set e.line = l3Set line) && decide (e.way = w)
      let gone := (m1.slotsL3 p).filter victim
      let m2 := gone.foldl (fun acc e =>
        let acc1 := acc.l3ToMemory e
        if e.valid && e.dirty then acc1.countSlice p 0x203 else acc1) m1
      let m2 := m2.takeLost line
      let m3 := m2.setSlotsL3 p (⟨line, w, dirty, true, none⟩ :: (m2.slotsL3 p).filter (fun e => ! victim e))
      (true, m3.countSlice p 0x202)

/-- A line comes back to its home from a cache that held it in M (R269): overwritten or allocated DIRTY, else written to
memory. -/
def Mach.l3Return (m : Mach) (line stop : Nat) : Mach :=
  if m.l3Holds line then (m.modL3 line (fun e => { e with dirty := true, heldOld := none })).noteStale line
  else match (m.allocL3 line stop true) with
    | (true, m1) => m1
    | (false, m1) => m1.unstale line

/-- Whether data read from memory for this stop is allocated (R269, R271). -/
def Mach.fillsL3 (m : Mach) (line stop : Nat) : Bool :=
  let p := m.homeSlice (line * 64)
  let ctl := m.l3Reg p 0x120
  bit ctl 20 || bit ctl (24 + m.allocGroup p stop)
    || (m.slotsL3 p).any (fun e => decide (e.line = line) && ! e.valid && m.l3Locked p e.way)

/-- The home reads a line for a request: from the L3, else from memory, which may allocate it clean (R250, R269). -/
def Mach.homeRead (m : Mach) (line stop : Nat) : Mach :=
  let p := m.homeSlice (line * 64)
  if m.l3Holds line then m.countSlice p 0x201
  else if m.fillsL3 line stop then (m.allocL3 line stop false).2 else m

/-! ### Leaving an L2 -/

/-- One line leaves a V-core's L2: as WbD, EvC or silently (R250). -/
def Mach.leaveL2 (m : Mach) (c : Nat) (p : Nat × LineSt) : Mach :=
  match p.2 with
  | .M => ((m.l3Return p.1 (coreStop c)).setDir p.1 ((m.dirOf p.1).remove c)).countCore c 0x013 1
  | .E | .K => m.setDir p.1 ((m.dirOf p.1).remove c)
  | _ => m

/-- Every line leaves V-core `c`'s caches. -/
def Mach.emptyL2 (m : Mach) (c : Nat) : Mach :=
  let ls := (m.core c).lines
  ls.foldl (fun acc p => acc.leaveL2 c p) (m.setCore c { m.core c with lines := [] })

/-! ### Writes -/

/-- V-core `c` comes to hold a line in M (R250, R252): every other copy goes, and the L3's copy and memory may now be
old. -/
def Mach.becomeM (m : Mach) (c line : Nat) : Mach :=
  if m.lineSt c line = .M then m
  else
    let latest := m.lineOf line
    let newer := (m.holderM line).isSome
    let m1 := if newer then m else
      (m.noteStale line).modL3 line (fun e => { e with heldOld := some (e.heldOld.getD latest) })
    let m2 := ((m1.dropLines (some c) line).setLine c line .M).setDir line ⟨some c, none, [], []⟩
    (lineWords (line * 64)).foldl (fun acc w => acc.armedWrite (coreStop c) (coreWin c) 2 (w * 8)) m2

/-- The word at `a` was stored: the array that took it, for an armed checker (R326). -/
def Mach.stored (m : Mach) (a : Nat) : Mach :=
  match m.locate a with
  | .cm k _ => m.armedWrite (ccStop k) 0 4 a
  | .pinned c => m.armedWrite (chanStop c) 0 8 a
  | .dram =>
    match m.holderM (a / 64) with
    | some c => m.armedWrite (coreStop c) (coreWin c) 1 a
    | none =>
      if m.l3Holds (a / 64) then m.armedWrite (podStop (m.homeSlice a)) 5 5 a
      else (m.armedWrite (chanStop (m.channelOf a).1) 0 8 a).armedWrite (chanStop (m.channelOf a).1) 0 9 a
  | _ => m

/-- A write at the home without ownership (R252, R269): an M owner's line comes back, every copy but the writer's goes,
and the bytes are merged into the L3's copy, or written to memory. To be done before the bytes are written. -/
def Mach.homeWrite (m : Mach) (writer : Option Nat) (line : Nat) : Mach :=
  let m1 := match m.holderM line with
    | some o => m.l3Return line (coreStop o)
    | none => m
  let keeps : Bool := match writer with
    | some c => decide (m.lineSt c line = .S) || decide (m.lineSt c line = .K)
    | none => false
  let e := m1.dirOf line
  let m2 := (m1.dropLines (if keeps then writer else none) line).setDir line
    (match writer with
      | some c => if keeps then ⟨none, if e.keeper = some c then some c else none, [c], []⟩ else .none
      | none => .none)
  if m2.l3Holds line then (m2.noteStale line).modL3 line (fun x => { x with dirty := true }) else m2

end Sys2Proof.Machine
end

