-- ==== Sys2Proof/Machine/Xlate.lean ====
section
/-!
DEFINITION. Translation: the table walks of both stages (R214 to R217), the final page type (R216), dirty logging
(R219), and a core's translation buffer (R138, R167, R220).
-/

namespace Sys2Proof.Machine

/-- The rights an access needs of translation (R217). -/
structure Need where
  r : Bool
  w : Bool
  x : Bool
  deriving DecidableEq, Repr, Inhabited

/-- A failed translation: its cause and, for XLATE2, the faulting IPA (R217). -/
structure XlFault where
  cause : Cause
  ipa : Option Nat
  deriving DecidableEq, Repr, Inhabited

/-- A translation: the physical address, the final page type, the entry that a buffer may hold, and the stage-2
descriptor whose D the walker sets (R219). -/
structure XlOk where
  pa : Nat
  ptype : Nat
  entry : TlbEntry
  setD : Option Nat
  deriving DecidableEq, Repr, Inhabited

/-- The regime of an access (R209, R211): world, VMID, ASID, stage-1 root and stage-2 root. -/
structure Regime where
  world : World
  vmid : Nat
  asid : Nat
  s1root : Nat
  s2root : Nat
  deriving DecidableEq, Repr, Inhabited

/-- The live regime of a core (R211). -/
def Core.regime (x : Core) : Regime :=
  ⟨x.world, x.vmid, fld x.s1 40 16, fld x.s1 0 (if x.world = .guest then 36 else 40) * 4096,
    fld x.s2root 0 40 * 4096⟩

/-- The payload of the descriptor at `pa`, or none where it is poisoned (R215) or where the read meets no memory
or a carve-out that the request may not enter (R224; log entry 5). -/
def Mach.readDesc (m : Mach) (wd : World) (pa : Nat) : Option W64 :=
  if m.isMem pa && (decide (wd = .secure) || (m.carveOf pa).isNone) && ! (m.metaAt pa).poison then
    some (BitVec.ofNat 64 (m.readN pa 8))
  else none

/-- The index of `a` at level `l` (R214). -/
def levelIndex (a l : Nat) : Nat := a / 2 ^ (39 - 9 * l) % 512

/-- Bytes of a page that a walk ends with at level `l`, as a power of two (R214). -/
def levelLog2 (l : Nat) : Nat := 39 - 9 * l

/-- The outcome of reading one descriptor at level `l`: invalid, a next table, or a page with its size (R215). -/
inductive DescKind where
  | bad | table (next : Nat) | page (base log2 : Nat)
  deriving DecidableEq, Repr

/-- Classify a descriptor at level `l` for input address `a` (R215). `oaBits` is 52, or 48 for a GUEST stage-1
descriptor, whose OA [51:48] is reserved. -/
def descKind (d : W64) (l a oaBits : Nat) : DescKind :=
  let oa := fld d 12 40 * 4096
  if ! bit d 0 ∨ fld d 52 12 ≠ 0 ∨ 2 ^ oaBits ≤ oa then .bad
  else if l < 3 ∧ bit d 1 then (if fld d 2 10 = 0 then .table oa else .bad)
  else if fld d 9 3 ≠ 0 ∨ l = 0 ∨ (l = 3 ∧ ! bit d 1) then .bad
  else if l < 3 then
    (if bit d 8 ∨ oa % 2 ^ levelLog2 l ≠ 0 then .bad else .page oa (levelLog2 l))
  else if bit d 8 then
    (if oa / 4096 % 16 ≠ a / 4096 % 16 then .bad else .page (oa / 65536 * 65536) 16)
  else .page oa 12

/-- The descriptor that an access obeys when its walk reads the one at `da` on level `l` (R215), with its address. The members of a
group of 16 at level 3 of which a valid one has C64 must not differ but in OA [15:12]; where they differ, a free value says which member
is obeyed (log entry 31), and a member that is a page of its own serves that page alone. -/
def Mach.member (m : Mach) (wd : World) (l da oaBits : Nat) : Nat × Option W64 :=
  let own := (da, m.readDesc wd da)
  if l ≠ 3 then own
  else
    let b := da / 128 * 128
    let ds := (List.range 16).map (fun k => (b + 8 * k, m.readDesc wd (b + 8 * k)))
    let kind : Nat × Option W64 → DescKind := fun p => match p.2 with
      | some d => descKind d 3 (p.1 / 8 % 16 * 4096) oaBits
      | none => DescKind.bad
    let c64 : Nat × Option W64 → Bool := fun p => match p.2 with
      | some d => bit d 8
      | none => false
    let one := own.2.map (fun d => setFld d 12 4 0)
    if ! ds.any (fun p => c64 p && decide (kind p ≠ .bad)) then own
    else if ds.all (fun p => decide (p.2.map (fun d => setFld d 12 4 0) = one) && decide (kind p ≠ .bad)) then own
    else
      let p : Nat × Option W64 := (ds[m.fresh.toNat % 16]?).getD own
      if kind p = .bad ∨ c64 p then p else own

/-- The result of a stage-2 walk: physical address, page size, rights, DEV, and dirty-logging state with the
descriptor's address. -/
structure S2Ok where
  pa : Nat
  log2 : Nat
  r : Bool
  w : Bool
  x : Bool
  dev : Bool
  clean : Bool
  desc : Nat
  deriving DecidableEq, Repr, Inhabited

/-- The stage-2 walk from the table at `tbl`, `n` levels before the end (R214, R217). -/
def Mach.walk2 (m : Mach) (wd : World) (ipa : Nat) : Nat → Nat → Option S2Ok
  | 0, _ => none
  | n + 1, tbl =>
    let l := 3 - n
    let da := tbl + levelIndex ipa l * 8
    match m.member wd l da 52 with
    | (_, none) => none
    | (dk, some d) =>
      match descKind d l (dk / 8 % 16 * 4096) 52 with
      | .bad => none
      | .table nx => m.walk2 wd ipa n nx
      | .page base lg =>
        some ⟨base + ipa % 2 ^ lg, lg, bit d 2, bit d 3, bit d 4, bit d 5, bit d 6 && ! bit d 7, dk⟩

/-- The physical address of a stage-1 table read at `a`: itself, or through stage 2 in GUEST, where a failure or a
device page ends the walk (R217 item 1). -/
def Mach.tableAddr (m : Mach) (g : Regime) (a : Nat) : Option Nat :=
  if g.world = .guest then
    match m.walk2 g.world a 4 g.s2root with
    | some x => if x.r && ! x.dev then some x.pa else none
    | none => none
  else some a

/-- The result of a stage-1 walk: output address, page size, rights, page type, G. -/
structure S1Ok where
  oa : Nat
  log2 : Nat
  r : Bool
  w : Bool
  x : Bool
  ptype : Nat
  glob : Bool
  deriving DecidableEq, Repr, Inhabited

/-- The stage-1 walk from the table at `tbl`, `n` levels before the end (R214, R217 item 1). -/
def Mach.walk1 (m : Mach) (g : Regime) (va : Nat) : Nat → Nat → Except XlFault S1Ok
  | 0, _ => .error ⟨.xlate1, none⟩
  | n + 1, tbl =>
    let l := 3 - n
    let da := tbl + levelIndex va l * 8
    match m.tableAddr g da with
    | none => .error ⟨.xlate2, some da⟩
    | some pa =>
      match m.member g.world l pa (if g.world = .guest then 48 else 52) with
      | (_, none) => .error ⟨.xlate1, none⟩
      | (dk, some d) =>
        match descKind d l (dk / 8 % 16 * 4096) (if g.world = .guest then 48 else 52) with
        | .bad => .error ⟨.xlate1, none⟩
        | .table nx => m.walk1 g va n nx
        | .page base lg => .ok ⟨base + va % 2 ^ lg, lg, bit d 2, bit d 3, bit d 4, fld d 5 2, bit d 7⟩

/-- The stage-1 rights and the store ban of GT pages (R48, R217 item 2). -/
def rights1 (nd : Need) (gtOk r w x : Bool) (ptype : Nat) : Option Cause :=
  if nd.x && ! x then some .noexec
  else if (nd.r && ! r) || (nd.w && ! w) then some .xlate1
  else if nd.w && decide (ptype = 1) && ! gtOk then some .xlate1
  else none

/-- The stage-2 rights (R217 item 4). -/
def rights2 (nd : Need) (r w x : Bool) : Option Cause :=
  if nd.x && ! x then some .noexec
  else if (nd.r && ! r) || (nd.w && ! w) then some .xlate2
  else none

/-- The final page type of a GUEST page, or none where R216 faults XLATE2. -/
def combineType (ptype : Nat) (dev : Bool) : Option Nat :=
  if ! dev then some ptype
  else if ptype = 1 then none
  else if ptype = 0 then some 2
  else some ptype

/-- A translation by walking the tables (R217). -/
def Mach.walk (m : Mach) (g : Regime) (nd : Need) (gtOk : Bool) (va : Nat) : Except XlFault XlOk :=
  if g.s1root = 0 then .error ⟨.xlate1, none⟩
  else match m.walk1 g va 4 g.s1root with
  | .error e => .error e
  | .ok a =>
    match rights1 nd gtOk a.r a.w a.x a.ptype with
    | some c => .error ⟨c, none⟩
    | none =>
      if g.world ≠ .guest then
        let sz := 2 ^ a.log2
        .ok ⟨a.oa, a.ptype, ⟨g.world, 0, g.asid, a.glob, a.log2, va / sz * sz, 0, a.oa / sz * sz, a.r, a.w,
          a.x, true, true, true, false, a.ptype⟩, none⟩
      else match m.walk2 g.world a.oa 4 g.s2root with
      | none => .error ⟨.xlate2, some (a.oa / 4096 * 4096)⟩
      | some b =>
        match combineType a.ptype b.dev, rights2 nd b.r b.w b.x with
        | none, _ => .error ⟨.xlate2, some (a.oa / 4096 * 4096)⟩
        | _, some c => .error ⟨c, if c = .xlate2 then some (a.oa / 4096 * 4096) else none⟩
        | some pt, none =>
          let lg := min a.log2 b.log2
          let sz := 2 ^ lg
          let setD := nd.w && b.clean
          .ok ⟨b.pa, pt, ⟨g.world, g.vmid, g.asid, a.glob, lg, va / sz * sz, a.oa / sz * sz, b.pa / sz * sz,
            a.r, a.w, a.x, b.r, b.w, b.x, b.clean && ! setD, pt⟩, if setD then some b.desc else none⟩

/-- Whether a held entry serves `va` in this regime (R220); an entry that withholds writes serves no write
(R219). -/
def TlbEntry.hits (e : TlbEntry) (g : Regime) (nd : Need) (va : Nat) : Bool :=
  (e.world == g.world) && (decide (g.world ≠ .guest) || decide (e.vmid = g.vmid))
    && (e.glob || decide (e.asid = g.asid)) && decide (e.vbase ≤ va) && decide (va < e.vbase + 2 ^ e.log2)
    && ! (nd.w && e.clean)

/-- The page type that an address forces: the control region, the apertures, pinned regions and PCIe ranges are
DEVICE whatever the descriptors say (R216, R288, R478). -/
def Mach.forceType (m : Mach) (pa pt : Nat) : Nat :=
  match m.locate pa with
  | .pinned _ | .cm _ _ | .window _ _ _ | .bell _ _ | .hole _ => 2
  | .rp r _ => if bit (m.reg (rpStop r) (rpWin r) 0x48) 10 then (if pt = 0 ∨ pt = 1 then 2 else pt) else 2
  | _ => pt

/-- The number of translations a core holds: the instruction, data and second-level buffers of a V-core together (R138), or the 32
of a C-core (R167). The replacement is oldest first (log entry 6). -/
def tlbCap (c : Nat) : Nat := if isC c then 32 else 64 + 96 + 4096 + 32

/-- Hold a translation in core `c`; a locked C-core buffer takes none (R167). -/
def Mach.tlbFill (m : Mach) (c : Nat) (e : TlbEntry) : Mach :=
  let x := m.core c
  if isC c ∧ bit (m.reg (coreStop c) (coreWin c) 0x108) 0 then m
  else m.setCore c { x with tlb := (e :: x.tlb).take (tlbCap c) }

/-- Translate `va` for core `c`: from a held entry, or by a walk that fills one and sets D (R217, R219). Each walk may draw one free
value (R215). -/
def Mach.translate (m : Mach) (c : Nat) (nd : Need) (gtOk : Bool) (va : Nat) :
    Except XlFault (Nat × Nat × Mach) :=
  let x := m.core c
  let g := x.regime
  match x.tlb.find? (fun e => e.hits g nd va) with
  | some e =>
    match rights1 nd gtOk e.r1 e.w1 e.x1 e.ptype, rights2 nd e.r2 e.w2 e.x2 with
    | some k, _ => .error ⟨k, none⟩
    | none, some k =>
      .error ⟨k, if k = .xlate2 then some ((e.ibase + (va - e.vbase)) / 4096 * 4096) else none⟩
    | none, none =>
      let pa := e.pbase + (va - e.vbase)
      .ok (pa, m.forceType pa e.ptype, m)
  | none =>
    match m.walk g nd gtOk va with
    | .error e => .error e
    | .ok t =>
      let m1 := (m.drawn.tlbFill c t.entry).countCore c 0x00A 1
      let m2 := match t.setD with
        | some d => let m3 := if m1.homed d then m1.homeWrite none (d / 64) else m1
                    m3.setByte d (m3.byte d ||| 0x80)
        | none => m1
      .ok (t.pa, m2.forceType t.pa t.ptype, m2)

/-- The entries that an invalidation selects (R221): scope, world, VMID, ASID and page address. -/
def TlbEntry.selected (e : TlbEntry) (scope : Nat) (wd : World) (vmid asid page : Nat) : Bool :=
  let inVm := (e.world == wd) && (decide (wd ≠ .guest) || decide (e.vmid = vmid))
  if scope = 0 then e.world == wd
  else if scope = 1 then inVm
  else if scope = 2 then inVm && decide (e.asid = asid) && ! e.glob
  else if scope = 3 then inVm && (e.glob || decide (e.asid = asid)) && decide (e.vbase ≤ page)
    && decide (page < e.vbase + 2 ^ e.log2)
  else if scope = 4 then inVm
  else false

/-- Drop the selected translations in every core (R221). -/
def Mach.tlbInvalidate (m : Mach) (scope : Nat) (wd : World) (vmid asid page : Nat) : Mach :=
  { m with cores := Tab.mapV Core.reset (fun _ x =>
      { x with tlb := x.tlb.filter (fun e => ! e.selected scope wd vmid asid page) }) m.cores }

end Sys2Proof.Machine
end

