-- ==== Sys2Proof/Machine/Access.lean ====
section
/-!
DEFINITION. The checks of an access through a capability (R51 to R54): grant lookup, the ten steps in order, the
refusal of an address by its target (R15, R16, R17, R28, R287), and the data side of loads and stores, with the
C-core's L1 and merging buffer (R159 to R165).
-/

namespace Sys2Proof.Machine

/-- An exception on its way to the entry (R187, R189), with what R560 logs: `vaddr` and, for a refusal by another
block, the window that logs it and the physical address (`site`); `ipa` is what XL_FIPA captures (R217). -/
structure Exc where
  cause : Cause
  sub : Nat
  acc : Option Acc
  rule : Rule
  w2 : W64
  vaddr : Nat
  site : Option (Nat × Nat × Nat)
  elem : Option Nat
  ipa : Option Nat
  deriving DecidableEq, Repr

/-- An exception that is no violation (R560), with word 2. -/
def Exc.plain (k : Cause) (sub : Nat) (w2 : W64) : Exc := ⟨k, sub, none, .none, w2, 0, none, none, none⟩

/-- A violation that the core detects itself (R560): word 2, and the address that the core logs. -/
def Exc.viol (k : Cause) (sub : Nat) (a : Acc) (r : Rule) (w2 : W64) (vaddr : Nat) : Exc :=
  ⟨k, sub, some a, r, w2, vaddr, none, none, none⟩

/-- A virtual address as a payload: word 2 of the frame (R187). -/
def vaWord (ea : Int) : W64 := BitVec.ofInt 64 ea
/-- A virtual address as VIOL_ADDR holds it: 48 bits. -/
def va48 (ea : Int) : Nat := (ea % (2 ^ 48 : Int)).toNat

/-! ### Grant entries -/

/-- A grant entry (R46). -/
structure Grant where
  base : Nat
  limit : Nat
  perms : W64
  otype : Nat
  colour : Nat
  gen : Nat
  exh : Bool
  valid : Bool
  owner : Nat
  deriving DecidableEq, Repr, Inhabited

/-- Read the layout of R46. -/
def Grant.ofLine (l : GrantLine) : Grant :=
  ⟨fld l.w0 0 48, fld l.w1 0 48, setFld 0 0 16 (fld l.w2 0 16), fld l.w2 16 16, fld l.w2 32 6, fld l.w2 40 4,
    bit l.w2 62, bit l.w2 63, fld l.w3 0 16⟩

/-- Whether the entry carries a permission (R47). -/
def Grant.has (g : Grant) (p : Perm) : Bool := bit g.perms p.bit

/-- The entry that a grant-table line of memory holds. -/
def Mach.grantLine (m : Mach) (pa : Nat) : GrantLine :=
  ⟨pa, (m.word pa).data, (m.word (pa + 8)).data, (m.word (pa + 16)).data, (m.word (pa + 24)).data⟩

/-- Write an entry in the layout of R46, its bits not named 0. -/
def Mach.putGrant (m : Mach) (pa : Nat) (g : Grant) : Mach :=
  let w2 := setFld (setFld (setFld (setFld 0 0 16 (fld g.perms 0 16)) 16 16 g.otype) 32 6 g.colour) 40 4 g.gen
  m.putWords pa [.plain (setFld 0 0 48 g.base), .plain (setFld 0 0 48 g.limit),
    .plain (setBit (setBit w2 62 g.exh) 63 g.valid), .plain (setFld 0 0 16 g.owner)]

/-- Why a grant lookup failed: no GT page or no live table (none), or a carve-out refusal by a home (R560). -/
abbrev GrantErr := Option (Nat × Nat × Nat)

/-- The virtual address of entry `idx` of the table that TSEL names (R45). -/
def Core.entryAddr (x : Core) (tsel : Bool) (idx : Nat) : Nat :=
  (if tsel then x.wtab else x.gtab).toNat + idx * 32

/-- The window that refuses an access to a carve-out: the home's L3H window, or the controller's for a pinned
region (R224), with the address that R226 lets it record. -/
def Mach.carveSite (m : Mach) (pa base : Nat) : Nat × Nat × Nat :=
  match m.locate pa with
  | .pinned c => (chanStop c, 0, base)
  | _ => (podStop (m.homeSlice pa), 5, base)

/-- The physical address of a grant entry, where its page has type GT (R45, R48). -/
def Mach.entryPa (m : Mach) (c : Nat) (tsel : Bool) (idx : Nat) : Except GrantErr (Nat × Mach) :=
  match m.translate c ⟨true, false, false⟩ true ((m.core c).entryAddr tsel idx) with
  | .error _ => .error none
  | .ok (pa, pt, m1) =>
    if pt ≠ 1 ∨ ! m1.isMem pa then .error none
    else match m1.carveOf pa with
      | some b => if (m.core c).world = .secure then .ok (pa, m1) else .error (some (m1.carveSite pa b))
      | none => .ok (pa, m1)

/-- Hold a valid grant entry in core `c`'s grant cache of 256 entries (R54); a locked C-core cache takes none
(R167). The replacement is oldest first (log entry 6). -/
def Mach.gcFill (m : Mach) (c : Nat) (l : GrantLine) : Mach :=
  let x := m.core c
  if isC c ∧ bit (m.reg (coreStop c) (coreWin c) 0x108) 1 then m
  else m.setCore c { x with gcache := (l :: x.gcache).take 256 }

/-- The grant entry `idx` of the table that TSEL names, from the grant cache or from memory (R54). A poisoned
entry word gives no valid entry (log entry 5). -/
def Mach.entry (m : Mach) (c : Nat) (tsel : Bool) (idx : Nat) : Except GrantErr (Grant × Nat × Mach) :=
  match m.entryPa c tsel idx with
  | .error e => .error e
  | .ok (pa, m1) =>
    match (m1.core c).gcache.find? (fun l => decide (l.pa = pa)) with
    | some l => .ok (.ofLine l, pa, m1)
    | none =>
      let l := m1.grantLine pa
      let bad := (m1.words pa 4).any (fun w => w.poison)
      let g := Grant.ofLine l
      let m2 := m1.countCore c 0x00B 1
      if bad then .ok ({ g with valid := false }, pa, m2)
      else if g.valid then .ok (g, pa, m2.gcFill c l) else .ok (g, pa, m2)

/-- Steps 2 and 3 of R51 on a capability: TAG, then a live entry. `w2` is the fault's word 2 and `vaddr` what is
logged. -/
def Mach.live (m : Mach) (c : Nat) (cap : Word) (a : Acc) (w2 : W64) (vaddr : Nat) :
    Except Exc (Grant × Nat × Mach) :=
  if ! cap.tag then .error (.viol .capTag 2 a .cap w2 vaddr)
  else match m.entry c cap.tsel cap.index with
    | .error none => .error (.viol .capGrant 3 a .cap w2 vaddr)
    | .error (some s) => .error ⟨.capGrant, 3, some a, .carve, w2, vaddr, some s, none, none⟩
    | .ok (g, pa, m1) =>
      if g.valid && decide (g.gen = cap.gen) then .ok (g, pa, m1)
      else .error (.viol .capGrant 3 a .cap w2 vaddr)

/-! ### The ten steps -/

/-- What an access asks of R51: its type, the permissions of step 5, whether it also needs CTL or DB of R15, the
rights of step 9, its alignment, its size, whether it is colour-checked, and whether the GT store ban is waived. -/
structure Req where
  acc : Acc
  perms : List Perm
  need : Need
  align : Nat
  n : Nat
  colour : Bool
  gtOk : Bool
  ctl : Bool
  deriving DecidableEq, Repr

/-- A checked part of an access: physical address, bytes, final page type and virtual address. -/
structure Piece where
  pa : Nat
  n : Nat
  pt : Nat
  va : Nat
  deriving DecidableEq, Repr, Inhabited

/-- The words that `n` bytes at `pa` touch. -/
def wordsTouched (pa n : Nat) : List Nat :=
  (List.range ((pa + n - 1) / 8 - pa / 8 + 1)).map (fun i => (pa / 8 + i) * 8)

/-- Steps 8 to 10 of R51 for one half (R52, R84 item 3). The home refuses a carve-out before any data is read
(R224), so no colour of a refused line is compared. -/
def Mach.checkHalf (m : Mach) (c : Nat) (colour : Nat) (rq : Req) (va n : Nat) : Except Exc (Piece × Mach) :=
  match m.translate c rq.need rq.gtOk va with
  | .error e => .error ⟨e.cause, 9, some rq.acc, .xlate, BitVec.ofNat 64 va, va, none, none, e.ipa⟩
  | .ok (pa, pt, m1) =>
    match (if (m.core c).world = .secure then none else m1.carveOf pa) with
    | some b =>
      .error ⟨.capPerm, 10, some rq.acc, .carve, BitVec.ofNat 64 va, va, some (m1.carveSite pa b), none, none⟩
    | none =>
      let ctlLoc := match m1.locate pa with
        | .window _ _ _ | .bell _ _ | .hole _ | .none => true
        | _ => false
      if rq.colour && ! m1.tagonly && decide (colour ≠ 0) && ! ctlLoc
          && (wordsTouched pa n).any (fun w => decide ((m1.metaAt w).colour.toNat ≠ colour)) then
        .error (.viol .colour 8 rq.acc .cap (BitVec.ofNat 64 va) va)
      else .ok (⟨pa, n, pt, va⟩, m1)

/-- The parts of an access of `n` bytes at `va`: two halves where it crosses a 64-byte line (R84). -/
def halves (va n : Nat) : List (Nat × Nat) :=
  if va / 64 = (va + n - 1) / 64 then [(va, n)]
  else
    let k := 64 - va % 64
    [(va, k), (va + k, n - k)]

/-- Check the halves in order, the lower first (R84 item 3). -/
def Mach.checkHalves (m : Mach) (c colour : Nat) (rq : Req) : List (Nat × Nat) → Except Exc (List Piece × Mach)
  | [] => .ok ([], m)
  | (va, n) :: t =>
    match m.checkHalf c colour rq va n with
    | .error e => .error e
    | .ok (p, m1) =>
      match m1.checkHalves c colour rq t with
      | .error e => .error e
      | .ok (ps, m2) => .ok (p :: ps, m2)

/-- Steps 2 to 10 of R51 for an access at `ea` through `cap`, steps 8 to 10 part by part. Step 1, POISON, belongs to the
instruction. -/
def Mach.checkParts (m : Mach) (c : Nat) (cap : Word) (ea : Int) (rq : Req) (parts : List (Nat × Nat)) :
    Except Exc (List Piece × Grant × Mach) :=
  let w2 := vaWord ea
  let va := va48 ea
  match m.live c cap rq.acc w2 va with
  | .error e => .error e
  | .ok (g, _, m1) =>
    if g.otype ≠ 0 then .error (.viol .capPerm 4 rq.acc .cap w2 va)
    else if ! rq.perms.all g.has then
      .error (.viol (if rq.acc = .fetch then .noexec else .capPerm) 5 rq.acc .cap w2 va)
    else if rq.ctl && ! g.has .CTL then .error (.viol .capPerm 5 rq.acc .ctlPerm w2 va)
    else if ea % (rq.align : Int) ≠ 0 then .error (.plain .atomicAlign 6 w2)
    else if ea < (g.base : Int) ∨ (g.limit : Int) < ea + rq.n ∨ (2 ^ 48 : Int) < ea + rq.n then
      .error (.viol .capBounds 7 rq.acc .cap w2 va)
    else
      match m1.checkHalves c g.colour rq parts with
      | .error e => .error e
      | .ok (ps, m2) => .ok (ps, g, m2)

/-- Steps 2 to 10 of R51 for an access of at most a line. -/
def Mach.check (m : Mach) (c : Nat) (cap : Word) (ea : Int) (rq : Req) : Except Exc (List Piece × Grant × Mach) :=
  m.checkParts c cap ea rq (halves ea.toNat rq.n)

/-! ### Refusal by the target -/

/-- Whether the block of a window answers (R28). -/
def Mach.answers (m : Mach) (st k : Nat) : Bool := m.powered st k && ! m.fusedOff st k

/-- The refusal of an ordinary access by its target, with the window that logs it (R15, R16, R28, R287, R477,
R478). An ordinary access to a doorbell page needs DB (R26). -/
def Mach.refusal (m : Mach) (c : Nat) (g : Grant) (atomic : Bool) (pa : Nat) : Option (Rule × Nat × Nat) :=
  match m.locate pa with
  | .dram | .pinned _ => none
  | .cm k _ => if m.answers (ccStop k) 0 then none else some (.ctlUnpowered, ccStop k, 0xFE)
  | .rp r _ =>
    if ! m.answers (rpStop r) (rpWin r) then some (.ctlUnpowered, rpStop r, 0xFE)
    else if atomic then some (.ctlForm, rpStop r, rpWin r) else none
  | .window st k _ => if m.answers st k then some (.ctlForm, st, k) else some (.ctlUnpowered, st, 0xFE)
  | .bell q _ =>
    let st := leStop (q / 2048)
    if ! m.answers st 0 then some (.ctlUnpowered, st, 0xFE)
    else if ! g.has .DB then some (.ctlPerm, st, 0)
    else if atomic then some (.ctlForm, st, 0) else none
  | .hole st => some (.ctlUnmapped, st, 0xFE)
  | .none => some (.ctlUnmapped, coreStop c, 0xFE)

/-- The first refusal among the parts of a load or atomic, as a precise exception (R24). -/
def Mach.refuseFirst (m : Mach) (c : Nat) (g : Grant) (a : Acc) : List Piece → Option Exc
  | [] => none
  | p :: ps =>
    match m.refusal c g (decide (a = .atomic)) p.pa with
    | some (r, st, k) =>
      some ⟨.capPerm, 0, some a, r, BitVec.ofNat 64 p.va, p.va, some (st, k, p.pa), none, none⟩
    | none => m.refuseFirst c g a ps

/-- Record a refusal at the window that detects it; a carve-out refusal is also counted (R24, R25, R223). -/
def Mach.logSite (m : Mach) (c : Nat) (st k pa : Nat) (a : Acc) (r : Rule) : Mach :=
  let m1 := m.logViol st k ⟨pa, false, coreStop c, coreUnit c, a, r⟩
  if r = .carve then m1.countReg 0 9 0x208 16 16 1 else m1

/-- A store or CTLW refused after it retired: one refusal is held, further ones set MORE (R24, R200). -/
def Mach.holdRefused (m : Mach) (c : Nat) (r : Refused) : Mach :=
  let x := m.core c
  m.setCore c { x with refused := some (match x.refused with
    | none => r
    | some old => { old with more := true }) }

/-! ### The C-core's merging buffer and L1 -/

/-- The state of the pair (R428): 0 SOLO, 1 JOINING, 2 PAIRED, 3 DEGRADED, 4 TAKEOVER, 5 FENCED. -/
def Mach.pairState (m : Mach) : Nat := m.regFld (leStop 0) 1 0x90 0 3

/-- Mirror-window entry `i` (R434). -/
def Mach.mirWin (m : Mach) (i : Nat) : MirWin := Tab.get .off m.mirWins i

/-- The enabled OUT entry whose range holds `a` (R434). -/
def Mach.mirOut (m : Mach) (a : Nat) : Option Nat :=
  (m.mirWins.find? (fun p => p.2.en && p.2.out && decide (p.2.lbase ≤ a) && decide (a < p.2.llimit))).map Prod.fst

/-- Whether `a` lies in an enabled mirror window of either direction (R261). -/
def Mach.inMirror (m : Mach) (a : Nat) : Bool :=
  m.mirWins.any (fun p => p.2.en && decide (p.2.lbase ≤ a) && decide (a < p.2.llimit))

/-- The core that is unit `unit` of stop `st`, if any. -/
def coreOf (st unit : Nat) : Option Nat := coreAt st (unit + 1)

/-- EPN_LINK_STATUS.STATE of link `l` is UP (R423). -/
def Mach.epnUp (m : Mach) (l : Nat) : Bool := decide (m.regFld (leStop l) 1 0x40 0 1 = 1) && decide (m.regFld (leStop l) 1 0x48 0 2 = 2)

/-- A frame goes out on link `l`, or on the other link while `l` is down (R423, R428); with both down, link `l` keeps it. -/
def Mach.epnSend (m : Mach) (l : Nat) : Mach :=
  let i := if ! m.epnUp l && m.epnUp (1 - l % 2) then 1 - l % 2 else l % 2
  let r := m.pair.link i
  { m with pair := m.pair.setLink i { r with txNext := r.txNext + 1, unacked := r.unacked ++ [r.txNext] } }

/-- A write of the bytes `mask` of the word at `a` by unit `unit` of stop `st` was ordered at its home (R262, R434): an
OUT entry that is SYNCING or ACTIVE forwards it in JOINING, PAIRED and DEGRADED; an entry in ERROR drops it, which the
core's MFENCE reports (R436). -/
def Mach.mirrorWrite (m : Mach) (st unit a mask : Nat) : Mach :=
  match m.mirOut a with
  | none => m
  | some i =>
    let w := m.mirWin i
    let p := m.pairState
    if ! (decide (p = 1) || decide (p = 2) || decide (p = 3)) then m
    else if w.st = 4 then
      match coreOf st unit with
      | some c => m.setCore c { m.core c with mirrorLost := true }
      | none => m
    else if w.st = 2 ∨ w.st = 3 then
      let key := st * 64 + unit
      let n := Tab.get 0 m.mirSeqs key
      let f : Fwd := ⟨st, unit, n, i, w.link, w.pbase + (a / 8 * 8 - w.lbase), mask, (m.word (a / 8 * 8)).data⟩
      let m0 : Mach := { m with mirSeqs := Tab.set 0 m.mirSeqs key ((n + 1) % 2 ^ 32), fwds := m.fwds ++ [f] }
      let m1 := m0.epnSend w.link
      let m2 := m1.countUncore (podStop (m1.homeSlice a)) (.plain 0x208) 1
      match coreOf st unit with
      | some c => m2.setCore c { m2.core c with mirrorSent := (m2.core c).mirrorSent + 1 }
      | none => m2
    else m

/-- The byte mask of `n` bytes from `a` within their word. -/
def byteMask (a n : Nat) : Nat := (2 ^ n - 1) * 2 ^ (a % 8)

/-- Core `c`'s write of `n` bytes within one word was ordered at its home. -/
def Mach.coreMirror (m : Mach) (c a n : Nat) : Mach := m.mirrorWrite (coreStop c) (coreUnit c) a (byteMask a n)

/-- The metadata and data of memory after one buffered word drains: a partial-line write (R34, R165). -/
def Mach.drainWord (m : Mach) (line : Nat) (p : Nat × MbWord) : Mach :=
  let a := line * 64 + p.1 * 8
  let old := m.word a
  let d := (List.range 8).foldl
    (fun v i => if p.2.mask.getLsbD i then setFld v (8 * i) 8 (fld p.2.data (8 * i) 8) else v) old.data
  (m.writeN a 8 d.toNat).setMeta a ⟨p.2.tag, p.2.poison || (p.2.orOld && old.poison), old.colour⟩

/-- Invalidate a line in every C-core L1 but that of core `c`; a locked position keeps its tag (R162). -/
def Mach.l1Inval (m : Mach) (c line : Nat) : Mach :=
  { m with cores := Tab.mapV Core.reset (fun i x =>
      if i = c then x
      else { x with l1 := x.l1.map (fun e => if e.line = line then { e with valid := false } else e) }) m.cores }

/-- Before core `c` writes at `a` through a page of type `pt`: a V-core whose L2 is on takes ownership of a cacheable line
outside the mirror windows; any other write is made at the line's home (R252, R261, R266). -/
def Mach.ownFor (m : Mach) (c pt a : Nat) : Mach :=
  if ! m.homed a then m
  else if ! isC c && (decide (pt = 0) || decide (pt = 1)) && bit (m.reg (coreStop c) (coreWin c) 0x100) 0
      && ! m.inMirror a then m.becomeM c (a / 64)
  else m.homeWrite (some c) (a / 64)

/-- Before a write at `a` that is made at the line's home, by an engine or as an atomic. -/
def Mach.ownAtHome (m : Mach) (a : Nat) : Mach := if m.homed a then m.homeWrite none (a / 64) else m

/-- Drain one entry of core `c`'s buffer to its home. -/
def Mach.drainEntry (m : Mach) (c : Nat) (e : MbEntry) : Mach :=
  (e.words.foldl (fun acc p =>
    ((acc.drainWord e.line p).stored (e.line * 64 + p.1 * 8)).mirrorWrite (coreStop c) (coreUnit c) (e.line * 64 + p.1 * 8) p.2.mask.toNat)
      (m.ownFor c 0 (e.line * 64))).l1Inval c e.line

/-- Drain the `k` oldest entries of core `c`'s buffer, oldest first (R165). -/
def Mach.drainOldest (m : Mach) (c : Nat) : Nat → Mach
  | 0 => m
  | k + 1 =>
    match (m.core c).mb with
    | [] => m
    | e :: t =>
      ((m.drainEntry c e).setCore c { (m.drainEntry c e).core c with mb := t }).drainOldest c k

/-- Drain the whole buffer (R165): nothing on a V-core, whose buffer is empty. -/
def Mach.drainAll (m : Mach) (c : Nat) : Mach := m.drainOldest c (m.core c).mb.length

/-- Drain the entry of this line and every older one (R160). -/
def Mach.drainLine (m : Mach) (c line : Nat) : Mach :=
  match (m.core c).mb.reverse.findIdx? (fun e => decide (e.line = line)) with
  | none => m
  | some i => m.drainOldest c ((m.core c).mb.length - i)

/-- Merge bytes into one buffered word, with the metadata rows of R34. -/
def MbWord.merge (w : MbWord) (off n v : Nat) (tag poison : Bool) : MbWord :=
  let mask : BitVec 8 := w.mask ||| BitVec.ofNat 8 ((2 ^ n - 1) * 2 ^ off)
  let data := setFld w.data (8 * off) (8 * n) v
  if n = 8 then ⟨mask, data, tag, poison, false⟩
  else ⟨mask, data, false, w.poison || poison, w.orOld⟩

/-- An empty buffered word: the old POISON of memory joins in until a full word replaces it. -/
def MbWord.empty : MbWord := ⟨0, 0, false, false, true⟩

/-- Merge bytes that lie in one word into an entry. -/
def MbEntry.merge (e : MbEntry) (a n v : Nat) (tag poison : Bool) : MbEntry :=
  let i := a / 8 % 8
  { e with words := Tab.ins e.words i ((Tab.get MbWord.empty e.words i).merge (a % 8) n v tag poison) }

/-- Merge into the youngest entry of the line, if any (R164); a mirror-window store merges only into the youngest entry
of the whole buffer (R261). -/
def mergeYoungest (es : List MbEntry) (a n v : Nat) (tag poison mirror : Bool) : Option (List MbEntry) :=
  match es.reverse with
  | [] => none
  | r =>
    match r.findIdx? (fun e => decide (e.line = a / 64)) with
    | none => none
    | some i => if mirror && decide (i ≠ 0) then none else some ((r.modify i (fun e => e.merge a n v tag poison)).reverse)

/-- A store of bytes that lie in one word enters the merging buffer: it merges or takes a free entry, and entries
drain while the buffer holds HWM entries or more, or at once where IDLE is 0 (R164 to R166). -/
def Mach.mbStore (m : Mach) (c a n v : Nat) (tag poison : Bool) : Mach :=
  let x := m.core c
  let atOnce := decide (m.regFld (coreStop c) (coreWin c) 0x118 8 8 = 0)
  match mergeYoungest x.mb a n v tag poison (m.inMirror a) with
  | some es =>
    let m1 := m.setCore c { x with mb := es }
    if atOnce then m1.drainAll c else m1
  | none =>
    let hwm := m.regFld (coreStop c) (coreWin c) 0x118 0 4
    let e : MbEntry := ⟨a / 64, []⟩
    let m1 := m.setCore c { x with mb := x.mb ++ [e.merge a n v tag poison] }
    if atOnce then m1.drainAll c else m1.drainOldest c ((m1.core c).mb.length + 1 - hwm)

/-- The way that a miss of core `c` fills (R159, R161): the forced way for data, else an invalid way, else the
least recently used way that is not locked. -/
def fillWay (ctrl : W64) (lines : List L1Line) (set : Nat) (fetch : Bool) : Nat :=
  let used := lines.filter (fun e => decide (e.line % 256 = set))
  let locked := fun w => decide (w < 3) && bit ctrl (4 + w)
  if bit ctrl 10 && ! fetch then fld ctrl 8 2
  else
    let ok := (List.range 4).filter (fun w => ! locked w && ! (bit ctrl 10 && fetch && decide (w = fld ctrl 8 2)))
    match ok.find? (fun w => ! used.any (fun e => decide (e.way = w) && e.valid)) with
    | some w => w
    | none =>
      match (used.reverse.find? (fun e => ok.contains e.way)) with
      | some e => e.way
      | none => 3

/-- An access of a C-core to a cacheable line: a hit becomes most recent; a miss waits for the buffered stores of
the line (R160), and fills (R159 to R162). A locked position that was invalidated is refilled in place. With the L1
off (R163) nothing is held. -/
def Mach.l1Access (m : Mach) (c pa : Nat) (fetch : Bool) : Mach :=
  let st := coreStop c
  let k := coreWin c
  let ctrl := m.reg st k 0x100
  let line := pa / 64
  if ! isC c then m
  else if ! bit ctrl 0 then m.drainLine c line
  else
    let x := m.core c
    match x.l1.find? (fun e => decide (e.line = line) && e.valid) with
    | some e => m.setCore c { x with l1 := e :: x.l1.filter (fun f => decide (f ≠ e)) }
    | none =>
      let m1 := (if fetch then m else m.drainLine c line).countCore c (if fetch then 0x008 else 0x007) 1
      let x1 := m1.core c
      match x1.l1.find? (fun e => decide (e.line = line) && decide (e.way < 3) && bit ctrl (4 + e.way)) with
      | some e =>
        let kept := x1.l1.filter (fun f => decide (f ≠ e))
        (m1.setCore c { x1 with l1 := ⟨e.line, e.way, true⟩ :: kept }).countCore c 0x017 1
      | none =>
        let w := fillWay ctrl x1.l1 (line % 256) fetch
        let kept := x1.l1.filter (fun f => ! (decide (f.line % 256 = line % 256) && decide (f.way = w))
          && decide (f.line ≠ line))
        (lineWords pa).foldl (fun acc w => acc.armedWrite st k 3 (w * 8)) (m1.setCore c { x1 with l1 := ⟨line, w, true⟩ :: kept })

/-! ### Data -/

/-- A word as core `c` sees it: its own buffered bytes over memory (R257). -/
def Mach.coreWord (m : Mach) (c a : Nat) : Word :=
  (m.core c).mb.foldl (fun w e =>
    if e.line = a / 64 then
      match e.words.lookup (a / 8 % 8) with
      | none => w
      | some p =>
        ⟨(List.range 8).foldl (fun v i =>
            if p.mask.getLsbD i then setFld v (8 * i) 8 (fld p.data (8 * i) 8) else v) w.data,
          p.tag, p.poison || (p.orOld && w.poison), w.colour⟩
    else w) (m.word a)

/-- `n` bytes at `a` as core `c` sees them, with POISON of every word touched and their common COLOUR (R34). -/
def Mach.coreLoad (m : Mach) (c a n : Nat) : Nat × Bool × BitVec 6 :=
  let w := m.coreWord c (a / 8 * 8)
  let k := 8 - a % 8
  if n ≤ k then (fld w.data (8 * (a % 8)) (8 * n), w.poison, w.colour)
  else
    let z := m.coreWord c ((a / 8 + 1) * 8)
    (fld w.data (8 * (a % 8)) (8 * k) + 2 ^ (8 * k) * fld z.data 0 (8 * (n - k)), w.poison || z.poison,
      if w.colour = z.colour then w.colour else 0)

/-- Whether `pa` lies in core `c`'s own cluster memory (R168). -/
def Mach.ownCm (m : Mach) (c pa : Nat) : Bool :=
  match m.locate pa with
  | .cm k _ => isC c && decide (k = (c - 144) / 8)
  | _ => false

/-- Whether a store of core `c` to this page type and address enters the merging buffer (R164): cacheable memory
and buffered device memory, but not the own cluster memory. -/
def Mach.buffered (m : Mach) (c pa pt : Nat) : Bool :=
  isC c && ! m.ownCm c pa && m.isMem pa && (decide (pt = 0) || decide (pt = 1) || decide (pt = 3))

/-- Before an uncached access, the core's buffered stores to the same stop drain, as DEVICE and DEVICE_BUF accesses
to one stop stay in program order (R258). Every entry drains (log entry 7). -/
def Mach.orderDevice (m : Mach) (c pt : Nat) : Mach :=
  if isC c ∧ (pt = 2 ∨ pt = 3) then m.drainAll c else m

/-- An access through the mesh port of a cluster's memory counts there (R508). -/
def Mach.countMesh (m : Mach) (pa stop unit : Nat) (wd : World) : Mach :=
  match m.locate pa with
  | .cm k _ => m.countUncore (ccStop k) ⟨0x240, wd, none, some (stop, unit), some pa⟩ 1
  | _ => m

/-- Core `c`'s access to a cluster's memory that is not its own (R168, R508). -/
def Mach.coreMesh (m : Mach) (c pa : Nat) : Mach := m.countMesh pa (coreStop c) (coreUnit c) (m.core c).world

/-- The cache side of a load by core `c` (R157 to R163). -/
def Mach.loadSide (m : Mach) (c : Nat) (p : Piece) : Mach :=
  if m.ownCm c p.pa then m
  else if p.pt = 2 ∨ p.pt = 3 then (m.orderDevice c p.pt).coreMesh c p.pa
  else m.l1Access c p.pa false

/-- Write the bytes of one word as core `c`'s store (R34, R164, R168). -/
def Mach.storeWord (m : Mach) (c : Nat) (pt a n v : Nat) (tag poison : Bool) : Mach :=
  if m.buffered c a pt then m.mbStore c a n v tag poison
  else
    let m1 := (if m.ownCm c a then m else (m.orderDevice c pt).coreMesh c a).ownFor c pt a
    let m2 := if n = 8 then m1.putWord a (BitVec.ofNat 64 v) tag poison else m1.storePart a n v poison
    ((m2.stored a).coreMirror c a n).l1Inval c (a / 64)

/-- Whether a store of core `c` to a checked part must wait: it lies in a mirror window and 64 forwarded writes of the
core await acknowledgement (R436). -/
def Mach.mirrorFull (m : Mach) (c : Nat) (ps : List Piece) : Bool :=
  decide (64 ≤ (m.core c).mirrorSent) && ps.any (fun p => (m.mirOut p.pa).isSome)

/-- Write the bytes of one checked part, which may span two words. A part on a root-port range or a doorbell page
changes nothing in the device (R477; log entry 8). -/
def Mach.storePiece (m : Mach) (c : Nat) (p : Piece) (v : Nat) (poison : Bool) : Mach :=
  if ! m.isMem p.pa then m
  else
    let k := 8 - p.pa % 8
    if p.n ≤ k then m.storeWord c p.pt p.pa p.n v false poison
    else (m.storeWord c p.pt p.pa k v false poison).storeWord c p.pt (p.pa + k) (p.n - k) (v / 256 ^ k) false
      poison

end Sys2Proof.Machine
end

