-- ==== Sys2Proof/Machine/Ecc.lean ====
section
/-!
DEFINITION. Stored-data protection (R309 to R321, R326): what a read finds of a stored word whose bits were changed,
the counters and logs, demand scrubbing, and poison.
-/

namespace Sys2Proof.Machine

/-- What a code finds (R310): nothing, a correctable error with its location, an uncorrectable error, or an error
beyond what the code is sure to detect. -/
inductive Found where
  | clean | ce (loc : Nat) | ue | beyond
  deriving DecidableEq, Repr

/-- The set bits of a bit vector, ascending. -/
def setBits {n : Nat} (v : BitVec n) : List Nat := (List.range n).filter (fun i => v.getLsbD i)

/-- SEC-DED over a 72-bit word (R310): the codeword bits are payload, metadata, then 8 check bits. -/
def secDed (u : Upset) : Found :=
  let flips := setBits u.dx ++ (setBits (BitVec.ofNat 8 u.mx)).map (· + 64)
    ++ (setBits (u.cx.truncate 8)).map (· + 72)
  match flips with
  | [] => .clean
  | [i] => .ce i
  | [_, _] => .ue
  | _ => .beyond

/-- Even parity per 32-bit unit (R310): the parity bit of CMASK[0] belongs to the word's low unit. -/
def parity32 (u : Upset) : Found :=
  let lo := (setBits (u.dx.truncate 32)).length + (if u.cx.getLsbD 0 then 1 else 0)
  let hi := (setBits ((u.dx >>> 32).truncate 32)).length
  if lo % 2 = 1 ∨ hi % 2 = 1 then .ue else if lo + hi = 0 then .clean else .beyond

/-- The symbol code (R310, R311): `x8` modules, or x4. A location is a device. Check bit `b` of 128 travels in beat
`b / 8` on check line `b % 8` (log entry 12). -/
def symbolCode (x8 : Bool) (u : Upset) : Found :=
  let w := if x8 then 8 else 4
  let lines := (setBits u.dx).map (· % 32) ++ (setBits u.cx).map (fun b => 32 + b % 8)
  let devs := (lines.map (· / w)).eraseDups
  match devs with
  | [] => .clean
  | [d] => if x8 then (if lines.eraseDups.length ≤ 4 then .ce d else .ue) else .ce d
  | [_, _] => if x8 then .beyond else .ue
  | _ => .beyond

/-- The channel address that an upset of DRAM lies at: its line, or for DMETA the store line (R292). -/
def Mach.upsetCa (m : Mach) (u : Upset) : Nat × Nat :=
  let (c, ca) := m.channelOf u.pa
  (c, if u.cls = 9 then (((m.storeCa c ca)[0]?).getD 0) / 64 * 64 else ca / 64 * 64)

/-- Whether a controller's spare holds the line at a channel address (R323). -/
def Mach.spared (m : Mach) (c ca : Nat) : Bool :=
  m.remaps.any (fun p => decide (p.1 / 16 = chanStop c * 256) && bit p.2 63 && decide (fld p.2 39 1 = c % 2)
    && decide (fld p.2 6 33 = ca / 64 % 2 ^ 33))

/-- What the code of the upset's class finds (R310); a spare of a controller has SEC-DED (R323). -/
def Mach.found (m : Mach) (u : Upset) : Found :=
  if u.cls = 0 then parity32 u
  else if (u.cls = 8 ∨ u.cls = 9) ∧ m.spared (m.upsetCa u).1 (m.upsetCa u).2 then secDed u
  else if u.cls = 8 ∨ u.cls = 9 then
    let ch := (m.channelOf u.pa).1
    symbolCode (bit (m.reg (chanStop ch) (1 + ch % 2) 0x40) 5) u
  else secDed u

/-- Entries of the log of a window (R319). -/
def logEntries (st k : Nat) : Nat :=
  match winBlk st k with
  | some (.mc, _) => 32 | some (.l3h, _) => 8 | _ => 1

/-- The log of a window. -/
def Mach.protLog (m : Mach) (st k : Nat) : List LogEnt := Tab.get [] m.protLogs (st * 256 + k)

/-- Write the log of a window. -/
def Mach.setProtLog (m : Mach) (st k : Nat) (l : List LogEnt) : Mach :=
  { m with protLogs := Tab.set [] m.protLogs (st * 256 + k) l }

/-- The correctable, repeat and uncorrectable sources of a stop (R330): CE, DEG and UE; where a stop has none, none. -/
def ceSrc (st : Nat) : Option Nat :=
  match stopKind st with | .pod _ | .cc _ | .mc _ | .le _ | .syt => some 1 | _ => none
/-- The repeat source. -/
def degSrc (st : Nat) : Option Nat :=
  match stopKind st with | .pod _ | .cc _ | .mc _ | .le _ => some 2 | _ => none
/-- The uncorrectable source. -/
def ueSrc (st : Nat) : Option Nat :=
  match stopKind st with | .pod _ | .cc _ | .mc _ | .le _ => some 3 | .syt => some 2 | _ => none

/-- Raise an optional source with an address; a carve-out address is replaced by its BASE (R226). -/
def Mach.raiseOpt (m : Mach) (st : Nat) (src : Option Nat) (pa : Nat) : Mach :=
  match src with
  | some o => m.raiseOwn st o (some ((m.carveOf pa).getD pa))
  | none => m

/-- The physical address at a channel address of an interleaved channel: the channel hash of R289, inverted. -/
def Mach.paOfCa (m : Mach) (c ca : Nat) : Nat :=
  let n := m.dram.chans.length
  let o := ca - Tab.get 0 m.dram.pins c
  let us := (List.range n).map (fun i => o / 256 * n + i)
  ((us.find? (fun u => decide ((m.channelOf (u * 256)).1 = c))).getD (o / 256 * n)) * 256 + o % 256

/-- The data lines, by physical address, whose metadata lies in the store line of the metadata of `pa` (R41, R292): 8 lines of
its channel, or 64 in TAGONLY. -/
def Mach.storeLines (m : Mach) (pa : Nat) : List Nat :=
  let ca := m.channelOf pa
  let pin := Tab.get 0 m.dram.pins ca.1
  let span := if m.tagonly then 4096 else 512
  (List.range (span / 64)).map (fun i => m.paOfCa ca.1 (pin + (ca.2 - pin) / span * span + 64 * i))

/-- The address under which an error of class `cls` at `pa` is logged (R320): its line or its word; for DMETA the first data line
that the store line covers. -/
def Mach.logAddr (m : Mach) (cls pa : Nat) : Nat :=
  if cls = 9 then ((m.storeLines pa).head?).getD (pa / 64 * 64)
  else if cls = 5 ∨ cls = 8 then pa / 64 * 64 else pa / 8 * 8

/-- Log a correction (R319, R320): an entry of the address counts up; else an invalid entry, else the oldest entry
whose COUNT is 1; else OVF. Reaching REPEAT raises the repeat source once per entry. -/
def Mach.logCorrection (m : Mach) (st k cls pa loc : Nat) (subch ch : Bool) : Mach :=
  let addr := (m.carveOf pa).getD (m.logAddr cls pa)
  let now := m.dt / 1000000000 % 2 ^ 32
  let log := m.protLog st k
  let rep := m.regFld st k 0x310 8 8
  let deg := fun (n : Nat) (m : Mach) => if rep ≠ 0 ∧ n = rep then m.raiseOpt st (degSrc st) pa else m
  let seq := log.foldl (fun n e => max n (e.seq + 1)) 0
  let e : LogEnt := ⟨addr, cls, 1, loc, subch, ch, now, seq⟩
  match log.findIdx? (fun e => decide (e.addr = addr) && decide (e.cls = cls) && decide (e.count ≠ 0)) with
  | some i =>
    let n := min ((log[i]?.map LogEnt.count).getD 0 + 1) 0xFFFF
    deg n (m.setProtLog st k (log.modify i (fun e => ⟨e.addr, e.cls, n, loc, subch, ch, now, e.seq⟩)))
  | none =>
    match log.findIdx? (fun x => decide (x.count = 0)) with
    | some i => deg 1 (m.setProtLog st k (log.set i e))
    | none =>
      if log.length < logEntries st k then deg 1 (m.setProtLog st k (log ++ [e]))
      else
        let ones := log.filter (fun x => decide (x.count = 1))
        let oldest := ones.foldl (fun n x => min n x.seq) seq
        match log.findIdx? (fun x => decide (x.count = 1) && decide (x.seq = oldest)) with
        | some i => deg 1 (m.setProtLog st k (log.set i e))
        | none => m.countReg st k 0x310 16 16 1

/-- CORRECTABLE_ERROR (R319): counted, raised at S0 and logged. -/
def Mach.correctable (m : Mach) (u : Upset) (loc : Nat) : Mach :=
  let ca := m.channelOf u.pa
  let dram := decide (u.cls = 8) || decide (u.cls = 9)
  let m1 := (m.countReg u.st u.k 0x308 0 32 1).raiseOpt u.st (ceSrc u.st) u.pa
  m1.logCorrection u.st u.k u.cls u.pa loc (dram && (ca.2 / 64 % 2 = 1)) (dram && (ca.1 % 2 = 1))

/-- Write a word POISON = 1 and TAG = 0 (R313); where POISON is kept by line, the whole line (R39). Memory that has no
metadata store keeps it as the stomp pattern of R314, in the same place. -/
def Mach.poisonWord (m : Mach) (a : Nat) : Mach :=
  if m.byLine a then
    { m with mmeta := (lineWords a).foldl (fun t w => Tab.set .zero t w ⟨false, true, 0⟩) m.mmeta }
  else { m with mmeta := Tab.set .zero m.mmeta (a / 8) ⟨false, true, (m.metaAt a).colour⟩ }

/-- Poison the 8 words of a line. -/
def Mach.poisonLine (m : Mach) (pa : Nat) : Mach :=
  (List.range 8).foldl (fun acc i => acc.poisonWord (pa / 64 * 64 + 8 * i)) m

/-- DRAM's copy of a line is poisoned (R313): the latest contents, unless a cache holds the line newer. -/
def Mach.poisonDram (m : Mach) (pa : Nat) : Mach :=
  match m.stale.lookup (pa / 64) with
  | some ws => { m with stale := Tab.ins m.stale (pa / 64) (ws.map (fun w => { w with tag := false, poison := true })) }
  | none => m.poisonLine pa

/-- DRAM's copy of the metadata of a line is lost (R41): TAG 0, POISON 1, COLOUR 0; a copy that a cache holds newer keeps its own. -/
def Mach.loseStored (m : Mach) (pa : Nat) : Mach :=
  match m.stale.lookup (pa / 64) with
  | some ws => { m with stale := Tab.ins m.stale (pa / 64) (ws.map (fun w => { w with tag := false, poison := true, colour := 0 })) }
  | none => { m with mmeta := (lineWords pa).foldl (fun t w => Tab.set .zero t w ⟨false, true, 0⟩) m.mmeta }

/-- The words whose metadata one store line holds lose it (R41). -/
def Mach.loseMeta (m : Mach) (pa : Nat) : Mach := (m.storeLines pa).foldl (fun acc a => acc.loseStored a) m

/-- Whether V-core `c` holds a line. -/
def Mach.coreHolds (m : Mach) (c line : Nat) : Bool := decide (Tab.get .I (m.core c).lines line ≠ .I)

/-- Whether an L3 position holds a line. -/
def L3Line.has (e : L3Line) (line : Nat) : Bool := decide (e.line = line) && e.valid

/-- Whether an L3 slice holds a line. -/
def Mach.l3Has (m : Mach) (line : Nat) : Bool := m.l3.any (fun p => p.2.any (fun e => e.has line))

/-- Whether the line of an upset is held dirty in its array (R312): a V-core line in state M, an L3 line with DIRTY = 1. -/
def Mach.upsetDirty (m : Mach) (u : Upset) : Bool :=
  match coreAt u.st u.k with
  | some c => decide (Tab.get .I (m.core c).lines (u.pa / 64) = .M)
  | none => m.l3.any (fun p => p.2.any (fun e => e.has (u.pa / 64) && e.dirty))

/-- Whether an uncorrectable error of an upset is recovered from the next level (R312): an L1I error, or a clean line of another
cache. -/
def recovers (u : Upset) (dirty : Bool) : Bool :=
  decide (u.cls = 0) || (! dirty && (decide (u.cls = 1) || decide (u.cls = 2) || decide (u.cls = 3) || decide (u.cls = 5)))

/-- Whether an upset is an uncorrectable error that makes poison (R313). -/
def Mach.poisons (m : Mach) (u : Upset) : Bool := decide (m.found u = .ue) && ! recovers u (m.upsetDirty u)

/-- UNCORRECTABLE_ERROR (R312, R313): an L1I error and a clean line of another cache are recovered, an L3 slice dropping the line;
else the origin poisons the words of R313 and raises its source once. `dirty` says whether the array holds the only copy. -/
def Mach.uncorrectable (m : Mach) (u : Upset) (dirty : Bool) : Mach :=
  if recovers u dirty then
    let m1 := m.countReg u.st u.k 0x308 48 16 1
    if u.cls = 5 then { m1 with l3 := Tab.mapV [] (fun _ es => es.filter (fun e => ! e.has (u.pa / 64))) m1.l3 } else m1
  else
    let m1 := (m.countReg u.st u.k 0x308 32 16 1).raiseOpt u.st (ueSrc u.st) (if u.cls = 9 then m.logAddr 9 u.pa else u.pa)
    if u.cls = 7 then { m1 with sramPoison := (u.st, u.pa) :: m1.sramPoison }
    else if u.cls = 9 then m1.loseMeta u.pa
    else if u.cls = 8 then m1.poisonDram u.pa
    else m1.poisonWord u.pa

/-- A read meets one upset: it is corrected and scrubbed (R312, R321), recovered, or poisoned (R313). An error beyond
the code is detected or goes through as stored, which a free value decides (R310; log entry 12). -/
def Mach.meetUpset (m : Mach) (u : Upset) : Mach :=
  let m0 := { m with upsets := m.upsets.filter (fun x => decide (x ≠ u)) }
  match m.found u with
  | .clean => m0
  | .ce loc => m0.correctable u loc
  | .ue => m0.uncorrectable u (m.upsetDirty u)
  | .beyond =>
    if bit m.fresh 0 then m0.drawn.uncorrectable u (m.upsetDirty u)
    else if u.cls = 7 then m0.drawn
    else m0.drawn.writeN u.pa 8 (((m.word u.pa).data ^^^ u.dx).toNat)

/-- Whether an upset lies among the words `as`, or, in a metadata-store line, among those whose metadata the line holds (R41). -/
def Mach.upsetIn (m : Mach) (u : Upset) (as : List Nat) : Bool :=
  as.contains u.pa || (decide (u.cls = 9) && (m.storeLines u.pa).any (fun l => as.any (fun a => decide (a / 64 = l / 64))))

/-- The upsets that a read of `n` bytes at `pa` by core `c` (or by a block, none) meets, from the level that serves it: the core's own
caches; else those of an M owner; else the L3; else DRAM and its metadata. A clean copy that fails passes the access on (R312). -/
def Mach.upsetsAt (m : Mach) (c : Option Nat) (fetch : Bool) (pa n : Nat) : List Upset :=
  let as := wordsTouched pa n
  let here := m.upsets.filter (fun u => m.upsetIn u as)
  let fails := fun (u : Upset) => decide (m.found u = .ue) && recovers u (m.upsetDirty u)
  let owner := fun (line : Nat) => (m.cores.find? (fun p => decide (Tab.get .I p.2.lines line = .M))).map Prod.fst
  let own := fun (line : Nat) => match c with
    | some i => ! isC i && m.coreHolds i line
        && ! here.any (fun u => decide (coreAt u.st u.k = some i) && decide (u.cls = 2) && decide (u.pa / 64 = line) && fails u)
    | none => false
  let inL3 := fun (line : Nat) => m.l3Has line && ! here.any (fun u => decide (u.cls = 5) && decide (u.pa / 64 = line) && fails u)
  here.filter (fun u =>
    let line := u.pa / 64
    match coreAt u.st u.k with
    | some i =>
      if c = some i then
        (if isC i then (fetch || decide (u.cls ≠ 0))
         else if u.cls = 0 then fetch else m.coreHolds i line && (! fetch || decide (u.cls = 2)))
      else ! own line && decide (owner line = some i) && decide (u.cls ≠ 0)
    | none =>
      if u.cls = 4 then true
      else if u.cls = 5 then ! own line && (owner line).isNone && m.l3Has line
      else if u.cls = 8 ∨ u.cls = 9 then ! own line && (owner line).isNone && ! inL3 line
      else false)

/-- A read finds and treats the upsets in its words. -/
def Mach.readUpsets (m : Mach) (c : Option Nat) (fetch : Bool) (pa n : Nat) : Mach :=
  (m.upsetsAt c fetch pa n).foldl (fun acc u => acc.meetUpset u) m

/-- Whether a fetch meets an uncorrectable error in the next level (R315 FETCH_UE). -/
def Mach.fetchUe (m : Mach) (c pa : Nat) : Bool :=
  (m.upsetsAt (some c) true pa 4).any (fun u => m.poisons u)

end Sys2Proof.Machine
end

