-- ==== Sys2Proof/Machine/CoreOps.lean ====
section
/-!
DEFINITION. What every instruction shares: registers with the hard-wired g0 (R71), taking an exception (R189 to
R191) and what is due at a boundary (R194), the fetch checks (R73, R194), hardware loops (R175, R176), serialising
points (R97, R140), and the frame in which an instruction runs and retires.
-/

namespace Sys2Proof.Machine

/-! ### General registers -/

/-- Register `r` of core `c`: g0 reads payload 0 and metadata 0 (R71). -/
def Mach.g (m : Mach) (c r : Nat) : Word := if r % 64 = 0 then .zero else Tab.get .zero (m.core c).g (r % 64)

/-- Write register `r`: writes to g0 are discarded (R71). -/
def Mach.setG (m : Mach) (c r : Nat) (w : Word) : Mach :=
  if r % 64 = 0 then m
  else m.setCore c { m.core c with g := Tab.set .zero (m.core c).g (r % 64) w }

/-- The CTX_ registers take the live values (R148). -/
def Core.snap (x : Core) : Core :=
  { x with ctx := ⟨x.pcc, x.savecap, x.evcap, x.link, x.gtab, x.wtab, x.cmpid⟩ }

/-! ### Sweeps at a serialising point -/

/-- Whether a word is a capability that names the swept entry, under the TSEL = 0 condition of R69. -/
def Core.sweptBy (x : Core) (q : SweepReq) (w : Word) : Bool :=
  w.tag && (w.tsel == q.tsel) && decide (w.index = q.index) && (q.tsel || decide (x.gtab = q.gtab))

/-- The word without its tag where it names the swept entry. -/
def Core.sweepWord (x : Core) (q : SweepReq) (w : Word) : Word :=
  if x.sweptBy q w then { w with tag := false } else w

/-- Clear the tags that name one swept entry, and drop its grant-cache entry (R69 item 3, R140). -/
def Core.sweep (x : Core) (q : SweepReq) : Core :=
  { x with
    g := Tab.mapV .zero (fun _ w => x.sweepWord q w) x.g
    pcc := x.sweepWord q x.pcc
    savecap := x.sweepWord q x.savecap
    evcap := x.sweepWord q x.evcap
    link := x.sweepWord q x.link
    lastFrame := x.lastFrame.map (x.sweepWord q)
    gcache := x.gcache.filter (fun l => decide (l.pa ≠ q.pa)) }

/-- The sweeps that wait for the core's next serialising point take effect (R69, R140). -/
def Mach.serialise (m : Mach) (c : Nat) : Mach :=
  let x := m.core c
  if x.sweeps.isEmpty then m
  else m.setCore c { x.sweeps.foldl Core.sweep x with sweeps := [] }

/-! ### Exception entry -/

/-- What an entry records beside the cause (R189, R200). -/
structure EntryRec where
  cause : Cause
  sub : Nat
  acc : Option Acc
  rule : Rule
  w2 : W64
  imprecise : Bool
  phys : Bool
  more : Bool
  elem : Option Nat
  deriving DecidableEq, Repr

/-- The record of a synchronous exception. GATE is no violation, though another block's refusal may have led to it
(R560). -/
def Exc.entryRec (e : Exc) : EntryRec :=
  let quiet := decide (e.rule = .none) || decide (e.cause = .gate)
  ⟨e.cause, e.sub, if quiet then none else e.acc, if quiet then .none else e.rule, e.w2, false, false, false, e.elem⟩

/-- The record of an asynchronous exception without access or rule. -/
def EntryRec.async (k : Cause) (w2 : W64) : EntryRec := ⟨k, 0, none, .none, w2, false, false, false, none⟩

/-- The record of a refused store (R200). -/
def Refused.entryRec (r : Refused) : EntryRec :=
  ⟨r.cause, 0, some r.acc, r.rule, BitVec.ofNat 64 r.addr, true, r.phys, r.more, none⟩

/-- The cause word of R189. -/
def EntryRec.causeWord (e : EntryRec) : W64 :=
  let w := setFld (setFld (setFld 0 0 8 e.cause.code) 8 8 e.sub) 20 4 e.rule.code
  match e.acc with
  | some a => setBit (setFld w 16 4 a.code) 24 true
  | none => w

/-- The status word of R189, with FREASON. -/
def statusWord (x : Core) (onC : Bool) (e : EntryRec) (freason : Nat) : W64 :=
  let w := setBit (setBit (setBit (setBit 0 0 e.imprecise) 1 (onC && x.handLive)) 2 (bit x.evmask 63)) 3 x.na
  let w := setBit (setBit w 5 e.phys) 6 e.more
  let w := match e.elem with
    | some i => setFld (setBit w 4 true) 8 7 i
    | none => w
  setFld (setFld (setFld w 16 2 x.world.code) 24 3 freason) 32 16 x.cmpid

/-- The frame of an entry (R189): word 0 is PCC, stored as held (log entry 9). -/
def entryFrame (x : Core) (onC : Bool) (e : EntryRec) (freason : Nat) : List Word :=
  [{ x.pcc with poison := false, colour := 0 }, .plain e.causeWord, .plain e.w2, .plain (statusWord x onC e freason)]

/-- The CORE_CTX_FATAL source of core `c` (R330). -/
def ctxFatalSrc (c : Nat) : Nat := if isC c then 5 + coreUnit c else 6 + coreUnit c

/-- A page of memory is cleared by the Sytum. -/
def Mach.clearPage (m : Mach) (pa : Nat) : Mach :=
  (List.range 512).foldl (fun acc i =>
    let a := pa + 8 * i
    (((acc.ownAtHome a).putWord a 0 false false).stored a).l1Inval 176 (a / 64)) m

/-- A trigger of a restart of the secure world (R230), with step 1 of R231; one that comes while a restart is under way is counted, and one
while the secure world is down or FAILED starts nothing. -/
def Mach.secTrigger (m : Mach) (reason : Nat) : Mach :=
  let v := m.reg 0 0 0x700
  if m.secTrig.isSome then m.countReg 0 0 0x700 32 16 1
  else if fld v 0 3 ≠ 1 ∧ fld v 0 3 ≠ 2 then m
  else
    let w := setFld (setFld (setFld v 0 3 3) 4 3 reason) 16 16 (min (fld v 16 16 + 1) 0xFFFF)
    (({ m with secTrig := some reason }.setReg 0 0 0x700 w).clearPage (m.regFld 0 9 0x200 12 40 * 4096)).raiseOwn 0 9 none

/-- A context-fatal entry (R191): LAST_FRAME takes the frame with FREASON, the context enters FATAL, and the core's
CORE_CTX_FATAL source is raised. In the SECURE world it is the CRASH trigger of R230. -/
def Mach.fatal (m : Mach) (c : Nat) (e : EntryRec) (reason : Nat) : Mach :=
  let x := m.core c
  let y := { x with lastFrame := entryFrame x (isC c) e reason, st := .fatal, resumable := false }
  let m1 := (m.setCore c y.snap).raiseSrc (coreStop c) (ctxFatalSrc c) none (coreStop c) (coreUnit c) none
  if x.world = .secure then m1.secTrigger 2 else m1

/-- The request of the frame write: as an STC of a tagged word (R190). -/
def frameReq : Req := ⟨.capst, [.W, .SC], ⟨false, true, false⟩, 8, 32, true, false, false⟩

/-- Whether EVCAP can be entered, checked as a JALR target (R87, R190). -/
def Mach.evcapOk (m : Mach) (c : Nat) (e : Word) : Bool :=
  match m.live c e .fetch 0 0 with
  | .error _ => false
  | .ok (g, _, _) => decide (g.otype = 0) && g.has .X && decide (e.cursor % 4 = 0) && decide (g.base ≤ e.cursor)
      && decide (e.cursor + 4 ≤ g.limit)

/-- The conditions of R190 on SAVECAP before the frame is written. -/
def Mach.savecapOk (m : Mach) (c : Nat) (s : Word) : Bool :=
  match m.live c s .capst 0 0 with
  | .error _ => false
  | .ok (g, _, _) => decide (g.otype = 0) && g.has .W && g.has .SC && decide (s.cursor % 32 = 0)
      && decide (s.cursor + 32 ≤ g.limit)

/-- The frame goes to memory as the core's own stores, its words in order (R180, R190). -/
def Mach.storeFrame (m : Mach) (c pt pa : Nat) : List Word → Mach
  | [] => m
  | w :: ws => (m.storeWord c pt pa 8 w.data.toNat w.tag w.poison).storeFrame c pt (pa + 8) ws

/-- Exception entry (R190, R191): the frame through SAVECAP, the handler through EVCAP. -/
def Mach.enter (m : Mach) (c : Nat) (e : EntryRec) : Mach :=
  let m := (m.serialise c).countCore c 0x00C 1
  let x := m.core c
  let s := x.savecap
  if x.window then m.fatal c e 4
  else if ! m.savecapOk c s then m.fatal c e 1
  else match m.check c s s.cursor frameReq with
  | .error ex =>
    let m1 := match ex.site with
      | some (st, k, pa) => m.logSite c st k pa .capst ex.rule
      | none => m
    m1.fatal c e 2
  | .ok (ps, g, m1) =>
    match m1.refuseFirst c g .capst ps, ps with
    | some ex, _ =>
      let m2 := match ex.site with
        | some (st, k, pa) => m1.logSite c st k pa .capst ex.rule
        | none => m1
      m2.fatal c e 2
    | none, [] => m1.fatal c e 2
    | none, p :: _ =>
      let m2 := m1.storeFrame c p.pt p.pa (entryFrame x (isC c) e 0)
      let m3 := m2.setCore c { m2.core c with savecap := s.withCursor (s.cursor + 32) }
      let y := m3.core c
      if ! m3.evcapOk c y.evcap then m3.fatal c e 3
      else m3.setCore c { y with
        st := .running
        evmask := setBit y.evmask 63 false
        na := y.na || decide (e.cause = .nmi)
        handLive := y.handLive || isC c
        handBank := if isC c then .clear else y.handBank
        pcc := y.evcap
        window := true }

/-- What an exception leaves beside its frame: a violation is logged at the window that refused the access, or at the
core's own unless the cause is GATE (R24, R25, R560); the record of a refused mirrored write is cleared by MIRROR
(R436); an abandoned long-vector instruction that faults ends its count (R125); an XLATE2 address is captured
(R217). -/
def Mach.logExc (m : Mach) (c : Nat) (e : Exc) : Mach :=
  let x := m.core c
  let m0 := if e.cause = .mirror then m.setCore c { x with mirrorLost := false }
    else if x.vAbandons ≠ 0 ∧ x.vAbPc = x.pcc.cursor then m.setCore c { x with vAbandons := 0 } else m
  let m1 := match e.rule, e.site, e.acc with
    | .none, _, _ => m0
    | r, some (st, k, pa), some a => m0.logSite c st k pa a r
    | r, none, some a =>
      if e.cause = .gate then m0
      else m0.logViol (coreStop c) (coreWin c) ⟨e.vaddr, true, coreStop c, coreUnit c, a, r⟩
    | _, _, none => m0
  match e.ipa with
  | some i => m1.setReg (coreStop c) (coreWin c) 0x1C0 (setBit (setFld 0 12 36 (i / 4096)) 63 true)
  | none => m1

/-- A synchronous exception: logged where it is a violation, then entered (R188, R560). -/
def Mach.trap (m : Mach) (c : Nat) (e : Exc) : Mach := (m.logExc c e).enter c e.entryRec

/-! ### Asynchronous exceptions -/

/-- The asynchronous exceptions of R194. -/
inductive Due where
  | refused | nmi | event
  deriving DecidableEq, Repr

/-- Whether an enabled line or the enabled timer is pending (R204). -/
def Mach.eventDue (m : Mach) (c : Nat) : Bool :=
  let x := m.core c
  bit x.evmask 63 && decide (m.pendSet c &&& x.evmask &&& 0x1FFFF ≠ 0)

/-- The asynchronous exception due at the next boundary, in the order of R194; none inside the entry window
(R191). After four abandonments of one long-vector instruction no event is taken until it retires or faults (R125). An LPUT
whose request has left the core is not abandoned (R401). -/
def Mach.due (m : Mach) (c : Nat) : Option Due :=
  let x := m.core c
  if x.window ∨ x.put.isSome then none
  else if x.refused.isSome then some .refused
  else if ! isC c && x.nmi && ! x.na then some .nmi
  else if m.eventDue c && decide (x.vAbandons < 4) then some .event
  else none

/-- Take the pending refused store (R200). -/
def Mach.takeRefused (m : Mach) (c : Nat) : Mach :=
  match (m.core c).refused with
  | some r => (m.setCore c { m.core c with refused := none }).enter c r.entryRec
  | none => m

/-- Take the NMI (R207, R208). -/
def Mach.takeNmi (m : Mach) (c : Nat) : Mach :=
  (m.setCore c { m.core c with nmi := false }).enter c (.async .nmi 0)

/-- Take the EVENT exception (R187, R204): no pending bit is cleared. -/
def Mach.takeEvent (m : Mach) (c : Nat) : Mach := m.enter c (.async .event (m.pendSet c))

/-- Take what is due. -/
def Mach.takeDue (m : Mach) (c : Nat) : Due → Mach
  | .refused => m.takeRefused c
  | .nmi => m.takeNmi c
  | .event => m.takeEvent c

/-! ### Fetch -/

/-- The request of an instruction fetch (R51, R73). -/
def fetchReq : Req := ⟨.fetch, [.X], ⟨false, false, true⟩, 4, 4, false, false, false⟩

/-- The fetch checks of R194 at PCC, in their order: capability and translation, carve-outs and the target, an
uncorrectable error (R315), and POISON of the fetched word (R88). A failure comes with the machine it is taken in. -/
def Mach.fetch (m : Mach) (c : Nat) : Except (Exc × Mach) Mach :=
  let p := (m.core c).pcc
  match m.check c p p.cursor fetchReq with
  | .error e => .error (e, m)
  | .ok (ps, g, m1) =>
    match m1.refuseFirst c g .fetch ps, ps with
    | some e, _ => .error (e, m1)
    | none, [] => .ok m1
    | none, q :: _ =>
      if m1.fetchUe c q.pa then
        .error (.plain .fetchUe 0 (BitVec.ofNat 64 p.cursor), m1.readUpsets (some c) false q.pa 4)
      else
        let m2 := m1.readUpsets (some c) true q.pa 4
        if (m2.coreWord c (q.pa / 8 * 8)).poison then .error (.plain .poison 0 (BitVec.ofNat 64 p.cursor), m2)
        else .ok (if ! (q.pt = 0 ∨ q.pt = 1) then m2
          else if isC c then m2.l1Access c q.pa true
          else m2.armedWrite (coreStop c) (coreWin c) 0 (q.pa / 8 * 8))

/-! ### Hardware loops -/

/-- The live loop bank (R177). -/
def Core.loops (x : Core) : LoopBank := if x.handLive then x.handBank else x.progBank

/-- Write the live loop bank. -/
def Core.setLoops (x : Core) (b : LoopBank) : Core :=
  if x.handLive then { x with handBank := b } else { x with progBank := b }

/-- LOOP_BACK at one level after the instruction at `p` completed (R175): the level, and the loop start where
control goes back. -/
def LoopLevel.back (l : LoopLevel) (p : Nat) : LoopLevel × Option Nat :=
  if l.active && decide (p = l.stop) then
    let n := l.count - 1
    if n ≠ 0 then ({ l with count := n }, some l.start) else ({ l with count := n, active := false }, none)
  else (l, none)

/-- Level 1 is checked first, then level 0 where level 1 does not loop back (R175). -/
def LoopBank.back (b : LoopBank) (p : Nat) : LoopBank × Option Nat :=
  let (l1, t1) := b.l1.back p
  match t1 with
  | some a => ({ b with l1 := l1 }, some a)
  | none =>
    let (l0, t0) := b.l0.back p
    (⟨l0, l1⟩, t0)

/-- A taken transfer to `t` deactivates a level whose range does not hold `t` (R176). -/
def LoopLevel.leave (l : LoopLevel) (t : Nat) : LoopLevel :=
  if decide (l.start ≤ t) && decide (t ≤ l.stop) then l else { l with active := false }

/-- Both levels (R176). -/
def LoopBank.leave (b : LoopBank) (t : Nat) : LoopBank := ⟨b.l0.leave t, b.l1.leave t⟩

/-! ### Running one instruction -/

/-- How an instruction's own effect ends: the next instruction in sequence, a taken transfer of control (with
`loops` false for an exception return, which leaves loop levels alone, R176), a wait with PCC kept, or a
synchronous exception, which discards the effect. -/
inductive Res where
  | ok (m : Mach)
  | jump (m : Mach) (pcc : Word) (loops : Bool)
  | wait (m : Mach)
  | trap (e : Exc)

/-- Retirement without a taken transfer: PCC advances by 4 or loops back (R73, R175), and the entry window closes
(R191). -/
def Mach.advance (m : Mach) (c : Nat) : Mach :=
  let x := m.core c
  let p := x.pcc.cursor
  if isC c then
    match x.loops.back p with
    | (b, some t) =>
      (m.setCore c { x.setLoops b with pcc := x.pcc.withCursor t, window := false }).countCore c 0x018 1
    | (b, none) => m.setCore c { x.setLoops b with pcc := x.pcc.withCursor (p + 4), window := false }
  else m.setCore c { x with pcc := x.pcc.withCursor (p + 4), window := false }

/-- Retirement of a taken transfer (R85 to R87, R176). -/
def Mach.transfer (m : Mach) (c : Nat) (pcc : Word) (loops : Bool) : Mach :=
  let x := m.core c
  let y := if isC c && loops then x.setLoops (x.loops.leave pcc.cursor) else x
  m.setCore c { y with pcc := pcc, window := false }

/-- A debugger's single step ends (R495): the core that ran its instruction stops again. -/
def Mach.stepDone (m : Mach) (c : Nat) : Mach :=
  let x := m.core c
  if ! x.stepping ∨ x.st = .waiting ∨ x.rpWait.isSome ∨ x.put.isSome then m
  else if x.st = .running then
    let m1 := (m.drainAll c).serialise c
    m1.setCore c ({ m1.core c with st := .stopped, resumable := true, stepping := false }).snap
  else m.setCore c { x with stepping := false }

/-- Finish an instruction that began in machine `m0`, its fetch done. `evs` are the events it counts at retirement
(R498, R508). -/
def Mach.finish (m0 : Mach) (c : Nat) (evs : List Nat) : Res → Mach
  | .ok m => ((m.countEvents c (m0.core c).world (m0.core c).cmpid (0x002 :: evs)).advance c).stepDone c
  | .jump m p l => ((m.countEvents c (m0.core c).world (m0.core c).cmpid (0x002 :: evs)).transfer c p l).stepDone c
  | .wait m => m
  | .trap e => (m0.trap c e).stepDone c

/-- Whether core `c` can run an instruction: the device runs (R341), the core is RUNNING (R143), and waiting neither for a root port (R478)
nor for a ledger engine (R401). -/
def Mach.canRun (m : Mach) (c : Nat) : Bool :=
  decide (m.phase = .run) && decide (c < 176) && decide ((m.core c).st = .running) && (m.core c).rpWait.isNone
    && (m.core c).put.isNone

/-- One instruction of core `c` at an instruction boundary (R194): a due asynchronous exception is taken instead,
then the fetch checks, then the instruction. A core that is not running leaves everything unchanged (log
entry 10). -/
def Mach.instr (m : Mach) (c : Nat) (evs : List Nat) (body : Mach → Res) : Mach :=
  if ! m.canRun c then m
  else match m.due c with
  | some d => (m.takeDue c d).stepDone c
  | none =>
    match m.fetch c with
    | .error (e, m1) => (m1.trap c e).stepDone c
    | .ok m1 => m1.finish c evs (body m1)

/-- An instruction that draws a register and cannot fault: the register `dst` receives `w`. -/
def Mach.result (m : Mach) (c dst : Nat) (w : Word) : Res := .ok (m.setG c dst w)

/-- The ILLEGAL exception (R75). Word 2 holds the instruction word of the fetched address (R187). -/
def Mach.illegal (m : Mach) (c sub : Nat) : Exc :=
  let p := (m.core c).pcc.cursor
  let w := match m.translate c ⟨false, false, false⟩ true p with
    | .ok (pa, _, _) => m.readN pa 4
    | .error _ => 0
  .plain .illegal sub (BitVec.ofNat 64 w)

end Sys2Proof.Machine
end

