-- ==== Sys2Proof/Machine/Flags.lean ====
section
/-!
DEFINITION. The floating-point exception flags (R72, R90): the five sticky flags of FCSR and the rounding mode.
-/

namespace Sys2Proof.Machine

/-- The five exceptions of R90. -/
structure Flags where
  nv : Bool
  dz : Bool
  of_ : Bool
  uf : Bool
  nx : Bool
  deriving DecidableEq, Repr, Inhabited

/-- No exception. -/
def Flags.none : Flags := ⟨false, false, false, false, false⟩
/-- Invalid operation alone. -/
def Flags.invalid : Flags := ⟨true, false, false, false, false⟩
/-- Both sets. -/
def Flags.or (a b : Flags) : Flags := ⟨a.nv || b.nv, a.dz || b.dz, a.of_ || b.of_, a.uf || b.uf, a.nx || b.nx⟩

/-- FCSR.RM (R72): 0 RNE, 1 RTZ, 2 RDN, 3 RUP, 4 RMM. -/
def fcsrRm (f : W64) : Nat := fld f 0 3

/-- The flags as FCSR bits [7:3] (R72). -/
def Flags.bits (x : Flags) : W64 :=
  setBit (setBit (setBit (setBit (setBit 0 3 x.nv) 4 x.dz) 5 x.of_) 6 x.uf) 7 x.nx

/-- Accrue flags into FCSR: they are sticky (R72). -/
def accrue (f : W64) (x : Flags) : W64 := f ||| x.bits

/-- A WRSR of FCSR: RM takes 0 to 4 and keeps its value on 5 to 7; reserved bits stay 0 (R72). -/
def writeFcsr (old v : W64) : W64 :=
  let w := setFld 0 0 8 (fld v 0 8)
  if fld v 0 3 ≤ 4 then w else setFld w 0 3 (fcsrRm old)

/-- Accrue flags at core `c`. -/
def Mach.accrue (m : Mach) (c : Nat) (x : Flags) : Mach :=
  m.setCore c { m.core c with fcsr := Machine.accrue (m.core c).fcsr x }

end Sys2Proof.Machine
end

