-- ==== Sys2Proof/Machine/Gate.lean ====
section
/-!
DEFINITION. Grants in motion: revocation and its shootdown (R64, R65), worlds and their regimes (R211, R213), gates
and their link frames (R59 to R62, R227), the return from an exception (R192), predictor domains (R130).
-/

namespace Sys2Proof.Machine

/-- A core's serialising point (R97): its buffered stores drain (R165) and the sweeps that wait take effect (R69). -/
def Mach.serialPoint (m : Mach) (c : Nat) : Mach := (m.drainAll c).serialise c

/-! ### Grant entries -/

/-- A grant shootdown reaches every core's grant cache (R65); one of the entry that authorised a debug session closes it (R495). -/
def Mach.shootdown (m : Mach) (pa : Nat) : Mach :=
  { m with
    dbg := match m.dbg with
      | some d => if d.pa = pa then none else some d
      | none => none
    cores := Tab.mapV Core.reset (fun _ x =>
      { x with gcache := x.gcache.filter (fun l => decide (l.pa ≠ pa)) }) m.cores }

/-- Write a grant entry at the home of its line, for unit `unit` of stop `st`: no C-core keeps an old copy of the line,
and a mirror window forwards its words. -/
def Mach.writeGrant (m : Mach) (st unit pa : Nat) (g : Grant) : Mach :=
  ((((((m.ownAtHome pa).putGrant pa g).mirrorWrite st unit pa 0xFF).mirrorWrite st unit (pa + 8) 0xFF).mirrorWrite st unit (pa + 16)
    0xFF).mirrorWrite st unit (pa + 24) 0xFF).l1Inval 176 (pa / 64)

/-- The grant entry that memory holds at `pa`; one with a poisoned word is not valid (R315). -/
def Mach.readGrant (m : Mach) (pa : Nat) : Grant :=
  let g := Grant.ofLine (m.grantLine pa)
  if (m.words pa 4).any (fun w => w.poison) then { g with valid := false } else g

/-- Whether two entries agree in every field but OTYPE (R56, R57). -/
def Grant.twin (a b : Grant) : Bool :=
  decide (a.base = b.base) && decide (a.limit = b.limit) && decide (a.perms = b.perms) && decide (a.colour = b.colour)
    && decide (a.gen = b.gen) && decide (a.owner = b.owner)

/-- The entry after a revocation (R64 item 4); `wraps` is the record pair's generation, which never exhausts
(R400). -/
def Grant.revoked (g : Grant) (wraps : Bool) : Grant :=
  if g.gen < 15 then { g with valid := false, gen := g.gen + 1 }
  else if wraps then { g with valid := false, gen := 0 }
  else { g with valid := false, exh := true }

/-- The other half of a sealed pair, where the entry at `pa` is one (R56, R64 item 4). -/
def Mach.pairOther (m : Mach) (pa : Nat) (g : Grant) : Option Nat :=
  let o := if pa / 32 % 2 = 0 then pa + 32 else pa - 32
  let e := m.readGrant o
  let sealedOdd := if pa / 32 % 2 = 0 then decide (g.otype = 0) && decide (e.otype ≠ 0)
    else decide (g.otype ≠ 0) && decide (e.otype = 0)
  if e.valid && sealedOdd && g.twin e then some o else none

/-- Revoke the entry at `pa`, with its other half, and shoot both down (R64 items 4 and 5). -/
def Mach.revoke (m : Mach) (st unit pa : Nat) (wraps : Bool) : Mach :=
  let g := m.readGrant pa
  match m.pairOther pa g with
  | none => (m.writeGrant st unit pa (g.revoked wraps)).shootdown pa
  | some o =>
    let e := m.readGrant o
    (((m.writeGrant st unit pa (g.revoked wraps)).writeGrant st unit o (e.revoked wraps)).shootdown pa).shootdown o

/-! ### Predictor domains -/

/-- Enter the predictor domain of the core's triple (R130): a match becomes current; else an unused domain, or the least
recently entered one is replaced. C-cores have none. -/
def Mach.enterDomain (m : Mach) (c : Nat) : Mach :=
  let x := m.core c
  if isC c then m
  else
    let hit := fun (p : PDom) => (p.world == x.world) && decide (p.vmid = x.vmid) && decide (p.cmpid = x.cmpid)
    match x.domains.find? hit with
    | some p => m.setCore c { x with pdom := p.dom, domains := p :: x.domains.filter (fun q => ! hit q) }
    | none =>
      if x.domains.length < 16 then
        let d := x.domains.length
        m.setCore c { x with pdom := d, domains := ⟨x.world, x.vmid, x.cmpid, d⟩ :: x.domains }
      else
        let d := (x.domains.getLast?.map PDom.dom).getD 0
        (m.setCore c { x with pdom := d, domains := ⟨x.world, x.vmid, x.cmpid, d⟩ :: x.domains.dropLast }).countCore c
          0x014 1

/-! ### Worlds -/

/-- A register of core `c`'s window. -/
def Mach.coreReg (m : Mach) (c off : Nat) : W64 := m.reg (coreStop c) (coreWin c) off

/-- The physical address of the VM table entry of `vmid` for core `c` (R211). -/
def Mach.vmAddr (m : Mach) (c vmid : Nat) : Nat := fld (m.coreReg c 0x190) 16 36 * 65536 + vmid * 64

/-- A usable VM table entry: its words 0 to 2 (R211, R213). A read that meets no memory, or a carve-out that the core's
world may not enter, returns nothing usable (log entry 5). -/
def Mach.vmEntry (m : Mach) (c vmid : Nat) : Option (W64 × W64 × W64) :=
  let a := m.vmAddr c vmid
  let ws := m.words a 8
  let w := fun i => (ws[i]?.getD .zero).data
  let usable := bit (m.coreReg c 0x190) 0 && m.isMem a
    && (decide ((m.core c).world = .secure) || (m.carveOf a).isNone) && ws.all (fun x => ! x.poison)
    && bit (w 0) 63 && decide (fld (w 0) 40 23 = 0) && decide (fld (w 1) 36 4 = 0) && decide (fld (w 1) 56 8 = 0)
    && decide (fld (w 2) 0 16 = 0) && decide (fld (w 2) 48 16 = 0)
    && (List.range 5).all (fun i => decide (w (3 + i) = 0))
  if usable then some (w 0, w 1, w 2) else none

/-- The core with the live regime of a world (R211), or none where the VM table entry is unusable. -/
def Mach.intoWorld (m : Mach) (c : Nat) (x : Core) (wd : World) (vmid : Nat) : Option Core :=
  match wd with
  | .host => some { x with
      world := .host, vmid := vmid, s1 := m.coreReg c 0x180, s2root := 0, wtab := m.coreReg c 0x188 }
  | .secure => some { x with
      world := .secure, vmid := vmid, s1 := m.coreReg c 0x1A0, s2root := 0, wtab := m.coreReg c 0x1A8 }
  | .guest =>
    match m.vmEntry c vmid with
    | some (w0, w1, w2) => some { x with world := .guest, vmid := vmid, s1 := w1, s2root := w0, wtab := w2 }
    | none => none

/-- The exception grant `i` of the core's table as SAVECAP or EVCAP (R50). -/
def Mach.excCap (m : Mach) (c i : Nat) : Word :=
  match m.entry c false i with
  | .ok (g, _, _) => .cap g.base i false g.gen
  | .error _ => .cap 0 i false 0

/-! ### Gates -/

/-- A refused gate or return (R61, R62, R192): what another block refused is logged there, the cause is GATE. -/
def Exc.gate (w2 : W64) : Exc := .plain .gate 0 w2

/-- A failed access within a gate as the GATE fault. -/
def Exc.asGate (e : Exc) (w2 : W64) : Exc := { e with cause := .gate, sub := 0, w2 := w2, elem := none, ipa := none }

/-- The address of a gate descriptor (R61, R227): translated in the caller's regime. A secure gate's lies in the page
of CARVE_GDESC; another's is refused inside a carve-out. -/
def Mach.gateDesc (m : Mach) (c : Nat) (g : Grant) (w2 : W64) : Except Exc (Nat × Mach) :=
  match m.translate c ⟨true, false, false⟩ true g.base with
  | .error _ => .error (.gate w2)
  | .ok (pa, _, m1) =>
    if g.owner = 0xFFFF then
      if pa / 4096 = m1.regFld 0 9 0x200 12 40 then .ok (pa, m1) else .error (.gate w2)
    else match (if (m1.core c).world = .secure then none else m1.carveOf pa) with
      | some b => .error ⟨.gate, 0, some .read, .carve, w2, g.base, some (m1.carveSite pa b), none, none⟩
      | none =>
        match m1.refusal c g false pa with
        | some (r, st, k) => .error ⟨.gate, 0, some .read, r, w2, g.base, some (st, k, pa), none, none⟩
        | none => .ok (pa, m1)

/-- The words of a gate descriptor as the core reads them. -/
def Mach.descWords (m : Mach) (c pa : Nat) : List Word := (List.range 4).map (fun i => m.coreWord c (pa + 8 * i))

/-- A gate descriptor (R59). -/
structure GateDesc where
  pcc : Word
  gtab : W64
  cmpid : Nat
  world : World
  vmid : Nat
  deriving DecidableEq, Repr

/-- Read and check a descriptor's words (R59, R61). -/
def GateDesc.ofWords : List Word → Option GateDesc
  | [w0, w1, w2, w3] =>
    match World.ofCode (fld w3.data 0 2) with
    | none => none
    | some wd =>
      if w0.poison || w1.poison || w2.poison || w3.poison then none
      else if ! w0.tag ∨ w0.cursor % 4 ≠ 0 ∨ fld w1.data 0 48 % 65536 ≠ 0 ∨ fld w2.data 0 16 = 0xFFFF then none
      else some ⟨w0, setFld 0 0 48 (fld w1.data 0 48), fld w2.data 0 16, wd, fld w3.data 8 10⟩
  | _ => none

/-- The request of a link-frame write (R60): a 64-byte tagged store, the ban on GT pages waived. -/
def linkStore : Req := ⟨.capst, [.W, .SC], ⟨false, true, false⟩, 64, 64, true, true, false⟩
/-- The request of a link-frame read (R60). -/
def linkLoad : Req := ⟨.capld, [.R, .LC], ⟨true, false, false⟩, 64, 64, true, false, false⟩
/-- The request of CRETG's exception-frame read (R192): as LDC, aligned to its size by step 6 of R51. -/
def frameLoad : Req := ⟨.capld, [.R, .LC], ⟨true, false, false⟩, 32, 32, true, false, false⟩

/-- The link frame of a gate call (R60). -/
def linkFrame (x : Core) (callee : Nat) : List Word :=
  [x.pcc.withCursor (x.pcc.cursor + 4), .plain x.gtab, .plain x.wtab,
    .plain (setFld (setFld (setFld (setFld 0 0 16 x.cmpid) 16 2 x.world.code) 18 10 x.vmid) 32 16 callee),
    x.savecap, x.evcap, .zero, .zero]

/-- With GATE_FLUSH = 1 every CGATE and CRETG clears a C-core's target buffer (R174). -/
def Mach.gateFlush (m : Mach) (c : Nat) : Mach :=
  if isC c && bit (m.coreReg c 0x110) 1 then m.setCore c { m.core c with btb := [] } else m

/-- After a change of the compartment: SAVECAP and EVCAP from the new tables (R50) where asked, the predictor domain, and
the serialising point. -/
def Mach.gateEnd (m : Mach) (c : Nat) : Mach := ((m.enterDomain c).gateFlush c).serialPoint c

/-- SAVECAP and EVCAP take the exception grants of the core's table (R50). -/
def Mach.setExcCaps (m : Mach) (c : Nat) : Mach :=
  m.setCore c { m.core c with savecap := m.excCap c 0, evcap := m.excCap c 1 }

/-- The refused part of an access as an exception, or the first checked part. -/
def Mach.firstPiece (m : Mach) (c : Nat) (cap : Word) (ea : Int) (rq : Req) : Except Exc (Piece × Mach) :=
  match m.check c cap ea rq with
  | .error e => .error e
  | .ok (ps, g, m1) =>
    match m1.refuseFirst c g rq.acc ps, ps with
    | some e, _ => .error e
    | none, [] => .error (.plain .gate 0 0)
    | none, p :: _ => .ok (p, m1)

/-- CGATE after its descriptor is read (R61): the link frame, then the callee's compartment. -/
def Mach.gateEnter (m : Mach) (c : Nat) (d : GateDesc) (w2 : W64) : Res :=
  let x := m.core c
  match m.firstPiece c x.link x.link.cursor linkStore with
  | .error e => .trap (e.asGate w2)
  | .ok (p, m1) =>
    match (if d.world = x.world then some x else m1.intoWorld c x d.world d.vmid) with
    | none => .trap (.gate w2)
    | some y =>
      let m2 := m1.storeFrame c p.pt p.pa (linkFrame x d.cmpid)
      let y2 := m2.core c
      let m3 := m2.setCore c { y2 with
        world := y.world, vmid := y.vmid, s1 := y.s1, s2root := y.s2root, wtab := y.wtab,
        gtab := d.gtab, cmpid := d.cmpid, link := x.link.withCursor (x.link.cursor + 64) }
      .jump ((m3.setExcCaps c).gateEnd c) d.pcc true

/-- CGATE srcA (R61). A fault is taken in the caller and nothing changes. -/
def cgate (c : Nat) (a : BitVec 6) (m : Mach) : Mach :=
  m.instr c [0x00D] (fun m =>
    let x := m.g c a.toNat
    let w2 := BitVec.ofNat 64 x.cursor
    if x.poison then .trap (.plain .poison 1 0)
    else match m.live c x .noacc 0 x.cursor with
    | .error e => .trap e
    | .ok (g, _, m1) =>
      if g.otype = 0 ∨ ! g.has .GT ∨ x.cursor ≠ g.base ∨ g.base % 32 ≠ 0 ∨ g.limit < g.base + 32 then .trap (.gate w2)
      else match m1.gateDesc c g w2 with
      | .error e => .trap e
      | .ok (pa, m2) =>
        let m3 := m2.readUpsets (some c) false pa 32
        match GateDesc.ofWords (m3.descWords c pa) with
        | none => .trap (.gate w2)
        | some d =>
          if d.world = .secure ∧ g.owner ≠ 0xFFFF then .trap (.gate w2)
          else m3.gateEnter c d w2)

/-- The return from an exception (R192): PCC, SAVECAP, GIE, NA and the loop bank come back from the frame. A handler that a nested
exception interrupted goes on with both its levels inactive (R177). -/
def Mach.excReturn (m : Mach) (c : Nat) : Res :=
  let s := (m.core c).savecap
  let w2 := BitVec.ofNat 64 (s.cursor - 32)
  match m.firstPiece c s ((s.cursor : Int) - 32) frameLoad with
  | .error e => .trap (e.asGate w2)
  | .ok (p, m1) =>
    let m2 := (m1.loadSide c p).readUpsets (some c) false p.pa 32
    let w0 := m2.coreWord c p.pa
    let w3 := m2.coreWord c (p.pa + 24)
    if w0.poison || w3.poison || ! w0.tag || decide (w0.cursor % 4 ≠ 0) then .trap (.gate w2)
    else
      let x := m2.core c
      .jump ((m2.setCore c { x with
        savecap := s.withCursor (s.cursor - 32)
        evmask := setBit x.evmask 63 (bit w3.data 2)
        na := bit w3.data 3
        handLive := isC c && bit w3.data 1
        handBank := if bit w3.data 1 then .clear else x.handBank }).gateEnd c) w0 false

/-- The return from the latest CGATE (R62). On a world change the regime and WTAB come from R211's sources, else WTAB
from the frame (log entry 14). -/
def Mach.gateReturn (m : Mach) (c : Nat) : Res :=
  let x := m.core c
  let ea : Int := (x.link.cursor : Int) - 64
  let w2 := BitVec.ofNat 64 (va48 ea)
  match m.firstPiece c x.link ea linkLoad with
  | .error e => .trap (e.asGate w2)
  | .ok (p, m1) =>
    let m2 := (m1.loadSide c p).readUpsets (some c) false p.pa 64
    let f := fun i => m2.coreWord c (p.pa + 8 * i)
    let w3 := (f 3).data
    if (List.range 6).any (fun i => (f i).poison) then .trap (.gate w2)
    else if fld w3 32 16 ≠ x.cmpid ∨ ! (f 0).tag ∨ (f 0).cursor % 4 ≠ 0 then .trap (.gate w2)
    else match World.ofCode (fld w3 16 2) with
    | none => .trap (.gate w2)
    | some wd =>
      let y0 := { m2.core c with wtab := setFld 0 16 32 (fld (f 2).data 16 32), vmid := fld w3 18 10 }
      match (if wd = x.world ∧ (wd ≠ .guest ∨ fld w3 18 10 = x.vmid) then some y0
          else m2.intoWorld c y0 wd (fld w3 18 10)) with
      | none => .trap (.gate w2)
      | some y =>
        .jump ((m2.setCore c { y with
          gtab := setFld 0 16 32 (fld (f 1).data 16 32), cmpid := fld w3 0 16
          savecap := f 4, evcap := f 5, link := x.link.withCursor (x.link.cursor - 64) }).gateEnd c) (f 0) true

/-- Whether an exception frame lies below SAVECAP's cursor (R192). -/
def Mach.frameOpen (m : Mach) (c : Nat) : Bool :=
  let s := (m.core c).savecap
  match m.live c s .capld 0 0 with
  | .ok (g, _, _) => decide (g.base + 32 ≤ s.cursor)
  | .error _ => false

/-- CRETG (R62, R192). -/
def cretg (c : Nat) (m : Mach) : Mach :=
  m.instr c [0x00D] (fun m => if m.frameOpen c then m.excReturn c else m.gateReturn c)

end Sys2Proof.Machine
end

