-- ==== Sys2Proof/Machine/State.lean ====
section
/-!
DEFINITION. The state: the queue of commands and the machine; the state after reset; the reasons a step may stop.
-/

namespace Sys2Proof.Machine

/-- The state: the commands that wait, first in first out, and the machine. -/
structure State where
  pending : List Instr
  m : Mach
  deriving DecidableEq, Repr

/-- The state right after a power-on reset: no command waits. -/
def State.reset : State := ⟨[], Mach.reset⟩

/-- Reasons for which the machine stops with a fault. -/
inductive Fault where
  /-- No meaning of this model raises it: the spec names no access that stops the device itself. Safe: the model
  only stops where the hardware would go on. -/
  | noSuchAddress
  deriving DecidableEq, Repr

/-- Reasons for which a command has no meaning. -/
inductive Refusal where
  /-- Raised by the dispatch alone, for a command that has no meaning yet. Safe: the model stops where the hardware
  goes on. -/
  | notModelled (mnemonic : String)
  deriving DecidableEq, Repr

/-- What a step answers. -/
abbrev Out := Host.Outcome State Fault Refusal

/-- The machine changes by `f`; the queue stays. -/
def State.upd (s : State) (f : Mach → Mach) : Out := .next { s with m := f s.m }

end Sys2Proof.Machine
end

