-- ==== Sys2Proof/Machine/System.lean ====
section
/-!
DEFINITION. System instructions other than CTLR and CTLW (R72, R95 to R98, R436), event instructions (R205, R206), and
an instruction word that decodes to nothing (R75).
-/

namespace Sys2Proof.Machine

/-- The value that RDSR returns for state register `n` (R72); none for a number not in the table, and for VL and VTYPE on
a C-core. -/
def Mach.stateReg (m : Mach) (c n : Nat) : Option Word :=
  let x := m.core c
  match n with
  | 0 => some x.pcc
  | 1 => some (.plain x.gtab)
  | 2 => some (.plain x.wtab)
  | 3 => some x.savecap
  | 4 => some x.evcap
  | 5 => some x.link
  | 6 => some (.plain (setFld (setFld 0 0 2 x.world.code) 8 10 x.vmid))
  | 7 => some (.plain (setFld 0 0 16 x.cmpid))
  | 8 => if isC c then none else some (.plain (BitVec.ofNat 64 x.vl))
  | 9 => if isC c then none else some (.plain x.vtype)
  | 10 => some (.plain x.evmask)
  | 11 => some (.plain x.timecmp)
  | 12 => some (.plain m.dtNow)
  | 13 => some (.plain x.fcsr)
  | 14 => some (.plain (setFld (setBit (setFld 0 0 8 (if isC c then c - 144 else c)) 8 (isC c)) 16 6 (coreStop c)))
  | _ => none

/-- RDSR (R72, R95). -/
def rdsr (c : Nat) (d n : BitVec 6) (m : Mach) : Mach :=
  m.instr c [] (fun m =>
    match m.stateReg c n.toNat with
    | some w => m.result c d.toNat w
    | none => .trap (m.illegal c 0))

/-- EVMASK as a write leaves it: bits [16:0] and GIE (R204). -/
def writeEvmask (v : W64) : W64 := setBit (setFld 0 0 17 (fld v 0 17)) 63 (bit v 63)

/-- A WRSR to a state register: EVMASK, TIMECMP and FCSR take the payload, every other is left (R44, R72). -/
def Core.writeSr (x : Core) (n : Nat) (v : W64) : Core :=
  match n with
  | 10 => { x with evmask := writeEvmask v }
  | 11 => { x with timecmp := v }
  | 13 => { x with fcsr := writeFcsr x.fcsr v }
  | _ => x

/-- WRSR (R72, R95): a serialising point. -/
def wrsr (c : Nat) (n a : BitVec 6) (m : Mach) : Mach :=
  m.instr c [] (fun m =>
    let x := m.g c a.toNat
    if (m.stateReg c n.toNat).isNone then .trap (m.illegal c 0)
    else if x.poison then .trap (.plain .poison 0 0)
    else
      let m1 := m.serialPoint c
      .ok (m1.setCore c ((m1.core c).writeSr n.toNat x.data)))

/-- FENCE (R96, R165, R260): a mask of 0 or with bit 13 set is ILLEGAL; SS, SL and IO drain the merging buffer. Commands
take effect one after another, so it orders nothing more. -/
def fence (c : Nat) (mask : BitVec 6) (m : Mach) : Mach :=
  m.instr c [] (fun m =>
    if mask = 0 ∨ mask.getLsbD 5 then .trap (m.illegal c 0)
    else if mask.getLsbD 2 || mask.getLsbD 3 || mask.getLsbD 4 then .ok (m.drainAll c) else .ok m)

/-- What MFENCE and LRET wait for (R436): buffered stores drain; a refused or dropped mirrored write faults MIRROR;
unsettled writes wait. -/
def Mach.settle (m : Mach) (c : Nat) : Except Exc (Mach × Bool) :=
  let m1 := m.drainAll c
  if (m1.core c).mirrorLost then .error (.plain .mirror 1 0) else .ok (m1, decide ((m1.core c).mirrorSent = 0))

/-- MFENCE (R436). -/
def mfence (c : Nat) (m : Mach) : Mach :=
  m.instr c [] (fun m =>
    match m.settle c with
    | .error e => .trap e
    | .ok (m1, settled) => if settled then .ok m1 else .wait m1)

/-- ISYNC (R97). -/
def isync (c : Nat) (m : Mach) : Mach := m.instr c [] (fun m => .ok (m.serialPoint c))

/-- HALT (R98, R144): the context enters HALTED at a serialising point, with PCC at the next instruction. -/
def halt (c : Nat) (m : Mach) : Mach :=
  let m1 := m.instr c [] (fun m =>
    let m2 := m.serialPoint c
    .ok (m2.setCore c { m2.core c with st := .halted }))
  if (m.core c).st = .running ∧ (m1.core c).st = .halted then m1.setCore c (m1.core c).snap else m1

/-! ### Events -/

/-- Clear the pending bit of event `n` (R203). -/
def Mach.clearEvent (m : Mach) (n : Nat) : Mach := { m with evPend := m.evPend.filter (fun e => decide (e ≠ n)) }

/-- The event that EWAIT collects under selection `sel`: the lowest selected pending line and its lowest event
(R205). -/
def Mach.collectable (m : Mach) (c : Nat) (sel : W64) : Option (Nat × Nat) :=
  (List.range 16).findSome? (fun j =>
    if bit sel j then (m.lineEvent c j).map (fun n => (n, j)) else none)

/-- What EWAIT returns at once, if anything (R205): an event, the timer, or NONE. -/
def Mach.collect (m : Mach) (c : Nat) (sel : W64) : Option (W64 × Mach) :=
  match m.collectable c sel with
  | some (n, j) => some (setFld (setFld 0 0 10 n) 12 4 j, m.clearEvent n)
  | none =>
    if bit sel 16 && m.timerPending c then
      some (setBit 0 62 true, m.setCore c { m.core c with timecmp := 0 })
    else if fld sel 0 17 = 0 ∨ bit sel 32 then some (setBit 0 63 true, m)
    else none

/-- EWAIT at a boundary (R205): it returns, or waits in WAITING. -/
def ewaitBody (c : Nat) (d a : BitVec 6) (m : Mach) : Res :=
  let x := m.g c a.toNat
  if x.poison then .trap (.plain .poison 0 0)
  else match m.collect c x.data with
  | some (v, m1) => .ok (m1.setG c d.toNat (.plain v))
  | none => .wait (m.setCore c { m.core c with st := .waiting, sel := x.data, wdst := d.toNat })

/-- A waiting core meets what has come (R195, R205): a refused store or an NMI abandons the wait, a selected event or the
timer ends it without an exception, any other enabled event abandons it. -/
def Mach.wake (m : Mach) (c : Nat) : Mach :=
  if (m.core c).st ≠ .waiting ∨ m.phase ≠ .run then m
  else
    let done := match m.collect c (m.core c).sel with
      | some (v, m1) =>
        let m2 := m1.setG c (m.core c).wdst (.plain v)
        some ((m2.setCore c { m2.core c with st := .running }).countCore c 0x002 1 |>.advance c)
      | none => none
    match m.due c, done with
    | some .refused, _ => (m.takeRefused c).stepDone c
    | some .nmi, _ => (m.takeNmi c).stepDone c
    | _, some m3 => m3.stepDone c
    | some .event, none => (m.takeEvent c).stepDone c
    | none, none => m

/-- EWAIT: for a core that already waits, the wait goes on with what has come. -/
def ewait (c : Nat) (d a : BitVec 6) (m : Mach) : Mach :=
  if c < 176 ∧ (m.core c).st = .waiting then m.wake c else m.instr c [] (ewaitBody c d a)

/-- ESIG (R206): its CAP_PERM is no violation. -/
def esig (c : Nat) (a : BitVec 6) (m : Mach) : Mach :=
  m.instr c [] (fun m =>
    let x := m.g c a.toNat
    let n := fld x.data 0 10
    let r := m.route n
    if x.poison then .trap (.plain .poison 0 0)
    else if 255 < n ∨ (! bit r 25 ∧ fld r 32 16 ≠ (m.core c).cmpid) then .trap (.plain .capPerm 0 0)
    else .ok ((m.drainAll c).raiseEvent n))

/-- FENCE (R96, R260). Orders accesses. -/
def execFence (c : Nat) (mask : BitVec 6) (s : State) : Out := s.upd (fence c mask)

/-- MFENCE (R436). Waits until the core's mirrored writes are settled. -/
def execMfence (c : Nat) (s : State) : Out := s.upd (mfence c)

/-- ISYNC (R97). Serialises the context. -/
def execIsync (c : Nat) (s : State) : Out := s.upd (isync c)

/-- HALT (R98). Stops the context. -/
def execHalt (c : Nat) (s : State) : Out := s.upd (halt c)

/-- RDSR (R72). Reads a state register. -/
def execRdsr (c : Nat) (d n : BitVec 6) (s : State) : Out := s.upd (rdsr c d n)

/-- WRSR (R72). Writes a state register. -/
def execWrsr (c : Nat) (n a : BitVec 6) (s : State) : Out := s.upd (wrsr c n a)

/-- EWAIT (R205). Collects one event. -/
def execEwait (c : Nat) (d a : BitVec 6) (s : State) : Out := s.upd (ewait c d a)

/-- ESIG (R206). Raises a SOFT event. -/
def execEsig (c : Nat) (a : BitVec 6) (s : State) : Out := s.upd (esig c a)

/-- ILLEGAL_ENCODING (R75). A word with no meaning traps ILLEGAL; word 2 holds the word. -/
def execIllegalEncoding (c : Nat) (word : BitVec 32) (s : State) : Out :=
  s.upd (fun m => m.instr c [] (fun _ => .trap (.plain .illegal 0 (word.zeroExtend 64))))

end Sys2Proof.Machine
end

