-- ==== Sys2Proof/Machine/Events.lean ====
section
/-!
DEFINITION. Asynchronous exceptions as commands (R194 to R200), the event router's registers (R202, R203), the timer
(R204), and the NMI input (R207, R208, R556).
-/

namespace Sys2Proof.Machine

/-! ### Exceptions that are taken -/

/-- The core abandons the long-vector instruction at PCC before its checks are done (R125). -/
def Mach.abandon (m : Mach) (c : Nat) : Mach :=
  let x := m.core c
  let n := if x.vAbPc = x.pcc.cursor then x.vAbandons + 1 else 1
  if isC c then m else (m.setCore c { x with vAbandons := n, vAbPc := x.pcc.cursor }).countCore c 0x011 1

/-- Take the asynchronous exception `d` where it is the one due (R194); `vec` says that a long-vector instruction is under
way whose checks are not done. A waiting core meets it as R195 and R205 say. -/
def Mach.takeIf (m : Mach) (c : Nat) (d : Due) (vec : Bool) : Mach :=
  if m.due c ≠ some d then m
  else if (m.core c).st = .waiting then m.wake c
  else if m.canRun c then (if vec then m.abandon c else m).takeDue c d
  else m

/-- TAKE_NMI (R144, R207, R208): a HALTED V-core with NA = 0 leaves HALTED by it. -/
def Mach.nmiAt (m : Mach) (c : Nat) (vec : Bool) : Mach :=
  let x := m.core c
  if x.st = .halted ∧ m.phase = .run ∧ x.nmi ∧ ! x.na ∧ ! isC c then m.takeNmi c else m.takeIf c .nmi vec

/-- The fetch of the next instruction fails (R194); a fetch that would pass, or an asynchronous exception that is due
first, leaves everything unchanged. -/
def Mach.fetchFault (m : Mach) (c : Nat) : Mach :=
  if ! m.canRun c ∨ (m.due c).isSome then m
  else match m.fetch c with
    | .error (e, m1) => m1.trap c e
    | .ok _ => m

/-! ### Refused stores -/

/-- Whether a rule is a refusal by a store's target (R26). -/
def targetRule : Rule → Bool
  | .carve | .ctlPerm | .ctlForm | .ctlUnmapped | .ctlUnpowered => true
  | _ => false

/-- A refusal reaches the core (R200); one for a store that a context restart has left behind is discarded (R146), and so
is one that reaches a core that is OFF. -/
def Mach.refusedResponse (m : Mach) (c : Nat) (a : Acc) (r : Rule) (addr : Nat) (phys old : Bool) : Mach :=
  if old ∨ ! targetRule r ∨ 176 ≤ c ∨ (m.core c).st = .off then m
  else m.holdRefused c ⟨.capPerm, r, a, addr, phys, false⟩

/-! ### The event router -/

/-- A route as the router holds it: the reserved bits of SYT_EVR_ROUTE are 0. -/
def routeMask (v : W64) : W64 := v &&& 0x0000FFFF03FFFFFF

/-- A write of SYT_EVR_ROUTE (R202, R203): a target that names no core, and a secure route from any master but the Sytum,
are ignored. -/
def Mach.writeRoute (m : Mach) (mst : Master) (v : W64) : Mach :=
  let n := fld v 0 10
  let noCore := if bit v 24 then decide (31 < fld v 16 8) else decide (143 < fld v 16 8)
  if noCore ∨ (! mst.sytum ∧ (bit v 11 ∨ n = 790)) then m
  else { m with routes := Tab.set 0 m.routes n (routeMask v) }

/-- A write of SYT_EVR_FIRE (R203). -/
def Mach.fireEvent (m : Mach) (mst : Master) (v : W64) : Mach :=
  let n := fld v 0 10
  if (n = 790 ∨ 792 ≤ n) ∧ ! mst.sytum then m else m.raiseEvent n

/-- The core that a route names (R202). -/
def routeCore (r : W64) : Nat := if bit r 24 then 144 + fld r 16 8 else fld r 16 8

/-- A pending event reaches its target core's line and wakes a core that waits (R203, R205). -/
def Mach.deliverEvent (m : Mach) (n : Nat) : Mach :=
  if m.evPend.contains n && bit (m.route n) 10 then m.wake (routeCore (m.route n)) else m

/-- The core's device time reaches TIMECMP (R204). -/
def Mach.timerExpires (m : Mach) (c : Nat) : Mach :=
  if (m.core c).timecmp = 0 then m else ({ m with dt := max m.dt (m.core c).timecmp.toNat }).wake c

/-! ### The NMI input -/

/-- An NMI reaches V-core `c` (R144, R145, R207, R208): a core in STOPPED, STOPPING or FATAL discards and counts it; one
that holds an NMI already merges it. -/
def Mach.deliverNmi (m : Mach) (c : Nat) : Mach :=
  let x := m.core c
  match x.st with
  | .off => m
  | .stopped | .stopping | .fatal => m.setCore c { x with nmiLost := min (x.nmiLost + 1) 0xFFFF }
  | .running | .waiting | .halted =>
    if x.nmi then m.countReg 0 0 0x658 16 16 1 else m.setCore c { x with nmi := true }

/-- Whether SYT_NMI_TARGET selects V-core `c` (R207). -/
def Mach.nmiTarget (m : Mach) (c : Nat) : Bool := bit (m.reg 0 0 (0x640 + 8 * (c / 64))) (c % 64)

/-- An NMI goes to every selected V-core; none in the Caldera state (R207, R341). -/
def Mach.nmiAll (m : Mach) : Mach :=
  if m.phase ≠ .run then m
  else (List.range 144).foldl (fun acc c => if m.nmiTarget c then acc.deliverNmi c else acc) m

/-- NMI_N is asserted (R207): a new NMI needs the input to have gone high. -/
def Mach.nmiAssert (m : Mach) : Mach :=
  if bit (m.reg 0 0 0x658) 32 then m
  else ((m.countReg 0 0 0x658 0 16 1).setRegBit 0 0 0x658 32 true).nmiAll

/-! ### Commands -/

/-- TAKE_EVENT_EXCEPTION (R204). -/
def execTakeEventException (c : Nat) (vec : Bool) (s : State) : Out := s.upd (fun m => m.takeIf c .event vec)

/-- TAKE_NMI (R144). -/
def execTakeNmi (c : Nat) (vec : Bool) (s : State) : Out := s.upd (fun m => m.nmiAt c vec)

/-- TAKE_REFUSED_STORE (R200). -/
def execTakeRefusedStore (c : Nat) (s : State) : Out := s.upd (fun m => m.takeIf c .refused false)

/-- REFUSED_STORE_RESPONSE (R200). -/
def execRefusedStoreResponse (c : Nat) (a : Acc) (r : Rule) (addr : Nat) (phys old : Bool) (s : State) : Out :=
  s.upd (fun m => m.refusedResponse c a r addr phys old)

/-- INSTRUCTION_FETCH_FAULT (R194). -/
def execInstructionFetchFault (c : Nat) (s : State) : Out := s.upd (fun m => m.fetchFault c)

/-- TIMER_EXPIRES (R204). -/
def execTimerExpires (c : Nat) (s : State) : Out := s.upd (fun m => m.timerExpires c)

/-- EVENT_DELIVERY (R203). -/
def execEventDelivery (n : Nat) (s : State) : Out := s.upd (fun m => m.deliverEvent n)

/-- SYT_EVR_ROUTE_WRITE (R202). -/
def execSytEvrRouteWrite (mst : Master) (v : W64) (s : State) : Out := s.upd (fun m => m.writeRoute mst v)

/-- SYT_EVR_FIRE (R203). -/
def execSytEvrFire (mst : Master) (v : W64) (s : State) : Out := s.upd (fun m => m.fireEvent mst v)

/-- NMI_N_ASSERT (R207). -/
def execNmiNAssert (s : State) : Out := s.upd Mach.nmiAssert

/-- NMI_N_RELEASE (R556). -/
def execNmiNRelease (s : State) : Out := s.upd (fun m => m.setRegBit 0 0 0x658 32 false)

end Sys2Proof.Machine
end

