-- ==== Sys2Proof/Machine/LedgerBase.lean ====
section
/-!
DEFINITION. Queues, records and record pairs (R384, R392, R400, R420) as far as cores and block resets act on them: the
fields of a queue descriptor, the engine's addresses (R471), the revocation of a record pair, and the hand-back of records.
-/

namespace Sys2Proof.Machine

/-! ### Queues -/

/-- Queue `q`. -/
def Mach.queue (m : Mach) (q : Nat) : Queue := Tab.get Queue.reset m.queues q
/-- Write it. -/
def Mach.setQueue (m : Mach) (q : Nat) (x : Queue) : Mach := { m with queues := Tab.set Queue.reset m.queues q x }
/-- The stop of the engine of queue `q`. -/
def queueStop (q : Nat) : Nat := leStop (q / 2048)
/-- Engine `e`. -/
def Mach.engine (m : Mach) (e : Nat) : Engine := Tab.get Engine.reset m.engines e
/-- Write it. -/
def Mach.setEngine (m : Mach) (e : Nat) (x : Engine) : Mach := { m with engines := Tab.set Engine.reset m.engines e x }
/-- Queue function `v` of engine `e`. -/
def Mach.vqf (m : Mach) (e v : Nat) : Vqf := Tab.get Vqf.reset m.vqfs (e * 1024 + v)
/-- Write it. -/
def Mach.setVqf (m : Mach) (e v : Nat) (x : Vqf) : Mach := { m with vqfs := Tab.set Vqf.reset m.vqfs (e * 1024 + v) x }

/-- TC (R420). -/
def Queue.tc (x : Queue) : Nat := fld x.w0 0 2
/-- J. -/
def Queue.j (x : Queue) : Bool := bit x.w0 2
/-- M. -/
def Queue.mir (x : Queue) : Bool := bit x.w0 3
/-- GEN: G3. -/
def Queue.g3 (x : Queue) : Bool := bit x.w0 4
/-- TGT: cluster memory. -/
def Queue.cm (x : Queue) : Bool := bit x.w0 5
/-- CLUSTER. -/
def Queue.cluster (x : Queue) : Nat := fld x.w0 6 2
/-- LOG2SLOTS. -/
def Queue.log2 (x : Queue) : Nat := fld x.w0 8 5
/-- SLOTS. -/
def Queue.slots (x : Queue) : Nat := 2 ^ x.log2
/-- VQF. -/
def Queue.vqf (x : Queue) : Nat := fld x.w0 16 10
/-- DELEV. -/
def Queue.delev (x : Queue) : Nat := fld x.w0 26 10
/-- EN. -/
def Queue.en (x : Queue) : Bool := bit x.w0 60
/-- RING_PA. -/
def Queue.ring (x : Queue) : Nat := fld x.w1 0 52
/-- RG_PAGE_PA. -/
def Queue.rgPage (x : Queue) : Nat := fld x.w2 12 40 * 4096
/-- RG_BASE. -/
def Queue.rgBase (x : Queue) : Nat := fld x.w3 0 11
/-- RG_PAIRS. -/
def Queue.rgPairs (x : Queue) : Nat := fld x.w3 16 7
/-- RG_TSEL. -/
def Queue.rgTsel (x : Queue) : Bool := bit x.w3 24
/-- RG_OWNER. -/
def Queue.rgOwner (x : Queue) : Nat := fld x.w3 32 16
/-- BACKLOG_MAX. -/
def Queue.backlog (x : Queue) : Nat := fld x.w3 48 16

/-- The record with number `s`. -/
def Queue.rec? (x : Queue) (s : Nat) : Option LRec := x.recs.find? (fun r => decide (r.seq = s))
/-- Change the record with number `s`. -/
def Queue.modRec (x : Queue) (s : Nat) (f : LRec → LRec) : Queue :=
  { x with recs := x.recs.map (fun r => if r.seq = s then f r else r) }
/-- Change a record of queue `q`. -/
def Mach.modRec (m : Mach) (q s : Nat) (f : LRec → LRec) : Mach := m.setQueue q ((m.queue q).modRec s f)

/-! ### The engine's own addresses -/

/-- An address of queue `q` as its engine reaches it (R471): the address itself, or through stage 2 with write rights, which
sets D. -/
def Mach.enginePa (m : Mach) (q a : Nat) : Option (Nat × Mach) :=
  let v := m.vqf (q / 2048) (m.queue q).vqf
  if ! bit v.cfg 11 then some (a, m)
  else match m.walk2 .guest a 4 (fld v.s2root 12 40 * 4096) with
    | none => none
    | some x =>
      if ! x.w then none
      else some (x.pa, if x.clean then (if m.homed x.desc then m.homeWrite none (x.desc / 64) else m).setByte x.desc
          ((m.byte x.desc) ||| 0x80) else m)

/-- A failed translation halts delivery of the queue (R471): its VQF shows it, and the engine raises DMAHALT. -/
def Mach.haltDelivery (m : Mach) (q a : Nat) : Mach :=
  let e := q / 2048
  let x := m.queue q
  let v := m.vqf e x.vqf
  if x.halted then m
  else ((m.setQueue q { x with halted := true }).setVqf e x.vqf { v with halted := true, hcause := true }).raiseOwn (queueStop q)
    6 (some a)

/-- The physical address of the twin of record pair `i` of queue `q` (R400). -/
def Mach.pairPa (m : Mach) (q i : Nat) : Option (Nat × Mach) :=
  (m.enginePa q (m.queue q).rgPage).map (fun p => (p.1 + ((m.queue q).rgBase + 2 * i) % 128 * 32, p.2))

/-- The engine revokes record pair `i` of queue `q`; its generation wraps (R400). -/
def Mach.revokePair (m : Mach) (q i : Nat) : Mach :=
  match m.pairPa q i with
  | none => m.haltDelivery q (m.queue q).rgPage
  | some (pa, m1) => m1.revoke (queueStop q) 0x3F pa true

/-! ### Hand-back -/

/-- Payload buffers return to the engine's pool. -/
def Mach.freeBufs (m : Mach) (e : Nat) (bs : List Nat) : Mach :=
  if bs.isEmpty then m
  else m.setEngine e { m.engine e with pbufs := (m.engine e).pbufs.filter (fun b => ! bs.contains b) }

/-- A record handed back (R392): DELIVERED with H set and HCOUNT raised; its outputs are discarded. -/
def LRec.back (r : LRec) : LRec :=
  { r with st := .delivered, flags := r.flags ||| 4, hcount := min (r.hcount + 1) 255, outs := [], pair := none, taker := none }

/-- Hand back record `s` of queue `q`; `revoke` is false where another agent has revoked the pair (R400). -/
def Mach.handBack (m : Mach) (q s : Nat) (revoke : Bool) : Mach :=
  match (m.queue q).rec? s with
  | none => m
  | some r =>
    if r.st ≠ .taken then m
    else
      let m1 := match r.pair with
        | some i => if revoke then m.revokePair q i else m
        | none => m
      (m1.freeBufs (q / 2048) (r.outs.filterMap OutRec.buf)).modRec q s LRec.back

/-- Every record that a core of stop `st` has taken is handed back (R392, R410). -/
def Mach.handBackTaker (m : Mach) (st : Nat) : Mach :=
  m.queues.foldl (fun acc p => p.2.recs.foldl (fun acc r =>
    if r.taker.map Prod.fst = some st then acc.handBack p.1 r.seq true else acc) acc) m

end Sys2Proof.Machine
end

