-- ==== Sys2Proof/Machine/CoreRows.lean ====
section
/-!
DEFINITION. Core windows and block headers as commands: the state commands of a core (R143 to R149, R183), context restart
(R146), the CTX_ registers (R147), EXPERT_UNLOCK (R19), VIOL_ADDR (R25), block resets of pods and clusters (R151, R152,
R185), and the C-core's L1, target buffer and merging buffer (R163 to R165, R174).
-/

namespace Sys2Proof.Machine

/-! ### Access to a window -/

/-- The physical address of offset `off` of window `k` of stop `st` (R14, R16). -/
def winPa (st k off : Nat) : Nat := ctlBase + st * 0x1000000 + k * 0x1000 + off

/-- The registers that no GUEST request may write (R452, R486, R490, R518, R541). -/
def guestBarred (st k off : Nat) : Bool :=
  match winBlk st k with
  | some (.vqf, _) | some (.sflt, _) | some (.egs, _) | some (.hio, _) | some (.rp, _) | some (.dmat, _) | some (.xspi, _) => true
  | some (.le, _) => decide (0x40 ≤ off) && decide (off < 0x200)
  | some (.pm, _) => decide (off ≠ 0x50)
  | some (.syt, _) => decide (off = 0x48)
  | _ => false

/-- A write of register `off` of window `k` of stop `st`: a block that is off or fused off refuses it, and the router's window logs it (R28);
the block itself refuses a GUEST's write of a register that is closed to it. -/
def Mach.window (m : Mach) (mst : Master) (st k off : Nat) (f : Mach → Mach) : Mach :=
  if (winBlk st k).isNone then m
  else if ! m.answers st k then m.logViol st 0xFE ⟨winPa st k off, false, mst.stop, mst.unit, .ctlwr, .ctlUnpowered⟩
  else if mst.world = .guest ∧ guestBarred st k off = true then
    m.logViol st k ⟨winPa st k off, false, mst.stop, mst.unit, .ctlwr, .ctlPerm⟩
  else f m

/-- A read of register `off` of a window (R28). -/
def Mach.windowRead (m : Mach) (mst : Master) (st k off : Nat) (f : Mach → Mach) : Mach :=
  if (winBlk st k).isNone then m
  else if m.answers st k then f m
  else m.logViol st 0xFE ⟨winPa st k off, false, mst.stop, mst.unit, .ctlrd, .ctlUnpowered⟩

/-- A write of register `off` of core `c`'s window. -/
def Mach.coreWindow (m : Mach) (mst : Master) (c off : Nat) (f : Mach → Mach) : Mach :=
  if 176 ≤ c then m else m.window mst (coreStop c) (coreWin c) off f

/-! ### State commands -/

/-- A command that is ignored sets CIGN (R144). -/
def Mach.cign (m : Mach) (c : Nat) : Mach := m.setCore c { m.core c with cign := true }

/-- Whether R149 keeps this master from commanding the core: its context is SECURE. -/
def Mach.barred (m : Mach) (mst : Master) (c : Nat) : Bool :=
  decide ((m.core c).world = .secure) && ! mst.sytum

/-- The STOP command (R144, R145); `vec` says that a long-vector instruction is under way whose checks are not done. -/
def Mach.stopCmd (m : Mach) (mst : Master) (c : Nat) (vec : Bool) : Mach :=
  if m.barred mst c then m.cign c
  else match (m.core c).st with
    | .running =>
      let m1 := if vec then m.abandon c else m
      m1.setCore c { m1.core c with st := .stopping }
    | .waiting => m.setCore c { m.core c with st := .stopping }
    | .halted => m.setCore c { m.core c with st := .stopped, resumable := false }
    | _ => m.cign c

/-- A stopping core reaches its serialising point (R144, R145): an exception that is due is entered first, and an entry
that fails leaves the context FATAL. -/
def Mach.stopComplete (m : Mach) (c : Nat) : Mach :=
  if (m.core c).st ≠ .stopping ∨ m.phase ≠ .run ∨ (m.core c).rpWait.isSome ∨ (m.core c).put.isSome then m
  else
    let m1 := match m.due c with
      | some d => m.takeDue c d
      | none => m
    if (m1.core c).st = .fatal then m1
    else
      let m2 := m1.serialPoint c
      m2.setCore c ({ m2.core c with st := .stopped, resumable := true, stepping := false }).snap

/-- Whether the core's POD or CC window is enabled and runs no disable sequence (R144). -/
def Mach.blockRuns (m : Mach) (c : Nat) : Bool :=
  (m.blk (coreStop c) 0).enable && ! (m.blk (coreStop c) 0).disabling

/-- The RESUME command (R144). -/
def Mach.resumeCmd (m : Mach) (mst : Master) (c : Nat) : Mach :=
  let x := m.core c
  if m.barred mst c ∨ ! m.blockRuns c ∨ x.st ≠ .stopped ∨ ! x.resumable then m.cign c
  else m.setCore c { x with st := .running, resumable := false, stepping := false }

/-- What a context restart clears (R146, R183, R208). The C-core also clears its loop banks and its target buffer. -/
def Core.cleared (x : Core) (onC : Bool) : Core :=
  { x with
    g := [], v := [], mreg := [], vl := 0, vtype := vill, fcsr := 0, evmask := 0, timecmp := 0
    gcache := [], refused := none, na := false
    nmiLost := if x.nmi then 1 else 0
    nmi := false, window := false, vAbandons := 0, resumable := false, rpWait := none, put := none, stepping := false
    progBank := if onC then .clear else x.progBank
    handBank := if onC then .clear else x.handBank
    handLive := if onC then false else x.handLive
    btb := if onC then [] else x.btb }

/-- A context restart (R146): the context starts in the HOST world with XL_H_S1, and its context registers are those of
the CTX_ registers, which hold the live values while the context is stopped (R148). -/
def Mach.restart (m : Mach) (c : Nat) : Mach :=
  let x := (m.core c).snap.cleared (isC c)
  (m.setCore c { x with st := .running, world := .host, vmid := 0, s1 := m.coreReg c 0x180, s2root := 0 }).enterDomain c

/-- The RESTART command (R144). -/
def Mach.restartCmd (m : Mach) (mst : Master) (c : Nat) : Mach :=
  let st := (m.core c).st
  if m.barred mst c ∨ ! m.blockRuns c ∨ ! (st = .stopped ∨ st = .halted ∨ st = .fatal) then m.cign c
  else m.restart c

/-! ### CTX_ registers -/

/-- A write of a CTX_ register that is accepted (R147, R148); none where it is ignored and sets WIGN. -/
def Core.ctxWrite (x : Core) (off : Nat) (w : Word) : Option Core :=
  let w : Word := { w with poison := false, colour := 0 }
  if off = 0x80 then (if w.cursor % 4 = 0 then some { x with pcc := w } else none)
  else if off = 0x88 then some { x with savecap := w }
  else if off = 0x90 then some { x with evcap := w }
  else if off = 0x98 then some { x with link := w }
  else if off = 0xA0 then some { x with gtab := setFld w.data 0 16 0 }
  else if off = 0xA8 then some { x with wtab := setFld w.data 0 16 0 }
  else if off = 0xB0 then (if fld w.data 0 16 = 0xFFFF then none else some { x with cmpid := fld w.data 0 16 })
  else some x

/-- The offsets of the CTX_ registers (R148). -/
def ctxOffsets : List Nat := [0x80, 0x88, 0x90, 0x98, 0xA0, 0xA8, 0xB0]

/-- A CTLW to a CTX_ register (R147): accepted in STOPPED, HALTED and FATAL, else ignored with WIGN. -/
def Mach.ctxWrite (m : Mach) (c off : Nat) (w : Word) : Mach :=
  let x := m.core c
  if ! ctxOffsets.contains off then m
  else
    let ok := decide (x.st = .stopped) || decide (x.st = .halted) || decide (x.st = .fatal)
    match ok, x.ctxWrite off w with
    | true, some y => m.setCore c y.snap
    | _, _ => m.setCore c { x with wign := true }

/-! ### Block headers -/

/-- The unlock sequence (R19): 0 LOCKED, 1 ARMED, 2 UNLOCKED. -/
def unlockNext (lock : Nat) (v : W64) : Nat :=
  if lock = 0 ∧ v = 0x4C47 then 1 else if lock = 1 ∧ v = 0xB3B8 then 2 else 0

/-- A write of EXPERT_UNLOCK (R19, R20). -/
def Mach.unlock (m : Mach) (st k : Nat) (v : W64) : Mach :=
  let b := m.blk st k
  m.setBlk st k { b with lock := unlockNext b.lock v }

/-- The order in which violations of one cycle are captured (R25): the lower MSTOP, then the lower MUNIT. -/
def Viol.before (a b : Viol) : Bool := decide (a.mstop * 64 + a.munit ≤ b.mstop * 64 + b.munit)

/-- A write of VIOL_ADDR (R25): writing 1 to VALID clears it and VIOL_INFO; violations that arrive in the same cycle are
then captured. -/
def Mach.violClear (m : Mach) (st k : Nat) (v : W64) (arrivals : List Viol) : Mach :=
  let b := m.blk st k
  let m1 := if bit v 63 then m.setBlk st k { b with violAddr := setBit b.violAddr 63 false, violInfo := 0 } else m
  (arrivals.mergeSort Viol.before).foldl (fun acc x => acc.logViol st k x) m1

/-! ### Block resets of pods and clusters -/

/-- The stops one link away from a stop (R337): the mesh of 7 rows and 8 columns (R12). -/
def neighbours (st : Nat) : List Nat :=
  (if st % 8 = 0 then [] else [st - 1]) ++ (if st % 8 = 7 then [] else [st + 1])
    ++ (if st < 8 then [] else [st - 8]) ++ (if 48 ≤ st then [] else [st + 8])

/-- A reset of the block at a stop opens its shadow (R337). -/
def Mach.openShadow (m : Mach) (st : Nat) : Mach := { m with shadows := st :: m.shadows }

/-- Counts and overflow bits of a core's bank clear, so it is not frozen; selections stay (R497, R504). -/
def Mach.clearCoreBank (m : Mach) (st k : Nat) : Mach :=
  (List.range 8).foldl (fun acc i => acc.setReg st k (0x440 + 8 * i) 0) ((m.setReg st k 0x408 0).setRegBit st k 0x400 2 false)

/-- What a block reset does to every window of the block (R19, R327): the expert page locks, and a checker is disarmed. -/
def Mach.resetWindow (m : Mach) (st k : Nat) : Mach :=
  let m1 := m.setBlk st k { m.blk st k with lock := 0 }
  if bit (m1.reg st k 0x900) 0 then m1.setRegBit st k 0x900 0 false else m1

/-- A core leaves a block reset (R144, R151, R185): STOPPED with nothing held, or OFF where it has no power or is fused off. Its
acknowledgements of mirrored writes are no longer waited for. -/
def Mach.resetCore (m : Mach) (c : Nat) : Mach :=
  let st := coreStop c
  let k := coreWin c
  let fresh : Core := { Core.reset with st := if m.answers st k then .stopped else .off }
  ((m.setCore c fresh).clearCoreBank st k).resetWindow st k

/-- The home writes one lost line poisoned, with the payload it knows, and raises its uncorrectable-error source (R152). -/
def Mach.lostLine (m : Mach) (p : Nat × List W64) : Mach :=
  let a := p.1 * 64
  let m0 := (((m.dropLines none p.1).dropL3 p.1).setDir p.1 .none).unstale p.1
  let m1 := (List.range 8).foldl (fun acc i => acc.putWord (a + 8 * i) ((p.2[i]?).getD 0) false true) m0
  m1.raiseOpt (podStop (m.homeSlice a)) (some 3) a

/-- The block reset of a pod (R151, R152, R410): `lost` are the dirty lines of its L2s that step 2 does not write back, with what
their homes know of them; the other lines leave the L2s as R250 says. -/
def Mach.podReset (m : Mach) (p : Nat) (lost : List (Nat × List W64)) : Mach :=
  let st := podStop p
  let cores := (List.range 4).map (fun j => 4 * p + j)
  let gone := lost.filter (fun q => cores.any (fun c => decide (m.lineSt c q.1 = .M)))
  let m1 := gone.foldl Mach.lostLine (((m.openShadow st).resetWindow st 0).handBackTaker st)
  let m2 := cores.foldl (fun acc c => acc.emptyL2 c) m1
  cores.foldl (fun acc c => acc.resetCore c) m2

/-- Drain a C-core's buffer, leaving out the lost lines (R185). -/
def Mach.drainKept (m : Mach) (c : Nat) (lost : List Nat) : Mach :=
  let x := m.core c
  (m.setCore c { x with mb := x.mb.filter (fun e => ! lost.contains e.line) }).drainAll c

/-- The block reset of a C-cluster (R185, R186, R410): buffers drain but for `lost`; cluster memory stays; the counter
bank clears (R497). -/
def Mach.ccReset (m : Mach) (k : Nat) (lost : List (Nat × List W64)) : Mach :=
  let st := ccStop k
  let cores := (List.range 8).map (fun j => 144 + 8 * k + j)
  let m1 := cores.foldl (fun acc c => acc.drainKept c (lost.map Prod.fst)) m
  let m2 := lost.foldl Mach.lostLine (((m1.openShadow st).resetWindow st 0).handBackTaker st)
  ((cores.foldl (fun acc c => acc.resetCore c) m2).resetWindow st 9).clearBank st

/-! ### The C-core's L1 and buffers -/

/-- A write of 0 to CCORE_L1_CTRL.EN (R163). -/
def Mach.l1Disable (m : Mach) (c : Nat) : Mach :=
  if ! bit (m.coreReg c 0x100) 0 then m
  else
    let m1 := m.drainAll c
    (m1.setCore c { m1.core c with l1 := [] }).setReg (coreStop c) (coreWin c) 0x100 0

/-! ### Commands -/

/-- STOP (R144, R145). -/
def execStop (mst : Master) (c : Nat) (vec : Bool) (s : State) : Out :=
  s.upd (fun m => m.coreWindow mst c 0x40 (fun m => m.stopCmd mst c vec))

/-- STOP_COMPLETE (R145). -/
def execStopComplete (c : Nat) (s : State) : Out := s.upd (fun m => m.stopComplete c)

/-- RESUME (R144). -/
def execResume (mst : Master) (c : Nat) (s : State) : Out :=
  s.upd (fun m => m.coreWindow mst c 0x40 (fun m => m.resumeCmd mst c))

/-- RESTART (R146). -/
def execRestart (mst : Master) (c : Nat) (s : State) : Out :=
  s.upd (fun m => m.coreWindow mst c 0x40 (fun m => m.restartCmd mst c))

/-- CTX_REGISTER_WRITE (R147). -/
def execCtxRegisterWrite (mst : Master) (c off : Nat) (w : Word) (s : State) : Out :=
  s.upd (fun m => m.coreWindow mst c off (fun m => m.ctxWrite c off w))

/-- EXPERT_UNLOCK_WRITE (R19). -/
def execExpertUnlockWrite (mst : Master) (st k : Nat) (v : W64) (s : State) : Out :=
  s.upd (fun m => m.window mst st k 0x18 (fun m => m.unlock st k v))

/-- VIOL_ADDR_CLEAR (R25). -/
def execViolAddrClear (mst : Master) (st k : Nat) (v : W64) (arrivals : List Viol) (s : State) : Out :=
  s.upd (fun m => m.window mst st k 0x20 (fun m => m.violClear st k v arrivals))

/-- SERIALISE_TIMEOUT (R69, R140). -/
def execSerialiseTimeout (c : Nat) (s : State) : Out := s.upd (fun m => m.serialise c)

/-- POD_RESET (R151): ignored unless QUIESCE is 1 (R150). -/
def execPodReset (mst : Master) (p : Nat) (lost : List (Nat × List W64)) (s : State) : Out :=
  s.upd (fun m => if 36 ≤ p then m else m.window mst (podStop p) 0 0x50 (fun m =>
    if (m.blk (podStop p) 0).quiesce then m.podReset p lost else m))

/-- CC_RESET (R185): ignored unless QUIESCE is 1 (R184). -/
def execCcReset (mst : Master) (k : Nat) (lost : List (Nat × List W64)) (s : State) : Out :=
  s.upd (fun m => if 4 ≤ k then m else m.window mst (ccStop k) 0 0x48 (fun m =>
    if (m.blk (ccStop k) 0).quiesce then m.ccReset k lost else m))

/-- CCORE_L1_DISABLE (R163). -/
def execCcoreL1Disable (mst : Master) (c : Nat) (s : State) : Out :=
  s.upd (fun m => if isC c then m.coreWindow mst c 0x100 (fun m => m.l1Disable c) else m)

/-- CCORE_BTB_FLUSH (R174). -/
def execCcoreBtbFlush (mst : Master) (c : Nat) (s : State) : Out :=
  s.upd (fun m => if isC c then m.coreWindow mst c 0x110 (fun m => m.setCore c { m.core c with btb := [] }) else m)

/-- MB_IDLE_DRAIN (R165): entries drain oldest first, up to the idle entry at position `i`. -/
def execMbIdleDrain (c i : Nat) (s : State) : Out := s.upd (fun m => m.drainOldest c (i + 1))

end Sys2Proof.Machine
end

