-- ==== Sys2Proof/Machine/Coherence.lean ====
section
/-!
DEFINITION. The homes and the coherence protocol by its messages (R247 to R254, R261, R262): requests, trackers, Retry and
Credit, snoops and their answers, data, GO and CMP; writebacks and evictions; prefetches (R137); the hardware clean of an
L2 (R266) and the disable walk of an L3 slice (R272); the slice table (R246); flits and the TC0 bucket (R240, R241).
-/

namespace Sys2Proof.Machine

/-! ### Requests and trackers -/

/-- A request that has not reached its home. -/
def Txn.new (k : ReqKind) (line stop unit : Nat) (agent : Option Nat) (tc : Nat) (wd : World) : Txn where
  kind := k
  line := line
  stop := stop
  unit := unit
  agent := agent
  tc := tc
  world := wd
  mask := 0
  data := []
  poison := 0
  op := 0
  a := .zero
  b := .zero
  active := false
  pinned := false
  snoops := []
  answers := []
  wbAwaited := []
  wbHere := []
  dataSent := false
  goSent := false
  gotData := false
  gotGo := false
  grant := .I
  old := .zero

/-- A request of caching agent `a` (R249): V-core `a` or C-core `a - 144`. -/
def Mach.agentReq (m : Mach) (k : ReqKind) (a line tc : Nat) : Txn :=
  .new k line (coreStop a) (coreUnit a) (some a) tc (m.core a).world

/-- The home slice of a line. -/
def Mach.home (m : Mach) (line : Nat) : Nat := m.homeSlice (line * 64)

/-- The open requests of home `p`. -/
def Mach.atHome (m : Mach) (p : Nat) : List Txn := m.txns.filter (fun t => decide (m.home t.line = p))

/-- Whether home `p` has a tracker for a request of class `tc` (R247): a class uses its reserved trackers first. -/
def Mach.trackerFree (m : Mach) (p tc : Nat) : Bool :=
  let n := fun (f : Nat → Bool) => ((m.atHome p).filter (fun t => f t.tc)).length
  let r0 := fld (m.l3Reg p 0x100) 0 8
  let r1 := fld (m.l3Reg p 0x100) 8 8
  let n0 := n (fun c => decide (c = 0))
  let n1 := n (fun c => decide (c = 1)) + (n0 - r0)
  let used := n (fun c => decide (2 ≤ c)) + (n1 - r1)
  decide (used < 256 - r0 - r1) || (decide (tc = 0) && decide (n0 < r0)) || (decide (tc ≤ 1) && decide (n1 < r1))

/-- L3H_HA_STAT follows the trackers in use (R254). -/
def Mach.trackStat (m : Mach) (p : Nat) : Mach :=
  let n := (m.atHome p).length
  let v := m.l3Reg p 0x108
  m.setReg (podStop p) 5 0x108 (setFld (setFld v 0 9 n) 16 9 (max n (fld v 16 9)))

/-- Count an uncore happening of a request at its home. -/
def Mach.countReq (m : Mach) (t : Txn) (ev n : Nat) : Mach :=
  m.countUncore (podStop (m.home t.line)) ⟨ev, t.world, some t.tc, some (t.stop, t.unit), some (t.line * 64)⟩ n

/-! ### Directory entries -/

/-- The group of an agent (R249). -/
def groupOf (a : Nat) : Nat := if a < 144 then a / 4 else 36 + (a - 144) / 8

/-- The agents of a group. -/
def groupAgents (g : Nat) : List Nat :=
  if g < 36 then (List.range 4).map (fun j => 4 * g + j) else (List.range 8).map (fun j => 144 + 8 * (g - 36) + j)

/-- The agents that an entry names as sharers. -/
def DirEnt.agents (e : DirEnt) : List Nat := e.sharers ++ e.groups.flatMap groupAgents

/-- Whether an entry names an agent. -/
def DirEnt.names (e : DirEnt) (a : Nat) : Bool := decide (e.owner = some a) || e.agents.contains a

/-- Add a sharer: up to four by agent, then by group (R249). -/
def DirEnt.addSharer (e : DirEnt) (a : Nat) : DirEnt :=
  if ! e.groups.isEmpty then { e with groups := insNat e.groups (groupOf a) }
  else
    let s := insNat e.sharers a
    if s.length ≤ 4 then { e with sharers := s }
    else { e with sharers := [], groups := s.foldl (fun g x => insNat g (groupOf x)) [] }

/-- An owner that kept a copy is the keeper (R250). -/
def DirEnt.keep (e : DirEnt) (a : Nat) : DirEnt :=
  if e.owner = some a then ⟨Option.none, some a, [a], []⟩ else e

/-! ### The active transaction -/

/-- The active transaction of a line. -/
def Mach.active (m : Mach) (line : Nat) : Option Txn :=
  m.txns.find? (fun t => decide (t.line = line) && t.active)

/-- Change it. -/
def Mach.modActive (m : Mach) (line : Nat) (f : Txn → Txn) : Mach :=
  { m with txns := m.txns.map (fun t => if t.line = line ∧ t.active then f t else t) }

/-- The snoops that a request needs (R252). -/
def snoopsOf (e : DirEnt) (t : Txn) : List (Nat × Snp) :=
  let others := (e.agents.filter (fun a => decide (t.agent ≠ some a) && decide (e.keeper ≠ some a))).eraseDups
  let src := (match e.owner with | some o => some o | none => e.keeper).filter (fun a => decide (t.agent ≠ some a))
  match t.kind with
  | .rds => (src.map (fun a => (a, Snp.K))).toList
  | .rdu => ((e.owner.filter (fun a => decide (t.agent ≠ some a))).map (fun a => (a, Snp.C))).toList
  | .rdx | .upg => (src.map (fun a => (a, Snp.X))).toList ++ others.map (fun a => (a, Snp.I))
  | .wru | .wrm | .atomf =>
    ((e.owner.filter (fun a => decide (t.agent ≠ some a))).map (fun a => (a, Snp.X))).toList
      ++ ((e.keeper.filter (fun a => decide (t.agent ≠ some a))).map (fun a => (a, Snp.I))).toList
      ++ others.map (fun a => (a, Snp.I))

/-- How the home serves a request that becomes the active one (R252, R261): an RdX in a mirror window as RdS, an Upg whose
requester the entry no longer names as RdX. -/
def Mach.served (m : Mach) (t : Txn) : Txn :=
  let named := match t.agent with
    | some a => (m.dirOf t.line).names a
    | none => false
  let k := match t.kind with
    | .rdx => if m.inMirror (t.line * 64) then .rds else .rdx
    | .upg => if named then .upg else if m.inMirror (t.line * 64) then .rds else .rdx
    | k => k
  { t with kind := k }

/-- The home orders a request: it becomes the active transaction and its snoops are sent (R252). -/
def Mach.orderReq (m : Mach) (t : Txn) : Mach :=
  let u := m.served t
  let sn := snoopsOf (m.dirOf t.line) u
  let v := { u with active := true, snoops := sn, dataSent := decide (u.kind = .upg), gotData := decide (u.kind = .upg) }
  let m1 := { m with txns := m.txns.map (fun x => if x = t then v else x) }
  (m1.countReq v 0x200 1).countReq v 0x207 sn.length

/-- The new word of an atomic (R82). -/
def atomOp (op : Nat) (old a b : W64) : W64 :=
  match op with
  | 0 => a
  | 1 => old + a
  | 2 => old &&& a
  | 3 => old ||| a
  | 4 => old ^^^ a
  | 5 => if old.toInt ≤ a.toInt then old else a
  | 6 => if a.toInt ≤ old.toInt then old else a
  | 7 => if old.toNat ≤ a.toNat then old else a
  | 8 => if a.toNat ≤ old.toNat then old else a
  | 16 => if old = b then a else old
  | _ => old

/-- The bytes of one word of a line, merged by mask (R34). -/
def Mach.mergeWord (m : Mach) (a mask : Nat) (d : W64) (poison : Bool) : Mach :=
  if mask = 0 then m
  else
    let old := m.word a
    let v := (List.range 8).foldl (fun v i => if mask.testBit i then setFld v (8 * i) 8 (fld d (8 * i) 8) else v) old.data
    (m.writeN a 8 v.toNat).setMeta a ⟨false, poison || (decide (mask ≠ 0xFF) && old.poison), old.colour⟩

/-- Bytes written at the home of a line (R252, R262): `mask` has one bit per byte. A mirror window forwards them. -/
def Mach.homeBytes (m : Mach) (stop unit : Nat) (writer : Option Nat) (line mask : Nat) (data : List W64) (poison : Nat) :
    Mach :=
  let m1 := m.homeWrite writer line
  let m2 := if mask = 2 ^ 64 - 1 then m1.openLine (line * 64) else m1
  (List.range 8).foldl (fun acc i =>
    let a := line * 64 + 8 * i
    let k := mask / 2 ^ (8 * i) % 256
    if k = 0 then acc
    else ((acc.mergeWord a k ((data[i]?).getD 0) (poison.testBit i)).stored a).mirrorWrite stop unit a k)
    (m2.l1Inval (writer.getD 176) line)

/-- The atomic of a request, performed at the home: the old word goes back with GO (R252). -/
def Mach.homeAtom (m : Mach) (t : Txn) : Mach × Word :=
  let a := t.line * 64 + t.mask % 8 * 8
  let m1 := (m.homeWrite t.agent t.line).l1Inval 176 t.line
  let old := m1.word a
  let new := atomOp t.op old.data t.a.data t.b.data
  let same := decide (t.op = 16) && decide (old.data ≠ t.b.data)
  let m2 := if same then m1 else
    ((m1.putWord a new false (old.poison || t.a.poison)).stored a).mirrorWrite t.stop t.unit a 0xFF
  (m2, { old with tag := false })

/-- The state that a requester is granted, and the entry (R250). -/
def grantOf (mirror : Bool) (e : DirEnt) (kind : ReqKind) (a : Nat) : LineSt × DirEnt :=
  match kind with
  | .rdx | .upg => (.M, ⟨some a, Option.none, [], []⟩)
  | _ =>
    let held := e.owner.isSome || ! e.agents.isEmpty
    if isC a then (.S, { e with owner := Option.none }.addSharer a)
    else if e.owner = some a then (.E, e)
    else if ! held && ! mirror then (.E, ⟨some a, Option.none, [], []⟩)
    else if e.keeper.isNone then (.K, { e with keeper := some a }.addSharer a)
    else (.S, e.addSharer a)

/-- The last step of a transaction at the home, every snoop answered (R252): a read is granted and waits for CMP; any
other request is carried out, its GO sent and its block ended. -/
def Mach.complete (m : Mach) (t : Txn) : Mach :=
  match t.kind, t.agent with
  | .rds, some a | .rdx, some a | .upg, some a =>
    let m1 := if t.dataSent then m else m.homeRead t.line t.stop
    let (g, e) := grantOf (m.inMirror (t.line * 64)) (m1.dirOf t.line) t.kind a
    (m1.setDir t.line e).modActive t.line (fun x => { x with dataSent := true, goSent := true, grant := g })
  | .wru, _ | .wrm, _ =>
    let m1 := m.homeBytes t.stop t.unit t.agent t.line t.mask t.data t.poison
    { m1 with
      txns := m1.txns.filter (fun x => ! (decide (x.line = t.line) && x.active))
      gone := m1.gone ++ [{ t with goSent := true, gotData := true }] }
  | .atomf, _ =>
    let (m1, old) := m.homeAtom t
    { m1 with
      txns := m1.txns.filter (fun x => ! (decide (x.line = t.line) && x.active))
      gone := m1.gone ++ [{ t with goSent := true, gotData := true, old := old }] }
  | _, _ =>
    let m1 := m.homeRead t.line t.stop
    { m1 with
      txns := m1.txns.filter (fun x => ! (decide (x.line = t.line) && x.active))
      gone := m1.gone ++ [{ t with goSent := true, dataSent := true }] }

/-- Whether nothing more is awaited before GO. -/
def Txn.ready (t : Txn) : Bool := t.snoops.isEmpty && t.answers.isEmpty && t.wbAwaited.isEmpty && ! t.goSent

/-- A line's requests go on as far as they can: the active one completes, then the next in arrival order is ordered
(R252). -/
def Mach.pump (m : Mach) (line : Nat) : Nat → Mach
  | 0 => m
  | n + 1 =>
    match m.active line with
    | some t => if t.ready then (m.complete t).pump line n else m
    | none =>
      match m.txns.find? (fun t => decide (t.line = line) && ! t.pinned) with
      | some t => (m.orderReq t).pump line n
      | none => m

/-- Let a line's requests go on. -/
def Mach.run (m : Mach) (line : Nat) : Mach :=
  let m1 := m.pump line (3 * m.txns.length + 3)
  m1.trackStat (m1.home line)

/-- A block ended at home `p`: the first request that waits for a directory way goes on (R254). -/
def Mach.unpin (m : Mach) (p : Nat) : Mach :=
  match (m.atHome p).find? (fun t => t.pinned) with
  | some t => ({ m with txns := m.txns.map (fun x => if x = t then { x with pinned := false } else x) }).run t.line
  | none => m

/-- Let a line's requests go on; where that ends its last block, a request that waits for a way goes on too (R254). -/
def Mach.runEnd (m : Mach) (line : Nat) : Mach :=
  let m1 := m.run line
  if (m1.active line).isNone then m1.unpin (m1.home line) else m1

/-- The home evicts a directory victim by snooping its holders (R254). -/
def Mach.backInvalidate (m : Mach) (p v : Nat) : Mach :=
  if m.home v ≠ p ∨ m.dirOf v = .none ∨ m.lineOpen v then m
  else
    let e := m.dirOf v
    let n := e.owner.toList.length + e.agents.length
    let m1 := match m.holderM v with
      | some o => m.l3Return v (coreStop o)
      | none => m
    let m2 := (((m1.dropLines none v).l1Inval 176 v).setDir v .none).countReg (podStop p) 5 0x110 0 32 1
    (m2.countSlice p 0x204).countUncore (podStop p) (.plain 0x207) n

/-- The access type of a request that a carve-out refuses (R27, R224). -/
def reqAcc : ReqKind → Acc
  | .wru | .wrm => .write
  | .atomf => .atomic
  | _ => .read

/-- The same request, as far as Retry and Credit go (R247). -/
def Txn.same (t u : Txn) : Bool :=
  decide (t.kind = u.kind) && decide (t.line = u.line) && decide (t.stop = u.stop) && decide (t.unit = u.unit)

/-- A request reaches its home (R224, R246, R247, R252): held while its bucket moves; refused in a carve-out; answered Retry
without a tracker, and then resent only on a Credit; else it holds a tracker and is ordered in arrival order. -/
def Mach.submit (m : Mach) (t : Txn) : Mach :=
  let p := m.home t.line
  let pa := t.line * 64
  if ! m.homed pa then m
  else if (m.sltMove.map Prod.fst) = some (foldH pa) then { m with heldReqs := m.heldReqs ++ [t] }
  else match (if t.world = .secure then none else m.carveOf pa) with
  | some b =>
    (m.logViol (podStop p) 5 ⟨b, false, t.stop, t.unit, reqAcc t.kind, .carve⟩).countReg 0 9 0x208 16 16 1
  | none =>
    match m.retried.find? (fun r => decide (r.slice = p) && r.req.same t) with
    | some r =>
      if ! r.credited then m
      else if m.trackerFree p t.tc then
        ({ m with retried := m.retried.filter (fun x => decide (x ≠ r)), txns := m.txns ++ [t] }).run t.line
      else
        let m1 := { m with retried := m.retried.filter (fun x => decide (x ≠ r)) ++ [(⟨p, t, false, false⟩ : Retried)] }
        (m1.countReg (podStop p) 5 0x108 32 32 1).countReq t 0x205 1
    | none =>
      if m.trackerFree p t.tc then ({ m with txns := m.txns ++ [t] }).run t.line
      else
        let m1 := { m with retried := m.retried ++ [(⟨p, t, false, false⟩ : Retried)] }
        (m1.countReg (podStop p) 5 0x108 32 32 1).countReq t 0x205 1

/-- A read of a caching agent with the directory's part (R254): a victim that its set evicts, or a set whose ways are all
pinned, so that the request waits. -/
def Mach.cacheReq (m : Mach) (k : ReqKind) (a line tc : Nat) (victim : Option Nat) (pinned : Bool) : Mach :=
  let t := m.agentReq k a line tc
  let p := m.home line
  if 176 ≤ a ∨ (isC a ∧ k ≠ .rds) then m
  else if m.dirOf line ≠ .none then m.submit t
  else if pinned then (m.submit { t with pinned := true }).countReg (podStop p) 5 0x110 32 32 1
  else match victim with
    | some v => (m.backInvalidate p v).submit t
    | none => m.submit t

/-! ### Snoops -/

/-- Whether agent `a` holds a line, and how (R248): a C-core's L1 holds S only. -/
def Mach.heldAs (m : Mach) (a line : Nat) : LineSt :=
  if isC a then (if (m.core a).l1.any (fun e => decide (e.line = line) && e.valid) then .S else .I) else m.lineSt a line

/-- Agent `a` gives up a line: a C-core's locked position keeps its tag (R162). -/
def Mach.loseLine (m : Mach) (a line : Nat) : Mach :=
  if isC a then m.setCore a { m.core a with l1 := (m.core a).l1.map (fun e =>
    if e.line = line then { e with valid := false } else e) }
  else m.setLine a line .I

/-- A snoop reaches agent `a` (R250 to R253): its new state, its answer, whether the answer carries the line, and whether it
supplied the requester. `wb` says that the line's writeback is under way already. -/
def Mach.snoop (m : Mach) (a line : Nat) (k : Snp) (wb : Bool) : Mach :=
  match m.active line with
  | none => m
  | some t =>
    if ! t.snoops.contains (a, k) then m
    else
      let st := m.heldAs a line
      let reads := decide (t.kind = .rds) || decide (t.kind = .rdx)
      let ret := decide (st = .M) && ! decide (t.kind = .rdx)
      let wf := decide (st = .M) && wb
      let (m1, ans, withLine, fwd) : Mach × Rsp × Bool × Bool :=
        if wf then (m.loseLine a line, .wbf, false, false)
        else if st = .I then (m, if t.wbHere.contains a then .wbf else .I, false, false)
        else match k with
          | .K => (if isC a then m else m.setLine a line .K, .S, ret, reads)
          | .X => (m.loseLine a line, .I, ret, reads)
          | .I => (m.loseLine a line, .I, false, false)
          | .C => (if st = .M then m.setLine a line .E else m, .S, ret, false)
      m1.modActive line (fun x =>
        { x with
          snoops := x.snoops.filter (fun q => decide (q ≠ (a, k)))
          answers := x.answers ++ [(a, ans, withLine)]
          dataSent := x.dataSent || fwd })

/-- An answer reaches the home (R252, R253): a kept copy makes a former owner keeper; an invalidated one leaves the entry; a
line that comes with it is written to the L3; a writeback in flight is awaited. -/
def Mach.answer (m : Mach) (a line : Nat) (r : Rsp) : Mach :=
  match m.active line with
  | none => m
  | some t =>
    match t.answers.find? (fun q => decide (q.1 = a) && decide (q.2.1 = r)) with
    | none => m
    | some q =>
      let m1 := m.modActive line (fun x => { x with answers := x.answers.filter (fun y => decide (y ≠ q)) })
      let m2 := if q.2.2 then m1.l3Return line (coreStop a) else m1
      let e := m2.dirOf line
      let m3 := match r with
        | .S => m2.setDir line (e.keep a)
        | .I => m2.setDir line (e.remove a)
        | .wbf =>
          if t.wbHere.contains a then
            ((m2.l3Return line (coreStop a)).setDir line (e.remove a)).modActive line (fun x =>
              { x with wbHere := x.wbHere.filter (fun y => decide (y ≠ a)) })
          else m2.modActive line (fun x => { x with wbAwaited := x.wbAwaited ++ [a] })
      m3.runEnd line

/-! ### What reaches the requester -/

/-- Both parts of an answer have come: the requester holds the line in the granted state. -/
def Mach.installLine (m : Mach) (t : Txn) : Mach :=
  match t.agent with
  | none => m
  | some a =>
    if isC a then m.l1Access a (t.line * 64) false
    else if t.grant = .M then m.becomeM a t.line
    else m.setLine a t.line t.grant

/-- Whether a transaction is the one of this requester. -/
def Txn.of (t : Txn) (stop unit line : Nat) : Bool :=
  decide (t.line = line) && decide (t.stop = stop) && decide (t.unit = unit)

/-- Data or GO reaches the requester `unit` of stop `stop` (R251). -/
def Mach.arrive (m : Mach) (stop unit line : Nat) (go : Bool) : Mach :=
  let upd := fun (t : Txn) =>
    if go then (if t.goSent then { t with gotGo := true } else t)
    else (if t.dataSent then { t with gotData := true } else t)
  match m.active line with
  | some t =>
    if t.of stop unit line then
      let u := upd t
      let m1 := m.modActive line (fun _ => u)
      if u.gotData && u.gotGo && ! (t.gotData && t.gotGo) then m1.installLine u else m1
    else m
  | none =>
    match m.gone.findIdx? (fun t => t.of stop unit line) with
    | some i =>
      let u := upd ((m.gone[i]?).getD (.new .rdu 0 0 0 none 0 .host))
      if u.gotData && u.gotGo then { m with gone := m.gone.eraseIdx i } else { m with gone := m.gone.set i u }
    | none => m

/-- CMP reaches the home: the block ends (R252). -/
def Mach.cmp (m : Mach) (stop unit line : Nat) : Mach :=
  match m.active line with
  | some t =>
    if t.of stop unit line && t.gotData && t.gotGo then
      let m1 := { m with txns := m.txns.filter (fun x => ! (decide (x.line = line) && x.active)) }
      (m1.run line).unpin (m.home line)
    else m
  | none => m

/-! ### Evictions -/

/-- A writeback of agent `a` reaches the home (R252, R253): the line leaves the agent's cache for its writeback buffer, which
WbAck frees. -/
def Mach.writeback (m : Mach) (a line : Nat) : Mach :=
  let inTxn := match m.active line with
    | some t => some t
    | none => none
  let awaited := match inTxn with
    | some t => t.wbAwaited.contains a
    | none => false
  if isC a ∨ ! m.homed (line * 64) then m
  else if awaited then
    let m1 := (m.l3Return line (coreStop a)).setDir line ((m.dirOf line).remove a)
    let m2 := m1.modActive line (fun x => { x with wbAwaited := x.wbAwaited.filter (fun y => decide (y ≠ a)) })
    (({ m2 with wbufs := m2.wbufs ++ [(a, line)] }).countCore a 0x013 1).runEnd line
  else if m.lineSt a line ≠ .M then m
  else
    let m1 := ({ m.setLine a line .I with wbufs := m.wbufs ++ [(a, line)] }).countCore a 0x013 1
    match inTxn with
    | some _ => m1.modActive line (fun x => { x with wbHere := x.wbHere ++ [a] })
    | none => (m1.l3Return line (coreStop a)).setDir line ((m.dirOf line).remove a)

/-- A clean-eviction notice reaches the home (R250, R253). -/
def Mach.evict (m : Mach) (a line : Nat) : Mach :=
  let st := m.lineSt a line
  if isC a ∨ ! m.homed (line * 64) ∨ ! (st = .E ∨ st = .K) then m
  else
    let m1 := { m.setLine a line .I with wbufs := m.wbufs ++ [(a, line)] }
    if m.lineOpen line then m1 else m1.setDir line ((m.dirOf line).remove a)

/-! ### Retry and Credit -/

/-- A Retry reaches its requester, which keeps the request (R247). -/
def Mach.retryTold (m : Mach) (stop unit line : Nat) : Mach :=
  { m with retried := m.retried.map (fun r => if r.req.of stop unit line then { r with told := true } else r) }

/-- A Credit for the oldest retried requester that a free tracker can serve (R247). -/
def Mach.credit (m : Mach) (p : Nat) : Mach :=
  match m.retried.find? (fun r => decide (r.slice = p) && r.told && ! r.credited && m.trackerFree p r.req.tc) with
  | some r => { m with retried := m.retried.map (fun x => if x = r then { x with credited := true } else x) }
  | none => m

/-! ### Prefetch, hardware clean, disable walk -/

/-- A prefetch of V-core `c` by prefetcher `w` (0 next-line instruction, 1 L1D stride, 2 L2 stream) from a trained address to
`va` (R137, R150, R264): within the page, with a held translation that may read, with the prefetcher on and no forced
filling; a miss in the L2 is sent as a read for sharing at TC2. -/
def Mach.prefetch (m : Mach) (c w trained va : Nat) : Mach :=
  let x := m.core c
  if isC c ∨ trained / 4096 ≠ va / 4096 ∨ bit (m.reg (coreStop c) 0 0x800) (2 + w % 3) ∨ bit (m.coreReg c 0x100) 20
      ∨ ! m.canRun c then m
  else match x.tlb.find? (fun e => e.hits x.regime ⟨true, false, false⟩ va) with
    | some e =>
      let line := (e.pbase + (va - e.vbase)) / 64
      if ! (e.r1 && e.r2) ∨ ! (e.ptype = 0 ∨ e.ptype = 1) ∨ m.lineSt c line ≠ .I ∨ ! bit (m.coreReg c 0x100) 0 then m
      else if (if x.world = .secure then none else m.carveOf (line * 64)).isSome then m
      else m.submit (m.agentReq .rds c line 2)
    | none => m

/-- The hardware clean of R266: the caches empty, and EN, LOCK, FILLWAY and FILLFORCE clear. -/
def Mach.cleanL2 (m : Mach) (c : Nat) : Mach :=
  if ! bit (m.coreReg c 0x100) 0 then m else (m.emptyL2 c).setReg (coreStop c) (coreWin c) 0x100 0

/-- The disable walk of R272: every DIRTY line goes to memory, every line is dropped, EN, LOCK and FILLFORCE clear. -/
def Mach.disableL3 (m : Mach) (p : Nat) : Mach :=
  let v := m.l3Reg p 0x120
  if ! bit v 0 then m
  else
    let m1 := (m.slotsL3 p).foldl (fun acc e => acc.l3ToMemory e) m
    (m1.setSlotsL3 p []).setReg (podStop p) 5 0x120 (setBit (setFld (setBit v 0 false) 4 12 0) 20 false)

/-! ### The slice table -/

/-- A write of SYT_SLT_DATA (R246): starts a bucket move, or is ignored with WIGN. -/
def Mach.moveBucket (m : Mach) (v : W64) : Mach :=
  let p := fld v 0 6
  if m.sltMove.isSome ∨ ! m.slicesPresent.contains p then m.setRegBit 0 0 0x690 1 true
  else { m.setRegBit 0 0 0x690 0 true with sltMove := some (m.regFld 0 0 0x680 0 9, p) }

/-- The old home's part of a move (R246): every cached line of the bucket comes back, its L3 lines are written to memory and
dropped. -/
def Mach.recallBucket (m : Mach) (h : Nat) : Mach :=
  let mine := fun (line : Nat) => decide (foldH (line * 64) = h)
  let p := m.slice h
  let m0 := { m with
    dir := m.dir.filter (fun q => ! mine q.1)
    cores := Tab.mapV Core.reset (fun _ x =>
      { x with
        lines := x.lines.filter (fun q => ! mine q.1)
        l1 := x.l1.map (fun (e : L1Line) => if mine e.line then { e with valid := false } else e) }) m.cores }
  let m1 := (m.stale.filter (fun q => mine q.1)).foldl (fun acc q => acc.unstale q.1) m0
  m1.setSlotsL3 p ((m1.slotsL3 p).filter (fun e => ! mine e.line))

/-- A move ends (R246) once the old home has no open transaction of the bucket: the routers take the new entry and release
the held requests. -/
def Mach.moveDone (m : Mach) : Mach :=
  match m.sltMove with
  | none => m
  | some (h, p) =>
    if m.txns.any (fun t => decide (foldH (t.line * 64) = h)) then m
    else
      let m1 := m.recallBucket h
      let m2 := { m1 with slt := Tab.ins m1.slt h p, sltMove := none, heldReqs := [] }
      let m3 := (m2.setRegBit 0 0 0x690 0 false).countReg 0 0 0x690 16 16 1
      m.heldReqs.foldl (fun acc t => acc.submit t) m3

/-! ### Flits -/

/-- The UX source of a stop (R330). -/
def uxSrc (st : Nat) : Nat :=
  match stopKind st with
  | .syt => 13 | .pod _ => 5 | .cc _ => 4 | .mc _ => 5 | .px _ => 3 | .le _ => 7 | .hio _ => 3 | _ => 2

/-- The tokens of a stop's TC0 bucket now, in thousandths (R241): RATE per microsecond of device time, up to BURST. -/
def Mach.tokensOf (m : Mach) (st : Nat) : Nat :=
  let q := Tab.get (0, 0) m.tokens st
  let cfg := m.reg st 0xFE 0x48
  min (q.1 + (m.dt - q.2) * fld cfg 0 11) (fld cfg 16 8 * 1000)

/-- The bucket of a stop is brought up to now, before its rate changes. -/
def Mach.settleTokens (m : Mach) (st : Nat) : Mach := { m with tokens := Tab.set (0, 0) m.tokens st (m.tokensOf st, m.dt) }

/-- A block of the stop injects a flit of class TC0 (R241): it takes a token, or travels at TC2 and is counted. -/
def Mach.meterTc0 (m : Mach) (st : Nat) : Mach :=
  let n := m.tokensOf st
  if n < 1000 then (m.settleTokens st).countReg st 0xFE 0x50 32 32 1
  else ({ m with tokens := Tab.set (0, 0) m.tokens st (n - 1000, m.dt) }).countReg st 0xFE 0x50 0 32 1

/-- A router receives a flit (R240): `ce` corrected words, the words that arrive with an uncorrectable error, and whether the
header is lost. -/
def Mach.flit (m : Mach) (st : Nat) (tc0 : Bool) (ce : Nat) (bad : List Nat) (header : Bool) : Mach :=
  if 56 ≤ st then m
  else
    let m1 := (if tc0 then m.meterTc0 st else m).countReg st 0xFE 0x58 16 16 ce
    if header then (m1.setRegBit st 0xFE 0x58 32 true).raiseOwn st (uxSrc st) none
    else bad.foldl (fun acc a => acc.poisonWord (a / 8 * 8)) m1

/-! ### Commands -/

/-- RDS (R252). -/
def execRds (a line tc : Nat) (victim : Option Nat) (pinned : Bool) (s : State) : Out :=
  s.upd (fun m => m.cacheReq .rds a line tc victim pinned)

/-- RDX (R252). -/
def execRdx (a line tc : Nat) (victim : Option Nat) (pinned : Bool) (s : State) : Out :=
  s.upd (fun m => m.cacheReq .rdx a line tc victim pinned)

/-- UPG (R252). -/
def execUpg (a line tc : Nat) (victim : Option Nat) (pinned : Bool) (s : State) : Out :=
  s.upd (fun m => m.cacheReq .upg a line tc victim pinned)

/-- RDU (R252). -/
def execRdu (mst : Master) (line tc : Nat) (s : State) : Out :=
  s.upd (fun m => m.submit (.new .rdu line mst.stop mst.unit none tc mst.world))

/-- WRU (R252): a write by mask, one bit per byte, with the POISON of each word. -/
def execWru (mst : Master) (line tc mask : Nat) (data : List W64) (poison : Nat) (s : State) : Out :=
  s.upd (fun m => m.submit { Txn.new .wru line mst.stop mst.unit (coreOf mst.stop mst.unit) tc mst.world with
    mask := mask % 2 ^ 64, data := data, poison := poison })

/-- WRM (R261, R262): a WrU to a mirror window, which the home forwards. -/
def execWrm (mst : Master) (line tc mask : Nat) (data : List W64) (poison : Nat) (s : State) : Out :=
  s.upd (fun m => if ! m.inMirror (line * 64) then m else
    m.submit { Txn.new .wrm line mst.stop mst.unit (coreOf mst.stop mst.unit) tc mst.world with
      mask := mask % 2 ^ 64, data := data, poison := poison })

/-- ATOMF (R252): operation `op` of R82 on word `i` of the line, with operand `a` and, for CAS, compare value `b`. -/
def execAtomf (mst : Master) (line tc i op : Nat) (a b : Word) (s : State) : Out :=
  s.upd (fun m => m.submit { Txn.new .atomf line mst.stop mst.unit none tc mst.world with
    mask := i % 8, op := op, a := a, b := b })

/-- WBD (R253). -/
def execWbd (a line : Nat) (s : State) : Out := s.upd (fun m => m.writeback a line)

/-- EVC (R250). -/
def execEvc (a line : Nat) (s : State) : Out := s.upd (fun m => m.evict a line)

/-- SNPK (R251). -/
def execSnpk (a line : Nat) (wb : Bool) (s : State) : Out := s.upd (fun m => m.snoop a line .K wb)

/-- SNPX (R251). -/
def execSnpx (a line : Nat) (wb : Bool) (s : State) : Out := s.upd (fun m => m.snoop a line .X wb)

/-- SNPI (R251). -/
def execSnpi (a line : Nat) (s : State) : Out := s.upd (fun m => m.snoop a line .I false)

/-- SNPC (R251). -/
def execSnpc (a line : Nat) (wb : Bool) (s : State) : Out := s.upd (fun m => m.snoop a line .C wb)

/-- DATA (R251). -/
def execData (stop unit line : Nat) (s : State) : Out := s.upd (fun m => m.arrive stop unit line false)

/-- GO (R251). -/
def execGo (stop unit line : Nat) (s : State) : Out := s.upd (fun m => m.arrive stop unit line true)

/-- RSPS (R251). -/
def execRsps (a line : Nat) (s : State) : Out := s.upd (fun m => m.answer a line .S)

/-- RSPI (R251). -/
def execRspi (a line : Nat) (s : State) : Out := s.upd (fun m => m.answer a line .I)

/-- RSPWBF (R253). -/
def execRspwbf (a line : Nat) (s : State) : Out := s.upd (fun m => m.answer a line .wbf)

/-- CMP (R252). -/
def execCmp (stop unit line : Nat) (s : State) : Out := s.upd (fun m => m.cmp stop unit line)

/-- WBACK (R251): the writeback buffer is free. -/
def execWback (a line : Nat) (s : State) : Out :=
  s.upd (fun m => { m with wbufs := m.wbufs.erase (a, line) })

/-- RETRY (R247). -/
def execRetry (stop unit line : Nat) (s : State) : Out := s.upd (fun m => m.retryTold stop unit line)

/-- CREDIT (R247). -/
def execCredit (p : Nat) (s : State) : Out := s.upd (fun m => m.credit p)

/-- PREFETCH_ISSUE (R137). -/
def execPrefetchIssue (c w trained va : Nat) (s : State) : Out := s.upd (fun m => m.prefetch c w trained va)

/-- L2_HARDWARE_CLEAN (R266). -/
def execL2HardwareClean (mst : Master) (c : Nat) (s : State) : Out :=
  s.upd (fun m => if isC c then m else m.coreWindow mst c 0x100 (fun m => m.cleanL2 c))

/-- L3_DISABLE (R272). -/
def execL3Disable (mst : Master) (p : Nat) (s : State) : Out :=
  s.upd (fun m => if 36 ≤ p then m else m.window mst (podStop p) 5 0x120 (fun m => m.disableL3 p))

/-- SLICE_TABLE_WRITE (R246). -/
def execSliceTableWrite (v : W64) (s : State) : Out := s.upd (fun m => m.moveBucket v)

/-- BUCKET_MOVE_COMPLETE (R246). -/
def execBucketMoveComplete (s : State) : Out := s.upd Mach.moveDone

/-- FLIT_RECEIVE (R240, R241). -/
def execFlitReceive (st : Nat) (tc0 : Bool) (ce : Nat) (bad : List Nat) (header : Bool) (s : State) : Out :=
  s.upd (fun m => m.flit st tc0 ce bad header)

end Sys2Proof.Machine
end

