-- ==== Sys2Proof/Machine/Capability.lean ====
section
/-!
DEFINITION. The capability instructions other than LDC and STC (R55 to R58, R61, R62, R64, R70). An operand check that
reaches no memory is logged as NOACC with the operand's CURSOR, and its frame's word 2 is 0 (R187, R560).
-/

namespace Sys2Proof.Machine

/-- A failed operand check as CAP_PERM (R56, R57, R64, R560). -/
def permExc (w : Word) : Exc := .viol .capPerm 0 .noacc .cap 0 w.cursor

/-- Steps 1 to 3 of R51 on an operand. -/
def Mach.liveOp (m : Mach) (c : Nat) (w : Word) : Except Exc (Grant × Nat × Mach) :=
  if w.poison then .error (.plain .poison 1 0) else m.live c w .noacc 0 w.cursor

/-- A mint request (R55). -/
structure MintReq where
  base : Nat
  limit : Nat
  perms : W64
  otype : Nat
  colour : Nat
  index : Nat
  tsel : Bool
  reserved : Bool
  w3 : Word
  deriving DecidableEq, Repr

/-- Read the layout of R55. -/
def MintReq.ofWords (w0 w1 w2 w3 : Word) : MintReq :=
  ⟨fld w0.data 0 48, fld w1.data 0 48, setFld 0 0 16 (fld w2.data 0 16), fld w2.data 16 16, fld w2.data 32 6,
    fld w2.data 48 11, bit w2.data 59,
    decide (fld w0.data 48 16 ≠ 0) || decide (fld w1.data 48 16 ≠ 0) || decide (fld w2.data 38 10 ≠ 0)
      || decide (fld w2.data 60 4 ≠ 0), w3⟩

/-- The request of the mint-request read (R55): a 32-byte capability load. -/
def mintReadReq : Req := ⟨.capld, [.R, .LC], ⟨true, false, false⟩, 32, 32, true, false, false⟩

/-- The checks of R56 on a request against its parent, in the order of the pseudocode. -/
def MintReq.bad (q : MintReq) (p : Grant) (parent request : Word) : Option Exc :=
  if q.reserved then some (permExc request)
  else if ! (decide (p.base ≤ q.base) && decide (q.base < q.limit) && decide (q.limit ≤ p.limit)) then
    some (.viol .capBounds 0 .noacc .cap 0 parent.cursor)
  else if q.perms &&& ~~~p.perms ≠ 0 then some (permExc parent)
  else if p.colour ≠ 0 ∧ q.colour ≠ p.colour then some (permExc parent)
  else if q.tsel ∧ ! parent.tsel then some (permExc parent)
  else none

/-- The sealing part of R56, for OTYPE ≠ 0. -/
def Mach.mintSeal (m : Mach) (c : Nat) (q : MintReq) (request : Word) : Except Exc Mach :=
  match m.liveOp c q.w3 with
  | .error e => .error e
  | .ok (s, _, m1) =>
    if s.otype ≠ 0 ∨ ! s.has .SE then .error (permExc q.w3)
    else if q.otype < s.base ∨ s.limit ≤ q.otype ∨ q.w3.cursor ≠ q.otype then .error (permExc q.w3)
    else if 0xFFF0 ≤ q.otype ∨ q.index % 2 ≠ 0 then .error (permExc request)
    else .ok m1

/-- The atomic action of R56 at the home of the entry's line: BUSY, EXHAUSTED, or the new entry or pair. -/
def Mach.mintWrite (m : Mach) (c : Nat) (q : MintReq) (pa : Nat) : Word × Mach :=
  let e := m.readGrant pa
  let e2 := m.readGrant (pa + 32)
  let pair := decide (q.otype ≠ 0)
  if e.valid || (pair && e2.valid) then (.plain 1, m)
  else if e.exh || (pair && e2.exh) then (.plain 2, m)
  else
    let g := if pair then max e.gen e2.gen else e.gen
    let new : Grant := ⟨q.base, q.limit, q.perms, 0, q.colour, g, false, true, (m.core c).cmpid⟩
    if pair then
      (.cap q.base (q.index + 1) q.tsel g,
        (m.writeGrant (coreStop c) (coreUnit c) pa new).writeGrant (coreStop c) (coreUnit c) (pa + 32)
          { new with otype := q.otype })
    else (.cap q.base q.index q.tsel g, m.writeGrant (coreStop c) (coreUnit c) pa new)

/-- GMINT from the checked request on (R56). -/
def Mach.mintChecked (m : Mach) (c d : Nat) (q : MintReq) (p : Grant) (parent request : Word) : Res :=
  match q.bad p parent request with
  | some e => .trap e
  | none =>
    match (if q.otype ≠ 0 then m.mintSeal c q request else .ok m) with
    | .error e => .trap e
    | .ok m1 =>
      match m1.entryPa c q.tsel q.index with
      | .error s =>
        .trap ⟨.capGrant, 3, some .noacc, if s.isSome then .carve else .cap, 0, parent.cursor, s, none, none⟩
      | .ok (pa, m2) =>
        let r := m2.mintWrite c q pa
        .ok (r.2.setG c d r.1)

/-- GMINT (R55, R56). -/
def gmint (c : Nat) (d a b : BitVec 6) (m : Mach) : Mach :=
  m.instr c [] (fun m =>
    let x := m.g c a.toNat
    let y := m.g c b.toNat
    match m.liveOp c x with
    | .error e => .trap e
    | .ok (p, _, m1) =>
      if p.otype ≠ 0 ∨ ! p.has .GM then .trap (permExc x)
      else if y.poison then .trap (.plain .poison 1 0)
      else match m1.firstPiece c y y.cursor mintReadReq with
      | .error e => .trap e
      | .ok (pc, m2) =>
        let m3 := (m2.loadSide c pc).readUpsets (some c) false pc.pa 32
        let w := fun i => m3.coreWord c (pc.pa + 8 * i)
        if (w 0).poison || (w 1).poison || (w 2).poison then .trap (.plain .poison 1 (vaWord y.cursor))
        else m3.mintChecked c d.toNat (.ofWords (w 0) (w 1) (w 2) (w 3)) p x y)

/-- GREVOKE (R64): a poisoned operand or an untagged target faults; a target that is not live gives status 1; authority is
RV over the range or the target's OWNER. -/
def grevoke (c : Nat) (d a b : BitVec 6) (m : Mach) : Mach :=
  m.instr c [] (fun m =>
    let x := m.g c a.toNat
    let y := m.g c b.toNat
    if x.poison || y.poison then .trap (.plain .poison 1 0)
    else if ! x.tag then .trap (.viol .capTag 2 .noacc .cap 0 x.cursor)
    else match m.entry c x.tsel x.index with
    | .error s => .trap ⟨.capGrant, 3, some .noacc, if s.isSome then .carve else .cap, 0, x.cursor, s, none, none⟩
    | .ok (t, pa, m1) =>
      if ! t.valid ∨ t.gen ≠ x.gen then .ok (m1.setG c d.toNat (.plain 1))
      else match m1.live c y .noacc 0 y.cursor with
      | .error _ => .trap (permExc y)
      | .ok (r, _, m2) =>
        if r.otype = 0 ∧ ((r.has .RV ∧ r.base ≤ t.base ∧ t.limit ≤ r.limit) ∨ t.owner = (m2.core c).cmpid) then
          .ok ((m2.revoke (coreStop c) (coreUnit c) pa false).setG c d.toNat (.plain 0))
        else .trap (permExc y))

/-- CSETC, CSETC.A and CSETC.SR after their operands are read (R58): the new CURSOR, or a fault. -/
def csetOf (x y : Word) (absolute : Bool) : Except Exc Word :=
  if x.poison || y.poison then .error (.plain .poison 1 0)
  else if ! x.tag then .error (.viol .capTag 2 .noacc .cap 0 x.cursor)
  else .ok (x.withCursor (if absolute then fld y.data 0 48 else x.cursor + fld y.data 0 48))

/-- CSETC and CSETC.A (R58). -/
def csetc (c : Nat) (d a b : BitVec 6) (absolute : Bool) (m : Mach) : Mach :=
  m.instr c [] (fun m =>
    match csetOf (m.g c a.toNat) (m.g c b.toNat) absolute with
    | .error e => .trap e
    | .ok w => m.result c d.toNat w)

/-- CSETC.SR (R58): state register 3 is SAVECAP, 4 is EVCAP; any other number is ILLEGAL. -/
def csetcSr (c : Nat) (n a b : BitVec 6) (m : Mach) : Mach :=
  m.instr c [] (fun m =>
    if n ≠ 3 ∧ n ≠ 4 then .trap (m.illegal c 0)
    else match csetOf (m.g c a.toNat) (m.g c b.toNat) false with
    | .error e => .trap e
    | .ok w => .ok (m.setCore c (if n = 3 then { m.core c with savecap := w } else { m.core c with evcap := w })))

/-- The other half of a pair for CSEAL (`up`) and CUNSEAL (R57). -/
def Mach.sealMove (m : Mach) (c d : Nat) (up : Bool) (x y : Word) (g s : Grant) (pa : Nat) : Res :=
  let o := if up then pa + 32 else pa - 32
  let e := m.readGrant o
  let parity := decide (x.index % 2 = 0) == up
  let own := decide (g.otype = 0) == up
  let t := y.cursor
  let auth := decide (s.otype = 0) && s.has (if up then .SE else .US) && decide (s.base ≤ t) && decide (t < s.limit)
  let types := if up then decide (e.otype = t) else decide (g.otype = t) && decide (e.otype = 0)
  if ! parity || ! own then .trap (permExc x)
  else if ! auth || (! up && decide (g.otype ≠ t)) then .trap (permExc y)
  else if ! e.valid || ! types || ! g.twin e then .trap (permExc x)
  else .ok (m.setG c d (x.withIndex (if up then x.index + 1 else x.index - 1)))

/-- CSEAL and CUNSEAL (R57). -/
def sealInstr (c : Nat) (d a b : BitVec 6) (up : Bool) (m : Mach) : Mach :=
  m.instr c [] (fun m =>
    let x := m.g c a.toNat
    let y := m.g c b.toNat
    match m.liveOp c x with
    | .error e => .trap e
    | .ok (g, pa, m1) =>
      match m1.liveOp c y with
      | .error e => .trap e
      | .ok (s, _, m2) => m2.sealMove c d.toNat up x y g s pa)

/-- The word that CTEST writes (R58). -/
def Mach.ctestWord (m : Mach) (c : Nat) (x : Word) : W64 :=
  let base := setFld (setBit (setBit 0 0 x.tag) 1 x.poison) 2 6 x.colour.toNat
  match m.entry c x.tsel x.index with
  | .error _ => base
  | .ok (g, _, _) =>
    let w := setBit base 10 g.exh
    if x.tag && g.valid && decide (g.gen = x.gen) then
      setFld (setFld (setBit (setBit w 8 true) 9 (decide (g.otype ≠ 0))) 16 16 (fld g.perms 0 16)) 32 16 g.otype
    else w

/-- CTEST (R58): it never faults. -/
def ctest (c : Nat) (d a : BitVec 6) (m : Mach) : Mach :=
  m.instr c [] (fun m => m.result c d.toNat (.plain (m.ctestWord c (m.g c a.toNat))))

/-- GMINT (R56). Mints a grant entry, or a sealed pair. -/
def execGmint (c : Nat) (d a b : BitVec 6) (s : State) : Out := s.upd (gmint c d a b)

/-- GREVOKE (R64). Revokes a grant entry. -/
def execGrevoke (c : Nat) (d a b : BitVec 6) (s : State) : Out := s.upd (grevoke c d a b)

/-- CSETC (R58). Adds an offset to the CURSOR. -/
def execCsetc (c : Nat) (d a b : BitVec 6) (s : State) : Out := s.upd (csetc c d a b false)

/-- CSETC.A (R58). Sets the CURSOR. -/
def execCsetcA (c : Nat) (d a b : BitVec 6) (s : State) : Out := s.upd (csetc c d a b true)

/-- CSETC.SR (R58). CSETC into SAVECAP or EVCAP. -/
def execCsetcSr (c : Nat) (n a b : BitVec 6) (s : State) : Out := s.upd (csetcSr c n a b)

/-- CSEAL (R57). Moves to the sealed half. -/
def execCseal (c : Nat) (d a b : BitVec 6) (s : State) : Out := s.upd (sealInstr c d a b true)

/-- CUNSEAL (R57). Moves to the unsealed twin. -/
def execCunseal (c : Nat) (d a b : BitVec 6) (s : State) : Out := s.upd (sealInstr c d a b false)

/-- CGATE (R61). Enters a compartment through a gate. -/
def execCgate (c : Nat) (a : BitVec 6) (s : State) : Out := s.upd (cgate c a)

/-- CRETG (R62, R192). Returns from an exception or from a gate. -/
def execCretg (c : Nat) (s : State) : Out := s.upd (cretg c)

/-- CTEST (R58). Reports on a capability. -/
def execCtest (c : Nat) (d a : BitVec 6) (s : State) : Out := s.upd (ctest c d a)

end Sys2Proof.Machine
end

