-- ==== Sys2Proof/Machine/Fp.lean ====
section
/-!
DEFINITION. IEEE 754-2019 arithmetic on bit patterns (R90 to R92): operands are unpacked to exact values, computed
exactly, and rounded once.
-/

namespace Sys2Proof.Machine.Fp

/-- A binary format: exponent bits and fraction bits (R90). -/
structure Fmt where
  eb : Nat
  mb : Nat
  deriving DecidableEq, Repr

/-- binary64. -/
def f64 : Fmt := ⟨11, 52⟩
/-- binary32. -/
def f32 : Fmt := ⟨8, 23⟩
/-- binary16. -/
def f16 : Fmt := ⟨5, 10⟩
/-- bfloat16. -/
def bf16 : Fmt := ⟨8, 7⟩

/-- Bits of the format. -/
def Fmt.width (f : Fmt) : Nat := 1 + f.eb + f.mb
/-- The exponent bias. -/
def Fmt.bias (f : Fmt) : Int := 2 ^ (f.eb - 1) - 1
/-- The canonical quiet NaN (R90). -/
def Fmt.qnan (f : Fmt) : Nat := (2 ^ f.eb - 1) * 2 ^ f.mb + 2 ^ (f.mb - 1)
/-- Infinity of a sign. -/
def Fmt.inf (f : Fmt) (s : Bool) : Nat := (if s then 2 ^ (f.eb + f.mb) else 0) + (2 ^ f.eb - 1) * 2 ^ f.mb
/-- Zero of a sign. -/
def Fmt.zero (f : Fmt) (s : Bool) : Nat := if s then 2 ^ (f.eb + f.mb) else 0
/-- The largest finite number of a sign. -/
def Fmt.maxFin (f : Fmt) (s : Bool) : Nat := Fmt.inf f s - 1

/-- An unpacked operand: a NaN (signalling or quiet), an infinity, or the exact value (−1)^s · m · 2^e. -/
inductive Val where
  | nan (signalling : Bool)
  | inf (s : Bool)
  | fin (s : Bool) (m : Nat) (e : Int)
  deriving DecidableEq, Repr

/-- Unpack the low bits of a pattern. -/
def unpack (f : Fmt) (b : Nat) : Val :=
  let s := b.testBit (f.eb + f.mb)
  let x := b / 2 ^ f.mb % 2 ^ f.eb
  let fr := b % 2 ^ f.mb
  if x = 2 ^ f.eb - 1 then
    if fr = 0 then .inf s else .nan (! fr.testBit (f.mb - 1))
  else if x = 0 then .fin s fr (1 - f.bias - f.mb)
  else .fin s (fr + 2 ^ f.mb) ((x : Int) - f.bias - f.mb)

/-- Whether rounding goes away from zero (R72): `odd` is the last kept bit, `rem` of `2 * half` is cut off. -/
def roundsUp (rm : Nat) (s odd : Bool) (rem half : Nat) : Bool :=
  if rm = 0 then decide (half < rem) || (decide (rem = half) && odd)
  else if rm = 1 then false
  else if rm = 2 then s && decide (rem ≠ 0)
  else if rm = 3 then ! s && decide (rem ≠ 0)
  else decide (half ≤ rem)

/-- Cut `m · 2^e` to a multiple of `2^q`: the kept significand after rounding, and whether it was inexact. -/
def cut (rm : Nat) (s : Bool) (m : Nat) (e q : Int) : Nat × Bool :=
  if q ≤ e then (m * 2 ^ (e - q).toNat, false)
  else
    let k := (q - e).toNat
    let kept := m / 2 ^ k
    let rem := m % 2 ^ k
    (if roundsUp rm s (kept % 2 = 1) rem (2 ^ (k - 1)) then kept + 1 else kept, decide (rem ≠ 0))

/-- Round the exact non-zero value (−1)^s · m · 2^e to the format, with its flags (R90). -/
def round (f : Fmt) (rm : Nat) (s : Bool) (m : Nat) (e : Int) : Nat × Flags :=
  if m = 0 then (f.zero s, .none)
  else
    let top : Int := (Nat.log2 m : Int) + e
    let emin : Int := 1 - f.bias
    let q := max top emin - f.mb
    let (sig, nx) := cut rm s m e q
    let (sig, q) := if sig = 2 ^ (f.mb + 1) then (2 ^ f.mb, q + 1) else (sig, q)
    let x : Int := if sig < 2 ^ f.mb then 0 else q + f.mb + f.bias
    if (2 ^ f.eb - 1 : Int) ≤ x then
      let toInf := if rm = 1 then false else if rm = 2 then s else if rm = 3 then ! s else true
      (if toInf then f.inf s else f.maxFin s, ⟨false, false, true, false, true⟩)
    else
      let wide := (cut rm s m e (top - f.mb)).1
      let tinyA := decide (top < emin) && ! (decide (top = emin - 1) && decide (wide = 2 ^ (f.mb + 1)))
      let tiny := if Config.tinyAfter then tinyA else decide (top < emin)
      (f.zero s + x.toNat * 2 ^ f.mb + sig % 2 ^ f.mb, ⟨false, false, false, nx && tiny, nx⟩)

/-- Round with a remainder below the last bit of `m` (sticky). -/
def roundSticky (f : Fmt) (rm : Nat) (s : Bool) (m : Nat) (e : Int) (sticky : Bool) : Nat × Flags :=
  round f rm s (2 * m + (if sticky then 1 else 0)) (e - 1)

/-- Whether an operand is a NaN, and a signalling one. -/
def Val.isNan : Val → Bool
  | .nan _ => true
  | _ => false
/-- Whether an operand is a signalling NaN. -/
def Val.isSnan : Val → Bool
  | .nan s => s
  | _ => false
/-- The sign of a number; a NaN has none. -/
def Val.sign : Val → Bool
  | .inf s => s
  | .fin s _ _ => s
  | .nan _ => false
/-- The negated number. -/
def Val.neg : Val → Val
  | .inf s => .inf (! s)
  | .fin s m e => .fin (! s) m e
  | v => v

/-- A canonical NaN with NV where an operand signals. -/
def nanOf (f : Fmt) (nv : Bool) : Nat × Flags := (f.qnan, ⟨nv, false, false, false, false⟩)

/-- The exact sum of two finite values, rounded; an exact zero is −0 only in RDN or of two −0 (R90). -/
def addFin (f : Fmt) (rm : Nat) (s1 : Bool) (m1 : Nat) (e1 : Int) (s2 : Bool) (m2 : Nat) (e2 : Int) :
    Nat × Flags :=
  let e := min e1 e2
  let v1 : Int := (m1 * 2 ^ (e1 - e).toNat : Nat)
  let v2 : Int := (m2 * 2 ^ (e2 - e).toNat : Nat)
  let t := (if s1 then -v1 else v1) + (if s2 then -v2 else v2)
  if t = 0 then
    (f.zero (if m1 = 0 ∧ m2 = 0 ∧ s1 = s2 then s1 else decide (rm = 2)), .none)
  else round f rm (decide (t < 0)) t.natAbs e

/-- Addition (R91). -/
def add (f : Fmt) (rm : Nat) (a b : Val) : Nat × Flags :=
  match a, b with
  | .nan _, _ | _, .nan _ => nanOf f (a.isSnan || b.isSnan)
  | .inf s, .inf t => if s = t then (f.inf s, .none) else nanOf f true
  | .inf s, _ => (f.inf s, .none)
  | _, .inf t => (f.inf t, .none)
  | .fin s1 m1 e1, .fin s2 m2 e2 => addFin f rm s1 m1 e1 s2 m2 e2

/-- Multiplication (R91). -/
def mul (f : Fmt) (rm : Nat) (a b : Val) : Nat × Flags :=
  let s := a.sign != b.sign
  match a, b with
  | .nan _, _ | _, .nan _ => nanOf f (a.isSnan || b.isSnan)
  | .inf _, .inf _ => (f.inf s, .none)
  | .inf _, .fin _ m _ | .fin _ m _, .inf _ => if m = 0 then nanOf f true else (f.inf s, .none)
  | .fin _ m1 e1, .fin _ m2 e2 => round f rm s (m1 * m2) (e1 + e2)

/-- Division (R91). -/
def div (f : Fmt) (rm : Nat) (a b : Val) : Nat × Flags :=
  let s := a.sign != b.sign
  match a, b with
  | .nan _, _ | _, .nan _ => nanOf f (a.isSnan || b.isSnan)
  | .inf _, .inf _ => nanOf f true
  | .inf _, _ => (f.inf s, .none)
  | _, .inf _ => (f.zero s, .none)
  | .fin _ m1 e1, .fin _ m2 e2 =>
    if m2 = 0 then
      if m1 = 0 then nanOf f true else (f.inf s, ⟨false, true, false, false, false⟩)
    else if m1 = 0 then (f.zero s, .none)
    else
      let k := f.mb + 5 + Nat.log2 m2
      let n := m1 * 2 ^ k
      roundSticky f rm s (n / m2) (e1 - e2 - k) (decide (n % m2 ≠ 0))

/-- The integer square root of `n`, of `k` bits. -/
def isqrt (n : Nat) : Nat → Nat → Nat
  | 0, r => r
  | k + 1, r => isqrt n k (if (r + 2 ^ k) * (r + 2 ^ k) ≤ n then r + 2 ^ k else r)

/-- Square root (R91). -/
def sqrt (f : Fmt) (rm : Nat) (a : Val) : Nat × Flags :=
  match a with
  | .nan q => nanOf f q
  | .inf s => if s then nanOf f true else (f.inf false, .none)
  | .fin s m e =>
    if m = 0 then (f.zero s, .none)
    else if s then nanOf f true
    else
      let k := 2 * (f.mb + 5) + (if e % 2 = 0 then 0 else 1)
      let n := m * 2 ^ k
      let r := isqrt n (Nat.log2 n / 2 + 1) 0
      roundSticky f rm false r ((e - k) / 2) (decide (r * r ≠ n))

/-- a · b + c, rounded once (R91). -/
def fma (f : Fmt) (rm : Nat) (a b c : Val) : Nat × Flags :=
  let s := a.sign != b.sign
  let infZero := match a, b with
    | .inf _, .fin _ m _ | .fin _ m _, .inf _ => decide (m = 0)
    | _, _ => false
  if a.isNan || b.isNan || c.isNan then
    nanOf f (a.isSnan || b.isSnan || c.isSnan || (infZero && Config.fmaInfZeroNan))
  else if infZero then nanOf f true
  else match a, b, c with
  | .fin _ m1 e1, .fin _ m2 e2, .fin s3 m3 e3 =>
    if m1 * m2 = 0 ∧ m3 ≠ 0 then round f rm s3 m3 e3
    else addFin f rm s (m1 * m2) (e1 + e2) s3 m3 e3
  | .fin _ _ _, .fin _ _ _, .inf t => (f.inf t, .none)
  | _, _, .inf t => if s = t then (f.inf s, .none) else nanOf f true
  | _, _, _ => (f.inf s, .none)

/-- The order of two numbers: less, and equal; −0 equals +0. -/
def lessEq (a b : Val) : Bool × Bool :=
  match a, b with
  | .inf s, .inf t => (s && ! t, s == t)
  | .inf s, _ => (s, false)
  | _, .inf t => (! t, false)
  | .fin s1 m1 e1, .fin s2 m2 e2 =>
    let e := min e1 e2
    let v1 : Int := (m1 * 2 ^ (e1 - e).toNat : Nat)
    let v2 : Int := (m2 * 2 ^ (e2 - e).toNat : Nat)
    let x := if s1 then -v1 else v1
    let y := if s2 then -v2 else v2
    (decide (x < y), decide (x = y))
  | _, _ => (false, false)

/-- minimumNumber and maximumNumber on patterns (R91): a number wins over a NaN, −0 is below +0, and only a
signalling NaN signals. -/
def minMax (f : Fmt) (wantMax : Bool) (pa pb : Nat) : Nat × Flags :=
  let a := unpack f pa
  let b := unpack f pb
  let fl : Flags := ⟨a.isSnan || b.isSnan, false, false, false, false⟩
  if a.isNan && b.isNan then (f.qnan, fl)
  else if a.isNan then (pb, fl)
  else if b.isNan then (pa, fl)
  else
    let (lt, eq) := lessEq a b
    let aLess := lt || (eq && a.sign && ! b.sign)
    (if aLess != wantMax then pa else pb, fl)

/-- FEQ, FLT and FLE (R91): FEQ is quiet, the others signal NV on any NaN. -/
def compare (a b : Val) (wantLt wantEq quiet : Bool) : Bool × Flags :=
  if a.isNan || b.isNan then
    (false, ⟨if quiet then a.isSnan || b.isSnan else true, false, false, false, false⟩)
  else
    let (lt, eq) := lessEq a b
    ((lt && wantLt) || (eq && wantEq), .none)

/-- The class bit of FCLASS (R91). -/
def classBit (f : Fmt) (b : Nat) : Nat :=
  match unpack f b with
  | .nan s => if s then 8 else 9
  | .inf s => if s then 0 else 7
  | .fin s m _ =>
    if m = 0 then (if s then 3 else 4)
    else if m < 2 ^ f.mb then (if s then 2 else 5)
    else (if s then 1 else 6)

/-- An integer to the format (R92). -/
def ofInt (f : Fmt) (rm : Nat) (i : Int) : Nat × Flags := round f rm (decide (i < 0)) i.natAbs 0

/-- A number to an integer in [lo, hi], saturating with NV; a NaN gives `hi` (R92). -/
def toInt (rm : Nat) (lo hi : Int) (a : Val) : Int × Flags :=
  match a with
  | .nan _ => (hi, .invalid)
  | .inf s => (if s then lo else hi, .invalid)
  | .fin s m e =>
    let (n, nx) := cut rm s m e 0
    let v : Int := if s then -(n : Int) else n
    if v < lo then (lo, .invalid)
    else if hi < v then (hi, .invalid)
    else (v, ⟨false, false, false, false, nx⟩)

/-- One format to another (R92). -/
def convert (f : Fmt) (rm : Nat) (a : Val) : Nat × Flags :=
  match a with
  | .nan q => nanOf f q
  | .inf s => (f.inf s, .none)
  | .fin s m e => round f rm s m e

end Sys2Proof.Machine.Fp
end

