-- ==== Sys2Proof/Machine/Operands.lean ====
section
/-!
DEFINITION. Operand forms: how an instruction of each format of R74 reads its registers, computes, and writes its
result with the metadata of R34.
-/

namespace Sys2Proof.Machine

/-- A result word: TAG 0, COLOUR 0, POISON as given (R34). -/
def resWord (d : W64) (poison : Bool) : Word := ⟨d, false, poison, 0⟩

/-- Two register sources (format R): POISON is the OR of both (R34). -/
def alu2 (c : Nat) (d a b : BitVec 6) (f : W64 → W64 → W64) (m : Mach) : Mach :=
  m.instr c [] (fun m =>
    let x := m.g c a.toNat
    let y := m.g c b.toNat
    m.result c d.toNat (resWord (f x.data y.data) (x.poison || y.poison)))

/-- One register source. -/
def alu1 (c : Nat) (d a : BitVec 6) (f : W64 → W64) (m : Mach) : Mach :=
  m.instr c [] (fun m =>
    let x := m.g c a.toNat
    m.result c d.toNat (resWord (f x.data) x.poison))

/-- Three sources: the old destination, srcA and srcB (CSEL, PKSEL). -/
def alu3 (c : Nat) (d a b : BitVec 6) (f : W64 → W64 → W64 → W64) (m : Mach) : Mach :=
  m.instr c [] (fun m =>
    let x := m.g c a.toNat
    let y := m.g c b.toNat
    let z := m.g c d.toNat
    m.result c d.toNat (resWord (f z.data x.data y.data) (x.poison || y.poison || z.poison)))

/-- One register source that may be an ILLEGAL form (R75). -/
def alu1If (legal : Bool) (c : Nat) (d a : BitVec 6) (f : W64 → W64) (m : Mach) : Mach :=
  m.instr c [] (fun m =>
    if ! legal then .trap (m.illegal c 0)
    else
      let x := m.g c a.toNat
      m.result c d.toNat (resWord (f x.data) x.poison))

/-- Two register sources that may be an ILLEGAL form (R75). -/
def alu2If (legal : Bool) (c : Nat) (d a b : BitVec 6) (f : W64 → W64 → W64) (m : Mach) : Mach :=
  m.instr c [] (fun m =>
    if ! legal then .trap (m.illegal c 0)
    else
      let x := m.g c a.toNat
      let y := m.g c b.toNat
      m.result c d.toNat (resWord (f x.data y.data) (x.poison || y.poison)))

/-- Sign extension of the low `n` bits (R77, R79). -/
def sextN (n : Nat) (v : W64) : W64 := (v <<< (64 - n)).sshiftRight (64 - n)
/-- The low `n` bits. -/
def zextN (n : Nat) (v : W64) : W64 := (v <<< (64 - n)) >>> (64 - n)
/-- A signed immediate (R74). -/
def imm64 {n : Nat} (i : BitVec n) : W64 := i.signExtend 64

/-! ### The operations of R77 to R79 -/

/-- Shift amounts are srcB[5:0] (R77). -/
def sh6 (y : W64) : Nat := fld y 0 6
/-- Left shift. -/
def opShl (x y : W64) : W64 := x <<< sh6 y
/-- Logical right shift. -/
def opShr (x y : W64) : W64 := x >>> sh6 y
/-- Arithmetic right shift. -/
def opSra (x y : W64) : W64 := x.sshiftRight (sh6 y)
/-- Rotate right. -/
def opRor (x y : W64) : W64 := x.rotateRight (sh6 y)
/-- Signed less-than. -/
def opSlt (x y : W64) : W64 := ofBool (x.slt y)
/-- Unsigned less-than. -/
def opSltu (x y : W64) : W64 := ofBool (x.ult y)
/-- Signed minimum. -/
def opMin (x y : W64) : W64 := if x.slt y then x else y
/-- Signed maximum. -/
def opMax (x y : W64) : W64 := if x.slt y then y else x
/-- Unsigned minimum. -/
def opMinu (x y : W64) : W64 := if x.ult y then x else y
/-- Unsigned maximum. -/
def opMaxu (x y : W64) : W64 := if x.ult y then y else x
/-- Leading zero bits; 64 for 0. -/
def opClz (x : W64) : W64 := BitVec.ofNat 64 (if x = 0 then 64 else 63 - Nat.log2 x.toNat)
/-- Trailing zero bits; 64 for 0. -/
def opCtz (x : W64) : W64 := BitVec.ofNat 64 (((List.range 64).find? (fun i => bit x i)).getD 64)
/-- One bits. -/
def opPopc (x : W64) : W64 := BitVec.ofNat 64 ((List.range 64).filter (fun i => bit x i)).length
/-- The bytes in reverse order. -/
def opBswap (x : W64) : W64 := (List.range 8).foldl (fun v i => setFld v (8 * i) 8 (fld x (8 * (7 - i)) 8)) 0
/-- High 64 bits of an exact product. -/
def highBits (p : Int) : W64 := BitVec.ofInt 64 (p / (2 ^ 64 : Int))
/-- MULH (R78). -/
def opMulh (x y : W64) : W64 := highBits (x.toInt * y.toInt)
/-- MULHU (R78). -/
def opMulhu (x y : W64) : W64 := highBits ((x.toNat : Int) * y.toNat)
/-- MULHSU (R78): signed srcA by unsigned srcB. -/
def opMulhsu (x y : W64) : W64 := highBits (x.toInt * y.toNat)
/-- DIV (R78): a zero divisor gives all ones; −2⁶³ ÷ −1 gives −2⁶³. -/
def opDiv (x y : W64) : W64 := if y = 0 then BitVec.allOnes 64 else BitVec.ofInt 64 (x.toInt.tdiv y.toInt)
/-- DIVU (R78). -/
def opDivu (x y : W64) : W64 := if y = 0 then BitVec.allOnes 64 else BitVec.ofNat 64 (x.toNat / y.toNat)
/-- REM (R78): the sign of srcA; a zero divisor gives srcA. -/
def opRem (x y : W64) : W64 := if y = 0 then x else BitVec.ofInt 64 (x.toInt.tmod y.toInt)
/-- REMU (R78). -/
def opRemu (x y : W64) : W64 := if y = 0 then x else BitVec.ofNat 64 (x.toNat % y.toNat)
/-- SHIFTI (R79): imm[13:12] selects, imm[5:0] is the amount. -/
def opShifti (imm : BitVec 14) (x : W64) : W64 :=
  let k : W64 := BitVec.ofNat 64 (imm.toNat % 64)
  match imm.toNat / 4096 with
  | 0 => opShl x k | 1 => opShr x k | 2 => opSra x k | _ => opRor x k
/-- BFX (R79): the field at imm[11:6], imm[5:0] + 1 bits wide, cut at bit 63, zero- or sign-extended by imm[12]. -/
def opBfx (imm : BitVec 14) (x : W64) : W64 :=
  let lo := imm.toNat / 64 % 64
  let w := min (imm.toNat % 64 + 1) (64 - lo)
  let v : W64 := BitVec.ofNat 64 (fld x lo w)
  if imm.getLsbD 12 then sextN w v else v

end Sys2Proof.Machine
end

