-- ==== Sys2Proof/Machine/Memory.lean ====
section
/-!
DEFINITION. Loads, stores, atomics, LDC and STC (R58, R80 to R84).
-/

namespace Sys2Proof.Machine

/-- The request of a load of `n` bytes (R51). -/
def loadReq (n : Nat) : Req := ⟨.read, [.R], ⟨true, false, false⟩, 1, n, true, false, false⟩
/-- The request of a store of `n` bytes. -/
def storeReq (n : Nat) : Req := ⟨.write, [.W], ⟨false, true, false⟩, 1, n, true, false, false⟩
/-- The request of an atomic: R and W, 8-byte aligned (R82). -/
def atomicReq : Req := ⟨.atomic, [.R, .W], ⟨true, true, false⟩, 8, 8, true, false, false⟩
/-- The request of LDC (R51). -/
def ldcReq : Req := ⟨.capld, [.R], ⟨true, false, false⟩, 8, 8, true, false, false⟩
/-- The request of STC: a tagged source needs SC beside W (R51, R58). -/
def stcReq (tagged : Bool) : Req :=
  ⟨.capst, if tagged then [.W, .SC] else [.W], ⟨false, true, false⟩, 8, 8, true, false, false⟩

/-- A poisoned address operand traps at step 1 of R51, word 2 being 0 (R88, R187). -/
def addrPoison : Exc := .plain .poison 1 0

/-- Whether a checked access lies in a root-port range, and where. -/
def Mach.rpPiece (m : Mach) (p : Piece) : Option (Nat × Nat) :=
  match m.locate p.pa with
  | .rp r off => some (r, off)
  | _ => none

/-- Whether a checked access lies in a doorbell page. -/
def Mach.bellPiece (m : Mach) (p : Piece) : Bool :=
  match m.locate p.pa with
  | .bell _ _ => true
  | _ => false

/-- Count a core access to a root-port range at its host I/O group (R508 HIO_CORE). -/
def Mach.countRp (m : Mach) (c r pa : Nat) : Mach :=
  m.countUncore (rpStop r)
    ⟨0x2A3, (m.core c).world, none, some (coreStop c, coreUnit c), some pa⟩ 1

/-- A load that lies in a root-port range (R478): lost at once on a link that is down, else the core waits for the
completion. -/
def Mach.rpLoad (m : Mach) (c d r : Nat) (p : Piece) (n : Nat) (signed : Bool) : Res :=
  let m1 := m.countRp c r p.pa
  if bit (m.reg (rpStop r) (rpWin r) 0x48) 0 then
    .wait (m1.setCore c { m1.core c with rpWait := some ⟨some d, false, p.pa, p.va, n, signed⟩ })
  else
    let m2 := m1.countReg (rpStop r) (rpWin r) 0x48 32 16 1
    let ones := if signed then BitVec.allOnes 64 else BitVec.ofNat 64 (2 ^ (8 * n) - 1)
    .ok (m2.setG c d ⟨ones, false, true, 0⟩)

/-- The parts of a load read in order: value, POISON of every part, and COLOUR where all agree (R34, R84). -/
def Mach.readPieces (m : Mach) (c : Nat) : List Piece → Nat × Bool × BitVec 6
  | [] => (0, false, 0)
  | [p] => m.coreLoad c p.pa p.n
  | p :: ps =>
    let x := m.coreLoad c p.pa p.n
    let y := m.readPieces c ps
    (x.1 + 2 ^ (8 * p.n) * y.1, x.2.1 || y.2.1, if x.2.2 = y.2.2 then x.2.2 else 0)

/-- What the caches and the stored-data codes do for each part of a load (R159 to R163, R312). -/
def Mach.loadSides (m : Mach) (c : Nat) (ps : List Piece) : Mach :=
  ps.foldl (fun acc p => (acc.loadSide c p).readUpsets (some c) false p.pa p.n) m

/-- Whether a word of a core's LDC or STC loses its tag to a sweep that runs (R69 item 2). -/
def Mach.untagSwept (m : Mach) (c : Nat) (w : Word) : Word :=
  m.sweepsRun.foldl (fun w q => (m.core c).sweepWord q w) w

/-- The load of a checked access (R34, R80, R478). An ordinary load of a doorbell page has no value in the spec: a
free value (log entry 8). `cap` keeps TAG, for LDC. -/
def Mach.loadChecked (m : Mach) (c d : Nat) (ps : List Piece) (n : Nat) (signed cap : Bool) : Res :=
  match ps with
  | [] => .ok m
  | p :: _ =>
    match m.rpPiece p with
    | some (r, _) => m.rpLoad c d r p n signed
    | none =>
      if m.bellPiece p then .ok (m.drawn.setG c d (.plain (zextN (8 * n) m.fresh)))
      else
        let m1 := m.loadSides c ps
        let x := m1.readPieces c ps
        let v := BitVec.ofNat 64 x.1
        let tag := cap && (m1.coreWord c p.pa).tag
        .ok (m1.setG c d (m1.untagSwept c ⟨if signed then sextN (8 * n) v else v, tag, x.2.1, x.2.2⟩))

/-- A load of `n` bytes at `ea` through `cap` (R80, R81, R84). -/
def loadBody (c : Nat) (d : BitVec 6) (cap : Word) (idxPoison : Bool) (ea : Int) (n : Nat) (signed : Bool)
    (m : Mach) : Res :=
  if cap.poison || idxPoison then .trap addrPoison
  else match m.check c cap ea (loadReq n) with
  | .error e => .trap e
  | .ok (ps, g, m1) =>
    match m1.refuseFirst c g .read ps with
    | some e => .trap e
    | none => m1.loadChecked c d.toNat ps n signed false

/-- A load with an immediate offset (format I). -/
def loadImm (c : Nat) (d a : BitVec 6) (off : Int) (n : Nat) (signed : Bool) (m : Mach) : Mach :=
  m.instr c [0x005] (fun m =>
    let x := m.g c a.toNat
    loadBody c d x false (x.cursor + off) n signed m)

/-- A load with an index register: the signed payload of srcB (R80). -/
def loadIdx (c : Nat) (d a b : BitVec 6) (n : Nat) (signed : Bool) (m : Mach) : Mach :=
  m.instr c [0x005] (fun m =>
    let x := m.g c a.toNat
    let y := m.g c b.toNat
    loadBody c d x y.poison (x.cursor + y.data.toInt) n signed m)

/-- The parts of a checked store, lower first: a part that its target refuses is discarded and held as the refused
store (R24, R84 item 6, R200), any other is written. A C-core's store to a page that is not DEVICE went through the merging buffer, so
its refusal gives the physical address. -/
def Mach.storePieces (m : Mach) (c : Nat) (g : Grant) (a : Acc) (v : Nat) (poison : Bool) : List Piece → Mach
  | [] => m
  | p :: ps =>
    let rest := v / 256 ^ p.n
    match m.refusal c g false p.pa with
    | some (r, st, k) =>
      let phys := isC c && decide (p.pt ≠ 2)
      let m1 := (m.logSite c st k p.pa a r).holdRefused c ⟨.capPerm, r, a, if phys then p.pa else p.va, phys, false⟩
      m1.storePieces c g a rest poison ps
    | none =>
      let m1 := match m.rpPiece p with
        | some (r, _) => m.countRp c r p.pa
        | none => m.storePiece c p (v % 256 ^ p.n) poison
      m1.storePieces c g a rest poison ps

/-- A store of `n` bytes at `ea` through `cap` (R80, R81, R84). -/
def storeBody (c : Nat) (src : Word) (cap : Word) (idxPoison : Bool) (ea : Int) (n : Nat) (m : Mach) : Res :=
  if cap.poison || idxPoison then .trap addrPoison
  else match m.check c cap ea (storeReq n) with
  | .error e => .trap e
  | .ok (ps, g, m1) =>
    if m1.mirrorFull c ps then .wait m1
    else .ok (m1.storePieces c g .write (src.data.toNat % 256 ^ n) src.poison ps)

/-- A store with an immediate offset. -/
def storeImm (c : Nat) (src a : BitVec 6) (off : Int) (n : Nat) (m : Mach) : Mach :=
  m.instr c [0x006] (fun m =>
    let x := m.g c a.toNat
    storeBody c (m.g c src.toNat) x false (x.cursor + off) n m)

/-- A store with an index register. -/
def storeIdx (c : Nat) (src a b : BitVec 6) (n : Nat) (m : Mach) : Mach :=
  m.instr c [0x006] (fun m =>
    let x := m.g c a.toNat
    let y := m.g c b.toNat
    storeBody c (m.g c src.toNat) x y.poison (x.cursor + y.data.toInt) n m)

/-- The checked part of an atomic, after the buffered stores that precede it drained (R165) and the stored word was
checked by its code (R312). -/
def Mach.atomicReady (m : Mach) (c : Nat) (p : Piece) : Mach :=
  let m1 := if m.ownCm c p.pa then m else m.drainAll c
  m1.readUpsets (some c) false p.pa 8

/-- The write of an atomic: in the V-core's own cache on a NORMAL page, else at its home (R252). -/
def Mach.atomicWrite (m : Mach) (c pt pa : Nat) (v : W64) (poison : Bool) : Mach :=
  ((((m.ownFor c (if pt = 0 then 0 else 2) pa).putWord pa v false poison).stored pa).coreMirror c pa 8).l1Inval c (pa / 64)

/-- An atomic (R82): the new word has TAG 0 and the old COLOUR, and POISON of the old word or srcB; dst receives the
old word with TAG 0. -/
def amo (c : Nat) (d a b : BitVec 6) (f : W64 → W64 → W64) (m : Mach) : Mach :=
  m.instr c [0x005] (fun m =>
    let x := m.g c a.toNat
    let y := m.g c b.toNat
    if x.poison then .trap addrPoison
    else match m.check c x x.cursor atomicReq with
    | .error e => .trap e
    | .ok (ps, g, m1) =>
      match m1.refuseFirst c g .atomic ps, ps with
      | some e, _ => .trap e
      | none, [] => .ok m1
      | none, p :: _ =>
        let m2 := m1.atomicReady c p
        let old := m2.word p.pa
        let m3 := m2.atomicWrite c p.pt p.pa (f old.data y.data) (old.poison || y.poison)
        if m1.mirrorFull c [p] then .wait m1 else .ok (m3.setG c d.toNat ⟨old.data, false, old.poison, old.colour⟩))

/-- CAS (R82, R83): it traps POISON on a poisoned expected value or old word; on a mismatch memory is unchanged. -/
def casBody (c : Nat) (d a b : BitVec 6) (m : Mach) : Mach :=
  m.instr c [0x005] (fun m =>
    let x := m.g c a.toNat
    let y := m.g c b.toNat
    let z := m.g c d.toNat
    if x.poison then .trap addrPoison
    else match m.check c x x.cursor atomicReq with
    | .error e => .trap e
    | .ok (ps, g, m1) =>
      match m1.refuseFirst c g .atomic ps, ps with
      | some e, _ => .trap e
      | none, [] => .ok m1
      | none, p :: _ =>
        let m2 := m1.atomicReady c p
        let old := m2.word p.pa
        if m1.mirrorFull c [p] then .wait m1
        else if z.poison || old.poison then .trap (.plain .poison 0 (vaWord x.cursor))
        else
          let m3 := if old.data = z.data then m2.atomicWrite c p.pt p.pa y.data y.poison else m2
          .ok (m3.setG c d.toNat ⟨old.data, false, old.poison, old.colour⟩))

/-- LDC (R34, R58): TAG as in memory where the grant carries LC. -/
def ldcBody (c : Nat) (d a : BitVec 6) (imm : BitVec 14) (m : Mach) : Mach :=
  m.instr c [0x005] (fun m =>
    let x := m.g c a.toNat
    if x.poison then .trap addrPoison
    else match m.check c x (x.cursor + imm.toInt * 8) ldcReq with
    | .error e => .trap e
    | .ok (ps, g, m1) =>
      match m1.refuseFirst c g .capld ps with
      | some e => .trap e
      | none => m1.loadChecked c d.toNat ps 8 false (g.has .LC))

/-- STC (R34, R58): a tagged source is stored with its tag and POISON 0, an untagged one as by an 8-byte store. A
poisoned source traps POISON, with the effective address in word 2 where no address operand is poisoned. -/
def stcBody (c : Nat) (src a : BitVec 6) (imm : BitVec 14) (m : Mach) : Mach :=
  m.instr c [0x006] (fun m =>
    let x := m.g c a.toNat
    let w := m.g c src.toNat
    let ea := (x.cursor : Int) + imm.toInt * 8
    if x.poison then .trap addrPoison
    else if w.poison then .trap (.plain .poison 1 (vaWord ea))
    else match m.check c x ea (stcReq w.tag) with
    | .error e => .trap e
    | .ok (ps, g, m1) =>
      match ps with
      | [] => .ok m1
      | p :: _ =>
        let w' := m1.untagSwept c w
        if m1.mirrorFull c ps then .wait m1
        else if w'.tag && m1.isMem p.pa && (m1.refusal c g false p.pa).isNone then .ok (m1.storeWord c p.pt p.pa 8 w'.data.toNat true false)
        else .ok (m1.storePieces c g .capst w'.data.toNat false ps))

/-- LD (R81). Loads 8 byte(s). -/
def execLd (c : Nat) (d a : BitVec 6) (imm : BitVec 14) (s : State) : Out :=
  s.upd (loadImm c d a imm.toInt 8 false)

/-- LW (R81). Loads 4 byte(s), sign-extended. -/
def execLw (c : Nat) (d a : BitVec 6) (imm : BitVec 14) (s : State) : Out :=
  s.upd (loadImm c d a imm.toInt 4 true)

/-- LWU (R81). Loads 4 byte(s), zero-extended. -/
def execLwu (c : Nat) (d a : BitVec 6) (imm : BitVec 14) (s : State) : Out :=
  s.upd (loadImm c d a imm.toInt 4 false)

/-- LB (R81). Loads 1 byte(s), sign-extended. -/
def execLb (c : Nat) (d a : BitVec 6) (imm : BitVec 11) (s : State) : Out :=
  s.upd (loadImm c d a imm.toInt 1 true)

/-- LBU (R81). Loads 1 byte(s), zero-extended. -/
def execLbu (c : Nat) (d a : BitVec 6) (imm : BitVec 11) (s : State) : Out :=
  s.upd (loadImm c d a imm.toInt 1 false)

/-- LH (R81). Loads 2 byte(s), sign-extended. -/
def execLh (c : Nat) (d a : BitVec 6) (imm : BitVec 11) (s : State) : Out :=
  s.upd (loadImm c d a imm.toInt 2 true)

/-- LHU (R81). Loads 2 byte(s), zero-extended. -/
def execLhu (c : Nat) (d a : BitVec 6) (imm : BitVec 11) (s : State) : Out :=
  s.upd (loadImm c d a imm.toInt 2 false)

/-- SD (R81). Stores 8 byte(s). -/
def execSd (c : Nat) (src a : BitVec 6) (imm : BitVec 14) (s : State) : Out :=
  s.upd (storeImm c src a imm.toInt 8)

/-- SW (R81). Stores 4 byte(s). -/
def execSw (c : Nat) (src a : BitVec 6) (imm : BitVec 14) (s : State) : Out :=
  s.upd (storeImm c src a imm.toInt 4)

/-- SB (R81). Stores 1 byte(s). -/
def execSb (c : Nat) (src a : BitVec 6) (imm : BitVec 11) (s : State) : Out :=
  s.upd (storeImm c src a imm.toInt 1)

/-- SH (R81). Stores 2 byte(s). -/
def execSh (c : Nat) (src a : BitVec 6) (imm : BitVec 11) (s : State) : Out :=
  s.upd (storeImm c src a imm.toInt 2)

/-- LBX (R81). Loads 1 byte(s) with an index. -/
def execLbx (c : Nat) (d a b : BitVec 6) (s : State) : Out :=
  s.upd (loadIdx c d a b 1 true)

/-- LBUX (R81). Loads 1 byte(s) with an index. -/
def execLbux (c : Nat) (d a b : BitVec 6) (s : State) : Out :=
  s.upd (loadIdx c d a b 1 false)

/-- LHX (R81). Loads 2 byte(s) with an index. -/
def execLhx (c : Nat) (d a b : BitVec 6) (s : State) : Out :=
  s.upd (loadIdx c d a b 2 true)

/-- LHUX (R81). Loads 2 byte(s) with an index. -/
def execLhux (c : Nat) (d a b : BitVec 6) (s : State) : Out :=
  s.upd (loadIdx c d a b 2 false)

/-- LWX (R81). Loads 4 byte(s) with an index. -/
def execLwx (c : Nat) (d a b : BitVec 6) (s : State) : Out :=
  s.upd (loadIdx c d a b 4 true)

/-- LWUX (R81). Loads 4 byte(s) with an index. -/
def execLwux (c : Nat) (d a b : BitVec 6) (s : State) : Out :=
  s.upd (loadIdx c d a b 4 false)

/-- LDX (R81). Loads 8 byte(s) with an index. -/
def execLdx (c : Nat) (d a b : BitVec 6) (s : State) : Out :=
  s.upd (loadIdx c d a b 8 false)

/-- SBX (R81). Stores 1 byte(s) with an index. -/
def execSbx (c : Nat) (src a b : BitVec 6) (s : State) : Out :=
  s.upd (storeIdx c src a b 1)

/-- SHX (R81). Stores 2 byte(s) with an index. -/
def execShx (c : Nat) (src a b : BitVec 6) (s : State) : Out :=
  s.upd (storeIdx c src a b 2)

/-- SWX (R81). Stores 4 byte(s) with an index. -/
def execSwx (c : Nat) (src a b : BitVec 6) (s : State) : Out :=
  s.upd (storeIdx c src a b 4)

/-- SDX (R81). Stores 8 byte(s) with an index. -/
def execSdx (c : Nat) (src a b : BitVec 6) (s : State) : Out :=
  s.upd (storeIdx c src a b 8)

/-- AMOSWAP (R82). The ordering bits order nothing more than one command after another does (R259). -/
def execAmoswap (c : Nat) (d a b : BitVec 6) (_order : BitVec 2) (s : State) : Out :=
  s.upd (amo c d a b (fun _ y => y))

/-- AMOADD (R82). The ordering bits order nothing more than one command after another does (R259). -/
def execAmoadd (c : Nat) (d a b : BitVec 6) (_order : BitVec 2) (s : State) : Out :=
  s.upd (amo c d a b (fun x y => x + y))

/-- AMOAND (R82). The ordering bits order nothing more than one command after another does (R259). -/
def execAmoand (c : Nat) (d a b : BitVec 6) (_order : BitVec 2) (s : State) : Out :=
  s.upd (amo c d a b (fun x y => x &&& y))

/-- AMOOR (R82). The ordering bits order nothing more than one command after another does (R259). -/
def execAmoor (c : Nat) (d a b : BitVec 6) (_order : BitVec 2) (s : State) : Out :=
  s.upd (amo c d a b (fun x y => x ||| y))

/-- AMOXOR (R82). The ordering bits order nothing more than one command after another does (R259). -/
def execAmoxor (c : Nat) (d a b : BitVec 6) (_order : BitVec 2) (s : State) : Out :=
  s.upd (amo c d a b (fun x y => x ^^^ y))

/-- AMOMIN (R82). The ordering bits order nothing more than one command after another does (R259). -/
def execAmomin (c : Nat) (d a b : BitVec 6) (_order : BitVec 2) (s : State) : Out :=
  s.upd (amo c d a b opMin)

/-- AMOMAX (R82). The ordering bits order nothing more than one command after another does (R259). -/
def execAmomax (c : Nat) (d a b : BitVec 6) (_order : BitVec 2) (s : State) : Out :=
  s.upd (amo c d a b opMax)

/-- AMOMINU (R82). The ordering bits order nothing more than one command after another does (R259). -/
def execAmominu (c : Nat) (d a b : BitVec 6) (_order : BitVec 2) (s : State) : Out :=
  s.upd (amo c d a b opMinu)

/-- AMOMAXU (R82). The ordering bits order nothing more than one command after another does (R259). -/
def execAmomaxu (c : Nat) (d a b : BitVec 6) (_order : BitVec 2) (s : State) : Out :=
  s.upd (amo c d a b opMaxu)

/-- CAS (R82, R83). Compare and swap with the expected value in dst. -/
def execCas (c : Nat) (d a b : BitVec 6) (_order : BitVec 2) (s : State) : Out :=
  s.upd (casBody c d a b)

/-- LDC (R58). Loads a capability word. -/
def execLdc (c : Nat) (d a : BitVec 6) (imm : BitVec 14) (s : State) : Out :=
  s.upd (ldcBody c d a imm)

/-- STC (R58). Stores a capability word. -/
def execStc (c : Nat) (src a : BitVec 6) (imm : BitVec 14) (s : State) : Out :=
  s.upd (stcBody c src a imm)

end Sys2Proof.Machine
end

