-- ==== Sys2Proof/Machine/Maintenance.lean ====
section
/-!
DEFINITION. The maintenance engine (R68, R69, R273 to R283): MNTQ, MNTT and MNTT.W, line commands, sweeps, and how slots
end.
-/

namespace Sys2Proof.Machine

/-! ### Slots -/

/-- Slot `n`. -/
def Mach.slot (m : Mach) (n : Nat) : Slot := Tab.get .idle m.slots n

/-- Write it. -/
def Mach.setSlot (m : Mach) (n : Nat) (x : Slot) : Mach := { m with slots := Tab.set .idle m.slots n x }

/-- The slot that MNTQ takes (R273): the first in IDLE or DONE, from the slot after the last one taken. -/
def Mach.freeSlot (m : Mach) : Option Nat :=
  ((List.range 16).map (fun i => (m.slotNext + i) % 16)).find? (fun n => decide ((m.slot n).state ≠ 1))

/-- A slot ends in DONE (R282): its event is raised where it asked for one, and status UE raises DMAHALT (R330). -/
def Mach.endSlot (m : Mach) (n status : Nat) : Mach :=
  let x := m.slot n
  let m1 := { m.setSlot n { x with state := 2, status := status, ending := none } with
    sweepsRun := m.sweepsRun.filter (fun q => decide (x.op ≠ 4) || decide (q ≠ x.sweep)) }
  let m2 := if status = 5 then m1.raiseOwn mntStop 1 none else m1
  if x.evt then m2.raiseEvent (768 + n) else m2

/-- A block reset of the engine ends every RUNNING slot with RESET (R282) and clears its counter bank (R497). -/
def Mach.mntReset (m : Mach) : Mach :=
  (List.range 16).foldl (fun acc n => if (acc.slot n).state = 1 then acc.endSlot n 6 else acc)
    ((((m.openShadow mntStop).resetWindow mntStop 0).resetWindow mntStop 1).clearBank mntStop)

/-! ### MNTQ -/

/-- A request block (R274): word 0, three ranges, and RVCAP. -/
structure MntReq where
  w0 : W64
  ranges : List (Nat × Nat)
  rest : W64
  rvcap : Word
  deriving DecidableEq, Repr

/-- Read the eight words. -/
def MntReq.ofWords (f : Nat → Word) : MntReq :=
  ⟨(f 0).data, [(fld (f 1).data 0 52, fld (f 2).data 0 52), (fld (f 3).data 0 52, fld (f 4).data 0 52),
    (fld (f 5).data 0 52, fld (f 6).data 0 52)],
    ((f 1).data ||| (f 2).data ||| (f 3).data ||| (f 4).data ||| (f 5).data ||| (f 6).data) >>> 52, f 7⟩

/-- OP of R274. -/
def MntReq.op (q : MntReq) : Nat := fld q.w0 0 3
/-- VIRT. -/
def MntReq.virt (q : MntReq) : Bool := bit q.w0 3
/-- FINAL. -/
def MntReq.final (q : MntReq) : Bool := bit q.w0 5
/-- COLOUR. -/
def MntReq.colour (q : MntReq) : Nat := fld q.w0 8 6

/-- A non-empty range (R274). -/
def someRange (r : Nat × Nat) : Bool := decide (r.1 < r.2)

/-- Whether a physical range lies in DRAM, CXL memory or a cluster-memory aperture (R277): its first and last byte lie in
one of them. -/
def Mach.rangeInMemory (m : Mach) (r : Nat × Nat) : Bool :=
  match m.locate r.1, m.locate (r.2 - 1) with
  | .dram, .dram => true
  | .pinned a, .pinned b => decide (a = b)
  | .cm a _, .cm b _ => decide (a = b)
  | .rp a _, .rp b _ => decide (a = b) && bit (m.reg (rpStop a) (rpWin a) 0x48) 10
  | _, _ => false

/-- The malformed requests of R277. COLOUR with an operation other than ZERO, and RVCAP with anything but a final sweep,
are bits that must be 0 (R274). -/
def Mach.mntBad (m : Mach) (q : MntReq) : Bool :=
  let rvOk := if q.final then q.rvcap.tag || decide (q.rvcap.data = 0) else decide (q.rvcap.data = 0)
  decide (fld q.w0 6 2 ≠ 0) || decide (fld q.w0 14 50 ≠ 0) || decide (q.rest ≠ 0) || ! rvOk
    || decide (5 < q.op) || (decide (q.op ≠ 3) && decide (q.colour ≠ 0))
    || ! q.ranges.any someRange || q.ranges.any (fun r => decide (r.1 % 64 ≠ 0) || decide (r.2 % 64 ≠ 0))
    || (decide (q.op = 4) && q.virt) || (! q.virt && decide (q.op = 3) && decide (q.colour ≠ 0))
    || (! q.virt && (q.ranges.filter someRange).any (fun r => ! m.rangeInMemory r))
    || (q.final && decide (q.op ≠ 4))

/-- The request of the block read (R51, R274): R and LC, aligned to its 64 bytes. -/
def mntReadReq : Req := ⟨.capld, [.R, .LC], ⟨true, false, false⟩, 64, 64, true, false, false⟩

/-- The request of the CTLW check of R278. -/
def mntCtlReq : Req := ⟨.ctlwr, [.W], ⟨false, true, false⟩, 1, 8, false, false, true⟩

/-- Authority over virtual ranges (R278): the grant, and the colour that a ZERO must find. -/
def Mach.mntVirt (m : Mach) (c : Nat) (cap : Word) (q : MntReq) : Except Exc ((Nat × Nat × Nat) × Mach) :=
  let writes := decide (q.op = 1) || decide (q.op = 3)
  let a := if writes then Acc.write else .read
  let rs := q.ranges.filter someRange
  let va := (rs.head?.map Prod.fst).getD 0
  match m.live c cap a (BitVec.ofNat 64 va) va with
  | .error e => .error e
  | .ok (g, pa, m1) =>
    if g.otype ≠ 0 then .error (.viol .capPerm 4 a .cap (BitVec.ofNat 64 va) va)
    else if ! g.has (if writes then .W else .R) then .error (.viol .capPerm 5 a .cap (BitVec.ofNat 64 va) va)
    else match rs.find? (fun r => decide (r.1 < g.base) || decide (g.limit < r.2) || decide (2 ^ 48 < r.2)) with
    | some r => .error (.viol .capBounds 7 a .cap (BitVec.ofNat 64 r.1) (r.1 % 2 ^ 48))
    | none =>
      if q.op = 3 ∧ g.colour ≠ 0 ∧ q.colour ≠ g.colour then .error (.viol .capPerm 5 a .cap (BitVec.ofNat 64 va) va)
      else .ok ((pa, g.gen, if q.op = 3 then g.colour else 0), m1)

/-- Authority over the engine (R278): the checks of a CTLW of MNT_CFG at srcA's cursor, which must lie in the MNT window. -/
def Mach.mntPhys (m : Mach) (c : Nat) (cap : Word) : Except Exc ((Nat × Nat × Nat) × Mach) :=
  match m.check c cap cap.cursor mntCtlReq with
  | .error e => .error e
  | .ok (ps, g, m1) =>
    let here := match ps with
      | p :: _ => (match m1.locate p.pa with
        | .window 7 0 o => decide (o % 8 = 0)
        | _ => false)
      | [] => false
    let bad : Exc := .viol .capPerm 0 .ctlwr .ctlForm (vaWord cap.cursor) cap.cursor
    if ! here then .error bad
    else match m1.entryPa c cap.tsel cap.index with
      | .error _ => .error bad
      | .ok (pa, m2) => .ok ((pa, g.gen, 0), m2)

/-- Authority for a SWEEP (R69, R280): the swept entry, or none where a final sweep meets an entry that is not exhausted. -/
def Mach.mntSweep (m : Mach) (c : Nat) (cap : Word) (q : MntReq) : Except Exc (Option SweepReq × Mach) :=
  if ! cap.tag then .error (.viol .capTag 2 .noacc .cap 0 cap.cursor)
  else
    let gtab := (m.core c).gtab
    match m.entryPa c cap.tsel cap.index with
    | .error s =>
      if q.final then
        .error ⟨.capGrant, 3, some .noacc, if s.isSome then .carve else .cap, 0, cap.cursor, s, none, none⟩
      else .ok (some ⟨cap.tsel, cap.index, gtab, 2 ^ 60⟩, m)
    | .ok (pa, m1) =>
      let e := m1.readGrant pa
      if ! q.final then .ok (some ⟨cap.tsel, cap.index, gtab, pa⟩, m1)
      else if ! e.exh then .ok (none, m1)
      else if e.owner = (m1.core c).cmpid then .ok (some ⟨cap.tsel, cap.index, gtab, pa⟩, m1)
      else match m1.live c q.rvcap .noacc 0 q.rvcap.cursor with
      | .error _ => .error (permExc q.rvcap)
      | .ok (r, _, m2) =>
        if r.otype = 0 ∧ r.has .RV ∧ r.base ≤ e.base ∧ e.limit ≤ r.limit then
          .ok (some ⟨cap.tsel, cap.index, gtab, pa⟩, m2)
        else .error (permExc q.rvcap)

/-- Whether the engine takes no new work (R277 UNAVAIL). -/
def Mach.mntUnavail (m : Mach) : Bool :=
  let b := m.blk mntStop 0
  ! m.answers mntStop 0 || ! b.enable || b.quiesce || b.disabling

/-- The register-clearing request of a sweep reaches every core (R69 item 3, R140, R281): at once in a core that stands at a
serialising point, else at the core's next one. A core that is OFF holds nothing. -/
def Mach.sendSweep (m : Mach) (q : SweepReq) : Mach :=
  { m with
    sweepsRun := m.sweepsRun ++ [q]
    cores := Tab.mapV Core.reset (fun _ x =>
      if x.st = .off then x
      else if x.st = .stopped ∨ x.st = .halted ∨ x.st = .fatal then (x.sweep q).snap
      else { x with sweeps := x.sweeps ++ [q] }) m.cores }

/-- MNTQ queues the request (R277). -/
def Mach.mntTake (m : Mach) (c d : Nat) (q : MntReq) (cap : Option (Nat × Nat)) (need : Nat) (sw : SweepReq) : Res :=
  if m.mntUnavail then m.result c d (.plain (setFld 0 8 8 3))
  else match m.freeSlot with
  | none => m.result c d (.plain (setFld 0 8 8 1))
  | some n =>
    let x := m.core c
    let g := x.regime
    let t := ((m.slot n).ticket + 1) % 2 ^ 16
    let rs := q.ranges.filter someRange
    let slot : Slot :=
      { state := 1, status := 0, ticket := t, op := q.op, virt := q.virt, evt := bit q.w0 4, final := q.final
        colour := if m.tagonly then 0 else q.colour
        need := need, ranges := rs, addr := (rs.head?.map Prod.fst).getD 0, world := x.world, vmid := x.vmid
        cmpid := x.cmpid, asid := g.asid, s1root := g.s1root, s2root := g.s2root, cap := cap, sweep := sw
        ending := none, ueAt := none }
    let m1 := { m.setSlot n slot with slotNext := (n + 1) % 16 }
    let m2 := if q.op = 4 then m1.sendSweep sw else m1
    m2.result c d (.plain (setFld (setFld 0 0 4 n) 16 16 t))

/-- MNTQ (R274, R277, R278, R280). -/
def mntq (c : Nat) (d a b : BitVec 6) (m : Mach) : Mach :=
  m.instr c [] (fun m =>
    let x := m.g c a.toNat
    let y := m.g c b.toNat
    let badReq : W64 := setFld 0 8 8 2
    if x.poison || y.poison then .trap (.plain .poison 1 0)
    else
      let m := m.drainAll c
      match m.firstPiece c y y.cursor mntReadReq with
      | .error e => .trap e
      | .ok (pc, m1) =>
        let m2 := (m1.loadSide c pc).readUpsets (some c) false pc.pa 64
        let w := fun i => m2.coreWord c (pc.pa + 8 * i)
        let q := MntReq.ofWords w
        if (List.range 8).any (fun i => (w i).poison) then .trap (.plain .poison 1 (vaWord y.cursor))
        else if m2.mntBad q then m2.result c d.toNat (.plain badReq)
        else if q.op = 4 then
          match m2.mntSweep c x q with
          | .error e => .trap e
          | .ok (none, m3) => m3.result c d.toNat (.plain badReq)
          | .ok (some sw, m3) => m3.mntTake c d.toNat q none 0 sw
        else match (if q.virt then m2.mntVirt c x q else m2.mntPhys c x) with
          | .error e => .trap e
          | .ok ((pa, gen, need), m3) => m3.mntTake c d.toNat q (some (pa, gen)) need ⟨false, 0, 0, 0⟩)

/-! ### MNTT -/

/-- BUSY and ERR of the masked slots (R279). -/
def Mach.mntStatus (m : Mach) (mask : W64) : W64 :=
  (List.range 16).foldl (fun w n =>
    let s := m.slot n
    if bit mask n then
      setBit (setBit w n (decide (s.state = 1))) (16 + n) (decide (s.state = 2) && decide (s.status ≠ 0))
    else w) 0

/-- MNTT and MNTT.W (R279). -/
def mntt (c : Nat) (d a : BitVec 6) (wait : Bool) (m : Mach) : Mach :=
  m.instr c [] (fun m =>
    let v := m.mntStatus (m.g c a.toNat).data
    if wait ∧ fld v 0 16 ≠ 0 then .wait m else m.result c d.toNat (.plain v))

/-! ### Line commands -/

/-- The slot with its next line beyond `r`, in the order of R274. -/
def Slot.forward (x : Slot) : Slot :=
  match x.ranges with
  | [] => x
  | r :: t => if x.addr + 64 < r.2 then { x with addr := x.addr + 64 }
      else { x with ranges := t, addr := (t.head?.map Prod.fst).getD (x.addr + 64) }

/-- The slot is to end with this status, its failing line at `addr`. -/
def Mach.failSlot (m : Mach) (n status : Nat) : Mach := m.setSlot n { m.slot n with ending := some status }

/-- The regime recorded in a slot (R277, R278). -/
def Slot.regime (x : Slot) : Regime := ⟨x.world, x.vmid, x.asid, x.s1root, x.s2root⟩

/-- Whether an operation needs W (R278). -/
def Slot.writes (x : Slot) : Bool := decide (x.op = 1) || decide (x.op = 3)

/-- The physical line of a slot's next line, translated where the slot is virtual (R278); none where the walk fails. -/
def Mach.slotPa (m : Mach) (x : Slot) : Option (Nat × Mach) :=
  if ! x.virt then some (x.addr, m)
  else match m.walk x.regime ⟨! x.writes, x.writes, false⟩ false x.addr with
    | .error _ => none
    | .ok t =>
      match t.setD with
      | some d => some (t.pa, (m.ownAtHome d).setByte d ((m.ownAtHome d).byte d ||| 0x80))
      | none => some (t.pa, m)

/-- Every cached copy of a line goes (R275): its data is discarded with `lose`, else written to memory. -/
def Mach.removeLine (m : Mach) (line : Nat) (lose : Bool) : Mach :=
  let m1 := if lose then m.revertLine line else m.unstale line
  (((m1.dropLines none line).l1Inval 176 line).setDir line .none).dropL3 line

/-- Whether a word matches a sweep (R280). -/
def SweepReq.hits (q : SweepReq) (w : Word) : Bool :=
  w.tag && (w.tsel == q.tsel) && decide (w.index = q.index)

/-- The words of a line that match. -/
def Mach.sweepHits (m : Mach) (line : Nat) (q : SweepReq) : List Nat :=
  ((List.range 8).map (fun i => line * 64 + 8 * i)).filter (fun a => q.hits (m.word a))

/-- Clear the tags of these words. -/
def Mach.untag (m : Mach) (as : List Nat) : Mach :=
  as.foldl (fun acc a =>
    { acc with mmeta := Tab.set .zero acc.mmeta (a / 8) { acc.metaAt a with tag := false } }) m

/-- The sweep of one line at its home (R281 items 2 and 3). -/
def Mach.sweepLine (m : Mach) (line : Nat) (q : SweepReq) : Mach :=
  let m1 := match m.holderM line with
    | some o => (m.l3Return line (coreStop o)).setLine o line .E
    | none => m
  match m1.sweepHits line q with
  | [] => m1
  | hits =>
    let m2 := ((m1.dropLines none line).l1Inval 176 line).setDir line .none
    let m3 := if m2.l3Holds line then (m2.noteStale line).modL3 line (fun e => { e with dirty := true, heldOld := none })
      else m2.unstale line
    (m3.untag hits).countUncore mntStop (.plain 0x2C1) hits.length

/-- The words of a line zeroed (R275), and forwarded where a mirror window holds them (R262). -/
def Mach.zeroWords (m : Mach) (pa colour : Nat) : Mach :=
  (List.range 8).foldl (fun acc i =>
    let a := pa + 8 * i
    (((acc.writeN a 8 0).setMeta a ⟨false, false, BitVec.ofNat 6 colour⟩).stored a).mirrorWrite mntStop 0x3F a 0xFF) (m.openLine pa)

/-- CLEAN of a line (R275): an M owner becomes E, the latest data is written to memory, and every copy stays. -/
def Mach.cleanLine (m : Mach) (line : Nat) : Mach :=
  let m1 := match m.holderM line with
    | some o => m.setLine o line .E
    | none => m
  (m1.modL3 line (fun e => { e with dirty := false, heldOld := none })).unstale line

/-- One operation on one line of DRAM that has a home (R275). -/
def Mach.lineOp (m : Mach) (x : Slot) (pa : Nat) : Mach :=
  let line := pa / 64
  if x.op = 0 then m.cleanLine line
  else if x.op = 1 then m.removeLine line true
  else if x.op = 2 then m.removeLine line false
  else if x.op = 3 then (m.removeLine line true).zeroWords (line * 64) x.colour
  else if x.op = 4 then m.sweepLine line x.sweep
  else m

/-- One operation on one line of memory that no cache holds (R275). -/
def Mach.bankOp (m : Mach) (x : Slot) (pa : Nat) : Mach :=
  if x.op = 3 then m.zeroWords (pa / 64 * 64) x.colour
  else if x.op = 4 then
    let hits := m.sweepHits (pa / 64) x.sweep
    (m.untag hits).countUncore mntStop (.plain 0x2C1) hits.length
  else m

/-- The access type of an operation, as its refusal records it (R27). -/
def Slot.acc (x : Slot) : Acc := if x.op = 0 ∨ x.op = 2 ∨ x.op = 5 then .dmard else .dmawr

/-- A refusal of a line command (R24, R278, R282): logged by the block that refuses, and the slot is to end with
VIOLATION. -/
def Mach.refuseLine (m : Mach) (n st k pa : Nat) (r : Rule) : Mach :=
  let m1 := m.logViol st k ⟨pa, false, mntStop, 0x3F, (m.slot n).acc, r⟩
  (if r = .carve then m1.countReg 0 9 0x208 16 16 1 else m1).failSlot n 2

/-- The changed words that an operation reads (R275, R281): SWEEP the latest copy, SCRUB what the memory controller or the bank
holds, CLEAN and CLEAN_INVALIDATE the dirty copy that they write back. -/
def Mach.opUpsets (m : Mach) (x : Slot) (pa : Nat) : List Upset :=
  let base := pa / 64 * 64
  if x.op = 4 then m.upsetsAt none false base 64
  else if x.op = 5 then
    if m.homed pa then m.upsets.filter (fun u => (decide (u.cls = 8) || decide (u.cls = 9)) && m.upsetIn u (wordsTouched base 64))
    else m.upsetsAt none false base 64
  else if x.op = 0 ∨ x.op = 2 then
    (m.upsetsAt none false base 64).filter (fun u => decide (u.cls ≠ 8) && decide (u.cls ≠ 9) && m.upsetDirty u)
  else []

/-- The command on a line that passed its checks. -/
def Mach.carryOut (m : Mach) (n pa : Nat) : Mach :=
  let x := m.slot n
  let base := pa / 64 * 64
  let us := m.opUpsets x pa
  let ue := us.any (fun u => m.poisons u)
  let m1 := us.foldl (fun acc u => acc.meetUpset u) m
  if ue ∧ x.op ≠ 5 then m1.failSlot n 5
  else
    let m2 := if m1.homed pa then m1.lineOp x pa else if m1.isMem pa then m1.bankOp x pa else m1
    let m3 := m2.countUncore mntStop ⟨0x2C0, x.world, some 3, some (mntStop, 0x3F), some base⟩ 1
    m3.setSlot n { x.forward with ueAt := if ue ∧ x.ueAt.isNone then some x.addr else x.ueAt }

/-- One line command of slot `n` (R276, R278): it waits while the line has an open transaction or its bucket moves. -/
def Mach.lineCommand (m : Mach) (n : Nat) : Mach :=
  let x := m.slot n
  if 16 ≤ n ∨ x.state ≠ 1 ∨ x.ending.isSome ∨ x.ranges.isEmpty ∨ ! m.powered mntStop 0 ∨ m.phase ≠ .run then m
  else
    let revoked := match x.cap with
      | some (pa, gen) => let e := m.readGrant pa
                          ! e.valid || decide (e.gen ≠ gen)
      | none => false
    if revoked then m.failSlot n 4
    else match m.slotPa x with
    | none => m.failSlot n 3
    | some (pa, m1) =>
      if m1.homed pa ∧ (m1.lineOpen (pa / 64) ∨ (m1.sltMove.map Prod.fst) = some (foldH pa)) then m
      else match (if x.world = .secure then none else m1.carveOf pa) with
      | some b => let (st, k, a) := m1.carveSite pa b
                  m1.refuseLine n st k a .carve
      | none =>
        match m1.locate pa with
        | .window st k _ => if m1.answers st k then m1.refuseLine n st k pa .ctlForm
                            else m1.refuseLine n st 0xFE pa .ctlUnpowered
        | .bell q _ => m1.refuseLine n (leStop (q / 2048)) 0 pa .ctlForm
        | .hole st => m1.refuseLine n st 0xFE pa .ctlUnmapped
        | .none => m1.refuseLine n mntStop 0xFE pa .ctlUnmapped
        | .rp r _ => if m1.answers (rpStop r) (rpWin r) then m1.carryOut n pa
                     else m1.refuseLine n (rpStop r) 0xFE pa .ctlUnpowered
        | .cm k _ => if m1.answers (ccStop k) 0 then m1.carryOut n pa
                     else m1.refuseLine n (ccStop k) 0xFE pa .ctlUnpowered
        | _ =>
          if x.need ≠ 0 ∧ ! m1.tagonly ∧ (lineWords pa).any (fun w => decide ((m1.metaAt (w * 8)).colour.toNat ≠ x.need))
          then (m1.logViol mntStop 0 ⟨x.addr % 2 ^ 48, true, mntStop, 0x3F, .dmawr, .cap⟩).failSlot n 2
          else m1.carryOut n pa

/-- Whether a sweep's register-clearing request still waits in some core (R281 item 4). -/
def Mach.sweepWaits (m : Mach) (q : SweepReq) : Bool := m.cores.any (fun p => p.2.sweeps.contains q)

/-- The reset revocation of a final sweep (R68, R281 item 4). -/
def Mach.finalRevoke (m : Mach) (pa : Nat) : Mach :=
  let g := m.readGrant pa
  (m.writeGrant mntStop 0x3F pa { g with valid := false, exh := false, gen := 0 }).shootdown pa

/-- SLOT_DONE (R281, R282): with the status that ended it, else with OK once every line is done and every core has answered a
sweep; SCRUB reports the uncorrectable errors it met. -/
def Mach.slotDone (m : Mach) (n : Nat) : Mach :=
  let x := m.slot n
  if 16 ≤ n ∨ x.state ≠ 1 then m
  else match x.ending with
  | some s => m.endSlot n s
  | none =>
    if ! x.ranges.isEmpty ∨ (x.op = 4 ∧ m.sweepWaits x.sweep) then m
    else match x.ueAt with
    | some a => (m.setSlot n { x with addr := a }).endSlot n 5
    | none => (if x.op = 4 ∧ x.final then m.finalRevoke x.sweep.pa else m).endSlot n 0

/-- A write of MNT_ABORT (R282). -/
def Mach.mntAbort (m : Mach) (v : W64) : Mach :=
  (List.range 16).foldl (fun acc n => if bit v n ∧ (acc.slot n).state = 1 then acc.endSlot n 1 else acc) m

/-! ### Commands -/

/-- MNTQ (R277). Queues a maintenance operation. -/
def execMntq (c : Nat) (d a b : BitVec 6) (s : State) : Out := s.upd (mntq c d a b)

/-- MNTT (R279). Returns at once. -/
def execMntt (c : Nat) (d a : BitVec 6) (s : State) : Out := s.upd (mntt c d a false)

/-- MNTT.W (R279). Waits until no masked slot is busy. -/
def execMnttW (c : Nat) (d a : BitVec 6) (s : State) : Out := s.upd (mntt c d a true)

/-- MAINTENANCE_COMMAND (R276). -/
def execMaintenanceCommand (n : Nat) (s : State) : Out := s.upd (fun m => m.lineCommand n)

/-- SLOT_DONE (R282). -/
def execSlotDone (n : Nat) (s : State) : Out := s.upd (fun m => m.slotDone n)

/-- MNT_ABORT (R282). -/
def execMntAbort (mst : Master) (v : W64) (s : State) : Out :=
  s.upd (fun m => m.window mst mntStop 0 0x48 (fun m => m.mntAbort v))

end Sys2Proof.Machine
end

