-- ==== Sys2Proof/Machine/MemCtl.lean ====
section
/-!
DEFINITION. The memory controllers: positions, ordering and service of requests (R294 to R300), row, refresh and retraining
steps (R296, R301, R303), channel failure (R305), bank masks (R291), soft repair (R325), patrol (R322), initialisation of
regions (R538), and the protection windows' log and remap registers (R320, R324).
-/

namespace Sys2Proof.Machine

/-! ### Where a line lies -/

/-- The DPHY window of a channel is window 1 or 2 of its controller's stop (R308). -/
def dphyWin (ch : Nat) : Nat := 1 + ch % 2

/-- A register of a channel's DPHY window. -/
def Mach.dphy (m : Mach) (ch off : Nat) : W64 := m.reg (chanStop ch) (dphyWin ch) off

/-- Rank-select bits of a channel (R290). -/
def Mach.rankBits (m : Mach) (ch : Nat) : Nat :=
  let n := fld (m.dphy ch 0x40) 8 4
  if 8 ≤ n then 3 else if 4 ≤ n then 2 else if 2 ≤ n then 1 else 0

/-- Parity of a number of up to 52 bits. -/
def parity (v : Nat) : Nat := ((List.range 52).filter (fun i => v.testBit i)).length % 2

/-- The bank field of a channel address (R291). -/
def Mach.bankOf (m : Mach) (ch ca : Nat) : Nat :=
  (List.range 5).foldl (fun b j => b + parity (ca &&& (m.dphy ch (0x800 + 8 * j)).toNat) * 2 ^ j) 0

/-- The key of a bank: channel, sub-channel, rank, bank. -/
def bankKey (ch sub rank bank : Nat) : Nat := ((ch * 2 + sub % 2) * 8 + rank % 8) * 32 + bank % 32

/-- The bank that a channel address lies in (R290, R291). -/
def Mach.bankKeyOf (m : Mach) (ch ca : Nat) : Nat :=
  bankKey ch (ca / 64 % 2) (ca / 2 ^ 19 % 2 ^ m.rankBits ch) (m.bankOf ch ca)

/-- The row of a channel address (R290). -/
def Mach.rowOf (m : Mach) (ch ca : Nat) : Nat := ca / 2 ^ (19 + m.rankBits ch)

/-- The row that a bank holds open, plus one; 0 where none is open (R296). -/
def Mach.openRow (m : Mach) (key : Nat) : Nat := Tab.get 0 m.rows key

/-- Close the row of a bank. -/
def Mach.closeRow (m : Mach) (key : Nat) : Mach := { m with rows := Tab.del m.rows key }

/-- Close the rows of a sub-channel. -/
def Mach.closeSub (m : Mach) (ch sub : Nat) : Mach :=
  { m with rows := m.rows.filter (fun p => decide (p.1 / 256 ≠ ch * 2 + sub % 2)) }

/-! ### Positions -/

/-- Whether `q`, that arrived after `p`, must be served after it (R297). -/
def Mach.ordered (m : Mach) (p q : McReq) : Bool :=
  (decide (p.chan = q.chan) && decide (p.ca / 64 = q.ca / 64))
    || (if q.compat then decide (p.stop = q.stop) && decide (p.chan / 2 = q.chan / 2)
        else decide (p.chan = q.chan) && decide (m.bankKeyOf p.chan p.ca = m.bankKeyOf q.chan q.ca)
          && decide (m.rowOf p.chan p.ca = m.rowOf q.chan q.ca))

/-- Whether a request of class `tc` finds a position of channel `ch` that it may use (R295): a class uses its reserved
positions first. -/
def Mach.positionFree (m : Mach) (ch tc : Nat) : Bool :=
  let held := m.mcReqs.filter (fun q => decide (q.chan = ch))
  let n := fun (f : Nat → Bool) => (held.filter (fun q => f q.tc)).length
  let cfg := m.reg (chanStop ch) 0 0x800
  let r0 := fld cfg 0 8
  let r1 := fld cfg 8 8
  let n0 := n (fun c => decide (c = 0))
  let n1 := n (fun c => decide (c = 1)) + (n0 - r0)
  let used := n (fun c => decide (2 ≤ c)) + (n1 - r1)
  decide (used < 256 - r0 - r1) || (decide (tc = 0) && decide (n0 < r0)) || (decide (tc ≤ 1) && decide (n1 < r1))

/-- MC_REQ_STAT follows the positions in use (R307). -/
def Mach.positionStat (m : Mach) (mc : Nat) : Mach :=
  let n := (m.mcReqs.filter (fun q => decide (q.chan / 2 = mc))).length
  let v := m.reg (mcStop mc) 0 0x48
  m.setReg (mcStop mc) 0 0x48 (setFld (setFld v 0 10 n) 16 10 (max n (fld v 16 10)))

/-- Count a happening of a request at its controller (R508). -/
def Mach.countMc (m : Mach) (q : McReq) (ev : Nat) : Mach :=
  m.countUncore (chanStop q.chan) ⟨ev, q.world, some q.tc, some (q.stop, q.unit), some (q.line * 64)⟩ 1

/-- A TC0 request promotes every older request that holds it, and what holds those (R299). -/
def Mach.promote (m : Mach) (q : McReq) (older : List McReq) : List McReq × Nat :=
  older.foldr (fun p (acc : List McReq × Nat × List McReq) =>
    if acc.2.2.any (fun x => m.ordered p x) then
      ({ p with promoted := true } :: acc.1, acc.2.1 + (if p.tc = 0 ∨ p.promoted then 0 else 1), p :: acc.2.2)
    else (p :: acc.1, acc.2.1, acc.2.2)) (([], 0, [q]) : List McReq × Nat × List McReq) |> fun r => (r.1, r.2.1)

/-- A position frees: Credit goes to the oldest retried request of the channel that it can serve (R247, R295). -/
def Mach.mcCredit (m : Mach) (ch : Nat) : Mach :=
  match m.mcRetried.findIdx? (fun q => decide (q.chan = ch) && ! q.credited && m.positionFree ch q.tc) with
  | some i => { m with mcRetried := m.mcRetried.modify i (fun q => { q with credited := true }) }
  | none => m

/-! ### Service -/

/-- The class a request is served as (R299). -/
def McReq.cls (q : McReq) : Nat := if q.promoted then 0 else q.tc

/-- Whether writes of a channel are being drained (R299): a batch is under way, 64 are held, or one is TC0. -/
def Mach.draining (m : Mach) (ch : Nat) : Bool :=
  let ws := m.mcReqs.filter (fun q => decide (q.chan = ch) && q.write)
  decide (Tab.get 0 m.mcDrain ch ≠ 0) || decide (64 ≤ ws.length) || ws.any (fun q => decide (q.cls = 0))

/-- The eligible requests of a sub-channel in arrival order (R299): no older request that must go first is unserved; a write
waits for a batch unless a younger request waits for it or nothing else is eligible. -/
def Mach.eligible (m : Mach) (ch sub : Nat) : List McReq :=
  let rec go (older : List McReq) : List McReq → List McReq
    | [] => []
    | q :: t => (if older.any (fun p => m.ordered p q) then [] else [q]) ++ go (older ++ [q]) t
  let all := (go [] m.mcReqs).filter (fun q => decide (q.chan = ch) && decide (q.ca / 64 % 2 = sub % 2))
  let now := all.filter (fun q => ! q.write || m.draining ch
    || m.mcReqs.any (fun x => decide (x ≠ q) && m.ordered q x))
  if now.isEmpty then all else now

/-- The request that a command slot serves (R299 items 2 to 5). -/
def Mach.chooseReq (m : Mach) (ch sub : Nat) : Option McReq :=
  let es := m.eligible ch sub
  let of := fun (c : Nat) => es.filter (fun q => decide (q.cls = c))
  let hit := fun (q : McReq) => decide (m.openRow (m.bankKeyOf q.chan q.ca) = m.rowOf q.chan q.ca + 1)
  match of 0, of 1, of 2, of 3 with
  | q :: _, _, _, _ => some q
  | [], q :: _, _, _ => some q
  | [], [], [], t3 => t3.head?
  | [], [], q2 :: t2, t3 =>
    if ! t3.isEmpty ∧ 63 ≤ Tab.get 0 m.mcTc3 ch then t3.head?
    else some (((q2 :: t2).find? hit).getD q2)

/-- A served read meets the errors of its line, which are corrected and written back or poisoned (R312, R313, R321). -/
def Mach.readDram (m : Mach) (ch ca : Nat) : Mach :=
  (m.upsets.filter (fun u => (decide (u.cls = 8) || decide (u.cls = 9)) && decide (m.upsetCa u = (ch, ca / 64 * 64)))).foldl
    (fun acc u => acc.meetUpset u) m

/-- Serve one request: its row is opened, it leaves its position, and a Credit may follow. -/
def Mach.serveReq (m : Mach) (q : McReq) : Mach :=
  let key := m.bankKeyOf q.chan q.ca
  let row := m.rowOf q.chan q.ca + 1
  let m1 := m.countMc q (if m.openRow key = row then 0x222 else 0x223)
  let m2 := if fld (m.dphy q.chan 0x50) 0 11 = 0 then m1.closeRow key else { m1 with rows := Tab.set 0 m1.rows key row }
  let drain := Tab.get 0 m.mcDrain q.chan
  let ws := m.mcReqs.filter (fun x => decide (x.chan = q.chan) && x.write)
  let batch := if ws.length ≤ 1 then 0 else if drain ≠ 0 then drain - 1
    else if 64 ≤ ws.length ∨ ws.any (fun x => decide (x.cls = 0)) then 31 else 0
  let m3 := { m2 with
    mcReqs := m2.mcReqs.erase q
    mcDrain := if q.write then Tab.set 0 m2.mcDrain q.chan batch else m2.mcDrain
    mcTc3 := if q.cls = 3 then Tab.del m2.mcTc3 q.chan
      else if q.cls = 2 then Tab.set 0 m2.mcTc3 q.chan (min (Tab.get 0 m2.mcTc3 q.chan + 1) 63) else m2.mcTc3 }
  let stored := ! m.isPinned (q.line * 64) && (lineWords (q.line * 64)).any (fun w => decide (m.metaAt (w * 8) ≠ .zero))
  let m4 := if q.write then m3
    else
      let m5 := (m3.countMc q 0x220).readDram q.chan q.ca
      if stored then m5.countMc q 0x224 else m5
  (m4.mcCredit q.chan).positionStat (q.chan / 2)

/-- The bank of a sub-channel whose refresh may be postponed no longer (R299 item 1, R301). -/
def Mach.lateBank (m : Mach) (ch sub : Nat) : Option Nat :=
  (m.refreshDue.find? (fun p => decide (p.1 / 256 = ch * 2 + sub % 2) && decide (5 ≤ p.2))).map Prod.fst

/-- One command slot of a sub-channel (R299). -/
def Mach.commandSlot (m : Mach) (ch sub : Nat) : Mach :=
  match m.lateBank ch sub with
  | some key => { m.closeRow key with refreshDue := Tab.del m.refreshDue key }
  | none =>
    match m.chooseReq ch sub with
    | some q => m.serveReq q
    | none => m

/-- `n` command slots. -/
def Mach.commandSlots (m : Mach) (ch sub : Nat) : Nat → Mach
  | 0 => m
  | n + 1 => (m.commandSlot ch sub).commandSlots ch sub n

/-! ### Requests -/

/-- The bytes of a write reach DRAM (R34, R292): where a cache holds the line newer, DRAM's own contents change. -/
def Mach.dramWrite (m : Mach) (line mask : Nat) (data : List W64) (poison : Nat) : Mach :=
  let a := line * 64
  match m.stale.lookup line with
  | some ws =>
    let new := (List.range 8).map (fun i =>
      let old := (ws[i]?).getD .zero
      let k := mask / 2 ^ (8 * i) % 256
      if k = 0 then old
      else
        let v := (List.range 8).foldl (fun v j =>
          if k.testBit j then setFld v (8 * j) 8 (fld ((data[i]?).getD 0) (8 * j) 8) else v) old.data
        (⟨v, false, poison.testBit i || (decide (k ≠ 0xFF) && old.poison), old.colour⟩ : Word))
    ({ m with stale := Tab.ins m.stale line new }.touchDram a).dramStored a
  | none =>
    let m1 := if mask = 2 ^ 64 - 1 then m.openLine a else m
    (List.range 8).foldl (fun acc i =>
      acc.mergeWord (a + 8 * i) (mask / 2 ^ (8 * i) % 256) ((data[i]?).getD 0) (poison.testBit i)) m1 |>.dramStored a

/-- An atomic at a controller (R288): on a pinned region. -/
def Mach.dramAtomic (m : Mach) (line i op : Nat) (a b : Word) : Mach :=
  let pa := line * 64 + i % 8 * 8
  let old := m.word pa
  if ! m.isPinned pa ∨ (op = 16 ∧ old.data ≠ b.data) then m
  else (m.putWord pa (atomOp op old.data a.data b.data) false (old.poison || a.poison)).stored pa

/-- A request's effect on the contents, when it is accepted (R295): a write is then acknowledged. -/
def Mach.accept (m : Mach) (q : McReq) (op : McOp) : Mach :=
  match op with
  | .read => m
  | .write mask data poison => (m.dramWrite q.line mask data poison).countMc q 0x221
  | .atomic i op a b => ((m.readDram q.chan q.ca).dramAtomic q.line i op a b).countMc q 0x221

/-- A request reaches its controller (R224, R226, R295, R299, R305): refused in a carve-out of a pinned region; served at
once by a FAILED channel; answered Retry without a position, and then resent only on a Credit; else it takes a position. A
channel that is not ACTIVE accepts none. -/
def Mach.mcRequest (m : Mach) (mst : Master) (line tc : Nat) (op : McOp) (summMiss : Bool) (slots : Nat) : Mach :=
  let pa := line * 64
  let here := match m.locate pa with
    | .dram | .pinned _ => true
    | _ => false
  let (ch, ca) := m.channelOf pa
  let st := chanStop ch
  if ! here ∨ m.phase ≠ .run then m
  else match (if mst.world = .secure ∨ ! m.isPinned pa then none else m.carveOf pa) with
  | some b =>
    let a : Acc := match op with | .read => .read | .write _ _ _ => .write | .atomic _ _ _ _ => .atomic
    (m.logViol st 0 ⟨b, false, mst.stop, mst.unit, a, .carve⟩).countReg 0 9 0x208 16 16 1
  | none =>
    if m.chanState ch = 4 then m.raiseOpt st (some 4) pa
    else if m.chanState ch ≠ 2 then m
    else
      let isW := match op with | .read => false | _ => true
      let q : McReq := ⟨ch, ca, line, mst.stop, mst.unit, tc, mst.world, isW, bit (m.reg st 0 0x40) 0, false, false⟩
      let same := fun (r : McReq) => decide (r.line = line) && decide (r.stop = q.stop) && decide (r.unit = q.unit)
        && (r.write == q.write)
      if m.mcRetried.any (fun r => same r && ! r.credited) then m
      else
        let m1 := { m with mcRetried := m.mcRetried.filter (fun r => ! same r) }
        if ! m1.positionFree ch tc then
          (({ m1 with mcRetried := m1.mcRetried ++ [q] }).countReg st 0 0x48 32 32 1).countMc q 0x227
        else
          let (older, n) := if tc = 0 then m1.promote q m1.mcReqs else (m1.mcReqs, 0)
          let m2 := ({ m1 with mcReqs := older ++ [q] }).positionStat (ch / 2)
          let m3 := (List.range n).foldl (fun acc _ => acc.countMc q 0x226) (m2.accept q op)
          let m4 := if summMiss then m3.countMc q 0x225 else m3
          m4.commandSlots ch (ca / 64 % 2) slots

/-! ### Rows, refresh, retraining -/

/-- A refresh falls due on a bank (R301): it runs and closes the row (R296), or is postponed while TC0 or TC1 requests wait,
up to four times; the fifth runs at the next command slot (R299). -/
def Mach.refresh (m : Mach) (ch sub rank bank : Nat) (postpone : Bool) : Mach :=
  let key := bankKey ch sub rank bank
  if m.chanState ch ≠ 2 then m
  else if postpone && m.mcReqs.any (fun q => decide (q.chan = ch) && decide (q.cls ≤ 1)) then
    { m with refreshDue := Tab.set 0 m.refreshDue key (min (Tab.get 0 m.refreshDue key + 1) 5) }
  else { m.closeRow key with refreshDue := Tab.del m.refreshDue key }

/-- An impedance calibration or oscillator read (R303). -/
def Mach.calibrate (m : Mach) (ch sub : Nat) : Mach :=
  if m.chanState ch ≠ 2 then m
  else { m.closeSub ch sub with retrains := Tab.set 0 m.retrains ch (Tab.get 0 m.retrains ch - 1) }

/-- A write of DPHY_CTRL.RETRAIN (R303, R308): one step of each kind. -/
def Mach.retrain (m : Mach) (ch : Nat) : Mach :=
  if m.chanState ch ≠ 2 then m else { m with retrains := Tab.set 0 m.retrains ch (Tab.get 0 m.retrains ch + 2) }

/-! ### Channel failure -/

/-- A channel enters FAILED (R305): FAILWHY tells the cause, the source is raised, and what it held is served as FAILED
serves it. -/
def Mach.failChannel (m : Mach) (ch why : Nat) : Mach :=
  if m.chanState ch = 4 ∨ 12 ≤ ch then m
  else
    let st := chanStop ch
    let v := m.dphy ch 0x40
    let m1 := m.setReg st (dphyWin ch) 0x40 (setFld (setFld v 0 3 4) 16 4 why)
    (({ m1 with mcReqs := m1.mcReqs.filter (fun q => decide (q.chan ≠ ch))
                mcRetried := m1.mcRetried.filter (fun q => decide (q.chan ≠ ch)) }).positionStat (ch / 2)).raiseOwn st 4 none

/-! ### Registers -/

/-- Whether the expert page of a window is unlocked (R18, R19). -/
def Mach.expert (m : Mach) (st k : Nat) : Bool := decide ((m.blk st k).lock = 2)

/-- A write of DPHY_BANKMASKj (R291). -/
def Mach.bankMask (m : Mach) (ch j : Nat) (v : W64) : Mach :=
  let st := chanStop ch
  let k := dphyWin ch
  if ! m.expert st k ∨ 5 ≤ j then m
  else if ! bit v (14 + j) ∨ fld v 14 5 ≠ 2 ^ j ∨ fld v 0 7 ≠ 0 ∨ m.chanState ch ≠ 1 then m.setRegBit st k 0x40 24 true
  else m.setReg st k (0x800 + 8 * j) (setFld v 52 12 0)

/-- The channel of the pinned window that holds an address. -/
def pinnedChan (pa : Nat) : Option Nat :=
  if pinBase ≤ pa ∧ pa < pinBase + 12 * 0x10000000000 then some ((pa - pinBase) / 0x10000000000) else none

/-- Whether a channel of controller `mc` holds a journal or payload-pool copy of an engine whose JEN or PEN is 1 (R298). -/
def Mach.holdsCopy (m : Mach) (mc : Nat) : Bool :=
  [0, 1].any (fun e =>
    let r := fun off => m.reg (leStop e) 0 off
    (bit (r 0x40) 13 || bit (r 0x40) 21)
      && [0x48, 0x50, 0x58, 0x60].any (fun off =>
        match pinnedChan (fld (r off) 12 40 * 4096) with
        | some c => decide (c / 2 = mc)
        | none => false))

/-- A write of MC_CFG.ORDER (R297, R298). -/
def Mach.orderWrite (m : Mach) (mc : Nat) (compat : Bool) : Mach :=
  if compat ∧ m.holdsCopy mc then m.setRegBit (mcStop mc) 0 0x40 3 true
  else m.setRegBit (mcStop mc) 0 0x40 0 compat

/-- A write of MC_PPR_CMD (R325): `result` is what the modules answer to the soft repair, 1 to 3. The contents of the row are
preserved. BUSY reads 0 again when the command ends (log entry 19). -/
def Mach.sppr (m : Mach) (mc : Nat) (v : W64) (result : Nat) : Mach :=
  let st := mcStop mc
  if ! m.expert st 0 then m
  else
    let old := m.reg st 0 0x840
    let w := setFld (setFld (setFld old 1 10 (fld v 1 10)) 14 18 (fld v 14 18)) 0 1 0
    let ch := 2 * mc + fld v 1 1
    if bit v 0 ∧ ! bit old 62 ∧ m.chanState ch = 2 then
      (m.closeRow (bankKey ch (fld v 2 1) (fld v 3 3) (fld v 6 5))).setReg st 0 0x840 (setFld w 60 2 (max 1 (min result 3)))
    else m.setReg st 0 0x840 w

/-- Where the patrol of a channel goes on (R322). -/
def Mach.patrolAt (m : Mach) (ch : Nat) : Nat := Tab.get 0 m.patrols ch

/-- PATROL_SCRUB (R322): the next line of an ACTIVE channel is read, corrected and written back; regions that are not
initialised are skipped (R538). -/
def Mach.patrol (m : Mach) (mc : Nat) : Mach :=
  let st := mcStop mc
  let v := m.reg st 0 0x348
  let pick := fun (b : Nat) => decide (m.chanState (2 * mc + b) = 2) && decide (0 < m.capacity (2 * mc + b))
  let b := if pick (fld v 39 1) then fld v 39 1 else 1 - fld v 39 1
  let ch := 2 * mc + b
  if 6 ≤ mc ∨ ! bit (m.reg st 0 0x340) 0 ∨ ! pick b then m
  else
    let ca := m.patrolAt ch
    let inited := (m.regionsOf ch).map.testBit (ca / 0x200000)
    let m1 := if inited then m.readDram ch ca else m
    let next := if inited then ca + 64 else (ca / 0x200000 + 1) * 0x200000
    let done := decide (m.capacity ch ≤ next)
    let pos := if done then 0 else next
    let b' := if done && pick (1 - b) then 1 - b else b
    let m2 := { m1 with patrols := Tab.set 0 m1.patrols ch pos }
    let w := setFld (setFld v 6 33 (m2.patrolAt (2 * mc + b') / 64)) 39 1 b'
    let pass := done && (decide (b = 1) || ! pick 1)
    m2.setReg st 0 0x348 (if pass then setFld w 48 16 (min (fld w 48 16 + 1) 0xFFFF) else w)

/-- INTERNAL_PATROL (R322): a pass over the arrays of a class (4 CMEM, 5 L3, 7 LSRAM) in a window. -/
def Mach.innerPatrol (m : Mach) (st k : Nat) : Mach :=
  (m.upsets.filter (fun u => decide (u.st = st) && decide (u.k = k)
    && (decide (u.cls = 4) || decide (u.cls = 5) || decide (u.cls = 7)))).foldl (fun acc u => acc.meetUpset u) m

/-- Regions of a channel. -/
def Mach.regionCount (m : Mach) (ch : Nat) : Nat := m.capacity ch / 0x200000

/-- REGION_INIT_WALK (R538): the walk initialises the next region, and passes over those a write initialised. -/
def Mach.walkRegion (m : Mach) (ch : Nat) : Mach :=
  let r := m.regionsOf ch
  if m.chanState ch ≠ 2 ∨ m.regionCount ch ≤ r.next then m
  else { m with regions := Tab.set ⟨0, 0, 0⟩ m.regions ch ⟨r.map ||| 2 ^ r.next, r.next + 1, r.demand⟩ }

/-! ### Protection windows -/

/-- Entry INDEX of PROT_REMAPSEL, and how many a window has (R323, R324). -/
def Mach.remapIndex (m : Mach) (st k : Nat) : Nat :=
  let i := m.regFld st k 0x330 0 4
  match winBlk st k with
  | some (.l3h, _) => if i < 8 then i else 0
  | _ => i

/-- PROT_REMAP entry `i` of a window. -/
def Mach.remap (m : Mach) (st k i : Nat) : W64 := Tab.get 0 m.remaps ((st * 256 + k) * 16 + i)

/-- The errors at the location that an entry names are met when it is copied (R324). -/
def Mach.copyLocation (m : Mach) (st k : Nat) (v : W64) : Mach :=
  match winBlk st k with
  | some (.mc, mc) => m.readDram (2 * mc + fld v 39 1) (fld v 6 33 * 64)
  | some (.l3h, p) =>
    let ls := (m.slotsL3 p).filter (fun e => decide (l3Set e.line = fld v 0 12) && decide (e.way = fld v 12 4) && e.valid)
    (m.upsets.filter (fun u => decide (u.cls = 5) && ls.any (fun e => decide (e.line = u.pa / 64)))).foldl
      (fun acc u => acc.meetUpset u) m
  | _ => m

/-- A write of PROT_REMAP (R323, R324): the copy ends in the same step. -/
def Mach.remapWrite (m : Mach) (st k : Nat) (v : W64) : Mach :=
  let i := m.remapIndex st k
  let mc := match winBlk st k with
    | some (.mc, _) => true
    | _ => false
  let w := if mc then setFld (setFld (setFld 0 6 33 (fld v 6 33)) 39 1 (fld v 39 1)) 63 1 (fld v 63 1)
    else setFld (setFld 0 0 16 (fld v 0 16)) 63 1 (fld v 63 1)
  let n := if mc then 16 else 8
  let taken := (List.range n).any (fun j => decide (j ≠ i) && bit (m.remap st k j) 63
    && decide (fld (m.remap st k j) 0 40 = fld w 0 40))
  let has := match winBlk st k with
    | some (.mc, _) | some (.l3h, _) => true
    | _ => false
  if ! has ∨ (bit w 63 ∧ taken) then m
  else
    let old := m.remap st k i
    let m1 := if bit old 63 then m.copyLocation st k old else m
    let m2 := if bit w 63 then m1.copyLocation st k w else m1
    { m2 with remaps := Tab.set 0 m2.remaps ((st * 256 + k) * 16 + i) w }

/-- A write of PROT_LOGSEL (R320): values of INDEX at or above LOG_ENTRIES name entry 0. -/
def Mach.logSelWrite (m : Mach) (st k : Nat) (v : W64) : Mach :=
  let has := match winBlk st k with
    | some (b, _) => (findReg b 0x310).isSome
    | none => false
  if ! has then m else
  let old := m.reg st k 0x310
  let w := setFld (setFld old 0 5 (fld v 0 5)) 8 8 (fld v 8 8)
  let w := if bit v 32 then setFld w 16 16 0 else w
  let i := if fld v 0 5 < logEntries st k then fld v 0 5 else 0
  let m1 := m.setReg st k 0x310 w
  if bit v 7 then m1.setProtLog st k ((m1.protLog st k).modify i (fun _ => ⟨0, 0, 0, 0, false, false, 0, 0⟩)) else m1

/-! ### Commands -/

/-- MC_REQUEST (R295, R299): `summMiss` says whether the summary cache misses, `slots` how many command slots of the
sub-channel follow the arrival. -/
def execMcRequest (mst : Master) (line tc : Nat) (op : McOp) (summMiss : Bool) (slots : Nat) (s : State) : Out :=
  s.upd (fun m => m.mcRequest mst line tc op summMiss slots)

/-- MC_ORDER_WRITE (R298). -/
def execMcOrderWrite (mst : Master) (mc : Nat) (compat : Bool) (s : State) : Out :=
  s.upd (fun m => if 6 ≤ mc then m else m.window mst (mcStop mc) 0 0x40 (fun m => m.orderWrite mc compat))

/-- REFRESH (R301). -/
def execRefresh (ch sub rank bank : Nat) (postpone : Bool) (s : State) : Out :=
  s.upd (fun m => m.refresh ch sub rank bank postpone)

/-- CALIBRATION (R303). -/
def execCalibration (ch sub : Nat) (s : State) : Out := s.upd (fun m => m.calibrate ch sub)

/-- DPHY_FAIL (R305). -/
def execDphyFail (mst : Master) (ch : Nat) (s : State) : Out :=
  s.upd (fun m => if 12 ≤ ch then m else m.window mst (chanStop ch) (dphyWin ch) 0x58 (fun m => m.failChannel ch 5))

/-- DPHY_RETRAIN (R303). -/
def execDphyRetrain (mst : Master) (ch : Nat) (s : State) : Out :=
  s.upd (fun m => if 12 ≤ ch then m else m.window mst (chanStop ch) (dphyWin ch) 0x58 (fun m => m.retrain ch))

/-- PARITY_RETRY_FAIL (R305): three retries of a command failed. -/
def execParityRetryFail (ch : Nat) (s : State) : Out :=
  s.upd (fun m => if m.chanState ch = 2 then m.failChannel ch 4 else m)

/-- BANKMASK_WRITE (R291). -/
def execBankmaskWrite (mst : Master) (ch j : Nat) (v : W64) (s : State) : Out :=
  s.upd (fun m => if 12 ≤ ch then m
    else m.window mst (chanStop ch) (dphyWin ch) (0x800 + 8 * j) (fun m => m.bankMask ch j v))

/-- SPPR_START (R325). -/
def execSpprStart (mst : Master) (mc : Nat) (v : W64) (result : Nat) (s : State) : Out :=
  s.upd (fun m => if 6 ≤ mc then m else m.window mst (mcStop mc) 0 0x840 (fun m => m.sppr mc v result))

/-- PATROL_SCRUB (R322). -/
def execPatrolScrub (mc : Nat) (s : State) : Out := s.upd (fun m => m.patrol mc)

/-- INTERNAL_PATROL (R322). -/
def execInternalPatrol (st k : Nat) (s : State) : Out := s.upd (fun m => m.innerPatrol st k)

/-- REGION_INIT_WALK (R538). -/
def execRegionInitWalk (ch : Nat) (s : State) : Out := s.upd (fun m => if 12 ≤ ch then m else m.walkRegion ch)

/-- PROT_REMAP_WRITE (R324). -/
def execProtRemapWrite (mst : Master) (st k : Nat) (v : W64) (s : State) : Out :=
  s.upd (fun m => m.window mst st k 0x338 (fun m => m.remapWrite st k v))

/-- PROT_LOGSEL_WRITE (R320). -/
def execProtLogselWrite (mst : Master) (st k : Nat) (v : W64) (s : State) : Out :=
  s.upd (fun m => m.window mst st k 0x310 (fun m => m.logSelWrite st k v))

/-- ROW_IDLE_CLOSE (R296). -/
def execRowIdleClose (ch sub rank bank : Nat) (s : State) : Out :=
  s.upd (fun m => m.closeRow (bankKey ch sub rank bank))

end Sys2Proof.Machine
end

