-- ==== Sys2Proof/Machine/Caldera.lean ====
section
/-!
DEFINITION. The fault collector's sources (R330 to R333, R336, R338) and entry into the Caldera state (R304, R340 to R342).
-/

namespace Sys2Proof.Machine

/-! ### Sources -/

/-- The stop that owns a source (R329). -/
def srcStop (src : Nat) : Nat :=
  ((List.range 56).find? (fun s => decide ((faultRange s).1 ≤ src) && decide (src < (faultRange s).1 + (faultRange s).2))).getD 0

/-- Severity and default reactions of the sources of a stop kind, by offset (R330); EVT is 1, BRST 4, PIN 16, CALD 32. -/
def srcTable (st : Nat) : List (Nat × Nat) :=
  match stopKind st with
  | .syt => [(2, 1), (0, 1), (3, 48), (1, 1), (3, 48), (3, 48), (1, 1), (1, 1), (1, 1), (1, 1), (2, 17), (1, 1), (0, 1), (3, 48)]
  | .pod _ => [(2, 1), (0, 1), (1, 1), (2, 1), (2, 5), (3, 48), (2, 1), (2, 1), (2, 1), (2, 1)]
  | .cc _ => [(2, 1), (0, 1), (1, 1), (2, 1), (3, 48), (2, 1), (2, 1), (2, 1), (2, 1), (2, 1), (2, 1), (2, 1), (2, 1)]
  | .mc _ => [(2, 1), (0, 1), (1, 1), (2, 1), (2, 17), (3, 48)]
  | .px _ => [(2, 1), (1, 1), (2, 1), (3, 48)]
  | .le _ => [(2, 1), (0, 1), (1, 1), (2, 1), (1, 1), (1, 1), (2, 1), (3, 48)]
  | .hio _ => [(2, 1), (1, 1), (2, 1), (3, 48)]
  | .mnt => [(2, 1), (2, 1), (3, 48)]
  | .none => []

/-- Whether a source is not reserved (R330). -/
def srcReal (src : Nat) : Bool :=
  decide (src < 512) && decide (src - (faultRange (srcStop src)).1 < (srcTable (srcStop src)).length)

/-- Severity and default reactions of a source. -/
def srcInfo (src : Nat) : Nat × Nat :=
  ((srcTable (srcStop src))[src - (faultRange (srcStop src)).1]?).getD (0, 0)

/-- The severity of a source (R330, R331). -/
def srcSev (src : Nat) : Nat := (srcInfo src).1

/-- Whether BRST may be set for a source (R333). -/
def srcRstOk (src : Nat) : Bool :=
  match stopKind (srcStop src) with
  | .syt | .mc _ | .none => false
  | _ => true

/-- A source that never occurred, with its default reactions. -/
def FcSrc.fresh (src : Nat) : FcSrc := ⟨(srcInfo src).2, 0, 0, false, false, false⟩

/-- The collector's record of a source. -/
def Mach.fc (m : Mach) (src : Nat) : FcSrc := Tab.get (FcSrc.fresh src) m.fcSrc src

/-- Write it. -/
def Mach.setFc (m : Mach) (src : Nat) (x : FcSrc) : Mach := { m with fcSrc := Tab.set (FcSrc.fresh src) m.fcSrc src x }

/-- Whether the device drives ERR_N low (R338, R529). -/
def Mach.errDriven (m : Mach) : Bool :=
  decide (m.phase = .caldera) || decide (m.phase = .bootStop)
    || (decide (m.phase ≠ .reset) && m.fcSrc.any (fun p => p.2.pend && p.2.react.testBit 4))

/-- A write of FC_SRC_CFG for the selected source (R333, R345). -/
def Mach.srcCfgWrite (m : Mach) (v : W64) : Mach :=
  let src := m.regFld 0 2 0x50 0 9
  if bit (m.reg 0 2 0x40) 0 ∨ (bit v 2 ∧ ! srcRstOk src) then m
  else m.setFc src { m.fc src with react := fld v 0 6 }

/-! ### The Caldera state -/

/-- The controllers complete what they accepted and place every ACTIVE channel in self-refresh (R304). -/
def Mach.selfRefresh (m : Mach) : Mach :=
  let m1 := (List.range 12).foldl (fun acc ch =>
    if acc.chanState ch = 2 then acc.setRegFld (chanStop ch) (dphyWin ch) 0x40 0 3 3 else acc)
      { m with mcReqs := [], mcRetried := [], mcDrain := [], mcTc3 := [], rows := [], refreshDue := [] }
  (List.range 6).foldl (fun acc mc => acc.positionStat mc) m1

/-- Homes complete the transactions that hold data and drop the others (R30, R341). -/
def Mach.settleHomes (m : Mach) : Mach :=
  let held := m.txns.filter (fun t => match t.kind with
    | .wru | .wrm | .atomf => true
    | _ => false)
  let m1 := held.foldl (fun acc t => acc.complete t) { m with txns := [] }
  { m1 with txns := [], retried := [], gone := [], heldReqs := [], wbufs := [] }

/-- Dirty lines still in caches are lost: memory's contents are the latest (R304, R341). -/
def Mach.loseCaches (m : Mach) : Mach :=
  let m1 := m.stale.foldl (fun acc p => acc.revertLine p.1) m
  { m1 with stale := [], dir := [], l3 := [] }

/-- What is left of a core when the device halts: its context state (R341). -/
def Core.discarded (x : Core) : Core := { Core.reset with st := x.st }

/-- Entry into the Caldera state (R340 to R342), with FC_CALD's CAUSE, SRC, SHADOW and INJ. -/
def Mach.caldera (m : Mach) (cause src : Nat) (shadow inj : Bool) : Mach :=
  if m.phase = .caldera then m
  else
    let old := m.reg 0 2 0x190
    let v := setFld (setBit (setBit (setFld (setFld 0 0 2 cause) 16 9 src) 25 shadow) 26 inj) 32 16
      (min (fld old 32 16 + 1) 0xFFFF)
    let m1 := (m.setReg 0 2 0x190 v).setReg 0 2 0x198 m.dtNow
    let m2 := (m1.settleHomes.loseCaches).selfRefresh
    { m2 with
      phase := .caldera
      caldLow := true
      warm := false
      dbg := none
      power := { m2.power with queue := [], deferred := [] }
      cores := Tab.mapV Core.reset (fun _ x => x.discarded) m2.cores }

/-- Begin a chip warm reset (R332, R541): ignored in the Caldera state, where only RESET_N and the mailbox reset. -/
def Mach.beginWarm (m : Mach) : Mach := if m.phase = .caldera then m else { m with warm := true }

end Sys2Proof.Machine
end

