-- ==== Sys2Proof/Machine/Ports.lean ====
section
/-!
DEFINITION. Port complexes, ingress side and tables (R348 to R364, R371, R377 to R383): the MAC, stream identification,
filters, gates, meters, recovery, hand-over to the engines, flow control, links, DMA halts and the table commands.
-/

namespace Sys2Proof.Machine

/-! ### Where things are -/

/-- The stop of port `q` (R348). -/
def portStop (q : Nat) : Nat := pxStop (q / 32)
/-- The window of port `q`. -/
def portWin (q : Nat) : Nat := q % 32 + 1
/-- A register of port `q`. -/
def Mach.portReg (m : Mach) (q off : Nat) : W64 := m.reg (portStop q) (portWin q) off
/-- What port `q` holds. -/
def Mach.port (m : Mach) (q : Nat) : PortRt := Tab.get .idle m.ports q
/-- Write it. -/
def Mach.setPort (m : Mach) (q : Nat) (x : PortRt) : Mach := { m with ports := Tab.set .idle m.ports q x }
/-- Count in a field of a port's register. -/
def Mach.countPort (m : Mach) (q off lo n : Nat) : Mach := m.countReg (portStop q) (portWin q) off lo n 1
/-- Whether port `q`'s link is up (R377). -/
def Mach.linkUp (m : Mach) (q : Nat) : Bool := bit (m.portReg q 0x48) 0
/-- Count a happening of a complex (R508). -/
def Mach.countPx (m : Mach) (px ev : Nat) : Mach := m.countUncore (pxStop px) (.plain ev) 1

/-- The key of an entry of a stream table (R382). -/
def sfKey (px table idx : Nat) : Nat := (px * 8 + table) * 4096 + idx
/-- Word `i` of an entry. -/
def Mach.sf (m : Mach) (px table idx i : Nat) : W64 := ((Tab.get [] m.pxTab (sfKey px table idx))[i]?).getD 0
/-- Write an entry. -/
def Mach.setSf (m : Mach) (px table idx : Nat) (ws : List W64) : Mach :=
  { m with pxTab := Tab.set [] m.pxTab (sfKey px table idx) (if ws.all (fun w => decide (w = 0)) then [] else ws) }
/-- Change word `i` of an entry. -/
def Mach.modSf (m : Mach) (px table idx i : Nat) (f : W64 → W64) : Mach :=
  m.setSf px table idx ((List.range 4).map (fun j => if j = i then f (m.sf px table idx j) else m.sf px table idx j))
/-- Count in a field of a word of an entry, saturating. -/
def Mach.countSf (m : Mach) (px table idx i lo n : Nat) : Mach :=
  m.modSf px table idx i (fun w => setFld w lo n (min (fld w lo n + 1) (2 ^ n - 1)))

/-! ### Frames -/

/-- Byte `i` of a frame. -/
def byteAt (bs : List (BitVec 8)) (i : Nat) : Nat := ((bs[i]?).getD 0).toNat
/-- Two bytes, the first the higher. -/
def be16 (bs : List (BitVec 8)) (i : Nat) : Nat := byteAt bs i * 256 + byteAt bs (i + 1)
/-- A MAC address. -/
def macAt (bs : List (BitVec 8)) (i : Nat) : Nat := be16 bs i * 2 ^ 32 + be16 bs (i + 2) * 2 ^ 16 + be16 bs (i + 4)
/-- Whether the outermost tag is a C-tag or an S-tag (R351). -/
def isTagged (bs : List (BitVec 8)) : Bool := decide (be16 bs 12 = 0x8100) || decide (be16 bs 12 = 0x88A8)
/-- The VID of a tagged frame (R351). -/
def vidOf (bs : List (BitVec 8)) : Nat := be16 bs 14 % 4096
/-- The priority of a frame (R351). -/
def Mach.priOf (m : Mach) (q : Nat) (bs : List (BitVec 8)) : Nat :=
  if isTagged bs then be16 bs 14 / 2 ^ 13 else fld (m.portReg q 0x50) 13 3
/-- The number in a frame's R-TAG, which follows the addresses or the tag (R353, R364). -/
def rtagOf (bs : List (BitVec 8)) : Option Nat :=
  let o := if isTagged bs then 16 else 12
  if be16 bs o = 0xF1C1 then some (be16 bs (o + 4)) else none
/-- The frame without its R-TAG. -/
def dropRtag (bs : List (BitVec 8)) : List (BitVec 8) :=
  let o := if isTagged bs then 16 else 12
  bs.take o ++ bs.drop (o + 6)
/-- The largest frame of a port (R350). -/
def Mach.maxFrm (m : Mach) (q : Nat) : Nat := fld (m.portReg q 0x40) 8 14
/-- The payload rate of a port in kb/s (R348). -/
def Mach.portRate (m : Mach) (q : Nat) : Nat := if bit (m.portReg q 0x40) 0 then 25000000 else 10000000

/-- Count a frame and its bytes in a port's Fumarole window where its priority counts (R506). -/
def Mach.fumCount (m : Mach) (q pri len : Nat) (sent last : Bool) : Mach :=
  let cfg := m.reg (portStop q) 0x23 0x380
  if ! bit cfg 63 ∨ ! bit cfg (32 + pri % 8) then m
  else
    let x := m.port q
    let add := fun (p : Nat × Nat) => (p.1 + len, p.2 + if last then 1 else 0)
    m.setPort q (if sent then { x with tx := add x.tx } else { x with rx := add x.rx })

/-! ### The ingress buffer and flow control -/

/-- The frames that complex `px` holds for the engines. -/
def Mach.held (m : Mach) (px : Nat) : List Handover := (m.handovers.filter (fun p => decide (p.1 = px))).map Prod.snd
/-- Bytes of a list of frames. -/
def sumBytes (hs : List Handover) : Nat := hs.foldl (fun n h => n + h.bytes.length) 0

/-- Where the buffer has space for a frame (R360): `some true` in the TC0 reservation, `some false` in the shared part. -/
def Mach.bufferSpace (m : Mach) (px n : Nat) (tc0 : Bool) : Option Bool :=
  let r := fld (m.reg (pxStop px) 0 0x48) 0 13 * 1024
  let hs := m.held px
  if tc0 ∧ sumBytes (hs.filter (fun h => h.tc0)) + n ≤ r then some true
  else if sumBytes (hs.filter (fun h => ! h.tc0)) + n ≤ 8 * 2 ^ 20 - r then some false
  else none

/-- The port sends PFC when its frames hold more than XOFF of the shared buffer, and releases the pause below XON (R352). -/
def Mach.pfcUpdate (m : Mach) (q : Nat) : Mach :=
  let px := q / 32
  let b := m.reg (pxStop px) 0 0x48
  let n := sumBytes ((m.held px).filter (fun h => decide (h.port = q) && ! h.tc0))
  let x := m.port q
  if fld b 16 8 * 4096 < n then m.setPort q { x with pfc := fld (m.portReg q 0x40) 32 8 }
  else if n < fld b 24 8 * 4096 then m.setPort q { x with pfc := 0 }
  else m

/-- A received PAUSE (bit 8) or PFC frame sets or, with time 0, ends the pause of priorities (R352). -/
def Mach.pauseFrame (m : Mach) (q : Nat) (pfc : Bool) (enable : Nat) (times : List Nat) : Mach :=
  let cfg := m.portReg q 0x40
  let x := m.port q
  let put := fun (mask i t : Nat) => if t = 0 then mask &&& (511 - 2 ^ i) else mask ||| 2 ^ i
  if pfc then
    m.setPort q { x with paused := (List.range 8).foldl (fun mask i =>
      if enable.testBit i ∧ bit cfg (40 + i) then put mask i ((times[i]?).getD 0) else mask) x.paused }
  else if bit cfg 7 then m.setPort q { x with paused := put x.paused 8 ((times[0]?).getD 0) }
  else m

/-! ### Tables -/

/-- The stream that a frame belongs to (R355): an entry scoped to the port before one for any port, then the lowest. -/
def Mach.streamOf (m : Mach) (q : Nat) (bs : List (BitVec 8)) : Option Nat :=
  let px := q / 32
  let hit := fun (any : Bool) (p : Nat × List W64) =>
    let w0 := (p.2[0]?).getD 0
    let w1 := (p.2[1]?).getD 0
    decide (p.1 / 4096 = px * 8) && bit w0 63 && (bit w0 53 == any) && (any || decide (fld w0 48 5 = q % 32))
      && decide (fld w0 0 48 = if bit w0 60 then macAt bs 6 else macAt bs 0)
      && (bit w1 12 == isTagged bs) && (! bit w1 12 || decide (fld w1 0 12 = vidOf bs))
  let handle := fun (p : Nat × List W64) => fld ((p.2[1]?).getD 0) 16 12
  match m.pxTab.find? (hit false) with
  | some p => some (handle p)
  | none => (m.pxTab.find? (hit true)).map handle

/-- The entry of a schedule that holds at offset `t` of its cycle, and the offset at which it ends: `iv` gives the
intervals, of which the last holds to the end of the cycle (R357, R368). -/
def schedAt (iv : Nat → Nat) (n cycle t : Nat) : Nat → Nat → Nat × Nat
  | 0, start => (n - 1, max cycle start)
  | k + 1, start =>
    let i := n - 1 - k
    let stop := start + iv i
    if k = 0 ∨ cycle ≤ stop then (i, cycle)
    else if t < stop then (i, stop)
    else schedAt iv n cycle t k stop

/-- Whether stream gate `g` is open at device time `t` (R357). Before its base the schedule says nothing: a free value
decides. -/
def Mach.gateOpen (m : Mach) (px g t : Nat) : Bool × Mach :=
  let n := fld (m.sf px 2 g 0) 0 4
  let cycle := fld (m.sf px 2 g 1) 0 32
  let base := (m.sf px 2 g 2).toNat
  if t < base then (bit m.fresh 0, m.drawn)
  else
    let (i, _) := schedAt (fun i => fld (m.sf px 3 (8 * g + i) 0) 32 32) n cycle ((t - base) % cycle) n 0
    (bit (m.sf px 3 (8 * g + i) 0) 0, m)

/-- The colours of R358. -/
inductive Colour where
  | green | yellow | red
  deriving DecidableEq, Repr, Inhabited

/-- Meter a frame of `n` bytes at time `t` (R358): the buckets fill at CIR and EIR, with CF the committed overflow joins the
excess bucket. -/
def Mach.meterFrame (m : Mach) (px i n t : Nat) : Colour × Mach :=
  let w0 := m.sf px 4 i 0
  let w1 := m.sf px 4 i 1
  let cbs := fld w1 0 24 * 8000000
  let ebs := fld w1 24 24 * 8000000
  let old := (m.meters.lookup (px * 2048 + i)).getD ⟨cbs, ebs, t⟩
  let dt := t - old.t
  let c1 := old.c + fld w0 0 32 * dt
  let spill := if bit w1 48 then c1 - cbs else 0
  let c2 := min c1 cbs
  let e2 := min (old.e + fld w0 32 32 * dt + spill) ebs
  let need := (n + 24) * 8000000
  let save := fun (c e : Nat) => { m with meters := Tab.ins m.meters (px * 2048 + i) ⟨c, e, max t old.t⟩ }
  if need ≤ c2 then (.green, save (c2 - need) e2)
  else if need ≤ e2 then (.yellow, save c2 (e2 - need))
  else (.red, save c2 e2)

/-- Sequence recovery (R364, IEEE 802.1CB): whether the frame passes, and the history after it. `vec` is the vector
algorithm. -/
def recoverSeq (vec : Bool) (len : Nat) (h : Option RcvHist) (n : Nat) : Bool × RcvHist :=
  match h with
  | none => (true, ⟨n, 1⟩)
  | some h =>
    let d := (n + 65536 - h.seq) % 65536
    if ! vec then (decide (d ≠ 0), ⟨n, 1⟩)
    else if d = 0 then (false, h)
    else if d < 32768 then (if d < len then (true, ⟨n, (h.hist * 2 ^ d + 1) % 2 ^ len⟩) else (false, h))
    else
      let back := 65536 - d
      if back < len ∧ ! h.hist.testBit back then (true, ⟨h.seq, h.hist ||| 2 ^ back⟩) else (false, h)

/-! ### The ingress pipeline -/

/-- A refusal in the complex that PX_PORT_DROP.BUF counts (R362). -/
def Mach.refuseBuf (m : Mach) (q : Nat) : Mach := (m.countPort q 0x80 16 16).countPx (q / 32) 0x281

/-- A valid filter's event for a refusal (R362). -/
def Mach.refEvent (m : Mach) (px h : Nat) : Mach :=
  let w := m.sf px 1 h 1
  if bit (m.sf px 1 h 0) 63 ∧ bit w 26 then m.raiseAssigned (fld w 16 10) else m

/-- A refusal in the complex that the filter counts in field `lo` of its word 3 (R362). -/
def Mach.refuseFilter (m : Mach) (px h lo : Nat) : Mach :=
  ((m.countSf px 1 h 3 lo 16).countPx px 0x281).refEvent px h

/-- Whether the engine of a queue can take records at all: it has power and is not fused off (R359). -/
def Mach.engineHere (m : Mach) (queue : Nat) : Bool := m.answers (leStop (queue / 2048)) 0

/-- Step 7 (R359): the frame joins the hand-overs of its complex, or is refused where its engine cannot take it. -/
def Mach.steer (m : Mach) (q queue : Nat) (handle : Option Nat) (bs : List (BitVec 8)) (pri ts : Nat) (tc0 : Bool) : Mach :=
  let px := q / 32
  let m1 := m.countPx px 0x280
  if m.engineHere queue then
    ({ m1 with handovers := m1.handovers ++ [(px, (⟨q, queue, bs, handle, pri, ts, tc0⟩ : Handover))] }).pfcUpdate q
  else
    let m2 := m1.countPx px 0x281
    match handle with
    | some h => (m2.countSf px 1 h 3 48 16).refEvent px h
    | none => m2.countPort q 0x80 16 16

/-- Steps 3 to 7 for a frame of stream `h` (R356 to R359, R364). -/
def Mach.streamSteps (m : Mach) (q h : Nat) (bs : List (BitVec 8)) (pri ts : Nat) (tc0 : Bool) : Mach :=
  let px := q / 32
  let w0 := m.sf px 1 h 0
  if ! bit w0 63 then m.refuseBuf q
  else
    let m1 := m.countSf px 1 h 2 0 32
    if bit w0 61 then m1.refuseFilter px h 0
    else if fld w0 16 14 < bs.length then
      (if bit w0 60 then m1.modSf px 1 h 0 (fun w => setBit w 61 true) else m1).refuseFilter px h 0
    else
      let g := fld w0 32 9
      let gw := m1.sf px 2 g 0
      let (open_, m2) := if ! bit w0 41 then (true, m1) else if ! bit gw 63 ∨ bit gw 61 then (false, m1) else m1.gateOpen px g ts
      if ! open_ then
        (if bit gw 63 ∧ bit gw 62 then m2.modSf px 2 g 0 (fun w => setBit w 61 true) else m2).refuseFilter px h 16
      else
        let i := fld w0 48 11
        let mw := m2.sf px 4 i 1
        let (col, m3) := if ! bit w0 59 then (Colour.green, m2)
          else if ! bit mw 63 ∨ bit mw 51 then (Colour.red, m2) else m2.meterFrame px i bs.length ts
        if col = .red then
          (if bit mw 63 ∧ bit mw 50 then m3.modSf px 4 i 1 (fun w => setBit w 51 true) else m3).refuseFilter px h 32
        else if col = .yellow ∧ bit mw 49 then m3.refuseFilter px h 32
        else
          let m4 := m3.countSf px 1 h 2 32 32
          let r := fld (m4.sf px 1 h 1) 0 10
          let rw := m4.sf px 5 r 0
          let queue := fld w0 0 12
          if ! bit w0 62 then m4.steer q queue (some h) bs pri ts tc0
          else if ! bit rw 63 then ((m4.countSf px 5 r 2 0 32).countPx px 0x281).refEvent px h
          else match rtagOf bs with
            | none => if bit rw 32 then m4.steer q queue (some h) bs pri ts tc0
                      else ((m4.countSf px 5 r 2 0 32).countPx px 0x281).refEvent px h
            | some n =>
              let (pass, hist) := recoverSeq (! bit rw 0) (fld rw 8 5)
                (m4.hists.lookup (px * 1024 + r)) n
              let m5 := { m4 with hists := Tab.ins m4.hists (px * 1024 + r) hist }
              if pass then (m5.countSf px 5 r 1 0 32).steer q queue (some h) (dropRtag bs) pri ts tc0
              else m5.countSf px 5 r 1 32 32

/-- The class of a queue (R384). -/
def Mach.queueTc (m : Mach) (queue : Nat) : Nat := fld (Tab.get .reset m.queues queue).w0 0 2

/-- Whether a complex or port takes no new frame (R23, R380). -/
def Mach.portShut (m : Mach) (q : Nat) : Bool :=
  let a := m.blk (portStop q) 0
  let b := m.blk (portStop q) (portWin q)
  ! a.enable || a.quiesce || a.disabling || b.quiesce || b.disabling

/-- The pipeline of R354 for a frame that the MAC passed. -/
def Mach.ingress (m : Mach) (q : Nat) (f : RxFrame) : Mach :=
  let px := q / 32
  let ts := (f.time - fld (m.portReg q 0x60) 0 16) / 16
  let pri := m.priOf q f.bytes
  let h := m.streamOf q f.bytes
  let tc0 := match h with
    | some h => bit (m.sf px 1 h 0) 63 && decide (m.queueTc (fld (m.sf px 1 h 0) 0 12) = 0)
    | none => false
  if m.phase ≠ .run ∨ m.portShut q ∨ bit (m.portReg q 0x78) 0 then m.refuseBuf q
  else match m.bufferSpace px f.bytes.length tc0 with
  | none => m.refuseBuf q
  | some inTc0 =>
    match h with
    | some h => m.streamSteps q h f.bytes pri ts inTc0
    | none =>
      let s := m.portReg q 0x50
      if bit s 12 then m.steer q (fld s 0 12) none f.bytes pri ts inTc0 else m.refuseBuf q

/-- FRAME_RECEIVE (R350, R352, R354, R506): the MAC counts, discards, consumes flow control, or passes the frame on. -/
def Mach.frameReceive (m : Mach) (q : Nat) (f : RxFrame) : Mach :=
  let len := f.bytes.length + 4
  if 128 ≤ q ∨ ! m.answers (portStop q) (portWin q) ∨ ! (m.blk (portStop q) (portWin q)).enable then m
  else if ! m.linkUp q then m.countPort q 0x80 0 16
  else
    let m1 := m.fumCount q (m.priOf q f.bytes) len false true
    if f.bad ∨ len < 64 ∨ m.maxFrm q < len then m1.countPort q 0x80 0 16
    else if be16 f.bytes 12 = 0x8808 then
      (if be16 f.bytes 14 = 0x0101 then m1.pauseFrame q true (be16 f.bytes 16) ((List.range 8).map (fun i => be16 f.bytes (18 + 2 * i)))
       else if be16 f.bytes 14 = 0x0001 then m1.pauseFrame q false 0 [be16 f.bytes 16] else m1)
    else m1.ingress q f

/-! ### Links -/

/-- The state of a port's link changed (R377). -/
def Mach.linkChanged (m : Mach) (q : Nat) : Mach :=
  let s := m.portReg q 0x50
  let m1 := (m.countPort q 0x48 16 16).raiseSrc (portStop q) 1 none (portStop q) (q % 32) none
  if bit s 26 then m1.raiseAssigned (fld s 16 10) else m1

/-- LINK_UP (R377): the PCS is locked and no fault is received. -/
def Mach.portUp (m : Mach) (q : Nat) : Mach :=
  let v := m.portReg q 0x48
  if 128 ≤ q ∨ ! m.answers (portStop q) (portWin q) ∨ ! (m.blk (portStop q) (portWin q)).enable ∨ bit v 0 ∨ ! bit v 1 ∨ bit v 2
      ∨ bit v 3 then m
  else ((m.setRegBit (portStop q) (portWin q) 0x48 0 true).setPort q { m.port q with downEnded := false }).linkChanged q

/-- VSTAT when verification starts anew (R370): off without preemption at R25G, active at once with VERIFY_DIS, else verifying. -/
def vstatStart (cfg : W64) : Nat := if ! bit cfg 3 ∨ ! bit cfg 0 then 0 else if bit cfg 6 then 2 else 1

/-- A port's lock acquisition begins (R349, R378, R380): the link is down and its hold time runs anew. -/
def Mach.relock (m : Mach) (q : Nat) : Mach :=
  let was := m.linkUp q
  let x := m.port q
  let m1 := if x.cut.isSome then m.countPort q 0x80 32 16 else m
  let m2 := (m1.setReg (portStop q) (portWin q) 0x48 (setFld (setFld (m1.portReg q 0x48) 0 4 0) 4 2 (vstatStart (m1.portReg q 0x40)))).setPort q
    { x with downEnded := false, cut := none }
  if was then m2.linkChanged q else m2

/-- LINK_DOWN (R377, R378): lock is lost (0), or a local (1) or remote (2) fault is met. -/
def Mach.portDown (m : Mach) (q why : Nat) : Mach :=
  let st := portStop q
  let k := portWin q
  if 128 ≤ q ∨ ! m.answers st k then m
  else
    let m1 := if why = 0 then m.setRegBit st k 0x48 1 false else m.setRegBit st k 0x48 (if why = 1 then 2 else 3) true
    if ! m.linkUp q then m1
    else
      let x := m1.port q
      let m2 := if x.cut.isSome then m1.countPort q 0x80 32 16 else m1
      ((m2.setRegBit st k 0x48 0 false).setPort q { x with downEnded := false, cut := none }).linkChanged q

/-- PCS_BLOCK_LOCK (R377): lock is gained, and faults that are no longer received clear. -/
def Mach.blockLock (m : Mach) (q : Nat) : Mach :=
  if 128 ≤ q ∨ ! m.answers (portStop q) (portWin q) ∨ ! (m.blk (portStop q) (portWin q)).enable then m
  else m.setReg (portStop q) (portWin q) 0x48 (setFld (m.portReg q 0x48) 1 3 1)

/-! ### Port registers -/

/-- The device path latencies of R371: TSLAT for a rate and FEC mode. -/
def tslat (cfg : W64) : W64 :=
  let f := fld cfg 1 2
  let (rx, tx) := if bit cfg 0 then (if f = 2 then (940, 432) else if f = 1 then (736, 392) else (504, 292))
    else (if f = 1 then (1420, 596) else (832, 456))
  setFld (setFld 0 0 16 rx) 16 16 tx

/-- A write of PX_PORT_CFG (R348 to R350, R370, R371). -/
def Mach.portCfg (m : Mach) (q : Nat) (v : W64) : Mach :=
  let st := portStop q
  let k := portWin q
  let old := m.portReg q 0x40
  let frm := fld v 8 14
  if (bit v 0 = false ∧ fld v 1 2 = 2) ∨ fld v 1 2 = 3 then m.setRegBit st k 0x48 8 true
  else if frm < 64 ∨ 9600 < frm then m
  else
    let badPre := bit v 3 && ! bit v 0
    let w0 := setFld (setFld 0 0 22 (fld v 0 22)) 32 16 (fld v 32 16)
    let w := if badPre then setBit w0 3 (bit old 3) else w0
    let m1 := m.setReg st k 0x40 w
    let m2 := if badPre then m1.setRegBit st k 0x48 8 true else m1
    let m3 := if fld old 0 3 ≠ fld w 0 3 then
        let m4 := m2.setReg st k 0x60 (tslat w)
        if (m.blk st k).enable then m4.relock q else m4
      else m2
    if bit w 3 = false ∨ bit w 0 = false then m3.setRegFld st k 0x48 4 2 0
    else if bit w 6 then m3.setRegFld st k 0x48 4 2 2
    else if fld (m3.portReg q 0x48) 4 2 = 0 then m3.setRegFld st k 0x48 4 2 1 else m3

/-- PREEMPT_VERIFY (R370): verification completes or fails. -/
def Mach.preemptVerify (m : Mach) (q : Nat) (ok : Bool) : Mach :=
  if fld (m.portReg q 0x48) 4 2 = 1 then m.setRegFld (portStop q) (portWin q) 0x48 4 2 (if ok then 2 else 3) else m

/-- A write of PX_PAIRn (R363). -/
def Mach.pairWrite (m : Mach) (px n : Nat) (v : W64) : Mach :=
  let a := fld v 0 5
  let b := fld v 8 5
  let names := fun (w : W64) (p : Nat) => decide (fld w 0 5 = p) || decide (fld w 8 5 = p)
  let taken := (List.range 16).any (fun i =>
    let w := m.reg (pxStop px) 0 (0x80 + 8 * i)
    decide (i ≠ n) && bit w 63 && (names w a || names w b))
  if 16 ≤ n ∨ a = b ∨ taken then m
  else m.setReg (pxStop px) 0 (0x80 + 8 * n) (setFld (setFld (setFld 0 0 5 a) 8 5 b) 63 1 (fld v 63 1))

/-- The twin of a port in an enabled replication pair (R363). -/
def Mach.twinOf (m : Mach) (q : Nat) : Option Nat :=
  (List.range 16).findSome? (fun i =>
    let w := m.reg (portStop q) 0 (0x80 + 8 * i)
    if ! bit w 63 then none
    else if fld w 0 5 = q % 32 then some (q / 32 * 32 + fld w 8 5)
    else if fld w 8 5 = q % 32 then some (q / 32 * 32 + fld w 0 5)
    else none)

/-- A DMA channel of a port halts at `pa` (R316, R379). -/
def Mach.portHalt (m : Mach) (q pa : Nat) (egress : Bool) : Mach :=
  let v := m.portReg q 0x78
  let i := if egress then 1 else 0
  if bit v i then m
  else
    let w := setBit (setBit v i true) (2 + i) true
    let w := if fld v 2 2 = 0 then setFld w 18 46 (pa / 64) else w
    (m.setReg (portStop q) (portWin q) 0x78 w).raiseSrc (portStop q) 2 (some ((m.carveOf pa).getD pa)) (portStop q) (q % 32) none

/-- A write of PX_PORT_DMA (R379): cause bits clear, and a resumed channel runs where its cause reads 0. -/
def Mach.portDma (m : Mach) (q : Nat) (v : W64) : Mach :=
  let old := m.portReg q 0x78
  let w := if bit v 2 then setBit old 2 false else old
  let w := if bit v 3 then setBit w 3 false else w
  let w := if bit v 4 ∧ ! bit w 2 then setBit w 0 false else w
  let w := if bit v 5 ∧ ! bit w 3 then setBit w 1 false else w
  m.setReg (portStop q) (portWin q) 0x78 w

/-! ### Table commands -/

/-- Entries of a stream table (R382). -/
def sfSize (t : Nat) : Nat :=
  if t = 0 ∨ t = 1 ∨ t = 3 then 4096 else if t = 2 then 512 else if t = 4 then 2048 else if t = 5 ∨ t = 6 then 1024 else 0

/-- The bits of an entry's words that a write sets (R382). -/
def sfMask (t i : Nat) : W64 :=
  if t = 0 then (if i = 0 then 0x903FFFFFFFFFFFFF else if i = 1 then 0x0FFF1FFF else 0)
  else if t = 1 then (if i = 0 then 0xDFFF03FF3FFF0FFF else if i = 1 then 0x07FF03FF else 0)
  else if t = 2 then (if i = 0 then 0xC00000000000000F else if i = 1 then 0xFFFFFFFF else if i = 2 then 0xFFFFFFFFFFFFFFFF else 0)
  else if t = 3 then (if i = 0 then 0xFFFFFFFF00000001 else 0)
  else if t = 4 then (if i = 0 then 0xFFFFFFFFFFFFFFFF else if i = 1 then 0x8007FFFFFFFFFFFF else 0)
  else if t = 5 then (if i = 0 then 0x80000001FFFF1F01 else 0)
  else if t = 6 then (if i = 0 then 0x800000000000FFFF else 0)
  else 0

/-- Whether a write of an entry is refused (R355, R357, R364). -/
def Mach.sfRefused (m : Mach) (px t idx : Nat) (w : Nat → W64) : Bool :=
  if t = 0 then
    bit (w 0) 63 && m.pxTab.any (fun p =>
      let x := (p.2[0]?).getD 0
      let y := (p.2[1]?).getD 0
      decide (p.1 / 4096 = px * 8) && decide (p.1 % 4096 ≠ idx) && bit x 63 && (bit x 60 == bit (w 0) 60)
        && decide (fld x 0 48 = fld (w 0) 0 48) && (bit y 12 == bit (w 1) 12)
        && (! bit y 12 || decide (fld y 0 12 = fld (w 1) 0 12)) && (bit x 53 == bit (w 0) 53)
        && (bit x 53 || decide (fld x 48 5 = fld (w 0) 48 5)))
  else if t = 2 then bit (w 0) 63 && (decide (fld (w 0) 0 4 < 1) || decide (8 < fld (w 0) 0 4) || decide (fld (w 1) 0 32 = 0))
  else if t = 5 then bit (w 0) 63 && decide (fld (w 0) 8 5 = 0)
  else false

/-- A command of PX_SF_CMD (R382): `wr` writes the entry, else reads it. -/
def Mach.sfCommand (m : Mach) (px : Nat) (wr : Bool) : Mach :=
  let st := pxStop px
  let sel := m.reg st 0x21 0x40
  let t := fld sel 0 3
  let idx := fld sel 16 12
  let data := fun i => m.reg st 0x21 (0x80 + 8 * i)
  let w := fun i => data i &&& sfMask t i
  if 4 ≤ px ∨ t = 7 then m
  else if sfSize t ≤ idx then m.setReg st 0x21 0x48 (setBit 0 62 true)
  else if ! wr then
    (List.range 4).foldl (fun acc i => acc.setReg st 0x21 (0x80 + 8 * i) (m.sf px t idx i)) (m.setReg st 0x21 0x48 0)
  else if m.sfRefused px t idx w then m.setReg st 0x21 0x48 (setBit 0 62 true)
  else
    let m1 := (m.setSf px t idx ((List.range 4).map w)).setReg st 0x21 0x48 0
    if t = 4 then { m1 with meters := Tab.del m1.meters (px * 2048 + idx) }
    else if t = 5 then { m1 with hists := Tab.del m1.hists (px * 1024 + idx) }
    else m1

/-- RECOVERY_RESET_TIMEOUT (R364): the history resets, unless RESET_MS is 0. -/
def Mach.rcvTimeout (m : Mach) (px i : Nat) : Mach :=
  if fld (m.sf px 5 i 0) 16 16 = 0 then m else { m with hists := Tab.del m.hists (px * 1024 + i) }

/-- STREAM_GATE_INTERVAL_END (R357): device time reaches the end of the interval that gate `g`'s schedule is in. -/
def Mach.gateInterval (m : Mach) (px g : Nat) : Mach :=
  let n := fld (m.sf px 2 g 0) 0 4
  let cycle := fld (m.sf px 2 g 1) 0 32
  let base := (m.sf px 2 g 2).toNat
  if ! bit (m.sf px 2 g 0) 63 then m
  else if m.dt < base then { m with dt := base }
  else
    let o := (m.dt - base) % cycle
    let (_, stop) := schedAt (fun i => fld (m.sf px 3 (8 * g + i) 0) 32 32) n cycle o n 0
    { m with dt := m.dt - o + stop }

/-! ### Commands -/

/-- FRAME_RECEIVE (R354). -/
def execFrameReceive (q : Nat) (f : RxFrame) (s : State) : Out := s.upd (fun m => m.frameReceive q f)

/-- PAUSE_RECEIVE (R352): a PAUSE frame, or a PFC frame with its enable vector, and the times. -/
def execPauseReceive (q : Nat) (pfc : Bool) (enable : Nat) (times : List Nat) (s : State) : Out :=
  s.upd (fun m => if 128 ≤ q ∨ ! m.linkUp q then m else m.pauseFrame q pfc enable times)

/-- PAUSE_TIME_EXPIRY (R352): priority `p`, or 8 for a PAUSE. -/
def execPauseTimeExpiry (q p : Nat) (s : State) : Out :=
  s.upd (fun m => m.setPort q { m.port q with paused := (m.port q).paused &&& (511 - 2 ^ (p % 9)) })

/-- LINK_UP (R377). -/
def execLinkUp (q : Nat) (s : State) : Out := s.upd (fun m => m.portUp q)

/-- LINK_DOWN (R377). -/
def execLinkDown (q why : Nat) (s : State) : Out := s.upd (fun m => m.portDown q why)

/-- PCS_BLOCK_LOCK (R377). -/
def execPcsBlockLock (q : Nat) (s : State) : Out := s.upd (fun m => m.blockLock q)

/-- PX_PORT_CFG_WRITE (R349). -/
def execPxPortCfgWrite (mst : Master) (q : Nat) (v : W64) (s : State) : Out :=
  s.upd (fun m => if 128 ≤ q then m else m.window mst (portStop q) (portWin q) 0x40 (fun m => m.portCfg q v))

/-- PREEMPT_VERIFY (R370). -/
def execPreemptVerify (q : Nat) (ok : Bool) (s : State) : Out := s.upd (fun m => m.preemptVerify q ok)

/-- PX_PAIR_WRITE (R363). -/
def execPxPairWrite (mst : Master) (px n : Nat) (v : W64) (s : State) : Out :=
  s.upd (fun m => if 4 ≤ px then m else m.window mst (pxStop px) 0 (0x80 + 8 * n) (fun m => m.pairWrite px n v))

/-- IRESUME (R379): `v` is the write of PX_PORT_DMA that holds it. -/
def execIresume (mst : Master) (q : Nat) (v : W64) (s : State) : Out :=
  s.upd (fun m => if 128 ≤ q then m
    else m.window mst (portStop q) (portWin q) 0x78 (fun m => m.portDma q (setBit v 4 true)))

/-- ERESUME (R379): `v` is the write of PX_PORT_DMA that holds it. -/
def execEresume (mst : Master) (q : Nat) (v : W64) (s : State) : Out :=
  s.upd (fun m => if 128 ≤ q then m
    else m.window mst (portStop q) (portWin q) 0x78 (fun m => m.portDma q (setBit v 5 true)))

/-- PX_SF_READ (R382). A guest's write of the window is refused (R452). -/
def execPxSfRead (mst : Master) (px : Nat) (s : State) : Out :=
  s.upd (fun m => if 4 ≤ px then m else m.window mst (pxStop px) 0x21 0x48 (fun m => m.sfCommand px false))

/-- PX_SF_WRITE (R382). -/
def execPxSfWrite (mst : Master) (px : Nat) (s : State) : Out :=
  s.upd (fun m => if 4 ≤ px then m else m.window mst (pxStop px) 0x21 0x48 (fun m => m.sfCommand px true))

/-- RECOVERY_RESET_TIMEOUT (R364). -/
def execRecoveryResetTimeout (px i : Nat) (s : State) : Out := s.upd (fun m => m.rcvTimeout px i)

/-- STREAM_GATE_INTERVAL_END (R357). -/
def execStreamGateIntervalEnd (px g : Nat) (s : State) : Out := s.upd (fun m => m.gateInterval px g)

end Sys2Proof.Machine
end

