-- ==== Sys2Proof/Machine/Egress.lean ====
section
/-!
DEFINITION. Port complexes, egress side (R365 to R370, R372, R378, R383): egress queues, gate lists, shapers, transmission and
preemption, timestamps, and the egress tables.
-/

namespace Sys2Proof.Machine

/-! ### Tables -/

/-- The key of an entry of an egress table (R383): 0 PSCHED, 1 AGCL, 3 EQ, of local port `j` of complex `px`. -/
def egKey (px table j idx : Nat) : Nat := ((px * 4 + table) * 32 + j) * 1024 + idx
/-- Word `i` of an entry of port `q`. -/
def Mach.eg (m : Mach) (q table idx i : Nat) : W64 :=
  ((Tab.get [] m.egTab (egKey (q / 32) table (q % 32) idx))[i]?).getD 0
/-- Write an entry of port `q`. -/
def Mach.setEg (m : Mach) (q table idx : Nat) (ws : List W64) : Mach :=
  { m with egTab := Tab.set [] m.egTab (egKey (q / 32) table (q % 32) idx) (if ws.all (fun w => decide (w = 0)) then [] else ws) }
/-- Count in the upper (discarded) or lower (sent) half of EQ word 1 of egress queue `e` (R383). -/
def Mach.countEq (m : Mach) (q e : Nat) (sent : Bool) : Mach :=
  let w := m.eg q 3 e 1
  let lo := if sent then 0 else 32
  m.setEg q 3 e [m.eg q 3 e 0, setFld w lo 32 (min (fld w lo 32 + 1) 0xFFFFFFFF)]

/-- The egress queue of a priority (R366). -/
def Mach.eqOf (m : Mach) (q pri : Nat) : Nat := fld (m.portReg q 0x58) (3 * (pri % 8)) 3
/-- The frames in egress queue `e`. -/
def PortRt.frames (x : PortRt) (e : Nat) : List EgFrame := Tab.get [] x.eqs e
/-- Replace them. -/
def PortRt.setFrames (x : PortRt) (e : Nat) (fs : List EgFrame) : PortRt := { x with eqs := Tab.set [] x.eqs e fs }

/-! ### Outputs that are done -/

/-- One frame of an output is read or discarded (R392). -/
def Mach.outDone (m : Mach) (f : EgFrame) : Mach :=
  m.modRec f.queue f.seq (fun r => { r with outs := r.outs.modify f.k (fun o => { o with left := o.left - 1 }) })

/-- A frame at the head of a queue of a link that is down is discarded (R378). -/
def Mach.dropDown (m : Mach) (q : Nat) (f : EgFrame) : Mach := (m.countPort q 0x80 32 16).outDone f

/-! ### Gates -/

/-- From entry `i` of a list, open until `stop`, how long gate `e` stays open; none where it never closes. -/
def openRun (l : List W64) (cycle e : Nat) : Nat → Nat → Nat → Nat → Option Nat
  | 0, _, _, _ => none
  | k + 1, i, start, stop =>
    let wrap := decide (start + cycle ≤ stop) || decide (l.length ≤ i + 1)
    let i2 := if wrap then 0 else i + 1
    let start2 := if wrap then start + cycle else start
    let w := (l[i2]?).getD 0
    if ! bit w e then some stop
    else openRun l cycle e k i2 start2 (if l.length ≤ i2 + 1 then start2 + cycle else min (stop + fld w 32 32) (start2 + cycle))

/-- Gate `e` of a list whose cycle began at `base`, at time `t`: whether it is open, and when it closes. -/
def listGate (l : List W64) (base cycle e t : Nat) : Bool × Option Nat :=
  let o := (t - base) % cycle
  let (i, stop) := schedAt (fun i => fld ((l[i]?).getD 0) 32 32) l.length cycle o l.length 0
  let w := (l[i]?).getD 0
  (bit w e, openRun l cycle e (l.length + 1) i (t - o) (t - o + stop))

/-- Gate `e` of port `q` at device time: whether it is open, and when it closes (R368). A change that is pending takes over
at its time. -/
def Mach.gateOf (m : Mach) (q e : Nat) : Bool × Option Nat :=
  let w := m.eg q 0 0 0
  let x := m.port q
  if ! bit w 0 then (true, none)
  else
    let (o, c) := if x.everOper then listGate x.oper x.operBase x.operCycle e m.dt else (bit w (8 + e), none)
    let late := match c with
      | some t => decide (x.changeAt < t)
      | none => true
    if o && x.pendingChange && late then
      let (o2, c2) := listGate x.adm x.changeAt x.admCycle e x.changeAt
      (true, if o2 then c2 else some x.changeAt)
    else (o, c)

/-- Whether preemptable frames are held (R368): the latest SETHOLD or SETREL that the list has passed is a hold. -/
def Mach.macHeld (m : Mach) (q : Nat) : Bool :=
  let x := m.port q
  if ! bit (m.eg q 0 0 0) 0 || ! x.everOper then false
  else
    let l := x.oper
    let o := (m.dt - x.operBase) % x.operCycle
    let (i, _) := schedAt (fun i => fld ((l[i]?).getD 0) 32 32) l.length x.operCycle o l.length 0
    let seen := (if (m.dt - x.operBase) / x.operCycle = 0 then [] else l.drop (i + 1)) ++ l.take (i + 1)
    match seen.reverse.find? (fun w => decide (fld w 8 2 = 1) || decide (fld w 8 2 = 2)) with
    | some w => decide (fld w 8 2 = 1)
    | none => false

/-! ### Shapers -/

/-- Bits of the largest frame of a port, with preamble and gap. -/
def Mach.maxBits (m : Mach) (q : Nat) : Nat := (m.maxFrm q + 20) * 8

/-- The credit of a shaped queue at device time, in 10^-6 bits, with the time it holds for (R367): it gains at the idle slope
while a frame waits or it is negative, and not while the gate is closed. -/
def Mach.creditNow (m : Mach) (q e : Nat) : Int × Nat :=
  let x := m.port q
  let (c, t) := Tab.get (0, 0) x.credits e
  let idle := fld (m.eg q 3 e 0) 32 32
  let gain := if (m.gateOf q e).1 then (m.dt - t) * idle else 0
  let c1 := c + gain
  let hi : Int := m.maxBits q * 1000000 * idle / m.portRate q
  let c2 := if (x.frames e).isEmpty then min c1 0 else min c1 hi
  (c2, max t m.dt)

/-- Bring the credits of a port's shaped queues to device time. -/
def Mach.creditTick (m : Mach) (q : Nat) : Mach :=
  (List.range 8).foldl (fun acc e =>
    if bit (acc.eg q 3 e 0) 0 then
      acc.setPort q { acc.port q with credits := Tab.set (0, 0) (acc.port q).credits e (acc.creditNow q e) }
    else acc) m

/-- `n` bytes of queue `e` are sent, preamble and gap included (R367): the credit falls at the send slope, to its limit. -/
def Mach.spendCredit (m : Mach) (q e n : Nat) : Mach :=
  if ! bit (m.eg q 3 e 0) 0 then m
  else
    let rate := m.portRate q
    let idle := fld (m.eg q 3 e 0) 32 32
    let sdu := fld (m.eg q 3 e 0) 16 14
    let lo : Int := ((if sdu = 0 then m.maxFrm q else sdu) + 20) * 8 * 1000000 * (rate - idle) / rate
    let (c, t) := m.creditNow q e
    let c1 := max (c - ((n * 8 * 1000000 * (rate - idle) / rate : Nat) : Int)) (-lo)
    let c2 := if ((m.port q).frames e).isEmpty then min c1 0 else c1
    m.setPort q { m.port q with credits := Tab.set (0, 0) (m.port q).credits e (c2, t + n * 8 * 1000000 / rate) }

/-! ### Frames on the wire -/

/-- Bytes of a frame with its FCS, R-TAG and padding (R391). -/
def EgFrame.wire (f : EgFrame) : Nat := max (f.len + 4 + if f.rtag.isSome then 6 else 0) 64

/-- Whether preemption is active (R370). -/
def Mach.preempts (m : Mach) (q : Nat) : Bool :=
  bit (m.portReg q 0x40) 0 && bit (m.portReg q 0x40) 3 && decide (fld (m.portReg q 0x48) 4 2 = 2)

/-- Whether the frames of queue `e` are preemptable (R370). -/
def Mach.preemptable (m : Mach) (q e : Nat) : Bool := m.preempts q && ! bit (m.eg q 3 e 0) 1

/-- Whether a pause stops queue `e` (R352). -/
def Mach.eqPaused (m : Mach) (q e : Nat) : Bool :=
  let p := (m.port q).paused
  p.testBit 8 || (List.range 8).any (fun i => p.testBit i && decide (m.eqOf q i = e))

/-- Whether `n` bytes fit before queue `e`'s gate closes (R369). -/
def Mach.fits (m : Mach) (q e n : Nat) : Bool :=
  match (m.gateOf q e).2 with
  | none => true
  | some t => decide ((n + 20) * 8 * 1000000 ≤ (t - m.dt) * m.portRate q)

/-- Whether queue `e`'s gate lets its head frame go (R368, R369). -/
def Mach.gateLets (m : Mach) (q e : Nat) (f : EgFrame) : Bool :=
  (m.gateOf q e).1 && (if m.preemptable q e then ! m.macHeld q else m.fits q e f.wire)

/-- Whether queue `e` is eligible (R366). -/
def Mach.eqEligible (m : Mach) (q e : Nat) : Bool :=
  match (m.port q).frames e with
  | [] => false
  | f :: _ => m.gateLets q e f && (! bit (m.eg q 3 e 0) 0 || decide (0 ≤ (m.creditNow q e).1)) && ! m.eqPaused q e

/-- Frames longer than MAXSDU are discarded at the heads of the queues (R369). -/
def Mach.dropLong (m : Mach) (q e : Nat) : Nat → Mach
  | 0 => m
  | k + 1 =>
    let sdu := fld (m.eg q 3 e 0) 16 14
    match (m.port q).frames e with
    | f :: fs =>
      if sdu ≠ 0 ∧ sdu < f.len then
        (((m.setPort q ((m.port q).setFrames e fs)).countEq q e false).outDone f).dropLong q e k
      else m
    | [] => m

/-- A head frame that its gate keeps waiting is counted once (R508). -/
def Mach.markWait (m : Mach) (q e : Nat) : Mach :=
  match (m.port q).frames e with
  | f :: fs =>
    if f.waited || m.gateLets q e f then m
    else (m.setPort q ((m.port q).setFrames e ({ f with waited := true } :: fs))).countPx (q / 32) 0x284
  | [] => m

/-- A frame whose message timestamp point leaves the contact (R372). -/
def Mach.txStamp (m : Mach) (q : Nat) (f : EgFrame) : Mach :=
  if ! f.tsreq then m
  else
    let x := m.port q
    let t := (m.dt * 16 + fld (m.portReg q 0x60) 16 16) / 16
    if x.txts.length < 64 then m.setPort q { x with txts := x.txts ++ [(f.tstag, t)] }
    else m.setPort q { x with txOvf := true }

/-- The first line of an output's data that reads poisoned, after the read has met the errors in it (R315). -/
def Mach.fetchOut (m : Mach) (f : EgFrame) : Option Nat × Mach :=
  let m1 := m.readUpsets none false f.pa f.len
  (((List.range (f.len / 8 + 2)).map (fun i => (f.pa / 8 + i) * 8)).find? (fun a => decide (a < f.pa + f.len) && (m1.metaAt a).poison), m1)

/-- The last or only fragment of a frame leaves: `n` bytes. -/
def Mach.lastFragment (m : Mach) (q e : Nat) (f : EgFrame) (n : Nat) : Mach :=
  (((m.countEq q e true).countPx (q / 32) 0x282).fumCount q f.pri n true true).spendCredit q e (n + 20)

/-- A preemptable frame is cut after `n` more bytes for an express frame, where R370 lets it. -/
def Mach.cutAt (m : Mach) (q e : Nat) (f : EgFrame) (sent : Nat) (part : Option Nat) : Option Nat :=
  match part with
  | some n => if m.preemptable q e ∧ 64 * (fld (m.portReg q 0x40) 4 2 + 1) ≤ n ∧ sent + n + 64 ≤ f.wire then some n else none
  | none => none

/-- The fragment of a frame that starts now: `sent` bytes have left before it. -/
def Mach.fragment (m : Mach) (q e : Nat) (f : EgFrame) (sent : Nat) (part : Option Nat) : Mach :=
  match m.cutAt q e f sent part with
  | some n =>
    (((m.setPort q { m.port q with cut := some (e, f, sent + n) }).countPx (q / 32) 0x283).fumCount q f.pri n true
      false).spendCredit q e (n + 20)
  | none => (m.setPort q { m.port q with cut := none }).lastFragment q e f (f.wire - sent)

/-- The head frame of queue `e` is sent (R366, R315, R379): its data is read; `late` says that the first bit had left when the
read met an error, so that the frame ends with an inverted FCS. -/
def Mach.sendHead (m : Mach) (q e : Nat) (part : Option Nat) (late : Bool) : Mach :=
  match (m.port q).frames e with
  | [] => m
  | f :: fs =>
    let m1 := (m.creditTick q).setPort q (((m.creditTick q).port q).setFrames e fs)
    match m1.fetchOut f with
    | (none, m2) => ((m2.outDone f).txStamp q f).fragment q e f 0 part
    | (some a, m2) =>
      let m3 := (m2.portHalt q a true).outDone f
      if late then (m3.txStamp q f).lastFragment q e f f.wire else m3.countEq q e false

/-- The highest queue that meets a condition. -/
def topQueue (p : Nat → Bool) : Option Nat := ((List.range 8).reverse).find? p

/-- FRAME_TRANSMIT (R366 to R370): the highest eligible queue sends; a frame that was cut goes on unless an express frame can
go. -/
def Mach.transmit (m : Mach) (q : Nat) (part : Option Nat) (late : Bool) : Mach :=
  let st := portStop q
  let k := portWin q
  if 128 ≤ q ∨ m.phase ≠ .run ∨ ! m.answers st k ∨ ! (m.blk st k).enable ∨ ! m.linkUp q ∨ bit (m.portReg q 0x78) 1 then m
  else
    let m0 := (List.range 8).foldl (fun acc e => (acc.dropLong q e ((acc.port q).frames e).length).markWait q e) (m.creditTick q)
    match (m0.port q).cut with
    | some (ce, f, sent) =>
      match topQueue (fun e => m0.eqEligible q e && ! m0.preemptable q e) with
      | some e => m0.sendHead q e part late
      | none => if (m0.gateOf q ce).1 && ! m0.macHeld q then m0.fragment q ce f sent part else m0
    | none =>
      match topQueue (fun e => m0.eqEligible q e) with
      | some e => m0.sendHead q e part late
      | none => m0

/-! ### Outputs into the queues -/

/-- A frame enters the egress queue of its priority (R366); at a link that is down past its hold time it is discarded (R378),
and at a complex without power it is lost. -/
def Mach.enqueue (m : Mach) (q : Nat) (f : EgFrame) : Mach :=
  if ! m.answers (portStop q) (portWin q) then m.outDone f
  else if ! m.linkUp q ∧ (m.port q).downEnded then m.dropDown q f
  else
    let m1 := m.creditTick q
    let x := m1.port q
    let e := m1.eqOf q f.pri
    m1.setPort q (x.setFrames e (x.frames e ++ [f]))

/-- The next number of sequence generator `i` of complex `px` (R364, R365). -/
def Mach.takeRtag (m : Mach) (px i : Nat) : Nat × Mach :=
  let n := fld (m.sf px 6 i 0) 0 16
  (n, m.modSf px 6 i 0 (fun w => setFld w 0 16 (n + 1)))

/-- The ports and the R-TAG number of a released output (R365). -/
def Mach.copiesOf (m : Mach) (o : OutRec) : List Nat × Option Nat × Mach :=
  let px := o.port / 32
  if ! o.repl then ([o.port], none, m)
  else match m.twinOf o.port with
    | some b => let (n, m1) := m.takeRtag px o.seqgen
                ([o.port, b], some n, m1)
    | none =>
      if bit (m.sf px 6 o.seqgen 0) 63 then
        let (n, m1) := m.takeRtag px o.seqgen
        ([o.port], some n, m1)
      else ([o.port], none, m)

/-- Output `k` of record `s` of queue `queue` is released to its egress queues (R365, R398). -/
def Mach.releaseOut (m : Mach) (queue s k : Nat) (o : OutRec) : Mach :=
  let (ps, tag, m1) := m.copiesOf o
  let f : EgFrame := ⟨queue, s, k, o.pa, o.len, o.pri, tag, o.tsreq, o.tstag, false⟩
  ps.foldl (fun acc p => acc.enqueue p f)
    (m1.modRec queue s (fun r => { r with outs := r.outs.modify k (fun o => { o with left := ps.length }) }))

/-! ### Time-driven events -/

/-- DOWNHOLD_EXPIRY (R378). -/
def Mach.downHoldEnd (m : Mach) (q : Nat) : Mach :=
  if m.linkUp q then m
  else
    let x := m.port q
    (x.eqs.flatMap Prod.snd).foldl (fun acc f => acc.dropDown q f) (m.setPort q { x with eqs := [], downEnded := true })

/-- GCL_CHANGE (R368): at the change time the admin list becomes operational. -/
def Mach.gclChange (m : Mach) (q : Nat) : Mach :=
  let x := m.port q
  if ! x.pendingChange then m
  else
    let m1 := ({ m with dt := max m.dt x.changeAt }).creditTick q
    m1.setPort q { m1.port q with
      oper := x.adm, operBase := x.changeAt, operCycle := x.admCycle, pendingChange := false, everOper := true }

/-- GCL_INTERVAL_END (R368): device time reaches the end of the entry's interval. -/
def Mach.gclInterval (m : Mach) (q : Nat) : Mach :=
  let x := m.port q
  if ! x.everOper then m
  else
    let m0 := m.creditTick q
    let o := (m.dt - x.operBase) % x.operCycle
    let (_, stop) := schedAt (fun i => fld ((x.oper[i]?).getD 0) 32 32) x.oper.length x.operCycle o x.oper.length 0
    { m0 with dt := m.dt - o + stop }

/-! ### Timestamps -/

/-- A read of PX_PORT_TXTS_INFO (R372): what it returns, and the machine after it. -/
def Mach.readTxts (m : Mach) (q : Nat) : W64 × Mach :=
  let x := m.port q
  match x.txts with
  | [] => (setBit 0 62 x.txOvf, m.setPort q { x with txOvf := false })
  | (tag, t) :: rest =>
    (setBit (setBit (setFld (setFld 0 0 16 tag) 32 7 rest.length) 62 x.txOvf) 63 true,
      (m.setPort q { x with txts := rest, txOvf := false }).setReg (portStop q) (portWin q) 0x70 (BitVec.ofNat 64 t))

/-! ### The egress tables -/

/-- What a read of an entry returns in word `i` (R383). -/
def Mach.egRead (m : Mach) (q t idx i : Nat) : W64 :=
  let x := m.port q
  if t = 0 then
    (if i = 0 then setFld (setBit (m.eg q 0 0 0) 32 x.pendingChange) 48 11 x.oper.length
     else if i = 3 then BitVec.ofNat 64 x.changeAt else m.eg q 0 0 i)
  else if t = 2 then (if i = 0 then (x.oper[idx]?).getD 0 else 0)
  else m.eg q t idx i

/-- The change time of R368 for a CHANGE written now, where there is one. -/
def changeTime (now base cycle : Nat) : Option Nat :=
  let t := now + 2000
  if t ≤ base then some base
  else if cycle = 0 then none
  else some (base + (t - base + cycle - 1) / cycle * cycle)

/-- A write of the schedule control of a port (R368, R383); none where it is refused. -/
def Mach.pschedWrite (m : Mach) (q : Nat) (w : Nat → W64) : Option Mach :=
  let w0 := w 0 &&& 0x07FFFF01
  let w1 := setFld 0 0 32 (fld (w 1) 0 32)
  let n := fld w0 16 11
  let adm := (List.range n).map (fun i => m.eg q 1 i 0)
  let m1 := m.setEg q 0 0 [w0, w1, w 2]
  if ! bit (w 0) 31 then some m1
  else if n = 0 ∨ 1024 < n ∨ adm.any (fun x => decide (fld x 32 32 < 32)) then none
  else match changeTime m.dt (w 2).toNat (fld w1 0 32) with
    | none => none
    | some t => some (m1.setPort q { m1.port q with pendingChange := true, changeAt := t, adm := adm, admCycle := fld w1 0 32 })

/-- A write of an egress queue entry (R367, R383); none where it is refused. -/
def Mach.eqWrite (m : Mach) (q e : Nat) (w : W64) : Option Mach :=
  let w0 := w &&& 0xFFFFFFFF3FFF0003
  let cfg := fun i => if i = e then w0 else m.eg q 3 i 0
  let shaped := (List.range 8).filter (fun i => bit (cfg i) 0)
  let total := shaped.foldl (fun n i => n + fld (cfg i) 32 32) 0
  if bit w0 0 ∧ (4 < shaped.length ∨ m.portRate q < total) then none
  else
    let m1 := m.creditTick q
    let m2 := if bit w0 0 then m1 else m1.setPort q { m1.port q with credits := Tab.del (m1.port q).credits e }
    some (m2.setEg q 3 e [w0, 0])

/-- A command of PX_EG_CMD (R383): `wr` writes the selected entry, else reads it. -/
def Mach.egCommand (m : Mach) (px : Nat) (wr : Bool) : Mach :=
  let st := pxStop px
  let sel := m.reg st 0x22 0x40
  let t := fld sel 0 2
  let q := px * 32 + fld sel 8 5
  let idx := if t = 0 then 0 else fld sel 16 10
  let w := fun i => m.reg st 0x22 (0x80 + 8 * i)
  let err := m.setReg st 0x22 0x48 (setBit 0 62 true)
  let good := fun (m : Mach) => m.setReg st 0x22 0x48 0
  if t = 3 ∧ 8 ≤ idx then err
  else if ! wr then
    good ((List.range 4).foldl (fun acc i => acc.setReg st 0x22 (0x80 + 8 * i) (m.egRead q t idx i)) m)
  else if t = 0 then ((m.pschedWrite q w).map good).getD err
  else if t = 1 then
    (if (m.port q).pendingChange ∨ fld (w 0) 8 2 = 3 then err else good (m.setEg q 1 idx [w 0 &&& 0xFFFFFFFF000003FF]))
  else if t = 2 then err
  else ((m.eqWrite q idx (w 0)).map good).getD err

/-! ### Commands -/

/-- FRAME_TRANSMIT (R366). -/
def execFrameTransmit (q : Nat) (part : Option Nat) (late : Bool) (s : State) : Out := s.upd (fun m => m.transmit q part late)

/-- DOWNHOLD_EXPIRY (R378). -/
def execDownholdExpiry (q : Nat) (s : State) : Out := s.upd (fun m => m.downHoldEnd q)

/-- GCL_CHANGE (R368). -/
def execGclChange (q : Nat) (s : State) : Out := s.upd (fun m => m.gclChange q)

/-- GCL_INTERVAL_END (R368). -/
def execGclIntervalEnd (q : Nat) (s : State) : Out := s.upd (fun m => m.gclInterval q)

/-- TXTS_INFO_READ (R372). -/
def execTxtsInfoRead (mst : Master) (q : Nat) (s : State) : Out :=
  s.upd (fun m => if 128 ≤ q then m else m.windowRead mst (portStop q) (portWin q) 0x68 (fun m => (m.readTxts q).2))

/-- PX_EG_READ (R383). -/
def execPxEgRead (mst : Master) (px : Nat) (s : State) : Out :=
  s.upd (fun m => if 4 ≤ px then m else m.window mst (pxStop px) 0x22 0x48 (fun m => m.egCommand px false))

/-- PX_EG_WRITE (R383). -/
def execPxEgWrite (mst : Master) (px : Nat) (s : State) : Out :=
  s.upd (fun m => if 4 ≤ px then m else m.window mst (pxStop px) 0x22 0x48 (fun m => m.egCommand px true))

end Sys2Proof.Machine
end

