-- ==== Sys2Proof/Machine/Ledger.lean ====
section
/-!
DEFINITION. Ledger engines (R384 to R399, R411 to R414, R419, R420, R456, R457): headers and slots, the journal, admission with
the share test, acceptance, delivery, release, and queue descriptors.
-/

namespace Sys2Proof.Machine

/-! ### Registers of an engine -/

/-- A register of engine `e`. -/
def Mach.leReg (m : Mach) (e off : Nat) : W64 := m.reg (leStop e) 0 off
/-- Base address of copy A (false) or B of the journal (R419). -/
def Mach.jrnlPa (m : Mach) (e : Nat) (b : Bool) : Nat := fld (m.leReg e (if b then 0x50 else 0x48)) 12 40 * 4096
/-- Base address of copy A or B of the payload pool (R419). -/
def Mach.poolPa (m : Mach) (e : Nat) (b : Bool) : Nat := fld (m.leReg e (if b then 0x60 else 0x58)) 12 40 * 4096
/-- Entries of the journal. -/
def Mach.jSize (m : Mach) (e : Nat) : Nat := 2 ^ fld (m.leReg e 0x40) 8 5
/-- Payload buffers of the pool. -/
def Mach.pSize (m : Mach) (e : Nat) : Nat := if bit (m.leReg e 0x40) 21 then 2 ^ fld (m.leReg e 0x40) 16 5 else 0
/-- The ranges of the journal and of the pool, copies A and B. -/
def Mach.leRanges (m : Mach) (e : Nat) : List (Nat × Nat) :=
  let j := m.jSize e * 256
  let p := m.pSize e * 10240
  [(m.jrnlPa e false, m.jrnlPa e false + j), (m.jrnlPa e true, m.jrnlPa e true + j)]
    ++ if bit (m.leReg e 0x40) 21 then [(m.poolPa e false, m.poolPa e false + p), (m.poolPa e true, m.poolPa e true + p)] else []

/-- Whether two ranges share a byte. -/
def touches (a b : Nat × Nat) : Bool := decide (a.1 < b.2) && decide (b.1 < a.2)
/-- Whether some two ranges of a list share a byte. -/
def anyTouch : List (Nat × Nat) → Bool
  | [] => false
  | a :: t => t.any (touches a) || anyTouch t

/-- The channel of a pinned address. -/
def pinChan (a : Nat) : Nat := (a - pinBase) / 0x10000000000 % 12

/-- LE_STATUS.JERR (R419). -/
def Mach.jerr (m : Mach) (e : Nat) : Nat :=
  let cfg := m.leReg e 0x40
  let rs := m.leRanges e
  let mcs : List Nat := rs.map (fun r => pinChan r.1 / 2)
  let same := fun (i : Nat) => decide (mcs[i]? = mcs[i + 1]?)
  if ! bit cfg 13 ∧ ! bit cfg 21 then 0
  else if same 0 || (bit cfg 21 && same 2) then 1
  else if mcs.any (fun c => bit (m.reg (mcStop c) 0 0x40) 0) then 2
  else if rs.any (fun r => ! m.isPinned r.1 || ! m.isPinned (r.2 - 1) || decide (pinChan r.1 ≠ pinChan (r.2 - 1))) then 3
  else if anyTouch rs then 4
  else if bit cfg 21 ∧ ! bit cfg 13 then 5
  else 0

/-- Whether every region that a pinned range meets is initialised (R538). -/
def Mach.regionsReady (m : Mach) (r : Nat × Nat) : Bool :=
  let lo := r.1 % 0x10000000000 / 0x200000
  let n := (r.2 - 1) % 0x10000000000 / 0x200000 - lo + 1
  decide ((m.regionsOf (pinChan r.1)).map / 2 ^ lo % 2 ^ n = 2 ^ n - 1)

/-- LE_STATUS.JOK (R419, R538): the journal and the pool are valid, and every region of their copies is initialised. -/
def Mach.jok (m : Mach) (e : Nat) : Bool :=
  bit (m.leReg e 0x40) 13 && decide (m.jerr e = 0) && (m.leRanges e).all m.regionsReady

/-- Whether a copy's channel serves (R306). -/
def Mach.copyServes (m : Mach) (e : Nat) (b : Bool) : Bool := decide (m.chanState (pinChan (m.jrnlPa e b)) ≠ 4)

/-- LE_STATUS.ONECOPY (R306). -/
def Mach.oneCopy (m : Mach) (e : Nat) : Bool := bit (m.leReg e 0x40) 13 && (m.copyServes e false != m.copyServes e true)

/-- The copies that a record's journal entry and payload are written to (R394): A, and B unless the partner holds the other; while
a channel is FAILED the copy that serves. -/
def Mach.copiesFor (m : Mach) (e : Nat) (mirrored : Bool) : List Bool :=
  if m.copyServes e false then (if ! mirrored && m.copyServes e true then [false, true] else [false])
  else if m.copyServes e true then [true] else []

/-! ### Writes of the engine -/

/-- A word of bytes, the first lowest. -/
def wordOfBytes (bs : List (BitVec 8)) : W64 := BitVec.ofNat 64 (bs.foldr (fun b n => b.toNat + 256 * n) 0)

/-- The engine at stop `st` writes a word: at its home, in cluster memory through the mesh port, or in a pinned region. -/
def Mach.engWord (m : Mach) (st a : Nat) (d : W64) (poison : Bool) : Mach :=
  if m.homed a then ((((m.homeWrite none (a / 64)).l1Inval 176 (a / 64)).putWord a d false poison).stored a).mirrorWrite st 0x3F a 0xFF
  else ((m.putWord a d false poison).stored a).countMesh a st 0x3F .host

/-- The engine writes words from `a` upward. -/
def Mach.engWords (m : Mach) (st a : Nat) : List Word → Mach
  | [] => m
  | w :: ws => (m.engWord st a w.data w.poison).engWords st (a + 8) ws

/-- Bytes into a pinned region, whole lines without their old poison (R314). `n` bounds the words. -/
def Mach.putBytes (m : Mach) (a : Nat) (bs : List (BitVec 8)) : Nat → Mach
  | 0 => m
  | n + 1 =>
    if bs.isEmpty then m
    else
      let m1 := if a % 64 = 0 ∧ 64 ≤ bs.length then m.openLine a else m
      if bs.length < 8 then m1.storePart a bs.length (wordOfBytes bs).toNat false
      else (m1.putWord a (wordOfBytes (bs.take 8)) false false).putBytes (a + 8) (bs.drop 8) n

/-! ### Headers and slots -/

/-- One step of CRC-32C over a byte, by bit. -/
def crcBits (c : BitVec 32) : Nat → BitVec 32
  | 0 => c
  | n + 1 => crcBits (if c.getLsbD 0 then (c >>> 1) ^^^ 0x82F63B78 else c >>> 1) n

/-- CRC-32C (R388). -/
def crc32c (bs : List (BitVec 8)) : BitVec 32 :=
  (bs.foldl (fun c b => crcBits (c ^^^ b.zeroExtend 32) 8) (BitVec.allOnes 32)) ^^^ BitVec.allOnes 32

/-- Inline bytes of a record (R387). -/
def LRec.inlen (r : LRec) : Nat := min r.data.length 192
/-- Whether a record has the flag of bit `i` (R389). -/
def LRec.flag (r : LRec) (i : Nat) : Bool := r.flags.testBit i

/-- The header of a record (R388), with `pa` the address of its payload buffer. -/
def headerWords (x : Queue) (q : Nat) (r : LRec) (pa : Nat) : List W64 :=
  let crc := (crc32c r.data).toNat
  let p := if r.data.length ≤ 192 then 0 else pa
  if x.g3 then
    [setFld (setFld (setFld 0 0 48 r.seq) 48 12 q) 60 4 r.flags,
     setFld (setFld (setFld (setFld (setFld (setFld (setFld 0 0 14 r.data.length) 16 8 r.inlen) 24 7 r.port) 31 1 (if r.lput then 1 else 0))
       32 3 r.pri) 36 12 r.handle) 48 10 r.vqf,
     BitVec.ofNat 64 r.ts,
     setFld 0 0 52 p,
     BitVec.ofNat 64 r.atime,
     setFld (setFld (setFld 0 0 32 crc) 32 8 r.hcount) 48 16 r.pcmp, 0, 0]
  else
    [setFld (setFld (setFld (setFld 0 0 32 r.seq) 32 12 q) 44 4 r.flags) 48 14 r.data.length,
     BitVec.ofNat 64 r.ts,
     setFld (setFld (setFld (setFld 0 0 52 p) 52 7 r.port) 59 3 r.pri) 62 1 (if r.lput then 1 else 0),
     setFld (setFld (setFld (setFld 0 0 8 r.inlen) 8 12 r.handle) 20 8 r.hcount) 32 32 crc]

/-- Eight-byte words of bytes, the last filled with zeros. -/
def wordsOf (bs : List (BitVec 8)) : Nat → List W64
  | 0 => []
  | n + 1 => wordOfBytes (bs.take 8) :: wordsOf (bs.drop 8) n

/-- The address of a record's payload buffer in copy A. -/
def Mach.bufPa (m : Mach) (e : Nat) (b : Option Nat) : Nat :=
  match b with
  | some i => m.poolPa e false + i * 10240
  | none => 0

/-- The 32 words of a record's slot (R388, R390): the header, the inline bytes and zeros; `bad` poisons the inline words
(R411). -/
def Mach.slotWords (m : Mach) (q : Nat) (r : LRec) (bad : Bool) : List Word :=
  let x := m.queue q
  let h := headerWords x q r (m.bufPa (q / 2048) r.pbuf)
  let body := wordsOf (r.data.take 192) 24
  let k := (r.inlen + 7) / 8
  (h.map Word.plain ++ body.zipIdx.map (fun (p : W64 × Nat) => (⟨p.1, false, bad && decide (p.2 < k), 0⟩ : Word))
    ++ List.replicate 4 Word.zero).take 32

/-! ### The journal -/

/-- Whether a record is still held, as one of the engine's own or as a standby's copy. -/
def Mach.isHeld (m : Mach) (p : Nat × Nat) : Bool :=
  let x := m.queue p.1
  x.recs.any (fun r => decide (r.seq = p.2)) || x.copies.any (fun r => decide (r.seq = p.2))

/-- Write an entry's 256 bytes at ring position `pos` of the copies `cs` (R395). -/
def Mach.putEntry (m : Mach) (e pos : Nat) (ws : List Word) (cs : List Bool) : Mach :=
  cs.foldl (fun acc b =>
    let a := acc.jrnlPa e b + pos % acc.jSize e * 256
    ((List.range 4).foldl (fun acc i => acc.openLine (a + 64 * i)) acc).putWords a ws) m

/-- When more than 75 % of the ring is in use and the tail entry still describes a record that is not SENT, the engine copies it
forward (R395). -/
def Mach.copyForward (m : Mach) (e : Nat) : Mach :=
  let x := m.engine e
  match x.journal with
  | t :: rest =>
    if 3 * m.jSize e < 4 * x.journal.length ∧ t.recs.any m.isHeld then
      let ws := m.words (m.jrnlPa e false + x.tail % m.jSize e * 256) 32
      (m.putEntry e (x.tail + x.journal.length) ws (m.copiesFor e false)).setEngine e
        { x with journal := rest ++ [t], tail := (x.tail + 1) % m.jSize e }
    else m
  | [] => m

/-- Append an entry at the head (R395). -/
def Mach.appendEntry (m : Mach) (e kind : Nat) (recs : List (Nat × Nat)) (ws : List Word) (cs : List Bool) : Mach :=
  let x := m.engine e
  ((m.putEntry e (x.tail + x.journal.length) ws cs).setEngine e { x with journal := x.journal ++ [⟨kind, recs⟩] }).copyForward e

/-- The words of an entry whose layout the spec leaves open: free values (log entry 20). -/
def Mach.freeWords (m : Mach) : List Word × Mach :=
  ((List.range 32).map (fun i => Word.plain (Config.freeValue (m.free + i))), { m with free := m.free + 32 })

/-- Entries at the tail whose records are all SENT are freed (R395). -/
def Mach.freeEntries (m : Mach) (e : Nat) : Mach :=
  let x := m.engine e
  let keep := x.journal.dropWhile (fun j => ! j.recs.any m.isHeld)
  if keep.length = x.journal.length then m
  else m.setEngine e { x with journal := keep, tail := (x.tail + (x.journal.length - keep.length)) % m.jSize e }

/-! ### Capacity -/

/-- Hot records in use on engine `e` (R395, R399): of a J queue until the record is delivered, else until it is SENT. -/
def Mach.hotUsed (m : Mach) (e : Nat) : Nat :=
  (m.queues.filter (fun p => decide (p.1 / 2048 = e))).foldl (fun n p =>
    n + (p.2.recs.filter (fun r => ! p.2.j || decide (r.st = .admitted) || decide (r.st = .accepted))).length) 0

/-- The first number from `i` upward that is not in use, within some steps. -/
def firstFree (used : List Nat) : Nat → Nat → Nat
  | 0, i => i
  | k + 1, i => if used.contains i then firstFree used k (i + 1) else i

/-- A payload buffer in no use, where there is one (R387); which one is open, so a free value says where the search begins (log entry 2). -/
def Mach.freeBuf (m : Mach) (e : Nat) : Option Nat :=
  let u := (m.engine e).pbufs
  if m.pSize e ≤ u.length then none
  else
    let i := firstFree u u.length (m.fresh.toNat % m.pSize e)
    some (if i < m.pSize e then i else firstFree u u.length 0)

/-! ### Roles and mirroring -/

/-- Whether the device is primary for queue `q` (R425). -/
def Mach.primary (m : Mach) (q : Nat) : Bool := bit (m.reg (queueStop q) 1 (0x100 + 8 * (q % 2048 / 64))) (q % 64)
/-- Mirroring is active (R428). -/
def Mach.mirroring (m : Mach) : Bool := decide (m.pairState = 2) || decide (m.pairState = 3)
/-- Whether records admitted now to queue `q` are mirrored (R394, R426). -/
def Mach.mirrorsNow (m : Mach) (q : Nat) : Bool := m.mirroring && (m.queue q).mir && (m.queue q).mirrored
/-- Whether records and markers of queue `q` go to the partner: from the handshake of a JOINING on (R430, R444). -/
def Mach.forwardsNow (m : Mach) (q : Nat) : Bool :=
  (m.mirroring || decide (m.pairState = 1)) && (m.queue q).mir && (m.queue q).mirrored

/-! ### Admission -/

/-- The queue functions of engine `e`. -/
def Mach.vqfsOf (m : Mach) (e : Nat) : List (Nat × Vqf) := m.vqfs.filter (fun p => decide (p.1 / 1024 = e))

/-- The record test and, for a J record of `n` bytes, the byte test (R457). -/
def Mach.shareOk (m : Mach) (e v n : Nat) (j : Bool) : Bool :=
  let x := m.vqf e v
  let vs : List (Nat × Vqf) := m.vqfsOf e
  let others := vs.filter (fun p => decide (p.1 % 1024 ≠ v))
  let u := vs.foldl (fun (s : Nat) (p : Nat × Vqf) => s + p.2.u) 0
  let jj := vs.foldl (fun (s : Nat) (p : Nat × Vqf) => s + p.2.j) 0
  let rc := fld x.share 16 10
  let bc := fld x.share 32 11
  let recOk := decide (x.u < x.q)
    || (decide (u + others.foldl (fun (s : Nat) (p : Nat × Vqf) => s + (p.2.q - p.2.u)) 0 < 600) && (decide (rc = 0) || decide (x.u < rc)))
  let byteOk := decide (x.j + n ≤ x.b)
    || (decide (jj + n + others.foldl (fun (s : Nat) (p : Nat × Vqf) => s + (p.2.b - p.2.j)) 0 ≤ (m.engine e).jb)
      && (decide (bc = 0) || decide (x.j + n ≤ bc * 256)))
  recOk && (! j || byteOk)

/-- Journaled bytes that engine `e` has admitted in the round. -/
def Mach.roundBytes (m : Mach) (e : Nat) : Nat := (m.vqfsOf e).foldl (fun (s : Nat) (p : Nat × Vqf) => s + p.2.j) 0

/-- Whether queue `q` admits at all (R385, R393 QSTATE): ENABLED, its VQF not FREEZING, primary, not held, its engine enabled and neither quiesced,
rebuilding nor about to be reset. -/
def Mach.queueOpen (m : Mach) (q : Nat) : Bool :=
  let x := m.queue q
  let b := m.blk (queueStop q) 0
  decide (x.st = 1) && decide ((m.vqf (q / 2048) x.vqf).st ≠ 3) && m.primary q && ! x.held && ! (m.engine (q / 2048)).rebuilding && m.answers (queueStop q) 0 && b.enable
    && ! b.quiesce && ! b.disabling && ! m.warm

/-- The cause for which a record of `n` bytes is refused at the engine, the causes in ascending order (R393, R457). -/
def Mach.refuseCause (m : Mach) (q n : Nat) : Option Nat :=
  let e := q / 2048
  let x := m.queue q
  if ! m.queueOpen q then some 1
  else if ! m.shareOk e x.vqf n x.j then some 2
  else if 8192 ≤ m.hotUsed e then some 3
  else if x.j ∧ (m.jSize e ≤ (m.engine e).journal.length ∨ (m.copiesFor e (m.mirrorsNow q)).isEmpty) then some 4
  else if 192 < n ∧ (m.freeBuf e).isNone then some 5
  else if x.j ∧ (m.engine e).jb < m.roundBytes e + n then some 6
  else if x.backlog ≠ 0 ∧ x.backlog ≤ (x.recs.filter (fun r => decide (r.st = .accepted))).length then some 7
  else if m.phase ≠ .run then some 8
  else none

/-- A refusal at the engine is counted (R393, R419, R459, R508). -/
def Mach.countRefusal (m : Mach) (q cause : Nat) : Mach :=
  let e := q / 2048
  let v := (m.queue q).vqf
  let m1 := ((m.countReg (leStop e) 0 0x78 0 32 1).setRegFld (leStop e) 0 0x78 32 4 cause).countUncore (leStop e) (.plain 0x261) 1
  if cause = 2 then m1.setVqf e v { m1.vqf e v with shareRef := min ((m1.vqf e v).shareRef + 1) 0xFFFFFFFF } else m1

/-- The payload beyond the inline part goes into buffer `i` of each copy (R387, R394). A last line that is written in part and
holds an error halts the ingress channel of the frame's port (R316, R379). -/
def Mach.putPayload (m : Mach) (e i : Nat) (bs : List (BitVec 8)) (port : Option Nat) (cs : List Bool) : Mach :=
  cs.foldl (fun acc b =>
    let a := acc.poolPa e b + i * 10240
    let tail := a + bs.length / 64 * 64
    let m1 := if bs.length % 64 = 0 then acc else acc.readUpsets none false tail 64
    let m2 := match port with
      | some p => if bs.length % 64 ≠ 0 ∧ (m1.metaAt tail).poison then m1.portHalt p tail false else m1
      | none => m1
    m2.putBytes a bs (bs.length + 1)) m

/-- A record is admitted (R392, R394, R456): it takes the next number, a payload buffer and a journal entry, and counts against
its VQF. -/
def Mach.admitRec (m : Mach) (q : Nat) (r0 : LRec) : Mach :=
  let e := q / 2048
  let x := m.queue q
  let n := r0.data.length
  let mirrored := m.mirrorsNow q
  let cs := if x.j then m.copiesFor e mirrored else (m.copiesFor e false).take 1
  let buf := if 192 < n then m.freeBuf e else none
  let r := { r0 with
    seq := x.next, st := RecState.admitted, vqf := x.vqf, pbuf := buf, partner := if mirrored then Ack.awaited else Ack.none
    copyB := x.j && decide (cs.length = 2) }
  let v := m.vqf e x.vqf
  let m1 := m.setQueue q { x with next := (x.next + 1) % 2 ^ 48, recs := x.recs ++ [r] }
  let m2 := (if m.forwardsNow q then m1.epnSend e else m1).setVqf e x.vqf { v with u := v.u + 1, j := if x.j then v.j + n else v.j }
  let m3 := m2.countUncore (leStop e) (.plain 0x260) 1
  let m4 := if x.j then m3.countUncore (leStop e) (.plain 0x265) n else m3
  let m5 := match buf with
    | some i => (m4.drawn.setEngine e { m4.engine e with pbufs := i :: (m4.engine e).pbufs }).putPayload e i (r.data.drop 192)
        (if r.lput then none else some r.port) cs
    | none => m4
  if x.j then m5.appendEntry e 0 [(q, r.seq)] (m5.slotWords q r false) cs else m5

/-- A record of a frame that a complex hands over (R359, R388). -/
def Handover.record (h : Handover) : LRec :=
  ⟨0, .admitted, 0, h.bytes, h.port, false, h.pri, h.handle.getD 0, 0, h.ts, 0, 0, 0, none, 0, [], none, none, .none, .none, false⟩

/-- The first frame that complex `px` holds for the engines. -/
def Mach.firstHeld (m : Mach) (px : Nat) : Option Handover := (m.handovers.find? (fun p => decide (p.1 = px))).map Prod.snd

/-- Remove the first frame of complex `px`. -/
def dropFirst (px : Nat) : List (Nat × Handover) → List (Nat × Handover)
  | [] => []
  | p :: t => if p.1 = px then t else p :: dropFirst px t

/-- A refusal at the engine of a frame (R362, R393). -/
def Mach.refuseFrame (m : Mach) (h : Handover) (cause : Nat) : Mach :=
  let m1 := m.countRefusal h.queue cause
  match h.handle with
  | some i => (m1.countSf (h.port / 32) 1 i 3 48 16).refEvent (h.port / 32) i
  | none => m1.countPort h.port 0x80 16 16

/-- Whether admission to queue `q` waits for a raise of the pair (R447). -/
def Mach.raiseHolds (m : Mach) (q : Nat) : Bool := m.pair.raising && (m.queue q).mir && (m.queue q).mirrored

/-- RECORD_ADMIT (R393): the first frame of complex `px` is admitted or refused, and its buffer space is freed (R360). -/
def Mach.recordAdmit (m : Mach) (px : Nat) : Mach :=
  match m.firstHeld px with
  | none => m
  | some h =>
    if m.raiseHolds h.queue then m
    else
      let m1 := { m with handovers := dropFirst px m.handovers }
      let m2 := match m1.refuseCause h.queue h.bytes.length with
        | some c => m1.refuseFrame h c
        | none => m1.admitRec h.queue h.record
      m2.pfcUpdate h.port

/-! ### Queue stop and freeze -/

/-- Whether the stop of a queue is complete (R460). -/
def Queue.stopDone (x : Queue) : Bool :=
  ! x.recs.any (fun r => decide (r.st = .admitted) || decide (r.st = .taken) || decide (r.st = .retired) || decide (r.st = .released))

/-- A queue in STOPPING whose stop is complete and that holds no record is DISABLED (R460). -/
def Mach.stopCheck (m : Mach) (q : Nat) : Mach :=
  let x := m.queue q
  if x.st = 2 ∧ x.recs.isEmpty then m.setQueue q { x with st := 0 } else m

/-- The queues of VQF `v` on engine `e` with a descriptor (R451). -/
def Mach.queuesOf (m : Mach) (e v : Nat) : List (Nat × Queue) :=
  m.queues.filter (fun p => decide (p.1 / 2048 = e) && decide (p.2.vqf = v))

/-- The VQF's event at a completion (R455). -/
def Mach.vqfEvent (m : Mach) (e v : Nat) : Mach :=
  let c := (m.vqf e v).cfg
  if bit c 10 then m.raiseAssigned (fld c 0 10) else m

/-- A VQF in FREEZING is FROZEN once none of its queues holds a RELEASED record, nor an ADMITTED one (R463): its queues enter
FROZEN with it. -/
def Mach.freezeCheck (m : Mach) (e v : Nat) : Mach :=
  let x := m.vqf e v
  let qs := m.queuesOf e v
  if x.st ≠ 3 ∨ qs.any (fun p => p.2.recs.any (fun r => decide (r.st = .released) || decide (r.st = .admitted))) then m
  else
    let m1 := qs.foldl (fun acc p =>
      if p.2.st = 0 then acc else acc.setQueue p.1 { acc.queue p.1 with st := 3, pre := p.2.st }) m
    (m1.setVqf e v { x with st := 4, busy := false, saved := false, result := 0 }).vqfEvent e v

/-- After a record of queue `q` has changed its state (R460, R463). -/
def Mach.queueTick (m : Mach) (q : Nat) : Mach := (m.stopCheck q).freezeCheck (q / 2048) (m.queue q).vqf

/-- RECORD_ACCEPT (R392, R394). -/
def Mach.recordAccept (m : Mach) (q s : Nat) : Mach :=
  match (m.queue q).rec? s with
  | some r => if r.st = .admitted ∧ r.partner ≠ .awaited then
      (m.modRec q s (fun r => { r with st := .accepted, atime := m.dt })).queueTick q else m
  | none => m

/-! ### Delivery -/

/-- Whether the memory of a queue's ring is there: a cluster's CC window reads ENABLE (R412). -/
def Mach.ringThere (m : Mach) (q : Nat) : Bool :=
  let x := m.queue q
  ! x.cm || (m.answers (ccStop x.cluster) 0 && (m.blk (ccStop x.cluster) 0).enable)

/-- The next record to deliver (R392, R397): accepted, every lower number accepted, its slot free. -/
def Queue.nextDeliver (x : Queue) : Option LRec :=
  match x.recs.find? (fun r => decide (r.st = .admitted) || decide (r.st = .accepted)) with
  | some r =>
    let back := (r.seq + 2 ^ 48 - x.slots) % 2 ^ 48
    let held := match x.rec? back with
      | some o => decide (o.st = .admitted) || decide (o.st = .accepted) || decide (o.st = .delivered) || decide (o.st = .taken)
      | none => false
    if r.st = .accepted ∧ ! held then some r else none
  | none => none

/-- Whether the queue delivers (R392, R412, R460, R463, R471, R427, R440). -/
def Mach.delivers (m : Mach) (q : Nat) : Bool :=
  let x := m.queue q
  (decide (x.st = 1) || (decide (x.st = 2) && ! x.stopDone)) && decide ((m.vqf (q / 2048) x.vqf).st ≠ 3) && m.primary q
    && ! x.held && ! x.halted && ! (m.engine (q / 2048)).rebuilding && m.answers (queueStop q) 0 && m.ringThere q
    && decide (m.phase = .run)

/-- The record as delivered (R411): `bad` is the part that no copy gives: 0 none, 1 inline, 2 the payload buffer, 3 the
header. -/
def LRec.marked (r : LRec) (bad : Nat) : LRec :=
  if bad = 0 then r
  else if bad = 3 then
    { r with flags := r.flags ||| 9, data := [], port := 0, lput := false, pri := 0, handle := 0, ts := 0, atime := 0, pcmp := 0, bad := 3 }
  else { r with flags := r.flags ||| 1, bad := bad }

/-- Poison the payload buffer's words (R411). -/
def Mach.poisonBuf (m : Mach) (e : Nat) (r : LRec) : Mach :=
  match r.pbuf with
  | none => m
  | some i => (List.range ((r.data.length - 192 + 7) / 8)).foldl (fun acc j =>
      acc.putWord (m.poolPa e false + i * 10240 + 8 * j) 0 false true) m

/-- The slot and the control word are written as one ordered pair (R390): the slot of number `s` of the ring at `ring`. -/
def Mach.writeSlot (m : Mach) (st ring slots s : Nat) (ws : List Word) : Mach :=
  (m.engWords st (ring + s % slots * 256) ws).engWord st (ring + slots * 256) (setFld 0 0 48 (s + 1)) false

/-- RECORD_DELIVER (R392, R397, R411, R433, R471): `bad` is the part of the record that no local copy gives, `partnerBad` that the
partner's copy of it fails too. -/
def Mach.recordDeliver (m : Mach) (q bad : Nat) (partnerBad : Bool) : Mach :=
  let e := q / 2048
  let x := m.queue q
  if ! m.delivers q then m
  else match x.nextDeliver with
  | none => m
  | some r =>
    match m.enginePa q x.ring with
    | none => m.haltDelivery q x.ring
    | some (ring, m1) =>
      match m1.carveOf ring with
      | some b => ((m1.logViol (m1.carveSite ring b).1 (m1.carveSite ring b).2.1 ⟨b, false, leStop e, 0x3F, .dmawr, .carve⟩).countReg 0 9 0x208
          16 16 1).haltDelivery q ring
      | none =>
        let n := if bad = 0 ∨ (m.mirrorsNow q ∧ ! partnerBad) then 0 else min bad 3
        let r1 := r.marked n
        let m2 := if n = 0 then m1 else m1.raiseOwn (leStop e) 3 none
        let m3 := if n = 2 then m2.poisonBuf e r else m2
        let m4 := m3.writeSlot (leStop e) ring x.slots r.seq (m3.slotWords q r1 (decide (n = 1)))
        let m5 := (m4.modRec q r.seq (fun _ => { r1 with st := .delivered })).countUncore (leStop e) (.plain 0x262) 1
        let m6 := if bit x.w0 36 then m5.raiseAssigned x.delev else m5
        (if x.j then m6.copyForward e else m6).queueTick q

/-! ### Release -/

/-- The first record of a queue that is not released, where it is retired (R392, R398). -/
def Queue.nextRelease (x : Queue) : Option LRec :=
  match x.recs.find? (fun r => decide (r.st ≠ .released)) with
  | some r => if r.st = .retired then some r else none
  | none => none

/-- The release marker of the next record goes to the partner while mirroring is active (R398, R431). -/
def Mach.sendMarker (m : Mach) (q : Nat) : Mach :=
  match (m.queue q).nextRelease with
  | some r => if m.forwardsNow q ∧ r.marker = .none then
      (m.modRec q r.seq (fun r => { r with marker := if m.mirroring then .awaited else .here })).epnSend (q / 2048) else m
  | none => m

/-- CLEAN of every DRAM line of an output's data (R398 item 1, R275). -/
def Mach.cleanOut (m : Mach) (o : OutRec) : Mach :=
  (List.range ((o.pa + o.len - 1) / 64 - o.pa / 64 + 1)).foldl (fun acc i =>
    let line := o.pa / 64 + i
    if acc.homed (line * 64) then acc.cleanLine line else acc) m

/-- RECORD_SENT (R392, R395): every output is read or discarded, and the record's resources are freed. -/
def Mach.recordSent (m : Mach) (q s : Nat) : Mach :=
  let e := q / 2048
  match (m.queue q).rec? s with
  | none => m
  | some r =>
    if r.st ≠ .released ∨ r.outs.any (fun o => decide (0 < o.left)) then m
    else
      let m1 := m.freeBufs e (r.pbuf.toList ++ r.outs.filterMap OutRec.buf)
      let x := m1.queue q
      ((m1.setQueue q { x with recs := x.recs.filter (fun r => decide (r.seq ≠ s)) }).freeEntries e).queueTick q

/-- RECORD_RELEASE (R392, R398): the release writes of the next retired record are acknowledged; a J record takes its release
entry first, and a mirrored one needs the acknowledgement of its marker. -/
def Mach.recordRelease (m : Mach) (q : Nat) : Mach :=
  let e := q / 2048
  let x := m.queue q
  match x.nextRelease with
  | none => m
  | some r =>
    if r.marker = .awaited ∨ (m.mirrorsNow q ∧ r.marker ≠ .here) ∨ x.held ∨ x.st = 3 ∨ m.phase ≠ .run
      ∨ (x.j ∧ m.jSize e ≤ (m.engine e).journal.length) then m.sendMarker q
    else
      let m1 := if x.j then
          let m2 := r.outs.foldl Mach.cleanOut m
          let (ws, m3) := m2.freeWords
          m3.appendEntry e 1 [(q, r.seq)] ws (m3.copiesFor e (! r.copyB))
        else m
      let m4 := (m1.modRec q r.seq (fun r => { r with st := .released })).countUncore (leStop e) (.plain 0x264) 1
      let m5 := r.outs.zipIdx.foldl (fun acc p => acc.releaseOut q r.seq p.2 p.1) m4
      let m6 := (if r.outs.isEmpty then m5.recordSent q r.seq else m5).queueTick q
      m6.sendMarker q

/-! ### Ring loss and engine resets -/

/-- A record whose delivery ring is lost, or that is to be delivered again after a reset (R392, R412, R413): ACCEPTED with R. -/
def LRec.again (r : LRec) : LRec :=
  { r with st := .accepted, flags := r.flags ||| 2, outs := [], pair := none, taker := none }

/-- The records of one queue whose ring is lost (R412). -/
def Mach.loseRing (m : Mach) (q : Nat) : Mach :=
  (m.queue q).recs.foldl (fun acc r =>
    if r.st = .delivered ∨ r.st = .taken then
      let m1 := match r.pair with
        | some i => acc.revokePair q i
        | none => acc
      (m1.freeBufs (q / 2048) (r.outs.filterMap OutRec.buf)).modRec q r.seq LRec.again
    else acc) m

/-- The cluster memory of C-cluster `k` loses power (R412). -/
def Mach.ringLoss (m : Mach) (k : Nat) : Mach :=
  m.queues.foldl (fun acc p => if p.2.cm ∧ p.2.cluster = k then acc.loseRing p.1 else acc) m

/-- A record of a J queue after a reset of its engine (R413). -/
def LRec.replayed (r : LRec) : LRec :=
  match r.st with
  | .admitted => if r.partner = .awaited then
      { r with st := .accepted, flags := r.flags ||| 8, data := [], outs := [], partner := .none, pbuf := none } else { r with st := .accepted }
  | .accepted => r
  | .released => r
  | _ => r.again

/-- State entries for the J records whose state is newer than the journal, up to 32 records in one (R395, R413). -/
def Mach.stateEntries (m : Mach) (e : Nat) : List (Nat × Nat) → Nat → Mach
  | [], _ => m
  | _, 0 => m
  | rs, n + 1 =>
    if m.jSize e ≤ (m.engine e).journal.length then m
    else
      let (ws, m1) := m.freeWords
      (m1.appendEntry e 2 (rs.take 32) ws (m1.copiesFor e false)).stateEntries e (rs.drop 32) n

/-- The J records of engine `e` that a state entry describes. -/
def Mach.changedRecs (m : Mach) (e : Nat) : List (Nat × Nat) :=
  (m.queues.filter (fun p => decide (p.1 / 2048 = e) && p.2.j)).flatMap (fun p =>
    (p.2.recs.filter (fun r => decide (r.st = .delivered) || decide (r.st = .taken))).map (fun r => (p.1, r.seq)))

/-- Every record pair of engine `e` in use is revoked (R414). -/
def Mach.revokeAll (m : Mach) (e : Nat) : Mach :=
  (m.queues.filter (fun p => decide (p.1 / 2048 = e))).foldl (fun acc p => p.2.recs.foldl (fun acc r =>
    match r.pair with
    | some i => acc.revokePair p.1 i
    | none => acc) acc) m

/-- The queues of an engine after its reset (R413, R414): J records are replayed, others are not kept. -/
def Mach.replayQueues (m : Mach) (e : Nat) : Mach :=
  { m with queues := Tab.mapV Queue.reset (fun q x =>
      if q / 2048 = e then { x with recs := if x.j then x.recs.map LRec.replayed else [] } else x) m.queues }

/-- The payload buffers that are still named. -/
def Mach.usedBufs (m : Mach) (e : Nat) : List Nat :=
  (m.queues.filter (fun p => decide (p.1 / 2048 = e))).flatMap (fun p =>
    p.2.recs.flatMap (fun r => r.pbuf.toList ++ r.outs.filterMap OutRec.buf) ++ p.2.copies.filterMap LRec.pbuf)

/-- The ledger's part of a block reset of engine `e` (R414). -/
def Mach.ledgerReset (m : Mach) (e : Nat) : Mach :=
  let rs := m.changedRecs e
  let m1 := (((m.openShadow (leStop e)).stateEntries e rs (rs.length + 1)).revokeAll e).replayQueues e
  let m2 := [0, 1, 2, 3, 4].foldl (fun acc k => acc.resetWindow (leStop e) k) m1
  let m3 := m2.setEngine e { m2.engine e with pbufs := m2.usedBufs e }
  (m3.freeEntries e).clearBank (leStop e)

/-- The outputs of a released record that are not sent yet go to their egress queues again (R413). -/
def Mach.releaseAgain (m : Mach) (q : Nat) (r : LRec) : Mach :=
  if r.st ≠ .released then m
  else r.outs.zipIdx.foldl (fun acc p => if p.1.left = 0 then acc else acc.releaseOut q r.seq p.2 p.1) m

/-- LEDGER_REBUILD_COMPLETE (R413, R543). -/
def Mach.rebuilt (m : Mach) (e : Nat) : Mach :=
  if ! (m.engine e).rebuilding then m
  else
    let m1 := m.setEngine e { m.engine e with rebuilding := false }
    (m1.queues.filter (fun p => decide (p.1 / 2048 = e))).foldl (fun acc p => p.2.recs.foldl (fun acc r => acc.releaseAgain p.1 r) acc) m1

/-! ### Queue descriptors -/

/-- Whether `n` bytes at `a` lie wholly where a ring may (R385). -/
def Mach.ringFits (m : Mach) (cm : Bool) (k a n : Nat) : Bool :=
  if cm then (match m.locate a with
    | .cm i o => decide (i = k) && decide (o + n ≤ 0x100000)
    | _ => false)
  else decide (a + n ≤ m.dram.chans.length * m.dram.ilv)

/-- The placement checks of R385 on a queue's descriptor, all but its VQF's state. -/
def Mach.placementOk (m : Mach) (q : Nat) (x : Queue) : Bool :=
  let size := x.slots * 256
  let v := m.vqf (q / 2048) x.vqf
  let ring := if bit v.cfg 11 then (m.walk2 .guest x.ring 4 (fld v.s2root 12 40 * 4096)).map S2Ok.pa else some x.ring
  ! (x.j && ! m.jok (q / 2048)) && decide (4 ≤ x.log2) && decide (x.log2 ≤ 16) && decide (x.ring % size = 0)
    && (match ring with
      | some a => m.ringFits x.cm x.cluster a (size + 64)
      | none => false)
    && decide (x.rgPairs ≠ 0) && decide (x.rgBase % 2 = 0) && decide (x.rgBase % 128 + 2 * x.rgPairs ≤ 128)

/-- The lowest number of a queue in one of some states, else the next to assign (R420). -/
def Queue.lowest (x : Queue) (p : LRec → Bool) : Nat := ((x.recs.find? p).map LRec.seq).getD x.next

/-- The words of a queue's descriptor as a read returns them (R420). -/
def Queue.words (x : Queue) : List W64 :=
  [setFld x.w0 61 3 x.st, x.w1, x.w2, x.w3, BitVec.ofNat 64 x.next,
   BitVec.ofNat 64 (x.lowest (fun r => decide (r.st = .admitted) || decide (r.st = .accepted))),
   BitVec.ofNat 64 (x.lowest (fun r => decide (r.st ≠ .released))), BitVec.ofNat 64 (x.lowest (fun _ => true))]

/-- The bits of descriptor word `i` that a write may set (R420). -/
def qMask (i : Nat) : W64 :=
  if i = 0 then 0x1000001FFFFF1FFF
  else if i = 1 then 0x000FFFFFFFFFFFFF else if i = 2 then 0x000FFFFFFFFFF000 else if i = 3 then 0xFFFFFFFF017F07FF else 0x0000FFFFFFFFFFFF

/-- QUEUE_STOP (R460). -/
def Mach.queueStopAt (m : Mach) (q : Nat) : Mach :=
  let x := m.queue q
  if x.st = 1 then (m.setQueue q { x with st := 2 }).stopCheck q else m

/-- A write of the descriptor of queue `q` (R385, R420, R460); none where it is refused. -/
def Mach.queueWrite (m : Mach) (q : Nat) (w : Nat → W64) : Option Mach :=
  let x := m.queue q
  let f := fun i => w i &&& qMask i
  let von := decide ((m.vqf (q / 2048) x.vqf).st = 1)
  if x.st = 0 then
    let y := { x with w0 := f 0, w1 := f 1, w2 := f 2, w3 := f 3, next := if x.recs.isEmpty then (f 4).toNat else x.next }
    if ! bit (f 0) 60 then some (m.setQueue q y)
    else if ! m.placementOk q y ∨ (m.vqf (q / 2048) y.vqf).st ≠ 1 then none
    else some (m.setQueue q { y with st := 1 })
  else
    let y := { x with w0 := setBit (setFld x.w0 26 11 (fld (f 0) 26 11)) 60 (bit (f 0) 60) }
    if bit (f 0) 60 ∧ x.st = 2 then (if von then some (m.setQueue q { y with st := 1 }) else none)
    else if ! bit (f 0) 60 ∧ x.st = 1 then some ((m.setQueue q y).queueStopAt q)
    else some (m.setQueue q y)

/-- A command of LE_Q_CMD (R382, R419): `wr` writes the selected descriptor, else reads it. -/
def Mach.queueCommand (m : Mach) (e : Nat) (wr : Bool) : Mach :=
  let st := leStop e
  let q := e * 2048 + m.regFld st 0 0x100 0 11
  if wr then
    match m.queueWrite q (fun i => m.reg st 0 (0x140 + 8 * i)) with
    | some m1 => m1.setReg st 0 0x108 0
    | none => m.setReg st 0 0x108 (setBit 0 62 true)
  else ((m.queue q).words.zipIdx).foldl (fun acc p => acc.setReg st 0 (0x140 + 8 * p.2) p.1) (m.setReg st 0 0x108 0)

/-! ### Commands -/

/-- RECORD_ADMIT (R393). -/
def execRecordAdmit (px : Nat) (s : State) : Out := s.upd (fun m => m.recordAdmit px)

/-- RECORD_DELIVER (R397). -/
def execRecordDeliver (q bad : Nat) (partnerBad : Bool) (s : State) : Out := s.upd (fun m => m.recordDeliver q bad partnerBad)

/-- RECORD_RELEASE (R398). -/
def execRecordRelease (q : Nat) (s : State) : Out := s.upd (fun m => m.recordRelease q)

/-- RECORD_SENT (R392). -/
def execRecordSent (q n : Nat) (s : State) : Out := s.upd (fun m => m.recordSent q n)

/-- RECORD_PAIR_REVOKED (R400): another agent revoked pair `i` of queue `q`. -/
def execRecordPairRevoked (q i : Nat) (s : State) : Out :=
  s.upd (fun m => match (m.queue q).recs.find? (fun r => decide (r.pair = some i)) with
    | some r => (m.handBack q r.seq false).queueTick q
    | none => m)

/-- LE_Q_READ (R420). -/
def execLeQRead (mst : Master) (e : Nat) (s : State) : Out :=
  s.upd (fun m => if 2 ≤ e then m else m.window mst (leStop e) 0 0x108 (fun m => m.queueCommand e false))

/-- LE_Q_WRITE (R385). -/
def execLeQWrite (mst : Master) (e : Nat) (s : State) : Out :=
  s.upd (fun m => if 2 ≤ e then m else m.window mst (leStop e) 0 0x108 (fun m => m.queueCommand e true))

/-- LEDGER_REBUILD_COMPLETE (R543). -/
def execLedgerRebuildComplete (e : Nat) (s : State) : Out := s.upd (fun m => m.rebuilt e)

end Sys2Proof.Machine
end

