-- ==== Sys2Proof/Machine/LedgerInstr.lean ====
section
/-!
DEFINITION. The ledger instructions (R101, R400 to R410): LTAKE, LRET, LOUT, LPUT, LSTAT and LHAND.
-/

namespace Sys2Proof.Machine

/-! ### Operands -/

/-- A LEDGER fault (R403): word 2 holds the cursor of srcA. -/
def ledgerExc (sub : Nat) (a : Word) : Exc := .plain .ledger sub (BitVec.ofNat 64 a.cursor)

/-- A status word (R402). -/
def statusOf (status detail seq : Nat) : Word := .plain (setFld (setFld (setFld 0 0 8 status) 8 8 detail) 16 48 seq)

/-- The queue that a doorbell capability names (R401): steps 2 to 5 of R51 with DB, then the page of its cursor, translated as for
a store. -/
def Mach.doorbell (m : Mach) (c : Nat) (a : Word) : Except Exc (Nat × Mach) :=
  match m.live c a .noacc 0 a.cursor with
  | .error e => .error e
  | .ok (g, _, m1) =>
    if g.otype ≠ 0 then .error (.viol .capPerm 4 .noacc .cap 0 a.cursor)
    else if ! g.has .DB then .error (.viol .capPerm 5 .noacc .cap 0 a.cursor)
    else if a.cursor < g.base ∨ g.limit ≤ a.cursor then .error (ledgerExc 1 a)
    else match m1.translate c ⟨false, true, false⟩ false a.cursor with
      | .error e => .error ⟨e.cause, 9, some .noacc, .xlate, BitVec.ofNat 64 a.cursor, a.cursor, none, none, e.ipa⟩
      | .ok (pa, _, m2) =>
        match m2.locate pa with
        | .bell q _ =>
          if m2.answers (queueStop q) 0 then .ok (q, m2)
          else .error ⟨.capPerm, 0, some .noacc, .ctlUnpowered, BitVec.ofNat 64 a.cursor, a.cursor, some (queueStop q, 0xFE, pa), none, none⟩
        | _ => .error (ledgerExc 1 a)

/-- The queue and the record pair whose sealed entry lies at `pa` (R400). -/
def Mach.pairAt (m : Mach) (pa : Nat) : Option (Nat × Nat) :=
  m.queues.findSome? (fun p =>
    match m.pairPa p.1 0 with
    | some (base, _) =>
      if base + 32 ≤ pa ∧ pa < base + 64 * p.2.rgPairs ∧ (pa - base) % 64 = 32 then some (p.1, (pa - base) / 64) else none
    | none => none)

/-- A record capability that passed its checks: the queue, the pair, the address of its sealed entry, and whether the entry is
live (R401). -/
structure RecCap where
  q : Nat
  i : Nat
  pa : Nat
  live : Bool
  deriving DecidableEq, Repr, Inhabited

/-- Steps 2 to 5 of R51 on a record capability (R401): OTYPE must be 0xFFF0, and the sealed entry must carry DB. An entry of a
record grant block that is not live is answered by the engine. -/
def Mach.recordCap (m : Mach) (c : Nat) (a : Word) : Except Exc (RecCap × Mach) :=
  if ! a.tag then .error (.viol .capTag 2 .noacc .cap 0 a.cursor)
  else match m.entry c a.tsel a.index with
    | .error none => .error (.viol .capGrant 3 .noacc .cap 0 a.cursor)
    | .error (some s) => .error ⟨.capGrant, 3, some .noacc, .carve, 0, a.cursor, some s, none, none⟩
    | .ok (g, pa, m1) =>
      let live := g.valid && decide (g.gen = a.gen)
      match m1.pairAt pa, live with
      | some (q, i), false => .ok (⟨q, i, pa, false⟩, m1)
      | none, false => .error (.viol .capGrant 3 .noacc .cap 0 a.cursor)
      | some (q, i), true =>
        if g.otype ≠ 0xFFF0 then .error (.viol .capPerm 4 .noacc .cap 0 a.cursor)
        else if ! g.has .DB then .error (.viol .capPerm 5 .noacc .cap 0 a.cursor)
        else .ok (⟨q, i, pa, true⟩, m1)
      | none, true =>
        if g.otype ≠ 0xFFF0 then .error (.viol .capPerm 4 .noacc .cap 0 a.cursor)
        else if ! g.has .DB then .error (.viol .capPerm 5 .noacc .cap 0 a.cursor)
        else .error (ledgerExc 2 a)

/-- The engine's answer CAP_GRANT to a stale record capability (R401): it logs the violation in its own window. -/
def RecCap.stale (r : RecCap) (a : Word) : Exc :=
  ⟨.capGrant, 3, some .noacc, .cap, 0, a.cursor, some (queueStop r.q, 0, r.pa), none, none⟩

/-- The TAKEN record that a record capability names, where it holds the capability's pair (R400, R405). -/
def Mach.takenRec (m : Mach) (r : RecCap) (a : Word) : Option LRec :=
  if ! r.live ∨ ! m.answers (queueStop r.q) 0 then none
  else (m.queue r.q).recs.find? (fun x => decide (x.st = .taken) && decide (x.pair = some r.i) && decide (x.seq = a.cursor))

/-- A range as parts of at most a 4 KiB page; `n` bounds the parts. -/
def pageParts (va len : Nat) : Nat → List (Nat × Nat)
  | 0 => []
  | n + 1 =>
    let k := min len (4096 - va % 4096)
    if len = 0 then [] else (va, k) :: pageParts (va + k) (len - k) n

/-- Checks of R51 for a read of `len` bytes at the cursor of a capability, with `perms` (R405, R408). -/
def Mach.checkRange (m : Mach) (c : Nat) (cap : Word) (len : Nat) (perms : List Perm) : Except Exc (List Piece × Mach) :=
  let rq : Req := ⟨.read, perms, ⟨true, false, false⟩, 1, len, true, false, false⟩
  match m.checkParts c cap cap.cursor rq (pageParts cap.cursor len (len / 4096 + 2)) with
  | .error e => .error e
  | .ok (ps, _, m1) => .ok (ps, m1)

/-- The page that holds `va` in the core's regime, as a power of two of bytes. -/
def Mach.pageLog2 (m : Mach) (c va : Nat) : Nat :=
  let g := (m.core c).regime
  match (m.core c).tlb.find? (fun e => e.hits g ⟨true, false, false⟩ va) with
  | some e => e.log2
  | none => match m.walk g ⟨true, false, false⟩ false va with
    | .ok t => t.entry.log2
    | .error _ => 12

/-! ### LTAKE -/

/-- The engine writes record pair `i` of queue `q` for record `s` (R400): its line at the home. Answers the pair's GEN. -/
def Mach.mintPair (m : Mach) (q pa s : Nat) : Nat × Mach :=
  let x := m.queue q
  let gen := (Grant.ofLine (m.grantLine pa)).gen
  let twin : Grant := ⟨s, (s + 1) % 2 ^ 48, setBit 0 11 true, 0, 0, gen, false, true, x.rgOwner⟩
  (gen, (m.writeGrant (queueStop q) 0x3F pa twin).writeGrant (queueStop q) 0x3F (pa + 32) { twin with otype := 0xFFF0 })

/-- The pairs of a queue in no use (R404). -/
def Queue.idlePairs (x : Queue) : List Nat :=
  (List.range x.rgPairs).filter (fun i => ! x.recs.any (fun r => decide (r.pair = some i)))

/-- A pair of queue `q` in no use; which one is open, so a free value picks it (R404; log entry 2). -/
def Mach.freePair (m : Mach) (q : Nat) : Option Nat :=
  let l := (m.queue q).idlePairs
  if l.length ≤ 1 then l.head? else l[m.fresh.toNat % l.length]?

/-- What the engine does for LTAKE (R404), its table comparison passed. -/
def Mach.takeAt (m : Mach) (c q base : Nat) : Word × Mach :=
  let x := m.queue q
  if x.st ≠ 1 ∨ (m.vqf (q / 2048) x.vqf).st = 3 ∨ ! m.primary q ∨ x.held ∨ (m.engine (q / 2048)).rebuilding then (statusOf 3 0 0, m)
  else match x.recs.find? (fun r => decide (r.st = .delivered)) with
    | none => (statusOf 1 0 0, m)
    | some r =>
      match m.freePair q with
      | none => (statusOf 2 0 0, m)
      | some i =>
        let (gen, m1) := m.drawn.mintPair q (base + 64 * i) r.seq
        (.cap r.seq (x.rgBase + 2 * i + 1) x.rgTsel gen,
          m1.modRec q r.seq (fun r => { r with st := .taken, pair := some i, taker := some (coreStop c, coreUnit c) }))

/-- LTAKE (R404). -/
def ltake (c : Nat) (d a : BitVec 6) (m : Mach) : Mach :=
  m.instr c [] (fun m =>
    let x := m.g c a.toNat
    if x.poison then .trap (.plain .poison 1 0)
    else match (m.drainAll c).doorbell c x with
    | .error e => .trap e
    | .ok (q, m1) =>
      let qx := m1.queue q
      let ea := (m1.core c).entryAddr qx.rgTsel qx.rgBase
      match m1.translate c ⟨true, false, false⟩ true ea with
      | .error e => .trap ⟨e.cause, 9, some .noacc, .xlate, BitVec.ofNat 64 ea, ea, none, none, e.ipa⟩
      | .ok (pa, _, m2) =>
        match m2.pairPa q 0 with
        | none => .trap (ledgerExc 3 x)
        | some (base, m3) =>
          if pa ≠ base then .trap (ledgerExc 3 x)
          else
            let (w, m4) := m3.takeAt c q base
            m4.result c d.toNat w)

/-! ### LOUT -/

/-- An output descriptor (R391). -/
structure OutDesc where
  dcap : Word
  w1 : W64
  zero : Bool
  deriving DecidableEq, Repr

/-- LEN. -/
def OutDesc.len (d : OutDesc) : Nat := fld d.w1 0 14
/-- PORT. -/
def OutDesc.port (d : OutDesc) : Nat := fld d.w1 16 7
/-- REPL. -/
def OutDesc.repl (d : OutDesc) : Bool := bit d.w1 27
/-- SEQGEN. -/
def OutDesc.seqgen (d : OutDesc) : Nat := fld d.w1 32 10

/-- The bits of word 1 that a format names (R391). -/
def outMask (g3 : Bool) : W64 := if g3 then 0xFFFF03FF1F7F3FFF else 0xFFFF0000177F3FFF

/-- Fields out of range, or REPL without a pair or a generator (R405). -/
def Mach.outBad (m : Mach) (g3 : Bool) (d : OutDesc) : Bool :=
  ! d.zero || decide (d.w1 &&& ~~~ (outMask g3) ≠ 0) || decide (d.len < 14) || decide (m.maxFrm d.port < d.len + 4)
    || (d.repl && ((m.twinOf d.port).isNone || ! bit (m.sf (d.port / 32) 6 d.seqgen 0) 63))

/-- Whether a VQF may send on a port (R453). -/
def Vqf.mayPort (v : Vqf) (p : Nat) : Bool := if p < 64 then bit v.ports0 p else bit v.ports1 (p - 64)

/-- The descriptor that LOUT reads through srcB (R405). -/
def Mach.readOut (m : Mach) (c : Nat) (g3 : Bool) (y : Word) : Except Exc (OutDesc × Mach) :=
  let n := if g3 then 64 else 32
  match m.firstPiece c y y.cursor ⟨.capld, [.R, .LC], ⟨true, false, false⟩, n, n, true, false, false⟩ with
  | .error e => .error e
  | .ok (p, m1) =>
    let m2 := (m1.loadSide c p).readUpsets (some c) false p.pa n
    let ws := (List.range (n / 8)).map (fun i => m2.coreWord c (p.pa + 8 * i))
    if ws.any (fun w => w.poison) then .error (.plain .poison 1 (vaWord y.cursor))
    else .ok (⟨(ws[0]?).getD Word.zero, ((ws[1]?).getD Word.zero).data, (ws.drop 2).all (fun w => decide (w.data = 0))⟩, m2)

/-- The checks of LOUT on the output data (R405): its physical address. -/
def Mach.outData (m : Mach) (c : Nat) (a : Word) (d : OutDesc) : Except Exc (Nat × Mach) :=
  match m.checkRange c d.dcap d.len [.R, .DMA] with
  | .error e => .error e
  | .ok (ps, m1) =>
    let sz := 2 ^ m1.pageLog2 c d.dcap.cursor
    match ps with
    | [] => .ok (0, m1)
    | p :: _ =>
      if d.dcap.cursor / sz ≠ (d.dcap.cursor + d.len - 1) / sz ∨ ps.any (fun p => ! m1.isMem p.pa) then .error (ledgerExc 4 a)
      else .ok (p.pa, m1)

/-- What the engine does for LOUT (R405). -/
def Mach.outAt (m : Mach) (r : RecCap) (a : Word) (d : OutDesc) (pa : Nat) : Except Exc (Word × Mach) :=
  match m.takenRec r a with
  | none => .error (r.stale a)
  | some x =>
    if m.outBad (m.queue r.q).g3 d then .error (ledgerExc 4 a)
    else if ! (m.vqf (r.q / 2048) (m.queue r.q).vqf).mayPort d.port then .error (ledgerExc 5 a)
    else if 4 ≤ x.outs.length then .ok (statusOf 5 0 x.seq, m)
    else
      let o : OutRec := ⟨pa, d.len, d.port, fld d.w1 24 3, d.repl, bit d.w1 28, d.seqgen, fld d.w1 48 16, 1, none⟩
      .ok (statusOf 0 0 x.seq, m.modRec r.q x.seq (fun x => { x with outs := x.outs ++ [o] }))

/-- LOUT (R405). -/
def lout (c : Nat) (d a b : BitVec 6) (m : Mach) : Mach :=
  m.instr c [] (fun m =>
    let x := m.g c a.toNat
    let y := m.g c b.toNat
    if x.poison || y.poison then .trap (.plain .poison 1 0)
    else match (m.drainAll c).recordCap c x with
    | .error e => .trap e
    | .ok (r, m1) =>
      match m1.readOut c (m1.queue r.q).g3 y with
      | .error e => .trap e
      | .ok (o, m2) =>
        match m2.outData c x o with
        | .error e => .trap e
        | .ok (pa, m3) =>
          match m3.outAt r x o pa with
          | .error e => .trap e
          | .ok (w, m4) => m4.result c d.toNat w)

/-! ### LRET and LHAND -/

/-- What the engine does for LRET (R406). -/
def Mach.retireAt (m : Mach) (r : RecCap) (a : Word) : Except Exc (Word × Mach) :=
  match m.takenRec r a with
  | none => .error (r.stale a)
  | some x =>
    let m1 := m.modRec r.q x.seq (fun x => { x with st := .retired, pair := none, taker := none })
    let m2 := (m1.revokePair r.q r.i).countUncore (queueStop r.q) (.plain 0x263) 1
    .ok (statusOf 0 x.outs.length x.seq, (m2.sendMarker r.q).queueTick r.q)

/-- LRET (R406): on an M queue it first performs MFENCE. -/
def lret (c : Nat) (d a : BitVec 6) (m : Mach) : Mach :=
  m.instr c [] (fun m =>
    let x := m.g c a.toNat
    if x.poison then .trap (.plain .poison 1 0)
    else match m.recordCap c x with
    | .error e => .trap e
    | .ok (r, m1) =>
      match (if (m1.queue r.q).mir then m1.settle c else .ok (m1.drainAll c, true)) with
      | .error e => .trap e
      | .ok (m2, false) => .wait m2
      | .ok (m2, true) =>
        match m2.retireAt r x with
        | .error e => .trap e
        | .ok (w, m3) => m3.result c d.toNat w)

/-- LHAND (R407). -/
def lhand (c : Nat) (d a : BitVec 6) (m : Mach) : Mach :=
  m.instr c [] (fun m =>
    let x := m.g c a.toNat
    if x.poison then .trap (.plain .poison 1 0)
    else match (m.drainAll c).recordCap c x with
    | .error e => .trap e
    | .ok (r, m1) =>
      match m1.takenRec r x with
      | none => .trap (r.stale x)
      | some y => ((m1.handBack r.q y.seq true).queueTick r.q).result c d.toNat (statusOf 0 0 y.seq))

/-! ### LPUT -/

/-- A record of an LPUT (R388, R408). -/
def putRecord (pcmp pri ts : Nat) (bs : List (BitVec 8)) : LRec :=
  ⟨0, .admitted, 0, bs, 0, true, pri, 0, 0, ts, 0, 0, pcmp, none, 0, [], none, none, .none, .none, false⟩

/-- Whether an LPUT finds its queue not ENABLED, or its engine rebuilding (R402, R543). -/
def Mach.putDisabled (m : Mach) (q : Nat) : Bool :=
  decide ((m.queue q).st ≠ 1) || decide ((m.vqf (q / 2048) (m.queue q).vqf).st = 3) || (m.engine (q / 2048)).rebuilding

/-- The status of an LPUT that is not admitted (R402): DISABLED, written as cause 0, or REFUSED with its cause. -/
def putStatus (k : Nat) : Word := if k = 0 then statusOf 3 0 0 else statusOf 4 k 0

/-- The engine tries an LPUT (R393, R458): it is admitted, refused, or waits for a round or for a raise. -/
def Mach.tryPut (m : Mach) (c : Nat) (w : PutWait) : Mach :=
  let q := w.queue
  let set := fun (m : Mach) (w : PutWait) => m.setCore c { m.core c with put := some w }
  if m.raiseHolds q then set m w
  else match m.refuseCause q w.data.length with
    | none =>
      let s := (m.queue q).next
      set (m.admitRec q (putRecord (m.core c).cmpid w.pri m.dt w.data)) { w with seq := some s }
    | some k =>
      if k = 2 ∧ 0 < w.tries then set m w
      else set (m.countRefusal q k) { w with refused := some (if m.putDisabled q then 0 else k) }

/-- Bytes of memory as core `c` sees them. -/
def Mach.coreBytes (m : Mach) (c pa : Nat) : Nat → List (BitVec 8)
  | 0 => []
  | n + 1 => BitVec.ofNat 8 (fld (m.coreWord c (pa / 8 * 8)).data (8 * (pa % 8)) 8) :: m.coreBytes c (pa + 1) n

/-- The source bytes of an LPUT, and whether a word of them is poisoned. -/
def Mach.putSource (m : Mach) (c : Nat) (ps : List Piece) : List (BitVec 8) × Bool :=
  (ps.flatMap (fun p => m.coreBytes c p.pa p.n),
    ps.any (fun p => (wordsTouched p.pa p.n).any (fun w => (m.coreWord c w).poison)))

/-- An LPUT that stands at its engine (R408): it completes once its record is accepted or its refusal is final. -/
def putDone (c d : Nat) (w : PutWait) (m : Mach) : Res :=
  let clear := fun (m : Mach) => m.setCore c { m.core c with put := none }
  match w.refused, w.seq with
  | some k, _ => (clear m).result c d (putStatus k)
  | none, some s =>
    match (m.queue w.queue).rec? s with
    | some r => if r.st = .admitted then .wait m else (clear m).result c d (statusOf 0 0 s)
    | none => (clear m).result c d (statusOf 0 0 s)
  | none, none => .wait m

/-- LPUT up to its request (R408). -/
def lputBody (c : Nat) (d a b : BitVec 6) (m : Mach) : Res :=
  let z := m.g c d.toNat
  let x := m.g c a.toNat
  let y := m.g c b.toNat
  let len := fld z.data 0 14
  if z.poison || x.poison || y.poison then .trap (.plain .poison 1 0)
  else match (m.drainAll c).doorbell c x with
  | .error e => .trap e
  | .ok (q, m1) =>
    match m1.checkRange c y len [.R] with
    | .error e => .trap e
    | .ok (ps, m2) =>
      if len = 0 ∨ 9600 < len ∨ setFld (setFld z.data 0 14 0) 16 3 0 ≠ 0 ∨ ps.any (fun p => ! m2.isMem p.pa) then .trap (ledgerExc 6 x)
      else
        let m3 := ps.foldl (fun acc p => acc.readUpsets none false p.pa p.n) m2
        let (bs, bad) := m3.putSource c ps
        if bad then .trap (.plain .poison 1 (vaWord y.cursor))
        else
          let tries := fld (m3.vqf (q / 2048) (m3.queue q).vqf).cfg 12 4
          let m4 := m3.tryPut c ⟨q, none, tries, none, bs, fld z.data 16 3⟩
          match (m4.core c).put with
          | some w => putDone c d.toNat w m4
          | none => .wait m4

/-- LPUT (R408): one that stands at its engine is no longer fetched anew, and no exception comes before it completes (R401). -/
def lput (c : Nat) (d a b : BitVec 6) (m : Mach) : Mach :=
  match (m.core c).put with
  | some w =>
    if m.phase = .run ∧ ((m.core c).st = .running ∨ (m.core c).st = .stopping) then m.finish c [] (putDone c d.toNat w m) else m
  | none => m.instr c [] (lputBody c d a b)

/-! ### LSTAT -/

/-- The word of LSTAT (R409). -/
def Mach.lstatWord (m : Mach) (q : Nat) : W64 :=
  let x := m.queue q
  let count := fun (p : LRec → Bool) => min (x.recs.filter p).length 0xFFFF
  let w := setFld (setFld 0 0 16 (count (fun r => decide (r.st = .delivered)))) 16 16 (count (fun r => decide (r.st = .taken)))
  let w := setFld (setFld w 32 24 (x.lowest (fun _ => true))) 56 3 x.st
  let w := setBit (setBit (setBit w 59 x.j) 60 x.mir) 61 (m.mirrorsNow q)
  setBit w 62 (x.recs.any (fun r => r.flag 0 && decide (r.st ≠ .retired) && decide (r.st ≠ .released)))

/-- LSTAT (R409). -/
def lstat (c : Nat) (d a : BitVec 6) (m : Mach) : Mach :=
  m.instr c [] (fun m =>
    let x := m.g c a.toNat
    if x.poison then .trap (.plain .poison 1 0)
    else match (m.drainAll c).doorbell c x with
    | .error e => .trap e
    | .ok (q, m1) => m1.result c d.toNat (.plain (m1.lstatWord q)))

/-! ### Commands -/

/-- LTAKE (R404). -/
def execLtake (c : Nat) (d a : BitVec 6) (s : State) : Out := s.upd (ltake c d a)

/-- LRET (R406). -/
def execLret (c : Nat) (d a : BitVec 6) (s : State) : Out := s.upd (lret c d a)

/-- LOUT (R405). -/
def execLout (c : Nat) (d a b : BitVec 6) (s : State) : Out := s.upd (lout c d a b)

/-- LPUT (R408). -/
def execLput (c : Nat) (d a b : BitVec 6) (s : State) : Out := s.upd (lput c d a b)

/-- LSTAT (R409). -/
def execLstat (c : Nat) (d a : BitVec 6) (s : State) : Out := s.upd (lstat c d a)

/-- LHAND (R407). -/
def execLhand (c : Nat) (d a : BitVec 6) (s : State) : Out := s.upd (lhand c d a)

end Sys2Proof.Machine
end

