-- ==== Sys2Proof/Machine/Vqf.lean ====
section
/-!
DEFINITION. Queue functions (R451 to R473): rounds and quotas, the commands of VQF_CMD, the saved image, and the registers of
the VQF window.
-/

namespace Sys2Proof.Machine

/-! ### Rounds -/

/-- WEIGHT (R473). -/
def Vqf.weight (x : Vqf) : Nat := fld x.share 0 10

/-- Whether VQF `v` is in the active set of engine `e` (R456). -/
def Mach.vqfActive (m : Mach) (e v : Nat) : Bool :=
  decide ((m.vqf e v).st = 1) && (m.queuesOf e v).any (fun p => decide (p.2.st = 1))

/-- A quota reduced to its ceiling, where one is set. -/
def ceiled (q c : Nat) : Nat := if c = 0 then q else min q c

/-- A VQF at the start of a round with total weight `w` and journaled capacity `jb` (R456). -/
def Vqf.quotas (x : Vqf) (act : Bool) (w jb : Nat) : Vqf :=
  if act then
    { x with q := ceiled (600 * x.weight / w) (fld x.share 16 10), b := ceiled (jb * x.weight / w) (fld x.share 32 11 * 256), u := 0, j := 0 }
  else { x with q := 0, b := 0, u := 0, j := 0 }

/-- Whether core record `x` holds an LPUT that waits at engine `e`. -/
def Core.waitsPut (x : Core) (e : Nat) : Bool :=
  match x.put with
  | some w => decide (w.queue / 2048 = e) && w.seq.isNone && w.refused.isNone
  | none => false

/-- LPUTs that wait at engine `e` are tested again, cores in ascending order (R458); `round` says that a round start has come. -/
def Mach.retryPuts (m : Mach) (e : Nat) (round : Bool) : Mach :=
  m.cores.foldl (fun acc p =>
    if p.2.waitsPut e then
      match p.2.put with
      | some w => acc.tryPut p.1 (if round then { w with tries := w.tries - 1 } else w)
      | none => acc
    else acc) m

/-- A round begins on engine `e` (R456). -/
def Mach.roundStart (m : Mach) (e : Nat) : Mach :=
  let act := (m.vqfsOf e).filter (fun p => m.vqfActive e (p.1 % 1024))
  let w := act.foldl (fun (s : Nat) (p : Nat × Vqf) => s + p.2.weight) 0
  let jb := fld (m.leReg e 0x40) 0 8 * 2000
  let m1 := { m with vqfs := Tab.mapV Vqf.reset (fun k x =>
    if k / 1024 = e then x.quotas (m.vqfActive e (k % 1024)) w jb else x) m.vqfs }
  (m1.setEngine e { m1.engine e with jb := jb }).retryPuts e true

/-- Both engines begin a round. -/
def Mach.roundsStart (m : Mach) : Mach := (m.roundStart 0).roundStart 1

/-! ### Command results -/

/-- RESULT of VQF `v` (R473). -/
def Mach.vqfResult (m : Mach) (e v r : Nat) : Mach := m.setVqf e v { m.vqf e v with result := r }
/-- A command that was BUSY completes with a result (R455). -/
def Mach.vqfDone (m : Mach) (e v r : Nat) : Mach := (m.setVqf e v { m.vqf e v with result := r, busy := false }).vqfEvent e v

/-- The queues that VQF `v` owns on engine `e`, ascending (R384, R451). -/
def Mach.vqfQueues (m : Mach) (e v : Nat) : List Nat :=
  ((List.range 2048).map (fun j => e * 2048 + j)).filter (fun q => decide ((m.queue q).vqf = v))

/-! ### ENABLE, DISABLE, FREEZE, THAW, RESUME -/

/-- ENABLE (R455). -/
def Mach.vqfEnable (m : Mach) (e v : Nat) : Mach :=
  let x := m.vqf e v
  if x.st = 0 ∧ 1 ≤ x.weight then m.setVqf e v { x with st := 1, result := 0 } else m.vqfResult e v 1

/-- DISABLE (R455, R460). -/
def Mach.vqfDisable (m : Mach) (e v : Nat) : Mach :=
  let x := m.vqf e v
  if x.st ≠ 1 then m.vqfResult e v 1
  else (m.queuesOf e v).foldl (fun acc p => acc.queueStopAt p.1) (m.setVqf e v { x with st := 2, result := 0 })

/-- Every TAKEN record of a queue is returned (R463 item 2). -/
def Mach.returnTaken (m : Mach) (q : Nat) : Mach :=
  (m.queue q).recs.foldl (fun acc r => if r.st = .taken then acc.handBack q r.seq true else acc) m

/-- FREEZE (R455, R463). -/
def Mach.vqfFreeze (m : Mach) (e v : Nat) : Mach :=
  let x := m.vqf e v
  if x.st = 1 ∨ x.st = 2 then
    let m1 := m.setVqf e v { x with st := 3, busy := true }
    ((m.queuesOf e v).foldl (fun acc p => acc.returnTaken p.1) m1).freezeCheck e v
  else m.vqfResult e v 1

/-- THAW (R469). -/
def Mach.vqfThaw (m : Mach) (e v : Nat) : Mach :=
  let x := m.vqf e v
  if x.st ≠ 4 then m.vqfResult e v 1
  else
    let qs := m.queuesOf e v
    let m1 := qs.foldl (fun acc p =>
      if p.2.st = 3 then (acc.setQueue p.1 { p.2 with st := if p.2.en then 1 else 2 }).stopCheck p.1 else acc) m
    m1.setVqf e v { x with st := if qs.any (fun p => p.2.en) then 1 else 2, result := 0 }

/-- RESUME (R455, R471). -/
def Mach.vqfResume (m : Mach) (e v : Nat) : Mach :=
  let x := m.vqf e v
  if x.hcause then m.vqfResult e v 1
  else (m.queuesOf e v).foldl (fun acc p => acc.setQueue p.1 { acc.queue p.1 with halted := false })
    (m.setVqf e v { x with halted := false, result := 0 })

/-- VQF_STOP_COMPLETE (R461). -/
def Mach.vqfStopped (m : Mach) (e v : Nat) : Mach :=
  let x := m.vqf e v
  if x.st = 2 ∧ (m.queuesOf e v).all (fun p => p.2.stopDone) then (m.setVqf e v { x with st := 0 }).vqfEvent e v else m

/-! ### SAVE -/

/-- Whether `n` bytes at `a` lie wholly in interleaved DRAM outside every enabled carve-out (R464). -/
def Mach.plainDram (m : Mach) (a n : Nat) : Bool :=
  decide (a + n ≤ m.dram.chans.length * m.dram.ilv)
    && (List.range 16).all (fun i =>
      let b := m.reg 0 9 (0x100 + 0x10 * i)
      ! bit b 0 || decide (a + n ≤ fld b 21 31 * 0x200000) || decide (m.regFld 0 9 (0x108 + 0x10 * i) 21 31 * 0x200000 ≤ a))

/-- Blocks of 256 bytes that hold `n` bytes. -/
def blocks256 (n : Nat) : Nat := (n + 255) / 256

/-- PBLK of a record's image (R465). -/
def LRec.pblk (r : LRec) : Nat := blocks256 (r.data.length - r.inlen)

/-- G3 descriptor word 1 of a captured output (R391, R465). -/
def OutRec.word (o : OutRec) : W64 :=
  let w := setFld (setFld (setFld 0 0 14 o.len) 16 7 o.port) 24 3 o.pri
  setFld (setFld (setBit (setBit w 27 o.repl) 28 o.tsreq) 32 10 o.seqgen) 48 16 o.tstag

/-- The words of `n` blocks of bytes, poisoned where `bad`. -/
def blockWords (bs : List (BitVec 8)) (n : Nat) (bad : Bool) : List Word :=
  (wordsOf bs (32 * n)).map (fun w => (⟨w, false, bad, 0⟩ : Word))

/-- The output data of an image, as memory holds it at SAVE. -/
def Mach.outWords (m : Mach) (o : OutRec) : List Word :=
  let ws := blockWords ((List.range o.len).map (fun i => m.byte (o.pa + i))) (blocks256 o.len) false
  ws.zipIdx.map (fun (p : Word × Nat) =>
    { p.1 with poison := decide (8 * p.2 < o.len) && ((m.metaAt (o.pa + 8 * p.2)).poison
      || (m.metaAt (min (o.pa + 8 * p.2 + 7) (o.pa + o.len - 1))).poison) })

/-- STATE of an image header (R465). -/
def RecState.image : RecState → Nat
  | .delivered => 1
  | .retired => 2
  | _ => 0

/-- A record's image (R465). -/
def Mach.imageOf (m : Mach) (q entry : Nat) (r : LRec) : List Word :=
  let h := setFld (setFld (setFld (setFld 0 0 6 entry) 8 2 r.st.image) 10 3 r.outs.length) 16 16 r.pblk
  let outs := (List.range 4).map (fun k => Word.plain (((r.outs[k]?).map OutRec.word).getD 0))
  Word.plain h :: outs ++ List.replicate 27 Word.zero ++ m.slotWords q r (decide (r.bad = 1))
    ++ blockWords (r.data.drop 192) r.pblk (decide (r.bad = 2)) ++ r.outs.flatMap m.outWords

/-- The whole record area of a VQF (R465). -/
def Mach.areaWords (m : Mach) (qs : List Nat) : List Word :=
  qs.zipIdx.flatMap (fun (p : Nat × Nat) => (m.queue p.1).recs.flatMap (fun r => m.imageOf p.1 p.2 r))

/-- Entry `i` of the state block: the descriptor, with QSTATE before FREEZE, and DESTQ (R464). -/
def Queue.entryWords (x : Queue) (q : Nat) : List Word :=
  (x.words.zipIdx).map (fun (p : W64 × Nat) =>
    Word.plain (if p.2 = 0 then setFld p.1 61 3 (if x.st = 3 then x.pre else x.st) else if p.2 = 1 then setFld p.1 52 12 q else p.1))

/-- The words of the state block (R464). -/
def Mach.blockOf (m : Mach) (e v : Nat) (qs : List Nat) (area : Nat) : List Word :=
  let x := m.vqf e v
  let nrec := qs.foldl (fun (n : Nat) q => n + (m.queue q).recs.length) 0
  let w0 := setFld (setFld (setFld (setFld 0 0 16 1) 16 10 v) 26 1 e) 32 6 qs.length
  let head : List W64 := [w0, BitVec.ofNat 64 nrec, BitVec.ofNat 64 area, x.share, x.ports0, x.ports1, x.cfg, m.dtNow]
  (head.map Word.plain ++ List.replicate 24 Word.zero ++ qs.flatMap (fun q => (m.queue q).entryWords q)
    ++ List.replicate 512 Word.zero).take 512

/-- SAVE (R464): the area, then the block, its word 0 last. -/
def Mach.vqfSave (m : Mach) (e v : Nat) : Mach :=
  let x := m.vqf e v
  let st := leStop e
  let blk := fld x.blk 12 40 * 4096
  let area := fld x.recArea 12 40 * 4096
  let qs := m.vqfQueues e v
  if x.st ≠ 4 then m.vqfResult e v 1
  else if 60 < qs.length then m.vqfDone e v 3
  else if ! m.plainDram blk 4096 ∨ ! m.plainDram area (x.avail * 1024) then m.vqfDone e v 5
  else
    let ws := m.areaWords qs
    let need := (ws.length * 8 + 1023) / 1024
    let m1 := m.setVqf e v { x with need := need }
    if x.avail < need then m1.vqfDone e v 4
    else
      let b := m1.blockOf e v qs (ws.length * 8)
      let m2 := ((m1.engWords st area ws).engWords st (blk + 8) (b.drop 1)).engWord st blk ((b[0]?).getD Word.zero).data false
      (m2.setVqf e v { m2.vqf e v with saved := true }).vqfDone e v 0

/-! ### DROP -/

/-- The records of a queue are discarded and the queue is DISABLED (R466). -/
def Mach.dropQueue (m : Mach) (q : Nat) : Mach :=
  let e := q / 2048
  let x := m.queue q
  let bufs := x.recs.flatMap (fun r => r.pbuf.toList ++ r.outs.filterMap OutRec.buf)
  ((m.freeBufs e bufs).setQueue q { x with recs := [], st := 0, w0 := setBit x.w0 60 false }).freeEntries e

/-- DROP (R466). -/
def Mach.vqfDrop (m : Mach) (e v : Nat) (force : Bool) : Mach :=
  let x := m.vqf e v
  let qs := m.queuesOf e v
  let p := m.pairState
  if x.st ≠ 4 ∨ ! x.saved then m.vqfResult e v 1
  else if (p = 0 ∨ p = 5) ∧ qs.any (fun p => p.2.mir) ∧ ! force then m.vqfDone e v 9
  else
    let marks := if m.mirroring then (qs.filter (fun p => p.2.mir)).map Prod.fst else []
    let m1 := qs.foldl (fun acc p => acc.dropQueue p.1) m
    let m2 := marks.foldl (fun acc _ => acc.epnSend e) m1
    if marks.isEmpty then (m2.setVqf e v { x with st := 0 }).vqfDone e v 0
    else m2.setVqf e v { x with busy := true, drops := marks }

/-- The partner acknowledges the drop marker of queue `q`, or mirroring stops (R466). -/
def Mach.dropAcked (m : Mach) (e v q : Nat) : Mach :=
  let x := m.vqf e v
  if ! x.drops.contains q then m
  else
    let ds := x.drops.filter (fun d => decide (d ≠ q))
    let m1 := m.setVqf e v { x with drops := ds }
    if ds.isEmpty then (m1.setVqf e v { x with drops := [], st := 0 }).vqfDone e v 0 else m1

/-! ### RESTORE -/

/-- An image as RESTORE reads it: its entry, the record, how many outputs it has, and its length in words. -/
structure Image where
  entry : Nat
  state : Nat
  seqLow : Nat
  outs : List (OutRec × List Word)
  recd : LRec
  words : Nat
  deriving DecidableEq, Repr

/-- The bytes of words. -/
def bytesOf (ws : List Word) : List (BitVec 8) := ws.flatMap (fun w => (List.range 8).map (fun i => BitVec.ofNat 8 (fld w.data (8 * i) 8)))

/-- The record that a slot image holds (R388); `rest` is its payload. -/
def recordOf (g3 : Bool) (v : Nat) (ws rest : List Word) : LRec :=
  let w := fun (i : Nat) => ((ws[i]?).getD Word.zero).data
  let h := if g3 then 8 else 4
  let len := if g3 then fld (w 1) 0 14 else fld (w 0) 48 14
  let inl := (ws.drop h).take 24
  let bad := if inl.any (fun x => x.poison) then 1 else if rest.any (fun x => x.poison) then 2 else 0
  let data := (bytesOf inl).take (min len 192) ++ (bytesOf rest).take (len - 192)
  if g3 then
    ⟨fld (w 0) 0 48, .accepted, fld (w 0) 60 4, data, fld (w 1) 24 7, bit (w 1) 31, fld (w 1) 32 3, fld (w 1) 36 12, v, (w 2).toNat,
      (w 4).toNat, fld (w 5) 32 8, fld (w 5) 48 16, none, bad, [], none, none, .none, .none, false⟩
  else
    ⟨fld (w 0) 0 32, .accepted, fld (w 0) 44 4, data, fld (w 2) 52 7, bit (w 2) 62, fld (w 2) 59 3, fld (w 3) 8 12, v, (w 1).toNat,
      0, fld (w 3) 20 8, 0, none, bad, [], none, none, .none, .none, false⟩

/-- The number whose low 32 bits are `low`, the last below `next` (R386). -/
def extendSeq (next low : Nat) : Nat := (next + 2 ^ 48 - 1 - (next + 2 ^ 48 - 1 - low) % 2 ^ 32) % 2 ^ 48

/-- The output that word `w` of an image header describes. -/
def outOf (w : W64) : OutRec :=
  ⟨0, fld w 0 14, fld w 16 7, fld w 24 3, bit w 27, bit w 28, fld w 32 10, fld w 48 16, 1, none⟩

/-- The output data that follow an image's payload. -/
def Mach.readOuts (m : Mach) (a : Nat) : List OutRec → List (OutRec × List Word) × Nat
  | [] => ([], 0)
  | o :: os =>
    let n := 32 * blocks256 o.len
    let (r, k) := m.readOuts (a + 8 * n) os
    ((o, m.words a n) :: r, n + k)

/-- Read the image at `a` (R465); the GEN of entry i is `g3 i`. -/
def Mach.readImage (m : Mach) (a v : Nat) (g3 : Nat → Bool) : Image :=
  let h := m.words a 8
  let w := fun (i : Nat) => ((h[i]?).getD Word.zero).data
  let entry := fld (w 0) 0 6
  let pblk := fld (w 0) 16 16
  let rest := m.words (a + 512) (32 * pblk)
  let (outs, k) := m.readOuts (a + 512 + 256 * pblk) ((List.range (min (fld (w 0) 10 3) 4)).map (fun i => outOf (w (1 + i))))
  let r := recordOf (g3 entry) v (m.words (a + 256) 32) rest
  ⟨entry, fld (w 0) 8 2, r.seq, outs, r, 64 + 32 * pblk + k⟩

/-- Read `n` images from `a` on. -/
def Mach.readImages (m : Mach) (a v : Nat) (g3 : Nat → Bool) : Nat → List Image
  | 0 => []
  | n + 1 =>
    let i := m.readImage a v g3
    i :: m.readImages (a + 8 * i.words) v g3 n

/-- The queue that entry words describe, VQF replaced (R467). -/
def queueOfEntry (ws : List W64) (v : Nat) : Queue :=
  let w := fun (i : Nat) => (ws[i]?).getD 0
  { Queue.reset with
    w0 := setFld (w 0 &&& qMask 0) 16 10 v, w1 := w 1 &&& qMask 1, w2 := w 2 &&& qMask 2, w3 := w 3 &&& qMask 3
    next := fld (w 4) 0 48, st := fld (w 0) 61 3 }

/-- A payload buffer for each of some blocks of words. -/
def Mach.storeOuts (m : Mach) (e : Nat) : List (OutRec × List Word) → List OutRec × Mach
  | [] => ([], m)
  | (o, ws) :: t =>
    match m.freeBuf e with
    | none => ([], m)
    | some i =>
      let pa := m.poolPa e false + i * 10240
      let m1 := m.drawn.setEngine e { m.engine e with pbufs := i :: (m.engine e).pbufs }
      let m2 := (m1.copiesFor e false).foldl (fun acc b => acc.engWords (leStop e) (acc.poolPa e b + i * 10240) ws) m1
      let (os, m3) := m2.storeOuts e t
      ({ o with pa := pa, buf := some i } :: os, m3)

/-- Admit one image as a record of queue `q` (R467 items 2 and 3): R where it was delivered or retired. A record of a mirrored queue
goes to the standby (R468). -/
def Mach.admitImage (m : Mach) (q : Nat) (i : Image) : Mach :=
  let e := q / 2048
  let x := m.queue q
  let seq := if x.g3 then i.seqLow else extendSeq x.next i.seqLow
  let (outs, m1) := m.storeOuts e i.outs
  let mirrored := m1.mirrorsNow q
  let cs := if x.j then m1.copiesFor e mirrored else (m1.copiesFor e false).take 1
  let buf := if 192 < i.recd.data.length then m1.freeBuf e else none
  let r := { i.recd with
    seq := seq, flags := if i.state = 0 then i.recd.flags else i.recd.flags ||| 2
    st := if i.state = 2 then RecState.retired else if mirrored then RecState.admitted else RecState.accepted
    outs := outs, pbuf := buf, partner := if mirrored then Ack.awaited else Ack.none, copyB := x.j && decide (cs.length = 2) }
  let m2 := m1.setQueue q { x with recs := x.recs ++ [r] }
  let m3 := match buf with
    | some b => (m2.drawn.setEngine e { m2.engine e with pbufs := b :: (m2.engine e).pbufs }).putPayload e b (r.data.drop 192) none cs
    | none => m2
  let m4 := if x.j then m3.appendEntry e 0 [(q, seq)] (m3.slotWords q r false) cs else m3
  if mirrored then m4.epnSend e else m4

/-- The bits of VQF_SHARE that are not reserved (R473). -/
def shareBits : W64 := 0x000007FF03FF03FF
/-- The bits of VQF_CFG that are not reserved (R473). -/
def cfgBits : W64 := 0x3FFFFFF

/-- RESTORE (R467, R468): `partner` tells for which queues the partner holds a mirrored standby. -/
def Mach.vqfRestore (m : Mach) (e v : Nat) (partner : List Nat) : Mach :=
  let x := m.vqf e v
  let blk := fld x.blk 12 40 * 4096
  let b := m.words blk 512
  let w := fun (i : Nat) => ((b[i]?).getD Word.zero).data
  let nq := fld (w 0) 32 6
  let entry := fun (i : Nat) => ((b.drop (32 + 8 * i)).take 8).map Word.data
  let dest := fun (i : Nat) => fld (((entry i)[1]?).getD 0) 52 12
  let q0 := fun (i : Nat) => queueOfEntry (entry i) v
  let badq := (List.range nq).any (fun i =>
    decide (dest i / 2048 ≠ e) || decide ((m.queue (dest i)).st ≠ 0) || ! (m.queue (dest i)).recs.isEmpty
      || ! m.placementOk (dest i) (q0 i))
  if x.st ≠ 0 then m.vqfResult e v 1
  else if fld (w 0) 0 16 ≠ 1 ∨ ! m.isMem blk ∨ b.any (fun x => x.poison) then m.vqfDone e v 6
  else if badq then m.vqfDone e v 8
  else
    let is := m.readImages (fld x.recArea 12 40 * 4096) v (fun i => (q0 i).g3) (fld (w 1) 0 32)
    let bufs := is.foldl (fun (n : Nat) i => n + i.outs.length + if 192 < i.recd.data.length then 1 else 0) 0
    let hot := (is.filter (fun i => ! (q0 i.entry).j)).length
    if m.pSize e < (m.engine e).pbufs.length + bufs ∨ 8192 < m.hotUsed e + hot then m.vqfDone e v 7
    else
      let m1 := (List.range nq).foldl (fun acc i =>
        acc.setQueue (dest i) { q0 i with mirrored := acc.mirroring && (q0 i).mir && partner.contains (dest i) }) m
      let m2 := m1.setVqf e v { x with share := w 3 &&& shareBits, ports0 := w 4, ports1 := w 5, cfg := w 6 &&& cfgBits, st := 3, busy := true, saved := false }
      (is.foldl (fun acc i => acc.admitImage (dest i.entry) i) m2).freezeCheck e v

/-! ### VQF_CMD -/

/-- The VQF that VQF_SEL names on engine `e`. -/
def Mach.vqfSel (m : Mach) (e : Nat) : Nat := m.regFld (leStop e) 3 0x40 0 10

/-- A command to the selected VQF (R455): one while BUSY = 1 is ignored. `stops` says that it is DISABLE or FREEZE, which answer BADSTATE
while FREEZING (R462). -/
def Mach.vqfCommand (m : Mach) (e : Nat) (stops : Bool) (f : Mach → Nat → Mach) : Mach :=
  let v := m.vqfSel e
  let x := m.vqf e v
  if x.busy then m.vqfResult e v (if stops ∧ x.st = 3 then 1 else 2) else f m v

/-! ### Registers -/

/-- Records held in queues whose stop is complete (R461, R473). -/
def Mach.vqfHeld (m : Mach) (e v : Nat) : Nat :=
  ((m.queuesOf e v).filter (fun p => decide (p.2.st = 2) && p.2.stopDone)).foldl (fun (n : Nat) p => n + p.2.recs.length) 0

/-- A banked register of the VQF window (R473). -/
def Mach.vqfRead (m : Mach) (e off : Nat) : W64 :=
  let v := m.vqfSel e
  let x := m.vqf e v
  if off = 0x48 then x.cfg
  else if off = 0x50 then x.share
  else if off = 0x58 then x.ports0
  else if off = 0x60 then x.ports1
  else if off = 0x70 then
    let w := setBit (setBit (setBit (setBit (setFld 0 0 3 x.st) 3 x.busy) 4 x.saved) 5 x.halted) 6 x.hcause
    setFld (setFld (setFld w 8 4 x.result) 16 12 (m.vqfQueues e v).length) 32 32 (m.vqfHeld e v)
  else if off = 0x78 then setFld (setFld (setFld 0 0 10 x.q) 16 10 (min x.u 1023)) 32 32 x.shareRef
  else if off = 0x80 then x.blk
  else if off = 0x88 then x.recArea
  else if off = 0x90 then setFld (setFld 0 0 32 x.avail) 32 32 x.need
  else if off = 0x98 then x.s2root
  else 0

/-- An address field of R473. -/
def pageMask (w : W64) : W64 := w &&& 0x000FFFFFFFFFF000

/-- A write of a banked register of the VQF window, but for VQF_CMD (R471, R473). -/
def Mach.vqfWrite (m : Mach) (e off : Nat) (w : W64) : Mach :=
  let v := m.vqfSel e
  let x := m.vqf e v
  let put := fun (y : Vqf) => m.setVqf e v y
  if off = 0x48 then
    let c := setFld (setFld x.cfg 10 1 (fld w 10 1)) 12 4 (fld w 12 4)
    let c := if 256 ≤ fld w 0 10 ∧ fld w 0 10 < 768 then setFld c 0 10 (fld w 0 10) else c
    put { x with cfg := if x.st = 0 then setFld (setFld c 11 1 (fld w 11 1)) 16 10 (fld w 16 10) else c }
  else if off = 0x50 then
    let c := setFld x.share 32 11 (fld w 32 11)
    let c := if fld w 0 10 = 0 then c else setFld c 0 10 (fld w 0 10)
    put { x with share := if 600 < fld w 16 10 then c else setFld c 16 10 (fld w 16 10) }
  else if off = 0x58 then put { x with ports0 := w }
  else if off = 0x60 then put { x with ports1 := w }
  else if off = 0x70 then put { x with hcause := x.hcause && ! bit w 6 }
  else if off = 0x78 then put { x with shareRef := fld w 32 32 }
  else if off = 0x80 then put { x with blk := pageMask w }
  else if off = 0x88 then put { x with recArea := pageMask w }
  else if off = 0x90 then put { x with avail := fld w 0 32 }
  else if off = 0x98 then (if x.st = 0 then put { x with s2root := pageMask w } else m)
  else m

/-! ### Commands -/

/-- A write of VQF_CMD with one operation; a guest's is refused (R452). -/
def vqfRow (mst : Master) (e : Nat) (stops : Bool) (f : Mach → Nat → Mach) (s : State) : Out :=
  s.upd (fun m => if 2 ≤ e then m else m.window mst (leStop e) 3 0x68 (fun m => m.vqfCommand e stops f))

/-- VQF_ENABLE (R455). -/
def execVqfEnable (mst : Master) (e : Nat) (s : State) : Out := vqfRow mst e false (fun m v => m.vqfEnable e v) s

/-- VQF_DISABLE (R460). -/
def execVqfDisable (mst : Master) (e : Nat) (s : State) : Out := vqfRow mst e true (fun m v => m.vqfDisable e v) s

/-- VQF_FREEZE (R463). -/
def execVqfFreeze (mst : Master) (e : Nat) (s : State) : Out := vqfRow mst e true (fun m v => m.vqfFreeze e v) s

/-- VQF_THAW (R469). -/
def execVqfThaw (mst : Master) (e : Nat) (s : State) : Out := vqfRow mst e false (fun m v => m.vqfThaw e v) s

/-- VQF_SAVE (R464). -/
def execVqfSave (mst : Master) (e : Nat) (s : State) : Out := vqfRow mst e false (fun m v => m.vqfSave e v) s

/-- VQF_RESTORE (R467): `partner` are the queues of which the partner holds a mirrored standby (R468). -/
def execVqfRestore (mst : Master) (e : Nat) (partner : List Nat) (s : State) : Out :=
  vqfRow mst e false (fun m v => m.vqfRestore e v partner) s

/-- VQF_DROP (R466). -/
def execVqfDrop (mst : Master) (e : Nat) (force : Bool) (s : State) : Out := vqfRow mst e false (fun m v => m.vqfDrop e v force) s

/-- VQF_RESUME (R471). -/
def execVqfResume (mst : Master) (e : Nat) (s : State) : Out := vqfRow mst e false (fun m v => m.vqfResume e v) s

/-- VQF_ROUND_START (R456): device time reaches the next multiple of 2,000 ns. -/
def execVqfRoundStart (s : State) : Out :=
  s.upd (fun m => ({ m with dt := (m.dt / 2000 + 1) * 2000 }).roundsStart)

/-- VQF_STOP_COMPLETE (R461). -/
def execVqfStopComplete (e v : Nat) (s : State) : Out := s.upd (fun m => m.vqfStopped e v)

end Sys2Proof.Machine
end

