-- ==== Sys2Proof/Machine/Pair.lean ====
section
/-!
DEFINITION. Pairing over Epnis (R421 to R447): links, heartbeats, the states of the pair, joining, takeover, mirrored records
and markers, and mirror windows.
-/

namespace Sys2Proof.Machine

/-! ### Registers of the pair -/

/-- EPN_PAIR_STATUS: one copy for both engines (R450). -/
def Mach.pairReg (m : Mach) (off : Nat) : W64 := m.reg (leStop 0) 1 off
/-- Write a field of EPN_PAIR_STATUS. -/
def Mach.setPairFld (m : Mach) (lo n x : Nat) : Mach := m.setRegFld (leStop 0) 1 0x90 lo n x
/-- Change what the device keeps of the pair. -/
def Mach.modPair (m : Mach) (f : PairRt → PairRt) : Mach := { m with pair := f m.pair }
/-- A command or a role write that is ignored (R425, R450). -/
def Mach.pairIgn (m : Mach) : Mach := m.setPairFld 14 1 1
/-- PSUP: the pair-sense channel is up (R424). -/
def Mach.psup (m : Mach) : Bool := bit (m.pairReg 0x90) 15
/-- FENCEIN. -/
def Mach.fenceIn (m : Mach) : Bool := bit (m.pairReg 0x90) 6
/-- This device's PAIR_ID. -/
def Mach.pairId (m : Mach) : Bool := bit (m.pairReg 0x90) 5
/-- The engine's LINK source (R330). -/
def Mach.linkSrc (m : Mach) (l : Nat) : Mach := m.raiseOwn (leStop l) 4 none
/-- Epnis links that are up. -/
def Mach.linksUp (m : Mach) : Nat := ([0, 1].filter (fun l => m.epnUp l)).length

/-- HELDQ follows the queues (R440). -/
def Mach.heldTick (m : Mach) : Mach := m.setPairFld 7 1 (if m.queues.any (fun p => p.2.held) then 1 else 0)

/-! ### The end of mirroring -/

/-- Where the journal entry of a record stands in the ring. -/
def entryAt (q s : Nat) : List JEnt → Nat → Option Nat
  | [], _ => none
  | j :: t, i => if j.recs.contains (q, s) ∧ j.kind = 0 then some i else entryAt q s t (i + 1)

/-- A record that awaits the partner is completed locally (R432): a J record takes journal copy B, with its payload. -/
def Mach.completeLocal (m : Mach) (q : Nat) (r : LRec) : Mach :=
  let e := q / 2048
  let j := (m.queue q).j
  let m1 := m.modRec q r.seq (fun r => { r with
    partner := .none, marker := if r.marker = .awaited then .here else r.marker, copyB := r.copyB || (j && decide (r.partner = .awaited)) })
  if ! j ∨ r.partner ≠ .awaited ∨ ! m.copyServes e true then m1
  else
    let m2 := match entryAt q r.seq (m1.engine e).journal 0 with
      | some i => m1.putEntry e ((m1.engine e).tail + i) (m1.slotWords q r false) [true]
      | none => m1
    match r.pbuf with
    | some b => m2.putPayload e b (r.data.drop 192) none [true]
    | none => m2

/-- The records and markers of a queue that await the partner (R432). -/
def Mach.completeQueue (m : Mach) (q : Nat) : Mach :=
  (m.queue q).recs.foldl (fun acc r => if r.partner = .awaited ∨ r.marker = .awaited then acc.completeLocal q r else acc) m

/-- The drops of queue functions whose markers await the partner complete (R466). -/
def Mach.completeDrops (m : Mach) : Mach :=
  m.vqfs.foldl (fun acc p => p.2.drops.foldl (fun acc q => acc.dropAcked (p.1 / 1024) (p.1 % 1024) q) acc) m

/-- A raise is abandoned (R447): admission resumes. -/
def Mach.raiseEnd (m : Mach) : Mach :=
  if ! m.pair.raising then m
  else (((m.modPair (fun p => { p with raising := false, partnerQuiet := false })).setPairFld 13 1 1).retryPuts 0 false).retryPuts 1 false

/-- Mirroring stops (R432): what awaits the partner completes locally, forwarded writes are settled (R436), and OUT entries
stop. A takeover still needs to know which queues were mirrored (R441). -/
def Mach.mirrorStop (m : Mach) (takeover : Bool) : Mach :=
  let m1 := m.queues.foldl (fun acc p => acc.completeQueue p.1) m
  let m2 := { m1.completeDrops with
    fwds := []
    cores := Tab.mapV Core.reset (fun _ x => { x with mirrorSent := 0 }) m1.completeDrops.cores
    mirWins := Tab.mapV .off (fun _ w => if w.en ∧ w.out ∧ (w.st = 2 ∨ w.st = 3) then { w with st := 1 } else w) m1.completeDrops.mirWins }
  let m3 := if takeover then m2 else
    { m2 with queues := Tab.mapV Queue.reset (fun _ x => { x with mirrored := false }) m2.queues }
  (m3.modPair (fun p => { p with shaken := false, relinks := [] })).raiseEnd

/-! ### States -/

/-- The pair enters a state (R429): PAIR_STATE is raised, and LE0's PAIR source where a fault caused it. -/
def Mach.setPair (m : Mach) (s : Nat) (fault : Bool) : Mach :=
  if m.pairState = s then m
  else
    let m1 := (m.setPairFld 0 3 s).raiseEvent 788
    let m2 := if fault then m1.raiseOwn (leStop 0) 5 none else m1
    if s = 0 ∨ s = 4 ∨ s = 5 then m2.mirrorStop (decide (s = 4)) else m2

/-- JOINING fails (R429, R443): SOLO, with LASTJOIN. -/
def Mach.joinFail (m : Mach) (why : Nat) : Mach := (m.setPairFld 10 3 why).setPair 0 true

/-- JOINING begins (R429). -/
def Mach.joinBegin (m : Mach) : Mach := (m.modPair (fun p => { p with shaken := false })).setPair 1 false

/-- Whether JOINING may begin (R429). -/
def Mach.canJoin (m : Mach) : Bool :=
  (decide (m.pairState = 0) || decide (m.pairState = 5)) && decide (0 < m.linksUp) && m.psup && decide (m.phase = .run)

/-- AUTOJOIN (R429): tested when a link or the pair-sense channel comes up, when EPN_PAIR_CFG is written, and at the end of each
heartbeat period. -/
def Mach.autoJoin (m : Mach) : Mach := if bit (m.pairReg 0x80) 0 ∧ m.canJoin then m.joinBegin else m

/-- A takeover begins (R441 step 1, R442): `why` is LASTLOSS. -/
def Mach.takeoverBegin (m : Mach) (why : Nat) (fault : Bool) : Mach :=
  ((m.setPairFld 8 2 why).countReg (leStop 0) 1 0x90 32 16 1).setPair 4 fault

/-- A fence command goes out on every path still up (R439): it is a numbered frame of each Epnis link. -/
def Mach.sendOnLinks (m : Mach) : Mach := [0, 1].foldl (fun acc l => if acc.epnUp l then acc.epnSend l else acc) m

/-- PARTNER_DECLARED_LOST (R429, R437, R441). -/
def Mach.partnerLost (m : Mach) (why : Nat) : Mach :=
  let s := m.pairState
  if s = 2 ∨ s = 3 then m.sendOnLinks.takeoverBegin why true
  else if s = 1 then m.joinFail 4
  else if s = 5 then (m.setPairFld 8 2 why).setPair 0 true
  else m

/-! ### Links -/

/-- The unacknowledged frames of link `l` go out on the other link, which numbers them (R423). -/
def Mach.moveFrames (m : Mach) (l : Nat) : Mach :=
  let a := m.pair.link l
  let b := m.pair.link (1 - l)
  if a.unacked.isEmpty then m
  else m.modPair (fun p => (p.setLink l { a with unacked := [], retx := 0 }).setLink (1 - l)
    { b with
      txNext := b.txNext + a.unacked.length
      unacked := b.unacked ++ (List.range a.unacked.length).map (fun i => b.txNext + i) })

/-- After a change of the links (R429). -/
def Mach.linkTick (m : Mach) : Mach :=
  let s := m.pairState
  let n := m.linksUp
  if s = 2 ∧ n = 1 then m.setPair 3 true
  else if s = 3 ∧ n = 2 then m.setPair 2 false
  else if (s = 2 ∨ s = 3) ∧ n = 0 ∧ m.psup then m.setPair 5 true
  else if s = 1 ∧ n = 0 then m.joinFail 4
  else m

/-- EPNIS_LINK_DOWN (R423). -/
def Mach.linkLost (m : Mach) (l : Nat) : Mach :=
  let st := leStop l
  let v := m.reg st 1 0x48
  if fld v 0 2 ≠ 2 then m
  else
    let n := min (fld v 16 16 + 1) 0xFFFF
    let w := setFld (setBit (setFld v 0 2 (m.regFld st 1 0x40 0 1)) 3 true) 16 16 n
    let m1 := m.setReg st 1 0x48 w
    let m2 := if m1.epnUp (1 - l) then m1.moveFrames l else m1
    (m2.linkSrc l).linkTick

/-- A link leaves UP for the retraining of a raise (R447 step 4). -/
def Mach.relink (m : Mach) : Mach :=
  match m.pair.relinks with
  | [] => m
  | l :: _ => ((m.setRegFld (leStop l) 1 0x48 0 2 1).linkSrc l).setPair 3 false

/-- EPNIS_LINK_UP (R422, R423). -/
def Mach.linkGained (m : Mach) (l : Nat) : Mach :=
  let st := leStop l
  if ! m.answers st 1 ∨ m.regFld st 1 0x40 0 1 = 0 ∨ m.regFld st 1 0x48 0 2 = 2 ∨ m.phase ≠ .run then m
  else
    let m1 := (m.setRegFld st 1 0x48 0 2 2).setRegFld st 1 0x48 2 1 (fld (m.pairReg 0x90) 3 1)
    let m2 := if m1.epnUp (1 - l) then m1 else m1.moveFrames (1 - l)
    let m3 := ((m2.linkSrc l).linkTick).autoJoin
    if m3.pair.relinks.head? = some l then (m3.modPair (fun p => { p with relinks := p.relinks.drop 1 })).relink else m3

/-! ### Raise -/

/-- The quiescent sequence point of this device (R447). -/
def Mach.quiescent (m : Mach) : Bool :=
  m.fwds.isEmpty && m.queues.all (fun p => ! (p.2.mir && p.2.mirrored) || p.2.recs.all (fun r =>
    decide (r.st ≠ .admitted) && decide (r.marker ≠ .awaited)))

/-- A raise completes once both devices are at their quiescent points (R447): admission resumes at ML3, and the links retrain
in turn. -/
def Mach.raiseTick (m : Mach) : Mach :=
  if m.pair.raising ∧ m.pair.partnerQuiet ∧ m.quiescent then
    let m1 := (m.modPair (fun p => { p with raising := false, partnerQuiet := false, relinks := [0, 1] })).setPairFld 3 1 1
    ((m1.retryPuts 0 false).retryPuts 1 false).relink
  else m

/-! ### Heartbeats -/

/-- A heartbeat has arrived on path `i`: Epnis links 0 and 1, PSENSE pairs 2 and 3. -/
def Mach.heardOn (m : Mach) (i : Nat) (h : Heartbeat) : Mach :=
  m.modPair (fun p => { p with
    seen := (List.range 4).map (fun j => decide (j = i) || (p.seen[j]?).getD false)
    leftAt := if h.leaving then some m.dt else p.leftAt
    partnerId := h.id
    partnerState := h.state })

/-- PSUP follows the two pairs (R424); a change while mirroring with a link up raises LINK (R429). `l` is the engine of the pair
that changed. -/
def Mach.psupTick (m : Mach) (l : Nat) : Mach :=
  let up := bit (m.reg (leStop 0) 2 0x40) 0 || bit (m.reg (leStop 1) 2 0x40) 0
  if up = m.psup then m
  else
    let m1 := m.setPairFld 15 1 (if up then 1 else 0)
    let m2 := if m.mirroring ∧ 0 < m.linksUp then m1.linkSrc l else m1
    if up then (m2.linkTick).autoJoin else m2

/-- A heartbeat arrives on PSENSE pair `p` (R424, R437, R450). -/
def Mach.psHeard (m : Mach) (p : Nat) (h : Heartbeat) : Mach :=
  let m1 := (m.heardOn (2 + p) h).setRegFld (leStop p) 2 0x40 1 1 (if h.leaving then 1 else 0)
  (m1.setRegFld (leStop p) 2 0x40 0 1 1).psupTick p

/-- A fence command arrives (R439): one of a device with this PAIR_ID is ignored and counted in EPN_LINK_CNT of engine `l`. -/
def Mach.fenceCommand (m : Mach) (l : Nat) (id : Bool) : Mach :=
  if id = m.pairId then m.countReg (leStop l) 1 0x50 48 8 1 else m.caldera 3 0 false false

/-- Consecutive missed periods of one path: of an Epnis link or of a PSENSE pair (R450). -/
def Mach.missOn (m : Mach) (l : Nat) : Mach :=
  let seen := fun (i : Nat) => (m.pair.seen[i]?).getD false
  let m1 := if seen l then m.setRegFld (leStop l) 1 0x48 32 8 0 else m.countReg (leStop l) 1 0x48 32 8 1
  let m2 := if seen (2 + l) then m1.setRegFld (leStop l) 2 0x40 8 8 0 else m1.countReg (leStop l) 2 0x40 8 8 1
  if 20 ≤ m2.regFld (leStop l) 2 0x40 8 8 then (m2.setRegFld (leStop l) 2 0x40 0 1 0).psupTick l else m2

/-- SELF_FENCE (R438): whether this device stops itself. -/
def Mach.selfFences (m : Mach) : Bool :=
  m.mirroring && m.pairId && decide (10 ≤ m.pair.epMiss) && decide (10 ≤ m.pair.psMiss) && ! m.fenceIn
    && (match m.pair.leftAt with
      | some t => decide (t + 1000000 < m.dt)
      | none => true)

/-- HEARTBEAT_PERIOD_END (R437): device time reaches the next multiple of 10 µs. -/
def Mach.periodEnd (m : Mach) : Mach :=
  if m.phase ≠ .run then m
  else
    let seen := fun (i : Nat) => (m.pair.seen[i]?).getD false
    let m1 := ({ m with dt := (m.dt / 10000 + 1) * 10000 }.missOn 0).missOn 1
    let m2 := m1.modPair (fun p => { p with
      seen := [false, false, false, false]
      epMiss := if seen 0 || seen 1 then 0 else p.epMiss + 1
      psMiss := if seen 2 || seen 3 then 0 else p.psMiss + 1 })
    if m2.selfFences then m2.caldera 3 0 false false
    else if 20 ≤ m2.pair.psMiss ∧ (20 ≤ m2.pair.epMiss ∨ m2.pairState = 5) then m2.partnerLost 1
    else m2.autoJoin

/-- HEARTBEAT_SEND (R437): a numbered frame on each Epnis link that is up; none once LEAVING was sent or in the Caldera state. -/
def Mach.heartbeatSend (m : Mach) : Mach := if m.phase ≠ .run ∨ m.pair.leaving then m else m.sendOnLinks

/-- The last heartbeat, with LEAVING (R437). -/
def Mach.sendLeaving (m : Mach) : Mach := m.heartbeatSend.modPair (fun p => { p with leaving := true })

/-! ### Joining -/

/-- Queue `q` of the partner's handshake. -/
def JoinInfo.queue? (p : JoinInfo) (q : Nat) : Option JoinQueue := p.queues.find? (fun x => decide (x.q = q))

/-- Give queue `q` a role bit (R425). -/
def Mach.setRole (m : Mach) (q : Nat) (primary : Bool) : Mach :=
  m.setRegBit (queueStop q) 1 (0x100 + 8 * (q % 2048 / 64)) (q % 64) primary

/-- A held queue is settled (R440): one that the partner took over becomes standby and its records go, another is released. -/
def Mach.settleHeld (m : Mach) (q : Nat) (took : Bool) : Mach :=
  let x := m.queue q
  if ! x.held then m
  else if took then
    let bufs := x.recs.flatMap (fun r => r.pbuf.toList ++ r.outs.filterMap OutRec.buf)
    (((m.freeBufs (q / 2048) bufs).setQueue q { x with held := false, recs := [] }).freeEntries (q / 2048)).setRole q false
  else m.setQueue q { x with held := false }

/-- Whether queue `q` is mirrored with this partner at mirror level `ml` (R426). -/
def Mach.mirrorMatch (m : Mach) (q : Nat) (ml : Bool) (p : JoinQueue) : Bool :=
  let x := m.queue q
  decide (x.st = 1) && x.mir && p.enabled && p.mir && (x.j == p.j) && (x.g3 == p.g3) && (m.primary q != p.primary) && (ml || ! x.g3)

/-- The frames of resynchronisation of one queue (R444): each record and the highest released number. -/
def Mach.resyncQueue (m : Mach) (q : Nat) : Mach :=
  (List.replicate ((m.queue q).recs.length + 1) ()).foldl (fun acc _ => acc.epnSend (q / 2048)) m

/-- An entry after the handshake (R443, R444): an enabled OUT entry is SYNCING where one of the partner's IN ranges covers its whole target
range, else in ERROR. -/
def MirWin.joined (w : MirWin) (ins : List (Nat × Nat)) : MirWin :=
  if w.en ∧ w.out ∧ w.st ≠ 4 then
    { w with st := if ins.any (fun r => decide (r.1 ≤ w.pbase) && decide (w.pbase + (w.llimit - w.lbase) ≤ r.2)) then 2 else 4 }
  else w

/-- The handshake succeeds (R426, R440, R443, R445). -/
def Mach.joinWith (m : Mach) (p : JoinInfo) (ml : Bool) : Mach :=
  let b := fun (c : Bool) => if c then 1 else 0
  let m1 := (((m.setPairFld 3 1 (b ml)).setPairFld 4 1 (b (p.level.getD false))).setPairFld 10 3 0).modPair
    (fun x => { x with shaken := true })
  let m2 := (m1.queues.foldl (fun acc q => acc.settleHeld q.1 (((p.queue? q.1).map JoinQueue.took).getD false)) m1).heldTick
  let pairs : List (Nat × Bool) := m2.queues.map (fun q => (q.1, ((p.queue? q.1).map (m2.mirrorMatch q.1 ml)).getD false))
  let m3 := pairs.foldl (fun acc q => acc.setQueue q.1 { acc.queue q.1 with mirrored := q.2 }) m2
  let own := (m2.queues.filter (fun q => q.2.mir && ! ((p.queue? q.1).map (m2.mirrorMatch q.1 ml)).getD false)).length
  let theirs := (p.queues.filter (fun x => x.mir && ! (m2.queue x.q).mir)).length
  let m4 := m3.setPairFld 16 16 (min (own + theirs) 0xFFFF)
  let m5 := { m4 with mirWins := Tab.mapV .off (fun _ w => w.joined p.ins) m4.mirWins }
  pairs.foldl (fun acc q => if q.2 ∧ acc.primary q.1 then acc.resyncQueue q.1 else acc) m5

/-- JOIN_HANDSHAKE (R443): the partner's answer arrives. -/
def Mach.joinShake (m : Mach) (p : JoinInfo) : Mach :=
  if m.pairState ≠ 1 ∨ m.pair.shaken then m
  else if p.id = m.pairId then m.joinFail 1
  else match p.level with
  | none => m.joinFail 2
  | some l => if p.takeover then m.joinFail 3 else m.joinWith p (l && bit (m.pairReg 0x80) 1)

/-- RESYNC_COMPLETE (R444): every OUT entry in SYNCING is ACTIVE, and a JOINING ends. -/
def Mach.resyncDone (m : Mach) : Mach :=
  let m1 := { m with mirWins := Tab.mapV .off (fun _ w => if w.st = 2 then { w with st := 3 } else w) m.mirWins }
  if m.mirroring then m1
  else if m.pairState = 1 ∧ m.pair.shaken then
    (if m.linksUp = 2 then m1.setPair 2 false else if m.linksUp = 1 then m1.setPair 3 false else m)
  else m

/-! ### Takeover -/

/-- A record that is replayed (R441 step 4): ACCEPTED with R. -/
def LRec.taken (r : LRec) : LRec := { r with st := .accepted, flags := r.flags ||| 2, partner := .none, marker := .none }

/-- A queue is taken over (R441 steps 3 and 4). -/
def Mach.takeQueue (m : Mach) (q : Nat) : Mach :=
  let x := m.queue q
  let known := ! x.copies.isEmpty || decide (x.expected ≠ 0) || decide (x.relAt ≠ 0)
  (m.setQueue q { x with
    recs := x.copies.map LRec.taken, next := if known then x.expected else x.next, copies := [], expected := 0, relAt := 0
    mirrored := false }).setRole q true

/-- TAKEOVER (R441 steps 2 to 5): `LASTLOSS` 3 is the command of R442, which takes every standby queue and releases held ones. -/
def Mach.takeover (m : Mach) : Mach :=
  if m.pairState ≠ 4 ∨ m.phase ≠ .run then m
  else
    let forced := decide (fld (m.pairReg 0x90) 8 2 = 3)
    let m1 := m.queues.foldl (fun acc p =>
      if ! m.primary p.1 ∧ (forced ∨ (p.2.mirrored ∧ p.2.mir)) then acc.takeQueue p.1 else acc) m
    let m2 := if forced then
        let a := (List.range 64).foldl (fun acc i => acc.setReg (leStop (i / 32)) 1 (0x100 + 8 * (i % 32)) (BitVec.allOnes 64)) m1
        ({ a with queues := Tab.mapV Queue.reset (fun _ x => { x with held := false }) a.queues }).heldTick
      else m1
    m2.setPair 0 false

/-! ### The standby -/

/-- The number that a record carries on the link: at ML2 its low 32 bits, which the receiver extends (R445). -/
def Mach.linkSeq (m : Mach) (q s : Nat) : Nat :=
  if bit (m.pairReg 0x90) 3 then s % 2 ^ 48 else extendSeq ((m.queue q).expected + 2 ^ 31) (s % 2 ^ 32)

/-- Whether this device takes mirrored records of queue `q` (R427). -/
def Mach.standsBy (m : Mach) (q : Nat) : Bool :=
  decide (m.phase = .run) && (m.mirroring || (decide (m.pairState = 1) && m.pair.shaken)) && ! m.primary q && m.answers (queueStop q) 0
    && m.jok (q / 2048)

/-- The copies of a queue are discarded (R444, R466). -/
def Mach.dropCopies (m : Mach) (q : Nat) : Mach :=
  let x := m.queue q
  ((m.freeBufs (q / 2048) (x.copies.filterMap LRec.pbuf)).setQueue q { x with copies := [] }).freeEntries (q / 2048)

/-- A mirrored record arrives (R427, R430, R444, R445): it takes a journal entry and a payload buffer in copy A, and is
acknowledged. A record out of order, or with no room, is not. -/
def Mach.mirrorIn (m : Mach) (q s0 : Nat) (p : MirRec) (first : Bool) : Mach :=
  let e := q / 2048
  let m0 := if first then m.dropCopies q else m
  let s := m.linkSeq q s0
  let ml := bit (m.pairReg 0x90) 3
  let x := m0.queue q
  let n := p.data.length
  let buf := if 192 < n then m0.freeBuf e else none
  if ! m.standsBy q ∨ (! first ∧ s ≠ x.expected) ∨ m0.jSize e ≤ (m0.engine e).journal.length ∨ (192 < n ∧ buf.isNone) then m
  else
    let r : LRec := ⟨s, .accepted, p.flags, p.data, p.port, p.lput, p.pri, p.handle, if ml then p.vqf else x.vqf, p.ts,
      if ml then p.atime else 0, p.hcount, if ml then p.pcmp else 0, buf, 0, [], none, none, .none, .none, false⟩
    let m1 := m0.setQueue q { x with copies := x.copies ++ [r], expected := (s + 1) % 2 ^ 48, relAt := if first then s else x.relAt }
    let m2 := match buf with
      | some i => (m1.drawn.setEngine e { m1.engine e with pbufs := i :: (m1.engine e).pbufs }).putPayload e i (p.data.drop 192) none [false]
      | none => m1
    (m2.appendEntry e 0 [(q, s)] (m2.slotWords q r false) [false]).epnSend e

/-- Whether number `a` is at or before `b`, counted modulo 2^48. -/
def seqLe (a b : Nat) : Bool := decide ((b + 2 ^ 48 - a) % 2 ^ 48 < 2 ^ 47)

/-- A release marker arrives (R427, R431): the copies up to it are no longer needed. -/
def Mach.markerIn (m : Mach) (q s0 : Nat) : Mach :=
  if ! m.standsBy q then m
  else
    let e := q / 2048
    let s := m.linkSeq q s0
    let x := m.queue q
    let gone := x.copies.filter (fun r => seqLe r.seq s)
    let nx := (s + 1) % 2 ^ 48
    (((m.freeBufs e (gone.filterMap LRec.pbuf)).setQueue q { x with
      copies := x.copies.filter (fun r => ! seqLe r.seq s), relAt := nx, expected := if seqLe x.expected s then nx else x.expected }).freeEntries
      e).epnSend e

/-- A drop marker arrives (R466). -/
def Mach.dropIn (m : Mach) (q : Nat) : Mach :=
  if ! m.standsBy q then m
  else
    let m1 := m.dropCopies q
    (m1.setQueue q { m1.queue q with expected := 0, relAt := 0 }).epnSend (q / 2048)

/-- A forwarded write is settled (R436); a refused one puts its entry into ERROR (R434). -/
def Mach.writeAcked (m : Mach) (stop unit seq : Nat) (refused : Bool) : Mach :=
  match m.fwds.find? (fun f => decide (f.stop = stop) && decide (f.unit = unit) && decide (f.seq = seq)) with
  | none => m
  | some f =>
    let m1 := { m with fwds := m.fwds.filter (fun g => decide (g ≠ f)) }
    let m2 := if refused then
        { m1 with mirWins := Tab.set .off m1.mirWins f.win { m1.mirWin f.win with st := if (m1.mirWin f.win).en then 4 else 0 } }
      else m1
    match coreOf stop unit with
    | some c => m2.setCore c { m2.core c with
        mirrorSent := (m2.core c).mirrorSent - 1, mirrorLost := (m2.core c).mirrorLost || refused }
    | none => m2

/-- An acknowledgement of the partner arrives (R394, R398, R436, R447, R466). -/
def Mach.partnerAck (m : Mach) (a : MirAck) : Mach :=
  let cnt := fun (m : Mach) (q : Nat) => m.countUncore (queueStop q) (.plain 0x266) 1
  if ! m.mirroring then m
  else match a with
  | .record q s =>
    match (m.queue q).rec? s with
    | some r => if r.partner = .awaited then cnt (m.modRec q s (fun r => { r with partner := .here })) q else m
    | none => m
  | .marker q s =>
    match (m.queue q).rec? s with
    | some r => if r.marker = .awaited then cnt (m.modRec q s (fun r => { r with marker := .here })) q else m
    | none => m
  | .write stop unit seq refused => m.writeAcked stop unit seq refused
  | .drop q => m.dropAcked (q / 2048) (m.queue q).vqf q
  | .quiet => if m.pair.raising then m.modPair (fun p => { p with partnerQuiet := true }) else m

/-! ### Mirror windows -/

/-- Entry words as EPN_MW_DATAi give them (R450). -/
def MirWin.words (w : MirWin) : List W64 :=
  [setFld (setFld (setBit (setBit (setBit 0 0 w.en) 1 (! w.out)) 2 (decide (w.link = 1))) 4 3 w.st) 12 40 (w.lbase / 4096),
   setFld 0 12 40 (w.llimit / 4096), setFld 0 12 40 (w.pbase / 4096)]

/-- The entry that the data registers describe; STATE is ignored. -/
def winOf (a b c : W64) : MirWin := ⟨bit a 0, ! bit a 1, fld a 2 1, fld a 12 40 * 4096, fld b 12 40 * 4096, fld c 12 40 * 4096, 0⟩

/-- Entry `w` with another EN and STATE. -/
def MirWin.with_ (w : MirWin) (en : Bool) (st : Nat) : MirWin := { w with en := en, st := st }

/-- Whether `[a, b)` touches an enabled carve-out (R221). -/
def Mach.touchesCarve (m : Mach) (a b : Nat) : Bool :=
  (List.range 16).any (fun i =>
    bit (m.reg 0 9 (0x100 + 0x10 * i)) 0 && decide (m.regFld 0 9 (0x100 + 0x10 * i) 21 31 * 0x200000 < b)
      && decide (a < m.regFld 0 9 (0x108 + 0x10 * i) 21 31 * 0x200000))

/-- WHY a write of entry `i` is refused (R435), the causes in the order of their codes; 0 for none. Clearing EN of an enabled entry needs no range. -/
def Mach.mwWhy (m : Mach) (i : Nat) (mir : Bool) (w : MirWin) : Nat :=
  let old := m.mirWin i
  if ! mir then 1
  else if old.en then (if w.en = false ∧ w.with_ true old.st = old then 0 else 6)
  else if m.dram.chans.length * m.dram.ilv < w.llimit then 2
  else if m.touchesCarve w.lbase w.llimit then 3
  else if m.mirWins.any (fun p => decide (p.1 ≠ i) && p.2.en && decide (p.2.lbase < w.llimit) && decide (w.lbase < p.2.llimit)) then 4
  else if w.llimit ≤ w.lbase then 5
  else 0

/-- A line that a cache holds in E or M is downgraded to S (R435 step 1). -/
def Mach.downgrade (m : Mach) (line : Nat) : Mach :=
  match (m.dirOf line).owner with
  | none => m
  | some c =>
    let m1 := match m.holderM line with
      | some o => m.l3Return line (coreStop o)
      | none => m
    (m1.setLine c line .S).setDir line ⟨none, none, [c], []⟩

/-- EPN_MW_CMD write (R435). -/
def Mach.mwWrite (m : Mach) (mir : Bool) : Mach :=
  let st := leStop 0
  let i := m.regFld st 1 0x200 0 6
  let w := winOf (m.reg st 1 0x210) (m.reg st 1 0x218) (m.reg st 1 0x220)
  let why := m.mwWhy i mir w
  if why ≠ 0 then m.setReg st 1 0x208 (setBit (setFld 0 8 4 why) 62 true)
  else
    let m0 := m.setReg st 1 0x208 0
    let put := fun (m : Mach) (x : MirWin) => { m with mirWins := Tab.set .off m.mirWins i x }
    if ! w.en then put m0 (w.with_ false 0)
    else if ! w.out then
      let m1 := put m0 (w.with_ true (1 + m0.fresh.toNat % 3))
      m1.drawn
    else
      let m1 := (m0.dir.filter (fun p => decide (w.lbase / 64 ≤ p.1) && decide (p.1 < w.llimit / 64))).foldl (fun acc p => acc.downgrade p.1) m0
      put m1 (w.with_ true (if m.pairState = 0 ∨ m.pairState = 5 then 1 else 2))

/-- EPN_MW_CMD read (R435, R450). -/
def Mach.mwRead (m : Mach) (mir : Bool) : Mach :=
  let st := leStop 0
  if ! mir then m.setReg st 1 0x208 (setBit (setFld 0 8 4 1) 62 true)
  else
    let ws := (m.mirWin (m.regFld st 1 0x200 0 6)).words
    (ws.zipIdx).foldl (fun acc (p : W64 × Nat) => acc.setReg st 1 (0x210 + 8 * p.2) p.1) (m.setReg st 1 0x208 0)

/-- A forwarded write arrives on link `l` (R434): an enabled IN entry that holds its line takes it; the answer returns. -/
def Mach.forwardIn (m : Mach) (l line mask : Nat) (data : List W64) (poison : Nat) : Mach :=
  if m.phase ≠ .run ∨ ! (m.mirroring || decide (m.pairState = 1)) then m
  else
    let a := line * 64
    let ok := m.mirWins.any (fun p => p.2.en && ! p.2.out && decide (p.2.lbase ≤ a) && decide (a < p.2.llimit))
    (if ok then m.homeBytes (leStop l) 0x3F none line mask data poison else m).epnSend l

/-! ### Role map -/

/-- EPN_ROLEn of engine `e` (R425). -/
def Mach.roleWrite (m : Mach) (e n : Nat) (v : W64) : Mach :=
  if m.pairState ≠ 0 ∧ m.pairState ≠ 5 then m.pairIgn
  else
    let off := 0x100 + 8 * n
    let old := m.reg (leStop e) 1 off
    m.setReg (leStop e) 1 off ((List.range 64).foldl (fun w i =>
      if (m.queue (e * 2048 + 64 * n + i)).st = 0 then setBit w i (bit v i) else w) old)

/-! ### EPN_PAIR_CTRL -/

/-- JOIN (R429). -/
def Mach.pairJoin (m : Mach) : Mach := if m.canJoin then m.joinBegin else m.pairIgn

/-- FENCE (R429): the partner hears of it. -/
def Mach.pairFence (m : Mach) : Mach := if m.mirroring then (m.epnSend 0).setPair 5 false else m.pairIgn

/-- Whether a raise may begin (R447): in PAIRED at ML2, both devices offering ML3. -/
def Mach.canRaise (m : Mach) : Bool :=
  let v := m.pairReg 0x90
  decide (m.pairState = 2) && ! bit v 3 && bit v 4 && bit (m.pairReg 0x80) 1 && ! m.pair.raising

/-- A raise begins (R447 step 1). -/
def Mach.raiseBegin (m : Mach) : Mach := m.modPair (fun p => { p with raising := true, partnerQuiet := false })

/-- RAISE (R447): the partner hears of it. -/
def Mach.pairRaise (m : Mach) : Mach := if m.canRaise then (m.raiseBegin.epnSend 0).raiseTick else m.pairIgn

/-- TAKEOVER (R442). -/
def Mach.pairTakeover (m : Mach) (key : Nat) : Mach :=
  if (m.pairState = 0 ∨ m.pairState = 5) ∧ key = 0x7A4E then m.takeoverBegin 3 false else m.pairIgn

/-- A write of EPN_PAIR_CTRL (R450). -/
def Mach.pairCtrl (m : Mach) (v : W64) : Mach :=
  let op := fld v 0 4
  if op = 0 then m
  else if op = 1 then m.pairJoin
  else if op = 2 then m.pairFence
  else if op = 4 then m.pairRaise
  else if op = 8 then m.pairTakeover (fld v 16 16)
  else m.pairIgn

/-! ### Frames -/

/-- EPNIS_FRAME_RECEIVE (R423): frame `num` of link `l` arrives with `corr` corrected codewords; `bad` has an uncorrectable one;
`ack` acknowledges frames up to a number, `nak` requests one again. -/
def Mach.epnisIn (m : Mach) (l num corr : Nat) (bad : Bool) (ack nak : Option Nat) (b : EpBody) : Mach :=
  if ! m.epnUp l ∨ m.phase ≠ .run then m
  else
    let m1 := m.countReg (leStop l) 1 0x50 0 32 corr
    if bad then m1
    else
      let r := m1.pair.link l
      let m2 := match ack with
        | some n => m1.modPair (fun p => p.setLink l { r with unacked := r.unacked.filter (fun k => decide (n < k)), retx := 0 })
        | none => m1
      let m3 := if num ≠ r.rxNext then m2
        else
          let m2' := m2.modPair (fun p => p.setLink l { p.link l with rxNext := r.rxNext + 1 })
          match b with
          | .other => m2'
          | .heartbeat h => m2'.heardOn l h
          | .pairFence => if m2'.mirroring then m2'.setPair 5 false else m2'
          | .pairRaise => if m2'.canRaise then m2'.raiseBegin.raiseTick else m2'
      match nak with
      | none => m3
      | some _ =>
        if (m3.pair.link l).unacked.isEmpty then m3
        else if 16 ≤ (m3.pair.link l).retx then m3.linkLost l
        else (m3.countReg (leStop l) 1 0x50 32 16 1).modPair (fun p => p.setLink l { p.link l with retx := (p.link l).retx + 1 })

/-! ### Commands -/

/-- RECORD_ACCEPT (R394): the last record before a raise may be among them (R447). -/
def execRecordAccept (q n : Nat) (s : State) : Out := s.upd (fun m => (m.recordAccept q n).raiseTick)

/-- EPNIS_FRAME_RECEIVE (R423). -/
def execEpnisFrameReceive (l num corr : Nat) (bad : Bool) (ack nak : Option Nat) (b : EpBody) (s : State) : Out :=
  s.upd (fun m => if 2 ≤ l then m else m.epnisIn l num corr bad ack nak b)

/-- EPNIS_LINK_DOWN (R423). -/
def execEpnisLinkDown (l : Nat) (s : State) : Out := s.upd (fun m => if 2 ≤ l then m else m.linkLost l)

/-- EPNIS_LINK_UP (R423). -/
def execEpnisLinkUp (l : Nat) (s : State) : Out := s.upd (fun m => if 2 ≤ l then m else m.linkGained l)

/-- PSENSE_FRAME_RECEIVE (R424). -/
def execPsenseFrameReceive (p : Nat) (f : PsFrame) (s : State) : Out :=
  s.upd (fun m =>
    if 2 ≤ p ∨ m.phase ≠ .run ∨ ! m.answers (leStop p) 2 then m
    else match f with
    | .badCrc => m.countReg (leStop p) 2 0x40 32 16 1
    | .heartbeat h => m.psHeard p h
    | .leave => (m.modPair (fun x => { x with leftAt := some m.dt })).setRegFld (leStop p) 2 0x40 1 1 1
    | .fence id => m.fenceCommand p id)

/-- HEARTBEAT_SEND (R437). -/
def execHeartbeatSend (s : State) : Out := s.upd Mach.heartbeatSend

/-- HEARTBEAT_PERIOD_END (R437). -/
def execHeartbeatPeriodEnd (s : State) : Out := s.upd Mach.periodEnd

/-- FENCE_IN_N_EDGE (R556). -/
def execFenceInNEdge (asserted : Bool) (s : State) : Out :=
  s.upd (fun m => (m.setPairFld 6 1 (if asserted then 1 else 0)).modPair (fun p => { p with fenceAt := if asserted then some m.dt else none }))

/-- FENCE_IN_ASSERTED (R437): the input has been asserted for 1 µs. -/
def execFenceInAsserted (s : State) : Out :=
  s.upd (fun m => match m.pair.fenceAt with
    | some t => if m.phase ≠ .run then m else
        ({ m with dt := max m.dt (t + 1000) }).partnerLost 2
    | none => m)

/-- FENCE_COMMAND_RECEIVE (R439): on path 0 or 1 (Epnis links), 2 or 3 (PSENSE pairs). -/
def execFenceCommandReceive (path : Nat) (id : Bool) (s : State) : Out :=
  s.upd (fun m => if 4 ≤ path ∨ m.phase ≠ .run then m else m.fenceCommand (path % 2) id)

/-- TAKEOVER (R441). -/
def execTakeover (s : State) : Out := s.upd Mach.takeover

/-- A write of EPN_PAIR_CTRL through the window of engine `e`. -/
def pairRow (mst : Master) (e : Nat) (f : Mach → Mach) (s : State) : Out :=
  s.upd (fun m => if 2 ≤ e then m else m.window mst (leStop e) 1 0x88 f)

/-- PAIR_JOIN (R429). -/
def execPairJoin (mst : Master) (e : Nat) (s : State) : Out := pairRow mst e Mach.pairJoin s

/-- PAIR_FENCE (R429). -/
def execPairFence (mst : Master) (e : Nat) (s : State) : Out := pairRow mst e Mach.pairFence s

/-- PAIR_RAISE (R447). -/
def execPairRaise (mst : Master) (e : Nat) (s : State) : Out := pairRow mst e Mach.pairRaise s

/-- RAISE_TIMEOUT (R447). -/
def execRaiseTimeout (s : State) : Out := s.upd Mach.raiseEnd

/-- PAIR_TAKEOVER_CMD (R442). -/
def execPairTakeoverCmd (mst : Master) (e key : Nat) (s : State) : Out := pairRow mst e (fun m => m.pairTakeover key) s

/-- JOIN_HANDSHAKE (R443). -/
def execJoinHandshake (p : JoinInfo) (s : State) : Out := s.upd (fun m => m.joinShake p)

/-- RESYNC_COMPLETE (R444). -/
def execResyncComplete (s : State) : Out := s.upd Mach.resyncDone

/-- MIRRORED_RECORD_RECEIVE (R430); `first` begins a resynchronisation of the queue (R444). -/
def execMirroredRecordReceive (q n : Nat) (r : MirRec) (first : Bool) (s : State) : Out := s.upd (fun m => m.mirrorIn q n r first)

/-- RELEASE_MARKER_RECEIVE (R431). -/
def execReleaseMarkerReceive (q n : Nat) (s : State) : Out := s.upd (fun m => m.markerIn q n)

/-- MIRROR_ACK_RECEIVE (R394). -/
def execMirrorAckReceive (a : MirAck) (s : State) : Out := s.upd (fun m => (m.partnerAck a).raiseTick)

/-- FORWARDED_WRITE_RECEIVE (R434). -/
def execForwardedWriteReceive (l line mask : Nat) (data : List W64) (poison : Nat) (s : State) : Out :=
  s.upd (fun m => if 2 ≤ l then m else m.forwardIn l line mask data poison)

/-- DROP_MARKER_RECEIVE (R466). -/
def execDropMarkerReceive (q : Nat) (s : State) : Out := s.upd (fun m => m.dropIn q)

/-- PARTNER_COPY_READ (R433): the standby's answer is one frame of its engine's link. -/
def execPartnerCopyRead (q n : Nat) (s : State) : Out :=
  s.upd (fun m => if m.standsBy q ∧ (m.queue q).copies.any (fun r => decide (r.seq = n)) then m.epnSend (q / 2048) else m)

/-- EPN_MW_READ (R435): `mir` is the MIR permission of the CTLW. -/
def execEpnMwRead (mst : Master) (e : Nat) (mir : Bool) (s : State) : Out :=
  s.upd (fun m => if 2 ≤ e then m else m.window mst (leStop e) 1 0x208 (fun m => m.mwRead mir))

/-- EPN_MW_WRITE (R435). -/
def execEpnMwWrite (mst : Master) (e : Nat) (mir : Bool) (s : State) : Out :=
  s.upd (fun m => if 2 ≤ e then m else m.window mst (leStop e) 1 0x208 (fun m => m.mwWrite mir))

/-- EPN_ROLE_WRITE (R425). -/
def execEpnRoleWrite (mst : Master) (e n : Nat) (v : W64) (s : State) : Out :=
  s.upd (fun m => if 2 ≤ e ∨ 32 ≤ n then m else m.window mst (leStop e) 1 (0x100 + 8 * n) (fun m => m.roleWrite e n v))

end Sys2Proof.Machine
end

