-- ==== Sys2Proof/Machine/Resets.lean ====
section
/-!
DEFINITION. Block resets of port complexes and ledger engines (R380, R414).
-/

namespace Sys2Proof.Machine

/-! ### Port complexes -/

/-- Frames that a complex still holds go to their engines (R380 step 2); one that cannot go is refused. `n` bounds them. -/
def Mach.handOver (m : Mach) (px : Nat) : Nat → Mach
  | 0 => m
  | n + 1 =>
    match m.firstHeld px with
    | none => m
    | some h =>
      if m.raiseHolds h.queue then ({ m with handovers := dropFirst px m.handovers }.refuseFrame h 1).handOver px n
      else (m.recordAdmit px).handOver px n

/-- What port `q` still sends, or discards where its link is down (R380 step 3). -/
def Mach.emptyPort (m : Mach) (q : Nat) : Mach :=
  let x := m.port q
  let m1 := match x.cut with
    | some c => m.outDone c.2.1
    | none => m
  x.eqs.foldl (fun acc p => p.2.foldl (fun acc f => acc.outDone f) acc) m1

/-- What a port keeps over a reset of its complex: its gate lists (R380). -/
def PortRt.kept (x : PortRt) : PortRt :=
  { PortRt.idle with
    oper := x.oper, operBase := x.operBase, operCycle := x.operCycle, changeAt := x.changeAt
    pendingChange := x.pendingChange, everOper := x.everOper, adm := x.adm, admCycle := x.admCycle }

/-- Counters and latches of a stream table entry clear (R380, R382): FILTER, GATE, METER and RCV. -/
def sfRestart (t : Nat) (ws : List W64) : List W64 :=
  let w := fun (i : Nat) => (ws[i]?).getD 0
  let l := if t = 1 then [setBit (w 0) 61 false, w 1, 0, 0]
    else if t = 2 then [setBit (w 0) 61 false, w 1, w 2, w 3]
    else if t = 4 then [w 0, setBit (w 1) 51 false, w 2, w 3]
    else if t = 5 then [w 0, 0, 0, 0]
    else ws
  if l.all (fun x => decide (x = 0)) then [] else l

/-- Counters of an egress table entry clear (R380, R383): EQ. -/
def egRestart (t : Nat) (ws : List W64) : List W64 :=
  let l := if t = 3 then [(ws[0]?).getD 0] else ws
  if l.all (fun x => decide (x = 0)) then [] else l

/-- Counters and halts of port `q` clear, and lock acquisition begins where it is enabled (R380). -/
def Mach.restartPort (m : Mach) (q : Nat) : Mach :=
  let st := portStop q
  let k := portWin q
  let m1 := (((m.relock q).setReg st k 0x70 0).setReg st k 0x78 0).setReg st k 0x80 0
  m1.setReg st k 0x48 (setFld (m1.portReg q 0x48) 16 48 0)

/-- The registers of Fumarole windows of a complex that are runtime state (R380, R507): the latches and peaks. -/
def Mach.clearFum (m : Mach) (px : Nat) : Mach :=
  (List.range 32).foldl (fun acc j =>
    ((acc.setReg (pxStop px) 0x23 (0x400 + 0x20 * j) 0).setReg (pxStop px) 0x23 (0x408 + 0x20 * j) 0).setReg (pxStop px) 0x23
      (0x410 + 0x20 * j) 0) m

/-- The block reset of a port complex (R380). -/
def Mach.pxReset (m : Mach) (px : Nat) : Mach :=
  let st := pxStop px
  let ports := (List.range 32).map (fun j => px * 32 + j)
  let m1 := m.handOver px m.handovers.length
  let m2 := ports.foldl (fun acc q => acc.emptyPort q) m1
  let m3 := { m2.openShadow st with
    fumSkip := insNat m2.fumSkip px
    ports := Tab.mapV .idle (fun q x => if q / 32 = px then x.kept else x) m2.ports
    meters := m2.meters.filter (fun p => decide (p.1 / 2048 ≠ px))
    hists := m2.hists.filter (fun p => decide (p.1 / 1024 ≠ px))
    pxTab := Tab.mapV [] (fun key ws => if key / 4096 / 8 = px then sfRestart (key / 4096 % 8) ws else ws) m2.pxTab
    egTab := Tab.mapV [] (fun key ws => if key / 1024 / 32 / 4 = px then egRestart (key / 1024 / 32 % 4) ws else ws) m2.egTab }
  let m4 := ports.foldl (fun acc q => acc.restartPort q) m3
  let m5 := (List.range 0x24).foldl (fun acc k => acc.resetWindow st k) m4
  (m5.clearFum px).clearBank st

/-! ### Ledger engines -/

/-- The block reset of a ledger engine with the Epnis link on its stop (R414, R449). -/
def Mach.leReset (m : Mach) (e : Nat) : Mach := (m.linkLost e).ledgerReset e

/-! ### Commands -/

/-- PX_RESET (R380): ignored unless the block is quiesced. -/
def execPxReset (mst : Master) (px : Nat) (s : State) : Out :=
  s.upd (fun m => if 4 ≤ px then m else m.window mst (pxStop px) 0 0x50 (fun m =>
    if (m.blk (pxStop px) 0).quiesce then m.pxReset px else m))

/-- LE_RESET (R414): ignored unless the block is quiesced. -/
def execLeReset (mst : Master) (e : Nat) (s : State) : Out :=
  s.upd (fun m => if 2 ≤ e then m else m.window mst (leStop e) 0 0x80 (fun m =>
    if (m.blk (leStop e) 0).quiesce then m.leReset e else m))

end Sys2Proof.Machine
end

