-- ==== Sys2Proof/Machine/Hio.lean ====
section
/-!
DEFINITION. Host I/O (R474 to R488): device requests and the DMA translation, halted requesters, root ports and their
configuration requests, and the block reset of a host I/O group.
-/

namespace Sys2Proof.Machine

/-! ### State -/

/-- What group `h` holds. -/
def Mach.hio (m : Mach) (h : Nat) : HioRt := Tab.get .idle m.hios h
/-- Write it. -/
def Mach.setHio (m : Mach) (h : Nat) (x : HioRt) : Mach := { m with hios := Tab.set .idle m.hios h x }
/-- A DMAT register of group `h`. -/
def Mach.dmat (m : Mach) (h off : Nat) : W64 := m.reg (hioStop h) 0x11 off
/-- A register of root port `r`. -/
def Mach.rpReg (m : Mach) (r off : Nat) : W64 := m.reg (rpStop r) (rpWin r) off

/-! ### Contexts -/

/-- The words of a requester's context (R481). -/
def Mach.dmaCtx (m : Mach) (h rid : Nat) : List Word := m.words (fld (m.dmat h 0x40) 22 30 * 0x400000 + rid * 64) 8

/-- Whether a context is usable (R481, R483 step 2): DMAT_CTX.EN, VALID, WORLD HOST or GUEST, no bit set that is not named, no poison. -/
def Mach.ctxOk (m : Mach) (h rid : Nat) : Bool :=
  let ws := m.dmaCtx h rid
  let w := fun (i : Nat) => ((ws[i]?).getD Word.zero).data
  bit (m.dmat h 0x40) 0 && bit (w 0) 63 && decide (fld (w 0) 0 2 < 2) && decide (w 0 &&& 0x7FFFFFFFFFFC00FC = 0)
    && decide (w 1 &&& 0xFF00000000000000 = 0) && decide (w 2 &&& 0xFFFFFF0000000000 = 0)
    && decide (w 3 &&& 0xFFFF00000000FFFF = 0) && decide (w 4 &&& 0xFFFF00000000FFFF = 0)
    && decide (w 5 &&& 0xFFF00000000001FF = 0) && decide (w 6 = 0) && decide (w 7 = 0) && ! ws.any (fun x => x.poison)
    && m.isMem (fld (m.dmat h 0x40) 22 30 * 0x400000 + rid * 64)

/-- The regime of a context (R481). -/
def ctxRegime (ws : List Word) : Regime :=
  let w := fun (i : Nat) => ((ws[i]?).getD Word.zero).data
  ⟨if fld (w 0) 0 2 = 1 then .guest else .host, fld (w 0) 8 10, fld (w 1) 40 16, fld (w 1) 0 40 * 4096, fld (w 2) 0 40 * 4096⟩

/-- The grant list of a context, cached at its first use (R482). -/
def Mach.dmaList (m : Mach) (h rid : Nat) (ws : List Word) : List Word × Mach :=
  let x := m.hio h
  match x.lists.find? (fun p => decide (p.1 = rid)) with
  | some p => (p.2, m)
  | none =>
    let l := m.words (fld ((ws[5]?).getD Word.zero).data 9 43 * 512) 64
    (l, m.setHio h { x with lists := Tab.set [] x.lists rid l })

/-- The grant entry that a list word names, read in the context's regime (R483 step 3, R51). -/
def Mach.dmaEntry (m : Mach) (ws : List Word) (cap : Word) : Option Grant :=
  let tbl := fld ((ws[if cap.tsel then 4 else 3]?).getD Word.zero).data 16 32 * 0x10000
  match m.walk (ctxRegime ws) ⟨true, false, false⟩ true (tbl + cap.index * 32) with
  | .error _ => none
  | .ok t =>
    if t.ptype ≠ 1 ∨ ! m.isMem t.pa ∨ (m.carveOf t.pa).isSome then none
    else
      let g := m.readGrant t.pa
      if g.valid && decide (g.gen = cap.gen) then some g else none

/-- Whether a list word lets the request pass (R483 step 3). -/
def Mach.listWord (m : Mach) (ws : List Word) (q : DmaReq) (cap : Word) : Option Grant :=
  if ! cap.tag ∨ cap.poison then none
  else match m.dmaEntry ws cap with
  | some g =>
    if g.otype = 0 ∧ g.has .DMA ∧ g.has (if q.write then .W else .R) ∧ g.base ≤ q.addr ∧ q.addr + q.len ≤ g.limit then some g else none
  | none => none

/-- The page pieces of `n` bytes at `a`; `k` bounds them. -/
def pagePieces (a n : Nat) : Nat → List (Nat × Nat)
  | 0 => []
  | k + 1 =>
    let here := min n (4096 - a % 4096)
    if n = 0 then [] else (a, here) :: pagePieces (a + here) (n - here) k

/-- The pieces of a request at their physical addresses (R483 step 5), with dirty logging (R219). -/
def Mach.dmaWalk (m : Mach) (g : Regime) (nd : Need) : List (Nat × Nat) → Option (List (Nat × Nat) × Mach)
  | [] => some ([], m)
  | p :: t =>
    match m.walk g nd false p.1 with
    | .error _ => none
    | .ok x =>
      let m1 := match x.setD with
        | some d => (m.ownAtHome d).setByte d ((m.ownAtHome d).byte d ||| 0x80)
        | none => m
      match m1.dmaWalk g nd t with
      | none => none
      | some (ps, m2) => some ((x.pa, p.2) :: ps, m2)

/-- Whether a word of the pieces that translate lacks the grant's colour (R53, R483 step 4). -/
def Mach.dmaColour (m : Mach) (g : Regime) (colour : Nat) (ps : List (Nat × Nat)) : Bool :=
  decide (colour ≠ 0) && ! m.tagonly && ps.any (fun p =>
    match m.walk g ⟨false, false, false⟩ true p.1 with
    | .error _ => false
    | .ok x => (wordsTouched x.pa p.2).any (fun a => decide ((m.metaAt a).colour.toNat ≠ colour)))

/-! ### Requests -/

/-- The access type of a device request (R27). -/
def DmaReq.acc (q : DmaReq) : Acc := if q.write then .dmawr else .dmard

/-- HIO_DMA_REFUSED for a request that carries world `wd` (R483, R501, R508). -/
def Mach.dmaCount (m : Mach) (h : Nat) (q : DmaReq) (wd : World) : Mach :=
  m.countUncore (hioStop h) ⟨0x2A2, wd, none, some (hioStop h, q.port), none⟩ 1

/-- A refused device request (R483, R508): logged in the DMAT window. -/
def Mach.dmaRefuse (m : Mach) (h : Nat) (q : DmaReq) (wd : World) (rule : Rule) : Mach :=
  (m.logViol (hioStop h) 0x11 ⟨q.addr, true, hioStop h, q.port, q.acc, rule⟩).dmaCount h q wd

/-- The lowest halt record of 32 that is free (R487). -/
def HioRt.freeRec (x : HioRt) : Option Nat := (List.range 32).find? (fun i => ! x.recs.any (fun p => decide (p.1 = i)))

/-- DMA_CHANNEL_HALT (R316, R487). -/
def Mach.dmaHalt (m : Mach) (h : Nat) (q : DmaReq) (pa : Nat) (poison : Bool) : Mach :=
  let x := m.hio h
  if x.halted.contains q.rid then m
  else
    let m1 := match x.freeRec with
      | some i => m.setHio h { x with
          halted := insNat x.halted q.rid, recs := Tab.ins x.recs i ⟨q.rid, true, poison, pa / 64 * 64⟩ }
      | none => (m.setHio h { x with halted := insNat x.halted q.rid }).countReg (hioStop h) 0x11 0x70 16 16 1
    m1.raiseSrc (hioStop h) 2 (some (pa / 64 * 64)) (hioStop h) q.port none

/-- The bytes of a request that fall into line `line`, as a mask and the line's words. -/
def lineShare (a line : Nat) (data : List (BitVec 8)) : Nat × List W64 :=
  let at_ := fun (i : Nat) => line * 64 + i
  let mask := (List.range 64).foldl (fun k i => if a ≤ at_ i ∧ at_ i < a + data.length then k + 2 ^ i else k) 0
  let byte := fun (i : Nat) => if a ≤ at_ i then (data[at_ i - a]?).getD 0 else 0
  (mask, (List.range 8).map (fun w => BitVec.ofNat 64 ((List.range 8).foldl (fun n i => n + (byte (8 * w + i)).toNat * 256 ^ i) 0)))

/-- A device whose requests carry world `wd` writes bytes at a physical address (R483): TAG 0, POISON from EP. -/
def Mach.devWrite (m : Mach) (st unit : Nat) (wd : World) (a : Nat) (data : List (BitVec 8)) (ep : Bool) : Mach :=
  (List.range ((a + data.length - 1) / 64 - a / 64 + 1)).foldl (fun acc i =>
    let line := a / 64 + i
    let s := lineShare a line data
    if acc.homed (line * 64) then acc.homeBytes st unit none line s.1 s.2 (if ep then 255 else 0)
    else
      let m1 := if s.1 = 2 ^ 64 - 1 then acc.openLine (line * 64) else acc
      ((List.range 8).foldl (fun acc w =>
        let k := s.1 / 2 ^ (8 * w) % 256
        if k = 0 then acc else (acc.mergeWord (line * 64 + 8 * w) k ((s.2[w]?).getD 0) ep).stored (line * 64 + 8 * w)) m1).countMesh
          (line * 64) st unit wd) m

/-- A device reads a piece (R315): error or poison halts its channel. -/
def Mach.devRead (m : Mach) (h : Nat) (q : DmaReq) (wd : World) (p : Nat × Nat) : Mach :=
  let bad := (m.upsetsAt none false p.1 p.2).find? (fun u => m.poisons u)
  let m1 := (List.range ((p.1 + p.2 - 1) / 64 - p.1 / 64 + 1)).foldl
    (fun acc i => acc.countMesh ((p.1 / 64 + i) * 64) (hioStop h) q.port wd) (m.readUpsets none false p.1 p.2)
  match bad, (wordsTouched p.1 p.2).find? (fun a => (m1.metaAt a).poison) with
  | some u, _ => m1.dmaHalt h q u.pa false
  | none, some a => m1.dmaHalt h q a true
  | none, none => m1

/-- Whether a device may reach a physical address (R483 step 7). -/
def Mach.dmaTarget (m : Mach) (pa : Nat) : Bool :=
  match m.locate pa with
  | .dram | .pinned _ | .cm _ _ => true
  | _ => false

/-- Whether cluster memory at `pa` has no power (R28). -/
def Mach.dmaOff (m : Mach) (pa : Nat) : Option Nat :=
  match m.locate pa with
  | .cm k _ => if m.answers (ccStop k) 0 then none else some (ccStop k)
  | _ => none

/-- Steps 6 and 7 of R483, and the access; the request carries world `wd`. -/
def Mach.dmaGo (m : Mach) (h : Nat) (q : DmaReq) (wd : World) (ps : List (Nat × Nat)) : Mach :=
  let st := hioStop h
  match ps.find? (fun p => (m.carveOf p.1).isSome) with
  | some p =>
    let b := (m.carveOf p.1).getD 0
    ((m.logViol (m.carveSite p.1 b).1 (m.carveSite p.1 b).2.1 ⟨b, false, st, q.port, q.acc, .carve⟩).countReg 0 9 0x208 16 16 1).dmaCount h q wd
  | none =>
    if ps.any (fun p => ! m.dmaTarget p.1) then m.dmaRefuse h q wd .ctlForm
    else match ps.findSome? (fun p => m.dmaOff p.1) with
    | some cc => m.logViol cc 0xFE ⟨(ps.head?.map Prod.fst).getD 0, false, st, q.port, q.acc, .ctlUnpowered⟩
    | none =>
      let m1 := m.countUncore st ⟨if q.write then 0x2A1 else 0x2A0, wd, some 2, some (st, q.port), ps.head?.map Prod.fst⟩ 1
      if q.write then (ps.foldl (fun (acc : Mach × List (BitVec 8)) p =>
          (acc.1.devWrite st q.port wd p.1 (acc.2.take p.2) q.ep, acc.2.drop p.2)) (m1, q.data)).1
      else ps.foldl (fun acc p => acc.devRead h q wd p) m1

/-- Whether a request is an MSI (R485). -/
def Mach.isMsi (m : Mach) (h : Nat) (q : DmaReq) : Bool :=
  let v := m.rpReg (16 * h + q.port) 0x68
  q.write && decide (q.len = 4) && bit v 0 && decide (q.addr / 4 = fld v 2 46)

/-- An MSI (R485). -/
def Mach.msi (m : Mach) (h : Nat) (q : DmaReq) : Mach :=
  let v := m.rpReg (16 * h + q.port) 0x68
  let d := ((q.data[0]?).getD 0).toNat % 64
  if d < fld v 58 6 then m.raiseAssigned (fld v 48 10 + d) else m.countReg (hioStop h) (q.port + 1) 0x48 48 16 1

/-- Whether group `h` takes device requests (R22, R23, R340, R488). -/
def Mach.hioTakes (m : Mach) (h : Nat) : Bool :=
  let b := m.blk (hioStop h) 0
  decide (m.phase = .run) && ! m.warm && m.answers (hioStop h) 0 && b.enable && ! b.quiesce && ! b.disabling

/-- DMA_REQUEST (R483): the seven steps. -/
def Mach.dmaRequest (m : Mach) (h : Nat) (q : DmaReq) : Mach :=
  if ! m.hioTakes h ∨ 16 ≤ q.port ∨ q.len = 0 then m
  else if (m.hio h).halted.contains q.rid then
    m.dmaCount h q .host
  else if m.isMsi h q then m.msi h q
  else if ! m.ctxOk h q.rid then m.dmaRefuse h q .host .cap
  else
    let ws := m.dmaCtx h q.rid
    let rg := ctxRegime ws
    let (l, m1) := m.dmaList h q.rid ws
    match l.findSome? (fun c => m1.listWord ws q c) with
    | none => m1.dmaRefuse h q rg.world .cap
    | some g =>
      let ps := pagePieces q.addr q.len (q.len / 4096 + 2)
      if m1.dmaColour rg g.colour ps then m1.dmaRefuse h q rg.world .cap
      else match m1.dmaWalk rg ⟨! q.write, q.write, false⟩ ps with
      | none => m1.dmaRefuse h q rg.world .xlate
      | some (qs, m2) => m2.dmaGo h q rg.world qs

/-- DMAT_INV (R484): the cached lists of one requester or of all go. -/
def Mach.dmatInv (m : Mach) (h : Nat) (v : W64) : Mach :=
  let x := m.hio h
  m.setHio h { x with lists := if bit v 0 then x.lists.filter (fun p => decide (p.1 ≠ fld v 16 16)) else [] }

/-- DMAT_RESUME (R487). -/
def Mach.dmatResume (m : Mach) (h rid : Nat) : Mach :=
  let x := m.hio h
  if x.recs.any (fun p => decide (p.2.rid = rid) && p.2.cause) then m
  else m.setHio h { x with recs := x.recs.filter (fun p => decide (p.2.rid ≠ rid)), halted := x.halted.filter (fun r => decide (r ≠ rid)) }

/-- A write of DMAT_HINFO: CAUSE of the selected record is W1C (R487). -/
def Mach.hinfoWrite (m : Mach) (h : Nat) (v : W64) : Mach :=
  let x := m.hio h
  let i := fld (m.dmat h 0x50) 0 5
  if bit v 17 then m.setHio h { x with recs := x.recs.map (fun p => if p.1 = i then (p.1, { p.2 with cause := false }) else p) } else m

/-- DMAT_HINFO (R487). -/
def Mach.hinfo (m : Mach) (h : Nat) : W64 :=
  match (m.hio h).recs.find? (fun p => decide (p.1 = fld (m.dmat h 0x50) 0 5)) with
  | some (_, r) => setBit (setBit (setBit (setFld 0 0 16 r.rid) 16 true) 17 r.cause) 18 r.poison
  | none => 0

/-- DMAT_HADDR (R487). -/
def Mach.haddr (m : Mach) (h : Nat) : W64 :=
  match (m.hio h).recs.find? (fun p => decide (p.1 = fld (m.dmat h 0x50) 0 5)) with
  | some (_, r) => setFld 0 0 52 r.addr
  | none => 0

/-! ### Root ports -/

/-- What a core's wait for a completion ends with (R476, R478): the load or the control access retires. -/
def Mach.rpFinish (m : Mach) (c : Nat) (v : W64) (poison : Bool) : Mach :=
  let x := m.core c
  match x.rpWait with
  | none => m
  | some w =>
    let m1 := m.setCore c { x with rpWait := none }
    let u := BitVec.ofNat 64 (v.toNat % 256 ^ w.size)
    let m2 := match w.dst with
      | some d => m1.setG c d ⟨if w.signed then sextN (8 * w.size) u else u, false, poison, 0⟩
      | none => m1
    m.finish c (if w.cfg then [] else [0x005]) (.ok m2)

/-- The root port whose completion core `c` waits for. -/
def Mach.rpOf (m : Mach) (c : Nat) : Option Nat :=
  match (m.core c).rpWait with
  | none => none
  | some w => match m.locate w.pa with
    | .rp r _ => some r
    | .window st k _ => match winBlk st k with
      | some (.rp, r) => some r
      | _ => none
    | _ => none

/-- A core's read is lost (R478): all ones, poisoned; a configuration read returns 0xFFFF_FFFF, not poisoned (R476). -/
def Mach.rpLost (m : Mach) (c : Nat) : Mach :=
  match (m.core c).rpWait, m.rpOf c with
  | some w, some r =>
    if w.cfg then m.rpFinish c 0xFFFFFFFF false
    else (m.countReg (rpStop r) (rpWin r) 0x48 32 16 1).rpFinish c (BitVec.allOnes 64) true
  | _, _ => m

/-- Answer a configuration request (R476): a core retires its access, another master finds the data in RP_CFG_DATA. -/
def Mach.cfgAnswer (m : Mach) (q : CfgReq) (data : Nat) : Mach :=
  let m1 := { m with cfgReqs := m.cfgReqs.filter (fun x => decide (x ≠ q)) }
  match coreOf q.stop q.unit with
  | some c =>
    if (m1.core c).rpWait.any (fun w => w.cfg) then m1.rpFinish c (BitVec.ofNat 64 data) false
    else if q.write then m1 else m1.setReg (rpStop q.rp) (rpWin q.rp) 0x60 (setFld 0 0 32 data)
  | none => if q.write then m1 else m1.setReg (rpStop q.rp) (rpWin q.rp) 0x60 (setFld 0 0 32 data)

/-- RP_CFG_ACCESS (R476): a configuration request goes out where RP_CFG_ADDR.BUS lies behind the port. True where it waits. -/
def Mach.cfgIssue (m : Mach) (mst : Master) (r : Nat) (write : Bool) (data : Nat) : Bool × Mach :=
  let ctl := m.rpReg r 0x40
  let a := m.rpReg r 0x58
  let bus := fld a 20 8
  let within := decide (bus = fld ctl 32 8) || (decide (fld ctl 32 8 < bus) && decide (bus ≤ fld ctl 40 8))
  if ! within ∨ ! bit (m.rpReg r 0x48) 0 then
    (false, if write then m else m.setReg (rpStop r) (rpWin r) 0x60 0xFFFFFFFF)
  else (true, { m with cfgReqs := m.cfgReqs ++
    [⟨r, mst.stop, mst.unit, write, decide (bus ≠ fld ctl 32 8), fld a 2 26, if write then data % 2 ^ 32 else 0, m.dt⟩] })

/-- ROOT_PORT_COMPLETION (R476, R478) at root port `r`. -/
def Mach.rpComplete (m : Mach) (r : Nat) (a : RpAnswer) : Mach :=
  match a with
  | .config status data =>
    match m.cfgReqs.find? (fun q => decide (q.rp = r)) with
    | none => m
    | some q =>
      if status = 1 ∧ m.dt < q.issued + 1000000000 then m
      else m.cfgAnswer q (if status = 0 then data % 2 ^ 32 else 0xFFFFFFFF)
  | .read c data poison => if m.rpOf c = some r ∧ ! (m.core c).rpWait.any (fun w => w.cfg) then m.rpFinish c data poison else m
  | .unsupported c => if m.rpOf c = some r ∧ ! (m.core c).rpWait.any (fun w => w.cfg) then m.rpLost c else m

/-- What waits for root port `r` is lost (R476, R478). -/
def Mach.rpDrop (m : Mach) (r : Nat) : Mach :=
  let m1 := (m.cfgReqs.filter (fun q => decide (q.rp = r))).foldl (fun acc q => acc.cfgAnswer q 0xFFFFFFFF) m
  m1.cores.foldl (fun acc p => if acc.rpOf p.1 = some r then acc.rpLost p.1 else acc) m1

/-- Lanes of root port `r` in the bifurcation layout (R474). -/
def Mach.rpLanes (m : Mach) (r : Nat) : Nat :=
  let w := m.regFld (hioStop (r / 16)) 0 0x40 (3 * (r % 16)) 3
  if w = 0 then 0 else 2 ^ w

/-- RP_LINK_CHANGE (R475, R478, R479): the link comes up with what it trained to, or goes down. -/
def Mach.rpLink (m : Mach) (r : Nat) (t : Option RpTrain) : Mach :=
  let st := rpStop r
  let k := rpWin r
  let v := m.rpReg r 0x48
  let src := fun (m : Mach) => m.raiseSrc st 1 none st (r % 16) none
  if 32 ≤ r ∨ ! m.answers st k then m
  else match t with
  | some x =>
    if bit v 0 then m
    else
      let cxl := x.cxl && bit (m.rpReg r 0x40) 2 && decide (8 ≤ m.rpLanes r)
      let w := setFld (setBit (setFld (setBit (setBit (setFld (setBit v 0 true) 1 2 x.rate) 3 x.low) 4 x.flit) 5 5 x.width) 10 cxl) 11 1 (fld v 11 1)
      src (m.setReg st k 0x48 w)
  | none =>
    if ! bit v 0 then m
    else
      let w := setBit (setFld v 0 11 0) 11 true
      src ((m.setReg st k 0x48 w).rpDrop r)
/-! ### Block reset -/

/-- Links of group `h` go down, and what waits for them is lost. -/
def Mach.hioLinksDown (m : Mach) (h : Nat) : Mach :=
  (List.range 16).foldl (fun acc k => acc.rpLink (16 * h + k) none) m

/-- The block reset of a host I/O group (R488). -/
def Mach.hioReset (m : Mach) (h : Nat) : Mach :=
  let st := hioStop h
  let m1 := (m.hioLinksDown h).openShadow st
  let m2 := m1.setHio h .idle
  ((List.range 0x13).foldl (fun acc k => acc.resetWindow st k) m2).clearBank st

/-! ### Commands -/

/-- DMA_REQUEST (R483). -/
def execDmaRequest (h : Nat) (q : DmaReq) (s : State) : Out := s.upd (fun m => if 2 ≤ h then m else m.dmaRequest h q)

/-- RP_CFG_ACCESS (R476). -/
def execRpCfgAccess (mst : Master) (r : Nat) (write : Bool) (data : Nat) (s : State) : Out :=
  s.upd (fun m =>
    if 32 ≤ r then m
    else if write then m.window mst (rpStop r) (rpWin r) 0x60 (fun m => (m.cfgIssue mst r true data).2)
    else m.windowRead mst (rpStop r) (rpWin r) 0x60 (fun m => (m.cfgIssue mst r false data).2))

/-- HOTRST (R474): the hot reset goes out on the link; what the device behind it does then reaches the model as other commands. -/
def execHotrst (mst : Master) (r : Nat) (s : State) : Out :=
  s.upd (fun m => if 32 ≤ r then m else m.window mst (rpStop r) (rpWin r) 0x40 (fun m => m))

/-- RP_LINK_CHANGE (R478). -/
def execRpLinkChange (r : Nat) (t : Option RpTrain) (s : State) : Out := s.upd (fun m => m.rpLink r t)

/-- COMPLETION_TIMEOUT (R478): the read that core `c` waits for has no completion within RP_CTRL.CTO. -/
def execCompletionTimeout (c : Nat) (s : State) : Out := s.upd (fun m => m.rpLost c)

/-- DMAT_INV (R484). -/
def execDmatInv (mst : Master) (h : Nat) (v : W64) (s : State) : Out :=
  s.upd (fun m => if 2 ≤ h then m else m.window mst (hioStop h) 0x11 0x48 (fun m => m.dmatInv h v))

/-- DMAT_RESUME (R487). -/
def execDmatResume (mst : Master) (h rid : Nat) (s : State) : Out :=
  s.upd (fun m => if 2 ≤ h then m else m.window mst (hioStop h) 0x11 0x68 (fun m => m.dmatResume h rid))

/-- HIO_RESET (R488): ignored unless the block is quiesced. -/
def execHioReset (mst : Master) (h : Nat) (s : State) : Out :=
  s.upd (fun m => if 2 ≤ h then m else m.window mst (hioStop h) 0 0x48 (fun m =>
    if (m.blk (hioStop h) 0).quiesce then m.hioReset h else m))

/-- ROOT_PORT_COMPLETION (R476, R478). -/
def execRootPortCompletion (r : Nat) (a : RpAnswer) (s : State) : Out := s.upd (fun m => if 32 ≤ r then m else m.rpComplete r a)

end Sys2Proof.Machine
end

