-- ==== Sys2Proof/Machine/Power.lean ====
section
/-!
DEFINITION. Power requests and domains (R516 to R521), pod operating points and the power limit (R522 to R524), thermal limits (R525, R526),
and device time (R510 to R515).
-/

namespace Sys2Proof.Machine

/-! ### Domains losing power -/

/-- The stop of a switched domain (R516). -/
def domStop (d : Nat) : Nat :=
  if d < 36 then podStop d else if d < 40 then ccStop (d - 36) else if d < 44 then pxStop (d - 40)
  else if d < 46 then hioStop (d - 44) else if d < 48 then leStop (d - 46) else mntStop

/-- Whether the registers of a window are lost with domain `d`: those of a ledger engine are kept, but for its counter bank (R414, R497). -/
def lostWith (d st k : Nat) : Bool :=
  decide (st = domStop d) && decide (domainOf st k = some d) && (! (decide (46 ≤ d) && decide (d < 48)) || decide (k = pmuWin st))

/-- The registers of a domain without power hold nothing: they read their reset values after power-on, image fields 0 (R10, R380, R497). -/
def Mach.loseRegs (m : Mach) (d : Nat) : Mach :=
  { m with
    ctl := m.ctl.filter (fun p => ! lostWith d (p.1 / 512 / 256) (p.1 / 512 % 256))
    blks := m.blks.filter (fun p => ! lostWith d (p.1 / 256) (p.1 % 256)) }

/-- Cluster memory of C-cluster `k` loses its contents (R186). -/
def Mach.loseCm (m : Mach) (k : Nat) : Mach :=
  let lo := ctlBase + ccStop k * 0x1000000 + 0x100000
  let hi := lo + 0x100000
  { m with
    mem := m.mem.filter (fun p => decide (p.1 < lo) || decide (hi ≤ p.1))
    mmeta := m.mmeta.filter (fun p => decide (p.1 * 8 < lo) || decide (hi ≤ p.1 * 8))
    upsets := m.upsets.filter (fun u => decide (u.pa < lo) || decide (hi ≤ u.pa)) }

/-- A record of a J queue whose engine lost its SRAM without a flush (R413, R414): an admission is void, and the outputs of a released record
count as sent. -/
def LRec.unflushed (r : LRec) : Option LRec :=
  match r.st with
  | .admitted => some { r with st := .accepted, flags := r.flags ||| 8, data := [], outs := [], partner := .none, pbuf := none }
  | .released => none
  | .accepted => some r
  | _ => some r.again

/-- Engine `e` loses its SRAM without a flush (R413, R414). -/
def Mach.ledgerLost (m : Mach) (e : Nat) : Mach :=
  let m1 := { m.revokeAll e with queues := Tab.mapV Queue.reset (fun q x =>
    if q / 2048 = e then { x with recs := if x.j then x.recs.filterMap LRec.unflushed else [] } else x) m.queues }
  (m1.setEngine e { m1.engine e with pbufs := m1.usedBufs e }).freeEntries e

/-- A port complex loses everything (R380). -/
def Mach.losePx (m : Mach) (px : Nat) : Mach :=
  let ports := (List.range 32).map (fun j => px * 32 + j)
  let m1 := ports.foldl (fun (acc : Mach) q => acc.emptyPort q) { m with handovers := m.handovers.filter (fun h => decide (h.2.port / 32 ≠ px)) }
  { m1 with
    ports := m1.ports.filter (fun p => decide (p.1 / 32 ≠ px))
    meters := m1.meters.filter (fun p => decide (p.1 / 2048 ≠ px))
    hists := m1.hists.filter (fun p => decide (p.1 / 1024 ≠ px))
    pxTab := m1.pxTab.filter (fun p => decide (p.1 / 4096 / 8 ≠ px))
    egTab := m1.egTab.filter (fun p => decide (p.1 / 1024 / 32 / 4 ≠ px))
    fumSkip := m1.fumSkip.filter (fun p => decide (p ≠ px)) }

/-- The dirty lines of a pod's L2s, each with what its home knows of it, else 0 (R152). -/
def Mach.podDirty (m : Mach) (p : Nat) (known : List (Nat × List W64)) : List (Nat × List W64) :=
  ((List.range 4).map (fun j => 4 * p + j)).flatMap (fun c =>
    ((m.core c).lines.filter (fun l => decide (l.2 = .M))).map (fun l => (l.1, (known.lookup l.1).getD [])))

/-- The lines that a cluster's merging buffers hold. -/
def Mach.ccBuffered (m : Mach) (k : Nat) (known : List (Nat × List W64)) : List (Nat × List W64) :=
  ((List.range 8).map (fun j => 144 + 8 * k + j)).flatMap (fun c =>
    (m.core c).mb.map (fun e => (e.line, (known.lookup e.line).getD [])))

/-- What is left of the contents of domain `d` once it has no power: `sudden` says that no reset sequence came before, `known` what homes know
of dirty lines (R152, R186, R282, R380, R414, R488). -/
def Mach.loseDomain (m : Mach) (d : Nat) (sudden : Bool) (known : List (Nat × List W64)) : Mach :=
  let m1 :=
    if d < 36 then (if sudden then m.podReset d (m.podDirty d known) else m.podReset d known)
    else if d < 40 then
      let k := d - 36
      ((if sudden then m.ccReset k (m.ccBuffered k known) else m.ccReset k known).ringLoss k).loseCm k
    else if d < 44 then ((if sudden then m.openShadow (domStop d) else m.pxReset (d - 40))).losePx (d - 40)
    else if d < 46 then (m.hioReset (d - 44)).setHio (d - 44) .idle
    else if d < 48 then
      (if sudden then ((m.openShadow (domStop d)).linkLost (d - 46)).ledgerLost (d - 46) else m.leReset (d - 46))
    else { (m.mntReset) with slots := [], slotNext := 0 }
  m1.loseRegs d

/-- PM_DOMn.STATE takes a value. -/
def Mach.setDom (m : Mach) (d s : Nat) : Mach := m.setRegFld 0 1 (0x100 + 8 * d) 0 3 s

/-- The cores of a domain: OFF, or STOPPED once the domain has power (R143, R144, R519). -/
def Mach.domCores (m : Mach) (d : Nat) : Mach :=
  (if d < 36 then (List.range 4).map (fun j => 4 * d + j)
    else if d < 40 then (List.range 8).map (fun j => 144 + 8 * (d - 36) + j) else []).foldl (fun acc c => acc.resetCore c) m

/-- Domain `d` is without power, in STATE `s`. -/
def Mach.domOff (m : Mach) (d s : Nat) (sudden : Bool) (known : List (Nat × List W64)) : Mach :=
  ((m.loseDomain d sudden known).setDom d s).domCores d

/-- Domain `d` has power and is released from reset (R519). -/
def Mach.domOn (m : Mach) (d : Nat) : Mach := ((m.openShadow (domStop d)).setDom d 1).domCores d

/-! ### Requests -/

/-- PM_DOMn of domain `d`. -/
def Mach.domReg (m : Mach) (d : Nat) : W64 := m.reg 0 1 (0x100 + 8 * d)

/-- Whether the secure world holds domain `d` (R229). -/
def Mach.secHeld (m : Mach) (d : Nat) : Bool := bit (m.reg 0 0 0x718) d

/-- A request that R518 answers BADREQ. -/
def Mach.badPm (m : Mach) (op dom mhz : Nat) : Bool :=
  ! (decide (1 ≤ op) && decide (op ≤ 3)) || decide (48 < dom) || decide (m.domState dom = 4)
    || (decide (op = 3) && (decide (36 ≤ dom) || decide (mhz < 1000) || decide (3400 < mhz) || decide (mhz % 100 ≠ 0)))

/-- PM_RESP takes the next ticket with a status (R518). -/
def Mach.pmAnswer (m : Mach) (status : Nat) : Mach :=
  m.setReg 0 1 0x58 (setFld (setFld 0 0 16 (m.regFld 0 1 0x58 0 16 + 1)) 16 3 status)

/-- One power request (R229, R518). -/
def Mach.pmRequest (m : Mach) (mst : Master) (op dom mhz : Nat) : Mach :=
  let q : PmReq := ⟨(m.regFld 0 1 0x58 0 16 + 1) % 65536, op, dom, mhz⟩
  if m.badPm op dom mhz then m.pmAnswer 3
  else if op ≠ 1 ∧ m.secHeld dom ∧ mst.world ≠ .secure ∧ ! mst.sytum then
    let m1 := { m.pmAnswer 1 with power := { m.power with deferred := m.power.deferred ++ [q] } }
    let m2 := m1.setRegBit 0 1 (0x100 + 8 * dom) 3 true
    if m.power.deferred.any (fun r => decide (r.dom = dom)) then m2
    else { m2.raiseEvent 790 with holdAt := Tab.ins m2.holdAt dom m.dt }
  else if 16 ≤ m.power.queue.length then m.pmAnswer 2
  else { m.pmAnswer 0 with power := { m.power with queue := m.power.queue ++ [q] } }

/-- Whether request `a` was received before `b`: tickets rise and wrap (R518). -/
def PmReq.before (a b : PmReq) : Bool := decide ((b.ticket + 65536 - a.ticket) % 65536 < 32768)

/-- A released request goes ahead of later ones (R519). -/
def queueIn (q : PmReq) : List PmReq → List PmReq
  | [] => [q]
  | x :: t => if q.before x then q :: x :: t else x :: queueIn q t

/-- Deferred requests for the domains that `go` names are carried out next (R229, R519). -/
def Mach.releaseDeferred (m : Mach) (go : Nat → Bool) : Mach :=
  let rs := m.power.deferred.filter (fun q => go q.dom)
  let pw : PowRt := { m.power with
    queue := rs.foldl (fun l q => queueIn q l) m.power.queue
    deferred := m.power.deferred.filter (fun q => ! go q.dom) }
  let m1 := { m with power := pw, holdAt := m.holdAt.filter (fun p => ! go p.1) }
  rs.foldl (fun acc q => acc.setRegBit 0 1 (0x100 + 8 * q.dom) 3 false) m1

/-- The request of domain `d` that the controller carries out: its first, while at most three other domains have earlier ones (R519). -/
def Mach.pmNext (m : Mach) (d : Nat) : Option PmReq :=
  let ahead := m.power.queue.takeWhile (fun q => decide (q.dom ≠ d))
  if (ahead.map PmReq.dom).dedup.length < 4 then m.power.queue.find? (fun q => decide (q.dom = d)) else none

/-- A request leaves the queue with its result (R518, R519). -/
def Mach.pmDone (m : Mach) (q : PmReq) (result : Nat) : Mach :=
  let v := setFld (setFld (m.domReg q.dom) 4 3 result) 16 16 q.ticket
  let m1 := { m with power := { m.power with queue := m.power.queue.filter (fun r => decide (r ≠ q)) } }.setReg 0 1 (0x100 + 8 * q.dom) v
  if bit (m.reg 0 1 0x60) 10 then m1.raiseAssigned (m.regFld 0 1 0x60 0 10) else m1

/-- POWER_REQUEST_EXECUTE for domain `d` (R519, R520): `known` are the lines that an OFF loses, as in R152. -/
def Mach.pmExecute (m : Mach) (d : Nat) (known : List (Nat × List W64)) : Mach :=
  if m.phase ≠ .run then m
  else match m.pmNext d with
  | none => m
  | some q =>
    let s := m.domState d
    if q.op = 3 then (m.setRegFld 0 1 (0x100 + 8 * d) 32 12 q.mhz).pmDone q 5
    else if q.op = 1 then (if s = 1 then m else m.domOn d).pmDone q 5
    else if s = 1 then
      if ! (m.blk (domStop d) 0).quiesce then m.pmDone q 4 else (m.domOff d 0 false known).pmDone q 5
    else m.pmDone q 5

/-- SUPPLY_FAILURE of domain `d` (R521): a domain that is ON loses power; the ramp of an ON that is next fails. -/
def Mach.supplyFails (m : Mach) (d : Nat) (known : List (Nat × List W64)) : Mach :=
  let s := m.domState d
  if 48 < d ∨ s = 4 ∨ m.phase = .reset then m
  else if s = 1 then (m.domOff d 3 true known).raiseOwn 0 6 none
  else match m.pmNext d with
    | some q => if q.op = 1 ∧ m.phase = .run then ((m.setDom d 3).pmDone q 6).raiseOwn 0 6 none else m
    | none => m

/-! ### Operating points and the power limit -/

/-- The granted frequency of pod `p` (R522). -/
def Mach.granted (m : Mach) (p : Nat) : Nat :=
  max 1000 (min (min (fld (m.domReg p) 32 12) (m.regFld 0 1 0x48 16 12)) (min (m.regFld 0 8 0x48 32 12) 3400))

/-- The VF words of the fuse array (R530). -/
def Mach.vfWords (m : Mach) : List Nat := (List.range 32).map (fun i => Tab.get 0 m.fuses (18 + i))

/-- FREQ_CHANGE_COMPLETE: POD_STATUS shows the operating point (R522). -/
def Mach.freqChange (m : Mach) (p : Nat) : Mach :=
  if 36 ≤ p ∨ m.domState p ≠ 1 then m
  else
    let f := m.granted p
    m.setReg (podStop p) 0 0x48 (setFld (setFld (m.reg (podStop p) 0 0x48) 16 16 f) 32 16 (Config.podSupply m.vfWords f))

/-- Whether every pod that is ON runs at 1.0 GHz (R523). -/
def Mach.allFloor (m : Mach) : Bool :=
  (List.range 36).all (fun p => decide (m.domState p ≠ 1) || decide (m.granted p = 1000))

/-- The limit that governs the averages, in W (R524): a new one does so from 1 ms after it is written. -/
def Mach.powerLimit (m : Mach) : Nat :=
  match m.power.limits with
  | p :: _ => p.1
  | [] => m.regFld 0 1 0x40 0 10

/-- The limits that still govern after one more step of 100 µs (R524). -/
def PowRt.limitsLeft (x : PowRt) : List (Nat × Nat) := (x.limits.map (fun p => (p.1, p.2 - 1))).filter (fun p => decide (0 < p.2))

/-- POWER_CAP_TICK (R523): `mw` is the 1 ms average in mW. -/
def Mach.capTick (m : Mach) (mw : Nat) : Mach :=
  if m.phase ≠ .run then m
  else
    let lim := m.powerLimit * 1000
    let cap := m.regFld 0 1 0x48 16 12
    let below := if mw * 100 < lim * 95 then m.power.below + 1 else 0
    let cap' := if lim * 98 < mw * 100 then max 1000 (cap - 100) else if 10 ≤ below then min 3400 (cap + 100) else cap
    let v := setFld (setBit (setFld (m.reg 0 1 0x48) 0 10 (min (mw / 1000) 1023)) 10 (decide (cap' < 3400))) 16 12 cap'
    let m1 := { m with power := { m.power with below := below, limits := m.power.limitsLeft } }.setReg 0 1 0x48 v
    m1.setRegBit 0 1 0x48 11 (m1.allFloor && decide (lim < mw))

/-- Whether the grade is V9144-XA (R530). -/
def Mach.isXa (m : Mach) : Bool := decide (Tab.get 0 m.fuses 1 / 65536 % 4 = 1)

/-- Whether a power limit lies in the grade's range (R524). -/
def Mach.limitOk (m : Mach) (w : Nat) : Bool := decide (380 ≤ w) && decide (w ≤ if m.isXa then 420 else 560)

/-- A write of PM_PLIMIT (R524). -/
def Mach.plimit (m : Mach) (w : Nat) : Mach :=
  if m.limitOk w then
    { m.setRegFld 0 1 0x40 0 10 w with power := { m.power with limits := m.power.limits ++ [(m.regFld 0 1 0x40 0 10, 10)] } }
  else m.setRegBit 0 1 0x48 12 true

/-! ### Temperature -/

/-- A reading of a sensor in 1/8 °C, from the 12 bits of THERM_TEMP (R525). -/
def signed12 (n : Nat) : Int := (BitVec.ofNat 12 n).toInt

/-- The last reading of a stop. -/
def Mach.tempOf (m : Mach) (st : Nat) : Nat := Tab.get 0 m.power.temps st

/-- The hottest stop and its reading, the lowest stop first. -/
def Mach.hottest (m : Mach) : Nat × Nat :=
  (List.range 56).foldl (fun b st => if signed12 b.2 < signed12 (m.tempOf st) then (st, m.tempOf st) else b) (0, m.tempOf 0)

/-- Whether a sensor reads above THROT: the THERM source's condition (R525). -/
def Mach.tooHot (m : Mach) : Bool := decide ((m.regFld 0 8 0x40 8 8 * 8 : Nat) < signed12 m.hottest.2)

/-- THERMAL_SAMPLE (R525): `ts` are the readings of the stops in 1/8 °C. -/
def Mach.thermSample (m : Mach) (ts : List (Nat × Int)) : Mach :=
  let m1 := { m with power := { m.power with
    temps := (ts.filter (fun (p : Nat × Int) => decide (p.1 < 56))).foldl (fun (t : List (Nat × Nat)) (p : Nat × Int) => Tab.set 0 t p.1 (BitVec.ofInt 12 p.2).toNat) m.power.temps } }
  let h := m1.hottest
  let warn := decide ((m.regFld 0 8 0x40 0 8 * 8 : Nat) < signed12 h.2)
  let throt := m.regFld 0 8 0x40 8 8
  let cold := decide (signed12 h.2 < ((throt * 8 : Nat) : Int) - 24)
  let thm := m.regFld 0 8 0x48 32 12
  let rise := cold && decide (9 ≤ m.power.cool)
  let thm' := if m1.tooHot then max 1000 (thm - 100) else if rise then min 3400 (thm + 100) else thm
  let cool := if cold && ! rise then m.power.cool + 1 else 0
  let v := setFld (setBit (setFld (setFld (m.reg 0 8 0x48) 0 12 h.2) 12 6 h.1) 18 (decide (thm' < 3400))) 32 12 thm'
  let m2 := { m1 with power := { m1.power with warned := warn, cool := cool } }.setReg 0 8 0x48 v
  let m3 := if warn && ! m.power.warned then m2.raiseEvent 791 else m2
  if m1.tooHot && ! m.tooHot then m3.raiseOwn 0 3 none else m3

/-- THERMAL_TRIP (R526): THERMTRIP_N falls, which TRIPPED shows, and TRIP is raised. -/
def Mach.trip (m : Mach) : Mach := (m.setRegBit 0 8 0x48 19 true).raiseOwn 0 4 none

/-- INTEGRATED_REGULATORS_OFF (R526): nothing of the device runs until the next power-on. -/
def Mach.regulatorsOff (m : Mach) : Mach :=
  if bit (m.reg 0 8 0x48) 19 then { m with regsOff := true, phase := .reset, cores := Tab.mapV Core.reset (fun _ _ => Core.reset) m.cores } else m

/-! ### Device time -/

/-- The source of device time (R512). -/
def Mach.dtSrc (m : Mach) : Nat := m.regFld 0 4 0x40 0 2

/-- An instant that a controller's own clock measures from, in the new device time (R515: such intervals are unaffected). -/
def reAt (old new t : Nat) : Nat := t + new - old

/-- Intervals that device time does not drive go on across a change from `old` to `new` (R515). -/
def Mach.keepIntervals (m : Mach) (old new : Nat) : Mach :=
  { m with
    ports := Tab.mapV .idle (fun _ x => { x with credits := x.credits.map (fun c => (c.1, c.2.1, reAt old new c.2.2)) }) m.ports
    tokens := Tab.mapV (0, 0) (fun _ q => (q.1, reAt old new q.2)) m.tokens
    meters := m.meters.map (fun p => (p.1, { p.2 with t := reAt old new p.2.t }))
    cfgReqs := m.cfgReqs.map (fun q => { q with issued := reAt old new q.issued })
    pair := { m.pair with leftAt := m.pair.leftAt.map (reAt old new), fenceAt := m.pair.fenceAt.map (reAt old new) }
    ppsLast := m.ppsLast.map (reAt old new)
    ppsOut := m.ppsOut.map (reAt old new)
    kickAt := reAt old new m.kickAt
    holdAt := m.holdAt.map (fun p => (p.1, reAt old new p.2)) }

/-- A step or a set takes effect: device time changes, the Fumarole windows in progress are discarded, and rounds begin (R511, R515). -/
def Mach.dtChange (m : Mach) (t : Nat) : Mach :=
  let new := t % 2 ^ 64
  ({ m.keepIntervals m.dt new with dt := new, fumSkip := [0, 1, 2, 3] }).roundsStart

/-- A write serves GPTP (R512): holdover ends. -/
def Mach.gptpServed (m : Mach) : Mach := if m.dtSrc = 1 then m.setRegBit 0 4 0x48 1 false else m

/-- A write of DT_STEP. -/
def Mach.dtStep (m : Mach) (v : W64) : Mach := (m.dtChange (m.dt + fld v 0 32)).gptpServed

/-- A write of DT_SET. -/
def Mach.dtSet (m : Mach) (v : W64) : Mach := (m.dtChange v.toNat).gptpServed

/-- DT_RATE.RATE as a signed number. -/
def Mach.dtRate (m : Mach) : Int := (BitVec.ofNat 32 (m.regFld 0 4 0x58 0 32)).toInt

/-- A write of DT_RATE (R511, R512). -/
def Mach.dtRateWrite (m : Mach) (v : W64) : Mach :=
  let r := (BitVec.ofNat 32 (fld v 0 32)).toInt
  if m.dtSrc = 2 ∨ r < -2147484 ∨ 2147484 < r then m.setRegBit 0 4 0x48 3 true
  else (m.setReg 0 4 0x58 (setFld 0 0 32 (fld v 0 32))).gptpServed

/-- The signed distance of a time from the nearest whole second (R513). -/
def secErr (t : Nat) : Int := if t % 1000000000 < 500000000 then (t % 1000000000 : Nat) else ((t % 1000000000 : Nat) : Int) - 1000000000

/-- The rate after an edge with error `e`: each edge corrects the error over one second, by at most 10 ppm (log entry 23). -/
def servoRate (r e : Int) : Int :=
  let want := -(e * 4294967296) / 1000000000
  let d := max (-42949) (min 42949 want)
  max (-2147484) (min 2147484 (r + d))

/-- PPS_IN_EDGE at device time `t` (R513). -/
def Mach.ppsEdge (m : Mach) (t : Nat) : Mach :=
  let m0 := { m with dt := max m.dt t }
  if m.dtSrc ≠ 2 then m0
  else
    let cap := (t * 16 - fld (m.reg 0 4 0x78) 0 16) / 16
    let good := match m.ppsLast with
      | none => true
      | some l => decide (l + 999000000 ≤ t) && decide (t ≤ l + 1001000000)
    if ! good then m0.countReg 0 4 0x48 16 16 1
    else
      let e := secErr cap
      let n := if e.natAbs ≤ 50 then m.ppsGood + 1 else 0
      let st := setFld (setBit (setBit (m.reg 0 4 0x48) 1 false) 0 (decide (4 ≤ n))) 32 32 (BitVec.ofInt 32 e).toNat
      let m1 := ({ m0 with ppsLast := some t, ppsGood := n }.setReg 0 4 0x70 (BitVec.ofNat 64 cap)).setReg 0 4 0x48 st
      if 1000000 < e.natAbs then m1.dtChange ((m1.dt : Int) - e).toNat
      else m1.setReg 0 4 0x58 (setFld 0 0 32 (BitVec.ofInt 32 (servoRate m.dtRate e)).toNat)

/-- DT_HOLDOVER (R512, R513): the source has gone unserved for its time. -/
def Mach.holdover (m : Mach) : Mach :=
  if m.dtSrc = 0 ∨ bit (m.reg 0 4 0x48) 1 then m
  else (({ m with ppsGood := 0 }.setRegBit 0 4 0x48 1 true).setRegBit 0 4 0x48 0 false).raiseOwn 0 7 none

/-- DT_PPS (R514): device time counts to the next whole second. -/
def Mach.wholeSecond (m : Mach) : Mach :=
  let t := (m.dt / 1000000000 + 1) * 1000000000
  let m1 := { m with dt := t }.raiseEvent 789
  if bit (m.reg 0 4 0x40) 2 then { m1 with ppsOut := some t } else m1

/-- PPS_OUT_PULSE_END (R514). -/
def Mach.pulseEnd (m : Mach) : Mach :=
  match m.ppsOut with
  | none => m
  | some t => { m with dt := max m.dt (t + m.regFld 0 4 0x40 8 10 * 1000000), ppsOut := none }

/-- A write of DT_CFG (R512, R514): a write of SRC clears HOLDOVER and LOCKED and begins the servo anew. -/
def Mach.dtCfgWrite (m : Mach) (v : W64) : Mach :=
  let old := m.reg 0 4 0x40
  let src := fld v 0 2
  let w := if src = 3 then old else setFld old 0 2 src
  let w1 := setBit w 2 (bit v 2)
  let w2 := if 1 ≤ fld v 8 10 ∧ fld v 8 10 ≤ 999 then setFld w1 8 10 (fld v 8 10) else w1
  let w3 := if fld v 32 16 = 0 then w2 else setFld w2 32 16 (fld v 32 16)
  let m1 := m.setReg 0 4 0x40 w3
  if src = 3 then m1 else { (m1.setRegBit 0 4 0x48 1 false).setRegBit 0 4 0x48 0 false with ppsLast := none, ppsGood := 0 }

/-! ### Commands -/

/-- PM_ON (R518). -/
def execPmOn (mst : Master) (dom : Nat) (s : State) : Out := s.upd (fun m => m.window mst 0 1 0x50 (fun m => m.pmRequest mst 1 dom 0))

/-- PM_OFF (R518). -/
def execPmOff (mst : Master) (dom : Nat) (s : State) : Out := s.upd (fun m => m.window mst 0 1 0x50 (fun m => m.pmRequest mst 2 dom 0))

/-- PM_FREQ (R518). -/
def execPmFreq (mst : Master) (dom mhz : Nat) (s : State) : Out :=
  s.upd (fun m => m.window mst 0 1 0x50 (fun m => m.pmRequest mst 3 dom mhz))

/-- POWER_REQUEST_EXECUTE (R519). -/
def execPowerRequestExecute (d : Nat) (known : List (Nat × List W64)) (s : State) : Out := s.upd (fun m => m.pmExecute d known)

/-- SUPPLY_FAILURE (R521). -/
def execSupplyFailure (d : Nat) (known : List (Nat × List W64)) (s : State) : Out := s.upd (fun m => m.supplyFails d known)

/-- POWER_CAP_TICK (R523). -/
def execPowerCapTick (mw : Nat) (s : State) : Out := s.upd (fun m => m.capTick mw)

/-- PM_PLIMIT_WRITE (R524). -/
def execPmPlimitWrite (mst : Master) (w : Nat) (s : State) : Out := s.upd (fun m => m.window mst 0 1 0x40 (fun m => m.plimit (w % 1024)))

/-- FREQ_CHANGE_COMPLETE (R522). -/
def execFreqChangeComplete (p : Nat) (s : State) : Out := s.upd (fun m => m.freqChange p)

/-- THERMAL_SAMPLE (R525). -/
def execThermalSample (ts : List (Nat × Int)) (s : State) : Out := s.upd (fun m => m.thermSample ts)

/-- THERMAL_TRIP (R526). -/
def execThermalTrip (s : State) : Out := s.upd Mach.trip

/-- INTEGRATED_REGULATORS_OFF (R526). -/
def execIntegratedRegulatorsOff (s : State) : Out := s.upd Mach.regulatorsOff

/-- DT_STEP (R511). -/
def execDtStep (mst : Master) (v : W64) (s : State) : Out := s.upd (fun m => m.window mst 0 4 0x60 (fun m => m.dtStep v))

/-- DT_SET (R511). -/
def execDtSet (mst : Master) (v : W64) (s : State) : Out := s.upd (fun m => m.window mst 0 4 0x68 (fun m => m.dtSet v))

/-- DT_RATE_WRITE (R511). -/
def execDtRateWrite (mst : Master) (v : W64) (s : State) : Out := s.upd (fun m => m.window mst 0 4 0x58 (fun m => m.dtRateWrite v))

/-- PPS_IN_EDGE (R513). -/
def execPpsInEdge (t : Nat) (s : State) : Out := s.upd (fun m => m.ppsEdge t)

/-- DT_PPS (R514). -/
def execDtPps (s : State) : Out := s.upd Mach.wholeSecond

/-- DT_HOLDOVER (R512). -/
def execDtHoldover (s : State) : Out := s.upd Mach.holdover

/-- PPS_OUT_PULSE_END (R514). -/
def execPpsOutPulseEnd (s : State) : Out := s.upd Mach.pulseEnd

end Sys2Proof.Machine
end

