-- ==== Sys2Proof/Machine/Collector.lean ====
section
/-!
DEFINITION. The fault collector (R328 to R347): occurrences, the first-error record, reactions, shadows, the collector's own faults, and injection.
-/

namespace Sys2Proof.Machine

/-! ### Conditions that persist -/

/-- The first port of complex `px` that is enabled and whose link is down (R377). -/
def Mach.downPort (m : Mach) (px : Nat) : Option Nat :=
  (List.range 32).find? (fun j => (m.blk (pxStop px) (j + 1)).enable && ! bit (m.reg (pxStop px) (j + 1) 0x48) 0)

/-- The occurrence of a source whose condition persists (R336, R377, R423, R512, R525), none where it does not. -/
def Mach.level (m : Mach) (src : Nat) : Option Report :=
  let st := srcStop src
  let off := src - (faultRange st).1
  let own := fun (b : Bool) (u : Nat) => if b then some (Report.mk src none st u none) else none
  match stopKind st with
  | .syt =>
    if off = 3 then own m.tooHot 0x3F
    else if off = 4 then own (decide (920 ≤ signed12 m.hottest.2)) 0x3F
    else if off = 7 then own (bit (m.reg 0 4 0x48) 1) 0x3F else none
  | .mc k => if off = 4 then own (decide (m.chanState (2 * k) = 4) || decide (m.chanState (2 * k + 1) = 4)) 0x3F else none
  | .px k => if off = 1 then (match m.downPort k with
      | some j => own true j
      | none => none) else none
  | .le e => if off = 4 then own (bit (m.reg st 1 0x40) 0 && ! m.epnUp e) 0x3F else none
  | .hio h => if off = 1 then (match (List.range 16).find? (fun j => m.answers st (j + 1)
        && bit (m.rpReg (16 * h + j) 0x48) 11 && ! bit (m.rpReg (16 * h + j) 0x48) 0) with
      | some j => own true j
      | none => none) else none
  | _ => none

/-! ### One collector cycle -/

/-- An occurrence: the report, whether it was injected (R347), and whether its master fields are valid. -/
structure Occ where
  r : Report
  inj : Bool
  mv : Bool
  deriving DecidableEq, Repr, Inhabited

/-- Whether a shadow covers a stop (R337). -/
def Mach.inShadow (m : Mach) (st : Nat) : Bool := m.shadows.any (fun s => decide (s = st) || (neighbours s).contains st)

/-- Whether an occurrence is shadowed. -/
def Mach.shadowed (m : Mach) (o : Occ) : Bool := m.inShadow (srcStop o.r.src)

/-- The reaction set that an occurrence takes: only CALD in a shadow (R334, R337), nothing in the Caldera state (R341). -/
def Mach.reactOf (m : Mach) (o : Occ) : Nat :=
  if m.phase = .caldera then 0
  else if m.shadowed o then (m.fc o.r.src).react &&& 32 else (m.fc o.r.src).react

/-- Counts, pending and shadow bits of one occurrence (R336, R337). -/
def Mach.countOcc (m : Mach) (o : Occ) : Mach :=
  let x := m.fc o.r.src
  let sh := m.shadowed o
  let m1 := m.setFc o.r.src { x with
    count := min (x.count + 1) 0xFFFF
    shcount := if sh then min (x.shcount + 1) 0xFFFF else x.shcount
    pend := x.pend || ! sh
    shadow := x.shadow || sh }
  m1.countReg 0 2 0x188 (16 * srcSev o.r.src) 16 1

/-- Whether an occurrence is captured or marked: not one in a shadow without CALD (R335, R337). -/
def Mach.recorded (m : Mach) (o : Occ) : Bool := ! m.shadowed o || (m.fc o.r.src).react.testBit 5

/-- The occurrence of highest severity, then of lowest source (R335). -/
def worst : List Occ → Option Occ
  | [] => none
  | o :: t => match worst t with
    | none => some o
    | some p => if srcSev p.r.src < srcSev o.r.src ∨ (srcSev p.r.src = srcSev o.r.src ∧ o.r.src ≤ p.r.src) then some o else some p

/-- The reactions that one cycle applies (R334): CALD alone, or CRST without BRST. -/
def Mach.applied (m : Mach) (os : List Occ) : Nat :=
  let u := os.foldl (fun a o => a ||| m.reactOf o) 0
  if u.testBit 5 then 32 else if u.testBit 3 then u &&& 0x1B else u

/-- The address that a record holds (R226). -/
def Mach.recordAddr (m : Mach) (r : Report) : W64 :=
  match r.addr with
  | none => 0
  | some a =>
    let sec : Bool := match coreOf r.mstop r.munit with
      | some c => decide ((m.core c).world = .secure)
      | none => false
    setBit (setFld 0 0 52 (if sec then a else (m.carveOf a).getD a)) 63 true

/-- The first-error record takes an occurrence (R335). -/
def Mach.capture (m : Mach) (o : Occ) (react : Nat) : Mach :=
  let v := setFld (setFld (setFld 0 0 9 o.r.src) 10 2 (srcSev o.r.src)) 16 6 react
  let v := setBit (setBit (setBit v 12 (m.shadowed o)) 13 o.inj) 63 true
  let w := setBit (setFld (setFld (setFld 0 0 6 o.r.mstop) 8 6 o.r.munit) 16 4 (o.r.acc.getD 0xB)) 24 o.mv
  (((m.setReg 0 2 0x100 v).setReg 0 2 0x108 (m.recordAddr o.r)).setReg 0 2 0x110 w).setReg 0 2 0x118 m.dtNow

/-- An occurrence is marked in ALSO (R335). -/
def Mach.markAlso (m : Mach) (o : Occ) : Mach :=
  let v := m.reg 0 2 0x180
  let m1 := m.setFc o.r.src { m.fc o.r.src with also := true }
  m1.setReg 0 2 0x180 (setBit (setFld (setFld v 0 16 (min (fld v 0 16 + 1) 0xFFFF)) 16 2 (max (fld v 16 2) (srcSev o.r.src))) 18 true)

/-- The record of one cycle (R335): one occurrence captured where the record is free, the others marked. -/
def Mach.recordCycle (m : Mach) (os : List Occ) (react : Nat) : Mach :=
  match worst os with
  | none => m
  | some o =>
    if bit (m.reg 0 2 0x100) 63 then os.foldl Mach.markAlso m
    else (os.erase o).foldl Mach.markAlso (m.capture o react)

/-- The block reset that BRST requests at a stop (R333); a domain that is off ignores it. -/
def Mach.blockReset (m : Mach) (st : Nat) (known : List (Nat × List W64)) : Mach :=
  match domainOf st 0, stopKind st with
  | some d, k =>
    if m.domState d ≠ 1 then m
    else match k with
      | .pod p => m.podReset p known
      | .cc c => m.ccReset c known
      | .px n => m.pxReset n
      | .le e => m.leReset e
      | .hio h => m.hioReset h
      | .mnt => m.mntReset
      | _ => m
  | none, k =>
    match k with
    | .pod p => if m.domState p = 1 then m.podReset p known else m
    | _ => m

/-- The reactions of one cycle beside PIN, which follows from pending bits (R332 to R334, R338). -/
def Mach.react (m : Mach) (os : List Occ) (react : Nat) (known : List (Nat × List W64)) : Mach :=
  if react.testBit 5 then
    match worst (os.filter (fun o => (m.reactOf o).testBit 5)) with
    | some o => m.caldera 1 o.r.src (m.shadowed o) o.inj
    | none => m
  else
    let m1 := os.foldl (fun (acc : Mach) o =>
      if (m.reactOf o).testBit 0 then acc.raiseEvent (784 + srcSev o.r.src) else acc) m
    let m2 := if react.testBit 1 then m1.nmiAll else m1
    let stops := ((os.filter (fun o => (m.reactOf o).testBit 2)).map (fun o => srcStop o.r.src)).dedup
    let m3 := if react.testBit 2 ∧ ! m.warm then stops.foldl (fun (acc : Mach) st => acc.blockReset st known) m2 else m2
    if react.testBit 3 then { m3.beginWarm with warmWhy := if m3.warm ∨ m3.phase = .caldera then m3.warmWhy else 3 } else m3

/-- One collector cycle (R328, R334 to R337): `known` are the lines that block resets lose, as in R152. -/
def Mach.cycle (m : Mach) (all : List Occ) (known : List (Nat × List W64)) : Mach :=
  let os := all.filter (fun o => srcReal o.r.src)
  let react := m.applied os
  let m1 := (os.foldl Mach.countOcc m).recordCycle (os.filter m.recorded) react
  m1.react os react known

/-- Reports that reach the collector are no longer on their way. -/
def Mach.arrived (m : Mach) (rs : List Report) : Mach := { m with reports := rs.foldl List.erase m.reports }

/-! ### Register writes -/

/-- FC_PENDn (R336): bits written 1 clear, and a condition that persists is reported again. -/
def Mach.pendClear (m : Mach) (n : Nat) (v : W64) : Mach :=
  (List.range 64).foldl (fun (acc : Mach) i =>
    let src := 64 * n + i
    if bit v i && (acc.fc src).pend then
      let m1 := acc.setFc src { acc.fc src with pend := false }
      match m1.level src with
      | some r => m1.report r
      | none => m1
    else acc) m

/-- A write of 1 to FC_FE_SRC.VALID (R335 item 3). -/
def Mach.feClear (m : Mach) : Mach :=
  let m1 := (((m.setReg 0 2 0x100 0).setReg 0 2 0x108 0).setReg 0 2 0x110 0).setReg 0 2 0x118 0
  (List.range 512).foldl (fun (acc : Mach) src =>
    if (acc.fc src).also then acc.setFc src { acc.fc src with also := false } else acc) (m1.setReg 0 2 0x180 0)

/-- The collector finds itself faulty (R339): 0 a mismatch, 1 an uncorrectable copy; otherwise a corrected copy, which is counted. -/
def Mach.selfFault (m : Mach) (kind off : Nat) (inj : Bool) : Mach :=
  if 2 ≤ kind then m.countReg 0 2 0x1A8 32 16 1
  else if m.phase = .caldera then m
  else
    let v := setFld (setBit (setBit (setBit (m.reg 0 2 0x1A8) 0 (decide (kind = 0))) 1 (decide (kind = 1))) 2 inj) 16 12 off
    (m.setReg 0 2 0x1A8 v).caldera 2 0 false inj

/-- Bits that FC_INJ holds. -/
def injMask : W64 := 0x4000001F3F3F01FF

/-- A write of FC_INJ (R347): ignored unless the expert page is unlocked (R18). -/
def Mach.inject (m : Mach) (v : W64) (known : List (Nat × List W64)) : Mach :=
  if (m.blk 0 2).lock ≠ 2 then m
  else
    let m1 := m.setReg 0 2 0x800 (v &&& injMask)
    let a := m.reg 0 2 0x808
    if ! bit v 63 then m1
    else if bit v 62 then m1.selfFault 0 0x800 true
    else
      let src := fld v 0 9
      let r : Report := ⟨src, if bit a 63 then some (fld a 0 52) else none, fld v 16 6, fld v 24 6, some (fld v 32 4)⟩
      m1.cycle [⟨r, true, bit v 36⟩] known

/-- A write of FC_CTRL (R7, R345): the first one since reset takes effect. Bit 1 of the cell, which no read returns, holds that it came. -/
def Mach.cfgLock (m : Mach) (v : Bool) : Mach :=
  let w := m.reg 0 2 0x40
  if bit w 1 then m else m.setReg 0 2 0x40 (setBit (setBit w 0 v) 1 true)

/-! ### Commands -/

/-- FAULT_OCCURRENCE (R334): `rs` reach the collector in one cycle. -/
def execFaultOccurrence (rs : List Report) (known : List (Nat × List W64)) (s : State) : Out :=
  s.upd (fun m => (m.arrived rs).cycle (rs.map (fun r => ⟨r, false, true⟩)) known)

/-- COLLECTOR_SELF_FAULT (R339). -/
def execCollectorSelfFault (kind off : Nat) (s : State) : Out := s.upd (fun m => m.selfFault kind off false)

/-- FC_PEND_CLEAR (R336). -/
def execFcPendClear (mst : Master) (n : Nat) (v : W64) (s : State) : Out :=
  s.upd (fun m => if 8 ≤ n then m else m.window mst 0 2 (0x80 + 8 * n) (fun m => m.pendClear n v))

/-- FC_FE_CLEAR (R335). -/
def execFcFeClear (mst : Master) (s : State) : Out := s.upd (fun m => m.window mst 0 2 0x100 Mach.feClear)

/-- FC_CALD_FORCE (R344). -/
def execFcCaldForce (mst : Master) (key : Nat) (s : State) : Out :=
  s.upd (fun m => m.window mst 0 2 0x1A0 (fun m => if key = 0xCA1D then m.caldera 3 0 false false else m))

/-- FC_INJ_GO (R347). -/
def execFcInjGo (mst : Master) (v : W64) (known : List (Nat × List W64)) (s : State) : Out :=
  s.upd (fun m => m.window mst 0 2 0x800 (fun m => m.inject (setBit (setBit v 63 true) 62 false) known))

/-- FC_INJ_SELF (R347). -/
def execFcInjSelf (mst : Master) (v : W64) (s : State) : Out :=
  s.upd (fun m => m.window mst 0 2 0x800 (fun m => m.inject (setBit (setBit v 63 true) 62 true) []))

/-- FC_CFGLOCK (R345). -/
def execFcCfglock (mst : Master) (s : State) : Out := s.upd (fun m => m.window mst 0 2 0x40 (fun m => m.cfgLock true))

/-- SHADOW_END (R337). -/
def execShadowEnd (st : Nat) (s : State) : Out := s.upd (fun m => { m with shadows := m.shadows.erase st })

end Sys2Proof.Machine
end

