-- ==== Sys2Proof/Machine/Secure.lean ====
section
/-!
DEFINITION. Invalidation of translations (R221, R222), XL_G_S1 (R212), and the secure world: its triggers, its hold set, its restart and its
gates (R225, R228 to R235).
-/

namespace Sys2Proof.Machine

/-! ### Translation registers -/

/-- A write of XL_INV in core `c`'s window (R221, R222). -/
def Mach.xlInv (m : Mach) (mst : Master) (c : Nat) (v : W64) : Mach :=
  let scope := fld v 0 3
  let page := m.coreReg c 0x1B0
  let asid := fld v 15 16
  if mst.world = .guest then
    m.tlbInvalidate (if scope = 0 then 1 else scope) .guest mst.vmid asid (fld page 12 36 * 4096)
  else
    match World.ofCode (fld v 3 2) with
    | none => m
    | some wd =>
      let w := if wd = .secure ∧ mst.world ≠ .secure ∧ ! mst.sytum then .host else wd
      m.tlbInvalidate scope w (fld v 5 10) asid (fld page 12 36 * 4096)

/-- A word that the Sytum or a control register's write puts in memory at its home. -/
def Mach.homeWord (m : Mach) (st unit a : Nat) (w : Word) : Mach :=
  (((((m.ownAtHome a).putWord a w.data w.tag w.poison).stored a).mirrorWrite st unit a 0xFF)).l1Inval 176 (a / 64)

/-- A write of XL_G_S1 in core `c`'s window (R212). -/
def Mach.xlGS1 (m : Mach) (c : Nat) (v : W64) : Mach :=
  let x := m.core c
  if x.world ≠ .guest then m
  else
    let w := v &&& 0x00FFFF0FFFFFFFFF
    let a := m.vmAddr c x.vmid + 8
    let m1 := m.setCore c { x with s1 := w }
    if bit (m.coreReg c 0x190) 0 ∧ m.isMem a then m1.homeWord (coreStop c) (coreUnit c) a (.plain w) else m1

/-! ### The hold set -/

/-- A write of SYT_SEC_HOLD (R229). -/
def Mach.holdWrite (m : Mach) (mst : Master) (v : W64) : Mach :=
  if mst.world ≠ .secure ∧ ! mst.sytum then m
  else
    let w := setFld 0 0 49 (fld v 0 49)
    (m.setReg 0 0 0x718 w).releaseDeferred (fun d => ! bit w d)

/-- A held domain was not released in time (R229 item 3): a restart, or the deferred requests at once where no secure world runs. -/
def Mach.holdTimeout (m : Mach) (d : Nat) : Mach :=
  if ! m.secHeld d ∨ ! m.power.deferred.any (fun q => decide (q.dom = d)) then m
  else
    let s := m.regFld 0 0 0x700 0 3
    let m1 := { m with dt := max m.dt (Tab.get 0 m.holdAt d + m.regFld 0 0 0x710 0 10 * 1000000) }
    if s = 0 ∨ s = 4 then m1.releaseDeferred (fun _ => true) else m1.secTrigger 3

/-! ### Forcing execution out -/

/-- The words of frame `i` of core `c`'s link area, through LINK, with the area's BASE (R60, R233). -/
def Mach.linkAt (m : Mach) (c base i : Nat) : Option (List Word) :=
  match m.firstPiece c (m.core c).link ((base + 64 * i : Nat) : Int) linkLoad with
  | .ok (p, m1) => some ((List.range 8).map (fun j => m1.coreWord c (p.pa + 8 * j)))
  | .error _ => none

/-- The BASE of core `c`'s link area, where LINK is live. -/
def Mach.linkBase (m : Mach) (c : Nat) : Option Nat :=
  match m.live c (m.core c).link .capld 0 0 with
  | .ok (g, _, _) => some g.base
  | .error _ => none

/-- Whether the context below gate call `i` of core `c` is SECURE: the world that frame `i` records, or the present world after the last
frame. -/
def Mach.secureAt (m : Mach) (c base n i : Nat) : Bool :=
  if n ≤ i then decide ((m.core c).world = .secure)
  else match m.linkAt c base i with
    | some ws => decide (fld ((ws[3]?).getD Word.zero).data 16 2 = 2)
    | none => false

/-- Where SECURE begins in the calls of core `c`: 0 where it entered SECURE without a gate, `i + 1` where frame `i` was written by the CGATE into
SECURE, none where nothing of it is SECURE (R233). -/
def Mach.secureFrom (m : Mach) (c : Nat) : Option (Nat × Nat) :=
  let x := m.core c
  match m.linkBase c with
  | some b =>
    let n := (x.link.cursor - b) / 64
    ((List.range (n + 1)).find? (fun i => m.secureAt c b n i)).map (fun i => (b, i))
  | none => if x.world = .secure then some (0, 0) else none

/-- The value of g1 after a restart of the secure world (R233). -/
def secureRestart : W64 := 0xFFFFFFFFFFFFFFF1

/-- One core is forced out of the secure world (R233). -/
def Mach.forceOut (m : Mach) (c : Nat) : Mach :=
  let x := m.core c
  if x.st = .off then m
  else match m.secureFrom c with
    | none => m
    | some (base, i) =>
      let m1 := (m.serialPoint c)
      let y := { m1.core c with rpWait := none, put := none }
      let stopped := fun (m : Mach) => m.setCore c ({ m.core c with st := .stopped, resumable := false }).snap
      match i with
      | 0 => stopped (m1.setCore c y)
      | k + 1 =>
        let a := base + 64 * k
        match m1.linkAt c base k with
        | none => stopped (m1.setCore c y)
        | some ws =>
          let z := { y with link := y.link.withCursor (a + 64), cmpid := fld ((ws[3]?).getD Word.zero).data 32 16 }
          match (m1.setCore c z).gateReturn c with
          | .jump m2 pcc loops =>
            let m3 := (m2.transfer c pcc loops).setG c 1 (.plain secureRestart)
            let st := if x.st = .waiting ∨ x.st = .fatal then CoreState.running else x.st
            m3.setCore c { m3.core c with st := st }
          | _ => stopped (m1.setCore c y)

/-- Step 2 of R231. -/
def Mach.forceAllOut (m : Mach) : Mach :=
  let m1 := (List.range 176).foldl (fun acc c => acc.forceOut c) m
  { m1 with evPend := m1.evPend.filter (fun n => ! bit (m1.route n) 11) }

/-! ### Scrub -/

/-- The enabled carve-outs as ranges (R223). -/
def Mach.carveOuts (m : Mach) : List (Nat × Nat) :=
  ((List.range 16).filter (fun n => bit (m.reg 0 9 (0x100 + 0x10 * n)) 0)).map (fun n =>
    (m.regFld 0 9 (0x100 + 0x10 * n) 21 31 * 0x200000, m.regFld 0 9 (0x108 + 0x10 * n) 21 31 * 0x200000))

/-- Whether an address lies in one of some ranges. -/
def inRanges (rs : List (Nat × Nat)) (a : Nat) : Bool := rs.any (fun r => decide (r.1 ≤ a) && decide (a < r.2))

/-- Every region of a channel that channel addresses `lo` to `hi` meet is initialised (R538). -/
def Mach.initRegions (m : Mach) (c lo hi : Nat) : Mach :=
  (List.range (hi / 0x200000 - lo / 0x200000 + 1)).foldl (fun acc i => acc.initRegion c ((lo / 0x200000 + i) * 0x200000)) m

/-- A range of interleaved DRAM is written whole (R292, R538). -/
def Mach.touchRange (m : Mach) (r : Nat × Nat) : Mach :=
  let n := m.dram.chans.length
  if n = 0 ∨ r.2 ≤ r.1 then m
  else m.dram.chans.foldl (fun acc c =>
    let base := Tab.get 0 m.dram.pins c
    let lo := base + r.1 / 256 / n * 256
    let hi := base + (r.2 - 1) / 256 / n * 256 + 255
    let st := fun (ca i : Nat) => ((m.storeCa c ca)[i]?).getD 0
    ((acc.initRegions c lo hi).initRegions c (st lo 0) (st hi 0)).initRegions c (st lo 1) (st hi 1)) m

/-- Carve-outs are scrubbed to zero with metadata 0, and caches drop their lines without writeback (R231 step 3, R540 step 7). -/
def Mach.scrub (m : Mach) : Mach :=
  let rs := m.carveOuts
  let line := fun (l : Nat) => inRanges rs (l * 64)
  let m1 := { m with
    mem := m.mem.filter (fun p => ! inRanges rs p.1)
    mmeta := m.mmeta.filter (fun p => ! inRanges rs (p.1 * 8))
    upsets := m.upsets.filter (fun u => ! inRanges rs u.pa)
    stale := m.stale.filter (fun p => ! line p.1)
    dir := m.dir.filter (fun p => ! line p.1)
    l3 := Tab.mapV [] (fun _ es => es.filter (fun e => ! line e.line)) m.l3
    cores := Tab.mapV Core.reset (fun _ x => { x with
      lines := x.lines.filter (fun p => ! line p.1)
      l1 := x.l1.filter (fun e => ! line e.line)
      mb := x.mb.filter (fun e => ! line e.line) }) m.cores }
  rs.foldl Mach.touchRange m1

/-! ### Start of the secure world -/

/-- M becomes SHA-384(M, H) (R235). -/
def Mach.measure (m : Mach) (h : BitVec 384) : Mach :=
  let old := (List.range 6).foldl (fun (v : BitVec 384) i => v ||| ((m.reg 0 0 (0x740 + 8 * i)).setWidth 384 <<< (64 * i))) 0
  let new := Config.sha384Pair old h
  (List.range 6).foldl (fun acc i => acc.setReg 0 0 (0x740 + 8 * i) ((new >>> (64 * i)).setWidth 64)) m

/-- Words written by the Sytum from `a` upward. -/
def Mach.sytumWords (m : Mach) (a : Nat) (ws : List Word) : Mach :=
  ws.zipIdx.foldl (fun acc p => acc.homeWord 0 0x3F (a + 8 * p.2) p.1) m

/-- The OTYPE of a published gate: a type that R49 reserves for the device, not that of records; the spec does not say which (log entry 24). -/
def gateType (v : W64) : Nat := 0xFFF1 + v.toNat % 15

/-- Secure gate `g` is published (R228): its descriptor, the sealed pair in the table page, and the capability in the publication page. -/
def Mach.publish (m : Mach) (g : Nat) (desc : List Word) : Mach :=
  let d := m.regFld 0 9 0x200 12 40 * 4096 + 32 * g
  let m1 := m.sytumWords d (desc.take 4)
  let t := m.regFld 0 0 0x720 12 40 * 4096
  let p := m.regFld 0 0 0x728 12 40 * 4096
  if t = 0 ∨ p = 0 then m1
  else
    let pa := t + (2016 + 2 * g) * 32 % 4096
    let gen := (m1.readGrant pa).gen
    let e : Grant := ⟨d, d + 32, setBit 0 9 true, 0, 0, gen, false, true, 0xFFFF⟩
    let m2 := ((m1.writeGrant 0 0x3F pa e).writeGrant 0 0x3F (pa + 32) { e with otype := gateType m1.fresh }).drawn
    m2.homeWord 0 0x3F (p + 8 * g) (.cap d (2017 + 2 * g) true gen)

/-- Whether core `c` is in a state that a secure start finds it in (R232). -/
def Mach.startable (m : Mach) (c : Nat) : Bool :=
  decide ((m.core c).st = .stopped) || decide ((m.core c).st = .halted) || decide ((m.core c).st = .fatal)

/-- A secure start (R232) of core `c`. -/
def Mach.secureStart (m : Mach) (c : Nat) (img : SecIn) : Mach :=
  let x := m.core c
  if ! m.startable c then m
  else (m.setCore c { x.cleared (isC c) with
    st := .running, world := .secure, vmid := 0, s1 := m.coreReg c 0x1A0, s2root := 0, wtab := m.coreReg c 0x1A8
    pcc := img.pcc, savecap := img.savecap, evcap := img.evcap, link := img.link, gtab := img.gtab, cmpid := img.cmpid }).enterDomain c

/-- The secure home core: the lowest present, powered V-core of the lowest pod in a hold set (R231). -/
def Mach.homeCore (m : Mach) (hold : W64) : Option Nat :=
  match (List.range 36).find? (fun p => bit hold p) with
  | none => none
  | some p => ((List.range 4).map (fun j => 4 * p + j)).find? (fun c => m.answers (coreStop c) (coreWin c))

/-- SYT_SEC_STATUS.STATE takes a value. -/
def Mach.secState (m : Mach) (s : Nat) : Mach := m.setRegFld 0 0 0x700 0 3 s

/-- The secure world ends in FAILED (R231). -/
def Mach.secFail (m : Mach) : Mach := (m.secState 4).raiseOwn 0 10 none

/-- Steps 4 to 6 of R231, and RUNNING: the image is checked, measured and loaded, the hold set loaded less every domain with a deferred request,
gates published, and the home core started; one that runs something else cannot be (log entry 77). -/
def Mach.secBring (m : Mach) (img : SecIn) : Mach :=
  if ! img.sigOk then m.secFail
  else
    let hold := m.power.deferred.foldl (fun v q => setBit v q.dom false) m.holdImage
    let m1 := ({ m with secImage := some img }.measure img.digest).setReg 0 0 0x718 hold
    match m1.homeCore hold with
    | none => m1.secFail
    | some c =>
      if ! m1.startable c then m1.secFail
      else
      let m2 := (List.range 176).foldl (fun acc i => (acc.setReg (coreStop i) (coreWin i) 0x1A0 img.s1).setReg (coreStop i) (coreWin i) 0x1A8 img.wtab)
        (m1.sytumWords img.load img.code)
      let m3 := (img.gates.take 16).zipIdx.foldl (fun acc p => acc.publish p.2 p.1) m2
      { (m3.secureStart c img).secState 2 with kickAt := m.dt }

/-- SECURE_RESTART (R231): steps 2 to 7 of the restart that a trigger began. -/
def Mach.secRestart (m : Mach) (img : SecIn) : Mach :=
  if m.secTrig.isNone ∨ m.phase ≠ .run then m
  else
    let m1 := ({ m.forceAllOut with secTrig := none }).scrub.secBring img
    let m2 := if img.sigOk then m1 else m1.raiseOwn 0 8 none
    m2.releaseDeferred (fun _ => true)

/-! ### Commands -/

/-- XL_INV_WRITE (R221). -/
def execXlInvWrite (mst : Master) (c : Nat) (v : W64) (s : State) : Out :=
  s.upd (fun m => m.coreWindow mst c 0x1B8 (fun m => m.xlInv mst c v))

/-- XL_G_S1_WRITE (R212). -/
def execXlGS1Write (mst : Master) (c : Nat) (v : W64) (s : State) : Out :=
  s.upd (fun m => m.coreWindow mst c 0x198 (fun m => m.xlGS1 c v))

/-- SEC_WATCHDOG_EXPIRE (R230): only while SYT_SEC_CFG.WDOG is not 0 and the secure world runs; time reaches the end of the period. -/
def execSecWatchdogExpire (s : State) : Out :=
  s.upd (fun m =>
    let w := m.regFld 0 0 0x710 16 10
    if w = 0 ∨ m.regFld 0 0 0x700 0 3 ≠ 2 then m else ({ m with dt := max m.dt (m.kickAt + w * 1000000) }).secTrigger 1)

/-- KICK (R230): ignored from another world than SECURE. -/
def execKick (mst : Master) (s : State) : Out :=
  s.upd (fun m => m.window mst 0 0 0x708 (fun m => if mst.world = .secure then { m with kickAt := m.dt } else m))

/-- SEC_RESTART_REQUEST (R230): ignored from another world than SECURE. -/
def execSecRestartRequest (mst : Master) (s : State) : Out :=
  s.upd (fun m => m.window mst 0 0 0x708 (fun m => if mst.world = .secure then m.secTrigger 4 else m))

/-- SEC_HOLD_TIMEOUT (R229). -/
def execSecHoldTimeout (d : Nat) (s : State) : Out := s.upd (fun m => m.holdTimeout d)

/-- SEC_HOLD_WRITE (R229). -/
def execSecHoldWrite (mst : Master) (v : W64) (s : State) : Out := s.upd (fun m => m.window mst 0 0 0x718 (fun m => m.holdWrite mst v))

/-- SECURE_RESTART (R231). -/
def execSecureRestart (img : SecIn) (s : State) : Out := s.upd (fun m => m.secRestart img)

end Sys2Proof.Machine
end

