-- ==== Sys2Proof/Machine/CtlRead.lean ====
section
/-!
DEFINITION. Reads of control registers (R5, R16, R18, R21, R22, R28): the header of a window, registers that show other state, and plain
registers through their access codes.
-/

namespace Sys2Proof.Machine

/-! ### Work in flight -/

/-- Whether a core is in none of OFF, STOPPED, HALTED and FATAL. -/
def Mach.coreBusy (m : Mach) (c : Nat) : Bool :=
  match (m.core c).st with
  | .off | .stopped | .halted | .fatal => false
  | _ => true

/-- The work in flight of the block of a window (R23): of a pod (R150), of a C-cluster (R184), RUNNING slots (R282), records of an engine
(R419). For the other blocks, whose chapters do not define it, what the block holds open (log entry 25). -/
def Mach.work (m : Mach) (st k : Nat) : Bool :=
  match winBlk st k with
  | some (.pod, p) => (List.range 4).any (fun j =>
      m.coreBusy (4 * p + j) || (m.core (4 * p + j)).lines.any (fun l => decide (l.2 = .M)))
  | some (.cc, c) => (List.range 8).any (fun j =>
      m.coreBusy (144 + 8 * c + j) || ! (m.core (144 + 8 * c + j)).mb.isEmpty)
  | some (.mnt, _) => (List.range 16).any (fun n => decide ((m.slot n).state = 1))
  | some (.le, e) => m.queues.any (fun p => decide (p.1 / 2048 = e) && ! p.2.recs.isEmpty)
  | some (.l3h, p) => ! (m.atHome p).isEmpty
  | some (.mc, i) => m.mcReqs.any (fun r => decide (r.chan / 2 = i))
  | some (.px, i) => m.handovers.any (fun h => decide (h.2.port / 32 = i))
      || m.ports.any (fun p => decide (p.1 / 32 = i) && p.2.eqs.any (fun q => ! q.2.isEmpty))
  | some (.port, q) => m.handovers.any (fun h => decide (h.2.port = q))
      || m.ports.any (fun p => decide (p.1 = q) && (p.2.eqs.any (fun e => ! e.2.isEmpty) || p.2.cut.isSome))
  | some (.hio, h) => m.cfgReqs.any (fun q => decide (q.rp / 16 = h))
  | _ => false

/-! ### The header -/

/-- Whether a source of the block of stop `st` is uncleared in the collector (R22 FAULT). -/
def Mach.faulted (m : Mach) (st : Nat) : Bool :=
  m.fcSrc.any (fun p => p.2.pend && decide ((faultRange st).1 ≤ p.1) && decide (p.1 < (faultRange st).1 + (faultRange st).2))

/-- BLK_ID (R21); the stepping is B0 (R4). -/
def blkId (b : Blk) (i : Nat) : W64 := setFld (setFld (setFld 0 0 16 b.code) 16 16 i) 32 16 0x00B0

/-- BLK_STATUS (R22). -/
def Mach.blkStatus (m : Mach) (st k : Nat) : W64 :=
  let b := m.blk st k
  let w := m.answers st k && m.work st k
  setBit (setBit (setBit (setBit (setBit 0 0 (b.disabling || w)) 1 (b.quiesce && ! w)) 2 (m.faulted st)) 3 (m.powered st k)) 4
    (m.fusedOff st k)

/-- FAULT_BASE (R23). -/
def faultBase (st : Nat) : W64 := setFld (setFld 0 0 9 (faultRange st).1) 16 8 (faultRange st).2

/-- The registers that the router answers for a block without power (R28). -/
def alwaysRead (off : Nat) : Bool := decide (off = 0) || decide (off = 0x10) || decide (off = 0x30)

/-- A register of the header (R21). -/
def Mach.headerRead (m : Mach) (b : Blk) (i st k off : Nat) : W64 :=
  let x := m.blk st k
  if off = 0x00 then blkId b i
  else if off = 0x08 then setBit (setBit 0 0 x.enable) 1 x.quiesce
  else if off = 0x10 then m.blkStatus st k
  else if off = 0x18 then setBit (setBit 0 16 (decide (x.lock = 1))) 17 (decide (x.lock = 2))
  else if off = 0x20 then x.violAddr
  else if off = 0x28 then x.violInfo
  else faultBase st

/-! ### Registers that show other state -/

/-- VCORE_STATE (R148). -/
def Mach.coreState (m : Mach) (c : Nat) : W64 :=
  let x := m.core c
  let r := m.blockRuns c && decide (x.st = .stopped) && x.resumable && ! decide (x.world = .secure)
  let w := setBit (setBit (setFld 0 0 3 x.st.code) 3 r) 4 (decide (x.world = .secure))
  setFld (setFld (setBit (setBit w 8 x.wign) 9 x.cign) 16 8 x.pdom) 32 16 x.nmiLost

/-- A CTX_ register (R148, R149). -/
def Mach.ctxRead (m : Mach) (mst : Master) (c off : Nat) : W64 :=
  let x := m.core c
  let y := match x.st with
    | .stopped | .halted | .fatal => x.snap.ctx
    | _ => x.ctx
  if m.barred mst c then 0
  else if off = 0x80 then y.pcc.data
  else if off = 0x88 then y.savecap.data
  else if off = 0x90 then y.evcap.data
  else if off = 0x98 then y.link.data
  else if off = 0xA0 then y.gtab
  else if off = 0xA8 then y.wtab
  else setFld 0 0 16 y.cmpid

/-- Whether a selection register counts nothing (R501): no world, or an event that the bank cannot count. -/
def selErr (known : Nat → Bool) (s : W64) : Bool := (! bit s 12 && ! bit s 13) || ! known (fld s 0 10)

/-- PMC_CTRL of core `c`, and PMU_CTRL of a stop, with SELERR (R501, R507). -/
def Mach.pmcCtrl (m : Mach) (c : Nat) : W64 :=
  setBit (m.coreReg c 0x400) 3 ((List.range (coreSels c)).any (fun i => selErr (coreEvent c) (m.coreReg c (0x410 + 8 * i))))

/-- PMU_CTRL of a stop. -/
def Mach.pmuCtrl (m : Mach) (st : Nat) : W64 :=
  setBit (m.reg st (pmuWin st) 0x40) 3 ((List.range 8).any (fun i => selErr (uncoreEvent st) (m.reg st (pmuWin st) (0x80 + 8 * i))))

/-- Whether `off` names one of `n` registers from `lo` at stride 8. -/
def inBank (off lo n : Nat) : Bool := decide (lo ≤ off) && decide (off < lo + 8 * n)

/-- A register of a core's window that shows other state (R148, R183, R212, R496); none where the register is plain. -/
def Mach.coreRead (m : Mach) (mst : Master) (c off : Nat) : Option W64 :=
  let x := m.core c
  if off = 0x48 then some (m.coreState c)
  else if ctxOffsets.contains off then some (m.ctxRead mst c off)
  else if inBank off 0xC0 4 then
    some (if m.barred mst c then 0 else ((x.lastFrame[(off - 0xC0) / 8]?).getD Word.zero).data)
  else if off = 0x118 ∧ isC c then some (setFld (m.coreReg c 0x118) 24 4 x.mb.length)
  else if off = 0x1A0 ∨ off = 0x1A8 then some (if mst.sytum then m.coreReg c off else 0)
  else if off = 0x400 then some (m.pmcCtrl c)
  else if off = 0x408 then some (m.coreReg c off)
  else if inBank off 0x410 (coreSels c) then some (m.coreReg c off)
  else if inBank off 0x440 8 ∧ ¬ (isC c = true ∧ (off = 0x460 ∨ off = 0x468)) then some (m.coreReg c off)
  else none

/-- The classes of R309 that a window owns (R318). -/
def protClasses : Blk → List Nat
  | .vcore => [0, 1, 2] | .ccore => [3] | .cc => [4] | .l3h => [5, 6] | .le => [7] | .mc => [8, 9] | _ => []

/-- PROT_CFG (R320). -/
def protCfg (b : Blk) (st k : Nat) : W64 :=
  let w := (protClasses b).foldl (fun w v => setBit w v true) (setFld 0 16 6 (logEntries st k))
  match b with
  | .mc => setBit w 26 true
  | .l3h => setFld w 22 4 8
  | _ => w

/-- The log entry that PROT_LOGSEL shows (R320). -/
def Mach.logShown (m : Mach) (st k : Nat) : LogEnt :=
  let i := m.regFld st k 0x310 0 5
  ((m.protLog st k)[if i < logEntries st k then i else 0]?).getD ⟨0, 0, 0, 0, false, false, 0, 0⟩

/-- A protection register that shows other state (R318). -/
def Mach.protRead (m : Mach) (b : Blk) (st k off : Nat) : Option W64 :=
  if (protClasses b).isEmpty then none
  else
    let e := m.logShown st k
    if off = 0x300 then some (protCfg b st k)
    else if off = 0x318 then some (if e.count = 0 then 0 else setBit (setFld (setFld 0 0 52 e.addr) 56 4 e.cls) 63 true)
    else if off = 0x320 then
      some (if e.count = 0 then 0
        else setFld (setBit (setBit (setFld (setFld 0 0 16 e.count) 16 8 e.loc) 24 e.subch) 25 e.ch) 32 32 e.lastS)
    else if off = 0x338 ∧ (b = .mc ∨ b = .l3h) then some (m.remap st k (m.remapIndex st k))
    else none

/-- The bits of the units `0` to `n - 1` that are not fused off, by window (R150, R184, R381). -/
def Mach.present (m : Mach) (st n : Nat) : Nat :=
  (List.range n).foldl (fun w j => if m.fusedOff st (j + 1) then w else w + 2 ^ j) 0

/-- The links of a stop, and whether one crosses the seam (R244). -/
def rtrLinks (st : Nat) : Nat :=
  (if st % 8 = 7 then 0 else 1) + (if st % 8 = 0 then 0 else 2) + (if st < 8 then 0 else 4) + (if 48 ≤ st then 0 else 8)

/-- RTR_CFG (R244). -/
def rtrCfg (st : Nat) : W64 :=
  let w := setBit (setFld (setFld 0 0 3 (st % 8)) 3 3 (st / 8)) 6 (decide (4 ≤ st % 8))
  setBit (setFld w 8 4 (rtrLinks st)) 12 (decide (st % 8 = 3) || decide (st % 8 = 4))

/-- FC_STATUS (R347); `pin` is what the board adds at the contact. -/
def Mach.fcStatus (m : Mach) (pin : Bool) : W64 :=
  let sev := (List.range 4).foldl (fun w s =>
    if m.fcSrc.any (fun p => p.2.pend && decide (srcSev p.1 = s)) then w + 2 ^ s else w) 0
  setBit (setBit (setBit (setBit (setFld 0 0 4 sev) 4 m.errDriven) 5 (m.errDriven || pin)) 6 (! m.shadows.isEmpty)) 7
    (decide (m.phase = .caldera))

/-- One bit of each of the sources `64 n` to `64 n + 63` (R347). -/
def Mach.fcBits (m : Mach) (n : Nat) (f : FcSrc → Bool) : W64 :=
  (List.range 64).foldl (fun w i => setBit w i (f (m.fc (64 * n + i)))) 0

/-- A register of the FC window that shows other state (R347), but for FC_STATUS. -/
def Mach.fcRead (m : Mach) (off : Nat) : Option W64 :=
  let src := m.regFld 0 2 0x50 0 9
  let x := m.fc src
  if off = 0x58 then
    some (if srcReal src then setBit (setFld (setFld 0 0 6 x.react) 8 2 (srcSev src)) 10 (srcRstOk src) else 0)
  else if off = 0x60 then
    some (setBit (setBit (setFld (setFld 0 0 16 x.count) 16 16 x.shcount) 32 x.pend) 33 (m.level src).isSome)
  else if inBank off 0x80 8 then some (m.fcBits ((off - 0x80) / 8) FcSrc.pend)
  else if inBank off 0xC0 8 then some (m.fcBits ((off - 0xC0) / 8) FcSrc.shadow)
  else if inBank off 0x140 8 then some (m.fcBits ((off - 0x140) / 8) FcSrc.also)
  else none

/-- LE_STATUS (R419). -/
def Mach.leStatus (m : Mach) (e : Nat) : W64 :=
  let w := setBit (setFld (setBit 0 0 (m.jok e)) 1 3 (m.jerr e)) 4 (bit (m.leReg e 0x68) 4)
  setFld (setBit w 5 (m.oneCopy e)) 32 26 (m.engine e).journal.length

/-- MNT_SLOTn_STAT and MNT_SLOTn_ADDR (R283). -/
def Mach.slotRead (m : Mach) (n : Nat) (addr : Bool) : W64 :=
  let x := m.slot n
  if addr then
    let a := if x.virt then x.addr % 2 ^ 52 else (m.carveOf x.addr).getD x.addr
    if x.state = 1 ∨ (x.state = 2 ∧ 2 ≤ x.status ∧ x.status ≤ 5) then setBit (setFld 0 0 52 a) 62 x.virt else 0
  else
    setFld (setFld (setFld (setFld (setFld (setFld 0 0 2 x.state) 3 3 x.op) 6 3 x.status) 16 16 x.ticket) 32 16 x.cmpid) 48 2 x.world.code

/-- SYT_BOOT_STATUS (R546): WARMSTOP once a chip warm reset has begun. -/
def Mach.bootStatus (m : Mach) : W64 :=
  let v := m.reg 0 0 0x40
  if m.warm ∧ m.phase = .run then setFld v 0 4 9 else v

/-- A register of another window that shows other state; none where the register is plain. -/
def Mach.blockRead (m : Mach) (b : Blk) (i st k off : Nat) : Option W64 :=
  match b with
  | .pod =>
    if off = 0x40 then some (setFld (m.reg st k off) 0 4 (m.present st 4))
    else if off = 0x48 then
      some ((List.range 4).foldl (fun w j => setFld w (3 * j) 3 (m.core (4 * i + j)).st.code) (m.reg st k off))
    else none
  | .cc => if off = 0x40 then some (setFld (m.reg st k off) 8 8 (m.present st 8)) else none
  | .px => if off = 0x40 then some (setFld 0 0 32 (m.present st 32)) else none
  | .rtr =>
    if off = 0x40 then some (rtrCfg st)
    else if off = 0x58 then some (setFld (m.reg st k off) 0 4 (rtrLinks st)) else none
  | .pmu =>
    if off = 0x40 then some (m.pmuCtrl st)
    else if off = 0x48 ∨ off = 0x50 ∨ off = 0x58 then some (m.reg st k off)
    else if inBank off 0x80 8 || inBank off 0xC0 8 then some (m.reg st k off)
    else if 0x380 ≤ off ∧ ! (match stopKind st with
      | .px _ => true
      | _ => false) then some 0 else none
  | .syt =>
    if off = 0x40 then some m.bootStatus
    else if off = 0x610 then
      let n := m.regFld 0 0 0x608 0 10
      let r := m.route n
      some (setFld (setBit (setFld 0 0 26 (fld r 0 26)) 26 (m.evPend.contains n)) 32 16 (fld r 32 16))
    else if off = 0x688 then some (setFld 0 0 6 (m.slice (m.regFld 0 0 0x680 0 9)))
    else none
  | .fc => m.fcRead off
  | .fuse =>
    if off = 0x48 then
      let w := m.regFld 0 3 0x40 0 9
      let ue := m.fuseUe.contains w
      some (setBit (setBit (setFld 0 0 32 (if ue then 0 else Tab.get 0 m.fuses w)) 32 (m.fuseCe.contains w)) 33 ue)
    else none
  | .dt => if off = 0x50 then some m.dtNow else none
  | .therm => if off = 0x58 then some (setFld 0 0 12 (m.tempOf (m.regFld 0 8 0x50 0 6))) else none
  | .dbg => if off = 0x40 then some (setBit 0 2 m.dbg.isSome) else none
  | .mnt =>
    if 0x100 ≤ off ∧ off < 0x200 then some (m.slotRead ((off - 0x100) / 16) (decide (off % 16 = 8))) else none
  | .mc => if off = 0x50 then some (setBit (m.reg st k off) 12 (bit (m.reg st k off) 12 && ! bit (m.reg st k 0x40) 2)) else none
  | .dphy =>
    if off = 0x60 then
      let r := m.regionsOf i
      let n := m.regionCount i
      some (setFld (setFld (setBit 0 0 (decide (n ≠ 0) && decide (r.map % 2 ^ n = 2 ^ n - 1))) 8 18 r.next) 32 32 r.demand)
    else none
  | .le =>
    if off = 0x68 then some (m.leStatus i)
    else if off = 0x70 then some (setFld (setFld 0 0 14 (m.hotUsed i)) 32 19 (m.pSize i - (m.engine i).pbufs.length))
    else none
  | .epn =>
    if off = 0x80 ∨ off = 0x90 ∨ off = 0x200 ∨ off = 0x208 ∨ off = 0x210 ∨ off = 0x218 ∨ off = 0x220 then
      some (m.reg (leStop 0) 1 off) else none
  | .vqf => if 0x48 ≤ off ∧ off ≤ 0x98 then some (m.vqfRead i off) else none
  | .dmat =>
    if off = 0x58 then some (m.hinfo i)
    else if off = 0x60 then some (m.haddr i)
    else if off = 0x70 then some (setFld (m.reg st k off) 0 6 (m.hio i).recs.length)
    else none
  | _ => none

/-- The bits of a plain register that a read returns (R5, R6): every field but write-only and reserved ones; 0 where no table names the
offset (R16). -/
def readMask (b : Blk) (off : Nat) : W64 :=
  if b = .syt ∧ off = 0x650 then 0xFFFF else
  match findReg b off with
  | some r => r.rw ||| r.w1c ||| r.rwx ||| r.rwo ||| r.ro
  | none => 0

/-- Register `off` of window `k` of stop `st` as master `mst` reads it, with the machine after the read; the window's block answers, or the
router does for it (R28). A read of PX_PORT_TXTS_INFO takes the head entry (R372). The level that the board gives ERR_N beside the device, and
XL_G_S1 outside the GUEST world, are free values. -/
def Mach.ctlRead (m : Mach) (mst : Master) (st k off : Nat) : W64 × Mach :=
  match winBlk st k with
  | none => (0, m)
  | some (b, i) =>
    if off < 0x38 then (m.headerRead b i st k off, m)
    else match b, coreAt st k with
      | .port, _ => if off = 0x68 then m.readTxts i else (m.reg st k off &&& readMask b off, m)
      | _, some c =>
        if off = 0x198 then (if (m.core c).world = .guest then ((m.core c).s1, m) else (m.fresh, m.drawn))
        else (((m.coreRead mst c off).orElse (fun _ => m.protRead b st k off)).getD (m.reg st k off &&& readMask b off), m)
      | _, none =>
        if b = .fc ∧ off = 0x48 then (m.fcStatus (bit m.fresh 0), m.drawn)
        else (((m.blockRead b i st k off).orElse (fun _ => m.protRead b st k off)).getD (m.reg st k off &&& readMask b off), m)

end Sys2Proof.Machine
end

