-- ==== Sys2Proof/Machine/Mgmt.lean ====
section
/-!
DEFINITION. Management access: the boot flash (R489, R490), the I3C target and its mailbox (R491 to R493), the test access port (R494) and debug
sessions (R495).
-/

namespace Sys2Proof.Machine

/-! ### Boot flash -/

/-- Byte `a` of the flash. -/
def Mach.flashAt (m : Mach) (a : Nat) : BitVec 8 := (m.flash.lookup a).getD (Config.flashByte a)

/-- Free bytes (log entry 2). -/
def Mach.freeBytes (m : Mach) (n : Nat) : List (BitVec 8) × Mach :=
  ((List.range n).map (fun i => (Config.freeValue (m.free + i)).setWidth 8), { m with free := m.free + n })

/-- Bytes into the flash. -/
def Mach.flashPut (m : Mach) (a : Nat) (bs : List (BitVec 8)) : Mach :=
  { m with flash := (bs.zipIdx).foldl (fun t p => Tab.ins t (a + p.2) p.1) m.flash }

/-- The flash address and the buffer address of a command (R490). -/
def Mach.flashAddr (m : Mach) : Nat := m.regFld 0 5 0x50 0 29
/-- The buffer. -/
def Mach.flashBuf (m : Mach) : Nat := m.regFld 0 5 0x58 12 40 * 4096

/-- The bytes that a command covers: 1 READ, 2 PROGRAM, 3 and 4 the erases. -/
def flashLen (op len : Nat) : Nat := if op = 3 then 0x1000 else if op = 4 then 0x10000 else len

/-- Whether a range touches an enabled XSPI_PROTn range (R490). -/
def Mach.flashProt (m : Mach) (a n : Nat) : Bool :=
  (List.range 4).any (fun i =>
    let v := m.reg 0 5 (0x80 + 8 * i)
    bit v 0 && decide (fld v 12 17 * 0x1000 < a + n) && decide (a < fld v 32 18 * 0x1000))

/-- Whether a buffer lies in interleaved DRAM outside every carve-out (R490). -/
def Mach.bufOk (m : Mach) (a n : Nat) : Bool :=
  decide (a + n ≤ m.dram.chans.length * m.dram.ilv) && ! m.touchesCarve a (a + n)

/-- RESULT of a command that is refused, the causes in the order of their codes; 0 where it is carried out (R490). -/
def Mach.xspiWhy (m : Mach) (op len : Nat) : Nat :=
  let a := m.flashAddr
  let n := flashLen op len
  if op ≠ 1 ∧ m.flashProt a n then 1
  else if (3 ≤ op ∧ a % n ≠ 0) ∨ n = 0 ∨ 0x100000 < n ∨ m.regFld 0 5 0x40 0 10 * 0x100000 < a + n
      ∨ (op ≤ 2 ∧ ! m.bufOk m.flashBuf n) then 2
  else if op ≠ 1 ∧ ! bit (m.reg 0 5 0x40) 16 then 3
  else 0

/-- The bytes that a flash command leaves: what the buffer asks where the flash can only clear bits, else free values; all ones after an
erase. -/
def Mach.programmed (m : Mach) (a b n : Nat) : List (BitVec 8) :=
  (List.range n).map (fun i =>
    let new := m.byte (b + i)
    if m.flashAt (a + i) &&& new = new then new else (Config.freeValue (m.free + i)).setWidth 8)

/-- A write of XSPI_CMD (R490); `err` says that the flash reports an error, after which the bytes of the command are open. -/
def Mach.xspi (m : Mach) (op len : Nat) (err : Bool) : Mach :=
  let a := m.flashAddr
  let b := m.flashBuf
  let n := flashLen op len
  let why := m.xspiWhy op len
  if why ≠ 0 then m.setReg 0 5 0x48 (setFld 0 36 3 why)
  else if err then
    let (bs, m1) := m.freeBytes n
    ((if op = 1 then m1.devWrite 0 0x3F .host b bs false else m1.flashPut a bs).setReg 0 5 0x48 (setFld 0 36 3 4)).raiseOwn 0 8 none
  else
    let m1 := m.setReg 0 5 0x48 0
    if op = 1 then m1.devWrite 0 0x3F .host b ((List.range n).map (fun i => m.flashAt (a + i))) false
    else if op = 2 then { m1.flashPut a (m.programmed a b n) with free := m.free + n }
    else m1.flashPut a (List.replicate n 0xFF)

/-! ### The mailbox -/

/-- The commands of R493. -/
def mbxCommands : List Nat := [0x01, 0x02, 0x03, 0x04, 0x05, 0x10, 0x11, 0x12, 0x13]

/-- A request completes (R492). -/
def Mach.mbxDone (m : Mach) (result : Nat) (rsp : List (BitVec 8)) : Mach :=
  { m with mbx := { m.mbx with
    busy := false, done := true, seq := m.mbx.seqin, result := result, rlen := rsp.length % 256, rsp := rsp, req := [] } }

/-- A request that breaks the protocol completes, and raises MGMT (R330, R492). -/
def Mach.mbxBad (m : Mach) (result : Nat) : Mach := (m.mbxDone result []).raiseOwn 0 12 none

/-- One byte of a private write (R491, R492). -/
def Mach.mbxPut (m : Mach) (b : BitVec 8) : Mach :=
  let x := m.mbx
  let y := { x with off := (x.off + 1) % 256 }
  if x.off = 0x04 then
    if x.busy then { m with mbx := { y with overrun := true } }
    else
      let m1 := { m with mbx := { y with busy := true, done := false, overrun := false, cmd := b.toNat } }
      if mbxCommands.contains b.toNat then m1 else m1.mbxBad 1
  else if x.off = 0x05 then { m with mbx := { y with seqin := b.toNat } }
  else if 0x10 ≤ x.off ∧ x.off < 0x80 then { m with mbx := { y with req := Tab.ins x.req x.off b } }
  else { m with mbx := y }

/-- A private write: the offset, then bytes (R491); nothing answers before start-up. -/
def Mach.mbxWrite (m : Mach) (off : Nat) (bs : List (BitVec 8)) : Mach :=
  if m.phase = .reset then m else bs.foldl Mach.mbxPut { m with mbx := { m.mbx with off := off % 256 } }

/-- STATUS (R492). ERRN is the level of ERR_N, which the board may pull low too: free while the device does not drive it. -/
def Mach.mbxStatus (m : Mach) (pin : Bool) : BitVec 8 :=
  let x := m.mbx
  let w := setBit (setBit (setBit 0 0 x.busy) 1 x.done) 3 x.overrun
  (setBit (setBit w 4 (decide (m.phase = .caldera))) 5 (! m.errDriven && pin)).setWidth 8

/-- A byte of the mailbox as a read returns it; `free` where the spec gives the offset no contents. -/
def Mach.mbxByte (m : Mach) (off : Nat) (free : BitVec 8) : BitVec 8 :=
  let x := m.mbx
  if off = 0x00 then m.mbxStatus free.msb
  else if off = 0x01 then BitVec.ofNat 8 x.seq
  else if off = 0x02 then BitVec.ofNat 8 x.result
  else if off = 0x03 then BitVec.ofNat 8 x.rlen
  else if off < 0x80 then (if off = 0x04 ∨ off = 0x05 ∨ 0x10 ≤ off then 0 else free)
  else (x.rsp[off - 0x80]?).getD free

/-- A private read of `n` bytes from the offset (R491). -/
def Mach.mbxRead (m : Mach) (n : Nat) : Mach :=
  if m.phase = .reset then m
  else
    let (fs, m1) := m.freeBytes n
    { m1 with
      busOut := fs.zipIdx.map (fun p => m.mbxByte ((m.mbx.off + p.2) % 256) p.1)
      mbx := { m.mbx with off := (m.mbx.off + n) % 256 } }

/-! ### Mailbox commands -/

/-- The `n` request bytes as a number, little-endian. -/
def Mach.mbxReq (m : Mach) (n : Nat) : Nat :=
  (List.range n).foldr (fun i v => (Tab.get 0 m.mbx.req (0x10 + i)).toNat + 256 * v) 0

/-- 64-bit words as response bytes, little-endian. -/
def rspWords (ws : List W64) : List (BitVec 8) :=
  ws.flatMap (fun w => (List.range 8).map (fun i => BitVec.ofNat 8 (fld w (8 * i) 8)))

/-- Whether I3C_ALLOW lets a command run (R493). -/
def Mach.mbxAllowed (m : Mach) (code : Nat) : Bool :=
  let v := m.reg 0 6 0x40
  if code = 0x10 then bit v 0
  else if code = 0x11 then bit v 1
  else if code = 0x12 then bit v 2 || decide (m.phase = .caldera)
  else if code = 0x13 then bit v 3
  else true

/-- The Sytum serves the request under way, where it is command `code` with `n` bytes of request data (R492, R493, R536). -/
def Mach.mbxServe (m : Mach) (code n : Nat) (f : Mach → Mach) : Mach :=
  if ! m.mbx.busy ∨ m.mbx.cmd ≠ code ∨ m.phase = .reset then m
  else if m.phase = .bootStop ∧ ! [0x01, 0x04, 0x05, 0x12].contains code then m.mbxDone 5 []
  else if ! m.mbxAllowed code then m.mbxDone 3 []
  else if (List.range n).any (fun i => (m.mbx.req.lookup (0x10 + i)).isNone) then m.mbxBad 2
  else f m

/-- GET_STATUS (R493): boot phase, FC_STATUS, pair state, secure-world state, highest die temperature, package power. -/
def Mach.mbxGetStatus (m : Mach) : Mach :=
  let m1 := m.drawn
  m1.mbxDone 0 (rspWords [setFld 0 0 4 (fld m.bootStatus 0 4), m.fcStatus (bit m.fresh 0), BitVec.ofNat 64 m.pairState,
    setFld 0 0 3 (m.regFld 0 0 0x700 0 3), setFld 0 0 12 m.hottest.2, setFld 0 0 10 (m.regFld 0 1 0x48 0 10)])

/-- GET_FE. -/
def Mach.mbxGetFe (m : Mach) : Mach :=
  m.mbxDone 0 (rspWords ([0x100, 0x108, 0x110, 0x118, 0x180, 0x190, 0x198].map (fun o => m.reg 0 2 o)))

/-- GET_PEND. -/
def Mach.mbxGetPend (m : Mach) : Mach := m.mbxDone 0 (rspWords ((List.range 8).map (fun n => m.fcBits n FcSrc.pend)))

/-- The contents of a start-up record (R546), each list with its length in front. -/
def BootRec.nums (r : BootRec) : List Nat :=
  let two := fun (l : List (Nat × Nat)) => l.length :: l.flatMap (fun p => [p.1, p.2])
  two r.phases ++ two r.training ++ two r.rejects ++ (r.hppr.length :: r.hppr) ++ (r.meas.length :: r.meas.map BitVec.toNat) ++ [r.cause]

/-- GET_BOOTLOG (R493, R546). -/
def Mach.mbxBootLog (m : Mach) : Mach :=
  let c := m.mbxReq 1
  let r := (if c < 128 then m.bootRec else m.prevRec).nums
  m.mbxDone 0 ((List.range 128).map (fun i => Config.bootRecordByte r (c % 128 * 128 + i)))

/-- The master that READ_REG reads as (R493). -/
def mbxMaster : Master := ⟨0, 0x3F, .host, 0, false⟩

/-- READ_REG (R28, R493): a block without power answers only what its router holds; RP_CFG_DATA, whose read is a request on the link, is not
answered (log entry 27). -/
def Mach.mbxReadReg (m : Mach) : Mach :=
  let a := m.mbxReq 8
  match m.locate a with
  | .window st k off =>
    if a % 8 ≠ 0 then m.mbxDone 6 []
    else if (! m.answers st k || (decide (m.phase = .caldera) && (domainOf st k).isSome)) && ! alwaysRead off then m.mbxDone 5 []
    else if (match winBlk st k with
        | some (.rp, _) => decide (off = 0x60)
        | _ => false) then m.mbxDone 5 []
    else
      let (v, m1) := m.ctlRead mbxMaster st k off
      m1.mbxDone 0 (rspWords [v])
  | _ => m.mbxDone 6 []

/-- CLEAR_FE. -/
def Mach.mbxClearFe (m : Mach) : Mach := m.feClear.mbxDone 0 []

/-- SET_PLIMIT (R493, R524): a limit out of range is rejected as a write of it is. -/
def Mach.mbxPlimit (m : Mach) : Mach :=
  let w := m.mbxReq 2
  if m.limitOk w then (m.plimit w).mbxDone 0 [] else (m.plimit w).mbxBad 2

/-- A chip warm reset begins (R541, R544): one that is under way already is joined. -/
def Mach.startWarm (m : Mach) (why : Nat) : Mach :=
  if m.phase = .reset ∨ m.warm then m else { m with warm := true, warmWhy := why }

/-- CHIP_RESET (R493): the reset begins 1 ms after DONE. -/
def Mach.mbxChipReset (m : Mach) : Mach :=
  if m.mbxReq 2 ≠ 0x5E7A then m.mbxDone 4 [] else { m.mbxDone 0 [] with dt := m.dt + 1000000 }.startWarm 2

/-- CALDERA (R344, R493). -/
def Mach.mbxCaldera (m : Mach) : Mach :=
  if m.mbxReq 2 ≠ 0xCA1D then m.mbxDone 4 [] else (m.mbxDone 0 []).caldera 3 0 false false

/-! ### The I3C target -/

/-- The static address (R491). -/
def Mach.i3cStatic (m : Mach) : Nat := if bit (m.pairReg 0x90) 5 then 0x63 else 0x62

/-- A reply of `n` bytes whose values the spec does not give (R491). -/
def Mach.i3cReply (m : Mach) (n : Nat) : Mach :=
  let (bs, m1) := m.freeBytes n
  { m1 with busOut := bs }

/-- A dynamic address is assigned to a target that has none. -/
def Mach.i3cAssign (m : Mach) (a : Nat) : Mach :=
  if m.mbx.dyn.isSome then m else { m with mbx := { m.mbx with dyn := some (a % 128) } }

/-! ### Debug -/

/-- The master that a core's control access is made by. -/
def Mach.coreMaster (m : Mach) (c : Nat) : Master := ⟨coreStop c, coreUnit c, (m.core c).world, (m.core c).vmid, false⟩

/-- The cores whose windows a grant's range covers (R495), through core `c`'s translation. -/
def Mach.dbgScope (m : Mach) (c : Nat) (g : Grant) : List Nat :=
  let lo := (g.base + 4095) / 4096
  ((List.range (g.limit / 4096 - lo)).filterMap (fun i =>
    match m.translate c ⟨true, false, false⟩ true ((lo + i) * 4096) with
    | .ok (pa, _, _) => (match m.locate pa with
      | .window st k _ => coreAt st k
      | _ => none)
    | .error _ => none)).dedup

/-- A CTLW of OPEN by core `c` through capability `cap` (R495). -/
def Mach.dbgOpen (m : Mach) (c : Nat) (cap : Word) : Mach :=
  match m.live c cap .ctlwr 0 0 with
  | .ok (g, pa, m1) =>
    if g.otype = 0 ∧ g.has .DBG then { m1 with dbg := some ⟨pa, m1.dbgScope c g⟩ } else m1.raiseOwn 0 11 none
  | .error _ => m.raiseOwn 0 11 none

/-- DBGACC acts on core `c` (R495): a session is open, the core is in its scope and not in the SECURE world. -/
def Mach.dbgAct (m : Mach) (c : Nat) (f : Mach → Mach) : Mach :=
  match m.dbg with
  | none => m
  | some d =>
    if m.phase ≠ .run ∨ m.jtag ≠ 0x10 ∨ ! d.scope.contains c ∨ (m.core c).world = .secure ∨ ! m.answers (coreStop c) (coreWin c) then m
    else f m

/-- The debugger as a master. -/
def dbgMaster : Master := ⟨0, 0x3F, .host, 0, false⟩

/-- The next instruction of a STOPPED core is a single step (R495). -/
def Mach.dbgStep (m : Mach) (c : Nat) : Mach :=
  if (m.core c).st ≠ .stopped then m
  else m.setCore c { m.core c with st := .running, resumable := false, stepping := true }

/-- The general registers and then the state registers of a STOPPED core, shifted out with their TAG bits (R72, R495). -/
def Mach.dbgRead (m : Mach) (c : Nat) : Mach :=
  if (m.core c).st ≠ .stopped then m
  else { m with tapOut := (List.range 64).map (m.g c) ++ (List.range 15).filterMap (m.stateReg c) }

/-- The CTX_ register of a state register (R72, R148). -/
def ctxOffOf (n : Nat) : Option Nat :=
  match n with
  | 0 => some 0x80 | 1 => some 0xA0 | 2 => some 0xA8 | 3 => some 0x88 | 4 => some 0x90 | 5 => some 0x98 | 7 => some 0xB0 | _ => none

/-- A debugger's write of a general or state register of a STOPPED core, with TAG = 0 (R495); what R147 ignores is ignored. -/
def Mach.dbgWrite (m : Mach) (c : Nat) (state : Bool) (n : Nat) (v : W64) : Mach :=
  let x := m.core c
  if x.st ≠ .stopped then m
  else if ! state then m.setG c n (.plain v)
  else match ctxOffOf n with
    | some off => (match x.ctxWrite off (.plain v) with
      | some y => m.setCore c y.snap
      | none => m)
    | none => if (m.stateReg c n).isSome then m.setCore c (x.writeSr n v) else m

/-! ### Commands -/

/-- XSPI_READ (R490). -/
def execXspiRead (mst : Master) (len : Nat) (err : Bool) (s : State) : Out :=
  s.upd (fun m => m.window mst 0 5 0x48 (fun m => m.xspi 1 len err))

/-- XSPI_PROGRAM (R490). -/
def execXspiProgram (mst : Master) (len : Nat) (err : Bool) (s : State) : Out :=
  s.upd (fun m => m.window mst 0 5 0x48 (fun m => m.xspi 2 len err))

/-- XSPI_ERASE_4K (R490). -/
def execXspiErase4k (mst : Master) (err : Bool) (s : State) : Out :=
  s.upd (fun m => m.window mst 0 5 0x48 (fun m => m.xspi 3 0 err))

/-- XSPI_ERASE_64K (R490). -/
def execXspiErase64k (mst : Master) (err : Bool) (s : State) : Out :=
  s.upd (fun m => m.window mst 0 5 0x48 (fun m => m.xspi 4 0 err))

/-- GET_STATUS (R493). -/
def execGetStatus (s : State) : Out := s.upd (fun m => m.mbxServe 0x01 0 Mach.mbxGetStatus)

/-- GET_FE (R493). -/
def execGetFe (s : State) : Out := s.upd (fun m => m.mbxServe 0x02 0 Mach.mbxGetFe)

/-- GET_PEND (R493). -/
def execGetPend (s : State) : Out := s.upd (fun m => m.mbxServe 0x03 0 Mach.mbxGetPend)

/-- GET_BOOTLOG (R493). -/
def execGetBootlog (s : State) : Out := s.upd (fun m => m.mbxServe 0x04 1 Mach.mbxBootLog)

/-- READ_REG (R493). -/
def execReadReg (s : State) : Out := s.upd (fun m => m.mbxServe 0x05 8 Mach.mbxReadReg)

/-- CLEAR_FE (R493). -/
def execClearFe (s : State) : Out := s.upd (fun m => m.mbxServe 0x10 0 Mach.mbxClearFe)

/-- SET_PLIMIT (R493). -/
def execSetPlimit (s : State) : Out := s.upd (fun m => m.mbxServe 0x11 2 Mach.mbxPlimit)

/-- CHIP_RESET (R493). -/
def execChipReset (s : State) : Out := s.upd (fun m => m.mbxServe 0x12 2 Mach.mbxChipReset)

/-- CALDERA (R493). -/
def execCaldera (s : State) : Out := s.upd (fun m => m.mbxServe 0x13 2 Mach.mbxCaldera)

/-- MAILBOX_WRITE (R491, R492). -/
def execMailboxWrite (off : Nat) (bs : List (BitVec 8)) (s : State) : Out := s.upd (fun m => m.mbxWrite off bs)

/-- MAILBOX_READ (R491). -/
def execMailboxRead (n : Nat) (s : State) : Out := s.upd (fun m => m.mbxRead n)

/-- ENTDAA (R491). -/
def execEntdaa (a : Nat) (s : State) : Out := s.upd (fun m => m.i3cAssign a)

/-- SETDASA (R491): static address `sa`. -/
def execSetdasa (sa a : Nat) (s : State) : Out := s.upd (fun m => if sa = m.i3cStatic then m.i3cAssign a else m)

/-- RSTDAA (R491). -/
def execRstdaa (s : State) : Out := s.upd (fun m => { m with mbx := { m.mbx with dyn := none } })

/-- GETPID (R491). -/
def execGetpid (s : State) : Out := s.upd (fun m => m.i3cReply 6)

/-- GETBCR (R491). -/
def execGetbcr (s : State) : Out := s.upd (fun m => m.i3cReply 1)

/-- GETDCR (R491). -/
def execGetdcr (s : State) : Out := s.upd (fun m => m.i3cReply 1)

/-- I3C_GETSTATUS (R491). -/
def execI3cGetstatus (s : State) : Out := s.upd (fun m => m.i3cReply 2)

/-- DBG_SESS_OPEN (R495). -/
def execDbgSessOpen (c : Nat) (cap : Word) (s : State) : Out :=
  s.upd (fun m => m.window (m.coreMaster c) 0 7 0x40 (fun m => m.dbgOpen c cap))

/-- DBG_SESS_CLOSE (R495). -/
def execDbgSessClose (mst : Master) (s : State) : Out := s.upd (fun m => m.window mst 0 7 0x40 (fun m => { m with dbg := none }))

/-- DBG_STOP (R495). -/
def execDbgStop (c : Nat) (vec : Bool) (s : State) : Out := s.upd (fun m => m.dbgAct c (fun m => m.stopCmd dbgMaster c vec))

/-- DBG_RESUME (R495). -/
def execDbgResume (c : Nat) (s : State) : Out := s.upd (fun m => m.dbgAct c (fun m => m.resumeCmd dbgMaster c))

/-- DBG_STEP (R495): the core's next instruction command is its step. -/
def execDbgStep (c : Nat) (s : State) : Out := s.upd (fun m => m.dbgAct c (fun m => m.dbgStep c))

/-- DBG_READ_REGS (R495). -/
def execDbgReadRegs (c : Nat) (s : State) : Out := s.upd (fun m => m.dbgAct c (fun m => m.dbgRead c))

/-- DBG_WRITE_REGS (R495). -/
def execDbgWriteRegs (c : Nat) (state : Bool) (n : Nat) (v : W64) (s : State) : Out :=
  s.upd (fun m => m.dbgAct c (fun m => m.dbgWrite c state n v))

/-- EXTEST (R494). -/
def execExtest (s : State) : Out := s.upd (fun m => { m with jtag := 0x00 })

/-- IDCODE (R494): the identification is shifted out. -/
def execIdcode (s : State) : Out := s.upd (fun m => { m with jtag := 0x01, tapOut := [.plain 0x191444F3] })

/-- SAMPLE (R494). -/
def execSample (s : State) : Out := s.upd (fun m => { m with jtag := 0x02 })

/-- HIGHZ (R494). -/
def execHighz (s : State) : Out := s.upd (fun m => { m with jtag := 0x03 })

/-- CLAMP (R494). -/
def execClamp (s : State) : Out := s.upd (fun m => { m with jtag := 0x04 })

/-- EXTEST_PULSE (R494). -/
def execExtestPulse (s : State) : Out := s.upd (fun m => { m with jtag := 0x05 })

/-- EXTEST_TRAIN (R494). -/
def execExtestTrain (s : State) : Out := s.upd (fun m => { m with jtag := 0x06 })

/-- DBGACC (R494, R495). -/
def execDbgacc (s : State) : Out := s.upd (fun m => { m with jtag := 0x10 })

/-- BYPASS (R494). -/
def execBypass (s : State) : Out := s.upd (fun m => { m with jtag := 0xFF })

end Sys2Proof.Machine
end

