-- ==== Sys2Proof/Machine/Fum.lean ====
section
/-!
DEFINITION. Counter banks and Fumarole windows as commands (R504 to R507).
-/

namespace Sys2Proof.Machine

/-! ### Overflow bits -/

/-- Offsets of the control and overflow registers of the bank in window `k` of stop `st` (R507); none where the window holds none. -/
def counterBank (st k : Nat) : Option (Nat × Nat) :=
  if (coreAt st k).isSome then some (0x400, 0x408)
  else if k ≠ 0 ∧ k = pmuWin st then some (0x40, 0x48) else none

/-- A W1C of overflow bits: a bank resumes once none is set (R504, R505). -/
def Mach.ovfClear (m : Mach) (st k : Nat) (v : W64) : Mach :=
  match counterBank st k with
  | none => m
  | some (ctrl, ovf) =>
    let left := m.regFld st k ovf 0 8 &&& (255 - fld v 0 8)
    let m1 := m.setReg st k ovf (setFld 0 0 8 left)
    if left = 0 then m1.setRegBit st k ctrl 2 false else m1

/-! ### Fumarole windows -/

/-- FUM_CFG of a complex. -/
def Mach.fumCfg (m : Mach) (px : Nat) : W64 := m.reg (pxStop px) 0x23 0x380

/-- A write of FUM_CFG (R507): out of range, it is ignored whole; else the window in progress is discarded. -/
def Mach.fumCfgWrite (m : Mach) (px : Nat) (v : W64) : Mach :=
  let p := fld v 0 32
  if p < 1000 ∨ 1000000000 < p then m
  else { m.setReg (pxStop px) 0x23 0x380 (setBit (setFld (setFld 0 0 32 p) 32 8 (fld v 32 8)) 63 (bit v 63)) with
    fumSkip := insNat m.fumSkip px }

/-- A port's counts of the window that ends (R507): they are latched and its peaks raised. -/
def Mach.fumLatch (m : Mach) (px j : Nat) : Mach :=
  let st := pxStop px
  let x := m.port (px * 32 + j)
  let o := 0x20 * j
  let img := fun (p : Nat × Nat) => setFld (setFld 0 0 40 p.1) 40 24 p.2
  let old := m.reg st 0x23 (0x410 + o)
  let peak := setFld (setFld 0 0 32 (max (fld old 0 32) x.rx.1)) 32 32 (max (fld old 32 32) x.tx.1)
  ((m.setReg st 0x23 (0x400 + o) (img x.rx)).setReg st 0x23 (0x408 + o) (img x.tx)).setReg st 0x23 (0x410 + o) peak

/-- A port's counts begin anew. -/
def Mach.fumZero (m : Mach) (px j : Nat) : Mach :=
  m.setPort (px * 32 + j) { m.port (px * 32 + j) with rx := (0, 0), tx := (0, 0) }

/-- Device time reaches the next multiple of PERIOD (R506, R507); a window that was discarded leaves nothing but a fresh start. -/
def Mach.fumBoundary (m : Mach) (px : Nat) : Mach :=
  let cfg := m.fumCfg px
  let p := fld cfg 0 32
  if 4 ≤ px ∨ ! bit cfg 63 ∨ p = 0 ∨ ! m.answers (pxStop px) 0x23 then m
  else
    let t := (m.dt / p + 1) * p
    let m1 := { m with dt := t, fumSkip := m.fumSkip.filter (fun q => decide (q ≠ px)) }
    let m2 := if m.fumSkip.contains px then m1
      else ((List.range 32).foldl (fun acc j => acc.fumLatch px j) m1).setReg (pxStop px) 0x23 0x388 (BitVec.ofNat 64 t)
    (List.range 32).foldl (fun acc j => acc.fumZero px j) m2

/-- A write of FUM_CLRPEAK (R507). -/
def Mach.fumClrPeak (m : Mach) (px : Nat) (v : W64) : Mach :=
  (List.range 32).foldl (fun acc j => if bit v j then acc.setReg (pxStop px) 0x23 (0x410 + 0x20 * j) 0 else acc) m

/-! ### Commands -/

/-- PMC_OVF_CLEAR (R505), of the bank in window `k` of stop `st`. -/
def execPmcOvfClear (mst : Master) (st k : Nat) (v : W64) (s : State) : Out :=
  s.upd (fun m => match counterBank st k with
    | none => m
    | some (_, ovf) => m.window mst st k ovf (fun m => m.ovfClear st k v))

/-- FUM_CFG_WRITE (R507). -/
def execFumCfgWrite (mst : Master) (px : Nat) (v : W64) (s : State) : Out :=
  s.upd (fun m => if 4 ≤ px then m else m.window mst (pxStop px) 0x23 0x380 (fun m => m.fumCfgWrite px v))

/-- FUM_CLRPEAK (R507). -/
def execFumClrpeak (mst : Master) (px : Nat) (v : W64) (s : State) : Out :=
  s.upd (fun m => if 4 ≤ px then m else m.window mst (pxStop px) 0x23 0x390 (fun m => m.fumClrPeak px v))

/-- FUMAROLE_BOUNDARY (R507). -/
def execFumaroleBoundary (px : Nat) (s : State) : Out := s.upd (fun m => m.fumBoundary px)

end Sys2Proof.Machine
end

