-- ==== Sys2Proof/Machine/Boot.lean ====
section
/-!
DEFINITION. Start-up and chip resets (R10, R246, R285 to R287, R293, R346, R413, R440, R516, R527 to R546). Start-up is one step; what it reads
from outside is its operand.
-/

namespace Sys2Proof.Machine

/-! ### The boot status -/

/-- A field of SYT_BOOT_STATUS. -/
def Mach.bootFld (m : Mach) (lo n x : Nat) : Mach := m.setRegFld 0 0 0x40 lo n x

/-- A boot stop (R536). -/
def Mach.bootStop (m : Mach) (why : Nat) : Mach :=
  ({ m with phase := .bootStop, caldLow := true, warm := false }.bootFld 0 4 15).bootFld 8 4 why

/-! ### Fuses -/

/-- The fuse words of the field from word `lo` as one number, the first word lowest. -/
def Mach.fuseWords (m : Mach) (lo n : Nat) : Nat := (List.range n).foldr (fun i v => Tab.get 0 m.fuses (lo + i) + 2 ^ 32 * v) 0

/-- POLICY (R530). -/
def Mach.policy (m : Mach) (i : Nat) : Bool := (Tab.get 0 m.fuses 226).testBit i

/-- The security version (R530). -/
def Mach.svn (m : Mach) : Nat := ((List.range 64).filter (fun i => (m.fuseWords 227 2).testBit i)).length

/-- Whether a key hash is that of an unrevoked slot (R534 step 2). -/
def Mach.keyOk (m : Mach) (h : Nat) : Bool := (List.range 4).any (fun k => ! m.policy k && decide (m.fuseWords (178 + 12 * k) 12 = h))

/-- The fuse array is read (R530, R531); each corrected word raises the Sytum's CE source. -/
def Mach.readFuses (m : Mach) (b : BootIn) : Mach :=
  b.fuseCe.foldl (fun acc _ => acc.raiseOwn 0 1 none)
    { m with
      fuses := b.fuses.foldl (fun (t : List (Nat × Nat)) p => if p.1 < 512 then Tab.set 0 t p.1 (p.2 % 2 ^ 32) else t) []
      fuseCe := b.fuseCe
      fuseUe := b.fuseUe }

/-- Whether every unit of domain `d` that DISABLE names is fused off (R516, R530). -/
def Mach.domFused (m : Mach) (d : Nat) : Bool :=
  let all := fun (lo n : Nat) => (List.range n).all (fun i => m.disabled (lo + i))
  if d < 36 then all (4 * d) 4 else if d < 40 then all (144 + 8 * (d - 36)) 8 else if d < 44 then all (176 + 32 * (d - 40)) 32
  else if d < 46 then all (352 + 16 * (d - 44)) 16 else if d < 48 then m.disabled (384 + (d - 46)) else false

/-! ### The image -/

/-- Image fields that stand behind a selection register, by block and offset; the selection's reset value 0 names what an entry sets (R533). -/
def behindSel (b : Blk) (off : Nat) : W64 :=
  match b with
  | .fc => if off = 0x58 then 0x3F else 0
  | .syt => if off = 0x688 then 0x3F else 0
  | .vqf => if off = 0x48 then 0x3FFFFFF else if off = 0x50 then 0x7FF03FF03FF else if off = 0x58 ∨ off = 0x60 then BitVec.allOnes 64 else 0
  | .mc | .l3h => if off = 0x338 then 0x800000FFFFFFFFFF else 0
  | _ => 0

/-- The image bits of a register (R10, R21). -/
def imageBits (b : Blk) (off : Nat) : W64 :=
  if off = 0x08 then 1
  else match findReg b off with
    | some r => r.image ||| behindSel b off
    | none => behindSel b off

/-- Whether a REGS entry names an image field of an implemented window (R534 step 5). -/
def Mach.entryOk (m : Mach) (p : Nat × W64) : Bool :=
  match m.locate p.1 with
  | .window st k off =>
    (match winBlk st k with
    | some (b, _) => decide (off % 8 = 0) && decide (imageBits b off ≠ 0)
    | none => false)
  | _ => false

/-- A source takes a reaction set of the image; one that would give BRST where it may not be set is ignored (R333). -/
def Mach.imageReact (m : Mach) (p : Nat × Nat) : Mach :=
  if ! srcReal p.1 ∨ (p.2.testBit 2 ∧ ! srcRstOk p.1) then m else m.setFc p.1 { m.fc p.1 with react := p.2 % 64 }

/-- One entry of REGS (R533, R535). -/
def Mach.applyReg (m : Mach) (p : Nat × W64) : Mach :=
  match m.locate p.1 with
  | .window st k off =>
    (match winBlk st k with
    | none => m
    | some (b, i) =>
      let v := p.2 &&& imageBits b off
      let x := m.vqf i 0
      if off = 0x08 then m.setBlk st k { m.blk st k with enable := bit v 0 }
      else match b with
        | .vqf =>
          if off = 0x48 then m.setVqf i 0 { x with cfg := v }
          else if off = 0x50 then m.setVqf i 0 { x with share := v }
          else if off = 0x58 then m.setVqf i 0 { x with ports0 := v }
          else m.setVqf i 0 { x with ports1 := v }
        | .fc => m.imageReact (0, v.toNat)
        | _ =>
          if off = 0x688 then { m with slt := Tab.ins m.slt 0 v.toNat }
          else if off = 0x338 then { m with remaps := Tab.set 0 m.remaps ((st * 256 + k) * 16) v }
          else
            let s := if b = .epn ∧ off = 0x80 then leStop 0 else st
            m.setReg s k off ((m.reg s k off &&& ~~~ imageBits b off) ||| v))
  | _ => m

/-- Values that stand where no entry sets the field (R10 with the registers' own tables): the power limit of the grade, TMO, PERIOD, the default
role map, and the ceilings. -/
def Mach.imageDefaults (m : Mach) : Mach :=
  let m1 := ((((m.setRegFld 0 1 0x40 0 10 (if m.isXa then 420 else 500)).setRegFld 0 0 0x710 0 10 10).setRegFld 0 1 0x48 16 12 3400).setRegFld
    0 8 0x48 32 12 3400)
  let m2 := (List.range 6).foldl (fun acc i => acc.setRegFld (mcStop i) 0 0x340 8 8 24) m1
  (List.range 32).foldl (fun acc n => acc.setReg (leStop (if m.policy 7 then 1 else 0)) 1 (0x100 + 8 * n) (BitVec.allOnes 64)) m2

/-- A remap entry of the image (R324): stop, window, index, value. -/
def remapOk (p : Nat × Nat × Nat × W64) : Bool :=
  match winBlk p.1 p.2.1 with
  | some (.mc, _) => decide (p.2.2.1 < 16)
  | some (.l3h, _) => decide (p.2.2.1 < 8)
  | _ => false

/-- Whether the slice table of the image names 512 present slices (R246). -/
def Mach.sltOk (m : Mach) (s : SlotIn) : Bool :=
  match s.slt with
  | none => true
  | some l => decide (l.length = 512) && l.all (fun p => m.slicesPresent.contains p)

/-- The image in registers and tables before the domains have power (R533, R535). -/
def Mach.applyImage (m : Mach) (s : SlotIn) : Mach :=
  let m0 := { m with
    fcSrc := m.fcSrc.foldl (fun (t : List (Nat × FcSrc)) (p : Nat × FcSrc) => Tab.set (FcSrc.fresh p.1) t p.1 { p.2 with react := (srcInfo p.1).2 }) []
    slt := match s.slt with
      | some l => l.zipIdx.map (fun (p : Nat × Nat) => (p.2, p.1))
      | none => [] }
  let m1 := s.react.foldl Mach.imageReact (s.regs.foldl Mach.applyReg m0.imageDefaults)
  { m1 with remaps := s.remaps.foldl (fun (t : List (Nat × W64)) (p : Nat × Nat × Nat × W64) =>
      Tab.set 0 t ((p.1 * 256 + p.2.1) * 16 + p.2.2.1) (p.2.2.2 &&& behindSel .mc 0x338)) m1.remaps }

/-! ### Checks of a slot -/

/-- The enabled carve-outs with their numbers (R223). -/
def Mach.carveList (m : Mach) : List (Nat × Nat × Nat) :=
  ((List.range 16).filter (fun n => bit (m.reg 0 9 (0x100 + 0x10 * n)) 0)).map (fun n =>
    (n, m.regFld 0 9 (0x100 + 0x10 * n) 21 31 * 0x200000, m.regFld 0 9 (0x108 + 0x10 * n) 21 31 * 0x200000))

/-- Whether the carve-outs are valid in interleaved DRAM of `size` bytes (R223): none empty, none overlapping, none beyond the DRAM installed; the gate-descriptor page
lies in carve-out 0. -/
def Mach.carveOk (m : Mach) (size : Nat) : Bool :=
  let l := m.carveList
  let page := m.regFld 0 9 0x200 12 40 * 4096
  l.all (fun x => decide (x.2.1 < x.2.2) && decide (x.2.2 ≤ size)
      && l.all (fun y => decide (x.1 = y.1) || decide (x.2.2 ≤ y.2.1) || decide (y.2.2 ≤ x.2.1)))
    && (decide (page = 0) || l.any (fun x => decide (x.1 = 0) && decide (x.2.1 ≤ page) && decide (page < x.2.2)))

/-- Lanes of a root port by its code; 0 for OFF (R474). -/
def bifLanes (n : Nat) : Nat := if n = 0 then 0 else 2 ^ n

/-- Whether the layout of a group is valid (R474). -/
def Mach.bifOk (m : Mach) (h : Nat) : Bool :=
  let code := fun (k : Nat) => m.regFld (hioStop h) 0 0x40 (3 * k) 3
  (List.range 16).all (fun k => decide (code k ≤ 4) && (decide (code k = 0) ||
    (decide (2 * k % bifLanes (code k) = 0) && decide (2 * k + bifLanes (code k) ≤ 32)
      && (List.range 16).all (fun j => decide (j ≤ k) || decide (code j = 0) || decide (2 * k + bifLanes (code k) ≤ 2 * j)))))

/-- Whether a channel takes part in start-up: the fuses leave it, and the image enables it. -/
def Mach.chanOn (m : Mach) (ch : Nat) : Bool := (m.blk (chanStop ch) (dphyWin ch)).enable && ! m.fusedOff (chanStop ch) (dphyWin ch)

/-- How channel `ch` trains. -/
def BootIn.chan (b : BootIn) (ch : Nat) : TrainIn := (b.train[ch]?).getD ⟨0, 0, false, 0, 0, []⟩

/-- The interleaved DRAM that the image asks for on the populated channels. -/
def Mach.installed (m : Mach) (b : BootIn) : Nat :=
  let l := (List.range 12).filter (fun ch => m.chanOn ch && decide ((b.chan ch).gib ≠ 0) && decide ((b.chan ch).why ≠ 1) && decide ((b.chan ch).why ≠ 2))
  l.foldl (fun n ch => n + m.regFld (chanStop ch) (dphyWin ch) 0x48 32 10 * 2 ^ 30) 0

/-- Steps 1 to 5 of R534: REASON of the first failure, 0 where none fails. -/
def Mach.slotWhy (m : Mach) (s : SlotIn) : Nat :=
  if ! s.format then 4
  else if ! m.keyOk s.keyHash then 5
  else if ! s.sigOk then 6
  else if s.version < m.svn then 7
  else if ! (s.sections && s.regs.all m.entryOk && m.sltOk s && s.remaps.all remapOk) then 4
  else 0

/-- Steps 6 and 7 of R534, on the image as applied. -/
def Mach.layoutWhy (m : Mach) (b : BootIn) : Nat :=
  if ! m.carveOk (m.installed b) then 8 else if ! (m.bifOk 0 && m.bifOk 1) then 9 else 0

/-! ### Domains -/

/-- Domains stand in their image state; one that is fused off is FUSED (R516, R517). What a domain without power held is lost (R186). -/
def Mach.startDomains (m : Mach) : Mach :=
  let m1 := (List.range 49).foldl (fun acc d =>
    acc.setDom d (if acc.domFused d then 4 else if acc.domState d = 1 then 1 else 0)) m
  let m2 := (List.range 4).foldl (fun acc k => if acc.domState (36 + k) = 1 then acc else acc.loseCm k) m1
  (List.range 176).foldl (fun acc c => acc.resetCore c) m2

/-- Links and ports that the image enables begin to train (R349, R423). -/
def Mach.startLinks (m : Mach) : Mach :=
  let m1 := [0, 1].foldl (fun (acc : Mach) l => acc.setRegFld (leStop l) 1 0x48 0 2 (acc.regFld (leStop l) 1 0x40 0 1)) m
  (List.range 128).foldl (fun acc q => if (acc.blk (portStop q) (portWin q)).enable then acc.relock q else acc) m1

/-! ### DRAM -/

/-- The contents of channel `ch` are undefined: no region of it is initialised (R538). -/
def Mach.loseChannel (m : Mach) (ch : Nat) : Mach :=
  let mine := fun (a : Nat) => match m.locate a with
    | .dram | .pinned _ => decide ((m.channelOf a).1 = ch)
    | _ => false
  { m with
    mem := m.mem.filter (fun p => ! mine p.1)
    mmeta := m.mmeta.filter (fun p => ! mine (p.1 * 8))
    upsets := m.upsets.filter (fun u => ! mine u.pa)
    regions := Tab.del m.regions ch }

/-- DPHY_STATUS after training: state, path, FAILWHY and the modules. -/
def Mach.trained (m : Mach) (ch state path why mods : Nat) : Mach :=
  let v := setFld (setFld 0 0 3 state) 3 9 mods
  m.setReg (chanStop ch) (dphyWin ch) 0x40 (setFld (setFld v 12 2 path) 16 4 why)

/-- Channel `ch` trains (R285, R302, R305, R537): by the resume path where it holds its contents. -/
def Mach.trainOne (m : Mach) (b : BootIn) (ch : Nat) : Mach :=
  let t := b.chan ch
  let s := m.chanState ch
  if ! m.chanOn ch then m.trained ch 0 0 (if m.fusedOff (chanStop ch) (dphyWin ch) then 0 else 6) t.mods
  else if m.dramKept ∧ (s = 2 ∨ s = 3) ∧ t.why ≠ 3 then m.trained ch 2 3 0 t.mods
  else if t.why = 1 ∨ t.why = 2 then m.trained ch 0 0 t.why (t.mods / 4 * 4 + 3)
  else if t.gib = 0 then m.trained ch 0 0 0 0
  else
    let path := if m.policy 6 && t.stored then 2 else 1
    let m1 := (m.loseChannel ch).setRegFld (chanStop ch) (dphyWin ch) 0x48 0 10 t.gib
    if t.why = 3 then (m1.trained ch 4 path 3 t.mods).raiseOwn (chanStop ch) 4 none else m1.trained ch 2 path 0 t.mods

/-- The channels in state ACTIVE. -/
def Mach.activeChans (m : Mach) : List Nat := (List.range 12).filter (fun ch => decide (m.chanState ch = 2))

/-- Every channel trains; the rate and the TC0 bounds follow (R285, R300, R307). -/
def Mach.trainAll (m : Mach) (b : BootIn) : Mach :=
  let m1 := (List.range 12).foldl (fun acc ch => acc.trainOne b ch) m
  (List.range 6).foldl (fun acc i =>
    let st := mcStop i
    let on := acc.activeChans.any (fun ch => decide (ch / 2 = i))
    let a := acc.setRegFld st 0 0x40 16 16 b.rate
    let a := a.setRegFld st 0 0x40 1 1 (if acc.tagonly then 1 else 0)
    (a.setRegFld st 0 0x50 0 12 (max (b.chan (2 * i)).bound (b.chan (2 * i + 1)).bound)).setRegBit st 0 0x50 12 on) m1

/-- The interleaved share of a channel in bytes (R286). -/
def Mach.share (m : Mach) (ch : Nat) : Nat := m.regFld (chanStop ch) (dphyWin ch) 0x48 32 10 * 2 ^ 30

/-- Whether channel `ch` fits under R286 and R293. -/
def Mach.chanFits (m : Mach) (ch : Nat) : Bool :=
  decide (m.share ch + m.reserve ch ≤ m.capacity ch)
    && decide (if m.tagonly then 9 * m.share ch ≤ 512 * m.reserve ch else 65 * m.share ch ≤ 512 * m.reserve ch)

/-- Step 8 of R534: every channel fits, with one share for all. -/
def Mach.channelsFit (m : Mach) : Bool :=
  m.activeChans.all (fun ch => m.chanFits ch && decide (m.share ch = m.share ((m.activeChans[0]?).getD 0)))

/-- The DRAM layout (R286, R287): kept over a chip warm reset (R304). -/
def Mach.layOut (m : Mach) : Mach :=
  let l := if m.dramKept ∧ m.dram.chans ≠ [] then m.dram
    else
      { chans := m.activeChans
        ilv := m.share ((m.activeChans[0]?).getD 0)
        pins := m.activeChans.foldl (fun t ch => Tab.set 0 t ch (m.capacity ch - m.reserve ch - m.share ch)) [] }
  let m1 := l.chans.zipIdx.foldl (fun (acc : Mach) p =>
    let st := chanStop p.1
    let k := dphyWin p.1
    (acc.setRegFld st k 0x48 16 10 (Tab.get 0 l.pins p.1 / 2 ^ 30)).setRegFld st k 0x48 48 4 p.2) { m with dram := l }
  (List.range 6).foldl (fun acc i => acc.setRegFld (mcStop i) 0 0x40 32 4 l.chans.length) m1

/-- Step 9 of R534: the boot payload, which holds the tables (R539), in interleaved DRAM outside every carve-out. -/
def Mach.payloadOk (m : Mach) (d : BootDesc) : Bool :=
  let z := d.load + 8 * d.payload.length
  decide (z ≤ m.dram.chans.length * m.dram.ilv) && m.carveList.all (fun c => decide (z ≤ c.2.1) || decide (c.2.2 ≤ d.load))

/-! ### The first core -/

/-- The first core (R539): the lowest present V-core of a pod that has power and is not held. -/
def Mach.firstCore (m : Mach) : Option Nat :=
  (List.range 144).find? (fun c => m.answers (coreStop c) (coreWin c) && ! bit m.holdImage (c / 4))

/-- The generation that entry `i` of core `c`'s table holds. -/
def Mach.entryGen (m : Mach) (c : Nat) (tsel : Bool) (i : Nat) : Nat :=
  match m.entry c tsel i with
  | .ok (g, _, _) => g.gen
  | .error _ => 0

/-- The payload is written and the first core released by a context restart (R146, R539). -/
def Mach.releaseFirst (m : Mach) (c : Nat) (d : BootDesc) : Mach :=
  let st := coreStop c
  let k := coreWin c
  let m1 := m.sytumWords d.load (d.payload.map Word.plain)
  let m2 := (m1.setReg st k 0x180 (d.s1 &&& 0x00FFFFFFFFFFFFFF)).setReg st k 0x188 (d.wtab &&& 0x0000FFFFFFFF0000)
  let x : Core := { m2.core c with
    s1 := d.s1 &&& 0x00FFFFFFFFFFFFFF, wtab := d.wtab &&& 0x0000FFFFFFFF0000, gtab := d.gtab &&& 0x0000FFFFFFFF0000, cmpid := 0 }
  let m3 := m2.setCore c x
  let cap := fun (p : Nat × Bool × Nat) => Word.cap p.2.2 p.1 p.2.1 (m3.entryGen c p.2.1 p.1)
  (m3.setCore c { x with
    pcc := cap d.pcc, link := cap d.link, savecap := m3.excCap c 0, evcap := m3.excCap c 1 }).restart c

/-! ### One slot -/

/-- How the attempt on a slot ends: released, rejected with a reason of R534, or stopped with another reason of R536. -/
inductive Tried where
  | up (m : Mach)
  | rejected (why : Nat) (m : Mach)
  | stopped (why : Nat) (m : Mach)

/-- The phases from SCRUB to release (R540 steps 7 to 9). -/
def Mach.bringUp (m : Mach) (b : BootIn) (d : BootDesc) : Tried :=
  let m1 := { m with holdImage := m.reg 0 0 0x718 }.scrub.secBring b.sec
  match m1.firstCore with
  | none => .stopped 13 m1
  | some c => .up (m1.releaseFirst c d)

/-- Start-up from the IMAGE phase with one slot (R534, R540 steps 4 to 9). -/
def Mach.trySlot (m : Mach) (b : BootIn) (second : Bool) : Tried :=
  let s := if second then b.slotB else b.slotA
  let m0 := m.bootFld 6 1 (if second then 1 else 0)
  if m0.slotWhy s ≠ 0 then .rejected (m0.slotWhy s) m0
  else
    let m1 := m0.applyImage s
    if m1.layoutWhy b ≠ 0 then .rejected (m1.layoutWhy b) m0
    else
      let m2 := m1.startDomains
      let m3 := { m2 with tagonly := if m2.dramKept then m2.tagonly else bit (m2.reg (mcStop 0) 0 0x40) 1 }.trainAll b
      if m3.activeChans.isEmpty then .stopped 12 m3
      else if ! m3.channelsFit then .rejected 10 m3
      else
        let m4 := m3.layOut
        if ! m4.payloadOk s.boot then .rejected 11 m4 else m4.startLinks.bringUp b s.boot

/-- What a rejection after training leaves for the attempt on the other slot: registers as before APPLY, and the channels as trained (R534). -/
def Mach.keepTraining (old new : Mach) : Mach :=
  (List.range 12).foldl (fun acc ch =>
    (acc.setReg (chanStop ch) (dphyWin ch) 0x40 (new.reg (chanStop ch) (dphyWin ch) 0x40)).setReg (chanStop ch) (dphyWin ch) 0x48
      (new.reg (chanStop ch) (dphyWin ch) 0x48 &&& 0x3FF))
    { old with mem := new.mem, mmeta := new.mmeta, upsets := new.upsets, regions := new.regions, reports := new.reports }

/-- The path field of SYT_BOOT_STATUS: 2 where channels resumed, 0 where one trained by the full path, else 1. -/
def Mach.pathOf (m : Mach) : Nat :=
  let src := fun (ch : Nat) => fld (m.dphy ch 0x40) 12 2
  if m.activeChans.any (fun ch => decide (src ch = 3)) then 2 else if m.activeChans.any (fun ch => decide (src ch = 1)) then 0 else 1

/-- The start-up record (R546); phase times are open. -/
def Mach.bootRecord (m : Mach) (b : BootIn) (cause : Nat) (rejects : List (Nat × Nat)) : Mach :=
  let r : BootRec := {
    phases := (List.range 8).map (fun i => (i + 1, (Config.freeValue (m.free + i)).toNat))
    training := (List.range 12).map (fun ch => (fld (m.dphy ch 0x40) 12 2, fld (m.dphy ch 0x40) 16 4))
    rejects := rejects
    hppr := (List.range 12).flatMap (fun ch => (b.chan ch).refused)
    meas := (List.range 6).map (fun i => m.reg 0 0 (0x740 + 8 * i))
    cause := cause }
  { m with bootRec := r, free := m.free + 8 }

/-- A full training leaves a new training record in its flash region (R537); its contents are open. -/
def Mach.writeTrainRec (m : Mach) (b : BootIn) : Mach :=
  if m.activeChans.any (fun ch => decide (fld (m.dphy ch 0x40) 12 2 = 1)) then
    let (bs, m1) := m.freeBytes b.trec.2
    m1.flashPut b.trec.1 bs
  else m

/-- The end of start-up: the device runs (R540 step 9). -/
def Mach.started (m : Mach) (b : BootIn) : Mach :=
  let m1 := { m with phase := .run, caldLow := false, warm := false, dramKept := false }
  (((m1.bootFld 0 4 8).bootFld 4 2 m.pathOf).bootFld 32 32 b.us).writeTrainRec b

/-- The reference of the start-up record and the last attempt's end. -/
def Tried.finish (t : Tried) (b : BootIn) (cause : Nat) (rejects : List (Nat × Nat)) (first : Option Nat) : Mach :=
  let note := fun (m : Mach) => ((m.bootRecord b cause rejects).bootFld 7 1 (if first.isSome then 1 else 0)).bootFld 8 4 (first.getD 0)
  match t with
  | .up m => (note m).started b
  | .rejected why m => (note m).bootStop (first.getD why)
  | .stopped why m => (note m).bootStop why

/-- The parameter table of the flash (R489). -/
def Mach.readFlashTable (m : Mach) (b : BootIn) : Mach := m.setReg 0 5 0x40 (setBit (setFld 0 0 10 b.mib) 16 b.susp)

/-- Start-up from the FUSE phase (R531, R532, R534, R540). -/
def Mach.startUp (m : Mach) (b : BootIn) : Mach :=
  let cause := if m.warm then m.warmWhy else 0
  let m0 := { m.readFuses b with dt := m.dt + b.us * 1000, prevRec := if m.warm then m.bootRec else .none }
  if b.fuseUe.any (fun w => decide (w < 229)) then (m0.bootRecord b cause []).bootStop 1
  else
    let m1 := m0.readFlashTable b
    if b.flash = 2 ∨ b.flash = 3 then (m1.bootRecord b cause []).bootStop b.flash
    else
      let bFirst := m1.policy 4
      match m1.trySlot b bFirst with
      | .rejected why m2 =>
        let slot := fun (x : Bool) => if x then 1 else 0
        if m1.policy 5 then
          match (m1.keepTraining m2).trySlot b (! bFirst) with
          | .rejected why2 m3 => (Tried.rejected why2 m3).finish b cause [(slot bFirst, why), (slot (! bFirst), why2)] (some why)
          | t => t.finish b cause [(slot bFirst, why)] (some why)
        else (Tried.rejected why m2).finish b cause [(slot bFirst, why)] (some why)
      | t => t.finish b cause [] none

/-! ### Chip warm reset -/

/-- Outputs of released records whose first bit has left are not sent again (R413): those of which a copy was read, or that a preemption cut. -/
def Mach.sentOuts (m : Mach) (q : Nat) (r : LRec) : LRec :=
  if r.st ≠ .released then r
  else { r with outs := r.outs.zipIdx.map (fun p =>
    let cut := m.ports.any (fun x => match x.2.cut with
      | some c => decide (c.2.1.queue = q) && decide (c.2.1.seq = r.seq) && decide (c.2.1.k = p.2)
      | none => false)
    if p.1.left < (m.copiesOf p.1).1.length ∨ cut then { p.1 with left := 0 } else p.1) }

/-- State entries for the records of an engine whose state is newer than the journal (R413). -/
def Mach.flushEngine (m : Mach) (e : Nat) : Mach := m.stateEntries e (m.changedRecs e) ((m.changedRecs e).length + 1)

/-- Steps 1 to 5 of R542: work in flight is settled (R30), engines flush, and DRAM enters self-refresh. -/
def Mach.quiet (m : Mach) : Mach :=
  let m1 := m.sendLeaving.mntReset
  let m2 := (List.range 32).foldl (fun acc i => acc.drainAll (144 + i)) m1
  let m3 := [0, 1].foldl (fun (acc : Mach) e => if acc.answers (leStop e) 0 then acc.flushEngine e else acc) m2
  ((m3.settleHomes).loseCaches).selfRefresh

/-- A queue after a chip warm reset (R413, R440, R462): `flushed` says that the engines flushed, `paired` that the device was in a pair. -/
def Mach.queueAfter (m : Mach) (flushed paired : Bool) (q : Nat) (x : Queue) : Queue :=
  { x with
    st := if bit x.w0 60 then 1 else 0
    pre := 0
    halted := false
    mirrored := false
    held := x.held || (x.mir && paired)
    recs := if ! x.j then []
      else if flushed then x.recs.map (fun r => (m.sentOuts q r).replayed) else x.recs.filterMap LRec.unflushed
    copies := if x.j then x.copies else []
    expected := if x.j then x.expected else 0
    relAt := if x.j then x.relAt else 0 }

/-- The bits of a register that a chip warm reset keeps (R304, R346, R526, R545): the collector's records, channel status, size and bank masks, the
rate and set size, the thermal trip, and what shows an input's level. -/
def warmKeep (key : Nat) : W64 :=
  let st := key / 512 / 256
  let k := key / 512 % 256
  let off := key % 512 * 8
  match winBlk st k with
  | some (.fc, _) => if [0x100, 0x108, 0x110, 0x118, 0x180, 0x188, 0x190, 0x198, 0x1A8].contains off then BitVec.allOnes 64 else 0
  | some (.dphy, _) => if off = 0x40 ∨ off = 0x48 ∨ 0x800 ≤ off then BitVec.allOnes 64 else 0
  | some (.mc, _) => if off = 0x40 then 0x0000000FFFFF0000 else if off = 0x50 then 0x1FFF else 0
  | some (.therm, _) => if off = 0x48 then 0x80000 else 0
  | some (.syt, _) => if off = 0x658 then 0x100000000 else if off = 0x40 then 0xFFFF0000 else 0
  | some (.epn, _) => if off = 0x90 then 0x60 else 0
  | _ => 0

/-- The registers after a chip warm reset. -/
def Mach.warmRegs (m : Mach) : List (Nat × W64) :=
  m.ctl.foldl (fun t p => Tab.set (cellReset p.1) t p.1 ((p.2 &&& warmKeep p.1) ||| (cellReset p.1 &&& ~~~ warmKeep p.1))) []

/-- What is left once a chip warm reset asserts (R545); `kept` says that DRAM holds its contents. -/
def Mach.warmState (m : Mach) (kept flushed : Bool) : Mach :=
  let paired := decide (1 ≤ m.pairState) && decide (m.pairState ≤ 3)
  let stays := fun (a : Nat) => kept || (match m.locate a with
    | .dram | .pinned _ => false
    | _ => true)
  let qs := if kept then Tab.mapV Queue.reset (fun q x => m.queueAfter flushed paired q x) m.queues else []
  let eng := if kept then Tab.mapV Engine.reset (fun _ x => { x with rebuilding := true, jb := 0 }) m.engines else []
  let m1 := { Mach.reset with
    phase := .reset
    warm := true
    warmWhy := m.warmWhy
    dramKept := kept
    caldLow := true
    mem := m.mem.filter (fun p => stays p.1)
    mmeta := m.mmeta.filter (fun p => stays (p.1 * 8))
    upsets := m.upsets.filter (fun u => stays u.pa && decide (u.cls = 4 ∨ u.cls = 8 ∨ u.cls = 9))
    ctl := m.warmRegs
    reports := m.reports
    tagonly := m.tagonly
    dram := if kept then m.dram else ⟨[], 0, []⟩
    regions := if kept then m.regions else []
    dt := m.dt
    fcSrc := m.fcSrc
    queues := qs
    engines := eng
    pair := { PairRt.reset with fenceAt := m.pair.fenceAt }
    flash := m.flash
    jtag := m.jtag
    power := { PowRt.idle with temps := m.power.temps }
    bootRec := m.bootRec
    free := m.free }
  ([0, 1].foldl (fun (acc : Mach) e =>
    (acc.setEngine e { acc.engine e with pbufs := acc.usedBufs e, rebuilding := kept }).freeEntries e) m1).heldTick

/-- CHIP_WARM_RESET (R542, R544): from the Caldera state nothing is flushed, and a boot stop before training has nothing to keep. -/
def Mach.warmReset (m : Mach) : Mach :=
  if ! m.warm ∨ m.phase = .reset then m
  else
    let run := decide (m.phase = .run)
    let kept := match m.phase with
      | .run | .caldera => decide (m.dram.chans ≠ [])
      | _ => ! m.activeChans.isEmpty
    let cald := decide (m.phase = .caldera)
    let m1 := if run then m.quiet else if m.phase = .bootStop then m.selfRefresh else m
    let m2 := m1.warmState kept run
    (((m2.bootFld 12 3 m.warmWhy).bootFld 15 1 (if cald then 1 else 0)).countReg 0 0 0x40 16 16 1).bootFld 0 4 0

/-- A power-on reset (R528, R545): LEAVING is sent, and all is lost but what lies outside the device, with the levels of its inputs. -/
def Mach.powerOn (m : Mach) : Mach :=
  let m1 := { Mach.reset with flash := m.flash, caldLow := true, free := m.free, pair := { PairRt.reset with fenceAt := m.pair.fenceAt.map (fun _ => 0) } }
  (m1.setRegBit 0 0 0x658 32 (bit (m.reg 0 0 0x658) 32)).setPairFld 6 1 (if m.fenceIn then 1 else 0)

/-! ### Commands -/

/-- POWER_ON_RESET (R528). -/
def execPowerOnReset (s : State) : Out := s.upd Mach.powerOn

/-- COLD_BOOT (R540): from a power-on reset, with PAIR_ID as sampled (R528). -/
def execColdBoot (b : BootIn) (s : State) : Out :=
  s.upd (fun m => if m.phase ≠ .reset ∨ m.warm ∨ m.regsOff then m else (m.setPairFld 5 1 (if b.pairId then 1 else 0)).startUp b)

/-- RESET_N_ASSERT (R541). -/
def execResetNAssert (s : State) : Out := s.upd (fun m => m.startWarm 1)

/-- SYT_RESET (R541). -/
def execSytReset (mst : Master) (key : Nat) (s : State) : Out :=
  s.upd (fun m => m.window mst 0 0 0x48 (fun m => if key % 65536 = 0x5E7A then m.startWarm 4 else m))

/-- CHIP_WARM_RESET (R542). -/
def execChipWarmReset (s : State) : Out := s.upd Mach.warmReset

/-- RESET_RELEASE (R543): start-up runs again. -/
def execResetRelease (b : BootIn) (s : State) : Out :=
  s.upd (fun m => if m.phase ≠ .reset ∨ ! m.warm ∨ m.regsOff then m else m.startUp b)

end Sys2Proof.Machine
end

