-- ==== Sys2Proof/Machine/Branch.lean ====
section
/-!
DEFINITION. Branches, jumps and hardware loops (R85 to R87, R103, R173, R175, R176).
-/

namespace Sys2Proof.Machine

/-- Steps 5 to 7 of R87 on a live grant: X, alignment, bounds. A failure of step 6 is no violation. -/
def Mach.targetIn (m : Mach) (c : Nat) (g : Grant) (t : Nat) : Option Exc :=
  let w2 := BitVec.ofNat 64 t
  if ! g.has .X then some (.viol .noexec 5 .fetch .cap w2 t)
  else if t % 4 ≠ 0 then some (m.illegal c 6)
  else if t < g.base ∨ g.limit < t + 4 then some (.viol .capBounds 7 .fetch .cap w2 t)
  else none

/-- The target checks of a taken branch or JAL (R87). -/
def Mach.branchTarget (m : Mach) (c t : Nat) : Except Exc Mach :=
  match m.live c (m.core c).pcc .fetch (BitVec.ofNat 64 t) t with
  | .error e => .error e
  | .ok (g, _, m1) =>
    match m1.targetIn c g t with
    | some e => .error e
    | none => .ok m1

/-- The target-buffer entry of the instruction at `pc` (R173). -/
def btbIndex (pc : Nat) : Nat := pc / 4 % 64

/-- Whether a prediction of core `c` was wrong (R131, R173, R508). A C-core's is read off H and its target buffer; a
V-core's predictors are not described, so a free value decides (log entry 13). -/
def Mach.mispredicted (m : Mach) (c pc : Nat) (hint taken : Bool) (t : Nat) : Bool :=
  if isC c then (hint != taken) || (taken && decide ((m.core c).btb.lookup (btbIndex pc) ≠ some t))
  else bit m.fresh 0

/-- Count a misprediction and train the C-core's target buffer with a taken target (R173). -/
def Mach.predict (m : Mach) (c pc : Nat) (hint taken : Bool) (t : Nat) : Mach :=
  let m1 := if m.mispredicted c pc hint taken t then m.countCore c 0x004 1 else m
  if isC c then
    if taken then m1.setCore c { m1.core c with btb := Tab.ins (m1.core c).btb (btbIndex pc) t } else m1
  else m1.drawn

/-- A conditional branch (R85, R87): a poisoned operand traps; H changes no outcome. -/
def branch (c : Nat) (a b : BitVec 6) (h : Bool) (off : BitVec 13) (cond : W64 → W64 → Bool) (m : Mach) : Mach :=
  m.instr c [0x003] (fun m =>
    let x := m.g c a.toNat
    let y := m.g c b.toNat
    let p := (m.core c).pcc
    let t := va48 ((p.cursor : Int) + 4 * off.toInt)
    if x.poison || y.poison then .trap (.plain .poison 0 0)
    else if ! cond x.data y.data then .ok (m.predict c p.cursor h false t)
    else match m.branchTarget c t with
    | .error e => .trap e
    | .ok m1 => .jump (m1.predict c p.cursor h true t) (p.withCursor t) true)

/-- JAL (R86): a PC-relative jump that links. -/
def jal (c : Nat) (d : BitVec 6) (off : BitVec 19) (m : Mach) : Mach :=
  m.instr c [0x003] (fun m =>
    let p := (m.core c).pcc
    let t := va48 ((p.cursor : Int) + 4 * off.toInt)
    match m.branchTarget c t with
    | .error e => .trap e
    | .ok m1 =>
      .jump ((m1.predict c p.cursor true true t).setG c d.toNat (p.withCursor (p.cursor + 4))) (p.withCursor t) true)

/-- JALR (R86, R87): a jump through a capability that links. -/
def jalr (c : Nat) (d a : BitVec 6) (off : BitVec 13) (m : Mach) : Mach :=
  m.instr c [0x003] (fun m =>
    let p := (m.core c).pcc
    let x := m.g c a.toNat
    let t := va48 ((x.cursor : Int) + 4 * off.toInt)
    if x.poison then .trap (.plain .poison 1 0)
    else match m.live c x .fetch (BitVec.ofNat 64 t) t with
    | .error e => .trap e
    | .ok (g, _, m1) =>
      if g.otype ≠ 0 then .trap (.viol .capPerm 4 .fetch .cap (BitVec.ofNat 64 t) t)
      else match m1.targetIn c g t with
      | some e => .trap e
      | none =>
        .jump ((m1.predict c p.cursor true true t).setG c d.toNat (p.withCursor (p.cursor + 4))) (x.withCursor t) true)

/-- LOOP and LOOPI after their operand checks (R175): a count of 0 skips the body as a taken transfer (R176). -/
def Mach.loopStart (m : Mach) (c : Nat) (lv : Bool) (count : W64) (n : Nat) : Res :=
  let x := m.core c
  let p := x.pcc.cursor
  if count = 0 then .jump m (x.pcc.withCursor (p + 4 + 4 * n)) true
  else
    let l : LoopLevel := ⟨true, count, p + 4, p + 4 * n⟩
    let b := x.loops
    .ok (m.setCore c (x.setLoops (if lv then { b with l1 := l } else { b with l0 := l })))

/-- LOOP and LOOPI: ILLEGAL on a V-core and for an empty body (R75, R175). -/
def loopInstr (c : Nat) (lv : Bool) (count : Mach → Word) (len : BitVec 13) (m : Mach) : Mach :=
  m.instr c [] (fun m =>
    if ! isC c ∨ len = 0 then .trap (m.illegal c 0)
    else if (count m).poison then .trap (.plain .poison 0 0)
    else m.loopStart c lv (count m).data len.toNat)

/-- BEQ (R85). Branches if the payloads are equal. -/
def execBeq (c : Nat) (a b : BitVec 6) (h : Bool) (off : BitVec 13) (s : State) : Out :=
  s.upd (branch c a b h off (fun x y => x == y))

/-- BNE (R85). Branches if the payloads differ. -/
def execBne (c : Nat) (a b : BitVec 6) (h : Bool) (off : BitVec 13) (s : State) : Out :=
  s.upd (branch c a b h off (fun x y => x != y))

/-- BLT (R85). Branches if srcA is less than srcB as signed values. -/
def execBlt (c : Nat) (a b : BitVec 6) (h : Bool) (off : BitVec 13) (s : State) : Out :=
  s.upd (branch c a b h off (fun x y => x.slt y))

/-- JAL (R86). Jumps PC-relative and links. -/
def execJal (c : Nat) (d : BitVec 6) (off : BitVec 19) (s : State) : Out := s.upd (jal c d off)

/-- JALR (R86). Jumps through a capability and links. -/
def execJalr (c : Nat) (d a : BitVec 6) (off : BitVec 13) (s : State) : Out := s.upd (jalr c d a off)

/-- LOOP (R103, R175). Starts a hardware loop with its count in a register. -/
def execLoop (c : Nat) (lv : Bool) (a : BitVec 6) (len : BitVec 13) (s : State) : Out :=
  s.upd (loopInstr c lv (fun m => m.g c a.toNat) len)

/-- LOOPI (R103, R175). Starts a hardware loop with an immediate count. -/
def execLoopi (c : Nat) (lv : Bool) (count : BitVec 10) (len : BitVec 13) (s : State) : Out :=
  s.upd (loopInstr c lv (fun _ => .plain (count.zeroExtend 64)) len)

end Sys2Proof.Machine
end

