-- ==== Sys2Proof/Machine/Control.lean ====
section
/-!
DEFINITION. Control-register access by a core, CTLR and CTLW (R15, R16, R18, R28, R95), the writes of the registers that the rules of their
chapters restrict, and BLK_CTRL (R23).
-/

namespace Sys2Proof.Machine

/-! ### Plain writes -/

/-- `v` in the bits of `mask`, `old` elsewhere. -/
def putMask (old mask v : W64) : W64 := (old &&& ~~~mask) ||| (v &&& mask)

/-- A write under the access codes of R7: RW fields, RWX fields while the expert page is unlocked, and W1C flags; an offset that no table
names ignores it (R16). -/
def Mach.plainWrite (m : Mach) (b : Blk) (st k off : Nat) (v : W64) : Mach :=
  match findReg b off with
  | none => m
  | some r =>
    let mask := if b = .syt ∧ off = 0x650 then 0xFFFF else if m.expert st k then r.rw ||| r.rwx else r.rw
    m.setReg st k off (putMask (m.reg st k off) mask v &&& ~~~(v &&& r.w1c))

/-- `v` with field `[lo + n - 1 : lo]` as in `old` unless `ok`: a value that leaves its field unchanged. -/
def keepFld (ok : Bool) (old v : W64) (lo n : Nat) : W64 := if ok then v else setFld v lo n (fld old lo n)

/-- The events that a set-up may name (R201). -/
def evOk (n : Nat) : Bool := decide (256 ≤ n) && decide (n < 768)

/-! ### Headers -/

/-- ENABLE takes a value; a port that is enabled begins lock acquisition (R378), and the link of one that is disabled goes down. -/
def Mach.setEnable (m : Mach) (st k : Nat) (e : Bool) : Mach :=
  let m1 := m.setBlk st k { m.blk st k with enable := e, disabling := false }
  match winBlk st k with
  | some (.port, q) => if e then m1.relock q else m1.portDown q 0
  | _ => m1

/-- Blocks whose ENABLE cannot be cleared: a memory controller and its channels (R307). -/
def neverOff (st k : Nat) : Bool :=
  match winBlk st k with
  | some (.mc, _) | some (.dphy, _) => true
  | _ => false

/-- A write of BLK_CTRL (R22, R23). -/
def Mach.blkCtrl (m : Mach) (st k : Nat) (v : W64) : Mach :=
  let b := { m.blk st k with quiesce := bit v 1 }
  let m1 := m.setBlk st k b
  if b.disabling ∨ bit v 0 = b.enable ∨ (neverOff st k = true ∧ ! bit v 0) then m1
  else if bit v 0 then m1.setEnable st k true
  else if m1.work st k then m1.setBlk st k { b with disabling := true }
  else m1.setEnable st k false

/-- The work in flight of a block that is being disabled ends (R23). -/
def Mach.disabled_ (m : Mach) (st k : Nat) : Mach :=
  if (m.blk st k).disabling ∧ ! m.work st k then m.setEnable st k false else m

/-! ### Core windows -/

/-- A write of VCORE_CTRL (R148). -/
def Mach.coreCmd (m : Mach) (mst : Master) (c : Nat) (v : W64) (vec : Bool) : Mach :=
  match fld v 0 3 with
  | 0 => m
  | 1 => m.stopCmd mst c vec
  | 2 => m.resumeCmd mst c
  | 4 => m.restartCmd mst c
  | _ => m.cign c

/-- A write of VCORE_L2_CTRL (R264, R266, R267). -/
def Mach.l2Write (m : Mach) (c : Nat) (v : W64) : Mach :=
  let old := m.coreReg c 0x100
  let w := keepFld (decide (fld v 16 4 < 8)) old v 16 4
  if bit old 0 ∧ ! bit v 0 then m.cleanL2 c
  else if ! bit old 0 then m.setRegBit (coreStop c) (coreWin c) 0x100 0 (bit v 0)
  else if bit v 20 ∧ bit old (8 + fld w 16 4) then m
  else m.plainWrite .vcore (coreStop c) (coreWin c) 0x100 w

/-- A write of CCORE_L1_CTRL (R161, R163). -/
def Mach.l1Write (m : Mach) (c : Nat) (v : W64) : Mach :=
  let old := m.coreReg c 0x100
  if bit old 0 ∧ ! bit v 0 then m.l1Disable c
  else if ! bit old 0 then m.setRegBit (coreStop c) (coreWin c) 0x100 0 (bit v 0)
  else m.plainWrite .ccore (coreStop c) (coreWin c) 0x100 v

/-- A write of PMC_CTRL or PMU_CTRL (R504, R507). -/
def Mach.bankCtrl (m : Mach) (st k off : Nat) (v : W64) : Mach :=
  let old := m.reg st k off
  let w := setBit (setBit (setBit 0 0 (bit v 0)) 1 (bit v 1)) 2 (bit old 2)
  let w := setFld w 16 10 (if evOk (fld v 16 10) then fld v 16 10 else fld old 16 10)
  m.setReg st k off (setBit w 26 (bit v 26))

/-- A write of a core's window above the header, but for the protection registers (R148, R183, R212, R496). -/
def Mach.coreWrite (m : Mach) (mst : Master) (c off : Nat) (w : Word) (vec : Bool) : Mach :=
  let v := w.data
  let st := coreStop c
  let k := coreWin c
  let b := if isC c then Blk.ccore else Blk.vcore
  if off = 0x40 then m.coreCmd mst c v vec
  else if off = 0x48 then
    let x := m.core c
    m.setCore c { x with wign := x.wign && ! bit v 8, cign := x.cign && ! bit v 9 }
  else if ctxOffsets.contains off then m.ctxWrite c off w
  else if off = 0x100 then (if isC c then m.l1Write c v else m.l2Write c v)
  else if off = 0x110 ∧ isC c then
    (if bit v 0 then m.setCore c { m.core c with btb := [] } else m).plainWrite b st k off v
  else if off = 0x118 ∧ isC c then
    m.plainWrite b st k off (keepFld (decide (1 ≤ fld v 0 4) && decide (fld v 0 4 ≤ 8)) (m.coreReg c off) v 0 4)
  else if off = 0x198 then m.xlGS1 c v
  else if off = 0x1A0 ∨ off = 0x1A8 then (if mst.sytum then m.plainWrite b st k off v else m)
  else if off = 0x1B8 then m.xlInv mst c v
  else if off = 0x400 then m.bankCtrl st k off v
  else if off = 0x408 then m.ovfClear st k v
  else if inBank off 0x410 (coreSels c) then m.setReg st k off (v &&& 0x0000FFFFFFFF73FF)
  else m.plainWrite b st k off v

/-! ### Protection registers -/

/-- A write of PROT_CHK_CTRL (R327). -/
def Mach.chkCtrl (m : Mach) (b : Blk) (st k : Nat) (v : W64) : Mach :=
  if ! m.expert st k ∨ ! (protClasses b).contains (fld v 2 4) then m
  else
    let w := putMask (m.reg st k 0x900) 0xFFFF v
    m.setReg st k 0x900 (if bit v 0 then setBit w 63 false else w)

/-- A write of a protection register (R318 to R327); none where `off` is a plain one. -/
def Mach.protWrite (m : Mach) (mst : Master) (b : Blk) (st k off : Nat) (v : W64) (result : Nat) : Option Mach :=
  if (protClasses b).isEmpty then none
  else if off = 0x310 then some (m.logSelWrite st k v)
  else if off = 0x338 then some (m.remapWrite st k v)
  else if off = 0x340 ∧ b = .mc then
    some (m.plainWrite b st k off (keepFld (decide (1 ≤ fld v 8 8) && decide (fld v 8 8 ≤ 168)) (m.reg st k off) v 8 8))
  else if off = 0x840 then (match winBlk st k with
    | some (.mc, i) => some (m.sppr i v result)
    | _ => none)
  else if off = 0x900 then some (m.chkCtrl b st k v)
  else if off = 0x908 ∨ off = 0x910 ∨ off = 0x918 then
    let closed := decide (off = 0x908) && decide (b ≠ .le) && ! mst.sytum && (m.carveOf (fld v 3 49 * 8)).isSome
    some (if bit (m.reg st k 0x900) 0 || closed then m else m.plainWrite b st k off v)
  else none

/-! ### Ledger engines and Epnis links -/

/-- A write that R419 ignores. -/
def Mach.leIgnored (m : Mach) (e : Nat) : Mach := m.setRegBit (leStop e) 0 0x68 4 true

/-- Whether every queue of an engine is DISABLED. -/
def Mach.leStill (m : Mach) (e : Nat) : Bool := m.queues.all (fun p => decide (p.1 / 2048 ≠ e) || decide (p.2.st = 0))

/-- A write of LE_CFG (R419); one that leaves the journal and pool fields as they are writes JBW alone. -/
def Mach.leCfg (m : Mach) (e : Nat) (v : W64) : Mach :=
  let old := m.leReg e 0x40
  let w := keepFld (decide (16 ≤ fld v 8 5) && decide (fld v 8 5 ≤ 25)) old v 8 5
  let w := keepFld (decide (10 ≤ fld v 16 5) && decide (fld v 16 5 ≤ 18)) old w 16 5
  let w := w &&& 0x3F3FFF
  if 150 < fld v 0 8 + fld (m.leReg (1 - e) 0x40) 0 8 then m.leIgnored e
  else if fld w 8 14 = fld old 8 14 ∨ m.leStill e then m.setReg (leStop e) 0 0x40 w
  else (m.setReg (leStop e) 0 0x40 (setFld old 0 8 (fld v 0 8))).leIgnored e

/-- A write of EPN_LINK_CFG (R423): a link trains while EN is 1, and goes down when EN is cleared. -/
def Mach.linkCfg (m : Mach) (l : Nat) (v : W64) : Mach :=
  let st := leStop l
  let m1 := m.plainWrite .epn st 1 0x40 v
  let s := m1.regFld st 1 0x48 0 2
  if bit v 0 then (if s = 0 then m1.setRegFld st 1 0x48 0 2 1 else m1)
  else if s = 2 then m1.linkLost l else m1.setRegFld st 1 0x48 0 2 0

/-- A write of the EPN window of engine `e` (R425, R435, R450); the pair has one set of pair registers. -/
def Mach.epnWrite (m : Mach) (e off : Nat) (v : W64) (mir : Bool) : Mach :=
  let st := leStop 0
  if off = 0x40 then m.linkCfg e v
  else if off = 0x80 then (m.plainWrite .epn st 1 off v).autoJoin
  else if off = 0x88 then m.pairCtrl v
  else if inBank off 0x100 32 then m.roleWrite e ((off - 0x100) / 8) v
  else if off = 0x208 then (if fld v 0 2 = 1 then m.mwRead mir else if fld v 0 2 = 2 then m.mwWrite mir else m)
  else if off = 0x90 ∨ off = 0x200 ∨ inBank off 0x210 3 then m.plainWrite .epn st 1 off v
  else m.plainWrite .epn (leStop e) 1 off v

/-- A write of VQF_CMD (R455). -/
def Mach.vqfOp (m : Mach) (e : Nat) (v : W64) (partner : List Nat) : Mach :=
  let go := fun (stops : Bool) (f : Mach → Nat → Mach) => m.vqfCommand e stops f
  match fld v 0 4 with
  | 1 => go false (fun m i => m.vqfEnable e i)
  | 2 => go true (fun m i => m.vqfDisable e i)
  | 3 => go true (fun m i => m.vqfFreeze e i)
  | 4 => go false (fun m i => m.vqfThaw e i)
  | 5 => go false (fun m i => m.vqfSave e i)
  | 6 => go false (fun m i => m.vqfRestore e i partner)
  | 7 => go false (fun m i => m.vqfDrop e i (bit v 4))
  | 8 => go false (fun m i => m.vqfResume e i)
  | _ => m

/-! ### Sytum windows -/

/-- A write of the SYT window (R203, R208, R234, R246, R546). -/
def Mach.sytWrite (m : Mach) (mst : Master) (off : Nat) (v : W64) : Mach :=
  if off = 0x48 then (if fld v 0 16 = 0x5E7A then m.startWarm 4 else m)
  else if off = 0x600 then m.writeRoute mst v
  else if off = 0x618 then m.fireEvent mst v
  else if off = 0x688 then m.moveBucket v
  else if off = 0x708 then
    if mst.world ≠ .secure then m
    else
      let m1 := if bit v 0 then { m with kickAt := m.dt } else m
      if bit v 1 then m1.secTrigger 4 else m1
  else if off = 0x710 then
    if mst.world = .guest then m
    else
      let old := m.reg 0 0 off
      let w := keepFld (decide (1 ≤ fld v 0 10) && decide (fld v 0 10 ≤ 1000)) old v 0 10
      m.plainWrite .syt 0 0 off (keepFld (decide (mst.world = .secure)) old w 16 10)
  else if off = 0x718 then m.holdWrite mst v
  else m.plainWrite .syt 0 0 off v

/-- A write of FC_SHADOWn (R347). -/
def Mach.shadowClear (m : Mach) (n : Nat) (v : W64) : Mach :=
  (List.range 64).foldl (fun (acc : Mach) i =>
    if bit v i && (acc.fc (64 * n + i)).shadow then acc.setFc (64 * n + i) { acc.fc (64 * n + i) with shadow := false } else acc) m

/-- A write of the FC window (R335, R336, R344, R345, R347). -/
def Mach.fcWrite (m : Mach) (off : Nat) (v : W64) (known : List (Nat × List W64)) : Mach :=
  let src := m.regFld 0 2 0x50 0 9
  if off = 0x40 then m.cfgLock (bit v 0)
  else if off = 0x58 then m.srcCfgWrite v
  else if off = 0x60 then
    if srcReal src then m.setFc src { m.fc src with count := fld v 0 16, shcount := fld v 16 16 } else m
  else if inBank off 0x80 8 then m.pendClear ((off - 0x80) / 8) v
  else if inBank off 0xC0 8 then m.shadowClear ((off - 0xC0) / 8) v
  else if off = 0x100 then (if bit v 63 then m.feClear else m)
  else if off = 0x1A0 then (if fld v 0 16 = 0xCA1D then m.caldera 3 0 false false else m)
  else if off = 0x800 then m.inject v known
  else m.plainWrite .fc 0 2 off v

/-- A write of the PM window (R518, R524, R526). -/
def Mach.pmWrite (m : Mach) (mst : Master) (off : Nat) (v : W64) : Mach :=
  if off = 0x40 then m.plimit (fld v 0 10)
  else if off = 0x50 then m.pmRequest mst (fld v 0 3) (fld v 8 6) (fld v 16 12)
  else if off = 0x60 then m.plainWrite .pm 0 1 off (keepFld (evOk (fld v 0 10)) (m.reg 0 1 off) v 0 10)
  else m.plainWrite .pm 0 1 off v

/-- A write of THERM_CFG (R525). -/
def Mach.thermCfg (m : Mach) (v : W64) : Mach :=
  if fld v 8 8 < fld v 0 8 ∨ 105 < fld v 8 8 then m.setRegBit 0 8 0x48 20 true else m.plainWrite .therm 0 8 0x40 v

/-- A write of the CARVE window (R223): only the Sytum's takes effect. -/
def Mach.carveWrite (m : Mach) (mst : Master) (off : Nat) (v : W64) : Mach :=
  if mst.sytum then m.plainWrite .carve 0 9 off v
  else if (decide (0x100 ≤ off) && decide (off < 0x200)) || decide (off = 0x200) then m.countReg 0 9 0x208 0 16 1 else m

/-- A write of XSPI_CMD (R490). -/
def Mach.xspiOp (m : Mach) (v : W64) (err : Bool) : Mach :=
  let op := fld v 0 3
  if op = 0 ∨ 4 < op then m else m.xspi op (fld v 8 21) err

/-! ### Other windows -/

/-- A write of L3H_L3_CTRL (R271, R272). -/
def Mach.l3Write (m : Mach) (p : Nat) (v : W64) : Mach :=
  let old := m.l3Reg p 0x120
  let way := fld v 16 4
  let w := keepFld (decide (way < 12) && ! bit old (4 + way)) old v 16 4
  if bit old 0 ∧ ! bit v 0 then (m.plainWrite .l3h (podStop p) 5 0x120 (setBit w 0 true)).disableL3 p
  else m.plainWrite .l3h (podStop p) 5 0x120 w

/-- A write of a register of reservations (R254, R307): a sum above 128 is ignored. -/
def Mach.resWrite (m : Mach) (b : Blk) (st k off : Nat) (v : W64) : Mach :=
  if 128 < fld v 0 8 + fld v 8 8 then m else m.plainWrite b st k off v

/-- A write of MC_CFG (R298, R307). -/
def Mach.mcCfg (m : Mach) (i : Nat) (v : W64) : Mach :=
  (m.plainWrite .mc (mcStop i) 0 0x40 (setBit v 0 (bit (m.reg (mcStop i) 0 0x40) 0))).orderWrite i (bit v 0)

/-- A write of DPHY_CTRL (R303, R305). -/
def Mach.dphyCtrl (m : Mach) (ch : Nat) (v : W64) : Mach :=
  let m1 := if bit v 0 then m.failChannel ch 5 else m
  if bit v 1 then m1.retrain ch else m1

/-- A write of the PMU window of a stop (R497, R504 to R507). -/
def Mach.pmuWrite (m : Mach) (st k off : Nat) (v : W64) : Mach :=
  if off = 0x40 then m.bankCtrl st k off v
  else if off = 0x48 then m.ovfClear st k v
  else if off = 0x50 ∨ off = 0x58 then m.setReg st k off (v &&& 0x000FFFFFFFFFFFC0)
  else if inBank off 0x80 8 then m.setReg st k off (v &&& 0x00000001FFFFF3FF)
  else match stopKind st with
    | .px n => if off = 0x380 then m.fumCfgWrite n v else if off = 0x390 then m.fumClrPeak n v else m
    | _ => m

/-- A write of the RP window of root port `r` (R476, R485, R487); HOTRST leaves the registers as they are. -/
def Mach.rpWrite (m : Mach) (mst : Master) (r off : Nat) (v : W64) : Mach :=
  let st := rpStop r
  let k := rpWin r
  let old := m.reg st k off
  if off = 0x40 then m.plainWrite .rp st k off (keepFld (decide (1 ≤ fld v 8 10) && decide (fld v 8 10 ≤ 1000)) old v 8 10)
  else if off = 0x50 then m.plainWrite .rp st k off (keepFld (decide (fld v 0 22 ≤ 2097152)) old v 0 22)
  else if off = 0x60 then (m.cfgIssue mst r true (fld v 0 32)).2
  else if off = 0x68 then
    if fld v 58 6 = 0 ∨ (256 ≤ fld v 48 10 ∧ fld v 48 10 + fld v 58 6 ≤ 768) then m.plainWrite .rp st k off v else m
  else m.plainWrite .rp st k off v

/-- A write of a window that is not a core's, above the header and but for the protection registers. `cap` and `g` are the capability of the
CTLW and its grant, which DBG_SESS and EPN_MW_CMD ask for (R435, R495). -/
def Mach.blockWrite (m : Mach) (c : Nat) (cap : Word) (g : Grant) (b : Blk) (i st k off : Nat) (v : W64) (x : CtlIn) : Mach :=
  let mst := m.coreMaster c
  let quiet := (m.blk st k).quiesce
  let old := m.reg st k off
  match b with
  | .pod => if off = 0x50 then (if bit v 0 ∧ quiet then m.podReset i x.known else m) else m.plainWrite b st k off v
  | .cc => if off = 0x48 then (if bit v 0 ∧ quiet then m.ccReset i x.known else m) else m.plainWrite b st k off v
  | .rtr => if off = 0x48 then (m.settleTokens st).plainWrite b st k off (keepFld (decide (fld v 0 11 ≤ 2000)) old v 0 11) else m.plainWrite b st k off v
  | .l3h => if off = 0x100 then m.resWrite b st k off v else if off = 0x120 then m.l3Write i v else m.plainWrite b st k off v
  | .mc => if off = 0x40 then m.mcCfg i v else if off = 0x800 then m.resWrite b st k off v else m.plainWrite b st k off v
  | .dphy =>
    if off = 0x58 then m.dphyCtrl i v
    else if inBank off 0x800 5 then m.bankMask i ((off - 0x800) / 8) v else m.plainWrite b st k off v
  | .px =>
    if off = 0x48 then m.plainWrite b st k off (keepFld (decide (fld v 0 13 ≤ 4096)) old v 0 13)
    else if off = 0x50 then (if bit v 0 ∧ quiet then m.pxReset i else m)
    else if inBank off 0x80 16 then m.pairWrite i ((off - 0x80) / 8) v else m.plainWrite b st k off v
  | .port =>
    if off = 0x40 then m.portCfg i v
    else if off = 0x50 then m.plainWrite b st k off (keepFld (evOk (fld v 16 10)) old v 16 10)
    else if off = 0x78 then m.portDma i v else m.plainWrite b st k off v
  | .sflt =>
    if off = 0x48 then (if fld v 0 2 = 1 then m.sfCommand i false else if fld v 0 2 = 2 then m.sfCommand i true else m)
    else m.plainWrite b st k off v
  | .egs =>
    if off = 0x48 then (if fld v 0 2 = 1 then m.egCommand i false else if fld v 0 2 = 2 then m.egCommand i true else m)
    else m.plainWrite b st k off v
  | .pmu => m.pmuWrite st k off v
  | .le =>
    if off = 0x40 then m.leCfg i v
    else if inBank off 0x48 4 then (if m.leStill i then m.plainWrite b st k off v else m.leIgnored i)
    else if off = 0x80 then (if bit v 0 ∧ quiet then m.leReset i else m)
    else if off = 0x108 then (if fld v 0 2 = 1 then m.queueCommand i false else if fld v 0 2 = 2 then m.queueCommand i true else m)
    else m.plainWrite b st k off v
  | .epn => m.epnWrite i off v (g.has .MIR)
  | .vqf =>
    if off = 0x68 then m.vqfOp i v x.partner
    else if 0x48 ≤ off ∧ off ≤ 0x98 then m.vqfWrite i off v else m.plainWrite b st k off v
  | .hio => if off = 0x48 then (if bit v 0 ∧ quiet then m.hioReset i else m) else m.plainWrite b st k off v
  | .rp => m.rpWrite mst i off v
  | .dmat =>
    if off = 0x48 then m.dmatInv i v
    else if off = 0x58 then m.hinfoWrite i v
    else if off = 0x68 then m.dmatResume i (fld v 0 16) else m.plainWrite b st k off v
  | .mnt =>
    if off = 0x40 then m.plainWrite b st k off (keepFld (decide (1 ≤ fld v 0 11) && decide (fld v 0 11 ≤ 1000)) old v 0 11)
    else if off = 0x48 then m.mntAbort v else m.plainWrite b st k off v
  | .syt => m.sytWrite mst off v
  | .pm => m.pmWrite mst off v
  | .fc => m.fcWrite off v x.known
  | .dt =>
    if off = 0x40 then m.dtCfgWrite v
    else if off = 0x58 then m.dtRateWrite v
    else if off = 0x60 then m.dtStep v
    else if off = 0x68 then m.dtSet v else m.plainWrite b st k off v
  | .xspi =>
    if off = 0x48 then m.xspiOp v x.err
    else if inBank off 0x80 4 ∧ ! mst.sytum then m else m.plainWrite b st k off v
  | .dbg =>
    if off ≠ 0x40 then m
    else
      let m1 := if bit v 0 then m.dbgOpen c cap else m
      if bit v 1 then { m1 with dbg := none } else m1
  | .therm => if off = 0x40 then m.thermCfg v else m.plainWrite b st k off v
  | .carve => m.carveWrite mst off v
  | .psns | .fuse | .i3c | .vcore | .ccore => m.plainWrite b st k off v

/-- What core `c`'s CTLW of `w` to register `off` of window `k` of stop `st` does there. -/
def Mach.ctlWrite (m : Mach) (c : Nat) (cap : Word) (g : Grant) (st k off : Nat) (w : Word) (x : CtlIn) : Mach :=
  match winBlk st k with
  | none => m
  | some (b, i) =>
    if off = 0x08 then m.blkCtrl st k w.data
    else if off = 0x18 then m.unlock st k w.data
    else if off = 0x20 then m.violClear st k w.data []
    else if off < 0x38 then m
    else match m.protWrite (m.coreMaster c) b st k off w.data x.result with
      | some m1 => m1
      | none => match coreAt st k with
        | some t => m.coreWrite (m.coreMaster c) t off w x.vec
        | none => m.blockWrite c cap g b i st k off w.data x

/-! ### CTLR and CTLW -/

/-- The request of CTLR: R, and CTL (R15). -/
def ctlrReq : Req := ⟨.ctlrd, [.R], ⟨true, false, false⟩, 1, 8, false, true, true⟩

/-- The registers that only a grant with PMU reads (R502). -/
def countRegister (st k off : Nat) : Bool :=
  match winBlk st k with
  | some (.vcore, _) | some (.ccore, _) => inBank off 0x440 8
  | some (.pmu, _) => inBank off 0xC0 8 || (match stopKind st with
    | .px _ => decide (0x380 ≤ off) && decide (off < 0x800)
    | _ => false)
  | _ => false

/-- Whether CTLR and CTLW make no access at `pa` because it lies in memory or an aperture (R15). -/
def Mach.notControl (m : Mach) (pa : Nat) : Bool :=
  match m.locate pa with
  | .dram | .pinned _ | .cm _ _ | .rp _ _ | .bell _ _ => true
  | _ => false

/-- The refusal of a control access by its target, with the window that logs it (R15, R16, R28, R287, R452, R502). -/
def Mach.ctlRefusal (m : Mach) (c : Nat) (g : Grant) (write : Bool) (pa : Nat) : Option (Rule × Nat × Nat) :=
  match m.locate pa with
  | .window st k off =>
    if ! m.answers st k then
      (if ! write && alwaysRead off then none else some (.ctlUnpowered, st, 0xFE))
    else if pa % 8 ≠ 0 then some (.ctlForm, st, k)
    else if write then (if (m.core c).world = .guest ∧ guestBarred st k off = true then some (.ctlPerm, st, k) else none)
    else if countRegister st k off ∧ ! g.has .PMU then some (.ctlPerm, st, k)
    else none
  | .hole st => some (.ctlUnmapped, st, 0xFE)
  | _ => some (.ctlUnmapped, coreStop c, 0xFE)

/-- A read of RP_CFG_DATA waits for its completion where a request goes out (R476). -/
def Mach.cfgRead (m : Mach) (c d r : Nat) (p : Piece) : Res :=
  match m.cfgIssue (m.coreMaster c) r false 0 with
  | (true, m1) => .wait (m1.setCore c { m1.core c with rpWait := some ⟨some d, true, p.pa, p.va, 8, false⟩ })
  | (false, m1) => .ok (m1.setG c d (.plain 0xFFFFFFFF))

/-- The read of a checked CTLR (R6, R372, R476). -/
def Mach.ctlrAt (m : Mach) (c d : Nat) (p : Piece) : Res :=
  match m.locate p.pa with
  | .window st k off =>
    (match winBlk st k with
    | some (.rp, r) =>
      if off = 0x60 then m.cfgRead c d r p
      else
        let (v, m1) := m.ctlRead (m.coreMaster c) st k off
        .ok (m1.setG c d (.plain v))
    | _ =>
      let (v, m1) := m.ctlRead (m.coreMaster c) st k off
      .ok (m1.setG c d (.plain v)))
  | _ => .ok m

/-- CTLR (R15, R51, R95, R502): a refusal is precise. -/
def ctlrBody (c : Nat) (d a b : BitVec 6) (m : Mach) : Res :=
  let x := m.g c a.toNat
  let y := m.g c b.toNat
  let ea := (x.cursor : Int) + y.data.toInt
  if x.poison || y.poison then .trap addrPoison
  else match m.check c x ea ctlrReq with
  | .error e => .trap e
  | .ok ([], _, m1) => .ok m1
  | .ok (p :: _, g, m1) =>
    if m1.notControl p.pa then .trap (.viol .capPerm 0 .ctlrd .ctlForm (vaWord ea) p.va)
    else match m1.ctlRefusal c g false p.pa with
      | some (r, st, k) => .trap ⟨.capPerm, 0, some .ctlrd, r, BitVec.ofNat 64 p.va, p.va, some (st, k, p.pa), none, none⟩
      | none => m1.ctlrAt c d.toNat p

/-- The write of a checked CTLW; a configuration write waits for its completion (R476). A core that its own write resets or halts does not
retire the instruction. -/
def Mach.ctlwAt (m : Mach) (c : Nat) (cap : Word) (g : Grant) (w : Word) (p : Piece) (x : CtlIn) : Res :=
  match m.locate p.pa with
  | .window st k off =>
    (match winBlk st k, decide (off = 0x60) with
    | some (.rp, r), true =>
      (match m.cfgIssue (m.coreMaster c) r true (fld w.data 0 32) with
      | (true, m1) => .wait (m1.setCore c { m1.core c with rpWait := some ⟨none, true, p.pa, p.va, 8, false⟩ })
      | (false, m1) => .ok m1)
    | _, _ =>
      let m1 := m.ctlWrite c cap g st k off w x
      if m1.phase = .run ∧ ((m1.core c).st = .running ∨ (m1.core c).st = .stopping) then .ok m1 else .wait m1)
  | _ => .ok m

/-- CTLW (R15, R51, R88, R95): a serialising point (R97); its target's refusal is imprecise (R24). -/
def ctlwBody (c : Nat) (src a b : BitVec 6) (x : CtlIn) (m : Mach) : Res :=
  let cap := m.g c a.toNat
  let y := m.g c b.toNat
  let w := m.g c src.toNat
  let ea := (cap.cursor : Int) + y.data.toInt
  if cap.poison || y.poison then .trap addrPoison
  else match m.check c cap ea mntCtlReq with
  | .error e => .trap e
  | .ok ([], _, m1) => .ok m1
  | .ok (p :: _, g, m1) =>
    if w.poison then .trap (.plain .poison 0 (vaWord ea))
    else if m1.notControl p.pa then .trap (.viol .capPerm 0 .ctlwr .ctlForm (vaWord ea) p.va)
    else
      let m2 := m1.serialPoint c
      match m2.ctlRefusal c g true p.pa with
      | some (r, st, k) => .ok ((m2.logSite c st k p.pa .ctlwr r).holdRefused c ⟨.capPerm, r, .ctlwr, p.va, false, false⟩)
      | none => m2.ctlwAt c cap g w p x

/-! ### Commands -/

/-- CTLR (R15). -/
def execCtlr (c : Nat) (d a b : BitVec 6) (s : State) : Out := s.upd (fun m => m.instr c [] (ctlrBody c d a b))

/-- CTLW (R15). -/
def execCtlw (c : Nat) (src a b : BitVec 6) (x : CtlIn) (s : State) : Out := s.upd (fun m => m.instr c [] (ctlwBody c src a b x))

/-- BLK_CTRL_WRITE (R23). -/
def execBlkCtrlWrite (mst : Master) (st k : Nat) (v : W64) (s : State) : Out :=
  s.upd (fun m => m.window mst st k 0x08 (fun m => m.blkCtrl st k v))

/-- DISABLE_COMPLETE (R23). -/
def execDisableComplete (st k : Nat) (s : State) : Out := s.upd (fun m => m.disabled_ st k)

end Sys2Proof.Machine
end

