-- ==== Sys2Proof/Machine/Float.lean ====
section
/-!
DEFINITION. The scalar floating-point instructions (R90 to R92).
-/

namespace Sys2Proof.Machine

/-- The format that func[0] selects (R91). -/
def fmtOf (single : Bool) : Fp.Fmt := if single then Fp.f32 else Fp.f64

/-- Write a floating-point result: zero above the format, POISON as given, flags accrued (R90). -/
def Mach.fpResult (m : Mach) (c d : Nat) (r : Nat × Flags) (poison : Bool) : Res :=
  .ok ((m.accrue c r.2).setG c d (resWord (BitVec.ofNat 64 r.1) poison))

/-- The rounding mode of core `c`. -/
def Mach.rm (m : Mach) (c : Nat) : Nat := fcsrRm (m.core c).fcsr

/-- Two operand patterns. -/
def fpBits (c : Nat) (d a b : BitVec 6) (single : Bool) (op : Fp.Fmt → Nat → Nat → Nat × Flags) (m : Mach) : Mach :=
  m.instr c [] (fun m =>
    let f := fmtOf single
    let x := m.g c a.toNat
    let y := m.g c b.toNat
    m.fpResult c d.toNat (op f (fld x.data 0 f.width) (fld y.data 0 f.width)) (x.poison || y.poison))

/-- Two unpacked operands, rounded by FCSR.RM. -/
def fp2 (c : Nat) (d a b : BitVec 6) (single : Bool) (op : Fp.Fmt → Nat → Fp.Val → Fp.Val → Nat × Flags)
    (m : Mach) : Mach :=
  fpBits c d a b single (fun f x y => op f (m.rm c) (Fp.unpack f x) (Fp.unpack f y)) m

/-- One unpacked operand. -/
def fp1 (c : Nat) (d a : BitVec 6) (single : Bool) (op : Fp.Fmt → Nat → Fp.Val → Nat × Flags) (m : Mach) : Mach :=
  m.instr c [] (fun m =>
    let f := fmtOf single
    let x := m.g c a.toNat
    m.fpResult c d.toNat (op f (m.rm c) (Fp.unpack f (fld x.data 0 f.width))) x.poison)

/-- Three unpacked operands: srcA, srcB and the old dst (R91). -/
def fp3 (c : Nat) (d a b : BitVec 6) (single : Bool)
    (op : Fp.Fmt → Nat → Fp.Val → Fp.Val → Fp.Val → Nat × Flags) (m : Mach) : Mach :=
  m.instr c [] (fun m =>
    let f := fmtOf single
    let x := m.g c a.toNat
    let y := m.g c b.toNat
    let z := m.g c d.toNat
    let u := fun (w : Word) => Fp.unpack f (fld w.data 0 f.width)
    m.fpResult c d.toNat (op f (m.rm c) (u x) (u y) (u z)) (x.poison || y.poison || z.poison))

/-- A comparison: an integer 1 or 0 (R91). -/
def fpCmp (c : Nat) (d a b : BitVec 6) (single : Bool) (op : Fp.Val → Fp.Val → Bool × Flags) (m : Mach) : Mach :=
  fpBits c d a b single (fun f x y =>
    let r := op (Fp.unpack f x) (Fp.unpack f y)
    (if r.1 then 1 else 0, r.2)) m

/-- FCLASS (R91). -/
def fpClass (c : Nat) (d a : BitVec 6) (single : Bool) (m : Mach) : Mach :=
  m.instr c [] (fun m =>
    let f := fmtOf single
    let x := m.g c a.toNat
    m.fpResult c d.toNat (2 ^ Fp.classBit f (fld x.data 0 f.width), .none) x.poison)

/-- A conversion whose result is a pattern (R92). -/
def fpFrom (c : Nat) (d a : BitVec 6) (op : Nat → W64 → Nat × Flags) (m : Mach) : Mach :=
  m.instr c [] (fun m =>
    let x := m.g c a.toNat
    m.fpResult c d.toNat (op (m.rm c) x.data) x.poison)

/-- A conversion to a 64-bit integer (R92). -/
def fpTo (c : Nat) (d a : BitVec 6) (f : Fp.Fmt) (signed : Bool) (m : Mach) : Mach :=
  fpFrom c d a (fun rm x =>
    let lo : Int := if signed then -(2 ^ 63) else 0
    let hi : Int := if signed then 2 ^ 63 - 1 else 2 ^ 64 - 1
    let r := Fp.toInt rm lo hi (Fp.unpack f (fld x 0 f.width))
    ((BitVec.ofInt 64 r.1).toNat, r.2)) m

/-- srcA minus srcB (R91). -/
def fpSub (f : Fp.Fmt) (rm : Nat) (x y : Fp.Val) : Nat × Flags := Fp.add f rm x y.neg

/-- A pattern with another sign (R91). -/
def fpSign (f : Fp.Fmt) (g : Bool → Bool → Bool) (x y : Nat) : Nat :=
  x % 2 ^ (f.eb + f.mb) + f.zero (g (x.testBit (f.eb + f.mb)) (y.testBit (f.eb + f.mb)))

/-- FADD (R91). Sum. -/
def execFadd (c : Nat) (d a b : BitVec 6) (single : Bool) (s : State) : Out :=
  s.upd (fp2 c d a b single Fp.add)

/-- FSUB (R91). Difference. -/
def execFsub (c : Nat) (d a b : BitVec 6) (single : Bool) (s : State) : Out :=
  s.upd (fp2 c d a b single fpSub)

/-- FMUL (R91). Product. -/
def execFmul (c : Nat) (d a b : BitVec 6) (single : Bool) (s : State) : Out :=
  s.upd (fp2 c d a b single Fp.mul)

/-- FDIV (R91). Quotient. -/
def execFdiv (c : Nat) (d a b : BitVec 6) (single : Bool) (s : State) : Out :=
  s.upd (fp2 c d a b single Fp.div)

/-- FSQRT (R91). Square root. -/
def execFsqrt (c : Nat) (d a : BitVec 6) (single : Bool) (s : State) : Out :=
  s.upd (fp1 c d a single Fp.sqrt)

/-- FMIN (R91). minimumNumber. -/
def execFmin (c : Nat) (d a b : BitVec 6) (single : Bool) (s : State) : Out :=
  s.upd (fpBits c d a b single (fun f => Fp.minMax f false))

/-- FMAX (R91). maximumNumber. -/
def execFmax (c : Nat) (d a b : BitVec 6) (single : Bool) (s : State) : Out :=
  s.upd (fpBits c d a b single (fun f => Fp.minMax f true))

/-- FSGNJ (R91). srcA with the sign of srcB. -/
def execFsgnj (c : Nat) (d a b : BitVec 6) (single : Bool) (s : State) : Out :=
  s.upd (fpBits c d a b single (fun f x y => (fpSign f (fun _ y => y) x y, .none)))

/-- FSGNJN (R91). srcA with the inverted sign of srcB. -/
def execFsgnjn (c : Nat) (d a b : BitVec 6) (single : Bool) (s : State) : Out :=
  s.upd (fpBits c d a b single (fun f x y => (fpSign f (fun _ y => ! y) x y, .none)))

/-- FSGNJX (R91). srcA with the XOR of the signs. -/
def execFsgnjx (c : Nat) (d a b : BitVec 6) (single : Bool) (s : State) : Out :=
  s.upd (fpBits c d a b single (fun f x y => (fpSign f (fun x y => x != y) x y, .none)))

/-- FEQ (R91). Equal; quiet. -/
def execFeq (c : Nat) (d a b : BitVec 6) (single : Bool) (s : State) : Out :=
  s.upd (fpCmp c d a b single (fun x y => Fp.compare x y false true true))

/-- FLT (R91). Less; signals on NaN. -/
def execFlt (c : Nat) (d a b : BitVec 6) (single : Bool) (s : State) : Out :=
  s.upd (fpCmp c d a b single (fun x y => Fp.compare x y true false false))

/-- FLE (R91). Less or equal; signals on NaN. -/
def execFle (c : Nat) (d a b : BitVec 6) (single : Bool) (s : State) : Out :=
  s.upd (fpCmp c d a b single (fun x y => Fp.compare x y true true false))

/-- FCLASS (R91). Class mask. -/
def execFclass (c : Nat) (d a : BitVec 6) (single : Bool) (s : State) : Out :=
  s.upd (fpClass c d a single)

/-- FMADD (R91). a · b + dst. -/
def execFmadd (c : Nat) (d a b : BitVec 6) (single : Bool) (s : State) : Out :=
  s.upd (fp3 c d a b single (fun f rm x y z => Fp.fma f rm x y z))

/-- FMSUB (R91). a · b − dst. -/
def execFmsub (c : Nat) (d a b : BitVec 6) (single : Bool) (s : State) : Out :=
  s.upd (fp3 c d a b single (fun f rm x y z => Fp.fma f rm x y z.neg))

/-- FNMADD (R91). −(a · b) − dst. -/
def execFnmadd (c : Nat) (d a b : BitVec 6) (single : Bool) (s : State) : Out :=
  s.upd (fp3 c d a b single (fun f rm x y z => Fp.fma f rm x.neg y z.neg))

/-- FNMSUB (R91). −(a · b) + dst. -/
def execFnmsub (c : Nat) (d a b : BitVec 6) (single : Bool) (s : State) : Out :=
  s.upd (fp3 c d a b single (fun f rm x y z => Fp.fma f rm x.neg y z))

/-- FCVT_D_L (R92). Signed integer to floating point. -/
def execFcvtDL (c : Nat) (d a : BitVec 6) (s : State) : Out :=
  s.upd (fpFrom c d a (fun rm x => Fp.ofInt Fp.f64 rm x.toInt))

/-- FCVT_D_LU (R92). Unsigned integer to floating point. -/
def execFcvtDLu (c : Nat) (d a : BitVec 6) (s : State) : Out :=
  s.upd (fpFrom c d a (fun rm x => Fp.ofInt Fp.f64 rm (x.toNat : Int)))

/-- FCVT_S_L (R92). Signed integer to floating point. -/
def execFcvtSL (c : Nat) (d a : BitVec 6) (s : State) : Out :=
  s.upd (fpFrom c d a (fun rm x => Fp.ofInt Fp.f32 rm x.toInt))

/-- FCVT_S_LU (R92). Unsigned integer to floating point. -/
def execFcvtSLu (c : Nat) (d a : BitVec 6) (s : State) : Out :=
  s.upd (fpFrom c d a (fun rm x => Fp.ofInt Fp.f32 rm (x.toNat : Int)))

/-- FCVT_L_D (R92). Floating point to signed integer. -/
def execFcvtLD (c : Nat) (d a : BitVec 6) (s : State) : Out :=
  s.upd (fpTo c d a Fp.f64 true)

/-- FCVT_LU_D (R92). Floating point to unsigned integer. -/
def execFcvtLuD (c : Nat) (d a : BitVec 6) (s : State) : Out :=
  s.upd (fpTo c d a Fp.f64 false)

/-- FCVT_L_S (R92). Floating point to signed integer. -/
def execFcvtLS (c : Nat) (d a : BitVec 6) (s : State) : Out :=
  s.upd (fpTo c d a Fp.f32 true)

/-- FCVT_LU_S (R92). Floating point to unsigned integer. -/
def execFcvtLuS (c : Nat) (d a : BitVec 6) (s : State) : Out :=
  s.upd (fpTo c d a Fp.f32 false)

/-- FCVT_S_D (R92). Conversion between formats. -/
def execFcvtSD (c : Nat) (d a : BitVec 6) (s : State) : Out :=
  s.upd (fpFrom c d a (fun rm x => Fp.convert Fp.f32 rm (Fp.unpack Fp.f64 x.toNat)))

/-- FCVT_D_S (R92). Conversion between formats. -/
def execFcvtDS (c : Nat) (d a : BitVec 6) (s : State) : Out :=
  s.upd (fpFrom c d a (fun rm x => Fp.convert Fp.f64 rm (Fp.unpack Fp.f32 x.toNat)))

/-- FCVT_H_S (R92). Conversion between formats. -/
def execFcvtHS (c : Nat) (d a : BitVec 6) (s : State) : Out :=
  s.upd (fpFrom c d a (fun rm x => Fp.convert Fp.f16 rm (Fp.unpack Fp.f32 x.toNat)))

/-- FCVT_S_H (R92). Conversion between formats. -/
def execFcvtSH (c : Nat) (d a : BitVec 6) (s : State) : Out :=
  s.upd (fpFrom c d a (fun rm x => Fp.convert Fp.f32 rm (Fp.unpack Fp.f16 x.toNat)))

/-- FCVT_B_S (R92). Conversion between formats. -/
def execFcvtBS (c : Nat) (d a : BitVec 6) (s : State) : Out :=
  s.upd (fpFrom c d a (fun rm x => Fp.convert Fp.bf16 rm (Fp.unpack Fp.f32 x.toNat)))

/-- FCVT_S_B (R92). Conversion between formats. -/
def execFcvtSB (c : Nat) (d a : BitVec 6) (s : State) : Out :=
  s.upd (fpFrom c d a (fun rm x => Fp.convert Fp.f32 rm (Fp.unpack Fp.bf16 x.toNat)))

end Sys2Proof.Machine
end

