-- ==== Sys2Proof/Machine/Integer.lean ====
section
/-!
DEFINITION. The meanings of the integer instructions (R77 to R79).
-/

namespace Sys2Proof.Machine

/-- ADD (R77). Sum modulo 2⁶⁴. -/
def execAdd (c : Nat) (d a b : BitVec 6) (s : State) : Out :=
  s.upd (alu2 c d a b (fun x y => x + y))

/-- SUB (R77). Difference modulo 2⁶⁴. -/
def execSub (c : Nat) (d a b : BitVec 6) (s : State) : Out :=
  s.upd (alu2 c d a b (fun x y => x - y))

/-- AND (R77). Bitwise AND. -/
def execAnd (c : Nat) (d a b : BitVec 6) (s : State) : Out :=
  s.upd (alu2 c d a b (fun x y => x &&& y))

/-- OR (R77). Bitwise OR. -/
def execOr (c : Nat) (d a b : BitVec 6) (s : State) : Out :=
  s.upd (alu2 c d a b (fun x y => x ||| y))

/-- XOR (R77). Bitwise XOR. -/
def execXor (c : Nat) (d a b : BitVec 6) (s : State) : Out :=
  s.upd (alu2 c d a b (fun x y => x ^^^ y))

/-- ANDN (R77). srcA AND NOT srcB. -/
def execAndn (c : Nat) (d a b : BitVec 6) (s : State) : Out :=
  s.upd (alu2 c d a b (fun x y => x &&& ~~~y))

/-- ORN (R77). srcA OR NOT srcB. -/
def execOrn (c : Nat) (d a b : BitVec 6) (s : State) : Out :=
  s.upd (alu2 c d a b (fun x y => x ||| ~~~y))

/-- XNOR (R77). NOT of the XOR. -/
def execXnor (c : Nat) (d a b : BitVec 6) (s : State) : Out :=
  s.upd (alu2 c d a b (fun x y => ~~~(x ^^^ y)))

/-- SHL (R77). Left shift. -/
def execShl (c : Nat) (d a b : BitVec 6) (s : State) : Out :=
  s.upd (alu2 c d a b opShl)

/-- SHR (R77). Logical right shift. -/
def execShr (c : Nat) (d a b : BitVec 6) (s : State) : Out :=
  s.upd (alu2 c d a b opShr)

/-- SRA (R77). Arithmetic right shift. -/
def execSra (c : Nat) (d a b : BitVec 6) (s : State) : Out :=
  s.upd (alu2 c d a b opSra)

/-- ROR (R77). Rotate right. -/
def execRor (c : Nat) (d a b : BitVec 6) (s : State) : Out :=
  s.upd (alu2 c d a b opRor)

/-- SLT (R77). Signed less-than. -/
def execSlt (c : Nat) (d a b : BitVec 6) (s : State) : Out :=
  s.upd (alu2 c d a b opSlt)

/-- SLTU (R77). Unsigned less-than. -/
def execSltu (c : Nat) (d a b : BitVec 6) (s : State) : Out :=
  s.upd (alu2 c d a b opSltu)

/-- SEQ (R77). Equality. -/
def execSeq (c : Nat) (d a b : BitVec 6) (s : State) : Out :=
  s.upd (alu2 c d a b (fun x y => ofBool (x == y)))

/-- MIN (R77). Signed minimum. -/
def execMin (c : Nat) (d a b : BitVec 6) (s : State) : Out :=
  s.upd (alu2 c d a b opMin)

/-- MAX (R77). Signed maximum. -/
def execMax (c : Nat) (d a b : BitVec 6) (s : State) : Out :=
  s.upd (alu2 c d a b opMax)

/-- MINU (R77). Unsigned minimum. -/
def execMinu (c : Nat) (d a b : BitVec 6) (s : State) : Out :=
  s.upd (alu2 c d a b opMinu)

/-- MAXU (R77). Unsigned maximum. -/
def execMaxu (c : Nat) (d a b : BitVec 6) (s : State) : Out :=
  s.upd (alu2 c d a b opMaxu)

/-- CLZ (R77). Leading zero bits. -/
def execClz (c : Nat) (d a : BitVec 6) (s : State) : Out :=
  s.upd (alu1 c d a opClz)

/-- CTZ (R77). Trailing zero bits. -/
def execCtz (c : Nat) (d a : BitVec 6) (s : State) : Out :=
  s.upd (alu1 c d a opCtz)

/-- POPC (R77). One bits. -/
def execPopc (c : Nat) (d a : BitVec 6) (s : State) : Out :=
  s.upd (alu1 c d a opPopc)

/-- BSWAP (R77). Bytes reversed. -/
def execBswap (c : Nat) (d a : BitVec 6) (s : State) : Out :=
  s.upd (alu1 c d a opBswap)

/-- SEXTB (R77). Sign-extended byte. -/
def execSextb (c : Nat) (d a : BitVec 6) (s : State) : Out :=
  s.upd (alu1 c d a (sextN 8))

/-- SEXTH (R77). Sign-extended half. -/
def execSexth (c : Nat) (d a : BitVec 6) (s : State) : Out :=
  s.upd (alu1 c d a (sextN 16))

/-- SEXTW (R77). Sign-extended 32 bits. -/
def execSextw (c : Nat) (d a : BitVec 6) (s : State) : Out :=
  s.upd (alu1 c d a (sextN 32))

/-- ZEXTW (R77). Zero-extended 32 bits. -/
def execZextw (c : Nat) (d a : BitVec 6) (s : State) : Out :=
  s.upd (alu1 c d a (zextN 32))

/-- CSEL (R77). srcA where the old dst payload is not 0, else srcB. -/
def execCsel (c : Nat) (d a b : BitVec 6) (s : State) : Out :=
  s.upd (alu3 c d a b (fun z x y => if z ≠ 0 then x else y))

/-- MUL (R78). Low product. -/
def execMul (c : Nat) (d a b : BitVec 6) (s : State) : Out :=
  s.upd (alu2 c d a b (fun x y => x * y))

/-- MULH (R78). High signed product. -/
def execMulh (c : Nat) (d a b : BitVec 6) (s : State) : Out :=
  s.upd (alu2 c d a b opMulh)

/-- MULHU (R78). High unsigned product. -/
def execMulhu (c : Nat) (d a b : BitVec 6) (s : State) : Out :=
  s.upd (alu2 c d a b opMulhu)

/-- MULHSU (R78). High signed by unsigned product. -/
def execMulhsu (c : Nat) (d a b : BitVec 6) (s : State) : Out :=
  s.upd (alu2 c d a b opMulhsu)

/-- DIV (R78). Signed quotient. -/
def execDiv (c : Nat) (d a b : BitVec 6) (s : State) : Out :=
  s.upd (alu2 c d a b opDiv)

/-- DIVU (R78). Unsigned quotient. -/
def execDivu (c : Nat) (d a b : BitVec 6) (s : State) : Out :=
  s.upd (alu2 c d a b opDivu)

/-- REM (R78). Signed remainder. -/
def execRem (c : Nat) (d a b : BitVec 6) (s : State) : Out :=
  s.upd (alu2 c d a b opRem)

/-- REMU (R78). Unsigned remainder. -/
def execRemu (c : Nat) (d a b : BitVec 6) (s : State) : Out :=
  s.upd (alu2 c d a b opRemu)

/-- ADDI (R79). Sum with the immediate. -/
def execAddi (c : Nat) (d a : BitVec 6) (imm : BitVec 14) (s : State) : Out :=
  s.upd (alu1 c d a (fun x => x + imm64 imm))

/-- ANDI (R79). AND with the immediate. -/
def execAndi (c : Nat) (d a : BitVec 6) (imm : BitVec 14) (s : State) : Out :=
  s.upd (alu1 c d a (fun x => x &&& imm64 imm))

/-- ORI (R79). OR with the immediate. -/
def execOri (c : Nat) (d a : BitVec 6) (imm : BitVec 14) (s : State) : Out :=
  s.upd (alu1 c d a (fun x => x ||| imm64 imm))

/-- XORI (R79). XOR with the immediate. -/
def execXori (c : Nat) (d a : BitVec 6) (imm : BitVec 14) (s : State) : Out :=
  s.upd (alu1 c d a (fun x => x ^^^ imm64 imm))

/-- SLTI (R79). Signed compare with the immediate. -/
def execSlti (c : Nat) (d a : BitVec 6) (imm : BitVec 14) (s : State) : Out :=
  s.upd (alu1 c d a (fun x => opSlt x (imm64 imm)))

/-- SLTIU (R79). Unsigned compare with the sign-extended immediate. -/
def execSltiu (c : Nat) (d a : BitVec 6) (imm : BitVec 14) (s : State) : Out :=
  s.upd (alu1 c d a (fun x => opSltu x (imm64 imm)))

/-- ORIS (R79). Shift left by 14 and insert the immediate. -/
def execOris (c : Nat) (d a : BitVec 6) (imm : BitVec 14) (s : State) : Out :=
  s.upd (alu1 c d a (fun x => (x <<< 14) ||| imm.zeroExtend 64))

/-- SHIFTI (R79). Shift by an immediate; imm[11:6] must be 0. -/
def execShifti (c : Nat) (d a : BitVec 6) (imm : BitVec 14) (s : State) : Out :=
  s.upd (alu1If (decide (imm.toNat / 64 % 64 = 0)) c d a (opShifti imm))

/-- BFX (R79). Field extract; imm[13] must be 0. -/
def execBfx (c : Nat) (d a : BitVec 6) (imm : BitVec 14) (s : State) : Out :=
  s.upd (alu1If (! imm.getLsbD 13) c d a (opBfx imm))

end Sys2Proof.Machine
end

