-- ==== Sys2Proof/Machine/Packed.lean ====
section
/-!
DEFINITION. The short-vector instructions (R93, R94).
-/

namespace Sys2Proof.Machine

/-- Signed saturation to `n` bits. -/
def satS (n : Nat) (v : Int) : Int := max (-(2 ^ (n - 1) : Int)) (min v (2 ^ (n - 1) - 1))
/-- Unsigned saturation to `n` bits. -/
def satU (n : Nat) (v : Nat) : Nat := min v (2 ^ n - 1)
/-- A signed value clamped to the unsigned range of `n` bits. -/
def clampU (n : Nat) (v : Int) : Int := max 0 (min v (2 ^ n - 1))
/-- All ones of `n` bits, or 0. -/
def ones (n : Nat) (b : Bool) : Nat := if b then 2 ^ n - 1 else 0
/-- All ones of a signed lane, or 0. -/
def onesI (_ : Nat) (b : Bool) : Int := if b then -1 else 0

/-- Lane `i` of `n` bits, unsigned. -/
def laneAt (n i : Nat) (x : W64) : Nat := fld x (n * i) n
/-- Lane `i` of `n` bits, signed. -/
def laneAtS (n i : Nat) (x : W64) : Int := (BitVec.ofNat n (laneAt n i x)).toInt
/-- The low `n` bits of an integer. -/
def lowBits (n : Nat) (v : Int) : Nat := (v % (2 ^ n : Int)).toNat
/-- A payload from its lanes. -/
def ofLanes (n : Nat) (l : List Nat) : W64 :=
  (l.zipIdx).foldl (fun v p => setFld v (n * p.2) n p.1) 0

/-- An unsigned operation per lane of `n` bits. -/
def laneU (f : Nat → Nat → Nat → Nat) (n : Nat) (x y : W64) : W64 :=
  ofLanes n ((List.range (64 / n)).map (fun i => f n (laneAt n i x) (laneAt n i y)))
/-- A signed operation per lane of `n` bits. -/
def laneS (f : Nat → Int → Int → Int) (n : Nat) (x y : W64) : W64 :=
  ofLanes n ((List.range (64 / n)).map (fun i => lowBits n (f n (laneAtS n i x) (laneAtS n i y))))

/-- Left shift of each lane by srcB[5:0]; 0 from the lane width on (R93). -/
def pkShl (n : Nat) (x y : W64) : W64 :=
  ofLanes n ((List.range (64 / n)).map (fun i => if n ≤ sh6 y then 0 else laneAt n i x * 2 ^ sh6 y))
/-- Logical right shift of each lane. -/
def pkShr (n : Nat) (x y : W64) : W64 :=
  ofLanes n ((List.range (64 / n)).map (fun i => laneAt n i x / 2 ^ sh6 y))
/-- Arithmetic right shift of each lane; sign fill from the lane width on. -/
def pkSra (n : Nat) (x y : W64) : W64 :=
  ofLanes n ((List.range (64 / n)).map (fun i => lowBits n (laneAtS n i x / (2 ^ sh6 y : Int))))

/-- Opcodes 0x30 and 0x31: func[1:0] selects lanes of 8, 16 or 32 bits; 3 traps ILLEGAL (R93). -/
def pkLanes (c : Nat) (d a b : BitVec 6) (w : BitVec 2) (f : Nat → W64 → W64 → W64) (m : Mach) : Mach :=
  alu2If (decide (w ≠ 3)) c d a b (f (8 * 2 ^ w.toNat)) m

/-- PKSEL (R94): byte j of the result is byte srcB[4j+3:4j] of srcA and the old dst. -/
def opPksel (z x y : W64) : W64 :=
  ofLanes 8 ((List.range 8).map (fun j =>
    let k := fld y (4 * j) 4
    if k < 8 then laneAt 8 k x else laneAt 8 (k - 8) z))
/-- The lanes of srcA, then of srcB, each narrowed to half its width (R94). -/
def opNarrow (n : Nat) (f : Int → Int) (x y : W64) : W64 :=
  let k := 64 / n
  ofLanes (n / 2) (((List.range k).map (fun i => lowBits (n / 2) (f (laneAtS n i x))))
    ++ (List.range k).map (fun i => lowBits (n / 2) (f (laneAtS n i y))))
/-- Lanes from `lo` of srcA and srcB interleaved, srcA first (R94). -/
def opZip (n lo : Nat) (x y : W64) : W64 :=
  ofLanes n ((List.range (32 / n)).flatMap (fun i => [laneAt n (lo + i) x, laneAt n (lo + i) y]))
/-- PKDOT16 (R94). -/
def opDot16 (x y : W64) : W64 :=
  BitVec.ofInt 64 ((List.range 4).foldl (fun t i => t + laneAtS 16 i x * laneAtS 16 i y) 0)
/-- PKDOTU8 (R94). -/
def opDotU8 (x y : W64) : W64 :=
  BitVec.ofNat 64 ((List.range 8).foldl (fun t i => t + laneAt 8 i x * laneAt 8 i y) 0)
/-- PKDIFSUM8 (R94). -/
def opDifsum8 (x y : W64) : W64 :=
  BitVec.ofNat 64 ((List.range 8).foldl
    (fun t i => t + (max (laneAt 8 i x) (laneAt 8 i y) - min (laneAt 8 i x) (laneAt 8 i y))) 0)
/-- PKSUMU8 (R94). -/
def opSumU8 (x : W64) : W64 := BitVec.ofNat 64 ((List.range 8).foldl (fun t i => t + laneAt 8 i x) 0)
/-- PKSUMS16 (R94). -/
def opSumS16 (x : W64) : W64 := BitVec.ofInt 64 ((List.range 4).foldl (fun t i => t + laneAtS 16 i x) 0)

/-- PKADD (R93). Wrapping sum per lane. -/
def execPkadd (c : Nat) (d a b : BitVec 6) (w : BitVec 2) (s : State) : Out :=
  s.upd (pkLanes c d a b w (laneU (fun _ x y => x + y)))

/-- PKSUB (R93). Wrapping difference per lane. -/
def execPksub (c : Nat) (d a b : BitVec 6) (w : BitVec 2) (s : State) : Out :=
  s.upd (pkLanes c d a b w (laneS (fun _ x y => x - y)))

/-- PKADDSS (R93). Signed saturating sum. -/
def execPkaddss (c : Nat) (d a b : BitVec 6) (w : BitVec 2) (s : State) : Out :=
  s.upd (pkLanes c d a b w (laneS (fun n x y => satS n (x + y))))

/-- PKADDUS (R93). Unsigned saturating sum. -/
def execPkaddus (c : Nat) (d a b : BitVec 6) (w : BitVec 2) (s : State) : Out :=
  s.upd (pkLanes c d a b w (laneU (fun n x y => satU n (x + y))))

/-- PKSUBSS (R93). Signed saturating difference. -/
def execPksubss (c : Nat) (d a b : BitVec 6) (w : BitVec 2) (s : State) : Out :=
  s.upd (pkLanes c d a b w (laneS (fun n x y => satS n (x - y))))

/-- PKSUBUS (R93). Unsigned saturating difference. -/
def execPksubus (c : Nat) (d a b : BitVec 6) (w : BitVec 2) (s : State) : Out :=
  s.upd (pkLanes c d a b w (laneU (fun _ x y => x - y)))

/-- PKMIN (R93). Signed minimum. -/
def execPkmin (c : Nat) (d a b : BitVec 6) (w : BitVec 2) (s : State) : Out :=
  s.upd (pkLanes c d a b w (laneS (fun _ x y => min x y)))

/-- PKMAX (R93). Signed maximum. -/
def execPkmax (c : Nat) (d a b : BitVec 6) (w : BitVec 2) (s : State) : Out :=
  s.upd (pkLanes c d a b w (laneS (fun _ x y => max x y)))

/-- PKMINU (R93). Unsigned minimum. -/
def execPkminu (c : Nat) (d a b : BitVec 6) (w : BitVec 2) (s : State) : Out :=
  s.upd (pkLanes c d a b w (laneU (fun _ x y => min x y)))

/-- PKMAXU (R93). Unsigned maximum. -/
def execPkmaxu (c : Nat) (d a b : BitVec 6) (w : BitVec 2) (s : State) : Out :=
  s.upd (pkLanes c d a b w (laneU (fun _ x y => max x y)))

/-- PKMEANU (R93). Unsigned rounded mean. -/
def execPkmeanu (c : Nat) (d a b : BitVec 6) (w : BitVec 2) (s : State) : Out :=
  s.upd (pkLanes c d a b w (laneU (fun _ x y => (x + y + 1) / 2)))

/-- PKDIFU (R93). Unsigned absolute difference. -/
def execPkdifu (c : Nat) (d a b : BitVec 6) (w : BitVec 2) (s : State) : Out :=
  s.upd (pkLanes c d a b w (laneU (fun _ x y => max x y - min x y)))

/-- PKEQ (R93). All ones where equal. -/
def execPkeq (c : Nat) (d a b : BitVec 6) (w : BitVec 2) (s : State) : Out :=
  s.upd (pkLanes c d a b w (laneU (fun n x y => ones n (decide (x = y)))))

/-- PKGT (R93). All ones where signed greater. -/
def execPkgt (c : Nat) (d a b : BitVec 6) (w : BitVec 2) (s : State) : Out :=
  s.upd (pkLanes c d a b w (laneS (fun n x y => onesI n (decide (y < x)))))

/-- PKGTU (R93). All ones where unsigned greater. -/
def execPkgtu (c : Nat) (d a b : BitVec 6) (w : BitVec 2) (s : State) : Out :=
  s.upd (pkLanes c d a b w (laneU (fun n x y => ones n (decide (y < x)))))

/-- PKMUL (R93). Low product bits. -/
def execPkmul (c : Nat) (d a b : BitVec 6) (w : BitVec 2) (s : State) : Out :=
  s.upd (pkLanes c d a b w (laneU (fun _ x y => x * y)))

/-- PKSHL (R93). Lanes left by srcB[5:0]. -/
def execPkshl (c : Nat) (d a b : BitVec 6) (w : BitVec 2) (s : State) : Out :=
  s.upd (pkLanes c d a b w pkShl)

/-- PKSHR (R93). Lanes logically right by srcB[5:0]. -/
def execPkshr (c : Nat) (d a b : BitVec 6) (w : BitVec 2) (s : State) : Out :=
  s.upd (pkLanes c d a b w pkShr)

/-- PKSRA (R93). Lanes arithmetically right by srcB[5:0]. -/
def execPksra (c : Nat) (d a b : BitVec 6) (w : BitVec 2) (s : State) : Out :=
  s.upd (pkLanes c d a b w pkSra)

/-- PKSEL (R94). Byte select from srcA and the old dst. -/
def execPksel (c : Nat) (d a b : BitVec 6) (s : State) : Out :=
  s.upd (alu3 c d a b opPksel)

/-- PKNRW16S (R94). Narrow 16 to 8 bits, signed saturation. -/
def execPknrw16s (c : Nat) (d a b : BitVec 6) (s : State) : Out :=
  s.upd (alu2 c d a b (opNarrow 16 (fun v => satS 8 v)))

/-- PKNRW16U (R94). Narrow signed 16 to unsigned 8 bits. -/
def execPknrw16u (c : Nat) (d a b : BitVec 6) (s : State) : Out :=
  s.upd (alu2 c d a b (opNarrow 16 (fun v => clampU 8 v)))

/-- PKNRW32S (R94). Narrow 32 to 16 bits, signed saturation. -/
def execPknrw32s (c : Nat) (d a b : BitVec 6) (s : State) : Out :=
  s.upd (alu2 c d a b (opNarrow 32 (fun v => satS 16 v)))

/-- PKZIPL8 (R94). Low bytes interleaved. -/
def execPkzipl8 (c : Nat) (d a b : BitVec 6) (s : State) : Out :=
  s.upd (alu2 c d a b (opZip 8 0))

/-- PKZIPH8 (R94). High bytes interleaved. -/
def execPkziph8 (c : Nat) (d a b : BitVec 6) (s : State) : Out :=
  s.upd (alu2 c d a b (opZip 8 4))

/-- PKZIPL16 (R94). Low halves interleaved. -/
def execPkzipl16 (c : Nat) (d a b : BitVec 6) (s : State) : Out :=
  s.upd (alu2 c d a b (opZip 16 0))

/-- PKZIPH16 (R94). High halves interleaved. -/
def execPkziph16 (c : Nat) (d a b : BitVec 6) (s : State) : Out :=
  s.upd (alu2 c d a b (opZip 16 2))

/-- PKDOT16 (R94). Signed dot product. -/
def execPkdot16 (c : Nat) (d a b : BitVec 6) (s : State) : Out :=
  s.upd (alu2 c d a b (opDot16))

/-- PKDOTU8 (R94). Unsigned byte dot product. -/
def execPkdotu8 (c : Nat) (d a b : BitVec 6) (s : State) : Out :=
  s.upd (alu2 c d a b (opDotU8))

/-- PKDIFSUM8 (R94). Sum of absolute byte differences. -/
def execPkdifsum8 (c : Nat) (d a b : BitVec 6) (s : State) : Out :=
  s.upd (alu2 c d a b (opDifsum8))

/-- PKSUMU8 (R94). Unsigned byte sum. -/
def execPksumu8 (c : Nat) (d a : BitVec 6) (s : State) : Out :=
  s.upd (alu1 c d a opSumU8)

/-- PKSUMS16 (R94). Signed half sum. -/
def execPksums16 (c : Nat) (d a : BitVec 6) (s : State) : Out :=
  s.upd (alu1 c d a opSumS16)

end Sys2Proof.Machine
end

