-- ==== Sys2Proof/Machine/VecOps.lean ====
section
/-!
DEFINITION. Shared operations of the long vectors (R104 to R107, R111, R115, R117 to R122): elements of a register, the
active elements, the frame in which a long-vector instruction runs, element-wise results, compares, and vector memory
accesses.
-/

namespace Sys2Proof.Machine

/-- Element `i` of `w` bits (R106). -/
def VReg.elem (r : VReg) (w i : Nat) : Nat := (r.bits.toNat >>> (i * w)) % 2 ^ w

/-- Whether element `i` is poisoned: any POISON bit of its bytes (R104). -/
def VReg.pois (r : VReg) (w i : Nat) : Bool := decide ((r.poison.toNat >>> (i * (w / 8))) % 2 ^ (w / 8) ≠ 0)

/-- Replace the `n` bits at `lo` of a number. -/
def replBits (v lo n x : Nat) : Nat := v - ((v >>> lo) % 2 ^ n) <<< lo + (x % 2 ^ n) <<< lo

/-- Write element `i` and the POISON bits of its bytes. -/
def VReg.put (r : VReg) (w i v : Nat) (p : Bool) : VReg :=
  ⟨BitVec.ofNat 1024 (replBits r.bits.toNat (i * w) w v),
    BitVec.ofNat 128 (replBits r.poison.toNat (i * (w / 8)) (w / 8) (if p then 2 ^ (w / 8) - 1 else 0))⟩

/-- Mark element `i` poisoned, its bits unchanged. -/
def VReg.taint (r : VReg) (w i : Nat) : VReg := r.put w i (r.elem w i) true

/-- Vector register `r` of core `c`. -/
def Mach.v (m : Mach) (c r : Nat) : VReg := Tab.get .zero (m.core c).v r
/-- Write a vector register. -/
def Mach.setV (m : Mach) (c r : Nat) (x : VReg) : Mach :=
  m.setCore c { m.core c with v := Tab.set .zero (m.core c).v r x }
/-- Mask register `r` of core `c`. -/
def Mach.maskReg (m : Mach) (c r : Nat) : MReg := Tab.get .zero (m.core c).mreg r
/-- Write a mask register. -/
def Mach.setMaskReg (m : Mach) (c r : Nat) (x : MReg) : Mach :=
  m.setCore c { m.core c with mreg := Tab.set .zero (m.core c).mreg r x }

/-- The element width (R105). -/
def Core.ew (x : Core) : Nat := 8 * 2 ^ fld x.vtype 0 2
/-- VLMAX (R106). -/
def Core.vlmax (x : Core) : Nat := 1024 / x.ew
/-- The floating-point format of the element width; none for 8 bits (R111). -/
def Core.vfmt (x : Core) : Option Fp.Fmt :=
  match fld x.vtype 0 2 with
  | 1 => some (if bit x.vtype 2 then Fp.bf16 else Fp.f16)
  | 2 => some Fp.f32
  | 3 => some Fp.f64
  | _ => none

/-- Whether element `i` below VL is active (R106). -/
def Mach.vActive (m : Mach) (c : Nat) (masked : Bool) (i : Nat) : Bool := ! masked || (m.maskReg c 0).bits.getLsbD i

/-- Whether the instruction is masked by a poisoned m0 (R115). -/
def Mach.vMaskPoison (m : Mach) (c : Nat) (masked : Bool) : Bool := masked && (m.maskReg c 0).poison

/-- A long-vector instruction that retires ends its abandonments (R125). -/
def Mach.vRetire (m : Mach) (c : Nat) : Mach := m.setCore c { m.core c with vAbandons := 0 }

/-- The frame of a long-vector instruction: ILLEGAL on a C-core or with a field that must be 0 (R75, R109), then VECTOR
while VILL is 1 (R105), then `body`. -/
def vinstr (c : Nat) (legal : Bool) (body : Mach → Res) (m : Mach) : Mach :=
  m.instr c [0x010] (fun m =>
    if isC c || ! legal then .trap (m.illegal c 0)
    else if bit (m.core c).vtype 63 then .trap (.plain .vector 0 0)
    else body m)

/-- An element result: value, POISON, flags. -/
structure VElem where
  val : Nat
  poison : Bool
  flags : Flags
  deriving DecidableEq, Repr

/-- The destination after element results (R107, R115): active elements below VL are written (`none` leaves one
unchanged), and a poisoned mask taints every element below VL. -/
def Mach.vMap (m : Mach) (c : Nat) (masked : Bool) (old : VReg) (f : Nat → Option VElem) : VReg :=
  let w := (m.core c).ew
  let mp := m.vMaskPoison c masked
  (List.range (m.core c).vl).foldl (fun r i =>
    match (if m.vActive c masked i then f i else none) with
    | some e => r.put w i e.val (e.poison || mp)
    | none => if mp then r.taint w i else r) old

/-- The flags that the active elements raise (R111). -/
def Mach.vFlags (m : Mach) (c : Nat) (masked : Bool) (f : Nat → Option VElem) : Flags :=
  (List.range (m.core c).vl).foldl (fun a i =>
    match (if m.vActive c masked i then f i else none) with
    | some e => a.or e.flags
    | none => a) .none

/-- Write a vector destination from element results. -/
def Mach.vWrite (m : Mach) (c : Nat) (masked : Bool) (vd : Nat) (f : Nat → Option VElem) : Res :=
  .ok (((m.setV c vd (m.vMap c masked (m.v c vd) f)).accrue c (m.vFlags c masked f)).vRetire c)

/-- The second operand: element `i` of vB, or the low bits of a general register (R110). -/
def Mach.vB (m : Mach) (c : Nat) (scalar : Bool) (b i : Nat) : Nat × Bool :=
  let w := (m.core c).ew
  if scalar then (fld (m.g c b).data 0 w, (m.g c b).poison) else ((m.v c b).elem w i, (m.v c b).pois w i)

/-- Whether field srcB is legal: a vector register has its top bit 0 (R109). -/
def vbLegal (scalar : Bool) (b : BitVec 6) : Bool := scalar || ! b.getLsbD 5

/-- Opcodes 0x2A and 0x2B (R112): `acc` for VMACC, which reads the old destination. -/
def vint (c : Nat) (masked : Bool) (vd va : BitVec 5) (scalar : Bool) (b : BitVec 6) (acc : Bool)
    (f : Nat → Nat → Nat → Nat → Nat) : Mach → Mach :=
  vinstr c (vbLegal scalar b) (fun m =>
    let w := (m.core c).ew
    m.vWrite c masked vd.toNat (fun i =>
      let x := m.v c va.toNat
      let y := m.vB c scalar b.toNat i
      let z := m.v c vd.toNat
      some ⟨f w (z.elem w i) (x.elem w i) y.1 % 2 ^ w, x.pois w i || y.2 || (acc && z.pois w i), .none⟩))

/-- Opcodes 0x2C and 0x2D (R113): VECTOR with 8-bit elements (R111). -/
def vfloat (c : Nat) (masked : Bool) (vd va : BitVec 5) (scalar : Bool) (b : BitVec 6) (acc : Bool)
    (f : Fp.Fmt → Nat → Nat → Nat → Nat → Nat × Flags) : Mach → Mach :=
  vinstr c (vbLegal scalar b) (fun m =>
    match (m.core c).vfmt with
    | none => .trap (.plain .vector 0 0)
    | some fm =>
      let w := (m.core c).ew
      m.vWrite c masked vd.toNat (fun i =>
        let x := m.v c va.toNat
        let y := m.vB c scalar b.toNat i
        let z := m.v c vd.toNat
        let r := f fm (m.rm c) (z.elem w i) (x.elem w i) y.1
        some ⟨r.1, x.pois w i || y.2 || (acc && z.pois w i), r.2⟩))

/-- A unary operation of opcodes 0x2C and 0x2D. -/
def vfloat1 (c : Nat) (masked : Bool) (vd va : BitVec 5) (f : Fp.Fmt → Nat → Nat → Nat × Flags) : Mach → Mach :=
  vinstr c true (fun m =>
    match (m.core c).vfmt with
    | none => .trap (.plain .vector 0 0)
    | some fm =>
      let w := (m.core c).ew
      m.vWrite c masked vd.toNat (fun i =>
        let x := m.v c va.toNat
        let r := f fm (m.rm c) (x.elem w i)
        some ⟨r.1, x.pois w i, r.2⟩))

/-- Replace the mask bits of active elements below VL. -/
def Mach.maskBits (m : Mach) (c : Nat) (masked : Bool) (old : BitVec 128) (f : Nat → Bool) : BitVec 128 :=
  BitVec.ofNat 128 ((List.range (m.core c).vl).foldl (fun r i =>
    if m.vActive c masked i then replBits r i 1 (if f i then 1 else 0) else r) old.toNat)

/-- The compares of opcode 0x2E (R114, R115): POISON of md is set when an active element had a poisoned source. -/
def vcmp (c : Nat) (masked : Bool) (md : BitVec 3) (va : BitVec 5) (scalar : Bool) (b : BitVec 6) (fp : Bool)
    (f : Option Fp.Fmt → Nat → Nat → Nat → Bool × Flags) : Mach → Mach :=
  vinstr c (vbLegal scalar b) (fun m =>
    let fm := (m.core c).vfmt
    if fp ∧ fm = none then .trap (.plain .vector 0 0)
    else
      let w := (m.core c).ew
      let x := m.v c va.toNat
      let r := fun i => f fm w (x.elem w i) (m.vB c scalar b.toNat i).1
      let act := (List.range (m.core c).vl).filter (m.vActive c masked)
      let bits := m.maskBits c masked (m.maskReg c md.toNat).bits (fun i => (r i).1)
      let pois := act.any (fun i => x.pois w i || (m.vB c scalar b.toNat i).2)
      let fl := act.foldl (fun a i => a.or (r i).2) .none
      .ok (((m.setMaskReg c md.toNat ⟨bits, pois⟩).accrue c fl).vRetire c))

/-- Mask logic on the bits below VL (R114, R115). -/
def vmlogic (c : Nat) (md ma mb : BitVec 3) (two : Bool) (f : Bool → Bool → Bool) : Mach → Mach :=
  vinstr c true (fun m =>
    let x := m.maskReg c ma.toNat
    let y := m.maskReg c mb.toNat
    let bits := m.maskBits c false (m.maskReg c md.toNat).bits (fun i => f (x.bits.getLsbD i) (y.bits.getLsbD i))
    .ok ((m.setMaskReg c md.toNat ⟨bits, x.poison || (two && y.poison)⟩).vRetire c))

/-- A general register from a mask (R114, R115). -/
def vmread (c : Nat) (d : BitVec 6) (ma : BitVec 3) (f : Nat → BitVec 128 → W64) : Mach → Mach :=
  vinstr c true (fun m =>
    let x := m.maskReg c ma.toNat
    .ok ((m.setG c d.toNat (resWord (f (m.core c).vl x.bits) x.poison)).vRetire c))

/-- Half of a mask from a general register (R114, R115). -/
def vmwrite (c : Nat) (md : BitVec 3) (a : BitVec 6) (lo : Nat) : Mach → Mach :=
  vinstr c true (fun m =>
    let x := m.g c a.toNat
    let old := m.maskReg c md.toNat
    .ok ((m.setMaskReg c md.toNat ⟨BitVec.ofNat 128 (replBits old.bits.toNat lo 64 x.data.toNat), x.poison⟩).vRetire c))

/-- Moves and permutes of opcode 0x2F that write a vector register (R116). -/
def vmove (c : Nat) (masked : Bool) (vd : BitVec 5) (f : Mach → Nat → Nat → Option (Nat × Bool)) : Mach → Mach :=
  vinstr c true (fun m =>
    let w := (m.core c).ew
    m.vWrite c masked vd.toNat (fun i => (f m w i).map (fun r => ⟨r.1 % 2 ^ w, r.2, .none⟩)))

/-- An element as a signed integer. -/
def VReg.sElem (r : VReg) (w i : Nat) : Int := (BitVec.ofNat w (r.elem w i)).toInt

/-- A reduction over the elements of vA below VL (R116). -/
def vreduce (c : Nat) (d : BitVec 6) (va : BitVec 5) (b : BitVec 6) (f : Int → Int → Int) : Mach → Mach :=
  vinstr c true (fun m =>
    let w := (m.core c).ew
    let x := m.v c va.toNat
    let y := m.g c b.toNat
    let is := List.range (m.core c).vl
    let v := is.foldl (fun t i => f t (x.sElem w i)) y.data.toInt
    .ok ((m.setG c d.toNat (resWord (BitVec.ofInt 64 v) (y.poison || is.any (x.pois w)))).vRetire c))

/-- VFREDSUM (R116): an ordered sum that rounds each step. -/
def vfreduce (c : Nat) (d : BitVec 6) (va : BitVec 5) (b : BitVec 6) : Mach → Mach :=
  vinstr c true (fun m =>
    match (m.core c).vfmt with
    | none => .trap (.plain .vector 0 0)
    | some fm =>
      let w := (m.core c).ew
      let x := m.v c va.toNat
      let y := m.g c b.toNat
      let is := List.range (m.core c).vl
      let r := is.foldl (fun (t : Nat × Flags) i =>
        let s := Fp.add fm (m.rm c) (Fp.unpack fm t.1) (Fp.unpack fm (x.elem w i))
        (s.1, t.2.or s.2)) (fld y.data 0 w, .none)
      .ok (((m.setG c d.toNat (resWord (BitVec.ofNat 64 r.1) (y.poison || is.any (x.pois w)))).accrue c r.2).vRetire
        c))

/-! ### Vector memory -/

/-- One checked element of a vector access. -/
structure VPiece where
  i : Nat
  p : Piece
  deriving DecidableEq, Repr, Inhabited

/-- The element-wise part of R118, steps 10 to 15, for element `i` at `ea`. -/
def Mach.vElemCheck (m : Mach) (c : Nat) (g : Grant) (store : Bool) (i b : Nat) (ea : Int) :
    Except Exc (VPiece × Mach) :=
  let w2 := vaWord ea
  let va := va48 ea
  if ea % (b : Int) ≠ 0 then .error { Exc.plain .vector 10 w2 with elem := some i }
  else if ea < (g.base : Int) ∨ (g.limit : Int) < ea + b ∨ (2 ^ 48 : Int) < ea + b then
    .error { Exc.viol .capBounds 11 .vector .cap w2 va with elem := some i }
  else
    let rq : Req := ⟨.vector, [], ⟨! store, store, false⟩, 1, b, true, false, false⟩
    match m.checkHalf c g.colour rq va b with
    | .error e =>
      .error { e with sub := if e.sub = 8 then 12 else if e.sub = 9 then 13 else 14, elem := some i }
    | .ok (p, m1) =>
      let ok := match m1.locate p.pa with
        | .dram | .pinned _ | .cm _ _ | .none => true
        | .rp r _ => bit (m1.reg (rpStop r) (rpWin r) 0x48) 10
        | _ => false
      if ok then .ok (⟨i, p⟩, m1)
      else .error { Exc.viol .capPerm 15 .vector .ctlForm w2 va with elem := some i }

/-- The checks of the active elements in ascending order (R118); step 9 refuses a poisoned index. -/
def Mach.vElems (m : Mach) (c : Nat) (g : Grant) (store : Bool) (b : Nat) (ea : Nat → Int) (idxPoison : Nat → Bool) :
    List Nat → Except Exc (List VPiece × Mach)
  | [] => .ok ([], m)
  | i :: is =>
    if idxPoison i then .error { Exc.plain .poison 9 (vaWord (ea i)) with elem := some i }
    else match m.vElemCheck c g store i b (ea i) with
    | .error e => .error e
    | .ok (p, m1) =>
      match m1.vElems c g store b ea idxPoison is with
      | .error e => .error e
      | .ok (ps, m2) => .ok (p :: ps, m2)

/-- The instruction-level steps 4 to 8 of R118. The fault address is CURSOR (R122). -/
def Mach.vInstrCheck (m : Mach) (c : Nat) (cap : Word) (idxPoison store : Bool) : Except Exc (Grant × Mach) :=
  let w2 := BitVec.ofNat 64 cap.cursor
  if cap.poison || idxPoison then .error (.plain .poison 4 w2)
  else match m.live c cap .vector w2 cap.cursor with
  | .error e => .error { e with sub := e.sub + 3 }
  | .ok (g, _, m1) =>
    if g.otype ≠ 0 then .error (.viol .capPerm 7 .vector .cap w2 cap.cursor)
    else if ! g.has (if store then .W else .R) then .error (.viol .capPerm 8 .vector .cap w2 cap.cursor)
    else .ok (g, m1)

/-- The first element of a load that its target refuses (R24). -/
def Mach.vRefuse (m : Mach) (c : Nat) (g : Grant) : List VPiece → Option Exc
  | [] => none
  | q :: qs =>
    match m.refuseFirst c g .vector [q.p] with
    | some e => some { e with elem := some q.i }
    | none => m.vRefuse c g qs

/-- One element read: a value from CXL memory is the device's, a free value (log entry 15). -/
def Mach.vRead (m : Mach) (c b : Nat) (p : Piece) : Nat × Bool × Mach :=
  match m.locate p.pa with
  | .rp r _ =>
    let m1 := m.countUncore (rpStop r) ⟨0x2A3, (m.core c).world, none, some (coreStop c, coreUnit c), some p.pa⟩ 1
    if bit (m1.reg (rpStop r) (rpWin r) 0x48) 0 then (fld m1.fresh 0 (8 * b), false, m1.drawn)
    else (2 ^ (8 * b) - 1, true, m1.countReg (rpStop r) (rpWin r) 0x48 32 16 1)
  | _ =>
    let m1 := m.readUpsets (some c) false p.pa b
    let x := m1.coreLoad c p.pa b
    (x.1, x.2.1, m1)

/-- The elements of a load into the destination (R119). -/
def Mach.vLoadAll (m : Mach) (c w : Nat) (r : VReg) : List VPiece → VReg × Mach
  | [] => (r, m)
  | q :: qs =>
    let x := m.vRead c (w / 8) q.p
    x.2.2.vLoadAll c w (r.put w q.i x.1 x.2.1) qs

/-- What a store writes into one word: the bytes, their mask, and the OR of the elements' POISON (R119). -/
structure VWord where
  mask : Nat
  data : W64
  poison : Bool
  deriving DecidableEq, Repr, Inhabited

/-- The words that a store touches, in the order of their first element (R121); a later element overwrites. -/
def vWords (b : Nat) : List (Nat × Nat × Bool) → List (Nat × VWord)
  | [] => []
  | l => (l.foldl (fun acc e =>
      let a := e.1 / 8 * 8
      let o := e.1 % 8
      let add := fun (x : VWord) =>
        (⟨x.mask ||| (2 ^ b - 1) * 2 ^ o, setFld x.data (8 * o) (8 * b) e.2.1, x.poison || e.2.2⟩ : VWord)
      match acc.findIdx? (fun p => decide (p.1 = a)) with
      | some j => acc.modify j (fun p => (p.1, add p.2))
      | none => acc ++ [(a, add ⟨0, 0, false⟩)]) [])

/-- Write one word of a vector store at its home (R119, R121). -/
def Mach.vPutWord (m : Mach) (c : Nat) (q : Nat × VWord) : Mach :=
  let m := m.ownFor c 0 q.1
  let old := m.word q.1
  let d := (List.range 8).foldl (fun v i =>
    if q.2.mask.testBit i then setFld v (8 * i) 8 (fld q.2.data (8 * i) 8) else v) old.data
  let m1 := (m.writeN q.1 8 d.toNat).setMeta q.1 ⟨false, q.2.poison || (decide (q.2.mask ≠ 0xFF) && old.poison),
    old.colour⟩
  (m1.mirrorWrite (coreStop c) (coreUnit c) q.1 q.2.mask).l1Inval c (q.1 / 64)

/-- Elements that their target refuses are discarded and held as the refused store (R24, R200). -/
def Mach.vHold (m : Mach) (c : Nat) (g : Grant) (q : VPiece) : Mach :=
  match m.refusal c g false q.p.pa with
  | some (r, st, k) =>
    (m.logSite c st k q.p.pa .vector r).holdRefused c ⟨.capPerm, r, .vector, q.p.va, false, false⟩
  | none =>
    match m.locate q.p.pa with
    | .rp r _ => m.countUncore (rpStop r) ⟨0x2A3, (m.core c).world, none, some (coreStop c, coreUnit c), some q.p.pa⟩ 1
    | _ => m

/-- The checked part of a vector store. -/
def Mach.vStoreAll (m : Mach) (c w : Nat) (g : Grant) (src : VReg) (qs : List VPiece) : Mach :=
  let m1 := qs.foldl (fun acc q => acc.vHold c g q) m
  let here := qs.filter (fun q => m.isMem q.p.pa && (m.refusal c g false q.p.pa).isNone)
  (vWords (w / 8) (here.map (fun q => (q.p.pa, src.elem w q.i, src.pois w q.i)))).foldl
    (fun acc q => acc.vPutWord c q) m1

/-- A vector memory instruction (R117, R118): `ea` gives each element's address, `idx` whether srcB is a general register
to be checked for POISON, `elemPoison` the POISON of an index element. -/
def vmem (c : Nat) (legal masked store : Bool) (vd : BitVec 5) (a : BitVec 6) (idxPoison : Mach → Bool)
    (ea : Mach → Nat → Nat → Int) (elemPoison : Mach → Nat → Nat → Bool) : Mach → Mach := fun m0 =>
  m0.instr c [0x010] (fun m =>
    let x := m.core c
    let cap := m.g c a.toNat
    let w := x.ew
    let w2 := BitVec.ofNat 64 cap.cursor
    if isC c || ! legal then .trap (m.illegal c 0)
    else if bit x.vtype 63 then .trap (.plain .vector 1 w2)
    else if m.vMaskPoison c masked then .trap (.plain .poison 2 w2)
    else
      let act := (List.range x.vl).filter (m.vActive c masked)
      if act.isEmpty then .ok (m.vRetire c)
      else match m.vInstrCheck c cap (idxPoison m) store with
      | .error e => .trap e
      | .ok (g, m1) =>
        match m1.vElems c g store (w / 8) (ea m w) (elemPoison m w) act with
        | .error e => .trap e
        | .ok (qs, m2) =>
          if store then
            if m2.mirrorFull c (qs.map VPiece.p) then .wait m2
            else .ok ((m2.vStoreAll c w g (m.v c vd.toNat) qs).vRetire c)
          else match m2.vRefuse c g qs with
          | some e => .trap e
          | none =>
            let r := m2.vLoadAll c w (m.v c vd.toNat) qs
            .ok ((r.2.setV c vd.toNat r.1).vRetire c))

/-- VLD and VST: unit stride from CURSOR + srcB. -/
def vUnit (c : Nat) (masked store : Bool) (vd : BitVec 5) (a b : BitVec 6) : Mach → Mach :=
  vmem c true masked store vd a (fun m => (m.g c b.toNat).poison)
    (fun m w i => (m.g c a.toNat).cursor + (m.g c b.toNat).data.toInt + i * (w / 8)) (fun _ _ _ => false)

/-- VLDS and VSTS: a stride of srcB bytes. -/
def vStride (c : Nat) (masked store : Bool) (vd : BitVec 5) (a b : BitVec 6) : Mach → Mach :=
  vmem c true masked store vd a (fun m => (m.g c b.toNat).poison)
    (fun m _ i => (m.g c a.toNat).cursor + i * (m.g c b.toNat).data.toInt) (fun _ _ _ => false)

/-- VGATHER and VSCATTER: indices of vB scaled by 2^s. -/
def vIndexed (c : Nat) (masked store : Bool) (vd : BitVec 5) (a : BitVec 6) (vb : BitVec 5) (s : BitVec 2) :
    Mach → Mach :=
  vmem c true masked store vd a (fun _ => false)
    (fun m w i => ((m.g c a.toNat).cursor : Int) + (m.v c vb.toNat).elem w i * 2 ^ s.toNat)
    (fun m w i => (m.v c vb.toNat).pois w i)

/-- SETVL (R108). -/
def setvl (c : Nat) (d a : BitVec 6) (imm : BitVec 14) (m : Mach) : Mach :=
  m.instr c [0x010] (fun m =>
    let x := m.g c a.toNat
    let ew := imm.toNat % 4
    if isC c ∨ 8 ≤ imm.toNat ∨ (imm.getLsbD 2 ∧ ew ≠ 1) then .trap (m.illegal c 0)
    else if x.poison then .trap (.plain .poison 0 0)
    else
      let vl := min x.data.toNat (1024 / (8 * 2 ^ ew))
      let m1 := m.setCore c { m.core c with vl := vl, vtype := BitVec.ofNat 64 (imm.toNat % 8) }
      .ok (m1.setG c d.toNat (.plain (BitVec.ofNat 64 vl))))

end Sys2Proof.Machine
end

