-- ==== Sys2Proof/Machine/Vector.lean ====
section
/-!
DEFINITION. The meanings of the long-vector instructions (R108, R112 to R117). `k` masks by m0; `scalar` takes srcB from
a general register.
-/

namespace Sys2Proof.Machine

/-- VADD (R112). Sum. -/
def execVadd (c : Nat) (k : Bool) (vd va : BitVec 5) (scalar : Bool) (b : BitVec 6) (s : State) : Out :=
  s.upd (vint c k vd va scalar b false (fun _ _ x y => x + y))

/-- VSUB (R112). Difference. -/
def execVsub (c : Nat) (k : Bool) (vd va : BitVec 5) (scalar : Bool) (b : BitVec 6) (s : State) : Out :=
  s.upd (vint c k vd va scalar b false (fun w _ x y => x + 2 ^ w - y))

/-- VAND (R112). AND. -/
def execVand (c : Nat) (k : Bool) (vd va : BitVec 5) (scalar : Bool) (b : BitVec 6) (s : State) : Out :=
  s.upd (vint c k vd va scalar b false (fun _ _ x y => x &&& y))

/-- VOR (R112). OR. -/
def execVor (c : Nat) (k : Bool) (vd va : BitVec 5) (scalar : Bool) (b : BitVec 6) (s : State) : Out :=
  s.upd (vint c k vd va scalar b false (fun _ _ x y => x ||| y))

/-- VXOR (R112). XOR. -/
def execVxor (c : Nat) (k : Bool) (vd va : BitVec 5) (scalar : Bool) (b : BitVec 6) (s : State) : Out :=
  s.upd (vint c k vd va scalar b false (fun _ _ x y => x ^^^ y))

/-- VSHL (R112). Left shift. -/
def execVshl (c : Nat) (k : Bool) (vd va : BitVec 5) (scalar : Bool) (b : BitVec 6) (s : State) : Out :=
  s.upd (vint c k vd va scalar b false (fun _ _ x y => x * 2 ^ (y % 64)))

/-- VSHR (R112). Logical right shift. -/
def execVshr (c : Nat) (k : Bool) (vd va : BitVec 5) (scalar : Bool) (b : BitVec 6) (s : State) : Out :=
  s.upd (vint c k vd va scalar b false (fun _ _ x y => x / 2 ^ (y % 64)))

/-- VSRA (R112). Arithmetic right shift. -/
def execVsra (c : Nat) (k : Bool) (vd va : BitVec 5) (scalar : Bool) (b : BitVec 6) (s : State) : Out :=
  s.upd (vint c k vd va scalar b false (fun w _ x y => lowBits w ((BitVec.ofNat w x).toInt / (2 ^ (y % 64) : Int))))

/-- VMIN (R112). Signed minimum. -/
def execVmin (c : Nat) (k : Bool) (vd va : BitVec 5) (scalar : Bool) (b : BitVec 6) (s : State) : Out :=
  s.upd (vint c k vd va scalar b false (fun w _ x y => if (BitVec.ofNat w x).toInt < (BitVec.ofNat w y).toInt then x else y))

/-- VMAX (R112). Signed maximum. -/
def execVmax (c : Nat) (k : Bool) (vd va : BitVec 5) (scalar : Bool) (b : BitVec 6) (s : State) : Out :=
  s.upd (vint c k vd va scalar b false (fun w _ x y => if (BitVec.ofNat w x).toInt < (BitVec.ofNat w y).toInt then y else x))

/-- VMINU (R112). Unsigned minimum. -/
def execVminu (c : Nat) (k : Bool) (vd va : BitVec 5) (scalar : Bool) (b : BitVec 6) (s : State) : Out :=
  s.upd (vint c k vd va scalar b false (fun _ _ x y => min x y))

/-- VMAXU (R112). Unsigned maximum. -/
def execVmaxu (c : Nat) (k : Bool) (vd va : BitVec 5) (scalar : Bool) (b : BitVec 6) (s : State) : Out :=
  s.upd (vint c k vd va scalar b false (fun _ _ x y => max x y))

/-- VMUL (R112). Low product. -/
def execVmul (c : Nat) (k : Bool) (vd va : BitVec 5) (scalar : Bool) (b : BitVec 6) (s : State) : Out :=
  s.upd (vint c k vd va scalar b false (fun _ _ x y => x * y))

/-- VMULH (R112). High signed product. -/
def execVmulh (c : Nat) (k : Bool) (vd va : BitVec 5) (scalar : Bool) (b : BitVec 6) (s : State) : Out :=
  s.upd (vint c k vd va scalar b false (fun w _ x y => lowBits w ((BitVec.ofNat w x).toInt * (BitVec.ofNat w y).toInt / (2 ^ w : Int))))

/-- VMULHU (R112). High unsigned product. -/
def execVmulhu (c : Nat) (k : Bool) (vd va : BitVec 5) (scalar : Bool) (b : BitVec 6) (s : State) : Out :=
  s.upd (vint c k vd va scalar b false (fun w _ x y => x * y / 2 ^ w))

/-- VMACC (R112). Multiply and accumulate. -/
def execVmacc (c : Nat) (k : Bool) (vd va : BitVec 5) (scalar : Bool) (b : BitVec 6) (s : State) : Out :=
  s.upd (vint c k vd va scalar b true (fun _ z x y => z + x * y))

/-- VADDS (R112). Signed saturating sum. -/
def execVadds (c : Nat) (k : Bool) (vd va : BitVec 5) (scalar : Bool) (b : BitVec 6) (s : State) : Out :=
  s.upd (vint c k vd va scalar b false (fun w _ x y => lowBits w (satS w ((BitVec.ofNat w x).toInt + (BitVec.ofNat w y).toInt))))

/-- VADDUS (R112). Unsigned saturating sum. -/
def execVaddus (c : Nat) (k : Bool) (vd va : BitVec 5) (scalar : Bool) (b : BitVec 6) (s : State) : Out :=
  s.upd (vint c k vd va scalar b false (fun w _ x y => satU w (x + y)))

/-- VSUBS (R112). Signed saturating difference. -/
def execVsubs (c : Nat) (k : Bool) (vd va : BitVec 5) (scalar : Bool) (b : BitVec 6) (s : State) : Out :=
  s.upd (vint c k vd va scalar b false (fun w _ x y => lowBits w (satS w ((BitVec.ofNat w x).toInt - (BitVec.ofNat w y).toInt))))

/-- VSUBUS (R112). Unsigned saturating difference. -/
def execVsubus (c : Nat) (k : Bool) (vd va : BitVec 5) (scalar : Bool) (b : BitVec 6) (s : State) : Out :=
  s.upd (vint c k vd va scalar b false (fun _ _ x y => x - y))

/-- VFADD (R113). Sum. -/
def execVfadd (c : Nat) (k : Bool) (vd va : BitVec 5) (scalar : Bool) (b : BitVec 6) (s : State) : Out :=
  s.upd (vfloat c k vd va scalar b false (fun f rm _ x y => Fp.add f rm (Fp.unpack f x) (Fp.unpack f y)))

/-- VFSUB (R113). Difference. -/
def execVfsub (c : Nat) (k : Bool) (vd va : BitVec 5) (scalar : Bool) (b : BitVec 6) (s : State) : Out :=
  s.upd (vfloat c k vd va scalar b false (fun f rm _ x y => fpSub f rm (Fp.unpack f x) (Fp.unpack f y)))

/-- VFMUL (R113). Product. -/
def execVfmul (c : Nat) (k : Bool) (vd va : BitVec 5) (scalar : Bool) (b : BitVec 6) (s : State) : Out :=
  s.upd (vfloat c k vd va scalar b false (fun f rm _ x y => Fp.mul f rm (Fp.unpack f x) (Fp.unpack f y)))

/-- VFDIV (R113). Quotient. -/
def execVfdiv (c : Nat) (k : Bool) (vd va : BitVec 5) (scalar : Bool) (b : BitVec 6) (s : State) : Out :=
  s.upd (vfloat c k vd va scalar b false (fun f rm _ x y => Fp.div f rm (Fp.unpack f x) (Fp.unpack f y)))

/-- VFMIN (R113). minimumNumber. -/
def execVfmin (c : Nat) (k : Bool) (vd va : BitVec 5) (scalar : Bool) (b : BitVec 6) (s : State) : Out :=
  s.upd (vfloat c k vd va scalar b false (fun f _ _ x y => Fp.minMax f false x y))

/-- VFMAX (R113). maximumNumber. -/
def execVfmax (c : Nat) (k : Bool) (vd va : BitVec 5) (scalar : Bool) (b : BitVec 6) (s : State) : Out :=
  s.upd (vfloat c k vd va scalar b false (fun f _ _ x y => Fp.minMax f true x y))

/-- VFMACC (R113). Fused multiply and add. -/
def execVfmacc (c : Nat) (k : Bool) (vd va : BitVec 5) (scalar : Bool) (b : BitVec 6) (s : State) : Out :=
  s.upd (vfloat c k vd va scalar b true (fun f rm z x y => Fp.fma f rm (Fp.unpack f x) (Fp.unpack f y) (Fp.unpack f z)))

/-- VFNMSAC (R113). Fused negated multiply and add. -/
def execVfnmsac (c : Nat) (k : Bool) (vd va : BitVec 5) (scalar : Bool) (b : BitVec 6) (s : State) : Out :=
  s.upd (vfloat c k vd va scalar b true (fun f rm z x y => Fp.fma f rm (Fp.unpack f x).neg (Fp.unpack f y) (Fp.unpack f z)))

/-- VFSQRT (R113). Square root. -/
def execVfsqrt (c : Nat) (k : Bool) (vd va : BitVec 5) (s : State) : Out :=
  s.upd (vfloat1 c k vd va (fun f rm x => Fp.sqrt f rm (Fp.unpack f x)))

/-- VFCVT.F.X (R113). Signed integer to floating point. -/
def execVfcvtFX (c : Nat) (k : Bool) (vd va : BitVec 5) (s : State) : Out :=
  s.upd (vfloat1 c k vd va (fun f rm x => Fp.ofInt f rm (BitVec.ofNat f.width x).toInt))

/-- VFCVT.X.F (R113). Floating point to signed integer, saturating. -/
def execVfcvtXF (c : Nat) (k : Bool) (vd va : BitVec 5) (s : State) : Out :=
  s.upd (vfloat1 c k vd va (fun f rm x =>
    let r := Fp.toInt rm (-(2 ^ (f.width - 1) : Int)) (2 ^ (f.width - 1) - 1) (Fp.unpack f x)
    (lowBits f.width r.1, r.2)))

/-- VMSEQ (R114). Equal. -/
def execVmseq (c : Nat) (k : Bool) (md : BitVec 3) (va : BitVec 5) (scalar : Bool) (b : BitVec 6) (s : State) : Out :=
  s.upd (vcmp c k md va scalar b false (fun _ _ x y => (decide (x = y), .none)))

/-- VMSNE (R114). Not equal. -/
def execVmsne (c : Nat) (k : Bool) (md : BitVec 3) (va : BitVec 5) (scalar : Bool) (b : BitVec 6) (s : State) : Out :=
  s.upd (vcmp c k md va scalar b false (fun _ _ x y => (decide (x ≠ y), .none)))

/-- VMSLT (R114). Signed less. -/
def execVmslt (c : Nat) (k : Bool) (md : BitVec 3) (va : BitVec 5) (scalar : Bool) (b : BitVec 6) (s : State) : Out :=
  s.upd (vcmp c k md va scalar b false (fun _ w x y => (decide ((BitVec.ofNat w x).toInt < (BitVec.ofNat w y).toInt), .none)))

/-- VMSLTU (R114). Unsigned less. -/
def execVmsltu (c : Nat) (k : Bool) (md : BitVec 3) (va : BitVec 5) (scalar : Bool) (b : BitVec 6) (s : State) : Out :=
  s.upd (vcmp c k md va scalar b false (fun _ _ x y => (decide (x < y), .none)))

/-- VMFEQ (R114). Floating-point equal, quiet. -/
def execVmfeq (c : Nat) (k : Bool) (md : BitVec 3) (va : BitVec 5) (scalar : Bool) (b : BitVec 6) (s : State) : Out :=
  s.upd (vcmp c k md va scalar b true (fun f _ x y =>
    Fp.compare (Fp.unpack (f.getD Fp.f64) x) (Fp.unpack (f.getD Fp.f64) y) false true true))

/-- VMFLT (R114). Floating-point less. -/
def execVmflt (c : Nat) (k : Bool) (md : BitVec 3) (va : BitVec 5) (scalar : Bool) (b : BitVec 6) (s : State) : Out :=
  s.upd (vcmp c k md va scalar b true (fun f _ x y =>
    Fp.compare (Fp.unpack (f.getD Fp.f64) x) (Fp.unpack (f.getD Fp.f64) y) true false false))

/-- VMFLE (R114). Floating-point less or equal. -/
def execVmfle (c : Nat) (k : Bool) (md : BitVec 3) (va : BitVec 5) (scalar : Bool) (b : BitVec 6) (s : State) : Out :=
  s.upd (vcmp c k md va scalar b true (fun f _ x y =>
    Fp.compare (Fp.unpack (f.getD Fp.f64) x) (Fp.unpack (f.getD Fp.f64) y) true true false))

/-- VMAND (R114). AND. -/
def execVmand (c : Nat) (md ma mb : BitVec 3) (s : State) : Out :=
  s.upd (vmlogic c md ma mb true (fun x y => x && y))

/-- VMOR (R114). OR. -/
def execVmor (c : Nat) (md ma mb : BitVec 3) (s : State) : Out :=
  s.upd (vmlogic c md ma mb true (fun x y => x || y))

/-- VMXOR (R114). XOR. -/
def execVmxor (c : Nat) (md ma mb : BitVec 3) (s : State) : Out :=
  s.upd (vmlogic c md ma mb true (fun x y => x != y))

/-- VMANDN (R114). AND NOT. -/
def execVmandn (c : Nat) (md ma mb : BitVec 3) (s : State) : Out :=
  s.upd (vmlogic c md ma mb true (fun x y => x && ! y))

/-- VMNOT (R114). NOT. -/
def execVmnot (c : Nat) (md ma : BitVec 3) (s : State) : Out :=
  s.upd (vmlogic c md ma ma false (fun x _ => ! x))

/-- VMPOPC (R114). Number of 1 bits below VL. -/
def execVmpopc (c : Nat) (d : BitVec 6) (ma : BitVec 3) (s : State) : Out :=
  s.upd (vmread c d ma (fun vl x => BitVec.ofNat 64 ((List.range vl).filter (fun i => x.getLsbD i)).length))

/-- VMFIRST (R114). Lowest 1 bit below VL, or all ones. -/
def execVmfirst (c : Nat) (d : BitVec 6) (ma : BitVec 3) (s : State) : Out :=
  s.upd (vmread c d ma (fun vl x =>
    match (List.range vl).find? (fun i => x.getLsbD i) with
    | some i => BitVec.ofNat 64 i
    | none => BitVec.allOnes 64))

/-- VMRDL (R114). Low half of a mask. -/
def execVmrdl (c : Nat) (d : BitVec 6) (ma : BitVec 3) (s : State) : Out :=
  s.upd (vmread c d ma (fun _ x => x.truncate 64))

/-- VMRDH (R114). High half of a mask. -/
def execVmrdh (c : Nat) (d : BitVec 6) (ma : BitVec 3) (s : State) : Out :=
  s.upd (vmread c d ma (fun _ x => (x >>> 64).truncate 64))

/-- VMWRL (R114). Writes the low half of a mask. -/
def execVmwrl (c : Nat) (md : BitVec 3) (a : BitVec 6) (s : State) : Out :=
  s.upd (vmwrite c md a 0)

/-- VMWRH (R114). Writes the high half of a mask. -/
def execVmwrh (c : Nat) (md : BitVec 3) (a : BitVec 6) (s : State) : Out :=
  s.upd (vmwrite c md a 64)

/-- VMV.V.X (R116). Broadcasts a general register. -/
def execVmvVX (c : Nat) (k : Bool) (vd : BitVec 5) (a : BitVec 6) (s : State) : Out :=
  s.upd (vmove c k vd (fun m w _ => some (fld (m.g c a.toNat).data 0 w, (m.g c a.toNat).poison)))

/-- VMV.X.S (R116). Element 0, sign-extended. -/
def execVmvXS (c : Nat) (d : BitVec 6) (va : BitVec 5) (s : State) : Out :=
  s.upd (vinstr c true (fun m =>
    let w := (m.core c).ew
    let x := m.v c va.toNat
    .ok ((m.setG c d.toNat (resWord (BitVec.ofInt 64 (x.sElem w 0)) (x.pois w 0))).vRetire c)))

/-- VMV.V.V (R116). Copies elements. -/
def execVmvVV (c : Nat) (k : Bool) (vd va : BitVec 5) (s : State) : Out :=
  s.upd (vmove c k vd (fun m w i => some ((m.v c va.toNat).elem w i, (m.v c va.toNat).pois w i)))

/-- VID (R116). Element numbers. -/
def execVid (c : Nat) (k : Bool) (vd : BitVec 5) (s : State) : Out :=
  s.upd (vmove c k vd (fun _ _ i => some (i, false)))

/-- VRGATHER (R116). Gathers elements of a register. -/
def execVrgather (c : Nat) (k : Bool) (vd va vb : BitVec 5) (s : State) : Out :=
  s.upd (vmove c k vd (fun m w i =>
    let j := (m.v c vb.toNat).elem w i
    let p := (m.v c vb.toNat).pois w i
    if j < 1024 / w then some ((m.v c va.toNat).elem w j, (m.v c va.toNat).pois w j || p) else some (0, p)))

/-- VSLIDEDN (R116). Slides elements down. -/
def execVslidedn (c : Nat) (k : Bool) (vd va : BitVec 5) (b : BitVec 6) (s : State) : Out :=
  s.upd (vmove c k vd (fun m w i =>
    let n := (m.g c b.toNat).data.toNat
    let p := (m.g c b.toNat).poison
    if i + n < 1024 / w then some ((m.v c va.toNat).elem w (i + n), (m.v c va.toNat).pois w (i + n) || p)
    else some (0, p)))

/-- VSLIDEUP (R116). Slides elements up; elements below n stay. -/
def execVslideup (c : Nat) (k : Bool) (vd va : BitVec 5) (b : BitVec 6) (s : State) : Out :=
  s.upd (vmove c k vd (fun m w i =>
    let n := (m.g c b.toNat).data.toNat
    if n ≤ i then some ((m.v c va.toNat).elem w (i - n), (m.v c va.toNat).pois w (i - n) || (m.g c b.toNat).poison)
    else none))

/-- VREDSUM (R116). Sum of the elements. -/
def execVredsum (c : Nat) (d : BitVec 6) (va : BitVec 5) (b : BitVec 6) (s : State) : Out :=
  s.upd (vreduce c d va b (fun x y => x + y))

/-- VREDMAX (R116). Signed maximum of the elements. -/
def execVredmax (c : Nat) (d : BitVec 6) (va : BitVec 5) (b : BitVec 6) (s : State) : Out :=
  s.upd (vreduce c d va b (fun x y => max x y))

/-- VREDMIN (R116). Signed minimum of the elements. -/
def execVredmin (c : Nat) (d : BitVec 6) (va : BitVec 5) (b : BitVec 6) (s : State) : Out :=
  s.upd (vreduce c d va b (fun x y => min x y))

/-- VFREDSUM (R116). Ordered floating-point sum. -/
def execVfredsum (c : Nat) (d : BitVec 6) (va : BitVec 5) (b : BitVec 6) (s : State) : Out :=
  s.upd (vfreduce c d va b)

/-- VLD (R117). Unit-stride load. -/
def execVld (c : Nat) (k : Bool) (vd : BitVec 5) (a b : BitVec 6) (s : State) : Out :=
  s.upd (vUnit c k false vd a b)

/-- VST (R117). Unit-stride store. -/
def execVst (c : Nat) (k : Bool) (vd : BitVec 5) (a b : BitVec 6) (s : State) : Out :=
  s.upd (vUnit c k true vd a b)

/-- VLDS (R117). Strided load. -/
def execVlds (c : Nat) (k : Bool) (vd : BitVec 5) (a b : BitVec 6) (s : State) : Out :=
  s.upd (vStride c k false vd a b)

/-- VSTS (R117). Strided store. -/
def execVsts (c : Nat) (k : Bool) (vd : BitVec 5) (a b : BitVec 6) (s : State) : Out :=
  s.upd (vStride c k true vd a b)

/-- VGATHER (R117). Gather load. -/
def execVgather (c : Nat) (k : Bool) (vd : BitVec 5) (a : BitVec 6) (vb : BitVec 5) (sc : BitVec 2) (s : State) : Out :=
  s.upd (vIndexed c k false vd a vb sc)

/-- VSCATTER (R117). Scatter store. -/
def execVscatter (c : Nat) (k : Bool) (vd : BitVec 5) (a : BitVec 6) (vb : BitVec 5) (sc : BitVec 2) (s : State) : Out :=
  s.upd (vIndexed c k true vd a vb sc)

/-- SETVL (R108). Sets VL and VTYPE. -/
def execSetvl (c : Nat) (d a : BitVec 6) (imm : BitVec 14) (s : State) : Out :=
  s.upd (setvl c d a imm)

end Sys2Proof.Machine
end

