-- ==== Sys2Proof/Machine/Dispatch.lean ====
section
/-!
DEFINITION. The dispatch of a command to its meaning, one arm per constructor.
-/

namespace Sys2Proof.Machine

/-- The effect of a command on everything but the queue. -/
def exec (i : Instr) (s : State) : Host.Outcome State Fault Refusal :=
  match i with
  | .add c d a b => Sys2Proof.Machine.execAdd c d a b s
  | .sub c d a b => Sys2Proof.Machine.execSub c d a b s
  | .and c d a b => Sys2Proof.Machine.execAnd c d a b s
  | .or c d a b => Sys2Proof.Machine.execOr c d a b s
  | .xor c d a b => Sys2Proof.Machine.execXor c d a b s
  | .andn c d a b => Sys2Proof.Machine.execAndn c d a b s
  | .orn c d a b => Sys2Proof.Machine.execOrn c d a b s
  | .xnor c d a b => Sys2Proof.Machine.execXnor c d a b s
  | .shl c d a b => Sys2Proof.Machine.execShl c d a b s
  | .shr c d a b => Sys2Proof.Machine.execShr c d a b s
  | .sra c d a b => Sys2Proof.Machine.execSra c d a b s
  | .ror c d a b => Sys2Proof.Machine.execRor c d a b s
  | .slt c d a b => Sys2Proof.Machine.execSlt c d a b s
  | .sltu c d a b => Sys2Proof.Machine.execSltu c d a b s
  | .seq c d a b => Sys2Proof.Machine.execSeq c d a b s
  | .min c d a b => Sys2Proof.Machine.execMin c d a b s
  | .max c d a b => Sys2Proof.Machine.execMax c d a b s
  | .minu c d a b => Sys2Proof.Machine.execMinu c d a b s
  | .maxu c d a b => Sys2Proof.Machine.execMaxu c d a b s
  | .clz c d a => Sys2Proof.Machine.execClz c d a s
  | .ctz c d a => Sys2Proof.Machine.execCtz c d a s
  | .popc c d a => Sys2Proof.Machine.execPopc c d a s
  | .bswap c d a => Sys2Proof.Machine.execBswap c d a s
  | .sextb c d a => Sys2Proof.Machine.execSextb c d a s
  | .sexth c d a => Sys2Proof.Machine.execSexth c d a s
  | .sextw c d a => Sys2Proof.Machine.execSextw c d a s
  | .zextw c d a => Sys2Proof.Machine.execZextw c d a s
  | .csel c d a b => Sys2Proof.Machine.execCsel c d a b s
  | .mul c d a b => Sys2Proof.Machine.execMul c d a b s
  | .mulh c d a b => Sys2Proof.Machine.execMulh c d a b s
  | .mulhu c d a b => Sys2Proof.Machine.execMulhu c d a b s
  | .mulhsu c d a b => Sys2Proof.Machine.execMulhsu c d a b s
  | .div c d a b => Sys2Proof.Machine.execDiv c d a b s
  | .divu c d a b => Sys2Proof.Machine.execDivu c d a b s
  | .rem c d a b => Sys2Proof.Machine.execRem c d a b s
  | .remu c d a b => Sys2Proof.Machine.execRemu c d a b s
  | .addi c d a imm => Sys2Proof.Machine.execAddi c d a imm s
  | .andi c d a imm => Sys2Proof.Machine.execAndi c d a imm s
  | .ori c d a imm => Sys2Proof.Machine.execOri c d a imm s
  | .xori c d a imm => Sys2Proof.Machine.execXori c d a imm s
  | .slti c d a imm => Sys2Proof.Machine.execSlti c d a imm s
  | .sltiu c d a imm => Sys2Proof.Machine.execSltiu c d a imm s
  | .shifti c d a imm => Sys2Proof.Machine.execShifti c d a imm s
  | .oris c d a imm => Sys2Proof.Machine.execOris c d a imm s
  | .bfx c d a imm => Sys2Proof.Machine.execBfx c d a imm s
  | .ld c d a imm => Sys2Proof.Machine.execLd c d a imm s
  | .lw c d a imm => Sys2Proof.Machine.execLw c d a imm s
  | .lwu c d a imm => Sys2Proof.Machine.execLwu c d a imm s
  | .sd c src a imm => Sys2Proof.Machine.execSd c src a imm s
  | .sw c src a imm => Sys2Proof.Machine.execSw c src a imm s
  | .lb c d a imm => Sys2Proof.Machine.execLb c d a imm s
  | .lbu c d a imm => Sys2Proof.Machine.execLbu c d a imm s
  | .lh c d a imm => Sys2Proof.Machine.execLh c d a imm s
  | .lhu c d a imm => Sys2Proof.Machine.execLhu c d a imm s
  | .sb c src a imm => Sys2Proof.Machine.execSb c src a imm s
  | .sh c src a imm => Sys2Proof.Machine.execSh c src a imm s
  | .lbx c d a b => Sys2Proof.Machine.execLbx c d a b s
  | .lbux c d a b => Sys2Proof.Machine.execLbux c d a b s
  | .lhx c d a b => Sys2Proof.Machine.execLhx c d a b s
  | .lhux c d a b => Sys2Proof.Machine.execLhux c d a b s
  | .lwx c d a b => Sys2Proof.Machine.execLwx c d a b s
  | .lwux c d a b => Sys2Proof.Machine.execLwux c d a b s
  | .ldx c d a b => Sys2Proof.Machine.execLdx c d a b s
  | .sbx c src a b => Sys2Proof.Machine.execSbx c src a b s
  | .shx c src a b => Sys2Proof.Machine.execShx c src a b s
  | .swx c src a b => Sys2Proof.Machine.execSwx c src a b s
  | .sdx c src a b => Sys2Proof.Machine.execSdx c src a b s
  | .amoswap c d a b order => Sys2Proof.Machine.execAmoswap c d a b order s
  | .amoadd c d a b order => Sys2Proof.Machine.execAmoadd c d a b order s
  | .amoand c d a b order => Sys2Proof.Machine.execAmoand c d a b order s
  | .amoor c d a b order => Sys2Proof.Machine.execAmoor c d a b order s
  | .amoxor c d a b order => Sys2Proof.Machine.execAmoxor c d a b order s
  | .amomin c d a b order => Sys2Proof.Machine.execAmomin c d a b order s
  | .amomax c d a b order => Sys2Proof.Machine.execAmomax c d a b order s
  | .amominu c d a b order => Sys2Proof.Machine.execAmominu c d a b order s
  | .amomaxu c d a b order => Sys2Proof.Machine.execAmomaxu c d a b order s
  | .cas c d a b order => Sys2Proof.Machine.execCas c d a b order s
  | .beq c a b h off => Sys2Proof.Machine.execBeq c a b h off s
  | .bne c a b h off => Sys2Proof.Machine.execBne c a b h off s
  | .blt c a b h off => Sys2Proof.Machine.execBlt c a b h off s
  | .jal c d off => Sys2Proof.Machine.execJal c d off s
  | .jalr c d a off => Sys2Proof.Machine.execJalr c d a off s
  | .gmint c d a b => Sys2Proof.Machine.execGmint c d a b s
  | .grevoke c d a b => Sys2Proof.Machine.execGrevoke c d a b s
  | .csetc c d a b => Sys2Proof.Machine.execCsetc c d a b s
  | .csetcA c d a b => Sys2Proof.Machine.execCsetcA c d a b s
  | .csetcSr c n a b => Sys2Proof.Machine.execCsetcSr c n a b s
  | .cseal c d a b => Sys2Proof.Machine.execCseal c d a b s
  | .cunseal c d a b => Sys2Proof.Machine.execCunseal c d a b s
  | .cgate c a => Sys2Proof.Machine.execCgate c a s
  | .cretg c => Sys2Proof.Machine.execCretg c s
  | .ctest c d a => Sys2Proof.Machine.execCtest c d a s
  | .ldc c d a imm => Sys2Proof.Machine.execLdc c d a imm s
  | .stc c src a imm => Sys2Proof.Machine.execStc c src a imm s
  | .fadd c d a b single => Sys2Proof.Machine.execFadd c d a b single s
  | .fsub c d a b single => Sys2Proof.Machine.execFsub c d a b single s
  | .fmul c d a b single => Sys2Proof.Machine.execFmul c d a b single s
  | .fdiv c d a b single => Sys2Proof.Machine.execFdiv c d a b single s
  | .fsqrt c d a single => Sys2Proof.Machine.execFsqrt c d a single s
  | .fmin c d a b single => Sys2Proof.Machine.execFmin c d a b single s
  | .fmax c d a b single => Sys2Proof.Machine.execFmax c d a b single s
  | .fsgnj c d a b single => Sys2Proof.Machine.execFsgnj c d a b single s
  | .fsgnjn c d a b single => Sys2Proof.Machine.execFsgnjn c d a b single s
  | .fsgnjx c d a b single => Sys2Proof.Machine.execFsgnjx c d a b single s
  | .feq c d a b single => Sys2Proof.Machine.execFeq c d a b single s
  | .flt c d a b single => Sys2Proof.Machine.execFlt c d a b single s
  | .fle c d a b single => Sys2Proof.Machine.execFle c d a b single s
  | .fclass c d a single => Sys2Proof.Machine.execFclass c d a single s
  | .fmadd c d a b single => Sys2Proof.Machine.execFmadd c d a b single s
  | .fmsub c d a b single => Sys2Proof.Machine.execFmsub c d a b single s
  | .fnmadd c d a b single => Sys2Proof.Machine.execFnmadd c d a b single s
  | .fnmsub c d a b single => Sys2Proof.Machine.execFnmsub c d a b single s
  | .fcvtDL c d a => Sys2Proof.Machine.execFcvtDL c d a s
  | .fcvtDLu c d a => Sys2Proof.Machine.execFcvtDLu c d a s
  | .fcvtLD c d a => Sys2Proof.Machine.execFcvtLD c d a s
  | .fcvtLuD c d a => Sys2Proof.Machine.execFcvtLuD c d a s
  | .fcvtSL c d a => Sys2Proof.Machine.execFcvtSL c d a s
  | .fcvtSLu c d a => Sys2Proof.Machine.execFcvtSLu c d a s
  | .fcvtLS c d a => Sys2Proof.Machine.execFcvtLS c d a s
  | .fcvtLuS c d a => Sys2Proof.Machine.execFcvtLuS c d a s
  | .fcvtSD c d a => Sys2Proof.Machine.execFcvtSD c d a s
  | .fcvtDS c d a => Sys2Proof.Machine.execFcvtDS c d a s
  | .fcvtHS c d a => Sys2Proof.Machine.execFcvtHS c d a s
  | .fcvtSH c d a => Sys2Proof.Machine.execFcvtSH c d a s
  | .fcvtBS c d a => Sys2Proof.Machine.execFcvtBS c d a s
  | .fcvtSB c d a => Sys2Proof.Machine.execFcvtSB c d a s
  | .pkadd c d a b w => Sys2Proof.Machine.execPkadd c d a b w s
  | .pksub c d a b w => Sys2Proof.Machine.execPksub c d a b w s
  | .pkaddss c d a b w => Sys2Proof.Machine.execPkaddss c d a b w s
  | .pkaddus c d a b w => Sys2Proof.Machine.execPkaddus c d a b w s
  | .pksubss c d a b w => Sys2Proof.Machine.execPksubss c d a b w s
  | .pksubus c d a b w => Sys2Proof.Machine.execPksubus c d a b w s
  | .pkmin c d a b w => Sys2Proof.Machine.execPkmin c d a b w s
  | .pkmax c d a b w => Sys2Proof.Machine.execPkmax c d a b w s
  | .pkminu c d a b w => Sys2Proof.Machine.execPkminu c d a b w s
  | .pkmaxu c d a b w => Sys2Proof.Machine.execPkmaxu c d a b w s
  | .pkmeanu c d a b w => Sys2Proof.Machine.execPkmeanu c d a b w s
  | .pkdifu c d a b w => Sys2Proof.Machine.execPkdifu c d a b w s
  | .pkeq c d a b w => Sys2Proof.Machine.execPkeq c d a b w s
  | .pkgt c d a b w => Sys2Proof.Machine.execPkgt c d a b w s
  | .pkgtu c d a b w => Sys2Proof.Machine.execPkgtu c d a b w s
  | .pkmul c d a b w => Sys2Proof.Machine.execPkmul c d a b w s
  | .pkshl c d a b w => Sys2Proof.Machine.execPkshl c d a b w s
  | .pkshr c d a b w => Sys2Proof.Machine.execPkshr c d a b w s
  | .pksra c d a b w => Sys2Proof.Machine.execPksra c d a b w s
  | .pksel c d a b => Sys2Proof.Machine.execPksel c d a b s
  | .pknrw16s c d a b => Sys2Proof.Machine.execPknrw16s c d a b s
  | .pknrw16u c d a b => Sys2Proof.Machine.execPknrw16u c d a b s
  | .pknrw32s c d a b => Sys2Proof.Machine.execPknrw32s c d a b s
  | .pkzipl8 c d a b => Sys2Proof.Machine.execPkzipl8 c d a b s
  | .pkziph8 c d a b => Sys2Proof.Machine.execPkziph8 c d a b s
  | .pkzipl16 c d a b => Sys2Proof.Machine.execPkzipl16 c d a b s
  | .pkziph16 c d a b => Sys2Proof.Machine.execPkziph16 c d a b s
  | .pkdot16 c d a b => Sys2Proof.Machine.execPkdot16 c d a b s
  | .pkdotu8 c d a b => Sys2Proof.Machine.execPkdotu8 c d a b s
  | .pkdifsum8 c d a b => Sys2Proof.Machine.execPkdifsum8 c d a b s
  | .pksumu8 c d a => Sys2Proof.Machine.execPksumu8 c d a s
  | .pksums16 c d a => Sys2Proof.Machine.execPksums16 c d a s
  | .ctlr c d a b => Sys2Proof.Machine.execCtlr c d a b s
  | .ctlw c src a b x => Sys2Proof.Machine.execCtlw c src a b x s
  | .fence c mask => Sys2Proof.Machine.execFence c mask s
  | .mfence c => Sys2Proof.Machine.execMfence c s
  | .isync c => Sys2Proof.Machine.execIsync c s
  | .halt c => Sys2Proof.Machine.execHalt c s
  | .rdsr c d n => Sys2Proof.Machine.execRdsr c d n s
  | .wrsr c n a => Sys2Proof.Machine.execWrsr c n a s
  | .ltake c d a => Sys2Proof.Machine.execLtake c d a s
  | .lout c d a b => Sys2Proof.Machine.execLout c d a b s
  | .lret c d a => Sys2Proof.Machine.execLret c d a s
  | .lput c d a b => Sys2Proof.Machine.execLput c d a b s
  | .lstat c d a => Sys2Proof.Machine.execLstat c d a s
  | .lhand c d a => Sys2Proof.Machine.execLhand c d a s
  | .mntq c d a b => Sys2Proof.Machine.execMntq c d a b s
  | .mntt c d a => Sys2Proof.Machine.execMntt c d a s
  | .mnttW c d a => Sys2Proof.Machine.execMnttW c d a s
  | .ewait c d a => Sys2Proof.Machine.execEwait c d a s
  | .esig c a => Sys2Proof.Machine.execEsig c a s
  | .loop c lv a len => Sys2Proof.Machine.execLoop c lv a len s
  | .loopi c lv count len => Sys2Proof.Machine.execLoopi c lv count len s
  | .setvl c d a imm => Sys2Proof.Machine.execSetvl c d a imm s
  | .vld c k vd a b => Sys2Proof.Machine.execVld c k vd a b s
  | .vst c k vd a b => Sys2Proof.Machine.execVst c k vd a b s
  | .vlds c k vd a b => Sys2Proof.Machine.execVlds c k vd a b s
  | .vsts c k vd a b => Sys2Proof.Machine.execVsts c k vd a b s
  | .vgather c k vd a vb sc => Sys2Proof.Machine.execVgather c k vd a vb sc s
  | .vscatter c k vd a vb sc => Sys2Proof.Machine.execVscatter c k vd a vb sc s
  | .vadd c k vd va scalar b => Sys2Proof.Machine.execVadd c k vd va scalar b s
  | .vsub c k vd va scalar b => Sys2Proof.Machine.execVsub c k vd va scalar b s
  | .vand c k vd va scalar b => Sys2Proof.Machine.execVand c k vd va scalar b s
  | .vor c k vd va scalar b => Sys2Proof.Machine.execVor c k vd va scalar b s
  | .vxor c k vd va scalar b => Sys2Proof.Machine.execVxor c k vd va scalar b s
  | .vshl c k vd va scalar b => Sys2Proof.Machine.execVshl c k vd va scalar b s
  | .vshr c k vd va scalar b => Sys2Proof.Machine.execVshr c k vd va scalar b s
  | .vsra c k vd va scalar b => Sys2Proof.Machine.execVsra c k vd va scalar b s
  | .vmin c k vd va scalar b => Sys2Proof.Machine.execVmin c k vd va scalar b s
  | .vmax c k vd va scalar b => Sys2Proof.Machine.execVmax c k vd va scalar b s
  | .vminu c k vd va scalar b => Sys2Proof.Machine.execVminu c k vd va scalar b s
  | .vmaxu c k vd va scalar b => Sys2Proof.Machine.execVmaxu c k vd va scalar b s
  | .vmul c k vd va scalar b => Sys2Proof.Machine.execVmul c k vd va scalar b s
  | .vmulh c k vd va scalar b => Sys2Proof.Machine.execVmulh c k vd va scalar b s
  | .vmulhu c k vd va scalar b => Sys2Proof.Machine.execVmulhu c k vd va scalar b s
  | .vmacc c k vd va scalar b => Sys2Proof.Machine.execVmacc c k vd va scalar b s
  | .vadds c k vd va scalar b => Sys2Proof.Machine.execVadds c k vd va scalar b s
  | .vaddus c k vd va scalar b => Sys2Proof.Machine.execVaddus c k vd va scalar b s
  | .vsubs c k vd va scalar b => Sys2Proof.Machine.execVsubs c k vd va scalar b s
  | .vsubus c k vd va scalar b => Sys2Proof.Machine.execVsubus c k vd va scalar b s
  | .vfadd c k vd va scalar b => Sys2Proof.Machine.execVfadd c k vd va scalar b s
  | .vfsub c k vd va scalar b => Sys2Proof.Machine.execVfsub c k vd va scalar b s
  | .vfmul c k vd va scalar b => Sys2Proof.Machine.execVfmul c k vd va scalar b s
  | .vfdiv c k vd va scalar b => Sys2Proof.Machine.execVfdiv c k vd va scalar b s
  | .vfsqrt c k vd va => Sys2Proof.Machine.execVfsqrt c k vd va s
  | .vfmin c k vd va scalar b => Sys2Proof.Machine.execVfmin c k vd va scalar b s
  | .vfmax c k vd va scalar b => Sys2Proof.Machine.execVfmax c k vd va scalar b s
  | .vfmacc c k vd va scalar b => Sys2Proof.Machine.execVfmacc c k vd va scalar b s
  | .vfnmsac c k vd va scalar b => Sys2Proof.Machine.execVfnmsac c k vd va scalar b s
  | .vfcvtFX c k vd va => Sys2Proof.Machine.execVfcvtFX c k vd va s
  | .vfcvtXF c k vd va => Sys2Proof.Machine.execVfcvtXF c k vd va s
  | .vmseq c k md va scalar b => Sys2Proof.Machine.execVmseq c k md va scalar b s
  | .vmsne c k md va scalar b => Sys2Proof.Machine.execVmsne c k md va scalar b s
  | .vmslt c k md va scalar b => Sys2Proof.Machine.execVmslt c k md va scalar b s
  | .vmsltu c k md va scalar b => Sys2Proof.Machine.execVmsltu c k md va scalar b s
  | .vmfeq c k md va scalar b => Sys2Proof.Machine.execVmfeq c k md va scalar b s
  | .vmflt c k md va scalar b => Sys2Proof.Machine.execVmflt c k md va scalar b s
  | .vmfle c k md va scalar b => Sys2Proof.Machine.execVmfle c k md va scalar b s
  | .vmand c md ma mb => Sys2Proof.Machine.execVmand c md ma mb s
  | .vmor c md ma mb => Sys2Proof.Machine.execVmor c md ma mb s
  | .vmxor c md ma mb => Sys2Proof.Machine.execVmxor c md ma mb s
  | .vmandn c md ma mb => Sys2Proof.Machine.execVmandn c md ma mb s
  | .vmnot c md ma => Sys2Proof.Machine.execVmnot c md ma s
  | .vmpopc c d ma => Sys2Proof.Machine.execVmpopc c d ma s
  | .vmfirst c d ma => Sys2Proof.Machine.execVmfirst c d ma s
  | .vmrdl c d ma => Sys2Proof.Machine.execVmrdl c d ma s
  | .vmrdh c d ma => Sys2Proof.Machine.execVmrdh c d ma s
  | .vmwrl c md a => Sys2Proof.Machine.execVmwrl c md a s
  | .vmwrh c md a => Sys2Proof.Machine.execVmwrh c md a s
  | .vmvVX c k vd a => Sys2Proof.Machine.execVmvVX c k vd a s
  | .vmvXS c d va => Sys2Proof.Machine.execVmvXS c d va s
  | .vmvVV c k vd va => Sys2Proof.Machine.execVmvVV c k vd va s
  | .vid c k vd => Sys2Proof.Machine.execVid c k vd s
  | .vrgather c k vd va vb => Sys2Proof.Machine.execVrgather c k vd va vb s
  | .vslidedn c k vd va b => Sys2Proof.Machine.execVslidedn c k vd va b s
  | .vslideup c k vd va b => Sys2Proof.Machine.execVslideup c k vd va b s
  | .vredsum c d va b => Sys2Proof.Machine.execVredsum c d va b s
  | .vredmax c d va b => Sys2Proof.Machine.execVredmax c d va b s
  | .vredmin c d va b => Sys2Proof.Machine.execVredmin c d va b s
  | .vfredsum c d va b => Sys2Proof.Machine.execVfredsum c d va b s
  | .takeEventException c vec => Sys2Proof.Machine.execTakeEventException c vec s
  | .takeNmi c vec => Sys2Proof.Machine.execTakeNmi c vec s
  | .refusedStoreResponse c a r addr phys old => Sys2Proof.Machine.execRefusedStoreResponse c a r addr phys old s
  | .takeRefusedStore c => Sys2Proof.Machine.execTakeRefusedStore c s
  | .timerExpires c => Sys2Proof.Machine.execTimerExpires c s
  | .eventDelivery n => Sys2Proof.Machine.execEventDelivery n s
  | .sytEvrRouteWrite mst v => Sys2Proof.Machine.execSytEvrRouteWrite mst v s
  | .sytEvrFire mst v => Sys2Proof.Machine.execSytEvrFire mst v s
  | .nmiNAssert => Sys2Proof.Machine.execNmiNAssert  s
  | .stop mst c vec => Sys2Proof.Machine.execStop mst c vec s
  | .stopComplete c => Sys2Proof.Machine.execStopComplete c s
  | .resume mst c => Sys2Proof.Machine.execResume mst c s
  | .restart mst c => Sys2Proof.Machine.execRestart mst c s
  | .ctxRegisterWrite mst c off w => Sys2Proof.Machine.execCtxRegisterWrite mst c off w s
  | .expertUnlockWrite mst st k v => Sys2Proof.Machine.execExpertUnlockWrite mst st k v s
  | .blkCtrlWrite mst st k v => Sys2Proof.Machine.execBlkCtrlWrite mst st k v s
  | .disableComplete st k => Sys2Proof.Machine.execDisableComplete st k s
  | .violAddrClear mst st k v arrivals => Sys2Proof.Machine.execViolAddrClear mst st k v arrivals s
  | .serialiseTimeout c => Sys2Proof.Machine.execSerialiseTimeout c s
  | .podReset mst p lost => Sys2Proof.Machine.execPodReset mst p lost s
  | .ccReset mst k lost => Sys2Proof.Machine.execCcReset mst k lost s
  | .ccoreL1Disable mst c => Sys2Proof.Machine.execCcoreL1Disable mst c s
  | .ccoreBtbFlush mst c => Sys2Proof.Machine.execCcoreBtbFlush mst c s
  | .mbIdleDrain c n => Sys2Proof.Machine.execMbIdleDrain c n s
  | .prefetchIssue c w trained va => Sys2Proof.Machine.execPrefetchIssue c w trained va s
  | .l2HardwareClean mst c => Sys2Proof.Machine.execL2HardwareClean mst c s
  | .l3Disable mst p => Sys2Proof.Machine.execL3Disable mst p s
  | .rds a line tc victim pinned => Sys2Proof.Machine.execRds a line tc victim pinned s
  | .rdx a line tc victim pinned => Sys2Proof.Machine.execRdx a line tc victim pinned s
  | .upg a line tc victim pinned => Sys2Proof.Machine.execUpg a line tc victim pinned s
  | .rdu mst line tc => Sys2Proof.Machine.execRdu mst line tc s
  | .wru mst line tc mask data poison => Sys2Proof.Machine.execWru mst line tc mask data poison s
  | .wrm mst line tc mask data poison => Sys2Proof.Machine.execWrm mst line tc mask data poison s
  | .atomf mst line tc n op a b => Sys2Proof.Machine.execAtomf mst line tc n op a b s
  | .wbd a line => Sys2Proof.Machine.execWbd a line s
  | .evc a line => Sys2Proof.Machine.execEvc a line s
  | .snpk a line wb => Sys2Proof.Machine.execSnpk a line wb s
  | .snpx a line wb => Sys2Proof.Machine.execSnpx a line wb s
  | .snpi a line => Sys2Proof.Machine.execSnpi a line s
  | .snpc a line wb => Sys2Proof.Machine.execSnpc a line wb s
  | .data stop unit line => Sys2Proof.Machine.execData stop unit line s
  | .go stop unit line => Sys2Proof.Machine.execGo stop unit line s
  | .rsps a line => Sys2Proof.Machine.execRsps a line s
  | .rspi a line => Sys2Proof.Machine.execRspi a line s
  | .rspwbf a line => Sys2Proof.Machine.execRspwbf a line s
  | .cmp stop unit line => Sys2Proof.Machine.execCmp stop unit line s
  | .wback a line => Sys2Proof.Machine.execWback a line s
  | .retry stop unit line => Sys2Proof.Machine.execRetry stop unit line s
  | .credit p => Sys2Proof.Machine.execCredit p s
  | .sliceTableWrite v => Sys2Proof.Machine.execSliceTableWrite v s
  | .bucketMoveComplete => Sys2Proof.Machine.execBucketMoveComplete  s
  | .flitReceive st tc0 ce bad header => Sys2Proof.Machine.execFlitReceive st tc0 ce bad header s
  | .maintenanceCommand n => Sys2Proof.Machine.execMaintenanceCommand n s
  | .slotDone n => Sys2Proof.Machine.execSlotDone n s
  | .mntAbort mst v => Sys2Proof.Machine.execMntAbort mst v s
  | .mcRequest mst line tc op summMiss slots => Sys2Proof.Machine.execMcRequest mst line tc op summMiss slots s
  | .mcOrderWrite mst mc compat => Sys2Proof.Machine.execMcOrderWrite mst mc compat s
  | .refresh ch sub rank bank postpone => Sys2Proof.Machine.execRefresh ch sub rank bank postpone s
  | .calibration ch sub => Sys2Proof.Machine.execCalibration ch sub s
  | .dphyFail mst ch => Sys2Proof.Machine.execDphyFail mst ch s
  | .dphyRetrain mst ch => Sys2Proof.Machine.execDphyRetrain mst ch s
  | .parityRetryFail ch => Sys2Proof.Machine.execParityRetryFail ch s
  | .bankmaskWrite mst ch j v => Sys2Proof.Machine.execBankmaskWrite mst ch j v s
  | .spprStart mst mc v result => Sys2Proof.Machine.execSpprStart mst mc v result s
  | .patrolScrub mc => Sys2Proof.Machine.execPatrolScrub mc s
  | .internalPatrol st k => Sys2Proof.Machine.execInternalPatrol st k s
  | .regionInitWalk ch => Sys2Proof.Machine.execRegionInitWalk ch s
  | .protRemapWrite mst st k v => Sys2Proof.Machine.execProtRemapWrite mst st k v s
  | .protLogselWrite mst st k v => Sys2Proof.Machine.execProtLogselWrite mst st k v s
  | .faultOccurrence rs known => Sys2Proof.Machine.execFaultOccurrence rs known s
  | .collectorSelfFault kind off => Sys2Proof.Machine.execCollectorSelfFault kind off s
  | .fcPendClear mst n v => Sys2Proof.Machine.execFcPendClear mst n v s
  | .fcFeClear mst => Sys2Proof.Machine.execFcFeClear mst s
  | .fcCaldForce mst key => Sys2Proof.Machine.execFcCaldForce mst key s
  | .fcInjGo mst v known => Sys2Proof.Machine.execFcInjGo mst v known s
  | .fcInjSelf mst v => Sys2Proof.Machine.execFcInjSelf mst v s
  | .fcCfglock mst => Sys2Proof.Machine.execFcCfglock mst s
  | .shadowEnd st => Sys2Proof.Machine.execShadowEnd st s
  | .frameReceive q f => Sys2Proof.Machine.execFrameReceive q f s
  | .pauseReceive q pfc enable times => Sys2Proof.Machine.execPauseReceive q pfc enable times s
  | .linkUp q => Sys2Proof.Machine.execLinkUp q s
  | .linkDown q why => Sys2Proof.Machine.execLinkDown q why s
  | .downholdExpiry q => Sys2Proof.Machine.execDownholdExpiry q s
  | .frameTransmit q part late => Sys2Proof.Machine.execFrameTransmit q part late s
  | .gclChange q => Sys2Proof.Machine.execGclChange q s
  | .gclIntervalEnd q => Sys2Proof.Machine.execGclIntervalEnd q s
  | .streamGateIntervalEnd px g => Sys2Proof.Machine.execStreamGateIntervalEnd px g s
  | .recoveryResetTimeout px n => Sys2Proof.Machine.execRecoveryResetTimeout px n s
  | .preemptVerify q ok => Sys2Proof.Machine.execPreemptVerify q ok s
  | .txtsInfoRead mst q => Sys2Proof.Machine.execTxtsInfoRead mst q s
  | .pxSfRead mst px => Sys2Proof.Machine.execPxSfRead mst px s
  | .pxSfWrite mst px => Sys2Proof.Machine.execPxSfWrite mst px s
  | .pxEgRead mst px => Sys2Proof.Machine.execPxEgRead mst px s
  | .pxEgWrite mst px => Sys2Proof.Machine.execPxEgWrite mst px s
  | .pxReset mst px => Sys2Proof.Machine.execPxReset mst px s
  | .pxPortCfgWrite mst q v => Sys2Proof.Machine.execPxPortCfgWrite mst q v s
  | .pxPairWrite mst px n v => Sys2Proof.Machine.execPxPairWrite mst px n v s
  | .iresume mst q v => Sys2Proof.Machine.execIresume mst q v s
  | .eresume mst q v => Sys2Proof.Machine.execEresume mst q v s
  | .recordAdmit px => Sys2Proof.Machine.execRecordAdmit px s
  | .recordAccept q n => Sys2Proof.Machine.execRecordAccept q n s
  | .recordDeliver q bad partnerBad => Sys2Proof.Machine.execRecordDeliver q bad partnerBad s
  | .recordRelease q => Sys2Proof.Machine.execRecordRelease q s
  | .recordSent q n => Sys2Proof.Machine.execRecordSent q n s
  | .recordPairRevoked q n => Sys2Proof.Machine.execRecordPairRevoked q n s
  | .leQRead mst e => Sys2Proof.Machine.execLeQRead mst e s
  | .leQWrite mst e => Sys2Proof.Machine.execLeQWrite mst e s
  | .leReset mst e => Sys2Proof.Machine.execLeReset mst e s
  | .ledgerRebuildComplete e => Sys2Proof.Machine.execLedgerRebuildComplete e s
  | .epnisFrameReceive l num corr bad ack nak b => Sys2Proof.Machine.execEpnisFrameReceive l num corr bad ack nak b s
  | .epnisLinkDown l => Sys2Proof.Machine.execEpnisLinkDown l s
  | .epnisLinkUp l => Sys2Proof.Machine.execEpnisLinkUp l s
  | .psenseFrameReceive p f => Sys2Proof.Machine.execPsenseFrameReceive p f s
  | .heartbeatSend => Sys2Proof.Machine.execHeartbeatSend  s
  | .heartbeatPeriodEnd => Sys2Proof.Machine.execHeartbeatPeriodEnd  s
  | .fenceInAsserted => Sys2Proof.Machine.execFenceInAsserted  s
  | .fenceCommandReceive path id => Sys2Proof.Machine.execFenceCommandReceive path id s
  | .takeover => Sys2Proof.Machine.execTakeover  s
  | .pairJoin mst e => Sys2Proof.Machine.execPairJoin mst e s
  | .pairFence mst e => Sys2Proof.Machine.execPairFence mst e s
  | .pairRaise mst e => Sys2Proof.Machine.execPairRaise mst e s
  | .raiseTimeout => Sys2Proof.Machine.execRaiseTimeout  s
  | .pairTakeoverCmd mst e key => Sys2Proof.Machine.execPairTakeoverCmd mst e key s
  | .joinHandshake p => Sys2Proof.Machine.execJoinHandshake p s
  | .resyncComplete => Sys2Proof.Machine.execResyncComplete  s
  | .mirroredRecordReceive q n r first => Sys2Proof.Machine.execMirroredRecordReceive q n r first s
  | .releaseMarkerReceive q n => Sys2Proof.Machine.execReleaseMarkerReceive q n s
  | .mirrorAckReceive a => Sys2Proof.Machine.execMirrorAckReceive a s
  | .forwardedWriteReceive l line mask data poison => Sys2Proof.Machine.execForwardedWriteReceive l line mask data poison s
  | .dropMarkerReceive q => Sys2Proof.Machine.execDropMarkerReceive q s
  | .partnerCopyRead q n => Sys2Proof.Machine.execPartnerCopyRead q n s
  | .epnMwRead mst e mir => Sys2Proof.Machine.execEpnMwRead mst e mir s
  | .epnMwWrite mst e mir => Sys2Proof.Machine.execEpnMwWrite mst e mir s
  | .epnRoleWrite mst e n v => Sys2Proof.Machine.execEpnRoleWrite mst e n v s
  | .vqfEnable mst e => Sys2Proof.Machine.execVqfEnable mst e s
  | .vqfDisable mst e => Sys2Proof.Machine.execVqfDisable mst e s
  | .vqfFreeze mst e => Sys2Proof.Machine.execVqfFreeze mst e s
  | .vqfThaw mst e => Sys2Proof.Machine.execVqfThaw mst e s
  | .vqfSave mst e => Sys2Proof.Machine.execVqfSave mst e s
  | .vqfRestore mst e partner => Sys2Proof.Machine.execVqfRestore mst e partner s
  | .vqfDrop mst e force => Sys2Proof.Machine.execVqfDrop mst e force s
  | .vqfResume mst e => Sys2Proof.Machine.execVqfResume mst e s
  | .vqfRoundStart => Sys2Proof.Machine.execVqfRoundStart  s
  | .vqfStopComplete e v => Sys2Proof.Machine.execVqfStopComplete e v s
  | .xlInvWrite mst c v => Sys2Proof.Machine.execXlInvWrite mst c v s
  | .xlGS1Write mst c v => Sys2Proof.Machine.execXlGS1Write mst c v s
  | .secWatchdogExpire => Sys2Proof.Machine.execSecWatchdogExpire  s
  | .kick mst => Sys2Proof.Machine.execKick mst s
  | .secRestartRequest mst => Sys2Proof.Machine.execSecRestartRequest mst s
  | .secHoldTimeout d => Sys2Proof.Machine.execSecHoldTimeout d s
  | .secHoldWrite mst v => Sys2Proof.Machine.execSecHoldWrite mst v s
  | .secureRestart img => Sys2Proof.Machine.execSecureRestart img s
  | .pmOn mst dom => Sys2Proof.Machine.execPmOn mst dom s
  | .pmOff mst dom => Sys2Proof.Machine.execPmOff mst dom s
  | .pmFreq mst dom mhz => Sys2Proof.Machine.execPmFreq mst dom mhz s
  | .powerRequestExecute d known => Sys2Proof.Machine.execPowerRequestExecute d known s
  | .supplyFailure d known => Sys2Proof.Machine.execSupplyFailure d known s
  | .powerCapTick mw => Sys2Proof.Machine.execPowerCapTick mw s
  | .pmPlimitWrite mst w => Sys2Proof.Machine.execPmPlimitWrite mst w s
  | .freqChangeComplete p => Sys2Proof.Machine.execFreqChangeComplete p s
  | .thermalSample ts => Sys2Proof.Machine.execThermalSample ts s
  | .thermalTrip => Sys2Proof.Machine.execThermalTrip  s
  | .dtStep mst v => Sys2Proof.Machine.execDtStep mst v s
  | .dtSet mst v => Sys2Proof.Machine.execDtSet mst v s
  | .dtRateWrite mst v => Sys2Proof.Machine.execDtRateWrite mst v s
  | .ppsInEdge t => Sys2Proof.Machine.execPpsInEdge t s
  | .dtPps => Sys2Proof.Machine.execDtPps  s
  | .dtHoldover => Sys2Proof.Machine.execDtHoldover  s
  | .dmaRequest h q => Sys2Proof.Machine.execDmaRequest h q s
  | .rpCfgAccess mst r write data => Sys2Proof.Machine.execRpCfgAccess mst r write data s
  | .hotrst mst r => Sys2Proof.Machine.execHotrst mst r s
  | .rpLinkChange r t => Sys2Proof.Machine.execRpLinkChange r t s
  | .completionTimeout c => Sys2Proof.Machine.execCompletionTimeout c s
  | .dmatInv mst h v => Sys2Proof.Machine.execDmatInv mst h v s
  | .dmatResume mst h rid => Sys2Proof.Machine.execDmatResume mst h rid s
  | .hioReset mst h => Sys2Proof.Machine.execHioReset mst h s
  | .xspiRead mst len err => Sys2Proof.Machine.execXspiRead mst len err s
  | .xspiProgram mst len err => Sys2Proof.Machine.execXspiProgram mst len err s
  | .xspiErase4k mst err => Sys2Proof.Machine.execXspiErase4k mst err s
  | .xspiErase64k mst err => Sys2Proof.Machine.execXspiErase64k mst err s
  | .getStatus => Sys2Proof.Machine.execGetStatus  s
  | .getFe => Sys2Proof.Machine.execGetFe  s
  | .getPend => Sys2Proof.Machine.execGetPend  s
  | .getBootlog => Sys2Proof.Machine.execGetBootlog  s
  | .readReg => Sys2Proof.Machine.execReadReg  s
  | .clearFe => Sys2Proof.Machine.execClearFe  s
  | .setPlimit => Sys2Proof.Machine.execSetPlimit  s
  | .chipReset => Sys2Proof.Machine.execChipReset  s
  | .caldera => Sys2Proof.Machine.execCaldera  s
  | .entdaa a => Sys2Proof.Machine.execEntdaa a s
  | .setdasa sa a => Sys2Proof.Machine.execSetdasa sa a s
  | .rstdaa => Sys2Proof.Machine.execRstdaa  s
  | .getpid => Sys2Proof.Machine.execGetpid  s
  | .getbcr => Sys2Proof.Machine.execGetbcr  s
  | .getdcr => Sys2Proof.Machine.execGetdcr  s
  | .i3cGetstatus => Sys2Proof.Machine.execI3cGetstatus  s
  | .mailboxWrite off bs => Sys2Proof.Machine.execMailboxWrite off bs s
  | .dbgSessOpen c cap => Sys2Proof.Machine.execDbgSessOpen c cap s
  | .dbgSessClose mst => Sys2Proof.Machine.execDbgSessClose mst s
  | .dbgStop c vec => Sys2Proof.Machine.execDbgStop c vec s
  | .dbgResume c => Sys2Proof.Machine.execDbgResume c s
  | .dbgStep c => Sys2Proof.Machine.execDbgStep c s
  | .dbgReadRegs c => Sys2Proof.Machine.execDbgReadRegs c s
  | .dbgWriteRegs c state n v => Sys2Proof.Machine.execDbgWriteRegs c state n v s
  | .extest => Sys2Proof.Machine.execExtest  s
  | .idcode => Sys2Proof.Machine.execIdcode  s
  | .sample => Sys2Proof.Machine.execSample  s
  | .highz => Sys2Proof.Machine.execHighz  s
  | .clamp => Sys2Proof.Machine.execClamp  s
  | .extestPulse => Sys2Proof.Machine.execExtestPulse  s
  | .extestTrain => Sys2Proof.Machine.execExtestTrain  s
  | .dbgacc => Sys2Proof.Machine.execDbgacc  s
  | .bypass => Sys2Proof.Machine.execBypass  s
  | .pmcOvfClear mst st k v => Sys2Proof.Machine.execPmcOvfClear mst st k v s
  | .fumaroleBoundary px => Sys2Proof.Machine.execFumaroleBoundary px s
  | .fumCfgWrite mst px v => Sys2Proof.Machine.execFumCfgWrite mst px v s
  | .fumClrpeak mst px v => Sys2Proof.Machine.execFumClrpeak mst px v s
  | .powerOnReset => Sys2Proof.Machine.execPowerOnReset  s
  | .coldBoot b => Sys2Proof.Machine.execColdBoot b s
  | .resetNAssert => Sys2Proof.Machine.execResetNAssert  s
  | .sytReset mst key => Sys2Proof.Machine.execSytReset mst key s
  | .chipWarmReset => Sys2Proof.Machine.execChipWarmReset  s
  | .resetRelease b => Sys2Proof.Machine.execResetRelease b s
  | .illegalEncoding c word => Sys2Proof.Machine.execIllegalEncoding c word s
  | .instructionFetchFault c => Sys2Proof.Machine.execInstructionFetchFault c s
  | .rootPortCompletion r a => Sys2Proof.Machine.execRootPortCompletion r a s
  | .mailboxRead n => Sys2Proof.Machine.execMailboxRead n s
  | .ppsOutPulseEnd => Sys2Proof.Machine.execPpsOutPulseEnd  s
  | .integratedRegulatorsOff => Sys2Proof.Machine.execIntegratedRegulatorsOff  s
  | .rowIdleClose ch sub rank bank => Sys2Proof.Machine.execRowIdleClose ch sub rank bank s
  | .pauseTimeExpiry q p => Sys2Proof.Machine.execPauseTimeExpiry q p s
  | .pcsBlockLock q => Sys2Proof.Machine.execPcsBlockLock q s
  | .fenceInNEdge asserted => Sys2Proof.Machine.execFenceInNEdge asserted s
  | .nmiNRelease => Sys2Proof.Machine.execNmiNRelease  s

end Sys2Proof.Machine
end

