-- ==== Sys2Proof/WellFormed.lean ====
section
/-!
DEFINITION. Which commands name things that exist: the stop map (R12), the block windows (R16), and the counts of cores (R127,
R155), channels, ports, queues and domains bound the operands. `exec` answers for every command.
-/

namespace Sys2Proof

/-- A master names a stop of R12 and a unit of six bits (R27). -/
def Master.ok (mst : Master) : Bool := decide (mst.stop < 56) && decide (mst.unit < 64)

/-- Whether the operands of a command name things that exist. -/
def Instr.wf (i : Instr) : Bool :=
  match i with
  | .add c _ _ _ => decide (c < 176)
  | .sub c _ _ _ => decide (c < 176)
  | .and c _ _ _ => decide (c < 176)
  | .or c _ _ _ => decide (c < 176)
  | .xor c _ _ _ => decide (c < 176)
  | .andn c _ _ _ => decide (c < 176)
  | .orn c _ _ _ => decide (c < 176)
  | .xnor c _ _ _ => decide (c < 176)
  | .shl c _ _ _ => decide (c < 176)
  | .shr c _ _ _ => decide (c < 176)
  | .sra c _ _ _ => decide (c < 176)
  | .ror c _ _ _ => decide (c < 176)
  | .slt c _ _ _ => decide (c < 176)
  | .sltu c _ _ _ => decide (c < 176)
  | .seq c _ _ _ => decide (c < 176)
  | .min c _ _ _ => decide (c < 176)
  | .max c _ _ _ => decide (c < 176)
  | .minu c _ _ _ => decide (c < 176)
  | .maxu c _ _ _ => decide (c < 176)
  | .clz c _ _ => decide (c < 176)
  | .ctz c _ _ => decide (c < 176)
  | .popc c _ _ => decide (c < 176)
  | .bswap c _ _ => decide (c < 176)
  | .sextb c _ _ => decide (c < 176)
  | .sexth c _ _ => decide (c < 176)
  | .sextw c _ _ => decide (c < 176)
  | .zextw c _ _ => decide (c < 176)
  | .csel c _ _ _ => decide (c < 176)
  | .mul c _ _ _ => decide (c < 176)
  | .mulh c _ _ _ => decide (c < 176)
  | .mulhu c _ _ _ => decide (c < 176)
  | .mulhsu c _ _ _ => decide (c < 176)
  | .div c _ _ _ => decide (c < 176)
  | .divu c _ _ _ => decide (c < 176)
  | .rem c _ _ _ => decide (c < 176)
  | .remu c _ _ _ => decide (c < 176)
  | .addi c _ _ _ => decide (c < 176)
  | .andi c _ _ _ => decide (c < 176)
  | .ori c _ _ _ => decide (c < 176)
  | .xori c _ _ _ => decide (c < 176)
  | .slti c _ _ _ => decide (c < 176)
  | .sltiu c _ _ _ => decide (c < 176)
  | .shifti c _ _ _ => decide (c < 176)
  | .oris c _ _ _ => decide (c < 176)
  | .bfx c _ _ _ => decide (c < 176)
  | .ld c _ _ _ => decide (c < 176)
  | .lw c _ _ _ => decide (c < 176)
  | .lwu c _ _ _ => decide (c < 176)
  | .sd c _ _ _ => decide (c < 176)
  | .sw c _ _ _ => decide (c < 176)
  | .lb c _ _ _ => decide (c < 176)
  | .lbu c _ _ _ => decide (c < 176)
  | .lh c _ _ _ => decide (c < 176)
  | .lhu c _ _ _ => decide (c < 176)
  | .sb c _ _ _ => decide (c < 176)
  | .sh c _ _ _ => decide (c < 176)
  | .lbx c _ _ _ => decide (c < 176)
  | .lbux c _ _ _ => decide (c < 176)
  | .lhx c _ _ _ => decide (c < 176)
  | .lhux c _ _ _ => decide (c < 176)
  | .lwx c _ _ _ => decide (c < 176)
  | .lwux c _ _ _ => decide (c < 176)
  | .ldx c _ _ _ => decide (c < 176)
  | .sbx c _ _ _ => decide (c < 176)
  | .shx c _ _ _ => decide (c < 176)
  | .swx c _ _ _ => decide (c < 176)
  | .sdx c _ _ _ => decide (c < 176)
  | .amoswap c _ _ _ _ => decide (c < 176)
  | .amoadd c _ _ _ _ => decide (c < 176)
  | .amoand c _ _ _ _ => decide (c < 176)
  | .amoor c _ _ _ _ => decide (c < 176)
  | .amoxor c _ _ _ _ => decide (c < 176)
  | .amomin c _ _ _ _ => decide (c < 176)
  | .amomax c _ _ _ _ => decide (c < 176)
  | .amominu c _ _ _ _ => decide (c < 176)
  | .amomaxu c _ _ _ _ => decide (c < 176)
  | .cas c _ _ _ _ => decide (c < 176)
  | .beq c _ _ _ _ => decide (c < 176)
  | .bne c _ _ _ _ => decide (c < 176)
  | .blt c _ _ _ _ => decide (c < 176)
  | .jal c _ _ => decide (c < 176)
  | .jalr c _ _ _ => decide (c < 176)
  | .gmint c _ _ _ => decide (c < 176)
  | .grevoke c _ _ _ => decide (c < 176)
  | .csetc c _ _ _ => decide (c < 176)
  | .csetcA c _ _ _ => decide (c < 176)
  | .csetcSr c _ _ _ => decide (c < 176)
  | .cseal c _ _ _ => decide (c < 176)
  | .cunseal c _ _ _ => decide (c < 176)
  | .cgate c _ => decide (c < 176)
  | .cretg c => decide (c < 176)
  | .ctest c _ _ => decide (c < 176)
  | .ldc c _ _ _ => decide (c < 176)
  | .stc c _ _ _ => decide (c < 176)
  | .fadd c _ _ _ _ => decide (c < 176)
  | .fsub c _ _ _ _ => decide (c < 176)
  | .fmul c _ _ _ _ => decide (c < 176)
  | .fdiv c _ _ _ _ => decide (c < 176)
  | .fsqrt c _ _ _ => decide (c < 176)
  | .fmin c _ _ _ _ => decide (c < 176)
  | .fmax c _ _ _ _ => decide (c < 176)
  | .fsgnj c _ _ _ _ => decide (c < 176)
  | .fsgnjn c _ _ _ _ => decide (c < 176)
  | .fsgnjx c _ _ _ _ => decide (c < 176)
  | .feq c _ _ _ _ => decide (c < 176)
  | .flt c _ _ _ _ => decide (c < 176)
  | .fle c _ _ _ _ => decide (c < 176)
  | .fclass c _ _ _ => decide (c < 176)
  | .fmadd c _ _ _ _ => decide (c < 176)
  | .fmsub c _ _ _ _ => decide (c < 176)
  | .fnmadd c _ _ _ _ => decide (c < 176)
  | .fnmsub c _ _ _ _ => decide (c < 176)
  | .fcvtDL c _ _ => decide (c < 176)
  | .fcvtDLu c _ _ => decide (c < 176)
  | .fcvtLD c _ _ => decide (c < 176)
  | .fcvtLuD c _ _ => decide (c < 176)
  | .fcvtSL c _ _ => decide (c < 176)
  | .fcvtSLu c _ _ => decide (c < 176)
  | .fcvtLS c _ _ => decide (c < 176)
  | .fcvtLuS c _ _ => decide (c < 176)
  | .fcvtSD c _ _ => decide (c < 176)
  | .fcvtDS c _ _ => decide (c < 176)
  | .fcvtHS c _ _ => decide (c < 176)
  | .fcvtSH c _ _ => decide (c < 176)
  | .fcvtBS c _ _ => decide (c < 176)
  | .fcvtSB c _ _ => decide (c < 176)
  | .pkadd c _ _ _ _ => decide (c < 176)
  | .pksub c _ _ _ _ => decide (c < 176)
  | .pkaddss c _ _ _ _ => decide (c < 176)
  | .pkaddus c _ _ _ _ => decide (c < 176)
  | .pksubss c _ _ _ _ => decide (c < 176)
  | .pksubus c _ _ _ _ => decide (c < 176)
  | .pkmin c _ _ _ _ => decide (c < 176)
  | .pkmax c _ _ _ _ => decide (c < 176)
  | .pkminu c _ _ _ _ => decide (c < 176)
  | .pkmaxu c _ _ _ _ => decide (c < 176)
  | .pkmeanu c _ _ _ _ => decide (c < 176)
  | .pkdifu c _ _ _ _ => decide (c < 176)
  | .pkeq c _ _ _ _ => decide (c < 176)
  | .pkgt c _ _ _ _ => decide (c < 176)
  | .pkgtu c _ _ _ _ => decide (c < 176)
  | .pkmul c _ _ _ _ => decide (c < 176)
  | .pkshl c _ _ _ _ => decide (c < 176)
  | .pkshr c _ _ _ _ => decide (c < 176)
  | .pksra c _ _ _ _ => decide (c < 176)
  | .pksel c _ _ _ => decide (c < 176)
  | .pknrw16s c _ _ _ => decide (c < 176)
  | .pknrw16u c _ _ _ => decide (c < 176)
  | .pknrw32s c _ _ _ => decide (c < 176)
  | .pkzipl8 c _ _ _ => decide (c < 176)
  | .pkziph8 c _ _ _ => decide (c < 176)
  | .pkzipl16 c _ _ _ => decide (c < 176)
  | .pkziph16 c _ _ _ => decide (c < 176)
  | .pkdot16 c _ _ _ => decide (c < 176)
  | .pkdotu8 c _ _ _ => decide (c < 176)
  | .pkdifsum8 c _ _ _ => decide (c < 176)
  | .pksumu8 c _ _ => decide (c < 176)
  | .pksums16 c _ _ => decide (c < 176)
  | .ctlr c _ _ _ => decide (c < 176)
  | .ctlw c _ _ _ _ => decide (c < 176)
  | .fence c _ => decide (c < 176)
  | .mfence c => decide (c < 176)
  | .isync c => decide (c < 176)
  | .halt c => decide (c < 176)
  | .rdsr c _ _ => decide (c < 176)
  | .wrsr c _ _ => decide (c < 176)
  | .ltake c _ _ => decide (c < 176)
  | .lout c _ _ _ => decide (c < 176)
  | .lret c _ _ => decide (c < 176)
  | .lput c _ _ _ => decide (c < 176)
  | .lstat c _ _ => decide (c < 176)
  | .lhand c _ _ => decide (c < 176)
  | .mntq c _ _ _ => decide (c < 176)
  | .mntt c _ _ => decide (c < 176)
  | .mnttW c _ _ => decide (c < 176)
  | .ewait c _ _ => decide (c < 176)
  | .esig c _ => decide (c < 176)
  | .loop c _ _ _ => decide (c < 176)
  | .loopi c _ _ _ => decide (c < 176)
  | .setvl c _ _ _ => decide (c < 176)
  | .vld c _ _ _ _ => decide (c < 176)
  | .vst c _ _ _ _ => decide (c < 176)
  | .vlds c _ _ _ _ => decide (c < 176)
  | .vsts c _ _ _ _ => decide (c < 176)
  | .vgather c _ _ _ _ _ => decide (c < 176)
  | .vscatter c _ _ _ _ _ => decide (c < 176)
  | .vadd c _ _ _ _ _ => decide (c < 176)
  | .vsub c _ _ _ _ _ => decide (c < 176)
  | .vand c _ _ _ _ _ => decide (c < 176)
  | .vor c _ _ _ _ _ => decide (c < 176)
  | .vxor c _ _ _ _ _ => decide (c < 176)
  | .vshl c _ _ _ _ _ => decide (c < 176)
  | .vshr c _ _ _ _ _ => decide (c < 176)
  | .vsra c _ _ _ _ _ => decide (c < 176)
  | .vmin c _ _ _ _ _ => decide (c < 176)
  | .vmax c _ _ _ _ _ => decide (c < 176)
  | .vminu c _ _ _ _ _ => decide (c < 176)
  | .vmaxu c _ _ _ _ _ => decide (c < 176)
  | .vmul c _ _ _ _ _ => decide (c < 176)
  | .vmulh c _ _ _ _ _ => decide (c < 176)
  | .vmulhu c _ _ _ _ _ => decide (c < 176)
  | .vmacc c _ _ _ _ _ => decide (c < 176)
  | .vadds c _ _ _ _ _ => decide (c < 176)
  | .vaddus c _ _ _ _ _ => decide (c < 176)
  | .vsubs c _ _ _ _ _ => decide (c < 176)
  | .vsubus c _ _ _ _ _ => decide (c < 176)
  | .vfadd c _ _ _ _ _ => decide (c < 176)
  | .vfsub c _ _ _ _ _ => decide (c < 176)
  | .vfmul c _ _ _ _ _ => decide (c < 176)
  | .vfdiv c _ _ _ _ _ => decide (c < 176)
  | .vfsqrt c _ _ _ => decide (c < 176)
  | .vfmin c _ _ _ _ _ => decide (c < 176)
  | .vfmax c _ _ _ _ _ => decide (c < 176)
  | .vfmacc c _ _ _ _ _ => decide (c < 176)
  | .vfnmsac c _ _ _ _ _ => decide (c < 176)
  | .vfcvtFX c _ _ _ => decide (c < 176)
  | .vfcvtXF c _ _ _ => decide (c < 176)
  | .vmseq c _ _ _ _ _ => decide (c < 176)
  | .vmsne c _ _ _ _ _ => decide (c < 176)
  | .vmslt c _ _ _ _ _ => decide (c < 176)
  | .vmsltu c _ _ _ _ _ => decide (c < 176)
  | .vmfeq c _ _ _ _ _ => decide (c < 176)
  | .vmflt c _ _ _ _ _ => decide (c < 176)
  | .vmfle c _ _ _ _ _ => decide (c < 176)
  | .vmand c _ _ _ => decide (c < 176)
  | .vmor c _ _ _ => decide (c < 176)
  | .vmxor c _ _ _ => decide (c < 176)
  | .vmandn c _ _ _ => decide (c < 176)
  | .vmnot c _ _ => decide (c < 176)
  | .vmpopc c _ _ => decide (c < 176)
  | .vmfirst c _ _ => decide (c < 176)
  | .vmrdl c _ _ => decide (c < 176)
  | .vmrdh c _ _ => decide (c < 176)
  | .vmwrl c _ _ => decide (c < 176)
  | .vmwrh c _ _ => decide (c < 176)
  | .vmvVX c _ _ _ => decide (c < 176)
  | .vmvXS c _ _ => decide (c < 176)
  | .vmvVV c _ _ _ => decide (c < 176)
  | .vid c _ _ => decide (c < 176)
  | .vrgather c _ _ _ _ => decide (c < 176)
  | .vslidedn c _ _ _ _ => decide (c < 176)
  | .vslideup c _ _ _ _ => decide (c < 176)
  | .vredsum c _ _ _ => decide (c < 176)
  | .vredmax c _ _ _ => decide (c < 176)
  | .vredmin c _ _ _ => decide (c < 176)
  | .vfredsum c _ _ _ => decide (c < 176)
  | .takeEventException c _ => decide (c < 176)
  | .takeNmi c _ => decide (c < 176)
  | .refusedStoreResponse c _ _ _ _ _ => decide (c < 176)
  | .takeRefusedStore c => decide (c < 176)
  | .timerExpires c => decide (c < 176)
  | .eventDelivery n => decide (n < 1024)
  | .sytEvrRouteWrite mst _ => Master.ok mst
  | .sytEvrFire mst _ => Master.ok mst
  | .nmiNAssert => true
  | .stop mst c _ => Master.ok mst && decide (c < 176)
  | .stopComplete c => decide (c < 176)
  | .resume mst c => Master.ok mst && decide (c < 176)
  | .restart mst c => Master.ok mst && decide (c < 176)
  | .ctxRegisterWrite mst c off _ => Master.ok mst && decide (c < 176) && decide (off < 4096)
  | .expertUnlockWrite mst st k _ => Master.ok mst && (Machine.winBlk st k).isSome
  | .blkCtrlWrite mst st k _ => Master.ok mst && (Machine.winBlk st k).isSome
  | .disableComplete st k => (Machine.winBlk st k).isSome
  | .violAddrClear mst st k _ _ => Master.ok mst && (Machine.winBlk st k).isSome
  | .serialiseTimeout c => decide (c < 176)
  | .podReset mst p _ => Master.ok mst && decide (p < 36)
  | .ccReset mst k _ => Master.ok mst && decide (k < 4)
  | .ccoreL1Disable mst c => Master.ok mst && decide (c < 176)
  | .ccoreBtbFlush mst c => Master.ok mst && decide (c < 176)
  | .mbIdleDrain c _ => decide (c < 176)
  | .prefetchIssue c _ _ va => decide (c < 176) && decide (va < 2 ^ 48)
  | .l2HardwareClean mst c => Master.ok mst && decide (c < 176)
  | .l3Disable mst p => Master.ok mst && decide (p < 36)
  | .rds a line tc _ _ => decide (a < 176) && decide (line < 2 ^ 46) && decide (tc < 4)
  | .rdx a line tc _ _ => decide (a < 176) && decide (line < 2 ^ 46) && decide (tc < 4)
  | .upg a line tc _ _ => decide (a < 176) && decide (line < 2 ^ 46) && decide (tc < 4)
  | .rdu mst line tc => Master.ok mst && decide (line < 2 ^ 46) && decide (tc < 4)
  | .wru mst line tc _ _ _ => Master.ok mst && decide (line < 2 ^ 46) && decide (tc < 4)
  | .wrm mst line tc _ _ _ => Master.ok mst && decide (line < 2 ^ 46) && decide (tc < 4)
  | .atomf mst line tc i _ _ _ => Master.ok mst && decide (line < 2 ^ 46) && decide (tc < 4) && decide (i < 8)
  | .wbd a line => decide (a < 176) && decide (line < 2 ^ 46)
  | .evc a line => decide (a < 176) && decide (line < 2 ^ 46)
  | .snpk a line _ => decide (a < 176) && decide (line < 2 ^ 46)
  | .snpx a line _ => decide (a < 176) && decide (line < 2 ^ 46)
  | .snpi a line => decide (a < 176) && decide (line < 2 ^ 46)
  | .snpc a line _ => decide (a < 176) && decide (line < 2 ^ 46)
  | .data so unit line => decide (so < 56) && decide (unit < 64) && decide (line < 2 ^ 46)
  | .go so unit line => decide (so < 56) && decide (unit < 64) && decide (line < 2 ^ 46)
  | .rsps a line => decide (a < 176) && decide (line < 2 ^ 46)
  | .rspi a line => decide (a < 176) && decide (line < 2 ^ 46)
  | .rspwbf a line => decide (a < 176) && decide (line < 2 ^ 46)
  | .cmp so unit line => decide (so < 56) && decide (unit < 64) && decide (line < 2 ^ 46)
  | .wback a line => decide (a < 176) && decide (line < 2 ^ 46)
  | .retry so unit line => decide (so < 56) && decide (unit < 64) && decide (line < 2 ^ 46)
  | .credit p => decide (p < 36)
  | .sliceTableWrite _ => true
  | .bucketMoveComplete => true
  | .flitReceive st _ _ _ _ => decide (st < 56)
  | .maintenanceCommand n => decide (n < 16)
  | .slotDone n => decide (n < 16)
  | .mntAbort mst _ => Master.ok mst
  | .mcRequest mst line tc _ _ _ => Master.ok mst && decide (line < 2 ^ 46) && decide (tc < 4)
  | .mcOrderWrite mst mc _ => Master.ok mst && decide (mc < 6)
  | .refresh ch subCh _ _ _ => decide (ch < 12) && decide (subCh < 2)
  | .calibration ch subCh => decide (ch < 12) && decide (subCh < 2)
  | .dphyFail mst ch => Master.ok mst && decide (ch < 12)
  | .dphyRetrain mst ch => Master.ok mst && decide (ch < 12)
  | .parityRetryFail ch => decide (ch < 12)
  | .bankmaskWrite mst ch j _ => Master.ok mst && decide (ch < 12) && decide (j < 5)
  | .spprStart mst mc _ _ => Master.ok mst && decide (mc < 6)
  | .patrolScrub mc => decide (mc < 6)
  | .internalPatrol st k => (Machine.winBlk st k).isSome
  | .regionInitWalk ch => decide (ch < 12)
  | .protRemapWrite mst st k _ => Master.ok mst && (Machine.winBlk st k).isSome
  | .protLogselWrite mst st k _ => Master.ok mst && (Machine.winBlk st k).isSome
  | .faultOccurrence _ _ => true
  | .collectorSelfFault _ _ => true
  | .fcPendClear mst n _ => Master.ok mst && decide (n < 8)
  | .fcFeClear mst => Master.ok mst
  | .fcCaldForce mst _ => Master.ok mst
  | .fcInjGo mst _ _ => Master.ok mst
  | .fcInjSelf mst _ => Master.ok mst
  | .fcCfglock mst => Master.ok mst
  | .shadowEnd st => decide (st < 56)
  | .frameReceive q _ => decide (q < 128)
  | .pauseReceive q _ _ _ => decide (q < 128)
  | .linkUp q => decide (q < 128)
  | .linkDown q _ => decide (q < 128)
  | .downholdExpiry q => decide (q < 128)
  | .frameTransmit q _ _ => decide (q < 128)
  | .gclChange q => decide (q < 128)
  | .gclIntervalEnd q => decide (q < 128)
  | .streamGateIntervalEnd px _ => decide (px < 4)
  | .recoveryResetTimeout px _ => decide (px < 4)
  | .preemptVerify q _ => decide (q < 128)
  | .txtsInfoRead mst q => Master.ok mst && decide (q < 128)
  | .pxSfRead mst px => Master.ok mst && decide (px < 4)
  | .pxSfWrite mst px => Master.ok mst && decide (px < 4)
  | .pxEgRead mst px => Master.ok mst && decide (px < 4)
  | .pxEgWrite mst px => Master.ok mst && decide (px < 4)
  | .pxReset mst px => Master.ok mst && decide (px < 4)
  | .pxPortCfgWrite mst q _ => Master.ok mst && decide (q < 128)
  | .pxPairWrite mst px n _ => Master.ok mst && decide (px < 4) && decide (n < 16)
  | .iresume mst q _ => Master.ok mst && decide (q < 128)
  | .eresume mst q _ => Master.ok mst && decide (q < 128)
  | .recordAdmit px => decide (px < 4)
  | .recordAccept q _ => decide (q < 4096)
  | .recordDeliver q _ _ => decide (q < 4096)
  | .recordRelease q => decide (q < 4096)
  | .recordSent q _ => decide (q < 4096)
  | .recordPairRevoked q _ => decide (q < 4096)
  | .leQRead mst e => Master.ok mst && decide (e < 2)
  | .leQWrite mst e => Master.ok mst && decide (e < 2)
  | .leReset mst e => Master.ok mst && decide (e < 2)
  | .ledgerRebuildComplete e => decide (e < 2)
  | .epnisFrameReceive l _ _ _ _ _ _ => decide (l < 2)
  | .epnisLinkDown l => decide (l < 2)
  | .epnisLinkUp l => decide (l < 2)
  | .psenseFrameReceive p _ => decide (p < 2)
  | .heartbeatSend => true
  | .heartbeatPeriodEnd => true
  | .fenceInAsserted => true
  | .fenceCommandReceive path _ => decide (path < 4)
  | .takeover => true
  | .pairJoin mst e => Master.ok mst && decide (e < 2)
  | .pairFence mst e => Master.ok mst && decide (e < 2)
  | .pairRaise mst e => Master.ok mst && decide (e < 2)
  | .raiseTimeout => true
  | .pairTakeoverCmd mst e _ => Master.ok mst && decide (e < 2)
  | .joinHandshake _ => true
  | .resyncComplete => true
  | .mirroredRecordReceive q _ _ _ => decide (q < 4096)
  | .releaseMarkerReceive q _ => decide (q < 4096)
  | .mirrorAckReceive _ => true
  | .forwardedWriteReceive l line _ _ _ => decide (l < 2) && decide (line < 2 ^ 46)
  | .dropMarkerReceive q => decide (q < 4096)
  | .partnerCopyRead q _ => decide (q < 4096)
  | .epnMwRead mst e _ => Master.ok mst && decide (e < 2)
  | .epnMwWrite mst e _ => Master.ok mst && decide (e < 2)
  | .epnRoleWrite mst e n _ => Master.ok mst && decide (e < 2) && decide (n < 32)
  | .vqfEnable mst e => Master.ok mst && decide (e < 2)
  | .vqfDisable mst e => Master.ok mst && decide (e < 2)
  | .vqfFreeze mst e => Master.ok mst && decide (e < 2)
  | .vqfThaw mst e => Master.ok mst && decide (e < 2)
  | .vqfSave mst e => Master.ok mst && decide (e < 2)
  | .vqfRestore mst e _ => Master.ok mst && decide (e < 2)
  | .vqfDrop mst e _ => Master.ok mst && decide (e < 2)
  | .vqfResume mst e => Master.ok mst && decide (e < 2)
  | .vqfRoundStart => true
  | .vqfStopComplete e v => decide (e < 2) && decide (v < 64)
  | .xlInvWrite mst c _ => Master.ok mst && decide (c < 176)
  | .xlGS1Write mst c _ => Master.ok mst && decide (c < 176)
  | .secWatchdogExpire => true
  | .kick mst => Master.ok mst
  | .secRestartRequest mst => Master.ok mst
  | .secHoldTimeout d => decide (d < 49)
  | .secHoldWrite mst _ => Master.ok mst
  | .secureRestart _ => true
  | .pmOn mst _ => Master.ok mst
  | .pmOff mst _ => Master.ok mst
  | .pmFreq mst _ _ => Master.ok mst
  | .powerRequestExecute d _ => decide (d < 49)
  | .supplyFailure d _ => decide (d < 49)
  | .powerCapTick _ => true
  | .pmPlimitWrite mst _ => Master.ok mst
  | .freqChangeComplete p => decide (p < 36)
  | .thermalSample _ => true
  | .thermalTrip => true
  | .dtStep mst _ => Master.ok mst
  | .dtSet mst _ => Master.ok mst
  | .dtRateWrite mst _ => Master.ok mst
  | .ppsInEdge _ => true
  | .dtPps => true
  | .dtHoldover => true
  | .dmaRequest h _ => decide (h < 2)
  | .rpCfgAccess mst r _ _ => Master.ok mst && decide (r < 32)
  | .hotrst mst r => Master.ok mst && decide (r < 32)
  | .rpLinkChange r _ => decide (r < 32)
  | .completionTimeout c => decide (c < 176)
  | .dmatInv mst h _ => Master.ok mst && decide (h < 2)
  | .dmatResume mst h _ => Master.ok mst && decide (h < 2)
  | .hioReset mst h => Master.ok mst && decide (h < 2)
  | .xspiRead mst _ _ => Master.ok mst
  | .xspiProgram mst _ _ => Master.ok mst
  | .xspiErase4k mst _ => Master.ok mst
  | .xspiErase64k mst _ => Master.ok mst
  | .getStatus => true
  | .getFe => true
  | .getPend => true
  | .getBootlog => true
  | .readReg => true
  | .clearFe => true
  | .setPlimit => true
  | .chipReset => true
  | .caldera => true
  | .entdaa a => decide (a < 128)
  | .setdasa sa a => decide (sa < 128) && decide (a < 128)
  | .rstdaa => true
  | .getpid => true
  | .getbcr => true
  | .getdcr => true
  | .i3cGetstatus => true
  | .mailboxWrite off _ => decide (off < 256)
  | .dbgSessOpen c _ => decide (c < 176)
  | .dbgSessClose mst => Master.ok mst
  | .dbgStop c _ => decide (c < 176)
  | .dbgResume c => decide (c < 176)
  | .dbgStep c => decide (c < 176)
  | .dbgReadRegs c => decide (c < 176)
  | .dbgWriteRegs c _ _ _ => decide (c < 176)
  | .extest => true
  | .idcode => true
  | .sample => true
  | .highz => true
  | .clamp => true
  | .extestPulse => true
  | .extestTrain => true
  | .dbgacc => true
  | .bypass => true
  | .pmcOvfClear mst st k _ => Master.ok mst && (Machine.winBlk st k).isSome
  | .fumaroleBoundary px => decide (px < 4)
  | .fumCfgWrite mst px _ => Master.ok mst && decide (px < 4)
  | .fumClrpeak mst px _ => Master.ok mst && decide (px < 4)
  | .powerOnReset => true
  | .coldBoot _ => true
  | .resetNAssert => true
  | .sytReset mst _ => Master.ok mst
  | .chipWarmReset => true
  | .resetRelease _ => true
  | .illegalEncoding c _ => decide (c < 176)
  | .instructionFetchFault c => decide (c < 176)
  | .rootPortCompletion r _ => decide (r < 32)
  | .mailboxRead _ => true
  | .ppsOutPulseEnd => true
  | .integratedRegulatorsOff => true
  | .rowIdleClose ch subCh _ _ => decide (ch < 12) && decide (subCh < 2)
  | .pauseTimeExpiry q p => decide (q < 128) && decide (p < 9)
  | .pcsBlockLock q => decide (q < 128)
  | .fenceInNEdge _ => true
  | .nmiNRelease => true

end Sys2Proof
end

