-- ==== Sys2Proof/Safety.lean ====
section
/-!
DEFINITION. What claims are stated in: a step that answers, when an instruction or a control write has its own effect, and the
canonical form of memory and of the tables that hold metadata and registers.
-/

namespace Sys2Proof.Machine

/-! ### Steps that answer -/

/-- A step answers a next state. -/
def State.Answers (s : State) : Prop := ∃ t, step s = .next t

/-- Every command that waits names things that exist. -/
def State.wellFormed (s : State) : Bool := s.pending.all Instr.wf

/-- The state with another machine and the same queue. -/
def State.withM (s : State) (m : Mach) : State := ⟨s.pending, m⟩

/-! ### Memory -/

/-- The canonical form of memory: addresses rise strictly, and no entry equals what an unlisted byte reads as. -/
def Memory.wf (t : List Host.Cell) : Bool := Tab.wf (fun _ => 0) t

/-- The canonical form of the metadata of words. -/
def Metadata.wf (t : List (Nat × Meta)) : Bool := Tab.wf (fun _ => Meta.zero) t

/-- Memory and its metadata are in canonical form. -/
def Mach.MemCanon (m : Mach) : Prop := Memory.wf m.mem = true ∧ Metadata.wf m.mmeta = true

/-! ### When a command has its own effect -/

/-- Core `c` begins an instruction at a boundary with nothing else due (R143, R194): the core runs, no asynchronous exception is due,
and the fetch passes its checks and leaves the machine `m1`. -/
def Mach.Begins (m : Mach) (c : Nat) (m1 : Mach) : Prop :=
  m.canRun c = true ∧ m.due c = none ∧ m.fetch c = .ok m1

/-- The block of window `k` of stop `st` takes a write of its register `off` by this master: the window exists, its block has power and
is not fused off (R16, R28), and no rule closes the register to a guest. -/
def Mach.Opens (m : Mach) (mst : Master) (st k off : Nat) : Prop :=
  (winBlk st k).isSome = true ∧ m.answers st k = true ∧ (mst.world ≠ .guest ∨ guestBarred st k off = false)

/-- Every byte of memory reads in `t` as it reads in `m`. -/
def Mach.SameBytes (m t : Mach) : Prop := ∀ a, t.byte a = m.byte a

/-- Every general register of every core reads in `t` as in `m`, but for register `d` of core `c`. -/
def Mach.SameRegs (m t : Mach) (c d : Nat) : Prop := ∀ c' r, (c' ≠ c ∨ r % 64 ≠ d % 64) → t.g c' r = m.g c' r

end Sys2Proof.Machine
end

