-- ==== Sys2Proof/Certificates/Slice0/Obligations.lean ====
section
/-!
DEFINITION. The statements for the provers. A result statement says the whole next state: the machine `m1` that the fetch leaves, the
effect on it, and the retirement (`finish`). The tables pair each instruction of one shape with the value that its rule gives.
-/

open Sys2Proof Sys2Proof.Machine

/-! ### The block and its queue -/

/-- The command in front of the queue takes its effect on the state with the rest of the queue.
An empty queue idles (the model's choice, log entry 1). -/
def Obligations.CommandsRun : Prop :=
  (∀ (c : Instr) (rest : List Instr) (s : State),
    step { s with pending := c :: rest } = exec c { s with pending := rest }) ∧
  (∀ s : State, s.pending = [] → step s = .next s)

/-- Every command completes, and leaves the queue alone. -/
def Obligations.EveryCommandCompletes : Prop :=
  ∀ (c : Instr) (s : State), ∃ m, exec c s = .next (s.withM m)

/-- The canonical form of memory and metadata is kept by every step, from every state that has it. -/
def Obligations.StepKeepsMemoryCanonical : Prop :=
  ∀ s s' : State, s.m.MemCanon → step s = .next s' → s'.m.MemCanon

/-- After a power-on reset (R528): no command waits; every core is OFF (R143) with its registers cleared; no event is pending and no route is
enabled; no window is enabled and every expert page is LOCKED (R19); memory lists nothing, every queue is DISABLED and empty, no mirror
window is enabled, and CALD_N is low (R529). The values that the spec does not state are the model's (log entry 3).
Memory after reset is in canonical form. -/
def Obligations.ResetMachine : Prop :=
  (State.reset.pending = [] ∧ State.reset.m.phase = .reset ∧ State.reset.m.dt = 0 ∧ State.reset.m.evPend = [] ∧
  (∀ n, State.reset.m.route n = 0) ∧ (∀ c, (State.reset.m.core c).st = .off) ∧
  (∀ c r, State.reset.m.g c r = .zero) ∧ (∀ c, (State.reset.m.core c).ctx = .zero) ∧
  (∀ st k, (State.reset.m.blk st k).enable = false ∧ (State.reset.m.blk st k).lock = 0) ∧
  (∀ c, (State.reset.m.core c).vtype = vill) ∧ State.reset.m.jtag = 1 ∧ State.reset.m.caldLow = true ∧ State.reset.m.mem = [] ∧
  (∀ q, (State.reset.m.queue q).st = 0 ∧ (State.reset.m.queue q).recs = []) ∧ (∀ i, (State.reset.m.mirWin i).en = false)) ∧
  (State.reset.m.MemCanon)

/-! ### Instructions: fetch, retirement, and a core that does not run -/

/-- Retirement of an instruction that transfers nothing, on a V-core that no debugger steps (R73, R191, R499): PCC advances by 4, the entry
window closes, and nothing else of the core changes; the general registers, the memory, its metadata, the event routes and every other
core stay.
Where no stored word is in error, the fetch of a V-core changes no general, special or vector register of any core and no byte of memory
(R73, R194): the core may come to hold a translation or a grant.
A register write shows in that register alone, and g0 reads payload 0 and metadata 0 whatever is written (R71).
An instruction of a core that is not RUNNING, or of a device in the Caldera state or in reset, changes nothing (R143, R341; log
entry 10). -/
def Obligations.InstructionFrames : Prop :=
  (∀ (m0 m : Mach) (c : Nat) (evs : List Nat), c < 144 → (m.core c).stepping = false →
    (m0.finish c evs (.ok m)).core c =
      { m.core c with pcc := (m.core c).pcc.withCursor ((m.core c).pcc.cursor + 4), window := false } ∧
    (∀ c', c' ≠ c → (m0.finish c evs (.ok m)).core c' = m.core c') ∧
    (m0.finish c evs (.ok m)).mem = m.mem ∧ (m0.finish c evs (.ok m)).mmeta = m.mmeta ∧
    (m0.finish c evs (.ok m)).routes = m.routes ∧ (m0.finish c evs (.ok m)).dt = m.dt) ∧
  (∀ (m m1 : Mach) (c : Nat), c < 144 → m.upsets = [] → m.fetch c = .ok m1 →
    (∀ c' r, m1.g c' r = m.g c' r) ∧
    (∀ c', (m1.core c').pcc = (m.core c').pcc ∧ (m1.core c').savecap = (m.core c').savecap ∧
      (m1.core c').evcap = (m.core c').evcap ∧ (m1.core c').link = (m.core c').link ∧
      (m1.core c').evmask = (m.core c').evmask ∧ (m1.core c').fcsr = (m.core c').fcsr ∧
      (m1.core c').v = (m.core c').v ∧ (m1.core c').mreg = (m.core c').mreg ∧ (m1.core c').st = (m.core c').st) ∧
    m1.mem = m.mem) ∧
  (∀ (m : Mach) (c d : Nat) (w : Word),
    (d % 64 ≠ 0 → (m.setG c d w).g c d = w) ∧ (∀ c', (m.setG c 0 w).g c' 0 = .zero) ∧ m.setG c 0 w = m ∧
    m.SameRegs (m.setG c d w) c d ∧ (m.setG c d w).mem = m.mem ∧ (m.setG c d w).mmeta = m.mmeta) ∧
  (∀ (s : State) (c : Nat) (d a b : BitVec 6), s.m.phase ≠ .run ∨ (s.m.core c).st ≠ .running →
    exec (.add c d a b) s = .next s ∧ exec (.sd c d a 0) s = .next s ∧ exec (.jalr c d a 0) s = .next s ∧
    exec (.isync c) s = .next s ∧ exec (.cgate c a) s = .next s ∧ exec (.vid c false 1) s = .next s)

/-! ### Integer instructions -/

/-- The instructions of two register sources with their payloads (R77, R78, R94). -/
def twoSourceTable : List ((Nat → BitVec 6 → BitVec 6 → BitVec 6 → Instr) × (W64 → W64 → W64)) :=
  [(.add, fun x y => x + y), (.sub, fun x y => x - y), (.and, fun x y => x &&& y), (.or, fun x y => x ||| y),
   (.xor, fun x y => x ^^^ y), (.andn, fun x y => x &&& ~~~y), (.orn, fun x y => x ||| ~~~y),
   (.xnor, fun x y => ~~~(x ^^^ y)),
   (.shl, fun x y => x <<< (y.toNat % 64)), (.shr, fun x y => x >>> (y.toNat % 64)),
   (.sra, fun x y => x.sshiftRight (y.toNat % 64)), (.ror, fun x y => x.rotateRight (y.toNat % 64)),
   (.slt, fun x y => if x.toInt < y.toInt then 1 else 0), (.sltu, fun x y => if x.toNat < y.toNat then 1 else 0),
   (.seq, fun x y => if x = y then 1 else 0),
   (.min, fun x y => if x.toInt < y.toInt then x else y), (.max, fun x y => if x.toInt < y.toInt then y else x),
   (.minu, fun x y => if x.toNat < y.toNat then x else y), (.maxu, fun x y => if x.toNat < y.toNat then y else x),
   (.mul, fun x y => BitVec.ofNat 64 (x.toNat * y.toNat)),
   (.mulh, fun x y => BitVec.ofInt 64 (x.toInt * y.toInt / 2 ^ 64)),
   (.mulhu, fun x y => BitVec.ofNat 64 (x.toNat * y.toNat / 2 ^ 64)),
   (.mulhsu, fun x y => BitVec.ofInt 64 (x.toInt * (y.toNat : Int) / 2 ^ 64)),
   (.div, fun x y => if y = 0 then 0xFFFFFFFFFFFFFFFF else BitVec.ofInt 64 (x.toInt.tdiv y.toInt)),
   (.divu, fun x y => if y = 0 then 0xFFFFFFFFFFFFFFFF else BitVec.ofNat 64 (x.toNat / y.toNat)),
   (.rem, fun x y => if y = 0 then x else BitVec.ofInt 64 (x.toInt.tmod y.toInt)),
   (.remu, fun x y => if y = 0 then x else BitVec.ofNat 64 (x.toNat % y.toNat))]

/-- ADD to REMU: the payload of the rule, TAG 0, COLOUR 0 and the OR of both POISON bits (R34, R77, R78).
Division never faults and has its two corners (R78): a zero divisor gives all ones or srcA, and −2⁶³ ÷ −1 gives −2⁶³ with remainder 0. -/
def Obligations.IntegerTwoSourceResults : Prop :=
  (∀ p ∈ twoSourceTable, ∀ (s : State) (c : Nat) (d a b : BitVec 6) (m1 : Mach), s.m.Begins c m1 →
    exec (p.1 c d a b) s = .next (s.withM (m1.finish c [] (.ok (m1.setG c d.toNat
      ⟨p.2 (m1.g c a.toNat).data (m1.g c b.toNat).data, false,
        (m1.g c a.toNat).poison || (m1.g c b.toNat).poison, 0⟩))))) ∧
  (∀ x : W64, opDiv x 0 = 0xFFFFFFFFFFFFFFFF ∧ opDivu x 0 = 0xFFFFFFFFFFFFFFFF ∧ opRem x 0 = x ∧ opRemu x 0 = x ∧
    opDiv 0x8000000000000000 0xFFFFFFFFFFFFFFFF = 0x8000000000000000 ∧
    opRem 0x8000000000000000 0xFFFFFFFFFFFFFFFF = 0)

/-- The instructions of one register source with their payloads (R77). -/
def oneSourceTable : List ((Nat → BitVec 6 → BitVec 6 → Instr) × (W64 → W64)) :=
  [(.clz, fun x => BitVec.ofNat 64 (if x = 0 then 64 else 63 - Nat.log2 x.toNat)),
   (.ctz, fun x => BitVec.ofNat 64 (((List.range 64).find? (fun i => x.getLsbD i)).getD 64)),
   (.popc, fun x => BitVec.ofNat 64 ((List.range 64).filter (fun i => x.getLsbD i)).length),
   (.bswap, fun x => (List.range 8).foldl (fun v i => setFld v (8 * i) 8 (fld x (8 * (7 - i)) 8)) 0),
   (.sextb, fun x => (x.setWidth 8).signExtend 64), (.sexth, fun x => (x.setWidth 16).signExtend 64),
   (.sextw, fun x => (x.setWidth 32).signExtend 64), (.zextw, fun x => (x.setWidth 32).setWidth 64)]

/-- The instructions of one register source and an immediate with their payloads (R79). -/
def immediateTable : List ((Nat → BitVec 6 → BitVec 6 → BitVec 14 → Instr) × (BitVec 14 → W64 → W64)) :=
  [(.addi, fun i x => x + i.signExtend 64), (.andi, fun i x => x &&& i.signExtend 64),
   (.ori, fun i x => x ||| i.signExtend 64), (.xori, fun i x => x ^^^ i.signExtend 64),
   (.slti, fun i x => if x.toInt < i.toInt then 1 else 0),
   (.sltiu, fun i x => if x.toNat < (i.signExtend 64).toNat then 1 else 0),
   (.oris, fun i x => (x <<< 14) ||| i.setWidth 64)]

/-- CLZ to ZEXTW, CSEL, and the immediate forms: the payload of the rule with TAG 0, COLOUR 0 and the POISON of the sources (R34, R77,
R79). SHIFTI and BFX are ILLEGAL where a bit that must be 0 is 1.
BFX (R79): bit j of the result is bit lo + j of srcA for j below the width that the field has up to bit 63; above it, the result holds
zeros, or with imm[12] the field's top bit. -/
def Obligations.IntegerOneSourceResults : Prop :=
  ((∀ p ∈ oneSourceTable, ∀ (s : State) (c : Nat) (d a : BitVec 6) (m1 : Mach), s.m.Begins c m1 →
    exec (p.1 c d a) s = .next (s.withM (m1.finish c [] (.ok (m1.setG c d.toNat
      ⟨p.2 (m1.g c a.toNat).data, false, (m1.g c a.toNat).poison, 0⟩))))) ∧
  (∀ p ∈ immediateTable, ∀ (s : State) (c : Nat) (d a : BitVec 6) (i : BitVec 14) (m1 : Mach), s.m.Begins c m1 →
    exec (p.1 c d a i) s = .next (s.withM (m1.finish c [] (.ok (m1.setG c d.toNat
      ⟨p.2 i (m1.g c a.toNat).data, false, (m1.g c a.toNat).poison, 0⟩))))) ∧
  (∀ (s : State) (c : Nat) (d a b : BitVec 6) (m1 : Mach), s.m.Begins c m1 →
    exec (.csel c d a b) s = .next (s.withM (m1.finish c [] (.ok (m1.setG c d.toNat
      ⟨if (m1.g c d.toNat).data ≠ 0 then (m1.g c a.toNat).data else (m1.g c b.toNat).data, false,
        (m1.g c a.toNat).poison || (m1.g c b.toNat).poison || (m1.g c d.toNat).poison, 0⟩))))) ∧
  (∀ (s : State) (c : Nat) (d a : BitVec 6) (i : BitVec 14) (m1 : Mach), s.m.Begins c m1 →
    exec (.shifti c d a i) s = .next (s.withM (m1.finish c [] (
      if (i.extractLsb' 6 6) ≠ 0 then .trap (m1.illegal c 0)
      else .ok (m1.setG c d.toNat ⟨
        (let x := (m1.g c a.toNat).data
         let n := (i.extractLsb' 0 6).toNat
         if i.extractLsb' 12 2 = 0 then x <<< n else if i.extractLsb' 12 2 = 1 then x >>> n
         else if i.extractLsb' 12 2 = 2 then x.sshiftRight n else x.rotateRight n),
        false, (m1.g c a.toNat).poison, 0⟩))))) ∧
  (∀ (s : State) (c : Nat) (d a : BitVec 6) (i : BitVec 14) (m1 : Mach), s.m.Begins c m1 →
    exec (.bfx c d a i) s = .next (s.withM (m1.finish c [] (
      if i.getLsbD 13 then .trap (m1.illegal c 0)
      else .ok (m1.setG c d.toNat ⟨opBfx i (m1.g c a.toNat).data, false, (m1.g c a.toNat).poison, 0⟩)))))) ∧
  (∀ (i : BitVec 14) (x : W64) (j : Nat), j < 64 →
    (opBfx i x).getLsbD j =
      (let lo := (i.extractLsb' 6 6).toNat
       let w := min ((i.extractLsb' 0 6).toNat + 1) (64 - lo)
       if j < w then x.getLsbD (lo + j) else i.getLsbD 12 && x.getLsbD (lo + w - 1)))

/-! ### Short vectors -/

/-- The unsigned operations of R93 per lane of `n` bits. -/
def unsignedLaneTable : List ((Nat → BitVec 6 → BitVec 6 → BitVec 6 → BitVec 2 → Instr) × (Nat → Nat → Nat → Nat)) :=
  [(.pkadd, fun _ x y => x + y), (.pkaddus, fun n x y => min (x + y) (2 ^ n - 1)), (.pksubus, fun _ x y => x - y),
   (.pkminu, fun _ x y => min x y), (.pkmaxu, fun _ x y => max x y), (.pkmeanu, fun _ x y => (x + y + 1) / 2),
   (.pkdifu, fun _ x y => if x < y then y - x else x - y), (.pkeq, fun n x y => if x = y then 2 ^ n - 1 else 0),
   (.pkgtu, fun n x y => if y < x then 2 ^ n - 1 else 0), (.pkmul, fun _ x y => x * y)]

/-- The signed operations of R93 per lane of `n` bits. -/
def signedLaneTable : List ((Nat → BitVec 6 → BitVec 6 → BitVec 6 → BitVec 2 → Instr) × (Nat → Int → Int → Int)) :=
  [(.pksub, fun _ x y => x - y), (.pkaddss, fun n x y => max (-(2 ^ (n - 1))) (min (x + y) (2 ^ (n - 1) - 1))),
   (.pksubss, fun n x y => max (-(2 ^ (n - 1))) (min (x - y) (2 ^ (n - 1) - 1))), (.pkmin, fun _ x y => min x y),
   (.pkmax, fun _ x y => max x y), (.pkgt, fun _ x y => if y < x then -1 else 0)]

/-- The lane shifts of R93: the amount is srcB[5:0] for every lane. -/
def shiftLaneTable : List ((Nat → BitVec 6 → BitVec 6 → BitVec 6 → BitVec 2 → Instr) × (Nat → Nat → Nat → Nat)) :=
  [(.pkshl, fun n x k => if n ≤ k then 0 else x * 2 ^ k % 2 ^ n), (.pkshr, fun _ x k => x / 2 ^ k),
   (.pksra, fun n x k => ((BitVec.ofNat n x).toInt / 2 ^ k % 2 ^ n).toNat)]

/-- The horizontal operations of R94 with two sources. -/
def horizontalTable : List ((Nat → BitVec 6 → BitVec 6 → BitVec 6 → Instr) × (W64 → W64 → W64)) :=
  [(.pknrw16s, fun x y => ofLanes 8 (([0, 1, 2, 3].map (fun i => laneAtS 16 i x) ++ [0, 1, 2, 3].map (fun i => laneAtS 16 i y)).map
      (fun v => lowBits 8 (max (-128) (min v 127))))),
   (.pknrw16u, fun x y => ofLanes 8 (([0, 1, 2, 3].map (fun i => laneAtS 16 i x) ++ [0, 1, 2, 3].map (fun i => laneAtS 16 i y)).map
      (fun v => lowBits 8 (max 0 (min v 255))))),
   (.pknrw32s, fun x y => ofLanes 16 (([0, 1].map (fun i => laneAtS 32 i x) ++ [0, 1].map (fun i => laneAtS 32 i y)).map
      (fun v => lowBits 16 (max (-32768) (min v 32767))))),
   (.pkzipl8, fun x y => ofLanes 8 ([0, 1, 2, 3].flatMap (fun i => [laneAt 8 i x, laneAt 8 i y]))),
   (.pkziph8, fun x y => ofLanes 8 ([4, 5, 6, 7].flatMap (fun i => [laneAt 8 i x, laneAt 8 i y]))),
   (.pkzipl16, fun x y => ofLanes 16 ([0, 1].flatMap (fun i => [laneAt 16 i x, laneAt 16 i y]))),
   (.pkziph16, fun x y => ofLanes 16 ([2, 3].flatMap (fun i => [laneAt 16 i x, laneAt 16 i y]))),
   (.pkdot16, fun x y => BitVec.ofInt 64 (([0, 1, 2, 3].map (fun i => laneAtS 16 i x * laneAtS 16 i y)).sum)),
   (.pkdotu8, fun x y => BitVec.ofNat 64 (([0, 1, 2, 3, 4, 5, 6, 7].map (fun i => laneAt 8 i x * laneAt 8 i y)).sum)),
   (.pkdifsum8, fun x y => BitVec.ofNat 64 (([0, 1, 2, 3, 4, 5, 6, 7].map (fun i =>
      if laneAt 8 i x < laneAt 8 i y then laneAt 8 i y - laneAt 8 i x else laneAt 8 i x - laneAt 8 i y)).sum))]

/-- PKADD to PKSRA complete for every lane width but 3, and lane by lane the destination holds the operation of the lanes (R93), with TAG 0,
COLOUR 0 and the POISON of the sources (R34); width 3 traps ILLEGAL.
Lane width 3 traps ILLEGAL (R93), and the destination keeps its word.
PKNRW to PKSUMS16 and PKSEL complete with the payload of R94, TAG 0, COLOUR 0 and the POISON of the sources (R34). -/
def Obligations.PackedResults : Prop :=
  (∀ (s : State) (c : Nat) (d a b : BitVec 6) (w : BitVec 2) (m1 : Mach), s.m.Begins c m1 → w ≠ 3 →
    (∀ p ∈ unsignedLaneTable, ∃ v : W64,
      exec (p.1 c d a b w) s = .next (s.withM (m1.finish c [] (.ok (m1.setG c d.toNat
        ⟨v, false, (m1.g c a.toNat).poison || (m1.g c b.toNat).poison, 0⟩)))) ∧
      ∀ i, i < 64 / (8 * 2 ^ w.toNat) → laneAt (8 * 2 ^ w.toNat) i v =
        p.2 (8 * 2 ^ w.toNat) (laneAt (8 * 2 ^ w.toNat) i (m1.g c a.toNat).data)
          (laneAt (8 * 2 ^ w.toNat) i (m1.g c b.toNat).data) % 2 ^ (8 * 2 ^ w.toNat)) ∧
    (∀ p ∈ signedLaneTable, ∃ v : W64,
      exec (p.1 c d a b w) s = .next (s.withM (m1.finish c [] (.ok (m1.setG c d.toNat
        ⟨v, false, (m1.g c a.toNat).poison || (m1.g c b.toNat).poison, 0⟩)))) ∧
      ∀ i, i < 64 / (8 * 2 ^ w.toNat) → (laneAt (8 * 2 ^ w.toNat) i v : Int) =
        p.2 (8 * 2 ^ w.toNat) (laneAtS (8 * 2 ^ w.toNat) i (m1.g c a.toNat).data)
          (laneAtS (8 * 2 ^ w.toNat) i (m1.g c b.toNat).data) % 2 ^ (8 * 2 ^ w.toNat)) ∧
    (∀ p ∈ shiftLaneTable, ∃ v : W64,
      exec (p.1 c d a b w) s = .next (s.withM (m1.finish c [] (.ok (m1.setG c d.toNat
        ⟨v, false, (m1.g c a.toNat).poison || (m1.g c b.toNat).poison, 0⟩)))) ∧
      ∀ i, i < 64 / (8 * 2 ^ w.toNat) → laneAt (8 * 2 ^ w.toNat) i v =
        p.2 (8 * 2 ^ w.toNat) (laneAt (8 * 2 ^ w.toNat) i (m1.g c a.toNat).data) ((m1.g c b.toNat).data.toNat % 64))) ∧
  (∀ (s : State) (c : Nat) (d a b : BitVec 6) (m1 : Mach), s.m.Begins c m1 →
    let illegal := Host.Outcome.next (s.withM (m1.finish c [] (.trap (m1.illegal c 0))))
    (∀ p ∈ unsignedLaneTable, exec (p.1 c d a b 3) s = illegal) ∧
    (∀ p ∈ signedLaneTable, exec (p.1 c d a b 3) s = illegal) ∧
    (∀ p ∈ shiftLaneTable, exec (p.1 c d a b 3) s = illegal)) ∧
  (∀ (s : State) (c : Nat) (d a b : BitVec 6) (m1 : Mach), s.m.Begins c m1 →
    (∀ p ∈ horizontalTable, exec (p.1 c d a b) s = .next (s.withM (m1.finish c [] (.ok (m1.setG c d.toNat
      ⟨p.2 (m1.g c a.toNat).data (m1.g c b.toNat).data, false,
        (m1.g c a.toNat).poison || (m1.g c b.toNat).poison, 0⟩))))) ∧
    exec (.pksumu8 c d a) s = .next (s.withM (m1.finish c [] (.ok (m1.setG c d.toNat
      ⟨BitVec.ofNat 64 (([0, 1, 2, 3, 4, 5, 6, 7].map (fun i => laneAt 8 i (m1.g c a.toNat).data)).sum), false,
        (m1.g c a.toNat).poison, 0⟩)))) ∧
    exec (.pksums16 c d a) s = .next (s.withM (m1.finish c [] (.ok (m1.setG c d.toNat
      ⟨BitVec.ofInt 64 (([0, 1, 2, 3].map (fun i => laneAtS 16 i (m1.g c a.toNat).data)).sum), false,
        (m1.g c a.toNat).poison, 0⟩)))) ∧
    exec (.pksel c d a b) s = .next (s.withM (m1.finish c [] (.ok (m1.setG c d.toNat
      ⟨ofLanes 8 ([0, 1, 2, 3, 4, 5, 6, 7].map (fun j =>
          let k := fld (m1.g c b.toNat).data (4 * j) 4
          if k < 8 then laneAt 8 k (m1.g c a.toNat).data else laneAt 8 (k - 8) (m1.g c d.toNat).data)), false,
        (m1.g c a.toNat).poison || (m1.g c b.toNat).poison || (m1.g c d.toNat).poison, 0⟩)))))

/-! ### Floating point -/

/-- A floating-point result (R90): the flags accrue in FCSR, the pattern is zero above its format, and the metadata are an integer
result's. -/
def fpEnd (m : Mach) (c : Nat) (d : BitVec 6) (r : Nat × Flags) (poison : Bool) : Mach :=
  m.finish c [] (.ok ((m.setCore c { m.core c with fcsr := (m.core c).fcsr ||| r.2.bits }).setG c d.toNat
    ⟨BitVec.ofNat 64 r.1, false, poison, 0⟩))

/-- The arithmetic of R91 on two operands, on their patterns: format, rounding mode, srcA, srcB. -/
def fpTwoTable : List ((Nat → BitVec 6 → BitVec 6 → BitVec 6 → Bool → Instr) × (Fp.Fmt → Nat → Nat → Nat → Nat × Flags)) :=
  [(.fadd, fun f rm x y => Fp.add f rm (Fp.unpack f x) (Fp.unpack f y)),
   (.fsub, fun f rm x y => Fp.add f rm (Fp.unpack f x) (Fp.unpack f y).neg),
   (.fmul, fun f rm x y => Fp.mul f rm (Fp.unpack f x) (Fp.unpack f y)),
   (.fdiv, fun f rm x y => Fp.div f rm (Fp.unpack f x) (Fp.unpack f y)),
   (.fmin, fun f _ x y => Fp.minMax f false x y), (.fmax, fun f _ x y => Fp.minMax f true x y),
   (.fsgnj, fun f _ x y => (x % 2 ^ (f.eb + f.mb) + f.zero (y.testBit (f.eb + f.mb)), .none)),
   (.fsgnjn, fun f _ x y => (x % 2 ^ (f.eb + f.mb) + f.zero (! y.testBit (f.eb + f.mb)), .none)),
   (.fsgnjx, fun f _ x y =>
      (x % 2 ^ (f.eb + f.mb) + f.zero (x.testBit (f.eb + f.mb) != y.testBit (f.eb + f.mb)), .none)),
   (.feq, fun f _ x y => let r := Fp.compare (Fp.unpack f x) (Fp.unpack f y) false true true; (if r.1 then 1 else 0, r.2)),
   (.flt, fun f _ x y => let r := Fp.compare (Fp.unpack f x) (Fp.unpack f y) true false false; (if r.1 then 1 else 0, r.2)),
   (.fle, fun f _ x y => let r := Fp.compare (Fp.unpack f x) (Fp.unpack f y) true true false; (if r.1 then 1 else 0, r.2))]

/-- The fused forms of R91: srcA, srcB and the old dst, rounded once. -/
def fpFusedTable : List ((Nat → BitVec 6 → BitVec 6 → BitVec 6 → Bool → Instr) ×
    (Fp.Fmt → Nat → Fp.Val → Fp.Val → Fp.Val → Nat × Flags)) :=
  [(.fmadd, fun f rm x y z => Fp.fma f rm x y z), (.fmsub, fun f rm x y z => Fp.fma f rm x y z.neg),
   (.fnmadd, fun f rm x y z => Fp.fma f rm x.neg y z.neg), (.fnmsub, fun f rm x y z => Fp.fma f rm x.neg y z)]

/-- The conversions of R92 from their payload. -/
def fpConvertTable : List ((Nat → BitVec 6 → BitVec 6 → Instr) × (Nat → W64 → Nat × Flags)) :=
  [(.fcvtDL, fun rm x => Fp.ofInt Fp.f64 rm x.toInt), (.fcvtDLu, fun rm x => Fp.ofInt Fp.f64 rm x.toNat),
   (.fcvtSL, fun rm x => Fp.ofInt Fp.f32 rm x.toInt), (.fcvtSLu, fun rm x => Fp.ofInt Fp.f32 rm x.toNat),
   (.fcvtSD, fun rm x => Fp.convert Fp.f32 rm (Fp.unpack Fp.f64 x.toNat)),
   (.fcvtDS, fun rm x => Fp.convert Fp.f64 rm (Fp.unpack Fp.f32 x.toNat)),
   (.fcvtHS, fun rm x => Fp.convert Fp.f16 rm (Fp.unpack Fp.f32 x.toNat)),
   (.fcvtSH, fun rm x => Fp.convert Fp.f32 rm (Fp.unpack Fp.f16 x.toNat)),
   (.fcvtBS, fun rm x => Fp.convert Fp.bf16 rm (Fp.unpack Fp.f32 x.toNat)),
   (.fcvtSB, fun rm x => Fp.convert Fp.f32 rm (Fp.unpack Fp.bf16 x.toNat))]

/-- The conversions to integers with their format and range (R92). -/
def fpToIntTable : List ((Nat → BitVec 6 → BitVec 6 → Instr) × Fp.Fmt × Int × Int) :=
  [(.fcvtLD, Fp.f64, -(2 ^ 63), 2 ^ 63 - 1), (.fcvtLuD, Fp.f64, 0, 2 ^ 64 - 1),
   (.fcvtLS, Fp.f32, -(2 ^ 63), 2 ^ 63 - 1), (.fcvtLuS, Fp.f32, 0, 2 ^ 64 - 1)]

/-- FADD to FCLASS and the fused forms complete in both formats with the IEEE result under FCSR.RM (R90, R91).
A NaN result is the canonical quiet NaN (R90): a NaN operand gives it in every arithmetic operation, and NV is set only where an operand
signals; 0 ÷ 0, ∞ ÷ ∞, ∞ − ∞, 0 × ∞ and the root of a negative number give it with NV.
The canonical quiet NaNs of R90 as numbers. -/
def Obligations.FloatResults : Prop :=
  (∀ (s : State) (c : Nat) (d a b : BitVec 6) (single : Bool) (m1 : Mach), s.m.Begins c m1 →
    let f := if single then Fp.f32 else Fp.f64
    let rm := fcsrRm (m1.core c).fcsr
    let x := m1.g c a.toNat
    let y := m1.g c b.toNat
    let z := m1.g c d.toNat
    let bits := fun (w : Word) => fld w.data 0 f.width
    let val := fun (w : Word) => Fp.unpack f (bits w)
    (∀ p ∈ fpTwoTable, exec (p.1 c d a b single) s =
      .next (s.withM (fpEnd m1 c d (p.2 f rm (bits x) (bits y)) (x.poison || y.poison)))) ∧
    (∀ p ∈ fpFusedTable, exec (p.1 c d a b single) s =
      .next (s.withM (fpEnd m1 c d (p.2 f rm (val x) (val y) (val z)) (x.poison || y.poison || z.poison)))) ∧
    exec (.fsqrt c d a single) s = .next (s.withM (fpEnd m1 c d (Fp.sqrt f rm (val x)) x.poison)) ∧
    exec (.fclass c d a single) s = .next (s.withM (fpEnd m1 c d (2 ^ Fp.classBit f (bits x), .none) x.poison))) ∧
  (∀ (f : Fp.Fmt) (rm : Nat) (a b : Fp.Val) (q : Bool),
    Fp.add f rm (.nan q) b = (f.qnan, ⟨q || b.isSnan, false, false, false, false⟩) ∧
    Fp.mul f rm a (.nan q) = (f.qnan, ⟨a.isSnan || q, false, false, false, false⟩) ∧
    Fp.div f rm (.nan q) b = (f.qnan, ⟨q || b.isSnan, false, false, false, false⟩) ∧
    Fp.sqrt f rm (.nan q) = (f.qnan, ⟨q, false, false, false, false⟩) ∧
    Fp.add f rm (.inf q) (.inf (! q)) = (f.qnan, .invalid) ∧
    Fp.mul f rm (.inf q) (.fin false 0 0) = (f.qnan, .invalid) ∧
    Fp.div f rm (.inf q) (.inf q) = (f.qnan, .invalid) ∧
    Fp.div f rm (.fin q 0 0) (.fin false 0 0) = (f.qnan, .invalid) ∧
    Fp.div f rm (.fin false 1 0) (.fin q 0 0) = (f.inf q, ⟨false, true, false, false, false⟩) ∧
    Fp.sqrt f rm (.fin true 1 0) = (f.qnan, .invalid) ∧ f.qnan = (2 ^ f.eb - 1) * 2 ^ f.mb + 2 ^ (f.mb - 1)) ∧
  (Fp.f64.qnan = 0x7FF8000000000000 ∧ Fp.f32.qnan = 0x7FC00000)

/-- Every conversion of R92 completes; one to an integer saturates to its range.
FCSR (R72): the flags are sticky, and a WRSR keeps RM where the written value is 5 to 7. -/
def Obligations.FloatConversions : Prop :=
  (∀ (s : State) (c : Nat) (d a : BitVec 6) (m1 : Mach), s.m.Begins c m1 →
    let rm := fcsrRm (m1.core c).fcsr
    let x := m1.g c a.toNat
    (∀ p ∈ fpConvertTable, exec (p.1 c d a) s = .next (s.withM (fpEnd m1 c d (p.2 rm x.data) x.poison))) ∧
    (∀ p ∈ fpToIntTable,
      let r := Fp.toInt rm p.2.2.1 p.2.2.2 (Fp.unpack p.2.1 (fld x.data 0 p.2.1.width))
      exec (p.1 c d a) s = .next (s.withM (fpEnd m1 c d ((BitVec.ofInt 64 r.1).toNat, r.2) x.poison)) ∧
      p.2.2.1 ≤ r.1 ∧ r.1 ≤ p.2.2.2)) ∧
  (∀ (old v : W64) (x : Flags),
    (accrue old x &&& old = old) ∧ fcsrRm (accrue old x) = fcsrRm old ∧
    (fld v 0 3 ≤ 4 → fcsrRm (writeFcsr old v) = fld v 0 3) ∧ (5 ≤ fld v 0 3 → fcsrRm (writeFcsr old v) = fcsrRm old) ∧
    (∀ i, 8 ≤ i → bit (writeFcsr old v) i = false))

/-! ### Loads, stores and atomics -/

/-- The loads with an immediate offset of 14 bits: bytes, and whether sign-extended (R81). -/
def loadTable : List ((Nat → BitVec 6 → BitVec 6 → BitVec 14 → Instr) × Nat × Bool) :=
  [(.ld, 8, false), (.lw, 4, true), (.lwu, 4, false)]

/-- The loads with an immediate offset of 11 bits. -/
def loadShortTable : List ((Nat → BitVec 6 → BitVec 6 → BitVec 11 → Instr) × Nat × Bool) :=
  [(.lb, 1, true), (.lbu, 1, false), (.lh, 2, true), (.lhu, 2, false)]

/-- The loads with an index register. -/
def loadIndexTable : List ((Nat → BitVec 6 → BitVec 6 → BitVec 6 → Instr) × Nat × Bool) :=
  [(.lbx, 1, true), (.lbux, 1, false), (.lhx, 2, true), (.lhux, 2, false), (.lwx, 4, true), (.lwux, 4, false), (.ldx, 8, false)]

/-- A load of `n` bytes at `ea` through `cap` passes every check, in one part of memory: R51 gives the part `p` and leaves `m2`, and its
target refuses nothing. -/
def LoadPasses (m : Mach) (c : Nat) (cap : Word) (ea : Int) (n : Nat) (p : Piece) (m2 : Mach) : Prop :=
  cap.poison = false ∧ m2.isMem p.pa = true ∧
  ∃ g, m.check c cap ea (loadReq n) = .ok ([p], g, m2) ∧ m2.refuseFirst c g .read [p] = none

/-- What a load leaves in its destination: the bytes that the core sees, extended to 64 bits, TAG 0, and POISON and COLOUR as in memory
(R34, R81). -/
def loaded (m : Mach) (c : Nat) (p : Piece) (n : Nat) (signed : Bool) : Word :=
  let x := m.coreLoad c p.pa p.n
  ⟨if signed then (BitVec.ofNat (8 * n) x.1).signExtend 64 else BitVec.ofNat 64 x.1, false, x.2.1, x.2.2⟩

/-- LB to LD and LBX to LDX complete on memory with the loaded word in dst (R80, R81).
A poisoned address operand traps POISON before any other check, with word 2 of the frame 0 (R51, R88, R187).
Memory is little-endian (R73): a core whose merging buffer is empty sees at `a` the bytes of memory, the lowest address least
significant, whether or not they cross a word. -/
def Obligations.LoadResults : Prop :=
  (∀ (s : State) (c : Nat) (d a b : BitVec 6) (m1 m2 : Mach) (p : Piece), s.m.Begins c m1 →
    let x := m1.g c a.toNat
    let y := m1.g c b.toNat
    let m3 := m2.loadSides c [p]
    (∀ q ∈ loadTable, ∀ i : BitVec 14, LoadPasses m1 c x (x.cursor + i.toInt) q.2.1 p m2 → p.n = q.2.1 →
      exec (q.1 c d a i) s = .next (s.withM (m1.finish c [0x005] (.ok (m3.setG c d.toNat (loaded m3 c p q.2.1 q.2.2)))))) ∧
    (∀ q ∈ loadShortTable, ∀ i : BitVec 11, LoadPasses m1 c x (x.cursor + i.toInt) q.2.1 p m2 → p.n = q.2.1 →
      exec (q.1 c d a i) s = .next (s.withM (m1.finish c [0x005] (.ok (m3.setG c d.toNat (loaded m3 c p q.2.1 q.2.2)))))) ∧
    (∀ q ∈ loadIndexTable, y.poison = false → LoadPasses m1 c x (x.cursor + y.data.toInt) q.2.1 p m2 → p.n = q.2.1 →
      exec (q.1 c d a b) s = .next (s.withM (m1.finish c [0x005] (.ok (m3.setG c d.toNat (loaded m3 c p q.2.1 q.2.2))))))) ∧
  (∀ (s : State) (c : Nat) (d a : BitVec 6) (m1 : Mach), s.m.Begins c m1 → (m1.g c a.toNat).poison = true →
    (∀ q ∈ loadTable, ∀ i, exec (q.1 c d a i) s = .next (s.withM (m1.finish c [0x005] (.trap (.plain .poison 1 0))))) ∧
    (∀ i, exec (.sd c d a i) s = .next (s.withM (m1.finish c [0x006] (.trap (.plain .poison 1 0))))) ∧
    (∀ i, exec (.ldc c d a i) s = .next (s.withM (m1.finish c [0x005] (.trap (.plain .poison 1 0)))))) ∧
  (∀ (m : Mach) (c a n : Nat), 1 ≤ n → n ≤ 8 → (m.core c).mb = [] →
    (m.coreLoad c a n).1 = m.readN a n ∧ (∀ k, k < n → m.readN a n / 256 ^ k % 256 = (m.byte (a + k)).toNat))

/-- The stores with an immediate offset of 14 bits, by bytes (R81). -/
def storeTable : List ((Nat → BitVec 6 → BitVec 6 → BitVec 14 → Instr) × Nat) := [(.sd, 8), (.sw, 4)]

/-- The stores with an immediate offset of 11 bits. -/
def storeShortTable : List ((Nat → BitVec 6 → BitVec 6 → BitVec 11 → Instr) × Nat) := [(.sb, 1), (.sh, 2)]

/-- The stores with an index register. -/
def storeIndexTable : List ((Nat → BitVec 6 → BitVec 6 → BitVec 6 → Instr) × Nat) :=
  [(.sbx, 1), (.shx, 2), (.swx, 4), (.sdx, 8)]

/-- A store of `n` bytes at `ea` through `cap` passes every check, in one part of memory, and no mirrored write holds it back. -/
def StorePasses (m : Mach) (c : Nat) (cap : Word) (ea : Int) (n : Nat) (p : Piece) (m2 : Mach) : Prop :=
  cap.poison = false ∧ m2.isMem p.pa = true ∧ m2.mirrorFull c [p] = false ∧
  ∃ g, m.check c cap ea (storeReq n) = .ok ([p], g, m2) ∧ m2.refusal c g false p.pa = none

/-- SB to SD and SBX to SDX complete on memory: the low bytes of the source are stored at the checked part with its POISON (R34, R81).
What a V-core's store changes of memory (R34, R73): the stored bytes hold the value, the lowest address least significant, and every
other byte of memory reads as before; no general register of any core changes. No channel is FAILED (R305). -/
def Obligations.StoreResults : Prop :=
  (∀ (s : State) (c : Nat) (d a b : BitVec 6) (m1 m2 : Mach) (p : Piece), s.m.Begins c m1 →
    let x := m1.g c a.toNat
    let y := m1.g c b.toNat
    let z := m1.g c d.toNat
    (∀ q ∈ storeTable, ∀ i : BitVec 14, StorePasses m1 c x (x.cursor + i.toInt) q.2 p m2 → p.n = q.2 →
      exec (q.1 c d a i) s = .next (s.withM (m1.finish c [0x006] (.ok (m2.storePiece c p (z.data.toNat % 256 ^ q.2) z.poison))))) ∧
    (∀ q ∈ storeShortTable, ∀ i : BitVec 11, StorePasses m1 c x (x.cursor + i.toInt) q.2 p m2 → p.n = q.2 →
      exec (q.1 c d a i) s = .next (s.withM (m1.finish c [0x006] (.ok (m2.storePiece c p (z.data.toNat % 256 ^ q.2) z.poison))))) ∧
    (∀ q ∈ storeIndexTable, y.poison = false → StorePasses m1 c x (x.cursor + y.data.toInt) q.2 p m2 → p.n = q.2 →
      exec (q.1 c d a b) s = .next (s.withM (m1.finish c [0x006] (.ok (m2.storePiece c p (z.data.toNat % 256 ^ q.2) z.poison)))))) ∧
  (∀ (m : Mach) (c : Nat) (p : Piece) (v : Nat) (poison : Bool), c < 144 → 1 ≤ p.n → p.n ≤ 8 → m.isMem p.pa = true →
    (∀ a, m.lost a = false) → (∀ a, (m.storePiece c p v poison).lost a = false) →
    (∀ k, k < p.n → (m.storePiece c p v poison).byte (p.pa + k) = BitVec.ofNat 8 (v / 256 ^ k)) ∧
    (∀ a, a < p.pa ∨ p.pa + p.n ≤ a → (m.storePiece c p v poison).byte a = m.byte a) ∧
    (∀ c' r, (m.storePiece c p v poison).g c' r = m.g c' r))

/-- The atomics with their new word (R82): the operation on the old payload and srcB's. -/
def atomicTable : List ((Nat → BitVec 6 → BitVec 6 → BitVec 6 → BitVec 2 → Instr) × (W64 → W64 → W64)) :=
  [(.amoswap, fun _ y => y), (.amoadd, fun x y => x + y), (.amoand, fun x y => x &&& y), (.amoor, fun x y => x ||| y),
   (.amoxor, fun x y => x ^^^ y), (.amomin, fun x y => if x.toInt < y.toInt then x else y),
   (.amomax, fun x y => if x.toInt < y.toInt then y else x), (.amominu, fun x y => if x.toNat < y.toNat then x else y),
   (.amomaxu, fun x y => if x.toNat < y.toNat then y else x)]

/-- An atomic at the CURSOR of `cap` passes every check. -/
def AtomicPasses (m : Mach) (c : Nat) (cap : Word) (p : Piece) (m2 : Mach) : Prop :=
  cap.poison = false ∧ m2.mirrorFull c [p] = false ∧
  ∃ g, m.check c cap cap.cursor atomicReq = .ok ([p], g, m2) ∧ m2.refuseFirst c g .atomic [p] = none

/-- AMOSWAP to AMOMAXU and CAS complete (R82, R83): dst receives the old word with TAG 0; the new word is written with the POISON of the old
word or srcB. CAS writes srcB only where the old payload equals the expected one in dst, and traps POISON on a poisoned expected value or
old word. -/
def Obligations.AtomicResults : Prop :=
  ∀ (s : State) (c : Nat) (d a b : BitVec 6) (o : BitVec 2) (m1 m2 : Mach) (p : Piece), s.m.Begins c m1 →
    AtomicPasses m1 c (m1.g c a.toNat) p m2 →
    let y := m1.g c b.toNat
    let z := m1.g c d.toNat
    let m3 := m2.atomicReady c p
    let old := m3.word p.pa
    (∀ q ∈ atomicTable, exec (q.1 c d a b o) s = .next (s.withM (m1.finish c [0x005] (.ok ((m3.atomicWrite c p.pt p.pa (q.2 old.data y.data) (old.poison || y.poison)).setG c d.toNat
        ⟨old.data, false, old.poison, old.colour⟩))))) ∧
    (z.poison = false → old.poison = false → old.data = z.data →
      exec (.cas c d a b o) s = .next (s.withM (m1.finish c [0x005] (.ok ((m3.atomicWrite c p.pt p.pa y.data y.poison).setG c d.toNat
        ⟨old.data, false, false, old.colour⟩))))) ∧
    (z.poison = false → old.poison = false → old.data ≠ z.data →
      exec (.cas c d a b o) s = .next (s.withM (m1.finish c [0x005] (.ok (m3.setG c d.toNat ⟨old.data, false, false, old.colour⟩)))))

/-- LDC and STC (R34, R58): a load of a word that keeps TAG where the grant carries LC and no running sweep names the word; a store of a
tagged word with its tag, POISON 0. -/
def Obligations.CapabilityLoadsAndStores : Prop :=
  ∀ (s : State) (c : Nat) (d a : BitVec 6) (i : BitVec 14) (m1 m2 : Mach) (p : Piece) (g : Grant), s.m.Begins c m1 →
    (m1.g c a.toNat).poison = false → m2.isMem p.pa = true → m2.sweepsRun = [] →
    let x := m1.g c a.toNat
    let w := m1.g c d.toNat
    let m3 := m2.loadSides c [p]
    (m1.check c x (x.cursor + i.toInt * 8) ldcReq = .ok ([p], g, m2) → m2.refuseFirst c g .capld [p] = none → m3.sweepsRun = [] →
      exec (.ldc c d a i) s = .next (s.withM (m1.finish c [0x005] (.ok (m3.setG c d.toNat
        ⟨BitVec.ofNat 64 (m3.coreLoad c p.pa p.n).1, g.has .LC && (m3.coreWord c p.pa).tag, (m3.coreLoad c p.pa p.n).2.1,
          (m3.coreLoad c p.pa p.n).2.2⟩))))) ∧
    (m1.check c x (x.cursor + i.toInt * 8) (stcReq w.tag) = .ok ([p], g, m2) → m2.mirrorFull c [p] = false → w.poison = false →
      w.tag = true →
      exec (.stc c d a i) s = .next (s.withM (m1.finish c [0x006] (.ok (m2.storeWord c p.pt p.pa 8 w.data.toNat true false)))))

/-! ### Branches, jumps and loops -/

/-- The conditional branches with their condition (R85). -/
def branchTable : List ((Nat → BitVec 6 → BitVec 6 → Bool → BitVec 13 → Instr) × (W64 → W64 → Prop)) :=
  [(.beq, fun x y => x = y), (.bne, fun x y => x ≠ y), (.blt, fun x y => x.toInt < y.toInt)]

/-- BEQ, BNE and BLT (R85, R87): a taken branch goes to PCC plus four times the offset where the target passes its checks; one that is not
taken goes on; a poisoned operand traps POISON. The hint changes no outcome.
JAL and JALR (R86, R87): dst receives PCC with its CURSOR past the jump, read before PCC changes; JALR goes through a capability with a
live unsealed grant whose target passes its checks.
LOOP and LOOPI on a C-core (R175): a count of 0 skips the body; any other activates the level for the `len` instructions that follow.
Both are ILLEGAL on a V-core and for an empty body.
LOOP_BACK (R175): at the end of an active level the count falls by 1; while it is not 0 control goes back to the start, else the level
becomes inactive. Level 1 is asked first, and level 0 only where level 1 does not go back. -/
def Obligations.ControlTransfers : Prop :=
  (∀ (s : State) (c : Nat) (a b : BitVec 6) (h : Bool) (o : BitVec 13) (m1 : Mach), s.m.Begins c m1 →
    let x := m1.g c a.toNat
    let y := m1.g c b.toNat
    let p := (m1.core c).pcc
    let t := va48 ((p.cursor : Int) + 4 * o.toInt)
    ∀ q ∈ branchTable,
    (x.poison = false → y.poison = false → ¬ q.2 x.data y.data →
      exec (q.1 c a b h o) s = .next (s.withM (m1.finish c [0x003] (.ok (m1.predict c p.cursor h false t))))) ∧
    (∀ m2, x.poison = false → y.poison = false → q.2 x.data y.data → m1.branchTarget c t = .ok m2 →
      exec (q.1 c a b h o) s =
        .next (s.withM (m1.finish c [0x003] (.jump (m2.predict c p.cursor h true t) (p.withCursor t) true)))) ∧
    (x.poison = true ∨ y.poison = true →
      exec (q.1 c a b h o) s = .next (s.withM (m1.finish c [0x003] (.trap (.plain .poison 0 0)))))) ∧
  (∀ (s : State) (c : Nat) (d a : BitVec 6) (o : BitVec 19) (o' : BitVec 13) (m1 m2 : Mach) (g : Grant) (pa : Nat), s.m.Begins c m1 →
    let x := m1.g c a.toNat
    let p := (m1.core c).pcc
    let t := va48 ((p.cursor : Int) + 4 * o.toInt)
    let t' := va48 ((x.cursor : Int) + 4 * o'.toInt)
    (m1.branchTarget c t = .ok m2 →
      exec (.jal c d o) s = .next (s.withM (m1.finish c [0x003]
        (.jump ((m2.predict c p.cursor true true t).setG c d.toNat (p.withCursor (p.cursor + 4))) (p.withCursor t) true)))) ∧
    (x.poison = false → m1.live c x .fetch (BitVec.ofNat 64 t') t' = .ok (g, pa, m2) → g.otype = 0 → m2.targetIn c g t' = none →
      exec (.jalr c d a o') s = .next (s.withM (m1.finish c [0x003]
        (.jump ((m2.predict c p.cursor true true t').setG c d.toNat (p.withCursor (p.cursor + 4))) (x.withCursor t') true))))) ∧
  (∀ (s : State) (c : Nat) (lv : Bool) (a : BitVec 6) (n : BitVec 10) (len : BitVec 13) (m1 : Mach), s.m.Begins c m1 →
    let p := (m1.core c).pcc
    let level : W64 → LoopLevel := fun k => ⟨true, k, p.cursor + 4, p.cursor + 4 * len.toNat⟩
    let started : W64 → Mach := fun k => m1.setCore c ((m1.core c).setLoops
      (if lv then { (m1.core c).loops with l1 := level k } else { (m1.core c).loops with l0 := level k }))
    let skip : Res := .jump m1 (p.withCursor (p.cursor + 4 + 4 * len.toNat)) true
    (144 ≤ c → len ≠ 0 → (m1.g c a.toNat).poison = false →
      exec (.loop c lv a len) s = .next (s.withM (m1.finish c []
        (if (m1.g c a.toNat).data = 0 then skip else .ok (started (m1.g c a.toNat).data))))) ∧
    (144 ≤ c → len ≠ 0 →
      exec (.loopi c lv n len) s = .next (s.withM (m1.finish c [] (if n = 0 then skip else .ok (started (n.setWidth 64)))))) ∧
    (c < 144 ∨ len = 0 → exec (.loopi c lv n len) s = .next (s.withM (m1.finish c [] (.trap (m1.illegal c 0)))))) ∧
  (∀ (b : LoopBank) (p : Nat),
    (b.l1.active = true → p = b.l1.stop → b.l1.count ≠ 1 →
      b.back p = ({ b with l1 := { b.l1 with count := b.l1.count - 1 } }, some b.l1.start)) ∧
    (b.l1.active = true → p = b.l1.stop → b.l1.count = 1 → b.l0.active = false →
      b.back p = ({ b with l1 := { b.l1 with count := 0, active := false } }, none)) ∧
    (b.l1.active = false → b.l0.active = true → p = b.l0.stop → b.l0.count ≠ 1 →
      b.back p = ({ b with l0 := { b.l0 with count := b.l0.count - 1 } }, some b.l0.start)) ∧
    (b.l1.active = false → b.l0.active = false → b.back p = (b, none)))

/-! ### Capability instructions -/

/-- How an instruction that began in `m1` ends. -/
def ends (s : State) (m1 : Mach) (c : Nat) (evs : List Nat) (r : Res) : Out := .next (s.withM (m1.finish c evs r))

/-- CSETC, CSETC.A and CSETC.SR (R58): a capability with another CURSOR, modulo 2⁴⁸, and all else kept; no bound is checked. An untagged
srcA traps CAP_TAG with sub 2, a poisoned operand POISON, and CSETC.SR of a state register other than 3 and 4 ILLEGAL. CTEST never faults:
bit 0 is TAG, bit 1 POISON, bits [7:2] COLOUR, and of a live grant bit 8 is 1, [31:16] the permissions and [47:32] OTYPE.
CSEAL and CUNSEAL (R57): a capability of the one half of a sealed pair becomes that of the other half, under a sealing capability whose
CURSOR is the pair's OTYPE.
GMINT (R55, R56) from a request that is read: an entry that is valid answers BUSY, one that is exhausted EXHAUSTED; a free one takes the
request with the minting compartment as OWNER and its generation kept, and dst becomes its capability. What passes the checks lies within
the parent.
GREVOKE (R64): the entry of a live target is revoked under RV over its range or by its OWNER, and dst receives 0; a target that is not
live gives 1. A revoked entry is not valid, and its generation rises until it is exhausted at 15. -/
def Obligations.CapabilityInstructionResults : Prop :=
  (∀ (s : State) (c : Nat) (d a b : BitVec 6) (m1 : Mach), s.m.Begins c m1 →
    let x := m1.g c a.toNat
    let y := m1.g c b.toNat
    let moved := x.withCursor (x.cursor + fld y.data 0 48)
    let w := m1.ctestWord c x
    (x.poison = false → y.poison = false → x.tag = true →
      exec (.csetc c d a b) s = ends s m1 c [] (.ok (m1.setG c d.toNat moved)) ∧
      exec (.csetcA c d a b) s = ends s m1 c [] (.ok (m1.setG c d.toNat (x.withCursor (fld y.data 0 48)))) ∧
      exec (.csetcSr c 3 a b) s = ends s m1 c [] (.ok (m1.setCore c { m1.core c with savecap := moved })) ∧
      exec (.csetcSr c 4 a b) s = ends s m1 c [] (.ok (m1.setCore c { m1.core c with evcap := moved }))) ∧
    (x.poison = false → y.poison = false → x.tag = false →
      exec (.csetc c d a b) s = ends s m1 c [] (.trap (.viol .capTag 2 .noacc .cap 0 x.cursor))) ∧
    (x.poison = true ∨ y.poison = true → exec (.csetc c d a b) s = ends s m1 c [] (.trap (.plain .poison 1 0))) ∧
    (d ≠ 3 → d ≠ 4 → exec (.csetcSr c d a b) s = ends s m1 c [] (.trap (m1.illegal c 0))) ∧
    exec (.ctest c d a) s = ends s m1 c [] (.ok (m1.setG c d.toNat (.plain w))) ∧
    bit w 0 = x.tag ∧ bit w 1 = x.poison ∧ fld w 2 6 = x.colour.toNat ∧ (x.tag = false → bit w 8 = false) ∧
    (∀ g pa m2, m1.entry c x.tsel x.index = .ok (g, pa, m2) → x.tag = true → g.valid = true → g.gen = x.gen →
      bit w 8 = true ∧ fld w 16 16 = fld g.perms 0 16 ∧ fld w 32 16 = g.otype % 2 ^ 16)) ∧
  (∀ (s : State) (c : Nat) (d a b : BitVec 6) (m1 m2 m3 : Mach) (g k : Grant) (pa pk : Nat), s.m.Begins c m1 →
    let x := m1.g c a.toNat
    let y := m1.g c b.toNat
    m1.liveOp c x = .ok (g, pa, m2) → m2.liveOp c y = .ok (k, pk, m3) → k.otype = 0 → k.base ≤ y.cursor → y.cursor < k.limit →
    (x.index % 2 = 0 → g.otype = 0 → k.has .SE = true → (m3.readGrant (pa + 32)).valid = true →
      (m3.readGrant (pa + 32)).otype = y.cursor → g.twin (m3.readGrant (pa + 32)) = true →
      exec (.cseal c d a b) s = ends s m1 c [] (.ok (m3.setG c d.toNat (x.withIndex (x.index + 1))))) ∧
    (x.index % 2 = 1 → g.otype ≠ 0 → k.has .US = true → g.otype = y.cursor → (m3.readGrant (pa - 32)).valid = true →
      (m3.readGrant (pa - 32)).otype = 0 → g.twin (m3.readGrant (pa - 32)) = true →
      exec (.cunseal c d a b) s = ends s m1 c [] (.ok (m3.setG c d.toNat (x.withIndex (x.index - 1)))))) ∧
  ((∀ (s : State) (c : Nat) (d a b : BitVec 6) (m1 m2 m3 m4 m5 : Mach) (p : Grant) (pp : Nat) (pc : Piece) (pa : Nat) (q : MintReq),
    s.m.Begins c m1 →
    let x := m1.g c a.toNat
    let y := m1.g c b.toNat
    let w := fun i => m4.coreWord c (pc.pa + 8 * i)
    let e := m5.readGrant pa
    m1.liveOp c x = .ok (p, pp, m2) → p.otype = 0 → p.has .GM = true → y.poison = false →
    m2.firstPiece c y y.cursor mintReadReq = .ok (pc, m3) → m4 = (m3.loadSide c pc).readUpsets (some c) false pc.pa 32 →
    (w 0).poison = false → (w 1).poison = false → (w 2).poison = false → q = .ofWords (w 0) (w 1) (w 2) (w 3) →
    q.bad p x y = none → q.otype = 0 → m4.entryPa c q.tsel q.index = .ok (pa, m5) →
    (e.valid = true → exec (.gmint c d a b) s = ends s m1 c [] (.ok (m5.setG c d.toNat (.plain 1)))) ∧
    (e.valid = false → e.exh = true → exec (.gmint c d a b) s = ends s m1 c [] (.ok (m5.setG c d.toNat (.plain 2)))) ∧
    (e.valid = false → e.exh = false →
      exec (.gmint c d a b) s = ends s m1 c [] (.ok ((m5.writeGrant (coreStop c) (coreUnit c) pa
        ⟨q.base, q.limit, q.perms, 0, q.colour, e.gen, false, true, (m5.core c).cmpid⟩).setG c d.toNat
          (.cap q.base q.index q.tsel e.gen))))) ∧
  (∀ (q : MintReq) (p : Grant) (x y : Word), q.bad p x y = none →
    p.base ≤ q.base ∧ q.base < q.limit ∧ q.limit ≤ p.limit ∧ q.perms &&& ~~~p.perms = 0 ∧
    (p.colour = 0 ∨ q.colour = p.colour) ∧ (q.tsel = true → x.tsel = true))) ∧
  ((∀ (s : State) (c : Nat) (d a b : BitVec 6) (m1 m2 m3 : Mach) (t r : Grant) (pa pr : Nat), s.m.Begins c m1 →
    let x := m1.g c a.toNat
    let y := m1.g c b.toNat
    x.poison = false → y.poison = false → x.tag = true → m1.entry c x.tsel x.index = .ok (t, pa, m2) →
    (t.valid = false ∨ t.gen ≠ x.gen →
      exec (.grevoke c d a b) s = ends s m1 c [] (.ok (m2.setG c d.toNat (.plain 1)))) ∧
    (t.valid = true → t.gen = x.gen → m2.live c y .noacc 0 y.cursor = .ok (r, pr, m3) → r.otype = 0 →
      (r.has .RV = true ∧ r.base ≤ t.base ∧ t.limit ≤ r.limit) ∨ t.owner = (m3.core c).cmpid →
      exec (.grevoke c d a b) s =
        ends s m1 c [] (.ok ((m3.revoke (coreStop c) (coreUnit c) pa false).setG c d.toNat (.plain 0))))) ∧
  (∀ (g : Grant) (wraps : Bool), (g.revoked wraps).valid = false ∧ (g.gen < 15 → (g.revoked wraps).gen = g.gen + 1) ∧
    (15 ≤ g.gen → (g.revoked false).exh = true)))

/-- CGATE (R61): a live sealed capability with GT whose CURSOR is the BASE of an aligned descriptor enters the descriptor's compartment, with
LINK past the link frame and control at the descriptor's PCC.
CRETG (R62, R192): with a frame open below SAVECAP it returns from the exception: PCC, GIE, NA and SAVECAP come back; with none it
returns from the latest CGATE: PCC, CMPID, GTAB, SAVECAP and EVCAP come back and LINK falls by a frame. -/
def Obligations.GateResults : Prop :=
  (∀ (s : State) (c : Nat) (a : BitVec 6) (m1 m2 m3 m4 m5 : Mach) (g : Grant) (pg pa : Nat) (d : GateDesc) (p : Piece), s.m.Begins c m1 →
    let x := m1.g c a.toNat
    let w2 := BitVec.ofNat 64 x.cursor
    let k := m4.core c
    x.poison = false → m1.live c x .noacc 0 x.cursor = .ok (g, pg, m2) → g.otype ≠ 0 → g.has .GT = true → x.cursor = g.base →
    g.base % 32 = 0 → g.base + 32 ≤ g.limit → m2.gateDesc c g w2 = .ok (pa, m3) → m4 = m3.readUpsets (some c) false pa 32 →
    GateDesc.ofWords (m4.descWords c pa) = some d → (d.world = .secure → g.owner = 0xFFFF) → d.world ≠ .guest ∨ d.world = k.world →
    m4.firstPiece c k.link k.link.cursor linkStore = .ok (p, m5) →
    ∃ t, exec (.cgate c a) s = ends s m1 c [0x00D] (.jump t d.pcc true) ∧
      (t.core c).cmpid = d.cmpid ∧ (t.core c).gtab = d.gtab ∧ (t.core c).world = d.world ∧
      (t.core c).link.cursor = (k.link.cursor + 64) % 2 ^ 48) ∧
  (∀ (s : State) (c : Nat) (m1 m2 m3 : Mach) (p : Piece), s.m.Begins c m1 →
    let k := m1.core c
    let w := fun i => m3.coreWord c (p.pa + 8 * i)
    (m1.frameOpen c = true → m1.firstPiece c k.savecap ((k.savecap.cursor : Int) - 32) frameLoad = .ok (p, m2) →
      m3 = (m2.loadSide c p).readUpsets (some c) false p.pa 32 → (w 0).poison = false → (w 3).poison = false → (w 0).tag = true →
      (w 0).cursor % 4 = 0 →
      ∃ t, exec (.cretg c) s = ends s m1 c [0x00D] (.jump t (w 0) false) ∧ bit (t.core c).evmask 63 = bit (w 3).data 2 ∧
        (t.core c).na = bit (w 3).data 3 ∧ (t.core c).savecap.cursor = (k.savecap.cursor - 32) % 2 ^ 48) ∧
    (m1.frameOpen c = false → m1.firstPiece c k.link ((k.link.cursor : Int) - 64) linkLoad = .ok (p, m2) →
      m3 = (m2.loadSide c p).readUpsets (some c) false p.pa 64 → (∀ i, i < 6 → (w i).poison = false) → fld (w 3).data 32 16 = k.cmpid →
      (w 0).tag = true → (w 0).cursor % 4 = 0 → World.ofCode (fld (w 3).data 16 2) = some k.world → k.world ≠ .guest →
      ∃ t, exec (.cretg c) s = ends s m1 c [0x00D] (.jump t (w 0) true) ∧ (t.core c).cmpid = fld (w 3).data 0 16 ∧
        (t.core c).gtab = setFld 0 16 32 (fld (w 1).data 16 32) ∧ (t.core c).savecap.cursor = (w 4).cursor ∧
        (t.core c).evcap.cursor = (w 5).cursor ∧ (t.core c).link.cursor = (k.link.cursor - 64) % 2 ^ 48))

/-! ### System instructions -/

/-- What RDSR reads of each state register (R72); VL and VTYPE exist on a V-core alone. -/
def stateRegTable : List (BitVec 6 × (Mach → Nat → Word)) :=
  [(0, fun m c => (m.core c).pcc), (1, fun m c => .plain (m.core c).gtab), (2, fun m c => .plain (m.core c).wtab),
   (3, fun m c => (m.core c).savecap), (4, fun m c => (m.core c).evcap), (5, fun m c => (m.core c).link),
   (6, fun m c => .plain (setFld (setFld 0 0 2 (m.core c).world.code) 8 10 (m.core c).vmid)),
   (7, fun m c => .plain (setFld 0 0 16 (m.core c).cmpid)),
   (10, fun m c => .plain (m.core c).evmask), (11, fun m c => .plain (m.core c).timecmp),
   (12, fun m _ => .plain (BitVec.ofNat 64 m.dt)), (13, fun m c => .plain (m.core c).fcsr)]

/-- RDSR and WRSR (R72, R95): RDSR reads every state register; WRSR is a serialising point and writes EVMASK, TIMECMP and FCSR alone. A
number outside the table, and VL or VTYPE on a C-core, is ILLEGAL.
FENCE, MFENCE, ISYNC, HALT, SETVL and an encoding without meaning (R75, R96 to R98, R108, R165, R436). HALT leaves the context HALTED with
PCC at the next instruction and the CTX_ registers at the live values (R144, R148). -/
def Obligations.SystemInstructionResults : Prop :=
  (∀ (s : State) (c : Nat) (d a : BitVec 6) (m1 : Mach), s.m.Begins c m1 →
    let x := m1.g c a.toNat
    let m2 := m1.serialPoint c
    (∀ p ∈ stateRegTable, exec (.rdsr c d p.1) s = ends s m1 c [] (.ok (m1.setG c d.toNat (p.2 m1 c)))) ∧
    (c < 144 → exec (.rdsr c d 8) s = ends s m1 c [] (.ok (m1.setG c d.toNat (.plain (BitVec.ofNat 64 (m1.core c).vl)))) ∧
      exec (.rdsr c d 9) s = ends s m1 c [] (.ok (m1.setG c d.toNat (.plain (m1.core c).vtype)))) ∧
    (∀ n : BitVec 6, 15 ≤ n.toNat ∨ (144 ≤ c ∧ (n = 8 ∨ n = 9)) →
      exec (.rdsr c d n) s = ends s m1 c [] (.trap (m1.illegal c 0)) ∧
      exec (.wrsr c n a) s = ends s m1 c [] (.trap (m1.illegal c 0))) ∧
    (x.poison = false →
      exec (.wrsr c 10 a) s = ends s m1 c [] (.ok (m2.setCore c { m2.core c with evmask := x.data &&& 0x800000000001FFFF })) ∧
      exec (.wrsr c 11 a) s = ends s m1 c [] (.ok (m2.setCore c { m2.core c with timecmp := x.data })) ∧
      exec (.wrsr c 13 a) s = ends s m1 c [] (.ok (m2.setCore c { m2.core c with fcsr := writeFcsr (m2.core c).fcsr x.data })) ∧
      exec (.wrsr c 1 a) s = ends s m1 c [] (.ok m2) ∧ exec (.wrsr c 12 a) s = ends s m1 c [] (.ok m2))) ∧
  (∀ (s : State) (c : Nat) (d a mask : BitVec 6) (imm : BitVec 14) (word : BitVec 32) (m1 : Mach), s.m.Begins c m1 →
    let x := m1.g c a.toNat
    let vl := min x.data.toNat (1024 / (8 * 2 ^ (imm.toNat % 4)))
    (mask = 0 ∨ mask.getLsbD 5 = true → exec (.fence c mask) s = ends s m1 c [] (.trap (m1.illegal c 0))) ∧
    (mask ≠ 0 → mask.getLsbD 5 = false → mask.extractLsb' 2 3 ≠ 0 → exec (.fence c mask) s = ends s m1 c [] (.ok (m1.drainAll c))) ∧
    (mask ≠ 0 → mask.getLsbD 5 = false → mask.extractLsb' 2 3 = 0 → exec (.fence c mask) s = ends s m1 c [] (.ok m1)) ∧
    (((m1.drainAll c).core c).mirrorLost = false → ((m1.drainAll c).core c).mirrorSent = 0 →
      exec (.mfence c) s = ends s m1 c [] (.ok (m1.drainAll c))) ∧
    (((m1.drainAll c).core c).mirrorLost = true → exec (.mfence c) s = ends s m1 c [] (.trap (.plain .mirror 1 0))) ∧
    exec (.isync c) s = ends s m1 c [] (.ok (m1.serialPoint c)) ∧
    (c < 144 → ∃ t, exec (.halt c) s = .next (s.withM t) ∧ (t.core c).st = .halted ∧
      (t.core c).pcc.cursor = ((m1.core c).pcc.cursor + 4) % 2 ^ 48 ∧ (t.core c).ctx.pcc = (t.core c).pcc) ∧
    exec (.illegalEncoding c word) s = ends s m1 c [] (.trap (.plain .illegal 0 (word.setWidth 64))) ∧
    (c < 144 → imm.toNat < 8 → imm.getLsbD 2 = false ∨ imm.toNat % 4 = 1 → x.poison = false →
      exec (.setvl c d a imm) s = ends s m1 c [0x010] (.ok ((m1.setCore c { m1.core c with
        vl := vl, vtype := imm.setWidth 64 }).setG c d.toNat (.plain (BitVec.ofNat 64 vl))))))

/-! ### Exceptions -/

/-- Taking an exception (R189 to R191): the frame goes through SAVECAP, SAVECAP moves past it, PCC takes EVCAP, GIE is cleared and the entry
window opens; on a C-core the handler's loop bank is live and clear. Inside the entry window, or where SAVECAP or the frame's store is
refused, the context ends FATAL with the frame in LAST_FRAME. Word 0 of a frame is PCC, word 1 carries the cause, its sub-code and, for a
violation, the access type and the rule class.
What is due at a boundary (R194, R204, R208): a pending refused store before an NMI before an event, and none of them inside the entry
window. The commands take what is due: each clears what it takes but for the event, whose pending bits stay. -/
def Obligations.ExceptionEntry : Prop :=
  ((∀ (m : Mach) (c : Nat) (e : EntryRec) (m1 : Mach) (g : Grant) (p : Piece),
    let m0 := (m.serialise c).countCore c 0x00C 1
    let x := m0.core c
    let m2 := m1.storeFrame c p.pt p.pa (entryFrame x (isC c) e 0)
    let m3 := m2.setCore c { m2.core c with savecap := x.savecap.withCursor (x.savecap.cursor + 32) }
    let t := m.enter c e
    x.window = false → m0.savecapOk c x.savecap = true → m0.check c x.savecap x.savecap.cursor frameReq = .ok ([p], g, m1) →
    m1.refuseFirst c g .capst [p] = none → m3.evcapOk c (m3.core c).evcap = true →
    t.mem = m2.mem ∧ t.mmeta = m2.mmeta ∧ (t.core c).st = .running ∧ (t.core c).pcc = (m2.core c).evcap ∧
    (t.core c).savecap.cursor = (x.savecap.cursor + 32) % 2 ^ 48 ∧ bit (t.core c).evmask 63 = false ∧ (t.core c).window = true ∧
    (e.cause = .nmi → (t.core c).na = true) ∧ (144 ≤ c → (t.core c).handLive = true ∧ (t.core c).handBank = .clear) ∧
    (∀ c' r, t.g c' r = m2.g c' r)) ∧
  (∀ (m : Mach) (c : Nat) (e : EntryRec),
    let m0 := (m.serialise c).countCore c 0x00C 1
    let x := m0.core c
    (x.window = true → m.enter c e = m0.fatal c e 4) ∧
    (x.window = false → m0.savecapOk c x.savecap = false → m.enter c e = m0.fatal c e 1)) ∧
  (∀ (m : Mach) (c : Nat) (e : EntryRec) (n : Nat), (m.core c).world ≠ .secure →
    ((m.fatal c e n).core c).st = .fatal ∧ ((m.fatal c e n).core c).lastFrame = entryFrame (m.core c) (isC c) e n) ∧
  (∀ (x : Core) (onC : Bool) (e : EntryRec) (n : Nat), (entryFrame x onC e n)[0]? = some { x.pcc with poison := false, colour := 0 }) ∧
  (∀ e : EntryRec, e.sub < 256 →
    fld e.causeWord 0 8 = e.cause.code ∧ fld e.causeWord 8 8 = e.sub ∧ fld e.causeWord 20 4 = e.rule.code ∧
    bit e.causeWord 24 = e.acc.isSome)) ∧
  ((∀ (m : Mach) (c : Nat), (m.core c).put = none → (m.core c).vAbandons = 0 →
    ((m.core c).window = true → m.due c = none) ∧
    ((m.core c).window = false → (m.core c).refused.isSome = true → m.due c = some .refused) ∧
    ((m.core c).window = false → (m.core c).refused = none → c < 144 → (m.core c).nmi = true → (m.core c).na = false →
      m.due c = some .nmi) ∧
    ((m.core c).window = false → (m.core c).refused = none → (m.core c).nmi = false →
      (m.due c = some .event ↔ bit (m.core c).evmask 63 = true ∧ m.pendSet c &&& (m.core c).evmask &&& 0x1FFFF ≠ 0))) ∧
  (∀ (s : State) (c : Nat), s.m.canRun c = true →
    (s.m.due c = some .event →
      exec (.takeEventException c false) s = .next (s.withM (s.m.enter c (.async .event (s.m.pendSet c))))) ∧
    (s.m.due c = some .nmi →
      exec (.takeNmi c false) s = .next (s.withM ((s.m.setCore c { s.m.core c with nmi := false }).enter c (.async .nmi 0)))) ∧
    (∀ r, s.m.due c = some .refused → (s.m.core c).refused = some r →
      exec (.takeRefusedStore c) s = .next (s.withM ((s.m.setCore c { s.m.core c with refused := none }).enter c r.entryRec))) ∧
    (∀ e m1, s.m.due c = none → s.m.fetch c = .error (e, m1) →
      exec (.instructionFetchFault c) s = .next (s.withM (m1.trap c e)))) ∧
  (∀ (s : State) (c : Nat) (a : Acc) (addr : Nat) (phys : Bool), c < 176 → (s.m.core c).st ≠ .off →
    (s.m.core c).refused = none →
    exec (.refusedStoreResponse c a .ctlPerm addr phys false) s = .next (s.withM (s.m.setCore c { s.m.core c with
      refused := some ⟨.capPerm, .ctlPerm, a, addr, phys, false⟩ }))))

/-! ### Events -/

/-- The event router (R202, R203): a raise on an enabled route sets the pending bit once, a raise on a disabled route is dropped and counted,
and a raise of a pending event is counted. SYT_EVR_ROUTE takes a route to an existing core, SYT_EVR_FIRE raises, and EVENT_DELIVERY wakes
a core that waits.
EWAIT and ESIG (R205, R206): EWAIT collects the lowest selected event and clears its pending bit, else the timer, else answers NONE or
waits; ESIG raises a soft event of a route that admits the core's compartment.
The NMI input (R207, R208, R341): NMI_N_ASSERT goes to every selected V-core, once for each time that the input goes high; a core that runs
holds it, a core that is stopped or FATAL discards it and counts. -/
def Obligations.Events : Prop :=
  ((∀ (m : Mach) (n : Nat), n < 792 →
    (bit (m.route n) 10 = true → n ∉ m.evPend → (m.raiseEvent n).evPend = insNat m.evPend n) ∧
    (bit (m.route n) 10 = true → n ∈ m.evPend → m.raiseEvent n = m.countReg 0 0 0x620 0 32 1) ∧
    (bit (m.route n) 10 = false → m.raiseEvent n = m.countReg 0 0 0x620 32 32 1)) ∧
  (∀ (l : List Nat) (n k : Nat), k ∈ insNat l n ↔ k = n ∨ k ∈ l) ∧
  (∀ (s : State) (mst : Master) (v : W64), (bit v 24 = true → fld v 16 8 < 32) → (bit v 24 = false → fld v 16 8 < 144) →
    bit v 11 = false → fld v 0 10 ≠ 790 →
    ∃ t, exec (.sytEvrRouteWrite mst v) s = .next (s.withM t) ∧ t.route (fld v 0 10) = routeMask v ∧
      (∀ n, n ≠ fld v 0 10 → t.route n = s.m.route n) ∧ t.evPend = s.m.evPend) ∧
  (∀ (s : State) (mst : Master) (v : W64), fld v 0 10 ≠ 790 → fld v 0 10 < 792 →
    exec (.sytEvrFire mst v) s = .next (s.withM (s.m.raiseEvent (fld v 0 10)))) ∧
  (∀ (s : State) (n : Nat), n ∈ s.m.evPend → bit (s.m.route n) 10 = true →
    exec (.eventDelivery n) s = .next (s.withM (s.m.wake (routeCore (s.m.route n))))) ∧
  (∀ (s : State) (c : Nat), (s.m.core c).timecmp ≠ 0 →
    exec (.timerExpires c) s = .next (s.withM (Mach.wake { s.m with dt := max s.m.dt (s.m.core c).timecmp.toNat } c)))) ∧
  (∀ (s : State) (c : Nat) (d a : BitVec 6) (m1 : Mach), s.m.Begins c m1 →
    let x := m1.g c a.toNat
    let n := fld x.data 0 10
    x.poison = false →
    (∀ e j, m1.collectable c x.data = some (e, j) →
      exec (.ewait c d a) s = ends s m1 c [] (.ok ((m1.clearEvent e).setG c d.toNat (.plain (setFld (setFld 0 0 10 e) 12 4 j))))) ∧
    (m1.collectable c x.data = none → bit x.data 16 = true → m1.timerPending c = true →
      exec (.ewait c d a) s =
        ends s m1 c [] (.ok ((m1.setCore c { m1.core c with timecmp := 0 }).setG c d.toNat (.plain 0x4000000000000000)))) ∧
    (m1.collectable c x.data = none → bit x.data 16 = false → bit x.data 32 = true →
      exec (.ewait c d a) s = ends s m1 c [] (.ok (m1.setG c d.toNat (.plain 0x8000000000000000)))) ∧
    (m1.collectable c x.data = none → bit x.data 16 = false → bit x.data 32 = false → fld x.data 0 17 ≠ 0 →
      exec (.ewait c d a) s = ends s m1 c [] (.wait (m1.setCore c { m1.core c with
        st := .waiting, sel := x.data, wdst := d.toNat }))) ∧
    (n < 256 → bit (m1.route n) 25 = true ∨ fld (m1.route n) 32 16 = (m1.core c).cmpid →
      exec (.esig c a) s = ends s m1 c [] (.ok ((m1.drainAll c).raiseEvent n))) ∧
    (n < 256 → bit (m1.route n) 25 = false → fld (m1.route n) 32 16 ≠ (m1.core c).cmpid →
      exec (.esig c a) s = ends s m1 c [] (.trap (.plain .capPerm 0 0))) ∧
    (256 ≤ n → exec (.esig c a) s = ends s m1 c [] (.trap (.plain .capPerm 0 0)))) ∧
  ((∀ s : State, bit (s.m.reg 0 0 0x658) 32 = true → exec .nmiNAssert s = .next s) ∧
  (∀ s : State, bit (s.m.reg 0 0 0x658) 32 = false → ∃ t, exec .nmiNAssert s = .next (s.withM t) ∧ bit (t.reg 0 0 0x658) 32 = true ∧
    (s.m.phase = .run → ∀ c, c < 144 → s.m.nmiTarget c = true → (s.m.core c).st = .running → (t.core c).nmi = true)) ∧
  (∀ s : State, ∃ t, exec .nmiNRelease s = .next (s.withM t) ∧ bit (t.reg 0 0 0x658) 32 = false ∧ t.cores = s.m.cores) ∧
  (∀ (m : Mach) (c : Nat), (m.core c).st = .stopped ∨ (m.core c).st = .fatal →
    m.deliverNmi c = m.setCore c { m.core c with nmiLost := min ((m.core c).nmiLost + 1) 0xFFFF }))

/-! ### Long vectors -/

/-- Core `c`, a V-core with a legal vector type, begins an instruction (R104, R105). -/
def VecBegins (s : State) (c : Nat) (m1 : Mach) : Prop := s.m.Begins c m1 ∧ c < 144 ∧ bit (m1.core c).vtype 63 = false

/-- The destination `v` of an element-wise instruction (R106, R107, R115): an active element below VL holds `val` with the poison `pois`, an
inactive one and one from VL on keep theirs, and a poisoned mask poisons every element below VL. -/
def Elementwise (m : Mach) (c : Nat) (k : Bool) (old v : VReg) (val : Nat → Nat) (pois : Nat → Bool) : Prop :=
  let w := (m.core c).ew
  ∀ i, i < 1024 / w →
    (i < (m.core c).vl → m.vActive c k i = true →
      v.elem w i = val i % 2 ^ w ∧ v.pois w i = (pois i || m.vMaskPoison c k)) ∧
    (i < (m.core c).vl → m.vActive c k i = false →
      v.elem w i = old.elem w i ∧ v.pois w i = (old.pois w i || m.vMaskPoison c k)) ∧
    ((m.core c).vl ≤ i → v.elem w i = old.elem w i ∧ v.pois w i = old.pois w i)

/-- Element `x` of `w` bits as a signed number. -/
def sgn (w x : Nat) : Int := if x < 2 ^ (w - 1) then x else (x : Int) - 2 ^ w

/-- The low `w` bits of an integer. -/
def low (w : Nat) (x : Int) : Nat := (x % 2 ^ w).toNat

/-- A signed value held to `w` bits. -/
def clampS (w : Nat) (x : Int) : Int := max (-(2 ^ (w - 1))) (min x (2 ^ (w - 1) - 1))

/-- The constructors of element-wise instructions with two sources. -/
abbrev VecCtor := Nat → Bool → BitVec 5 → BitVec 5 → Bool → BitVec 6 → Instr

/-- The integer instructions of R112: whether the old destination is a source; width, old destination, vA, second source. -/
def vecIntTable : List (VecCtor × Bool × (Nat → Nat → Nat → Nat → Nat)) :=
  [(.vadd, false, fun _ _ x y => x + y), (.vsub, false, fun w _ x y => x + 2 ^ w - y), (.vand, false, fun _ _ x y => x &&& y),
   (.vor, false, fun _ _ x y => x ||| y), (.vxor, false, fun _ _ x y => x ^^^ y),
   (.vshl, false, fun _ _ x y => x * 2 ^ (y % 64)), (.vshr, false, fun _ _ x y => x / 2 ^ (y % 64)),
   (.vsra, false, fun w _ x y => low w (sgn w x / 2 ^ (y % 64))),
   (.vmin, false, fun w _ x y => if sgn w x < sgn w y then x else y), (.vmax, false, fun w _ x y => if sgn w x < sgn w y then y else x),
   (.vminu, false, fun _ _ x y => min x y), (.vmaxu, false, fun _ _ x y => max x y), (.vmul, false, fun _ _ x y => x * y),
   (.vmulh, false, fun w _ x y => low w (sgn w x * sgn w y / 2 ^ w)), (.vmulhu, false, fun w _ x y => x * y / 2 ^ w),
   (.vmacc, true, fun _ z x y => z + x * y),
   (.vadds, false, fun w _ x y => low w (clampS w (sgn w x + sgn w y))),
   (.vaddus, false, fun w _ x y => min (x + y) (2 ^ w - 1)),
   (.vsubs, false, fun w _ x y => low w (clampS w (sgn w x - sgn w y))), (.vsubus, false, fun _ _ x y => x - y)]

/-- VADD to VSUBUS (R110 to R112): each completes element by element; with VILL set they trap VECTOR, and on a C-core ILLEGAL (R105). -/
def Obligations.VectorIntegerResults : Prop :=
  ∀ q ∈ vecIntTable, ∀ (s : State) (c : Nat) (k : Bool) (vd va : BitVec 5) (sc : Bool) (b : BitVec 6) (m1 : Mach),
    sc = true ∨ b.getLsbD 5 = false →
    (VecBegins s c m1 →
      let w := (m1.core c).ew
      let x := m1.v c va.toNat
      let z := m1.v c vd.toNat
      ∃ v, exec (q.1 c k vd va sc b) s = ends s m1 c [0x010] (.ok (((m1.setV c vd.toNat v).accrue c .none).vRetire c)) ∧
        Elementwise m1 c k z v (fun i => q.2.2 w (z.elem w i) (x.elem w i) (m1.vB c sc b.toNat i).1)
          (fun i => x.pois w i || (m1.vB c sc b.toNat i).2 || (q.2.1 && z.pois w i))) ∧
    (s.m.Begins c m1 → c < 144 → bit (m1.core c).vtype 63 = true →
      exec (q.1 c k vd va sc b) s = ends s m1 c [0x010] (.trap (.plain .vector 0 0))) ∧
    (s.m.Begins c m1 → 144 ≤ c → exec (q.1 c k vd va sc b) s = ends s m1 c [0x010] (.trap (m1.illegal c 0)))

/-- The floating-point instructions of R113 with two sources: format, rounding mode, old destination, vA, second source, as patterns. -/
def vecFloatTable : List (VecCtor × Bool × (Fp.Fmt → Nat → Nat → Nat → Nat → Nat × Flags)) :=
  [(.vfadd, false, fun f rm _ x y => Fp.add f rm (Fp.unpack f x) (Fp.unpack f y)),
   (.vfsub, false, fun f rm _ x y => Fp.add f rm (Fp.unpack f x) (Fp.unpack f y).neg),
   (.vfmul, false, fun f rm _ x y => Fp.mul f rm (Fp.unpack f x) (Fp.unpack f y)),
   (.vfdiv, false, fun f rm _ x y => Fp.div f rm (Fp.unpack f x) (Fp.unpack f y)),
   (.vfmin, false, fun f _ _ x y => Fp.minMax f false x y), (.vfmax, false, fun f _ _ x y => Fp.minMax f true x y),
   (.vfmacc, true, fun f rm z x y => Fp.fma f rm (Fp.unpack f x) (Fp.unpack f y) (Fp.unpack f z)),
   (.vfnmsac, true, fun f rm z x y => Fp.fma f rm (Fp.unpack f x).neg (Fp.unpack f y) (Fp.unpack f z))]

/-- The unary floating-point instructions of R113. -/
def vecFloatUnaryTable : List ((Nat → Bool → BitVec 5 → BitVec 5 → Instr) × (Fp.Fmt → Nat → Nat → Nat × Flags)) :=
  [(.vfsqrt, fun f rm x => Fp.sqrt f rm (Fp.unpack f x)), (.vfcvtFX, fun f rm x => Fp.ofInt f rm (sgn f.width x)),
   (.vfcvtXF, fun f rm x =>
      let r := Fp.toInt rm (-(2 ^ (f.width - 1))) (2 ^ (f.width - 1) - 1) (Fp.unpack f x)
      (low f.width r.1, r.2))]

/-- The flags that the active elements below VL raise (R111). -/
def raised (m : Mach) (c : Nat) (k : Bool) (f : Nat → Flags) : Flags :=
  (((List.range (m.core c).vl).filter (m.vActive c k)).map f).foldl Flags.or .none

/-- VFADD to VFCVT.X.F (R111, R113): each completes element by element in the format of the element width, with the flags of its active
elements in FCSR; elements of 8 bits trap VECTOR. -/
def Obligations.VectorFloatResults : Prop :=
  ∀ (s : State) (c : Nat) (k : Bool) (vd va : BitVec 5) (sc : Bool) (b : BitVec 6) (m1 : Mach), VecBegins s c m1 →
    let w := (m1.core c).ew
    let x := m1.v c va.toNat
    let z := m1.v c vd.toNat
    let rm := fcsrRm (m1.core c).fcsr
    (∀ fm, (m1.core c).vfmt = some fm →
      (sc = true ∨ b.getLsbD 5 = false → ∀ q ∈ vecFloatTable,
        let r := fun i => q.2.2 fm rm (z.elem w i) (x.elem w i) (m1.vB c sc b.toNat i).1
        ∃ v, exec (q.1 c k vd va sc b) s =
            ends s m1 c [0x010] (.ok (((m1.setV c vd.toNat v).accrue c (raised m1 c k (fun i => (r i).2))).vRetire c)) ∧
          Elementwise m1 c k z v (fun i => (r i).1)
            (fun i => x.pois w i || (m1.vB c sc b.toNat i).2 || (q.2.1 && z.pois w i))) ∧
      (∀ q ∈ vecFloatUnaryTable,
        let r := fun i => q.2 fm rm (x.elem w i)
        ∃ v, exec (q.1 c k vd va) s =
            ends s m1 c [0x010] (.ok (((m1.setV c vd.toNat v).accrue c (raised m1 c k (fun i => (r i).2))).vRetire c)) ∧
          Elementwise m1 c k z v (fun i => (r i).1) (fun i => x.pois w i))) ∧
    ((m1.core c).vfmt = none →
      (sc = true ∨ b.getLsbD 5 = false → ∀ q ∈ vecFloatTable,
        exec (q.1 c k vd va sc b) s = ends s m1 c [0x010] (.trap (.plain .vector 0 0))) ∧
      (∀ q ∈ vecFloatUnaryTable, exec (q.1 c k vd va) s = ends s m1 c [0x010] (.trap (.plain .vector 0 0))))

/-- The compares of R114 on integers. -/
def vecCompareTable : List ((Nat → Bool → BitVec 3 → BitVec 5 → Bool → BitVec 6 → Instr) × (Nat → Nat → Nat → Prop)) :=
  [(.vmseq, fun _ x y => x = y), (.vmsne, fun _ x y => x ≠ y), (.vmslt, fun w x y => sgn w x < sgn w y), (.vmsltu, fun _ x y => x < y)]

/-- The compares of R114 on floating point: less, equal, and whether a quiet NaN is silent. -/
def vecFloatCompareTable : List ((Nat → Bool → BitVec 3 → BitVec 5 → Bool → BitVec 6 → Instr) × Bool × Bool × Bool) :=
  [(.vmfeq, false, true, true), (.vmflt, true, false, false), (.vmfle, true, true, false)]

/-- The mask logic of R114. -/
def maskLogicTable : List ((Nat → BitVec 3 → BitVec 3 → BitVec 3 → Instr) × (Bool → Bool → Bool)) :=
  [(.vmand, fun x y => x && y), (.vmor, fun x y => x || y), (.vmxor, fun x y => x != y), (.vmandn, fun x y => x && ! y)]

/-- Compares and mask logic (R114, R115): the mask bits of active elements below VL take the outcome, every other bit of md stays, and its
POISON is that of the active sources.
VMPOPC to VMWRH and VMV.X.S (R114 to R116): masks and elements move to and from general registers with their POISON, TAG 0 and COLOUR 0. -/
def Obligations.VectorMaskResults : Prop :=
  (∀ (s : State) (c : Nat) (k : Bool) (md ma mb : BitVec 3) (va : BitVec 5) (sc : Bool) (b : BitVec 6) (m1 : Mach), VecBegins s c m1 →
    let w := (m1.core c).ew
    let x := m1.v c va.toNat
    let old := (m1.maskReg c md.toNat).bits
    let act := (List.range (m1.core c).vl).filter (m1.vActive c k)
    let pois := act.any (fun i => x.pois w i || (m1.vB c sc b.toNat i).2)
    let p := m1.maskReg c ma.toNat
    let r := m1.maskReg c mb.toNat
    (sc = true ∨ b.getLsbD 5 = false → ∀ q ∈ vecCompareTable, ∃ v : BitVec 128,
      exec (q.1 c k md va sc b) s = ends s m1 c [0x010] (.ok (((m1.setMaskReg c md.toNat ⟨v, pois⟩).accrue c .none).vRetire c)) ∧
      ∀ i, i < 128 → (i ∈ act → (v.getLsbD i = true ↔ q.2 w (x.elem w i) (m1.vB c sc b.toNat i).1)) ∧
        (i ∉ act → v.getLsbD i = old.getLsbD i)) ∧
    (sc = true ∨ b.getLsbD 5 = false → ∀ fm, (m1.core c).vfmt = some fm → ∀ q ∈ vecFloatCompareTable,
      let o := fun i => Fp.compare (Fp.unpack fm (x.elem w i)) (Fp.unpack fm (m1.vB c sc b.toNat i).1) q.2.1 q.2.2.1 q.2.2.2
      ∃ v : BitVec 128, exec (q.1 c k md va sc b) s = ends s m1 c [0x010] (.ok (((m1.setMaskReg c md.toNat ⟨v, pois⟩).accrue c
          (raised m1 c k (fun i => (o i).2))).vRetire c)) ∧
      ∀ i, i < 128 → (i ∈ act → v.getLsbD i = (o i).1) ∧ (i ∉ act → v.getLsbD i = old.getLsbD i)) ∧
    (∀ q ∈ maskLogicTable, ∃ v : BitVec 128,
      exec (q.1 c md ma mb) s = ends s m1 c [0x010] (.ok ((m1.setMaskReg c md.toNat ⟨v, p.poison || r.poison⟩).vRetire c)) ∧
      ∀ i, i < 128 → v.getLsbD i = if i < (m1.core c).vl then q.2 (p.bits.getLsbD i) (r.bits.getLsbD i) else old.getLsbD i) ∧
    (∃ v : BitVec 128,
      exec (.vmnot c md ma) s = ends s m1 c [0x010] (.ok ((m1.setMaskReg c md.toNat ⟨v, p.poison⟩).vRetire c)) ∧
      ∀ i, i < 128 → v.getLsbD i = if i < (m1.core c).vl then ! p.bits.getLsbD i else old.getLsbD i)) ∧
  (∀ (s : State) (c : Nat) (d a : BitVec 6) (ma md : BitVec 3) (va : BitVec 5) (m1 : Mach), VecBegins s c m1 →
    let w := (m1.core c).ew
    let x := m1.maskReg c ma.toNat
    let y := m1.g c a.toNat
    let old := (m1.maskReg c md.toNat).bits
    let ones := (List.range (m1.core c).vl).filter (fun i => x.bits.getLsbD i)
    let done : W64 → Bool → Out := fun v p => ends s m1 c [0x010] (.ok ((m1.setG c d.toNat ⟨v, false, p, 0⟩).vRetire c))
    exec (.vmpopc c d ma) s = done (BitVec.ofNat 64 ones.length) x.poison ∧
    exec (.vmfirst c d ma) s = done (if ones = [] then 0xFFFFFFFFFFFFFFFF else BitVec.ofNat 64 (ones.headD 0)) x.poison ∧
    exec (.vmrdl c d ma) s = done (x.bits.extractLsb' 0 64) x.poison ∧
    exec (.vmrdh c d ma) s = done (x.bits.extractLsb' 64 64) x.poison ∧
    exec (.vmwrl c md a) s = ends s m1 c [0x010] (.ok ((m1.setMaskReg c md.toNat
      ⟨old.extractLsb' 64 64 ++ y.data, y.poison⟩).vRetire c)) ∧
    exec (.vmwrh c md a) s = ends s m1 c [0x010] (.ok ((m1.setMaskReg c md.toNat
      ⟨y.data ++ old.extractLsb' 0 64, y.poison⟩).vRetire c)) ∧
    exec (.vmvXS c d va) s =
      done (BitVec.ofInt 64 (sgn w ((m1.v c va.toNat).elem w 0))) ((m1.v c va.toNat).pois w 0))

/-- VMV.V.X, VMV.V.V, VID, VRGATHER, VSLIDEDN and VSLIDEUP (R116): a source index outside the register gives 0; VSLIDEUP leaves the elements
below its amount.
VREDSUM, VREDMAX, VREDMIN and VFREDSUM (R116): the elements below VL from srcB on, in order; masks play no part. -/
def Obligations.VectorMoveAndReductionResults : Prop :=
  (∀ (s : State) (c : Nat) (k : Bool) (vd va vb : BitVec 5) (a : BitVec 6) (m1 : Mach), VecBegins s c m1 →
    let w := (m1.core c).ew
    let x := m1.v c va.toNat
    let y := m1.v c vb.toNat
    let z := m1.v c vd.toNat
    let g := m1.g c a.toNat
    let n := g.data.toNat
    let moves : Instr → (Nat → Nat) → (Nat → Bool) → Prop := fun i val pois =>
      ∃ v, exec i s = ends s m1 c [0x010] (.ok (((m1.setV c vd.toNat v).accrue c .none).vRetire c)) ∧
        Elementwise m1 c k z v val pois
    moves (.vmvVX c k vd a) (fun _ => n) (fun _ => g.poison) ∧
    moves (.vmvVV c k vd va) (fun i => x.elem w i) (fun i => x.pois w i) ∧
    moves (.vid c k vd) (fun i => i) (fun _ => false) ∧
    moves (.vrgather c k vd va vb) (fun i => if y.elem w i < 1024 / w then x.elem w (y.elem w i) else 0)
      (fun i => y.pois w i || (decide (y.elem w i < 1024 / w) && x.pois w (y.elem w i))) ∧
    moves (.vslidedn c k vd va a) (fun i => if i + n < 1024 / w then x.elem w (i + n) else 0)
      (fun i => g.poison || (decide (i + n < 1024 / w) && x.pois w (i + n))) ∧
    ((m1.vMaskPoison c k = false) →
      moves (.vslideup c k vd va a) (fun i => if n ≤ i then x.elem w (i - n) else z.elem w i)
        (fun i => if n ≤ i then x.pois w (i - n) || g.poison else z.pois w i))) ∧
  (∀ (s : State) (c : Nat) (d b : BitVec 6) (va : BitVec 5) (m1 : Mach), VecBegins s c m1 →
    let w := (m1.core c).ew
    let x := m1.v c va.toNat
    let y := m1.g c b.toNat
    let is := List.range (m1.core c).vl
    let pois := y.poison || is.any (fun i => x.pois w i)
    let done : (Int → Int → Int) → Out := fun f => ends s m1 c [0x010] (.ok ((m1.setG c d.toNat
      ⟨BitVec.ofInt 64 ((is.map (fun i => sgn w (x.elem w i))).foldl f y.data.toInt), false, pois, 0⟩).vRetire c))
    exec (.vredsum c d va b) s = done (fun t e => t + e) ∧ exec (.vredmax c d va b) s = done (fun t e => max t e) ∧
    exec (.vredmin c d va b) s = done (fun t e => min t e) ∧
    (∀ fm, (m1.core c).vfmt = some fm → ∃ v fl,
      exec (.vfredsum c d va b) s = ends s m1 c [0x010] (.ok (((m1.setG c d.toNat
        ⟨BitVec.ofNat 64 v, false, pois, 0⟩).accrue c fl).vRetire c)) ∧
      ((m1.core c).vl = 0 → v = fld y.data 0 w ∧ fl = .none) ∧
      ((m1.core c).vl = 1 → v = (Fp.add fm (fcsrRm (m1.core c).fcsr) (Fp.unpack fm (fld y.data 0 w)) (Fp.unpack fm (x.elem w 0))).1)))

/-- The unit-stride and strided accesses of R117 with the address of element `i`. -/
def vecMemTable : List ((Nat → Bool → BitVec 5 → BitVec 6 → BitVec 6 → Instr) × Bool × (Nat → Word → Word → Nat → Int)) :=
  [(.vld, false, fun b x y i => x.cursor + y.data.toInt + i * b), (.vst, true, fun b x y i => x.cursor + y.data.toInt + i * b),
   (.vlds, false, fun _ x y i => x.cursor + i * y.data.toInt), (.vsts, true, fun _ x y i => x.cursor + i * y.data.toInt)]

/-- Vector memory (R117 to R119): where every check of the active elements passes, a load puts each active element's bytes into vd and a store
writes them to memory; with no active element nothing is accessed.
What the elements of a load become (R119): each element holds what is read at its place, in order, and every other element of the
destination stays. -/
def Obligations.VectorMemoryResults : Prop :=
  (∀ (s : State) (c : Nat) (k : Bool) (vd vb : BitVec 5) (a b : BitVec 6) (sc : BitVec 2) (m1 m2 m3 : Mach) (g : Grant) (qs : List VPiece),
    VecBegins s c m1 → m1.vMaskPoison c k = false →
    let w := (m1.core c).ew
    let x := m1.g c a.toNat
    let y := m1.g c b.toNat
    let ix := m1.v c vb.toNat
    let act := (List.range (m1.core c).vl).filter (m1.vActive c k)
    let all := fun (st pi : Bool) (ea : Nat → Int) (ip : Nat → Bool) =>
      act ≠ [] ∧ m1.vInstrCheck c x pi st = .ok (g, m2) ∧ m2.vElems c g st (w / 8) ea ip act = .ok (qs, m3)
    let loads := ends s m1 c [0x010] (.ok (((m3.vLoadAll c w (m1.v c vd.toNat) qs).2.setV c vd.toNat
      (m3.vLoadAll c w (m1.v c vd.toNat) qs).1).vRetire c))
    let stores := ends s m1 c [0x010] (.ok ((m3.vStoreAll c w g (m1.v c vd.toNat) qs).vRetire c))
    let ixea : Nat → Int := fun i => (x.cursor : Int) + ix.elem w i * 2 ^ sc.toNat
    (∀ q ∈ vecMemTable,
      (q.2.1 = false → all false y.poison (q.2.2 (w / 8) x y) (fun _ => false) → m3.vRefuse c g qs = none →
        exec (q.1 c k vd a b) s = loads) ∧
      (q.2.1 = true → all true y.poison (q.2.2 (w / 8) x y) (fun _ => false) → m3.mirrorFull c (qs.map VPiece.p) = false →
        exec (q.1 c k vd a b) s = stores) ∧
      (act = [] → exec (q.1 c k vd a b) s = ends s m1 c [0x010] (.ok (m1.vRetire c)))) ∧
    (all false false ixea (ix.pois w) → m3.vRefuse c g qs = none → exec (.vgather c k vd a vb sc) s = loads) ∧
    (all true false ixea (ix.pois w) → m3.mirrorFull c (qs.map VPiece.p) = false → exec (.vscatter c k vd a vb sc) s = stores)) ∧
  (∀ (m : Mach) (c : Nat) (e : Nat) (r : VReg) (q : VPiece) (qs : List VPiece), e < 4 → 
    let w := 8 * 2 ^ e
    let x := m.vRead c (w / 8) q.p
    m.vLoadAll c w r [] = (r, m) ∧ m.vLoadAll c w r (q :: qs) = x.2.2.vLoadAll c w (r.put w q.i x.1 x.2.1) qs ∧
    (∀ i, q.i < 1024 / w → (r.put w q.i x.1 x.2.1).elem w q.i = x.1 % 2 ^ w ∧ (r.put w q.i x.1 x.2.1).pois w q.i = x.2.1 ∧
      (i ≠ q.i → (r.put w q.i x.1 x.2.1).elem w i = r.elem w i ∧ (r.put w q.i x.1 x.2.1).pois w i = r.pois w i)))

/-! ### Control access, ledger and maintenance instructions -/

/-- CTLR and CTLW (R15, R24, R51, R95): a checked CTLR of a register that its window answers reads it into dst; a refusal is a precise
CAP_PERM. A CTLW is a serialising point; its write takes effect at the target, and a refusal by the target is logged there and held as the
core's refused store. Memory and apertures are no control registers. -/
def Obligations.ControlAccess : Prop :=
  ∀ (s : State) (c : Nat) (d a b : BitVec 6) (x : CtlIn) (m1 m2 : Mach) (p : Piece) (g : Grant), s.m.Begins c m1 →
    let cap := m1.g c a.toNat
    let y := m1.g c b.toNat
    let w := m1.g c d.toNat
    let ea := (cap.cursor : Int) + y.data.toInt
    let m3 := m2.serialPoint c
    cap.poison = false → y.poison = false →
    (m1.check c cap ea ctlrReq = .ok ([p], g, m2) →
      (∀ st k off, m2.locate p.pa = .window st k off → m2.ctlRefusal c g false p.pa = none →
        (∀ r, winBlk st k = some (.rp, r) → off ≠ 0x60) →
        exec (.ctlr c d a b) s = ends s m1 c [] (.ok ((m2.ctlRead (m2.coreMaster c) st k off).2.setG c d.toNat
          (.plain (m2.ctlRead (m2.coreMaster c) st k off).1)))) ∧
      (∀ r st k, m2.notControl p.pa = false → m2.ctlRefusal c g false p.pa = some (r, st, k) →
        exec (.ctlr c d a b) s = ends s m1 c [] (.trap ⟨.capPerm, 0, some .ctlrd, r, BitVec.ofNat 64 p.va, p.va, some (st, k, p.pa), none,
          none⟩)) ∧
      (m2.isMem p.pa = true → exec (.ctlr c d a b) s = ends s m1 c [] (.trap (.viol .capPerm 0 .ctlrd .ctlForm (vaWord ea) p.va)))) ∧
    (m1.check c cap ea mntCtlReq = .ok ([p], g, m2) → w.poison = false → m2.notControl p.pa = false →
      (∀ st k off, m3.locate p.pa = .window st k off → m3.ctlRefusal c g true p.pa = none →
        (∀ r, winBlk st k = some (.rp, r) → off ≠ 0x60) →
        (m3.ctlWrite c cap g st k off w x).phase = .run → ((m3.ctlWrite c cap g st k off w x).core c).st = .running →
        exec (.ctlw c d a b x) s = ends s m1 c [] (.ok (m3.ctlWrite c cap g st k off w x))) ∧
      (∀ r st k, m3.ctlRefusal c g true p.pa = some (r, st, k) →
        exec (.ctlw c d a b x) s = ends s m1 c [] (.ok ((m3.logSite c st k p.pa .ctlwr r).holdRefused c
          ⟨.capPerm, r, .ctlwr, p.va, false, false⟩))))

/-- LTAKE, LRET, LHAND and LSTAT (R400 to R409). LTAKE of a queue that may be taken from gives the capability of its oldest DELIVERED record
and leaves that record TAKEN with a pair in no use; with none DELIVERED it answers EMPTY, and with every pair in use NOPAIR. A stale record capability is the engine's CAP_GRANT.
LOUT and LPUT (R405, R408): LOUT appends an output to the record it names, and answers FULL at four outputs; an LPUT that its engine
refuses completes with the cause, or with DISABLED where its queue is not ENABLED, and one that it admits waits and completes with its sequence number once the record is accepted. -/
def Obligations.LedgerInstructionResults : Prop :=
  ((∀ (s : State) (c : Nat) (d a : BitVec 6) (m1 m2 m3 m4 : Mach) (q pa : Nat) (r : RecCap) (y : LRec),
    s.m.Begins c m1 →
    let x := m1.g c a.toNat
    x.poison = false →
    ((m1.drainAll c).doorbell c x = .ok (q, m2) →
      exec (.lstat c d a) s = ends s m1 c [] (.ok (m2.setG c d.toNat (.plain (m2.lstatWord q))))) ∧
    ((m1.drainAll c).doorbell c x = .ok (q, m2) →
      (∃ pt, m2.translate c ⟨true, false, false⟩ true ((m2.core c).entryAddr (m2.queue q).rgTsel (m2.queue q).rgBase) =
        .ok (pa, pt, m3)) → m3.pairPa q 0 = some (pa, m4) →
      exec (.ltake c d a) s = ends s m1 c [] (.ok ((m4.takeAt c q pa).2.setG c d.toNat (m4.takeAt c q pa).1))) ∧
    (m1.recordCap c x = .ok (r, m2) → (m2.queue r.q).mir = false → (m2.drainAll c).takenRec r x = some y →
      exec (.lret c d a) s = ends s m1 c [] (.ok (((((((m2.drainAll c).modRec r.q y.seq
        (fun z => { z with st := .retired, pair := none, taker := none })).revokePair r.q r.i).countUncore (queueStop r.q)
          (.plain 0x263) 1).sendMarker r.q).queueTick r.q).setG c d.toNat (statusOf 0 y.outs.length y.seq)))) ∧
    ((m1.drainAll c).recordCap c x = .ok (r, m2) → m2.takenRec r x = some y →
      exec (.lhand c d a) s =
        ends s m1 c [] (.ok (((m2.handBack r.q y.seq true).queueTick r.q).setG c d.toNat (statusOf 0 0 y.seq)))) ∧
    ((m1.drainAll c).recordCap c x = .ok (r, m2) → m2.takenRec r x = none →
      exec (.lhand c d a) s = ends s m1 c [] (.trap (r.stale x)))) ∧
  (∀ (m : Mach) (c q base : Nat) (r : LRec) (i : Nat),
    let x := m.queue q
    x.st = 1 → (m.vqf (q / 2048) x.vqf).st ≠ 3 → m.primary q = true → x.held = false → (m.engine (q / 2048)).rebuilding = false →
    ((∀ z ∈ x.recs, z.st ≠ .delivered) → m.takeAt c q base = (statusOf 1 0 0, m)) ∧
    ((∃ j < x.rgPairs, ∀ z ∈ x.recs, z.pair ≠ some j) →
      ∃ j < x.rgPairs, m.freePair q = some j ∧ ∀ z ∈ x.recs, z.pair ≠ some j) ∧
    (x.recs.find? (fun z => decide (z.st = .delivered)) = some r → (∀ j < x.rgPairs, ∃ z ∈ x.recs, z.pair = some j) →
      m.takeAt c q base = (statusOf 2 0 0, m)) ∧
    (x.recs.find? (fun z => decide (z.st = .delivered)) = some r → m.freePair q = some i →
      (m.takeAt c q base).1 = .cap r.seq (x.rgBase + 2 * i + 1) x.rgTsel (Grant.ofLine (m.grantLine (base + 64 * i))).gen ∧
      ∀ z ∈ ((m.takeAt c q base).2.queue q).recs, z.seq = r.seq →
        z.st = .taken ∧ z.pair = some i ∧ z.taker = some (coreStop c, coreUnit c)))) ∧
  ((∀ (s : State) (c : Nat) (d a b : BitVec 6) (m1 m2 m3 m4 : Mach) (r : RecCap) (o : OutDesc) (pa : Nat) (z : LRec), s.m.Begins c m1 →
    let x := m1.g c a.toNat
    let y := m1.g c b.toNat
    x.poison = false → y.poison = false → (m1.drainAll c).recordCap c x = .ok (r, m2) →
    m2.readOut c (m2.queue r.q).g3 y = .ok (o, m3) → m3.outData c x o = .ok (pa, m4) → m4.takenRec r x = some z →
    m4.outBad (m4.queue r.q).g3 o = false → (m4.vqf (r.q / 2048) (m4.queue r.q).vqf).mayPort o.port = true →
    (z.outs.length < 4 → exec (.lout c d a b) s = ends s m1 c [] (.ok ((m4.modRec r.q z.seq (fun z => { z with outs := z.outs ++
      [⟨pa, o.len, o.port, fld o.w1 24 3, o.repl, bit o.w1 28, o.seqgen, fld o.w1 48 16, 1, none⟩] })).setG c d.toNat
        (statusOf 0 0 z.seq)))) ∧
    (4 ≤ z.outs.length → exec (.lout c d a b) s = ends s m1 c [] (.ok (m4.setG c d.toNat (statusOf 5 0 z.seq))))) ∧
  (∀ (s : State) (c : Nat) (d a b : BitVec 6) (m1 m2 m3 m4 m5 : Mach) (q : Nat) (ps : List Piece) (w : PutWait), s.m.Begins c m1 →
    let z := m1.g c d.toNat
    let x := m1.g c a.toNat
    let y := m1.g c b.toNat
    let len := fld z.data 0 14
    let clear := m5.setCore c { m5.core c with put := none }
    z.poison = false → x.poison = false → y.poison = false → (m1.drainAll c).doorbell c x = .ok (q, m2) →
    m2.checkRange c y len [.R] = .ok (ps, m3) → 1 ≤ len → len ≤ 9600 → z.data &&& 0xFFFFFFFFFFF8C000 = 0 →
    ps.all (fun p => m3.isMem p.pa) = true → m4 = ps.foldl (fun acc p => acc.readUpsets none false p.pa p.n) m3 →
    (m4.putSource c ps).2 = false →
    m5 = m4.tryPut c ⟨q, none, fld (m4.vqf (q / 2048) (m4.queue q).vqf).cfg 12 4, none, (m4.putSource c ps).1, fld z.data 16 3⟩ →
    (m5.core c).put = some w →
    (∀ k, w.refused = some k → k ≠ 0 → exec (.lput c d a b) s = ends s m1 c [] (.ok (clear.setG c d.toNat (statusOf 4 k 0)))) ∧
    (w.refused = some 0 → exec (.lput c d a b) s = ends s m1 c [] (.ok (clear.setG c d.toNat (statusOf 3 0 0)))) ∧
    (∀ n r, w.refused = none → w.seq = some n → (m5.queue w.queue).rec? n = some r → r.st = .admitted →
      exec (.lput c d a b) s = ends s m1 c [] (.wait m5))) ∧
  (∀ (s : State) (c : Nat) (d a b : BitVec 6) (w : PutWait) (n : Nat) (r : LRec),
    (s.m.core c).put = some w → w.refused = none → w.seq = some n → s.m.phase = .run → (s.m.core c).st = .running →
    (s.m.queue w.queue).rec? n = some r → r.st ≠ .admitted →
    exec (.lput c d a b) s = .next (s.withM (s.m.finish c [] (.ok ((s.m.setCore c { s.m.core c with put := none }).setG c d.toNat
      (statusOf 0 0 n)))))))

/-- MNTQ, MNTT and MNTT.W (R273, R274, R277 to R279): an authorised request takes the next free slot and dst receives the slot and its ticket;
with no free slot it answers BUSY, with a malformed request BADREQ; MNTT reports the masked slots, and MNTT.W waits while one of them is
busy. -/
def Obligations.MaintenanceInstructionResults : Prop :=
  (∀ (s : State) (c : Nat) (d a b : BitVec 6) (m1 m2 m3 m4 : Mach) (pc : Piece) (q : MntReq) (pa gen need n : Nat), s.m.Begins c m1 →
    let x := m1.g c a.toNat
    let y := m1.g c b.toNat
    let w := fun i => m3.coreWord c (pc.pa + 8 * i)
    x.poison = false → y.poison = false → (m1.drainAll c).firstPiece c y y.cursor mntReadReq = .ok (pc, m2) →
    m3 = (m2.loadSide c pc).readUpsets (some c) false pc.pa 64 → (∀ i, i < 8 → (w i).poison = false) → q = .ofWords w →
    (m3.mntBad q = true → exec (.mntq c d a b) s = ends s m1 c [] (.ok (m3.setG c d.toNat (.plain 0x200)))) ∧
    (m3.mntBad q = false → q.op ≠ 4 → (if q.virt then m3.mntVirt c x q else m3.mntPhys c x) = .ok ((pa, gen, need), m4) →
      m4.mntUnavail = false →
      (m4.freeSlot = none → exec (.mntq c d a b) s = ends s m1 c [] (.ok (m4.setG c d.toNat (.plain 0x100)))) ∧
      (m4.freeSlot = some n → ∃ t : Mach, exec (.mntq c d a b) s = ends s m1 c [] (.ok (t.setG c d.toNat
          (.plain (setFld (setFld 0 0 4 n) 16 16 (((m4.slot n).ticket + 1) % 2 ^ 16))))) ∧
        (t.slot n).state = 1 ∧ (t.slot n).ticket = ((m4.slot n).ticket + 1) % 2 ^ 16 ∧ (t.slot n).op = q.op ∧
        (t.slot n).ranges = q.ranges.filter someRange ∧ (∀ k, k ≠ n → t.slot k = m4.slot k)))) ∧
  (∀ (s : State) (c : Nat) (d a : BitVec 6) (m1 : Mach), s.m.Begins c m1 →
    let v := m1.mntStatus (m1.g c a.toNat).data
    exec (.mntt c d a) s = ends s m1 c [] (.ok (m1.setG c d.toNat (.plain v))) ∧
    (fld v 0 16 = 0 → exec (.mnttW c d a) s = ends s m1 c [] (.ok (m1.setG c d.toNat (.plain v)))) ∧
    (fld v 0 16 ≠ 0 → exec (.mnttW c d a) s = ends s m1 c [] (.wait m1)))

/-! ### Core commands and block headers -/

/-- A command on register `off` of core `c`'s window reaches it. -/
def CoreOpens (m : Mach) (mst : Master) (c off : Nat) : Prop := c < 176 ∧ m.Opens mst (coreStop c) (coreWin c) off

/-- The commands of a core (R143 to R149): STOP stops a context that runs, waits or is halted; RESUME continues a stopped one whose work can
go on; RESTART starts a stopped, halted or FATAL one anew in the HOST world with its registers cleared; any other is ignored with CIGN.
A stopping context reaches STOPPED at a serialising point with its CTX_ registers at the live values (R145, R148); CTX_ registers are
written in STOPPED, HALTED and FATAL alone, else the write is ignored with WIGN (R147). A SECURE context is closed to every master but the
Sytum (R149). -/
def Obligations.CoreCommands : Prop :=
  (∀ (s : State) (mst : Master) (c : Nat), CoreOpens s.m mst c 0x40 → s.m.barred mst c = false →
    let x := s.m.core c
    (x.st = .running ∨ x.st = .waiting →
      exec (.stop mst c false) s = .next (s.withM (s.m.setCore c { x with st := .stopping }))) ∧
    (x.st = .halted → exec (.stop mst c false) s = .next (s.withM (s.m.setCore c { x with st := .stopped, resumable := false }))) ∧
    (x.st = .off ∨ x.st = .stopped ∨ x.st = .fatal → exec (.stop mst c false) s = .next (s.withM (s.m.setCore c { x with cign := true }))) ∧
    (s.m.blockRuns c = true → x.st = .stopped → x.resumable = true →
      exec (.resume mst c) s = .next (s.withM (s.m.setCore c { x with st := .running, resumable := false, stepping := false }))) ∧
    (x.st ≠ .stopped → exec (.resume mst c) s = .next (s.withM (s.m.setCore c { x with cign := true }))) ∧
    (s.m.blockRuns c = true → x.st = .stopped ∨ x.st = .halted ∨ x.st = .fatal →
      ∃ t, exec (.restart mst c) s = .next (s.withM t) ∧ (t.core c).st = .running ∧ (t.core c).world = .host ∧
        (∀ r, t.g c r = .zero) ∧ (t.core c).pcc = x.pcc ∧ (t.core c).gtab = x.gtab ∧ (t.core c).evmask = 0 ∧ (t.core c).vtype = vill ∧
        (t.core c).s1 = s.m.coreReg c 0x180 ∧ (t.core c).gcache = [] ∧ (t.core c).refused = none) ∧
    (x.st = .running ∨ x.st = .waiting ∨ x.st = .off →
      exec (.restart mst c) s = .next (s.withM (s.m.setCore c { x with cign := true })))) ∧
  ((∀ (s : State) (c : Nat), (s.m.core c).st = .stopping → s.m.phase = .run → (s.m.core c).rpWait = none → (s.m.core c).put = none →
    s.m.due c = none →
    ∃ t, exec (.stopComplete c) s = .next (s.withM t) ∧ (t.core c).st = .stopped ∧ (t.core c).resumable = true ∧
      (t.core c).ctx.pcc = (t.core c).pcc ∧ (t.core c).ctx.cmpid = (s.m.core c).cmpid) ∧
  (∀ (s : State) (mst : Master) (c : Nat) (w : Word), 
    let x := s.m.core c
    let v : Word := { w with poison := false, colour := 0 }
    (x.st = .stopped ∨ x.st = .halted ∨ x.st = .fatal →
      (CoreOpens s.m mst c 0x80 → w.cursor % 4 = 0 →
        exec (.ctxRegisterWrite mst c 0x80 w) s = .next (s.withM (s.m.setCore c ({ x with pcc := v }).snap))) ∧
      (CoreOpens s.m mst c 0x88 →
        exec (.ctxRegisterWrite mst c 0x88 w) s = .next (s.withM (s.m.setCore c ({ x with savecap := v }).snap))) ∧
      (CoreOpens s.m mst c 0x90 →
        exec (.ctxRegisterWrite mst c 0x90 w) s = .next (s.withM (s.m.setCore c ({ x with evcap := v }).snap))) ∧
      (CoreOpens s.m mst c 0x98 →
        exec (.ctxRegisterWrite mst c 0x98 w) s = .next (s.withM (s.m.setCore c ({ x with link := v }).snap))) ∧
      (CoreOpens s.m mst c 0xA0 →
        exec (.ctxRegisterWrite mst c 0xA0 w) s = .next (s.withM (s.m.setCore c ({ x with gtab := setFld w.data 0 16 0 }).snap))) ∧
      (CoreOpens s.m mst c 0xB0 → fld w.data 0 16 ≠ 0xFFFF →
        exec (.ctxRegisterWrite mst c 0xB0 w) s = .next (s.withM (s.m.setCore c ({ x with cmpid := fld w.data 0 16 }).snap)))) ∧
    (x.st = .running ∨ x.st = .waiting ∨ x.st = .stopping → CoreOpens s.m mst c 0x80 →
      exec (.ctxRegisterWrite mst c 0x80 w) s = .next (s.withM (s.m.setCore c { x with wign := true })))) ∧
  (∀ (s : State) (mst : Master) (c : Nat), CoreOpens s.m mst c 0x40 → (s.m.core c).world = .secure → mst.sytum = false →
    exec (.stop mst c false) s = .next (s.withM (s.m.setCore c { s.m.core c with cign := true }))))

/-- Block headers (R19, R22, R23, R25, R28). The unlock sequence 0x4C47, 0xB3B8 unlocks an expert page and any other write locks it; BLK_CTRL
sets QUIESCE and ENABLE, and a block with work in flight stays enabled until that work ends; writing 1 to VALID of VIOL_ADDR clears the
record. A block without power logs CTL_UNPOWERED at its stop's router.
A violation is recorded once, with the first access and its rule, and counted after that (R25); its source is raised each time. -/
def Obligations.BlockHeaders : Prop :=
  ((∀ (s : State) (mst : Master) (st k : Nat) (v : W64), s.m.Opens mst st k 0x18 →
    let b := s.m.blk st k
    (b.lock = 0 → v = 0x4C47 → exec (.expertUnlockWrite mst st k v) s = .next (s.withM (s.m.setBlk st k { b with lock := 1 }))) ∧
    (b.lock = 1 → v = 0xB3B8 → exec (.expertUnlockWrite mst st k v) s = .next (s.withM (s.m.setBlk st k { b with lock := 2 }))) ∧
    (¬ (b.lock = 0 ∧ v = 0x4C47) → ¬ (b.lock = 1 ∧ v = 0xB3B8) →
      exec (.expertUnlockWrite mst st k v) s = .next (s.withM (s.m.setBlk st k { b with lock := 0 })))) ∧
  (∀ (s : State) (mst : Master) (st k : Nat) (v : W64), (winBlk st k).isSome = true → s.m.answers st k = false →
    exec (.expertUnlockWrite mst st k v) s =
      .next (s.withM (s.m.logViol st 0xFE ⟨winPa st k 0x18, false, mst.stop, mst.unit, .ctlwr, .ctlUnpowered⟩))) ∧
  (∀ (s : State) (mst : Master) (st k : Nat) (v : W64), s.m.Opens mst st k 0x08 →
    let b := { s.m.blk st k with quiesce := bit v 1 }
    let m1 := s.m.setBlk st k b
    b.disabling = false → (∀ q, winBlk st k ≠ some (.port, q)) →
    (bit v 0 = b.enable → exec (.blkCtrlWrite mst st k v) s = .next (s.withM m1)) ∧
    (bit v 0 = true → b.enable = false → ∃ t, exec (.blkCtrlWrite mst st k v) s = .next (s.withM t) ∧
      t.blk st k = { b with enable := true }) ∧
    (bit v 0 = false → b.enable = true → neverOff st k = false → m1.work st k = true →
      exec (.blkCtrlWrite mst st k v) s = .next (s.withM (m1.setBlk st k { b with disabling := true }))) ∧
    (bit v 0 = false → b.enable = true → neverOff st k = false → m1.work st k = false →
      ∃ t, exec (.blkCtrlWrite mst st k v) s = .next (s.withM t) ∧ t.blk st k = { b with enable := false })) ∧
  (∀ (s : State) (st k : Nat), (s.m.blk st k).disabling = true → s.m.work st k = false → (∀ q, winBlk st k ≠ some (.port, q)) →
    ∃ t, exec (.disableComplete st k) s = .next (s.withM t) ∧
      t.blk st k = { s.m.blk st k with enable := false, disabling := false }) ∧
  (∀ (s : State) (mst : Master) (st k : Nat) (v : W64), s.m.Opens mst st k 0x20 → bit v 63 = true →
    exec (.violAddrClear mst st k v []) s = .next (s.withM (s.m.setBlk st k
      { s.m.blk st k with violAddr := setBit (s.m.blk st k).violAddr 63 false, violInfo := 0 })))) ∧
  (∀ (m : Mach) (st k : Nat) (v : Viol), v.addr < 2 ^ 52 → v.mstop < 64 → v.munit < 64 →
    let b := m.blk st k
    let t := m.logViol st k v
    (bit b.violAddr 63 = false →
      bit (t.blk st k).violAddr 63 = true ∧ fld (t.blk st k).violAddr 0 52 = v.addr ∧ fld (t.blk st k).violInfo 0 6 = v.mstop ∧
      fld (t.blk st k).violInfo 8 6 = v.munit ∧ fld (t.blk st k).violInfo 16 4 = v.acc.code ∧
      fld (t.blk st k).violInfo 20 4 = v.rule.code ∧ fld (t.blk st k).violInfo 32 16 = 1) ∧
    (bit b.violAddr 63 = true →
      (t.blk st k).violAddr = b.violAddr ∧ fld (t.blk st k).violInfo 32 16 = min (fld b.violInfo 32 16 + 1) 0xFFFF) ∧
    t.reports.length = m.reports.length + 1 ∧ (∀ st' k', st * 256 + k ≠ st' * 256 + k' → t.blk st' k' = m.blk st' k'))

/-- Resets and cleans of pods, clusters, L1s and L2s (R69, R140, R150 to R152, R163, R165, R174, R184, R185, R266, R272): the block resets need
QUIESCE, open a shadow and leave the block's cores STOPPED with nothing held; the cleans write back and drop what the caches hold. -/
def Obligations.BlockResets : Prop :=
  (∀ (s : State) (mst : Master) (p : Nat) (lost : List (Nat × List W64)), p < 36 → s.m.Opens mst (podStop p) 0 0x50 →
    ((s.m.blk (podStop p) 0).quiesce = false → exec (.podReset mst p lost) s = .next s) ∧
    ((s.m.blk (podStop p) 0).quiesce = true → exec (.podReset mst p lost) s = .next (s.withM (s.m.podReset p lost)))) ∧
  (∀ (s : State) (mst : Master) (k : Nat) (lost : List (Nat × List W64)), k < 4 → s.m.Opens mst (ccStop k) 0 0x48 →
    ((s.m.blk (ccStop k) 0).quiesce = false → exec (.ccReset mst k lost) s = .next s) ∧
    ((s.m.blk (ccStop k) 0).quiesce = true → exec (.ccReset mst k lost) s = .next (s.withM (s.m.ccReset k lost)))) ∧
  (∀ (m : Mach) (c : Nat), c < 176 →
    ((m.resetCore c).core c).g = [] ∧ ((m.resetCore c).core c).pcc = .zero ∧ ((m.resetCore c).core c).mb = [] ∧
    (((m.resetCore c).core c).st = .stopped ∨ ((m.resetCore c).core c).st = .off) ∧
    ((m.resetCore c).blk (coreStop c) (coreWin c)).lock = 0) ∧
  (∀ (s : State) (mst : Master) (c : Nat), 144 ≤ c → CoreOpens s.m mst c 0x100 → bit (s.m.coreReg c 0x100) 0 = true →
    ∃ t, exec (.ccoreL1Disable mst c) s = .next (s.withM t) ∧ (t.core c).l1 = [] ∧ t.coreReg c 0x100 = 0) ∧
  (∀ (s : State) (mst : Master) (c : Nat), 144 ≤ c → CoreOpens s.m mst c 0x110 →
    exec (.ccoreBtbFlush mst c) s = .next (s.withM (s.m.setCore c { s.m.core c with btb := [] }))) ∧
  (∀ (s : State) (c i : Nat), exec (.mbIdleDrain c i) s = .next (s.withM (s.m.drainOldest c (i + 1)))) ∧
  (∀ (s : State) (mst : Master) (c : Nat), c < 144 → CoreOpens s.m mst c 0x100 → bit (s.m.coreReg c 0x100) 0 = true →
    ∃ t, exec (.l2HardwareClean mst c) s = .next (s.withM t) ∧ t.coreReg c 0x100 = 0 ∧
      t = (s.m.emptyL2 c).setReg (coreStop c) (coreWin c) 0x100 0) ∧
  (∀ (s : State) (mst : Master) (p : Nat), p < 36 → s.m.Opens mst (podStop p) 5 0x120 → bit (s.m.l3Reg p 0x120) 0 = true →
    ∃ t, exec (.l3Disable mst p) s = .next (s.withM t) ∧ t.slotsL3 p = [] ∧ bit (t.l3Reg p 0x120) 0 = false) ∧
  (∀ (s : State) (c : Nat), (s.m.core c).sweeps ≠ [] → ∃ t, exec (.serialiseTimeout c) s = .next (s.withM t) ∧ (t.core c).sweeps = [])

/-! ### Coherence -/

/-- The requests to a home (R247, R251, R252): RDS, RDX, UPG, RDU, WRU, WRM and ATOMF reach the home of their line; with a free tracker the
request takes one and the line's requests go on in arrival order; without one it is answered Retry, which is counted and remembered. A WRM
goes to a mirror window alone.
The snoops that a request needs (R252): a read for sharing asks a dirty or exclusive owner, else the keeper, for a copy; a read to own
invalidates every other holder; a write at the home takes the line back and invalidates every holder. -/
def Obligations.CoherenceRequests : Prop :=
  ((∀ (s : State) (a line tc : Nat), a < 176 → s.m.dirOf line ≠ .none →
    exec (.rds a line tc none false) s = .next (s.withM (s.m.submit (s.m.agentReq .rds a line tc))) ∧
    (a < 144 → exec (.rdx a line tc none false) s = .next (s.withM (s.m.submit (s.m.agentReq .rdx a line tc))) ∧
      exec (.upg a line tc none false) s = .next (s.withM (s.m.submit (s.m.agentReq .upg a line tc))))) ∧
  (∀ (s : State) (a line tc : Nat), a < 144 → s.m.dirOf line = .none →
    exec (.rds a line tc none false) s = .next (s.withM (s.m.submit (s.m.agentReq .rds a line tc))) ∧
    exec (.rdx a line tc none false) s = .next (s.withM (s.m.submit (s.m.agentReq .rdx a line tc)))) ∧
  (∀ (s : State) (mst : Master) (line tc mask i op poison : Nat) (data : List W64) (a b : Word),
    let t := fun (k : ReqKind) (who : Option Nat) => Txn.new k line mst.stop mst.unit who tc mst.world
    exec (.rdu mst line tc) s = .next (s.withM (s.m.submit (t .rdu none))) ∧
    exec (.wru mst line tc mask data poison) s = .next (s.withM (s.m.submit { t .wru (coreOf mst.stop mst.unit) with
      mask := mask % 2 ^ 64, data := data, poison := poison })) ∧
    (s.m.inMirror (line * 64) = true →
      exec (.wrm mst line tc mask data poison) s = .next (s.withM (s.m.submit { t .wrm (coreOf mst.stop mst.unit) with
        mask := mask % 2 ^ 64, data := data, poison := poison }))) ∧
    exec (.atomf mst line tc i op a b) s = .next (s.withM (s.m.submit { t .atomf none with
      mask := i % 8, op := op, a := a, b := b }))) ∧
  (∀ (m : Mach) (t : Txn), m.homed (t.line * 64) = true → m.sltMove = none → m.carveOf (t.line * 64) = none → m.retried = [] →
    (m.trackerFree (m.home t.line) t.tc = true → m.submit t = Mach.run { m with txns := m.txns ++ [t] } t.line) ∧
    (m.trackerFree (m.home t.line) t.tc = false →
      (m.submit t).retried = [⟨m.home t.line, t, false, false⟩] ∧ (m.submit t).txns = m.txns))) ∧
  (∀ (e : DirEnt) (t : Txn),
    (t.kind = .rds → ∀ q ∈ snoopsOf e t, q.2 = .K) ∧
    (t.kind = .rds → ∀ o, e.owner = some o → t.agent ≠ some o → snoopsOf e t = [(o, .K)]) ∧
    (t.kind = .rdx → ∀ o, e.owner = some o → t.agent ≠ some o → (o, .X) ∈ snoopsOf e t) ∧
    (t.kind = .rdx ∨ t.kind = .upg → e.owner = none → ∀ a, a ∈ e.agents → t.agent ≠ some a → ∃ k, (a, k) ∈ snoopsOf e t ∧ (k = .X ∨ k = .I)) ∧
    (t.kind = .wru ∨ t.kind = .atomf → ∀ a, a ∈ e.agents → t.agent ≠ some a → ∃ k, (a, k) ∈ snoopsOf e t) ∧
    (t.kind = .rdu → e.owner = none → snoopsOf e t = []))

/-- What a snoop does to a holder, and its answer (R250, R251): SnpK leaves a copy with the holder, SnpX and SnpI leave none, SnpC leaves the
line clean; a dirty line goes to the home with the answer, but under SnpX for a read to own it goes to the requester.
Answers, data, GO, CMP, writebacks, Retry and Credit (R247, R250 to R253): an answer leaves the ones awaited and moves its agent in the
directory; data and GO together install the line in the granted state; CMP ends the block; a writeback leaves the cache for a buffer that
WbAck frees; a Credit goes to the oldest retried request that was told. -/
def Obligations.CoherenceMessages : Prop :=
  (∀ (s : State) (a line : Nat) (t : Txn), a < 144 → s.m.active line = some t →
    let st := s.m.lineSt a line
    let reads := decide (t.kind = .rds) || decide (t.kind = .rdx)
    let ret := decide (st = .M) && ! decide (t.kind = .rdx)
    let answered := fun (m : Mach) (k : Snp) (r : Rsp) (withLine fwd : Bool) => m.modActive line (fun x => { x with
      snoops := x.snoops.filter (fun q => decide (q ≠ (a, k))), answers := x.answers ++ [(a, r, withLine)]
      dataSent := x.dataSent || fwd })
    st ≠ .I →
    (t.snoops.contains (a, .K) = true →
      exec (.snpk a line false) s = .next (s.withM (answered (s.m.setLine a line .K) .K .S ret reads))) ∧
    (t.snoops.contains (a, .X) = true →
      exec (.snpx a line false) s = .next (s.withM (answered (s.m.setLine a line .I) .X .I ret reads))) ∧
    (t.snoops.contains (a, .I) = true →
      exec (.snpi a line) s = .next (s.withM (answered (s.m.setLine a line .I) .I .I false false))) ∧
    (t.snoops.contains (a, .C) = true →
      exec (.snpc a line false) s = .next (s.withM (answered (if st = .M then s.m.setLine a line .E else s.m) .C .S ret false)))) ∧
  ((∀ (s : State) (a line : Nat) (t : Txn), s.m.active line = some t →
    let m1 := s.m.modActive line (fun x => { x with answers := x.answers.filter (fun y => decide (y ≠ (a, .S, false))) })
    let m2 := s.m.modActive line (fun x => { x with answers := x.answers.filter (fun y => decide (y ≠ (a, .I, false))) })
    let m3 := s.m.modActive line (fun x => { x with answers := x.answers.filter (fun y => decide (y ≠ (a, .wbf, false))) })
    (t.answers = [(a, .S, false)] → exec (.rsps a line) s = .next (s.withM ((m1.setDir line ((m1.dirOf line).keep a)).runEnd line))) ∧
    (t.answers = [(a, .I, false)] → exec (.rspi a line) s = .next (s.withM ((m2.setDir line ((m2.dirOf line).remove a)).runEnd line))) ∧
    (t.answers = [(a, .wbf, false)] → t.wbHere = [] →
      exec (.rspwbf a line) s = .next (s.withM ((m3.modActive line (fun x => { x with wbAwaited := x.wbAwaited ++ [a] })).runEnd line)))) ∧
  (∀ (s : State) (stop unit line : Nat) (t : Txn), s.m.active line = some t → t.of stop unit line = true →
    (t.dataSent = true → t.gotData = false → t.gotGo = false →
      exec (.data stop unit line) s = .next (s.withM (s.m.modActive line (fun _ => { t with gotData := true })))) ∧
    (t.goSent = true → t.gotData = true → t.gotGo = false →
      exec (.go stop unit line) s =
        .next (s.withM ((s.m.modActive line (fun _ => { t with gotGo := true })).installLine { t with gotGo := true }))) ∧
    (t.gotData = true → t.gotGo = true → exec (.cmp stop unit line) s = .next (s.withM
      ((Mach.run { s.m with txns := s.m.txns.filter (fun x => ! (decide (x.line = line) && x.active)) } line).unpin (s.m.home line))))) ∧
  (∀ (s : State) (a line : Nat), a < 144 → s.m.homed (line * 64) = true → s.m.active line = none →
    (s.m.lineSt a line = .M → ∃ t, exec (.wbd a line) s = .next (s.withM t) ∧ t.lineSt a line = .I ∧ (a, line) ∈ t.wbufs ∧
      ((s.m.dirOf line).owner = some a → (t.dirOf line).owner = none)) ∧
    (s.m.lineSt a line = .E ∨ s.m.lineSt a line = .K → s.m.lineOpen line = false →
      exec (.evc a line) s = .next (s.withM (Mach.setDir { s.m.setLine a line .I with wbufs := s.m.wbufs ++ [(a, line)] } line
        ((s.m.dirOf line).remove a))))) ∧
  (∀ (s : State) (a line : Nat), exec (.wback a line) s = .next (s.withM { s.m with wbufs := s.m.wbufs.erase (a, line) })) ∧
  (∀ (s : State) (stop unit line : Nat), exec (.retry stop unit line) s = .next (s.withM { s.m with
    retried := s.m.retried.map (fun r => if r.req.of stop unit line then { r with told := true } else r) })) ∧
  (∀ (s : State) (p : Nat) (r : Retried), s.m.retried = [r] → r.slice = p → r.told = true → r.credited = false →
    s.m.trackerFree p r.req.tc = true → exec (.credit p) s = .next (s.withM { s.m with retried := [{ r with credited := true }] })))

/-- The slice table, flits and prefetches (R137, R240, R241, R246): a write of the table starts a move of the selected bucket to a slice that
exists, one more while a move runs is ignored with WIGN; the end of a move gives the bucket its slice; a flit's corrected words are
counted and its uncorrectable words are poisoned; a prefetch is a read for sharing at TC2 within the page. -/
def Obligations.MeshCommands : Prop :=
  (∀ (s : State) (v : W64), s.m.sltMove = none → fld v 0 6 ∈ s.m.slicesPresent →
    ∃ t, exec (.sliceTableWrite v) s = .next (s.withM t) ∧ t.sltMove = some (s.m.regFld 0 0 0x680 0 9, fld v 0 6) ∧
      bit (t.reg 0 0 0x690) 0 = true) ∧
  (∀ (s : State) (v : W64), s.m.sltMove.isSome = true → exec (.sliceTableWrite v) s = .next (s.withM (s.m.setRegBit 0 0 0x690 1 true))) ∧
  (∀ (s : State) (h p : Nat), s.m.sltMove = some (h, p) → s.m.txns = [] → s.m.heldReqs = [] →
    ∃ t, exec .bucketMoveComplete s = .next (s.withM t) ∧ t.slice h = p ∧ t.sltMove = none ∧ bit (t.reg 0 0 0x690) 0 = false) ∧
  (∀ (s : State) (st ce : Nat), st < 56 →
    exec (.flitReceive st false ce [] false) s = .next (s.withM (s.m.countReg st 0xFE 0x58 16 16 ce)) ∧
    (∃ t, exec (.flitReceive st false ce [] true) s = .next (s.withM t) ∧ bit (t.reg st 0xFE 0x58) 32 = true)) ∧
  (∀ (s : State) (c w trained va : Nat) (e : TlbEntry), c < 144 → trained / 4096 = va / 4096 → s.m.canRun c = true →
    bit (s.m.reg (coreStop c) 0 0x800) (2 + w % 3) = false → bit (s.m.coreReg c 0x100) 20 = false → bit (s.m.coreReg c 0x100) 0 = true →
    (s.m.core c).tlb.find? (fun e => e.hits (s.m.core c).regime ⟨true, false, false⟩ va) = some e → e.r1 = true → e.r2 = true →
    e.ptype = 0 →
    let line := (e.pbase + (va - e.vbase)) / 64
    s.m.lineSt c line = .I → s.m.carveOf (line * 64) = none →
    exec (.prefetchIssue c w trained va) s = .next (s.withM (s.m.submit (s.m.agentReq .rds c line 2))))

/-! ### The maintenance engine -/

/-- Slot `n` runs a request on physical lines under a live authority, and its next line may be worked on. -/
def SlotReady (m : Mach) (n : Nat) : Prop :=
  let x := m.slot n
  n < 16 ∧ x.state = 1 ∧ x.ending = none ∧ x.ranges ≠ [] ∧ m.powered mntStop 0 = true ∧ m.phase = .run ∧ x.virt = false ∧
  (∀ pa gen, x.cap = some (pa, gen) → (m.readGrant pa).valid = true ∧ (m.readGrant pa).gen = gen)

/-- The engine's slots (R275, R276, R278, R281, R282): a line command carries the operation out on the slot's next line and goes on to the one
after it; a slot whose authority was revoked is to end with status 4; a carve-out refuses and is to end with status 2. SLOT_DONE leaves a
finished slot DONE with its status, and raises its event; MNT_ABORT ends running slots with status 1.
A sweep's step in a core (R69, R281): the core loses the tag of every register word that names the swept entry, and of no other, and the
entry leaves its grant cache. -/
def Obligations.MaintenanceSlots : Prop :=
  ((∀ (s : State) (n : Nat), SlotReady s.m n →
    let x := s.m.slot n
    s.m.locate x.addr = .dram → s.m.lineOpen (x.addr / 64) = false → s.m.sltMove = none →
    (s.m.carveOf x.addr = none → x.need = 0 → exec (.maintenanceCommand n) s = .next (s.withM (s.m.carryOut n x.addr))) ∧
    (x.world ≠ .secure → ∀ b, s.m.carveOf x.addr = some b →
      ∃ t, exec (.maintenanceCommand n) s = .next (s.withM t) ∧ (t.slot n).ending = some 2)) ∧
  (∀ (s : State) (n pa gen : Nat), n < 16 → (s.m.slot n).state = 1 → (s.m.slot n).ending = none → (s.m.slot n).ranges ≠ [] →
    s.m.powered mntStop 0 = true → s.m.phase = .run → (s.m.slot n).cap = some (pa, gen) → (s.m.readGrant pa).valid = false →
    ∃ t, exec (.maintenanceCommand n) s = .next (s.withM t) ∧ (t.slot n).ending = some 4) ∧
  (∀ (s : State) (n : Nat), n < 16 → (s.m.slot n).state = 1 →
    (∀ k, (s.m.slot n).ending = some k → exec (.slotDone n) s = .next (s.withM (s.m.endSlot n k))) ∧
    ((s.m.slot n).ending = none → (s.m.slot n).ranges = [] → (s.m.slot n).op ≠ 4 → (s.m.slot n).ueAt = none →
      exec (.slotDone n) s = .next (s.withM (s.m.endSlot n 0)))) ∧
  (∀ (m : Mach) (n k : Nat), ((m.endSlot n k).slot n).state = 2 ∧ ((m.endSlot n k).slot n).status = k) ∧
  (∀ (s : State) (mst : Master) (v : W64), s.m.Opens mst mntStop 0 0x48 → ∃ t, exec (.mntAbort mst v) s = .next (s.withM t) ∧
    ∀ n, n < 16 → bit v n = true → (s.m.slot n).state = 1 → (t.slot n).state = 2 ∧ (t.slot n).status = 1)) ∧
  (∀ (x : Core) (q : SweepReq),
    (∀ w : Word, (x.sweepWord q w).data = w.data ∧
      ((x.sweepWord q w).tag = true ↔ w.tag = true ∧ ¬ (w.tsel = q.tsel ∧ w.index = q.index ∧ (q.tsel = true ∨ x.gtab = q.gtab)))) ∧
    (x.sweep q).pcc = x.sweepWord q x.pcc ∧ (x.sweep q).savecap = x.sweepWord q x.savecap ∧
    (x.sweep q).evcap = x.sweepWord q x.evcap ∧ (x.sweep q).link = x.sweepWord q x.link ∧
    (x.sweep q).g = Tab.mapV Word.zero (fun _ w => x.sweepWord q w) x.g ∧
    (∀ l ∈ (x.sweep q).gcache, l.pa ≠ q.pa) ∧ (x.sweep q).cmpid = x.cmpid ∧ (x.sweep q).evmask = x.evmask)

/-! ### Memory controllers and protection -/

/-- Requests to a memory controller (R295, R299, R305): on an ACTIVE channel with a free position a request takes one, a write's bytes reach
memory and it is counted; without a position it is answered Retry; a FAILED channel raises its source; a channel in another state takes
none.
Channel maintenance (R296 to R298, R301, R303, R305, R308): a refresh closes its bank's row or is postponed, a calibration closes its
sub-channel's rows, RETRAIN asks for both steps, a failure leaves the channel FAILED with its cause; MC_CFG.ORDER takes the ordering unless
the controller holds a journal or pool copy. -/
def Obligations.MemoryChannels : Prop :=
  (∀ (s : State) (mst : Master) (line tc : Nat) (op : McOp),
    let pa := line * 64
    let ch := (s.m.channelOf pa).1
    let ca := (s.m.channelOf pa).2
    let q : McReq := ⟨ch, ca, line, mst.stop, mst.unit, tc, mst.world, decide (op ≠ .read), bit (s.m.reg (chanStop ch) 0 0x40) 0, false, false⟩
    s.m.locate pa = .dram → s.m.phase = .run → s.m.mcRetried = [] →
    (s.m.chanState ch = 4 → exec (.mcRequest mst line tc op false 0) s = .next (s.withM (s.m.raiseOpt (chanStop ch) (some 4) pa))) ∧
    (s.m.chanState ch ≠ 2 → s.m.chanState ch ≠ 4 → exec (.mcRequest mst line tc op false 0) s = .next s) ∧
    (s.m.chanState ch = 2 → s.m.positionFree ch tc = true → tc ≠ 0 → exec (.mcRequest mst line tc op false 0) s =
      .next (s.withM ((Mach.positionStat { s.m with mcReqs := s.m.mcReqs ++ [q] } (ch / 2)).accept q op))) ∧
    (s.m.chanState ch = 2 → s.m.positionFree ch tc = false → ∃ t, exec (.mcRequest mst line tc op false 0) s = .next (s.withM t) ∧
      t.mcRetried = [q] ∧ t.mcReqs = s.m.mcReqs ∧ t.mem = s.m.mem)) ∧
  ((∀ (s : State) (ch sub rank bank : Nat), s.m.chanState ch = 2 →
    (∃ t, exec (.refresh ch sub rank bank false) s = .next (s.withM t) ∧ t.openRow (bankKey ch sub rank bank) = 0 ∧
      Tab.get 0 t.refreshDue (bankKey ch sub rank bank) = 0) ∧
    (∀ q ∈ s.m.mcReqs, q.chan = ch → q.cls = 0 → ∃ t, exec (.refresh ch sub rank bank true) s = .next (s.withM t) ∧ t.rows = s.m.rows ∧
      Tab.get 0 t.refreshDue (bankKey ch sub rank bank) = min (Tab.get 0 s.m.refreshDue (bankKey ch sub rank bank) + 1) 5) ∧
    (∃ t, exec (.calibration ch sub) s = .next (s.withM t) ∧
      t.rows = s.m.rows.filter (fun p => decide (p.1 / 256 ≠ ch * 2 + sub % 2)) ∧
      Tab.get 0 t.retrains ch = Tab.get 0 s.m.retrains ch - 1)) ∧
  (∀ (s : State) (ch sub rank bank : Nat), ∃ t, exec (.rowIdleClose ch sub rank bank) s = .next (s.withM t) ∧
    t.openRow (bankKey ch sub rank bank) = 0) ∧
  (∀ (s : State) (mst : Master) (ch : Nat), ch < 12 → s.m.Opens mst (chanStop ch) (dphyWin ch) 0x58 →
    (s.m.chanState ch = 2 → ∃ t, exec (.dphyRetrain mst ch) s = .next (s.withM t) ∧
      Tab.get 0 t.retrains ch = Tab.get 0 s.m.retrains ch + 2) ∧
    (s.m.chanState ch ≠ 4 → ∃ t, exec (.dphyFail mst ch) s = .next (s.withM t) ∧ t.chanState ch = 4 ∧ fld (t.dphy ch 0x40) 16 4 = 5)) ∧
  (∀ (s : State) (ch : Nat), ch < 12 → s.m.chanState ch = 2 →
    ∃ t, exec (.parityRetryFail ch) s = .next (s.withM t) ∧ t.chanState ch = 4 ∧ fld (t.dphy ch 0x40) 16 4 = 4) ∧
  (∀ (s : State) (mst : Master) (mc : Nat) (compat : Bool), mc < 6 → s.m.Opens mst (mcStop mc) 0 0x40 →
    (compat = false ∨ s.m.holdsCopy mc = false →
      exec (.mcOrderWrite mst mc compat) s = .next (s.withM (s.m.setRegBit (mcStop mc) 0 0x40 0 compat))) ∧
    (compat = true → s.m.holdsCopy mc = true →
      exec (.mcOrderWrite mst mc compat) s = .next (s.withM (s.m.setRegBit (mcStop mc) 0 0x40 3 true)))))

/-- Bank masks, soft repair, patrols, region initialisation, remap and log selection (R291, R320, R322, R324, R325, R538).
The bank hash (R291): bit j of the bank is the parity of the channel address under mask j. -/
def Obligations.ProtectionCommands : Prop :=
  ((∀ (s : State) (mst : Master) (ch j : Nat) (v : W64), ch < 12 → j < 5 → s.m.Opens mst (chanStop ch) (dphyWin ch) (0x800 + 8 * j) →
    s.m.expert (chanStop ch) (dphyWin ch) = true →
    (bit v (14 + j) = true → fld v 14 5 = 2 ^ j → fld v 0 7 = 0 → s.m.chanState ch = 1 → exec (.bankmaskWrite mst ch j v) s =
      .next (s.withM (s.m.setReg (chanStop ch) (dphyWin ch) (0x800 + 8 * j) (setFld v 52 12 0)))) ∧
    (s.m.chanState ch ≠ 1 → exec (.bankmaskWrite mst ch j v) s =
      .next (s.withM (s.m.setRegBit (chanStop ch) (dphyWin ch) 0x40 24 true)))) ∧
  (∀ (s : State) (mst : Master) (mc : Nat) (v : W64) (result : Nat), mc < 6 → s.m.Opens mst (mcStop mc) 0 0x840 →
    s.m.expert (mcStop mc) 0 = true → bit v 0 = true → bit (s.m.reg (mcStop mc) 0 0x840) 62 = false →
    s.m.chanState (2 * mc + fld v 1 1) = 2 → 1 ≤ result → result ≤ 3 →
    ∃ t, exec (.spprStart mst mc v result) s = .next (s.withM t) ∧ fld (t.reg (mcStop mc) 0 0x840) 60 2 = result ∧ t.mem = s.m.mem) ∧
  (∀ (s : State) (mc : Nat), mc < 6 → bit (s.m.reg (mcStop mc) 0 0x340) 0 = false → exec (.patrolScrub mc) s = .next s) ∧
  (∀ (s : State), bit (s.m.reg (mcStop 0) 0 0x340) 0 = true → s.m.chanState 0 = 2 → 64 < s.m.capacity 0 → s.m.upsets = [] →
    fld (s.m.reg (mcStop 0) 0 0x348) 39 1 = 0 → (s.m.regionsOf 0).map.testBit 0 = true → s.m.patrolAt 0 = 0 →
    ∃ t, exec (.patrolScrub 0) s = .next (s.withM t) ∧ t.patrolAt 0 = 64 ∧ t.mem = s.m.mem) ∧
  (∀ (s : State) (st k : Nat), s.m.upsets = [] → exec (.internalPatrol st k) s = .next s) ∧
  (∀ (s : State) (ch : Nat), ch < 12 → s.m.chanState ch = 2 → (s.m.regionsOf ch).next < s.m.regionCount ch →
    ∃ t, exec (.regionInitWalk ch) s = .next (s.withM t) ∧ (t.regionsOf ch).map.testBit (s.m.regionsOf ch).next = true ∧
      (t.regionsOf ch).next = (s.m.regionsOf ch).next + 1) ∧
  (∀ (s : State) (mst : Master) (st k i : Nat) (v : W64), s.m.Opens mst st k 0x338 → winBlk st k = some (.mc, i) → bit v 63 = false →
    bit (s.m.remap st k (s.m.remapIndex st k)) 63 = false →
    ∃ t, exec (.protRemapWrite mst st k v) s = .next (s.withM t) ∧ bit (t.remap st k (s.m.remapIndex st k)) 63 = false ∧
      fld (t.remap st k (s.m.remapIndex st k)) 6 33 = fld v 6 33) ∧
  (∀ (s : State) (mst : Master) (st k i : Nat) (v : W64), s.m.Opens mst st k 0x310 → winBlk st k = some (.mc, i) → bit v 7 = false →
    ∃ t, exec (.protLogselWrite mst st k v) s = .next (s.withM t) ∧ fld (t.reg st k 0x310) 0 5 = fld v 0 5 ∧
      t.protLog st k = s.m.protLog st k)) ∧
  (∀ (m : Mach) (ch ca j : Nat), j < 5 → (m.bankOf ch ca).testBit j = decide (parity (ca &&& (m.dphy ch (0x800 + 8 * j)).toNat) = 1))

/-! ### The fault collector and the Caldera state -/

/-- The collector's commands (R336, R337, R339, R344, R345, R347): pending bits and the record clear as written, the lock holds the
reactions, an injected occurrence is one of the collector's cycle, its own fault is Caldera with cause 2, and a forced entry has cause 3. -/
def Obligations.CollectorCommands : Prop :=
  (∀ (s : State) (mst : Master) (n : Nat) (v : W64), n < 8 → s.m.Opens mst 0 2 (0x80 + 8 * n) →
    ∃ t, exec (.fcPendClear mst n v) s = .next (s.withM t) ∧
      ∀ i, i < 64 → (t.fc (64 * n + i)).pend = ((s.m.fc (64 * n + i)).pend && ! bit v i)) ∧
  (∀ (s : State) (mst : Master), s.m.Opens mst 0 2 0x100 → ∃ t, exec (.fcFeClear mst) s = .next (s.withM t) ∧
    t.reg 0 2 0x100 = 0 ∧ t.reg 0 2 0x108 = 0 ∧ t.reg 0 2 0x110 = 0 ∧ t.reg 0 2 0x118 = 0 ∧ t.reg 0 2 0x180 = 0 ∧
    ∀ src, src < 512 → (t.fc src).also = false) ∧
  (∀ (s : State) (mst : Master) (key : Nat), s.m.Opens mst 0 2 0x1A0 →
    (key = 0xCA1D → exec (.fcCaldForce mst key) s = .next (s.withM (s.m.caldera 3 0 false false))) ∧
    (key ≠ 0xCA1D → exec (.fcCaldForce mst key) s = .next s)) ∧
  (∀ (s : State) (mst : Master), s.m.Opens mst 0 2 0x40 → bit (s.m.reg 0 2 0x40) 1 = false →
    ∃ t, exec (.fcCfglock mst) s = .next (s.withM t) ∧ bit (t.reg 0 2 0x40) 0 = true ∧ ∀ v, t.srcCfgWrite v = t) ∧
  (∀ (s : State) (mst : Master) (v : W64) (known : List (Nat × List W64)), s.m.Opens mst 0 2 0x800 →
    let m1 := s.m.setReg 0 2 0x800 (setBit (setBit v 63 true) 62 false &&& injMask)
    let m2 := s.m.setReg 0 2 0x800 (setBit (setBit v 63 true) 62 true &&& injMask)
    let a := m1.reg 0 2 0x808
    let addr := if bit a 63 then some (fld a 0 52) else none
    ((s.m.blk 0 2).lock = 2 → exec (.fcInjGo mst v known) s =
      .next (s.withM (m1.cycle [⟨⟨fld v 0 9, addr, fld v 16 6, fld v 24 6, some (fld v 32 4)⟩, true, bit v 36⟩] known))) ∧
    ((s.m.blk 0 2).lock = 2 → exec (.fcInjSelf mst v) s = .next (s.withM (m2.selfFault 0 0x800 true))) ∧
    ((s.m.blk 0 2).lock ≠ 2 → exec (.fcInjGo mst v known) s = .next s ∧ exec (.fcInjSelf mst v) s = .next s)) ∧
  (∀ (s : State) (kind off : Nat),
    (kind < 2 → s.m.phase ≠ .caldera → exec (.collectorSelfFault kind off) s = .next (s.withM
      ((s.m.setReg 0 2 0x1A8 (setFld (setBit (setBit (setBit (s.m.reg 0 2 0x1A8) 0 (decide (kind = 0))) 1 (decide (kind = 1))) 2 false)
        16 12 off)).caldera 2 0 false false))) ∧
    (2 ≤ kind → exec (.collectorSelfFault kind off) s = .next (s.withM (s.m.countReg 0 2 0x1A8 32 16 1)))) ∧
  (∀ (s : State) (st : Nat), exec (.shadowEnd st) s = .next (s.withM { s.m with shadows := s.m.shadows.erase st }))

/-- An occurrence in a cycle of its own (R334 to R336): it is counted and pending; the first-error record takes it where it is free, and marks
it in ALSO where it is not. One whose reactions are CALD enters the Caldera state with cause 1.
The Caldera state (R340, R341): the device halts, CALD_N goes low, the cores lose what they hold but the state they had, and a debug
session and a warm reset end; a second entry changes nothing. -/
def Obligations.CollectorOccurrences : Prop :=
  (∀ (s : State) (r : Report), srcReal r.src = true → s.m.inShadow (srcStop r.src) = false →
    let x := s.m.fc r.src
    (x.react = 0 → ∃ t, exec (.faultOccurrence [r] []) s = .next (s.withM t) ∧
      (t.fc r.src).count = min (x.count + 1) 0xFFFF ∧ (t.fc r.src).pend = true ∧ (t.fc r.src).react = 0 ∧ t.mem = s.m.mem ∧
      t.cores = s.m.cores ∧ t.phase = s.m.phase ∧
      (bit (s.m.reg 0 2 0x100) 63 = false → fld (t.reg 0 2 0x100) 0 9 = r.src ∧ fld (t.reg 0 2 0x100) 10 2 = srcSev r.src ∧
        bit (t.reg 0 2 0x100) 63 = true ∧ fld (t.reg 0 2 0x110) 0 6 = r.mstop % 64 ∧ t.reg 0 2 0x118 = s.m.dtNow) ∧
      (bit (s.m.reg 0 2 0x100) 63 = true → t.reg 0 2 0x100 = s.m.reg 0 2 0x100 ∧ t.reg 0 2 0x108 = s.m.reg 0 2 0x108 ∧
        (t.fc r.src).also = true ∧ bit (t.reg 0 2 0x180) 18 = true)) ∧
    (x.react = 32 → s.m.phase ≠ .caldera → s.m.txns = [] → s.m.stale = [] →
      ∃ t, exec (.faultOccurrence [r] []) s = .next (s.withM t) ∧ t.phase = .caldera ∧ t.caldLow = true ∧
        fld (t.reg 0 2 0x190) 0 2 = 1 ∧ fld (t.reg 0 2 0x190) 16 9 = r.src)) ∧
  (∀ (m : Mach) (cause src : Nat) (sh inj : Bool),
    (m.phase = .caldera → m.caldera cause src sh inj = m) ∧
    (m.phase ≠ .caldera →
      let t := m.caldera cause src sh inj
      t.phase = .caldera ∧ t.caldLow = true ∧ t.warm = false ∧ t.dbg = none ∧ t.txns = [] ∧ t.stale = [] ∧ t.mcReqs = [] ∧
      t.power.queue = [] ∧
      ∀ c, (t.core c).g = [] ∧ (t.core c).pcc = .zero ∧ (t.core c).tlb = [] ∧ (t.core c).gcache = [] ∧ (t.core c).mb = []))

/-! ### Port complexes -/

/-- Links and port registers (R349, R350, R352, R370, R377 to R379): lock and link changes, pauses, verification, a hold time that ends, the
configuration, and the resume of a halted DMA channel whose cause reads 0. -/
def Obligations.PortLinkCommands : Prop :=
  (∀ (s : State) (q : Nat), q < 128 → s.m.answers (portStop q) (portWin q) = true →
    ((s.m.blk (portStop q) (portWin q)).enable = true → exec (.pcsBlockLock q) s =
      .next (s.withM (s.m.setReg (portStop q) (portWin q) 0x48 (setFld (s.m.portReg q 0x48) 1 3 1)))) ∧
    ((s.m.blk (portStop q) (portWin q)).enable = true → fld (s.m.portReg q 0x48) 0 4 = 2 →
      ∃ t, exec (.linkUp q) s = .next (s.withM t) ∧ t.linkUp q = true ∧ (t.port q).downEnded = false ∧
        fld (t.portReg q 0x48) 16 16 = min (fld (s.m.portReg q 0x48) 16 16 + 1) 0xFFFF) ∧
    (∀ why, s.m.linkUp q = true → ∃ t, exec (.linkDown q why) s = .next (s.withM t) ∧ t.linkUp q = false ∧ (t.port q).cut = none ∧
      (t.port q).eqs = (s.m.port q).eqs ∧ (why = 0 → bit (t.portReg q 0x48) 1 = false) ∧ (why = 1 → bit (t.portReg q 0x48) 2 = true))) ∧
  (∀ (s : State) (q : Nat) (ok : Bool),
    (fld (s.m.portReg q 0x48) 4 2 = 1 → exec (.preemptVerify q ok) s =
      .next (s.withM (s.m.setRegFld (portStop q) (portWin q) 0x48 4 2 (if ok then 2 else 3)))) ∧
    (fld (s.m.portReg q 0x48) 4 2 ≠ 1 → exec (.preemptVerify q ok) s = .next s)) ∧
  (∀ (s : State) (q : Nat), s.m.linkUp q = false → ∃ t, exec (.downholdExpiry q) s = .next (s.withM t) ∧ (t.port q).eqs = [] ∧
    (t.port q).downEnded = true) ∧
  (∀ (s : State) (q p : Nat), p < 9 → ∃ t, exec (.pauseTimeExpiry q p) s = .next (s.withM t) ∧
    ∀ i, i < 9 → (t.port q).paused.testBit i = ((s.m.port q).paused.testBit i && decide (i ≠ p))) ∧
  (∀ (s : State) (q enable : Nat) (times : List Nat), q < 128 → s.m.linkUp q = true →
    (∃ t, exec (.pauseReceive q true enable times) s = .next (s.withM t) ∧ ∀ i, i < 8 → (t.port q).paused.testBit i =
      if enable.testBit i ∧ bit (s.m.portReg q 0x40) (40 + i) = true then decide ((times[i]?).getD 0 ≠ 0)
      else (s.m.port q).paused.testBit i) ∧
    (bit (s.m.portReg q 0x40) 7 = true → ∃ t, exec (.pauseReceive q false enable times) s = .next (s.withM t) ∧
      (t.port q).paused.testBit 8 = decide ((times[0]?).getD 0 ≠ 0)) ∧
    (bit (s.m.portReg q 0x40) 7 = false → exec (.pauseReceive q false enable times) s = .next s)) ∧
  (∀ (s : State) (mst : Master) (q : Nat) (v : W64), q < 128 → s.m.Opens mst (portStop q) (portWin q) 0x40 →
    ((bit v 0 = false ∧ fld v 1 2 = 2) ∨ fld v 1 2 = 3 → exec (.pxPortCfgWrite mst q v) s =
      .next (s.withM (s.m.setRegBit (portStop q) (portWin q) 0x48 8 true))) ∧
    ((bit v 0 = true ∨ fld v 1 2 ≠ 2) → fld v 1 2 ≠ 3 → fld v 8 14 < 64 ∨ 9600 < fld v 8 14 →
      exec (.pxPortCfgWrite mst q v) s = .next s) ∧
    ((bit v 0 = true ∨ fld v 1 2 ≠ 2) → fld v 1 2 ≠ 3 → 64 ≤ fld v 8 14 → fld v 8 14 ≤ 9600 →
      ∃ t, exec (.pxPortCfgWrite mst q v) s = .next (s.withM t) ∧ fld (t.portReg q 0x40) 0 3 = fld v 0 3 ∧
        fld (t.portReg q 0x40) 8 14 = fld v 8 14 ∧ fld (t.portReg q 0x40) 32 16 = fld v 32 16)) ∧
  (∀ (s : State) (mst : Master) (q : Nat) (v : W64), q < 128 → s.m.Opens mst (portStop q) (portWin q) 0x78 →
    let old := s.m.portReg q 0x78
    (∃ t, exec (.iresume mst q v) s = .next (s.withM t) ∧ bit (t.portReg q 0x78) 2 = (bit old 2 && ! bit v 2) ∧
      bit (t.portReg q 0x78) 0 = (bit old 0 && bit old 2 && ! bit v 2)) ∧
    (∃ t, exec (.eresume mst q v) s = .next (s.withM t) ∧ bit (t.portReg q 0x78) 3 = (bit old 3 && ! bit v 3) ∧
      bit (t.portReg q 0x78) 1 = (bit old 1 && bit old 3 && ! bit v 3)))

/-- Pairs and table commands (R355, R357, R363, R364, R368, R372, R380, R382, R383): a pair of two ports that no other pair names; the
selected entry is read or written, and a refused or absent one sets the error; a written CHANGE waits for its time. -/
def Obligations.PortTables : Prop :=
  (∀ (s : State) (mst : Master) (px n : Nat) (v : W64), px < 4 → n < 16 → s.m.Opens mst (pxStop px) 0 (0x80 + 8 * n) →
    (fld v 0 5 = fld v 8 5 → exec (.pxPairWrite mst px n v) s = .next s) ∧
    (fld v 0 5 ≠ fld v 8 5 →
      (∀ i, i < 16 → i ≠ n → bit (s.m.reg (pxStop px) 0 (0x80 + 8 * i)) 63 = true → ∀ p, p = fld v 0 5 ∨ p = fld v 8 5 →
        fld (s.m.reg (pxStop px) 0 (0x80 + 8 * i)) 0 5 ≠ p ∧ fld (s.m.reg (pxStop px) 0 (0x80 + 8 * i)) 8 5 ≠ p) →
      ∃ t, exec (.pxPairWrite mst px n v) s = .next (s.withM t) ∧
        let w := t.reg (pxStop px) 0 (0x80 + 8 * n)
        fld w 0 5 = fld v 0 5 ∧ fld w 8 5 = fld v 8 5 ∧ bit w 63 = bit v 63)) ∧
  (∀ (s : State) (mst : Master) (px : Nat), px < 4 → s.m.Opens mst (pxStop px) 0x21 0x48 →
    let sel := s.m.reg (pxStop px) 0x21 0x40
    let k := fld sel 0 3
    let idx := fld sel 16 12
    let w := fun i => s.m.reg (pxStop px) 0x21 (0x80 + 8 * i) &&& sfMask k i
    let err := s.m.setReg (pxStop px) 0x21 0x48 (setBit 0 62 true)
    k ≠ 7 →
    (sfSize k ≤ idx → exec (.pxSfRead mst px) s = .next (s.withM err) ∧ exec (.pxSfWrite mst px) s = .next (s.withM err)) ∧
    (idx < sfSize k →
      (∃ t, exec (.pxSfRead mst px) s = .next (s.withM t) ∧ t.reg (pxStop px) 0x21 0x48 = 0 ∧
        ∀ i, i < 4 → t.reg (pxStop px) 0x21 (0x80 + 8 * i) = s.m.sf px k idx i) ∧
      (s.m.sfRefused px k idx w = true → exec (.pxSfWrite mst px) s = .next (s.withM err)) ∧
      (s.m.sfRefused px k idx w = false → ∃ t, exec (.pxSfWrite mst px) s = .next (s.withM t) ∧ t.reg (pxStop px) 0x21 0x48 = 0 ∧
        ∀ i, i < 4 → t.sf px k idx i = w i))) ∧
  (∀ (s : State) (mst : Master) (px : Nat), px < 4 → s.m.Opens mst (pxStop px) 0x22 0x48 →
    let sel := s.m.reg (pxStop px) 0x22 0x40
    let q := px * 32 + fld sel 8 5
    let w := fun i => s.m.reg (pxStop px) 0x22 (0x80 + 8 * i)
    (fld sel 0 2 = 1 → (∃ t, exec (.pxEgRead mst px) s = .next (s.withM t) ∧
      ∀ i, i < 4 → t.reg (pxStop px) 0x22 (0x80 + 8 * i) = s.m.eg q 1 (fld sel 16 10) i)) ∧
    (fld sel 0 2 = 1 → (s.m.port q).pendingChange = false → fld (w 0) 8 2 ≠ 3 →
      ∃ t, exec (.pxEgWrite mst px) s = .next (s.withM t) ∧ t.eg q 1 (fld sel 16 10) 0 = w 0 &&& 0xFFFFFFFF000003FF ∧
        t.reg (pxStop px) 0x22 0x48 = 0) ∧
    (fld sel 0 2 = 2 ∨ (fld sel 0 2 = 3 ∧ 8 ≤ fld sel 16 10) → exec (.pxEgWrite mst px) s =
      .next (s.withM (s.m.setReg (pxStop px) 0x22 0x48 (setBit 0 62 true)))) ∧
    (∀ at_, fld sel 0 2 = 0 → bit (w 0) 31 = true → 1 ≤ fld (w 0) 16 11 → fld (w 0) 16 11 ≤ 1024 →
      (∀ i, i < fld (w 0) 16 11 → 32 ≤ fld (s.m.eg q 1 i 0) 32 32) → changeTime s.m.dt (w 2).toNat (fld (w 1) 0 32) = some at_ →
      ∃ t, exec (.pxEgWrite mst px) s = .next (s.withM t) ∧ (t.port q).pendingChange = true ∧ (t.port q).changeAt = at_ ∧
        (t.port q).adm = (List.range (fld (w 0) 16 11)).map (fun i => s.m.eg q 1 i 0) ∧ (t.port q).oper = (s.m.port q).oper)) ∧
  (∀ (s : State) (q : Nat), (s.m.port q).pendingChange = true → ∃ t, exec (.gclChange q) s = .next (s.withM t) ∧
    (t.port q).oper = (s.m.port q).adm ∧ (t.port q).operBase = (s.m.port q).changeAt ∧ (t.port q).pendingChange = false ∧
    t.dt = max s.m.dt (s.m.port q).changeAt) ∧
  (∀ (s : State) (q : Nat), (s.m.port q).everOper = true → 0 < (s.m.port q).operCycle →
    ∃ t, exec (.gclIntervalEnd q) s = .next (s.withM t) ∧ s.m.dt < t.dt ∧ (t.port q).oper = (s.m.port q).oper) ∧
  (∀ (s : State) (px g : Nat), bit (s.m.sf px 2 g 0) 63 = true → 0 < fld (s.m.sf px 2 g 1) 0 32 →
    ∃ t, exec (.streamGateIntervalEnd px g) s = .next (s.withM t) ∧ s.m.dt < t.dt ∧ t = { s.m with dt := t.dt }) ∧
  (∀ (s : State) (px i : Nat), fld (s.m.sf px 5 i 0) 16 16 ≠ 0 → exec (.recoveryResetTimeout px i) s =
    .next (s.withM { s.m with hists := Tab.del s.m.hists (px * 1024 + i) })) ∧
  (∀ (s : State) (mst : Master) (q : Nat), q < 128 → s.m.answers (portStop q) (portWin q) = true →
    ((s.m.port q).txts = [] → exec (.txtsInfoRead mst q) s = .next (s.withM (s.m.setPort q { s.m.port q with txOvf := false }))) ∧
    (∀ tag t0 rest, (s.m.port q).txts = (tag, t0) :: rest → ∃ t, exec (.txtsInfoRead mst q) s = .next (s.withM t) ∧
      (t.port q).txts = rest ∧ (t.port q).txOvf = false ∧ t.portReg q 0x70 = BitVec.ofNat 64 t0)) ∧
  (∀ (s : State) (mst : Master) (px : Nat), px < 4 → s.m.Opens mst (pxStop px) 0 0x50 →
    ((s.m.blk (pxStop px) 0).quiesce = false → exec (.pxReset mst px) s = .next s) ∧
    ((s.m.blk (pxStop px) 0).quiesce = true → exec (.pxReset mst px) s = .next (s.withM (s.m.pxReset px))))

/-- Frames in (R350, R354 to R359, R364): a frame that the MAC refuses is counted; one of no stream goes to the port's default queue, one of
a stream through its filter to the filter's queue; recovery passes the first copy of a number and eliminates the next.
Frames out (R366, R369): a port whose only frames wait in one queue, unshaped, ungated, unpaused and within MAXSDU, sends the head of that
queue and counts it; with its link down it sends none. -/
def Obligations.FrameTraffic : Prop :=
  ((∀ (s : State) (q : Nat) (f : RxFrame), q < 128 → s.m.answers (portStop q) (portWin q) = true →
    (s.m.blk (portStop q) (portWin q)).enable = true →
    let px := q / 32
    let ts := (f.time - fld (s.m.portReg q 0x60) 0 16) / 16
    let pri := s.m.priOf q f.bytes
    (s.m.linkUp q = false → exec (.frameReceive q f) s = .next (s.withM (s.m.countPort q 0x80 0 16))) ∧
    (s.m.linkUp q = true → f.bad = true ∨ f.bytes.length + 4 < 64 ∨ s.m.maxFrm q < f.bytes.length + 4 →
      exec (.frameReceive q f) s = .next (s.withM ((s.m.fumCount q pri (f.bytes.length + 4) false true).countPort q 0x80 0 16))) ∧
    (s.m.linkUp q = true → f.bad = false → 64 ≤ f.bytes.length + 4 → f.bytes.length + 4 ≤ s.m.maxFrm q → be16 f.bytes 12 ≠ 0x8808 →
      s.m.phase = .run → s.m.portShut q = false → bit (s.m.portReg q 0x78) 0 = false →
      (s.m.streamOf q f.bytes = none → s.m.bufferSpace px f.bytes.length false = some false → bit (s.m.portReg q 0x50) 12 = true →
        s.m.engineHere (fld (s.m.portReg q 0x50) 0 12) = true →
        ∃ t, exec (.frameReceive q f) s = .next (s.withM t) ∧ t.handovers = s.m.handovers ++
          [(px, ⟨q, fld (s.m.portReg q 0x50) 0 12, f.bytes, none, pri, ts, false⟩)]) ∧
      (∀ (h : Nat) (tc0 : Bool), let w := s.m.sf px 1 h 0
        s.m.streamOf q f.bytes = some h → s.m.bufferSpace px f.bytes.length (bit w 63 && decide (s.m.queueTc (fld w 0 12) = 0)) = some tc0 →
        bit w 63 = true → bit w 41 = false → bit w 59 = false → bit w 61 = false → bit w 62 = false → h < 4096 →
        (f.bytes.length ≤ fld w 16 14 → s.m.engineHere (fld w 0 12) = true →
          ∃ t, exec (.frameReceive q f) s = .next (s.withM t) ∧ t.handovers = s.m.handovers ++
            [(px, ⟨q, fld w 0 12, f.bytes, some h, pri, ts, tc0⟩)]) ∧
        (fld w 16 14 < f.bytes.length → ∃ t, exec (.frameReceive q f) s = .next (s.withM t) ∧ t.handovers = s.m.handovers ∧
          bit (t.sf px 1 h 0) 61 = bit w 60)))) ∧
  (∀ (v : Bool) (len n d : Nat) (h : RcvHist), n < 65536 → h.seq < 65536 →
    (recoverSeq v len none n).1 = true ∧ (recoverSeq v len none n).2.seq = n ∧
    (recoverSeq v len (some h) h.seq).1 = false ∧
    (1 ≤ d → d < len → len ≤ 32 → recoverSeq true len (some h) ((h.seq + d) % 65536) =
      (true, ⟨(h.seq + d) % 65536, (h.hist * 2 ^ d + 1) % 2 ^ len⟩)) ∧
    (len ≤ d → d < 32768 → (recoverSeq true len (some h) ((h.seq + d) % 65536)).1 = false))) ∧
  (∀ (s : State) (q e : Nat) (f : EgFrame) (fs : List EgFrame), q < 128 → e < 8 → s.m.phase = .run →
    s.m.answers (portStop q) (portWin q) = true → (s.m.blk (portStop q) (portWin q)).enable = true →
    (s.m.linkUp q = false → ∀ part late, exec (.frameTransmit q part late) s = .next s) ∧
    (s.m.linkUp q = true → bit (s.m.portReg q 0x78) 1 = false → (s.m.port q).cut = none → (s.m.port q).paused = 0 →
      (s.m.port q).frames e = f :: fs → (∀ i, i ≠ e → (s.m.port q).frames i = []) → bit (s.m.eg q 0 0 0) 0 = false →
      (∀ i, i < 8 → bit (s.m.eg q 3 i 0) 0 = false) → (fld (s.m.eg q 3 e 0) 16 14 = 0 ∨ f.len ≤ fld (s.m.eg q 3 e 0) 16 14) →
      s.m.upsets = [] → (∀ i, (s.m.metaAt ((f.pa / 8 + i) * 8)).poison = false) →
      ∃ t, exec (.frameTransmit q none false) s = .next (s.withM t) ∧ (t.port q).frames e = fs ∧
        fld (t.eg q 3 e 1) 0 32 = min (fld (s.m.eg q 3 e 1) 0 32 + 1) 0xFFFFFFFF ∧ t.mem = s.m.mem))

/-! ### Ledger engines -/

/-- Admission (R360, R386, R392, R393): the first frame that a complex holds leaves it; an engine that has a cause refuses it, and one that
has none gives it the queue's next number, ADMITTED, with its bytes.
From ADMITTED to SENT (R390, R392, R397, R398, R400): an admitted record with its writes acknowledged is ACCEPTED at device time; the next
accepted one of a queue that delivers is written into its slot and is DELIVERED; a retired one is RELEASED in number order with its outputs;
a released one whose outputs are gone is held no more; a revoked record pair hands its record back. -/
def Obligations.LedgerRecords : Prop :=
  (∀ (s : State) (px : Nat) (h : Handover), s.m.firstHeld px = some h → s.m.raiseHolds h.queue = false →
    let m1 : Mach := { s.m with handovers := dropFirst px s.m.handovers }
    (∀ k, s.m.refuseCause h.queue h.bytes.length = some k →
      exec (.recordAdmit px) s = .next (s.withM ((m1.refuseFrame h k).pfcUpdate h.port))) ∧
    (s.m.refuseCause h.queue h.bytes.length = none → ∃ (t : Mach) (r : LRec), exec (.recordAdmit px) s = .next (s.withM t) ∧
      t.handovers = dropFirst px s.m.handovers ∧ (t.queue h.queue).recs = (s.m.queue h.queue).recs ++ [r] ∧
      (t.queue h.queue).next = ((s.m.queue h.queue).next + 1) % 2 ^ 48 ∧ r.seq = (s.m.queue h.queue).next ∧ r.st = .admitted ∧
      r.data = h.bytes ∧ r.port = h.port ∧ r.lput = false ∧ r.pri = h.pri ∧ r.handle = h.handle.getD 0 ∧ r.ts = h.ts ∧
      ∀ q, q ≠ h.queue → t.queue q = s.m.queue q)) ∧
  ((∀ (s : State) (q n : Nat) (r : LRec), (s.m.queue q).rec? n = some r → s.m.pair.raising = false →
    (r.st = .admitted → r.partner ≠ .awaited → exec (.recordAccept q n) s =
      .next (s.withM ((s.m.modRec q n (fun r => { r with st := .accepted, atime := s.m.dt })).queueTick q))) ∧
    (r.st ≠ .admitted ∨ r.partner = .awaited → exec (.recordAccept q n) s = .next s)) ∧
  (∀ (s : State) (q : Nat) (r : LRec) (pb : Bool),
    let x := s.m.queue q
    (s.m.delivers q = false → exec (.recordDeliver q 0 pb) s = .next s) ∧
    (s.m.delivers q = true → x.nextDeliver = some r → bit (s.m.vqf (q / 2048) x.vqf).cfg 11 = false → s.m.carveOf x.ring = none →
      x.j = false → bit x.w0 36 = false → exec (.recordDeliver q 0 pb) s = .next (s.withM
        ((((s.m.writeSlot (queueStop q) x.ring x.slots r.seq (s.m.slotWords q r false)).modRec q r.seq
          (fun _ => { r with st := .delivered })).countUncore (queueStop q) (.plain 0x262) 1).queueTick q)))) ∧
  (∀ (s : State) (q : Nat) (r : LRec),
    let x := s.m.queue q
    let m1 := (s.m.modRec q r.seq (fun r => { r with st := .released })).countUncore (queueStop q) (.plain 0x264) 1
    x.nextRelease = some r →
    (r.marker = .awaited → exec (.recordRelease q) s = .next s) ∧
    (r.marker = .none → s.m.mirrorsNow q = false → x.held = false → x.st ≠ 3 → s.m.phase = .run → x.j = false →
      (r.outs = [] → exec (.recordRelease q) s = .next (s.withM (((m1.recordSent q r.seq).queueTick q).sendMarker q))) ∧
      (r.outs ≠ [] → exec (.recordRelease q) s = .next (s.withM (((r.outs.zipIdx.foldl
        (fun (acc : Mach) p => acc.releaseOut q r.seq p.2 p.1) m1).queueTick q).sendMarker q))))) ∧
  (∀ (s : State) (q n : Nat) (r : LRec), (s.m.queue q).rec? n = some r → r.st = .released →
    ((∃ o ∈ r.outs, 0 < o.left) → exec (.recordSent q n) s = .next s) ∧
    ((∀ o ∈ r.outs, o.left = 0) → ∃ t, exec (.recordSent q n) s = .next (s.withM t) ∧ (t.queue q).rec? n = none)) ∧
  (∀ (s : State) (q i : Nat),
    (∀ r, (s.m.queue q).recs.find? (fun r => decide (r.pair = some i)) = some r →
      exec (.recordPairRevoked q i) s = .next (s.withM ((s.m.handBack q r.seq false).queueTick q))) ∧
    ((∀ r ∈ (s.m.queue q).recs, r.pair ≠ some i) → exec (.recordPairRevoked q i) s = .next s)) ∧
  (∀ (m : Mach) (q n : Nat) (r : LRec), (m.queue q).rec? n = some r → r.st = .taken →
    ((m.handBack q n false).queue q).rec? n = some { r with
      st := .delivered, flags := r.flags ||| 4, hcount := min (r.hcount + 1) 255, outs := [], pair := none, taker := none }))

/-- Queue descriptors and the engine's reset (R385, R413, R414, R420, R460): a read gives the eight words of the selected queue; a DISABLED
queue is enabled where its placement is right and its VQF is enabled, else refused; clearing EN of an ENABLED queue stops it. -/
def Obligations.QueueDescriptors : Prop :=
  (∀ (s : State) (mst : Master) (e : Nat), e < 2 → s.m.Opens mst (leStop e) 0 0x108 →
    let q := e * 2048 + s.m.regFld (leStop e) 0 0x100 0 11
    let x := s.m.queue q
    let w := fun i => s.m.reg (leStop e) 0 (0x140 + 8 * i)
    let y : Queue := { x with
      w0 := w 0 &&& 0x1000001FFFFF1FFF
      w1 := w 1 &&& 0x000FFFFFFFFFFFFF
      w2 := w 2 &&& 0x000FFFFFFFFFF000
      w3 := w 3 &&& 0xFFFFFFFF017F07FF
      next := if x.recs.isEmpty then fld (w 4) 0 48 else x.next }
    let err := s.m.setReg (leStop e) 0 0x108 (setBit 0 62 true)
    (∃ t, exec (.leQRead mst e) s = .next (s.withM t) ∧ t.reg (leStop e) 0 0x108 = 0 ∧
      ∀ i, i < 8 → x.words[i]? = some (t.reg (leStop e) 0 (0x140 + 8 * i))) ∧
    (x.st = 0 → bit (w 0) 60 = false → exec (.leQWrite mst e) s = .next (s.withM ((s.m.setQueue q y).setReg (leStop e) 0 0x108 0))) ∧
    (x.st = 0 → bit (w 0) 60 = true → s.m.placementOk q y = true → (s.m.vqf (q / 2048) y.vqf).st = 1 →
      exec (.leQWrite mst e) s = .next (s.withM ((s.m.setQueue q { y with st := 1 }).setReg (leStop e) 0 0x108 0))) ∧
    (x.st = 0 → bit (w 0) 60 = true → s.m.placementOk q y = false ∨ (s.m.vqf (q / 2048) y.vqf).st ≠ 1 →
      exec (.leQWrite mst e) s = .next (s.withM err)) ∧
    (x.st = 1 → bit (w 0) 60 = false → ∃ t, exec (.leQWrite mst e) s = .next (s.withM t) ∧
      (t.queue q).st = (if x.recs = [] then 0 else 2) ∧ (t.queue q).recs = x.recs ∧ (t.queue q).en = false)) ∧
  (∀ (s : State) (mst : Master) (e : Nat), e < 2 → s.m.Opens mst (leStop e) 0 0x80 →
    ((s.m.blk (leStop e) 0).quiesce = false → exec (.leReset mst e) s = .next s) ∧
    ((s.m.blk (leStop e) 0).quiesce = true → exec (.leReset mst e) s = .next (s.withM (s.m.leReset e)))) ∧
  (∀ (s : State) (e : Nat),
    ((s.m.engine e).rebuilding = false → exec (.ledgerRebuildComplete e) s = .next s) ∧
    ((s.m.engine e).rebuilding = true → ∃ t, exec (.ledgerRebuildComplete e) s = .next (s.withM t) ∧ (t.engine e).rebuilding = false))

/-! ### Queue functions -/

/-- The commands of VQF_CMD (R452, R455, R460, R463, R464, R466, R467, R469, R471): `v` is the selected queue function of engine `e`. While
it is BUSY each is ignored with result 2 (FREEZE while FREEZING with 1); in a state that the command has no rule for it answers 1; else it changes the state.
Rounds (R456, R461): a round starts at the next multiple of 2,000 ns with nothing counted and the journaled capacity of LE_CFG; the quotas
of a round never exceed 600 records and the capacity together; and a queue function whose queues are all stopped is DISABLED. -/
def Obligations.VqfCommands : Prop :=
  (∀ (s : State) (mst : Master) (e : Nat), e < 2 → s.m.Opens mst (leStop e) 3 0x68 →
    let v := s.m.vqfSel e
    let x := s.m.vqf e v
    let qs := s.m.queuesOf e v
    let res := fun (n : Nat) => Host.Outcome.next (s.withM (s.m.setVqf e v { x with result := n }))
    let done := fun (n : Nat) => Host.Outcome.next (s.withM ((s.m.setVqf e v { x with result := n, busy := false }).vqfEvent e v))
    (x.busy = true → exec (.vqfEnable mst e) s = res 2 ∧ exec (.vqfFreeze mst e) s = res (if x.st = 3 then 1 else 2) ∧ exec (.vqfSave mst e) s = res 2) ∧
    (x.busy = false →
      (x.st = 0 → x.weight ≠ 0 → exec (.vqfEnable mst e) s = .next (s.withM (s.m.setVqf e v { x with st := 1, result := 0 }))) ∧
      (x.st ≠ 0 → exec (.vqfEnable mst e) s = res 1) ∧
      (x.st = 1 → ∃ t, exec (.vqfDisable mst e) s = .next (s.withM t) ∧ (t.vqf e v).st = 2) ∧
      (x.st ≠ 1 → exec (.vqfDisable mst e) s = res 1) ∧
      (x.st = 1 ∨ x.st = 2 → (∀ q, ∀ r ∈ (s.m.queue q).recs, r.st ≠ .taken) →
        ((∃ p ∈ qs, ∃ r ∈ p.2.recs, r.st = .released ∨ r.st = .admitted) →
          exec (.vqfFreeze mst e) s = .next (s.withM (s.m.setVqf e v { x with st := 3, busy := true }))) ∧
        ((∀ p ∈ qs, ∀ r ∈ p.2.recs, r.st ≠ .released ∧ r.st ≠ .admitted) →
          ∃ t, exec (.vqfFreeze mst e) s = .next (s.withM t) ∧ (t.vqf e v).st = 4 ∧ (t.vqf e v).busy = false ∧ (t.vqf e v).result = 0 ∧
            ∀ p ∈ qs, p.2.st ≠ 0 → (t.queue p.1).st = 3)) ∧
      (x.st = 4 → ∃ t, exec (.vqfThaw mst e) s = .next (s.withM t) ∧ (t.vqf e v).st = (if qs.any (fun p => p.2.en) then 1 else 2)) ∧
      (x.st ≠ 4 → exec (.vqfThaw mst e) s = res 1 ∧ exec (.vqfSave mst e) s = res 1) ∧
      (x.hcause = true → exec (.vqfResume mst e) s = res 1) ∧
      (x.hcause = false → ∃ t, exec (.vqfResume mst e) s = .next (s.withM t) ∧ (t.vqf e v).halted = false ∧
        ∀ p ∈ qs, (t.queue p.1).halted = false) ∧
      (x.st = 4 → 60 < (s.m.vqfQueues e v).length → exec (.vqfSave mst e) s = done 3) ∧
      (x.st = 4 → (s.m.vqfQueues e v).length ≤ 60 → s.m.plainDram (fld x.blk 12 40 * 4096) 4096 = true →
        s.m.plainDram (fld x.recArea 12 40 * 4096) (x.avail * 1024) = true →
        ((s.m.areaWords (s.m.vqfQueues e v)).length * 8 + 1023) / 1024 ≤ x.avail →
        ∃ t, exec (.vqfSave mst e) s = .next (s.withM t) ∧ (t.vqf e v).saved = true ∧ (t.vqf e v).result = 0) ∧
      (x.st ≠ 4 ∨ x.saved = false → ∀ force, exec (.vqfDrop mst e force) s = res 1) ∧
      (x.st = 4 → x.saved = true → s.m.pairState = 0 →
        ((∃ p ∈ qs, p.2.mir = true) → exec (.vqfDrop mst e false) s = done 9) ∧
        (∃ t, exec (.vqfDrop mst e true) s = .next (s.withM t) ∧ (t.vqf e v).st = 0 ∧
          ∀ p ∈ qs, (t.queue p.1).recs = [] ∧ (t.queue p.1).st = 0)) ∧
      (∀ ps,
        let b := s.m.words (fld x.blk 12 40 * 4096) 512
        let w := fun (i : Nat) => ((b[i]?).getD Word.zero).data
        let m2 := s.m.setVqf e v { x with share := w 3 &&& shareBits, ports0 := w 4, ports1 := w 5, cfg := w 6 &&& cfgBits, st := 3, busy := true, saved := false }
        (x.st ≠ 0 → exec (.vqfRestore mst e ps) s = res 1) ∧
        (x.st = 0 → fld (w 0) 0 16 ≠ 1 → exec (.vqfRestore mst e ps) s = done 6) ∧
        (x.st = 0 → fld (w 0) 0 16 = 1 → s.m.isMem (fld x.blk 12 40 * 4096) = true → b.any (fun y => y.poison) = false →
          fld (w 0) 32 6 = 0 → fld (w 1) 0 32 = 0 → (s.m.engine e).pbufs.length ≤ s.m.pSize e → s.m.hotUsed e ≤ 8192 →
          exec (.vqfRestore mst e ps) s = .next (s.withM (m2.freezeCheck e v)))))) ∧
  ((∀ (s : State), (∀ p ∈ s.m.cores, p.2.put = none) → ∃ t, exec .vqfRoundStart s = .next (s.withM t) ∧
    t.dt = (s.m.dt / 2000 + 1) * 2000 ∧ ∀ e, e < 2 →
      (t.engine e).jb = fld (s.m.leReg e 0x40) 0 8 * 2000 ∧ ∀ v, v < 1024 → (t.vqf e v).u = 0 ∧ (t.vqf e v).j = 0) ∧
  (∀ (xs : List Vqf) (jb : Nat), let w := (xs.map Vqf.weight).sum
    (xs.map (fun x => (x.quotas true w jb).q)).sum ≤ 600 ∧ (xs.map (fun x => (x.quotas true w jb).b)).sum ≤ jb) ∧
  (∀ (s : State) (e v : Nat),
    ((s.m.vqf e v).st = 2 → (∀ p ∈ s.m.queuesOf e v, p.2.stopDone = true) →
      exec (.vqfStopComplete e v) s = .next (s.withM ((s.m.setVqf e v { s.m.vqf e v with st := 0 }).vqfEvent e v))) ∧
    ((s.m.vqf e v).st ≠ 2 → exec (.vqfStopComplete e v) s = .next s)))

/-! ### Pairing -/

/-- Epnis links (R422, R423, R429): corrected codewords are counted; a frame that is next in order is passed on and another is not; a link
that is lost leaves UP and a PAIRED device is DEGRADED while the other serves; a link that comes up is UP, and a DEGRADED device PAIRED.
The pair-sense channel, heartbeats and fences (R424, R437 to R439, R441): frames are counted or heard; heartbeats go out on the links
that are up; a missed period is counted; PAIR_ID 1 fences itself after ten missed periods on both paths; a fence command of the partner is
Caldera; FENCE_IN_N makes a mirroring device take over. -/
def Obligations.EpnisAndHeartbeats : Prop :=
  ((∀ (s : State) (l num corr : Nat) (b : EpBody), l < 2 → s.m.epnUp l = true → s.m.phase = .run →
    let m1 := s.m.countReg (leStop l) 1 0x50 0 32 corr
    let r := s.m.pair.link l
    (∀ ack nak, exec (.epnisFrameReceive l num corr true ack nak b) s = .next (s.withM m1)) ∧
    (num ≠ r.rxNext → exec (.epnisFrameReceive l num corr false none none b) s = .next (s.withM m1)) ∧
    (num = r.rxNext → exec (.epnisFrameReceive l num corr false none none .other) s =
      .next (s.withM (m1.modPair (fun p => p.setLink l { r with rxNext := r.rxNext + 1 })))) ∧
    (∀ h, num = r.rxNext → b = .heartbeat h → ∃ t, exec (.epnisFrameReceive l num corr false none none b) s = .next (s.withM t) ∧
      t.pair.seen[l]? = some true ∧ t.pair.partnerId = h.id ∧ t.pair.partnerState = h.state ∧ (t.pair.link l).rxNext = r.rxNext + 1) ∧
    (∀ n, num ≠ r.rxNext → exec (.epnisFrameReceive l num corr false (some n) none b) s = .next (s.withM
      (m1.modPair (fun p => p.setLink l { r with unacked := r.unacked.filter (fun k => decide (n < k)), retx := 0 }))))) ∧
  (∀ (s : State) (l : Nat), l < 2 →
    (s.m.regFld (leStop l) 1 0x48 0 2 ≠ 2 → exec (.epnisLinkDown l) s = .next s) ∧
    (s.m.regFld (leStop l) 1 0x48 0 2 = 2 → s.m.pairState = 0 → ∃ t, exec (.epnisLinkDown l) s = .next (s.withM t) ∧
      t.regFld (leStop l) 1 0x48 0 2 = s.m.regFld (leStop l) 1 0x40 0 1 ∧
      t.regFld (leStop l) 1 0x48 16 16 = min (s.m.regFld (leStop l) 1 0x48 16 16 + 1) 0xFFFF) ∧
    (s.m.epnUp l = true → s.m.epnUp (1 - l) = true → s.m.pairState = 2 →
      ∃ t, exec (.epnisLinkDown l) s = .next (s.withM t) ∧ t.epnUp l = false ∧ t.epnUp (1 - l) = true ∧ t.pairState = 3 ∧
        (t.pair.link l).unacked = []) ∧
    (s.m.answers (leStop l) 1 = true → s.m.regFld (leStop l) 1 0x40 0 1 = 1 → s.m.epnUp l = false → s.m.phase = .run →
      s.m.pair.relinks = [] →
      (s.m.pairState = 0 → bit (s.m.pairReg 0x80) 0 = false →
        ∃ t, exec (.epnisLinkUp l) s = .next (s.withM t) ∧ t.epnUp l = true ∧ t.pairState = 0) ∧
      (s.m.pairState = 3 → s.m.epnUp (1 - l) = true →
        ∃ t, exec (.epnisLinkUp l) s = .next (s.withM t) ∧ t.epnUp l = true ∧ t.pairState = 2)))) ∧
  ((∀ (s : State) (p : Nat), p < 2 → s.m.phase = .run → s.m.answers (leStop p) 2 = true →
    exec (.psenseFrameReceive p .badCrc) s = .next (s.withM (s.m.countReg (leStop p) 2 0x40 32 16 1)) ∧
    (∀ h, s.m.psup = true → ∃ t, exec (.psenseFrameReceive p (.heartbeat h)) s = .next (s.withM t) ∧ t.pair.seen[2 + p]? = some true ∧
      bit (t.reg (leStop p) 2 0x40) 0 = true ∧ bit (t.reg (leStop p) 2 0x40) 1 = h.leaving ∧ t.psup = true) ∧
    (∃ t, exec (.psenseFrameReceive p .leave) s = .next (s.withM t) ∧ t.pair.leftAt = some s.m.dt)) ∧
  (∀ (s : State), s.m.phase = .run →
    (s.m.pair.leaving = true → exec .heartbeatSend s = .next s) ∧
    (s.m.pair.leaving = false → ∃ t, exec .heartbeatSend s = .next (s.withM t) ∧
      ∀ l, l < 2 → (t.pair.link l).txNext = (s.m.pair.link l).txNext + if s.m.epnUp l then 1 else 0) ∧
    (s.m.pairState = 0 → (∀ l, l < 2 → s.m.regFld (leStop l) 2 0x40 8 8 < 19) → ∃ t, exec .heartbeatPeriodEnd s = .next (s.withM t) ∧ t.dt = (s.m.dt / 10000 + 1) * 10000 ∧
      t.pair.seen = [false, false, false, false] ∧
      t.pair.epMiss = if s.m.pair.seen[0]? = some true ∨ s.m.pair.seen[1]? = some true then 0 else s.m.pair.epMiss + 1) ∧
    (s.m.mirroring = true → s.m.pairId = true → s.m.fenceIn = false → s.m.pair.leftAt = none → s.m.pair.seen = [false, false, false, false] →
      9 ≤ s.m.pair.epMiss → 9 ≤ s.m.pair.psMiss → (∀ l, l < 2 → s.m.regFld (leStop l) 2 0x40 8 8 < 19) →
      ∃ t, exec .heartbeatPeriodEnd s = .next (s.withM t) ∧ t.phase = .caldera) ∧
    (∀ (path : Nat) (id : Bool), path < 4 →
      (id = s.m.pairId → exec (.fenceCommandReceive path id) s = .next (s.withM (s.m.countReg (leStop (path % 2)) 1 0x50 48 8 1))) ∧
      (id ≠ s.m.pairId → exec (.fenceCommandReceive path id) s = .next (s.withM (s.m.caldera 3 0 false false)))) ∧
    (∀ t0, s.m.pair.fenceAt = some t0 →
      let m1 : Mach := { s.m with dt := max s.m.dt (t0 + 1000) }
      (s.m.mirroring = true → exec .fenceInAsserted s = .next (s.withM (m1.sendOnLinks.takeoverBegin 2 true))) ∧
      (s.m.pairState = 0 → exec .fenceInAsserted s = .next (s.withM m1)))) ∧
  (∀ (s : State), ∃ t, exec (.fenceInNEdge true) s = .next (s.withM t) ∧ t.fenceIn = true ∧ t.pair.fenceAt = some s.m.dt) ∧
  (∀ (s : State), ∃ t, exec (.fenceInNEdge false) s = .next (s.withM t) ∧ t.fenceIn = false ∧ t.pair.fenceAt = none))

/-- The commands of EPN_PAIR_CTRL, the handshake, resynchronisation, raise and takeover (R425, R426, R429, R441 to R444, R447): a command
in a state without a rule for it is ignored with IGN; a handshake with an equal PAIR_ID, no common level or a takeover fails; the takeover
makes a standby's copies the queue's records, ACCEPTED with R, and ends in SOLO. -/
def Obligations.PairStates : Prop :=
  (∀ (s : State) (mst : Master) (e : Nat), e < 2 → s.m.Opens mst (leStop e) 1 0x88 →
    let ign := Host.Outcome.next (s.withM (s.m.setPairFld 14 1 1))
    let st := s.m.pairState
    (s.m.canJoin = true → ∃ t, exec (.pairJoin mst e) s = .next (s.withM t) ∧ t.pairState = 1 ∧ t.pair.shaken = false) ∧
    (s.m.canJoin = false → exec (.pairJoin mst e) s = ign) ∧
    (s.m.mirroring = true → exec (.pairFence mst e) s = .next (s.withM ((s.m.epnSend 0).setPair 5 false))) ∧
    (s.m.mirroring = false → exec (.pairFence mst e) s = ign) ∧
    (st = 2 → bit (s.m.pairReg 0x90) 3 = false → bit (s.m.pairReg 0x90) 4 = true → bit (s.m.pairReg 0x80) 1 = true →
      s.m.pair.raising = false → ∃ t, exec (.pairRaise mst e) s = .next (s.withM t) ∧ t.pair.raising = true ∧ t.pairState = 2) ∧
    (st ≠ 2 → exec (.pairRaise mst e) s = ign) ∧
    (st = 0 ∨ st = 5 → exec (.pairTakeoverCmd mst e 0x7A4E) s = .next (s.withM (s.m.takeoverBegin 3 false))) ∧
    (∀ key, st ≠ 0 ∧ st ≠ 5 ∨ key ≠ 0x7A4E → exec (.pairTakeoverCmd mst e key) s = ign)) ∧
  (∀ (s : State) (p : JoinInfo),
    (s.m.pairState ≠ 1 → exec (.joinHandshake p) s = .next s) ∧
    (s.m.pairState = 1 → s.m.pair.shaken = false →
      (p.id = s.m.pairId → exec (.joinHandshake p) s = .next (s.withM (s.m.joinFail 1))) ∧
      (p.id ≠ s.m.pairId → p.level = none → exec (.joinHandshake p) s = .next (s.withM (s.m.joinFail 2))) ∧
      (∀ l, p.id ≠ s.m.pairId → p.level = some l → p.takeover = true → exec (.joinHandshake p) s = .next (s.withM (s.m.joinFail 3))) ∧
      (∀ l, p.id ≠ s.m.pairId → p.level = some l → p.takeover = false →
        exec (.joinHandshake p) s = .next (s.withM (s.m.joinWith p (l && bit (s.m.pairReg 0x80) 1)))))) ∧
  (∀ (s : State), s.m.pairState = 1 → s.m.pair.shaken = true →
    (s.m.linksUp = 2 → ∃ t, exec .resyncComplete s = .next (s.withM t) ∧ t.pairState = 2) ∧
    (s.m.linksUp = 1 → ∃ t, exec .resyncComplete s = .next (s.withM t) ∧ t.pairState = 3)) ∧
  (∀ (s : State),
    (s.m.pair.raising = false → exec .raiseTimeout s = .next s) ∧
    (s.m.pair.raising = true → (∀ p ∈ s.m.cores, p.2.put = none) → exec .raiseTimeout s = .next (s.withM
      ((s.m.modPair (fun p => { p with raising := false, partnerQuiet := false })).setPairFld 13 1 1)))) ∧
  (∀ (s : State),
    (s.m.pairState ≠ 4 → exec .takeover s = .next s) ∧
    (s.m.pairState = 4 → s.m.phase = .run → fld (s.m.pairReg 0x90) 8 2 ≠ 3 → exec .takeover s = .next (s.withM
      ((s.m.queues.foldl (fun (acc : Mach) p => if s.m.primary p.1 = false ∧ p.2.mirrored = true ∧ p.2.mir = true
        then acc.takeQueue p.1 else acc) s.m).setPair 0 false)))) ∧
  (∀ (m : Mach) (q : Nat), ((m.takeQueue q).queue q).recs = (m.queue q).copies.map (fun r =>
      { r with st := .accepted, flags := r.flags ||| 2, partner := .none, marker := .none }) ∧
    ((m.takeQueue q).queue q).copies = [] ∧ (m.takeQueue q).primary q = true)

/-- Mirroring (R394, R427, R430, R431, R433 to R435, R444, R450, R466): a standby takes a record that is next in order and drops the copies
up to a marker; an acknowledgement ends a record's wait; a forwarded write is taken by an enabled IN entry; mirror-window entries and roles
are written where the rules let them be. -/
def Obligations.MirrorTraffic : Prop :=
  (∀ (s : State) (q n : Nat) (r : MirRec),
    (s.m.standsBy q = false → (exec (.mirroredRecordReceive q n r false) s = .next s ∧ exec (.releaseMarkerReceive q n) s = .next s ∧
      exec (.dropMarkerReceive q) s = .next s ∧ exec (.partnerCopyRead q n) s = .next s)) ∧
    (s.m.standsBy q = true →
      (s.m.linkSeq q n ≠ (s.m.queue q).expected → exec (.mirroredRecordReceive q n r false) s = .next s) ∧
      (s.m.linkSeq q n = (s.m.queue q).expected → (s.m.engine (q / 2048)).journal.length < s.m.jSize (q / 2048) → r.data.length ≤ 192 →
        ∃ (t : Mach) (y : LRec), exec (.mirroredRecordReceive q n r false) s = .next (s.withM t) ∧
          (t.queue q).copies = (s.m.queue q).copies ++ [y] ∧ y.seq = s.m.linkSeq q n ∧ y.data = r.data ∧ y.st = .accepted ∧
          (t.queue q).expected = (s.m.linkSeq q n + 1) % 2 ^ 48) ∧
      (∃ t, exec (.releaseMarkerReceive q n) s = .next (s.withM t) ∧ (t.queue q).relAt = (s.m.linkSeq q n + 1) % 2 ^ 48 ∧
        (t.queue q).copies = (s.m.queue q).copies.filter (fun r => ! seqLe r.seq (s.m.linkSeq q n))) ∧
      (∃ t, exec (.dropMarkerReceive q) s = .next (s.withM t) ∧ (t.queue q).copies = [] ∧ (t.queue q).expected = 0) ∧
      ((∃ y ∈ (s.m.queue q).copies, y.seq = n) → exec (.partnerCopyRead q n) s = .next (s.withM (s.m.epnSend (q / 2048)))))) ∧
  (∀ (s : State) (q n : Nat) (r : LRec), s.m.pair.raising = false →
    (s.m.mirroring = false → ∀ a, exec (.mirrorAckReceive a) s = .next s) ∧
    (s.m.mirroring = true → (s.m.queue q).rec? n = some r → r.partner = .awaited → exec (.mirrorAckReceive (.record q n)) s =
      .next (s.withM ((s.m.modRec q n (fun r => { r with partner := .here })).countUncore (queueStop q) (.plain 0x266) 1)))) ∧
  (∀ (s : State) (l line mask poison : Nat) (data : List W64), l < 2 → s.m.phase = .run → s.m.mirroring = true →
    let held := ∃ p ∈ s.m.mirWins, p.2.en = true ∧ p.2.out = false ∧ p.2.lbase ≤ line * 64 ∧ line * 64 < p.2.llimit
    (held → exec (.forwardedWriteReceive l line mask data poison) s =
      .next (s.withM ((s.m.homeBytes (leStop l) 0x3F none line mask data poison).epnSend l))) ∧
    (¬ held → exec (.forwardedWriteReceive l line mask data poison) s = .next (s.withM (s.m.epnSend l)))) ∧
  (∀ (s : State) (mst : Master) (e : Nat), e < 2 → s.m.Opens mst (leStop e) 1 0x208 →
    let i := s.m.regFld (leStop 0) 1 0x200 0 6
    let w := winOf (s.m.reg (leStop 0) 1 0x210) (s.m.reg (leStop 0) 1 0x218) (s.m.reg (leStop 0) 1 0x220)
    let err := fun (k : Nat) => Host.Outcome.next (s.withM (s.m.setReg (leStop 0) 1 0x208 (setBit (setFld 0 8 4 k) 62 true)))
    exec (.epnMwRead mst e false) s = err 1 ∧ exec (.epnMwWrite mst e false) s = err 1 ∧
    (∃ t, exec (.epnMwRead mst e true) s = .next (s.withM t) ∧ bit (t.reg (leStop 0) 1 0x210) 0 = (s.m.mirWin i).en ∧
      bit (t.reg (leStop 0) 1 0x210) 1 = ! (s.m.mirWin i).out) ∧
    (s.m.mwWhy i true w ≠ 0 → exec (.epnMwWrite mst e true) s = err (s.m.mwWhy i true w)) ∧
    (s.m.mwWhy i true w = 0 → w.en = false → ∃ t, exec (.epnMwWrite mst e true) s = .next (s.withM t) ∧
      t.mirWin i = { w with en := false, st := 0 }) ∧
    (s.m.mwWhy i true w = 0 → w.en = true → w.out = true → ∃ t, exec (.epnMwWrite mst e true) s = .next (s.withM t) ∧
      t.mirWin i = { w with en := true, st := if s.m.pairState = 0 ∨ s.m.pairState = 5 then 1 else 2 })) ∧
  (∀ (s : State) (mst : Master) (e n : Nat) (v : W64), e < 2 → n < 32 → s.m.Opens mst (leStop e) 1 (0x100 + 8 * n) →
    (s.m.pairState ≠ 0 → s.m.pairState ≠ 5 → exec (.epnRoleWrite mst e n v) s = .next (s.withM (s.m.setPairFld 14 1 1))) ∧
    (s.m.pairState = 0 ∨ s.m.pairState = 5 → ∃ t, exec (.epnRoleWrite mst e n v) s = .next (s.withM t) ∧ ∀ i, i < 64 →
      t.primary (e * 2048 + 64 * n + i) =
        if (s.m.queue (e * 2048 + 64 * n + i)).st = 0 then bit v i else s.m.primary (e * 2048 + 64 * n + i)))

/-! ### Translations and the secure world -/

/-- XL_INV and XL_G_S1 (R212, R221, R222): an invalidation leaves no selected translation in any core; a guest's acts on the guest world's
translations of its own VMID. A guest context takes a new stage-1 root. -/
def Obligations.TranslationCommands : Prop :=
  (∀ (s : State) (mst : Master) (c : Nat) (v : W64), CoreOpens s.m mst c 0x1B8 →
    let page := fld (s.m.coreReg c 0x1B0) 12 36 * 4096
    (mst.world = .guest → exec (.xlInvWrite mst c v) s = .next (s.withM
      (s.m.tlbInvalidate (if fld v 0 3 = 0 then 1 else fld v 0 3) .guest mst.vmid (fld v 15 16) page))) ∧
    (∀ w, mst.world ≠ .guest → World.ofCode (fld v 3 2) = some w → w ≠ .secure ∨ mst.world = .secure ∨ mst.sytum = true →
      exec (.xlInvWrite mst c v) s = .next (s.withM (s.m.tlbInvalidate (fld v 0 3) w (fld v 5 10) (fld v 15 16) page)))) ∧
  (∀ (m : Mach) (scope vmid asid page : Nat) (w : World) (c : Nat), ∀ e ∈ ((m.tlbInvalidate scope w vmid asid page).core c).tlb,
    e.selected scope w vmid asid page = false) ∧
  (∀ (s : State) (mst : Master) (c : Nat) (v : W64), CoreOpens s.m mst c 0x198 →
    ((s.m.core c).world ≠ .guest → exec (.xlGS1Write mst c v) s = .next s) ∧
    ((s.m.core c).world = .guest → bit (s.m.coreReg c 0x190) 0 = false → exec (.xlGS1Write mst c v) s =
      .next (s.withM (s.m.setCore c { s.m.core c with s1 := v &&& 0x00FFFF0FFFFFFFFF }))))

/-- The secure world (R225, R229 to R231): a kick and a restart request count from the SECURE world alone; an expired watchdog, a request
and a hold time that ends while the world runs are triggers 1, 4 and 3; a write of the hold set lets go the deferred requests of the domains
that it no longer holds; a restart scrubs the carve-outs and ends FAILED where the image does not verify. -/
def Obligations.SecureWorld : Prop :=
  (∀ (s : State),
    let w := s.m.regFld 0 0 0x710 16 10
    let live := w ≠ 0 ∧ s.m.regFld 0 0 0x700 0 3 = 2
    (live → exec .secWatchdogExpire s =
      .next (s.withM (Mach.secTrigger { s.m with dt := max s.m.dt (s.m.kickAt + w * 1000000) } 1))) ∧
    (¬ live → exec .secWatchdogExpire s = .next s)) ∧
  (∀ (s : State) (mst : Master), s.m.Opens mst 0 0 0x708 →
    (mst.world = .secure → exec (.kick mst) s = .next (s.withM { s.m with kickAt := s.m.dt }) ∧
      exec (.secRestartRequest mst) s = .next (s.withM (s.m.secTrigger 4))) ∧
    (mst.world ≠ .secure → exec (.kick mst) s = .next s ∧ exec (.secRestartRequest mst) s = .next s)) ∧
  (∀ (m : Mach) (k : Nat),
    (m.secTrig.isSome = true → m.secTrigger k = m.countReg 0 0 0x700 32 16 1) ∧
    (m.secTrig = none → m.regFld 0 0 0x700 0 3 = 1 ∨ m.regFld 0 0 0x700 0 3 = 2 → (m.secTrigger k).secTrig = some k) ∧
    (m.secTrig = none → m.regFld 0 0 0x700 0 3 ≠ 1 → m.regFld 0 0 0x700 0 3 ≠ 2 → m.secTrigger k = m)) ∧
  (∀ (s : State) (mst : Master) (v : W64), s.m.Opens mst 0 0 0x718 →
    (mst.world ≠ .secure → mst.sytum = false → exec (.secHoldWrite mst v) s = .next s) ∧
    (mst.world = .secure → ∃ t, exec (.secHoldWrite mst v) s = .next (s.withM t) ∧ t.reg 0 0 0x718 = setFld 0 0 49 (fld v 0 49) ∧
      (∀ q ∈ t.power.deferred, bit v q.dom = true) ∧ (∀ q ∈ s.m.power.deferred, bit v q.dom = false → q ∈ t.power.queue))) ∧
  (∀ (s : State) (d : Nat),
    let m1 : Mach := { s.m with dt := max s.m.dt (Tab.get 0 s.m.holdAt d + s.m.regFld 0 0 0x710 0 10 * 1000000) }
    (s.m.secHeld d = false → exec (.secHoldTimeout d) s = .next s) ∧
    (s.m.secHeld d = true → (∃ q ∈ s.m.power.deferred, q.dom = d) →
      (s.m.regFld 0 0 0x700 0 3 = 0 ∨ s.m.regFld 0 0 0x700 0 3 = 4 →
        exec (.secHoldTimeout d) s = .next (s.withM (m1.releaseDeferred (fun _ => true)))) ∧
      (s.m.regFld 0 0 0x700 0 3 = 2 → exec (.secHoldTimeout d) s = .next (s.withM (m1.secTrigger 3))))) ∧
  (∀ (s : State) (img : SecIn),
    let m1 := Mach.scrub { s.m.forceAllOut with secTrig := none }
    (s.m.secTrig = none → exec (.secureRestart img) s = .next s) ∧
    (s.m.secTrig.isSome = true → s.m.phase = .run →
      (img.sigOk = true → exec (.secureRestart img) s = .next (s.withM ((m1.secBring img).releaseDeferred (fun _ => true)))) ∧
      (img.sigOk = false → exec (.secureRestart img) s =
        .next (s.withM ((m1.secFail.raiseOwn 0 8 none).releaseDeferred (fun _ => true)))))) ∧
  (∀ (m : Mach) (a : Nat), inRanges m.carveOuts a = true → m.scrub.byte a = 0)

/-! ### Power, temperature and device time -/

/-- Power requests (R229, R518 to R521): a bad request is answered BADREQ, one of a full queue FULL, one that takes power from a held domain is
deferred, any other joins the queue with the next ticket; the controller turns domains on and off, refuses an OFF of a block that is not
quiesced, and a supply that fails leaves its domain FAILED. -/
def Obligations.PowerRequests : Prop :=
  (∀ (s : State) (mst : Master) (dom mhz : Nat), s.m.Opens mst 0 1 0x50 →
    ∀ p ∈ [(Instr.pmOn mst dom, 1, 0), (.pmOff mst dom, 2, 0), (.pmFreq mst dom mhz, 3, mhz)],
      let tk := (s.m.regFld 0 1 0x58 0 16 + 1) % 65536
      let q : PmReq := ⟨tk, p.2.1, dom, p.2.2⟩
      (s.m.badPm p.2.1 dom p.2.2 = true → exec p.1 s = .next (s.withM (s.m.pmAnswer 3))) ∧
      (s.m.badPm p.2.1 dom p.2.2 = false → p.2.1 = 1 ∨ s.m.secHeld dom = false ∨ mst.world = .secure ∨ mst.sytum = true →
        (16 ≤ s.m.power.queue.length → exec p.1 s = .next (s.withM (s.m.pmAnswer 2))) ∧
        (s.m.power.queue.length < 16 → ∃ t, exec p.1 s = .next (s.withM t) ∧ t.power.queue = s.m.power.queue ++ [q] ∧
          fld (t.reg 0 1 0x58) 0 16 = tk ∧ fld (t.reg 0 1 0x58) 16 3 = 0)) ∧
      (s.m.badPm p.2.1 dom p.2.2 = false → p.2.1 ≠ 1 → s.m.secHeld dom = true → mst.world ≠ .secure → mst.sytum = false →
        ∃ t, exec p.1 s = .next (s.withM t) ∧ t.power.deferred = s.m.power.deferred ++ [q] ∧ t.power.queue = s.m.power.queue ∧
          fld (t.reg 0 1 0x58) 16 3 = 1)) ∧
  (∀ (s : State) (d : Nat) (known : List (Nat × List W64)), s.m.phase = .run →
    (s.m.pmNext d = none → exec (.powerRequestExecute d known) s = .next s) ∧
    (∀ q, s.m.pmNext d = some q →
      (q.op = 3 → exec (.powerRequestExecute d known) s =
        .next (s.withM ((s.m.setRegFld 0 1 (0x100 + 8 * d) 32 12 q.mhz).pmDone q 5))) ∧
      (q.op = 1 → s.m.domState d = 1 → exec (.powerRequestExecute d known) s = .next (s.withM (s.m.pmDone q 5))) ∧
      (q.op = 1 → s.m.domState d ≠ 1 → exec (.powerRequestExecute d known) s = .next (s.withM ((s.m.domOn d).pmDone q 5))) ∧
      (q.op = 2 → s.m.domState d = 1 → (s.m.blk (domStop d) 0).quiesce = false →
        exec (.powerRequestExecute d known) s = .next (s.withM (s.m.pmDone q 4))) ∧
      (q.op = 2 → s.m.domState d = 1 → (s.m.blk (domStop d) 0).quiesce = true →
        exec (.powerRequestExecute d known) s = .next (s.withM ((s.m.domOff d 0 false known).pmDone q 5))))) ∧
  (∀ (m : Mach) (q : PmReq) (k : Nat), q ∉ (m.pmDone q k).power.queue ∧ fld ((m.pmDone q k).domReg q.dom) 4 3 = k % 8 ∧
    fld ((m.pmDone q k).domReg q.dom) 16 16 = q.ticket % 65536) ∧
  (∀ (m : Mach) (d : Nat), d < 49 → (m.domOn d).domState d = 1) ∧
  (∀ (s : State) (d : Nat) (known : List (Nat × List W64)), d < 49 → s.m.phase ≠ .reset →
    (s.m.domState d = 4 → exec (.supplyFailure d known) s = .next s) ∧
    (s.m.domState d = 1 → exec (.supplyFailure d known) s =
      .next (s.withM ((s.m.domOff d 3 true known).raiseOwn 0 6 none))))

/-- Operating points and temperature (R522 to R526): the granted frequency is the lowest of the limits and at least 1.0 GHz; the cap falls by
100 MHz above 98 % of the power limit; the thermal ceiling falls by 100 MHz while a sensor reads above THROT; a trip is shown until
power-on.
Device time (R511 to R514): steps and sets, rates in range, PPS edges, whole seconds, holdover, and the output pulse. -/
def Obligations.PowerLimitsAndTime : Prop :=
  ((∀ (s : State) (p : Nat), p < 36 → s.m.domState p = 1 → ∃ t, exec (.freqChangeComplete p) s = .next (s.withM t) ∧
    fld (t.reg (podStop p) 0 0x48) 16 16 = s.m.granted p) ∧
  (∀ (m : Mach) (p : Nat), 1000 ≤ m.granted p ∧ m.granted p ≤ 3400 ∧ (1000 ≤ m.regFld 0 1 0x48 16 12 → m.granted p ≤ m.regFld 0 1 0x48 16 12)) ∧
  (∀ (s : State) (mw : Nat), s.m.phase = .run →
    let lim := s.m.powerLimit * 1000
    let cap := s.m.regFld 0 1 0x48 16 12
    ∃ t, exec (.powerCapTick mw) s = .next (s.withM t) ∧ fld (t.reg 0 1 0x48) 0 10 = min (mw / 1000) 1023 ∧
      (lim * 98 < mw * 100 → fld (t.reg 0 1 0x48) 16 12 = max 1000 (cap - 100)) ∧
      (lim * 95 ≤ mw * 100 → mw * 100 ≤ lim * 98 → fld (t.reg 0 1 0x48) 16 12 = cap) ∧
      (mw * 100 < lim * 95 → 9 ≤ s.m.power.below → fld (t.reg 0 1 0x48) 16 12 = min 3400 (cap + 100))) ∧
  (∀ (s : State) (mst : Master) (w : Nat), w < 1024 → s.m.Opens mst 0 1 0x40 →
    (s.m.limitOk w = true → exec (.pmPlimitWrite mst w) s = .next (s.withM { s.m.setRegFld 0 1 0x40 0 10 w with
      power := { s.m.power with limits := s.m.power.limits ++ [(s.m.regFld 0 1 0x40 0 10, 10)] } })) ∧
    (s.m.limitOk w = false → exec (.pmPlimitWrite mst w) s = .next (s.withM (s.m.setRegBit 0 1 0x48 12 true)))) ∧
  (∀ (s : State) (st : Nat) (x : Int), st < 56 → ∃ t, exec (.thermalSample [(st, x)]) s = .next (s.withM t) ∧
    t.tempOf st = (BitVec.ofInt 12 x).toNat ∧ fld (t.reg 0 8 0x48) 0 12 = t.hottest.2 % 4096 ∧
    (t.tooHot = true → fld (t.reg 0 8 0x48) 32 12 = max 1000 (s.m.regFld 0 8 0x48 32 12 - 100))) ∧
  (∀ (s : State), exec .thermalTrip s = .next (s.withM ((s.m.setRegBit 0 8 0x48 19 true).raiseOwn 0 4 none))) ∧
  (∀ (s : State),
    (bit (s.m.reg 0 8 0x48) 19 = false → exec .integratedRegulatorsOff s = .next s) ∧
    (bit (s.m.reg 0 8 0x48) 19 = true → ∃ t, exec .integratedRegulatorsOff s = .next (s.withM t) ∧ t.regsOff = true ∧ t.phase = .reset ∧
      ∀ c, (t.core c).st = .off))) ∧
  ((∀ (s : State) (mst : Master) (v : W64), (∀ p ∈ s.m.cores, p.2.put = none) →
    (s.m.Opens mst 0 4 0x60 → ∃ t, exec (.dtStep mst v) s = .next (s.withM t) ∧ t.dt = (s.m.dt + fld v 0 32) % 2 ^ 64) ∧
    (s.m.Opens mst 0 4 0x68 → ∃ t, exec (.dtSet mst v) s = .next (s.withM t) ∧ t.dt = v.toNat)) ∧
  (∀ (s : State) (mst : Master) (v : W64), s.m.Opens mst 0 4 0x58 →
    let r := (BitVec.ofNat 32 (fld v 0 32)).toInt
    (s.m.dtSrc = 0 → -2147484 ≤ r → r ≤ 2147484 → exec (.dtRateWrite mst v) s =
      .next (s.withM (s.m.setReg 0 4 0x58 (setFld 0 0 32 (fld v 0 32))))) ∧
    (s.m.dtSrc = 2 ∨ r < -2147484 ∨ 2147484 < r → exec (.dtRateWrite mst v) s = .next (s.withM (s.m.setRegBit 0 4 0x48 3 true)))) ∧
  (∀ (s : State) (t0 : Nat),
    let e := secErr ((t0 * 16 - fld (s.m.reg 0 4 0x78) 0 16) / 16)
    (s.m.dtSrc ≠ 2 → exec (.ppsInEdge t0) s = .next (s.withM { s.m with dt := max s.m.dt t0 })) ∧
    (s.m.dtSrc = 2 → (∃ l, s.m.ppsLast = some l ∧ (t0 < l + 999000000 ∨ l + 1001000000 < t0)) →
      exec (.ppsInEdge t0) s = .next (s.withM (Mach.countReg { s.m with dt := max s.m.dt t0 } 0 4 0x48 16 16 1))) ∧
    (s.m.dtSrc = 2 → s.m.ppsLast = none → e.natAbs ≤ 1000000 → ∃ t, exec (.ppsInEdge t0) s = .next (s.withM t) ∧ t.ppsLast = some t0 ∧
      t.dt = max s.m.dt t0 ∧ bit (t.reg 0 4 0x48) 1 = false ∧ fld (t.reg 0 4 0x48) 32 32 = (BitVec.ofInt 32 e).toNat ∧
      -2147484 ≤ t.dtRate ∧ t.dtRate ≤ 2147484)) ∧
  (∀ (s : State), ∃ t, exec .dtPps s = .next (s.withM t) ∧ t.dt = (s.m.dt / 1000000000 + 1) * 1000000000 ∧
    (bit (s.m.reg 0 4 0x40) 2 = true → t.ppsOut = some t.dt)) ∧
  (∀ (s : State),
    (s.m.dtSrc = 0 ∨ bit (s.m.reg 0 4 0x48) 1 = true → exec .dtHoldover s = .next s) ∧
    (s.m.dtSrc ≠ 0 → bit (s.m.reg 0 4 0x48) 1 = false → ∃ t, exec .dtHoldover s = .next (s.withM t) ∧ bit (t.reg 0 4 0x48) 1 = true ∧
      bit (t.reg 0 4 0x48) 0 = false)) ∧
  (∀ (s : State),
    (s.m.ppsOut = none → exec .ppsOutPulseEnd s = .next s) ∧
    (∀ t0, s.m.ppsOut = some t0 → exec .ppsOutPulseEnd s =
      .next (s.withM { s.m with dt := max s.m.dt (t0 + s.m.regFld 0 4 0x40 8 10 * 1000000), ppsOut := none }))))

/-! ### Host I/O -/

/-- Device requests (R481 to R485, R487): a request of a halted requester is counted and dropped; an MSI raises its event; a request without a
usable context, grant or translation is refused by rule; one that passes acts on the pieces of its range. Commands of the DMA translation drop
cached lists and resume requesters whose cause is cleared. -/
def Obligations.DeviceRequests : Prop :=
  (∀ (s : State) (h : Nat) (q : DmaReq), h < 2 → s.m.hioTakes h = true → q.port < 16 → q.len ≠ 0 →
    let halted := (s.m.hio h).halted.contains q.rid
    let ws := s.m.dmaCtx h q.rid
    let l := (s.m.dmaList h q.rid ws).1
    let m1 := (s.m.dmaList h q.rid ws).2
    let wd := (ctxRegime ws).world
    let ps := pagePieces q.addr q.len (q.len / 4096 + 2)
    let need : Need := ⟨! q.write, q.write, false⟩
    (halted = true → exec (.dmaRequest h q) s = .next (s.withM
      (s.m.dmaCount h q .host))) ∧
    (halted = false → s.m.isMsi h q = true →
      let v := s.m.rpReg (16 * h + q.port) 0x68
      let d := ((q.data[0]?).getD 0).toNat % 64
      (d < fld v 58 6 → exec (.dmaRequest h q) s = .next (s.withM (s.m.raiseAssigned (fld v 48 10 + d)))) ∧
      (fld v 58 6 ≤ d → exec (.dmaRequest h q) s = .next (s.withM (s.m.countReg (hioStop h) (q.port + 1) 0x48 48 16 1)))) ∧
    (halted = false → s.m.isMsi h q = false → s.m.ctxOk h q.rid = false → exec (.dmaRequest h q) s = .next (s.withM (s.m.dmaRefuse h q .host .cap))) ∧
    (halted = false → s.m.isMsi h q = false → s.m.ctxOk h q.rid = true →
      ((∀ x ∈ l, m1.listWord ws q x = none) → exec (.dmaRequest h q) s = .next (s.withM (m1.dmaRefuse h q wd .cap))) ∧
      (∀ g, l.findSome? (fun x => m1.listWord ws q x) = some g →
        (m1.dmaColour (ctxRegime ws) g.colour ps = true → exec (.dmaRequest h q) s = .next (s.withM (m1.dmaRefuse h q wd .cap))) ∧
        (m1.dmaColour (ctxRegime ws) g.colour ps = false →
          (m1.dmaWalk (ctxRegime ws) need ps = none → exec (.dmaRequest h q) s = .next (s.withM (m1.dmaRefuse h q wd .xlate))) ∧
          (∀ pa n m2, m1.dmaWalk (ctxRegime ws) need ps = some ([(pa, n)], m2) → m2.carveOf pa = none → m2.locate pa = .dram →
            let m3 := m2.countUncore (hioStop h) ⟨if q.write then 0x2A1 else 0x2A0, wd, some 2, some (hioStop h, q.port), some pa⟩ 1
            (q.write = true → exec (.dmaRequest h q) s =
              .next (s.withM (m3.devWrite (hioStop h) q.port wd pa (q.data.take n) q.ep))) ∧
            (q.write = false → exec (.dmaRequest h q) s = .next (s.withM (m3.devRead h q wd (pa, n))))))))) ∧
  (∀ (s : State) (mst : Master) (h : Nat), h < 2 →
    (∀ v, s.m.Opens mst (hioStop h) 0x11 0x48 → ∃ t, exec (.dmatInv mst h v) s = .next (s.withM t) ∧
      (t.hio h).lists = (if bit v 0 then (s.m.hio h).lists.filter (fun p => decide (p.1 ≠ fld v 16 16)) else []) ∧
      (t.hio h).halted = (s.m.hio h).halted) ∧
    (∀ rid, s.m.Opens mst (hioStop h) 0x11 0x68 →
      ((∃ p ∈ (s.m.hio h).recs, p.2.rid = rid ∧ p.2.cause = true) → exec (.dmatResume mst h rid) s = .next s) ∧
      ((∀ p ∈ (s.m.hio h).recs, p.2.rid = rid → p.2.cause = false) → ∃ t, exec (.dmatResume mst h rid) s = .next (s.withM t) ∧
        rid ∉ (t.hio h).halted ∧ ∀ p ∈ (t.hio h).recs, p.2.rid ≠ rid)) ∧
    (s.m.Opens mst (hioStop h) 0 0x48 →
      ((s.m.blk (hioStop h) 0).quiesce = false → exec (.hioReset mst h) s = .next s) ∧
      ((s.m.blk (hioStop h) 0).quiesce = true → exec (.hioReset mst h) s = .next (s.withM (s.m.hioReset h)))))

/-- Root ports (R474 to R479): links come up with what they trained to and go down; a configuration request goes out where its bus lies behind
a port whose link is up, and is answered with all ones where it does not; completions end a core's wait, and a lost read is counted and
returns all ones, poisoned. -/
def Obligations.RootPorts : Prop :=
  (∀ (s : State) (r : Nat), r < 32 → s.m.answers (rpStop r) (rpWin r) = true →
    (∀ x, bit (s.m.rpReg r 0x48) 0 = false → ∃ t, exec (.rpLinkChange r (some x)) s = .next (s.withM t) ∧ bit (t.rpReg r 0x48) 0 = true ∧
      fld (t.rpReg r 0x48) 1 2 = x.rate % 4 ∧ fld (t.rpReg r 0x48) 5 5 = x.width % 32) ∧
    (bit (s.m.rpReg r 0x48) 0 = false → exec (.rpLinkChange r none) s = .next s) ∧
    (bit (s.m.rpReg r 0x48) 0 = true → s.m.cfgReqs = [] → (∀ c, (s.m.core c).rpWait = none) →
      ∃ t, exec (.rpLinkChange r none) s = .next (s.withM t) ∧ bit (t.rpReg r 0x48) 0 = false ∧ bit (t.rpReg r 0x48) 11 = true)) ∧
  (∀ (s : State) (mst : Master) (r data : Nat), r < 32 → s.m.Opens mst (rpStop r) (rpWin r) 0x60 →
    let bus := fld (s.m.rpReg r 0x58) 20 8
    let sec := fld (s.m.rpReg r 0x40) 32 8
    let behind := bus = sec ∨ (sec < bus ∧ bus ≤ fld (s.m.rpReg r 0x40) 40 8)
    (behind → bit (s.m.rpReg r 0x48) 0 = true →
      exec (.rpCfgAccess mst r true data) s = .next (s.withM { s.m with cfgReqs := s.m.cfgReqs ++
        [⟨r, mst.stop, mst.unit, true, decide (bus ≠ sec), fld (s.m.rpReg r 0x58) 2 26, data % 2 ^ 32, s.m.dt⟩] }) ∧
      exec (.rpCfgAccess mst r false data) s = .next (s.withM { s.m with cfgReqs := s.m.cfgReqs ++
        [⟨r, mst.stop, mst.unit, false, decide (bus ≠ sec), fld (s.m.rpReg r 0x58) 2 26, 0, s.m.dt⟩] })) ∧
    (¬ behind ∨ bit (s.m.rpReg r 0x48) 0 = false →
      exec (.rpCfgAccess mst r false data) s = .next (s.withM (s.m.setReg (rpStop r) (rpWin r) 0x60 0xFFFFFFFF)) ∧
      exec (.rpCfgAccess mst r true data) s = .next s)) ∧
  (∀ (s : State) (mst : Master) (r : Nat), r < 32 → s.m.Opens mst (rpStop r) (rpWin r) 0x40 → exec (.hotrst mst r) s = .next s) ∧
  (∀ (s : State) (c r : Nat) (w : RpWait), r < 32 → (s.m.core c).rpWait = some w → s.m.rpOf c = some r → w.cfg = false →
    let lost := (s.m.countReg (rpStop r) (rpWin r) 0x48 32 16 1).rpFinish c (BitVec.allOnes 64) true
    exec (.completionTimeout c) s = .next (s.withM lost) ∧ exec (.rootPortCompletion r (.unsupported c)) s = .next (s.withM lost) ∧
    (∀ v poison, exec (.rootPortCompletion r (.read c v poison)) s = .next (s.withM (s.m.rpFinish c v poison)))) ∧
  (∀ (s : State) (c : Nat), (s.m.core c).rpWait = none → exec (.completionTimeout c) s = .next s) ∧
  (∀ (s : State) (r status data : Nat) (q : CfgReq), r < 32 → s.m.cfgReqs.find? (fun q => decide (q.rp = r)) = some q →
    (status = 0 → exec (.rootPortCompletion r (.config status data)) s = .next (s.withM (s.m.cfgAnswer q (data % 2 ^ 32)))) ∧
    (status = 1 → s.m.dt < q.issued + 1000000000 → exec (.rootPortCompletion r (.config status data)) s = .next s) ∧
    (status ≠ 0 → status ≠ 1 ∨ q.issued + 1000000000 ≤ s.m.dt →
      exec (.rootPortCompletion r (.config status data)) s = .next (s.withM (s.m.cfgAnswer q 0xFFFFFFFF))))

/-! ### Management -/

/-- The flash controller (R490): a command that a rule refuses answers the rule's code and does nothing; a read puts the flash's bytes in the
buffer, an erase leaves ones, a program ends with the bytes asked for where it only clears bits; an error of the flash answers 4. -/
def Obligations.FlashCommands : Prop :=
  ∀ (s : State) (mst : Master) (len : Nat) (err : Bool), s.m.Opens mst 0 5 0x48 →
    let a := s.m.flashAddr
    let answer := fun (n : Nat) => Host.Outcome.next (s.withM (s.m.setReg 0 5 0x48 (setFld 0 36 3 n)))
    let m1 := s.m.setReg 0 5 0x48 0
    (s.m.xspiWhy 1 len ≠ 0 → exec (.xspiRead mst len err) s = answer (s.m.xspiWhy 1 len)) ∧
    (s.m.xspiWhy 2 len ≠ 0 → exec (.xspiProgram mst len err) s = answer (s.m.xspiWhy 2 len)) ∧
    (s.m.xspiWhy 3 0 ≠ 0 → exec (.xspiErase4k mst err) s = answer (s.m.xspiWhy 3 0)) ∧
    (s.m.xspiWhy 4 0 ≠ 0 → exec (.xspiErase64k mst err) s = answer (s.m.xspiWhy 4 0)) ∧
    (s.m.xspiWhy 1 len = 0 → exec (.xspiRead mst len false) s =
      .next (s.withM (m1.devWrite 0 0x3F .host s.m.flashBuf ((List.range len).map (fun i => s.m.flashAt (a + i))) false))) ∧
    (s.m.xspiWhy 2 len = 0 → ∃ t, exec (.xspiProgram mst len false) s = .next (s.withM t) ∧ t.reg 0 5 0x48 = 0 ∧ t.mem = s.m.mem ∧
      ∀ i, i < len → s.m.flashAt (a + i) &&& s.m.byte (s.m.flashBuf + i) = s.m.byte (s.m.flashBuf + i) →
        t.flashAt (a + i) = s.m.byte (s.m.flashBuf + i)) ∧
    (s.m.xspiWhy 3 0 = 0 → ∃ t, exec (.xspiErase4k mst false) s = .next (s.withM t) ∧
      (∀ i, i < 0x1000 → t.flashAt (a + i) = 0xFF) ∧ ∀ b, b < a ∨ a + 0x1000 ≤ b → t.flashAt b = s.m.flashAt b) ∧
    (s.m.xspiWhy 4 0 = 0 → ∃ t, exec (.xspiErase64k mst false) s = .next (s.withM t) ∧
      (∀ i, i < 0x10000 → t.flashAt (a + i) = 0xFF) ∧ ∀ b, b < a ∨ a + 0x10000 ≤ b → t.flashAt b = s.m.flashAt b) ∧
    (s.m.xspiWhy 3 0 = 0 → ∃ t, exec (.xspiErase4k mst true) s = .next (s.withM t) ∧ fld (t.reg 0 5 0x48) 36 3 = 4)

/-- The commands of R493 with their codes and request bytes. -/
def mailboxTable : List (Instr × Nat × Nat) :=
  [(.getStatus, 0x01, 0), (.getFe, 0x02, 0), (.getPend, 0x03, 0), (.getBootlog, 0x04, 1), (.readReg, 0x05, 8), (.clearFe, 0x10, 0),
   (.setPlimit, 0x11, 2), (.chipReset, 0x12, 2), (.caldera, 0x13, 2)]

/-- Request `code` with `n` bytes is under way and allowed. -/
def MailboxAsked (m : Mach) (code n : Nat) : Prop :=
  m.mbx.busy = true ∧ m.mbx.cmd = code ∧ m.phase = .run ∧ m.mbxAllowed code = true ∧ ∀ i, i < n → (m.mbx.req.lookup (0x10 + i)).isSome = true

/-- The mailbox (R491 to R493): a known command byte begins a request and an unknown one completes with result 1; a request that is not allowed
answers 3, one whose bytes are missing 2; any other completes with its data, or with its effect. -/
def Obligations.MailboxCommands : Prop :=
  (∀ (s : State), ∀ p ∈ mailboxTable,
    (s.m.mbx.busy = false ∨ s.m.mbx.cmd ≠ p.2.1 → exec p.1 s = .next s) ∧
    (s.m.mbx.busy = true → s.m.mbx.cmd = p.2.1 → s.m.phase = .run →
      (s.m.mbxAllowed p.2.1 = false → exec p.1 s = .next (s.withM (s.m.mbxDone 3 []))) ∧
      (∀ i, s.m.mbxAllowed p.2.1 = true → i < p.2.2 → s.m.mbx.req.lookup (0x10 + i) = none →
        exec p.1 s = .next (s.withM ((s.m.mbxDone 2 []).raiseOwn 0 12 none))))) ∧
  (∀ (s : State),
    (MailboxAsked s.m 0x01 0 → ∃ t, exec .getStatus s = .next (s.withM t) ∧ t.mbx.result = 0 ∧ t.mbx.rsp = rspWords
      [setFld 0 0 4 (fld s.m.bootStatus 0 4), s.m.fcStatus (bit s.m.fresh 0), BitVec.ofNat 64 s.m.pairState,
       setFld 0 0 3 (s.m.regFld 0 0 0x700 0 3), setFld 0 0 12 s.m.hottest.2, setFld 0 0 10 (s.m.regFld 0 1 0x48 0 10)]) ∧
    (MailboxAsked s.m 0x02 0 → exec .getFe s = .next (s.withM (s.m.mbxDone 0 (rspWords [s.m.reg 0 2 0x100, s.m.reg 0 2 0x108, s.m.reg 0 2 0x110,
      s.m.reg 0 2 0x118, s.m.reg 0 2 0x180, s.m.reg 0 2 0x190, s.m.reg 0 2 0x198])))) ∧
    (MailboxAsked s.m 0x03 0 → ∃ t, exec .getPend s = .next (s.withM t) ∧ t.mbx.rsp.length = 64 ∧ t.mbx.result = 0) ∧
    (MailboxAsked s.m 0x04 1 → ∃ t, exec .getBootlog s = .next (s.withM t) ∧ t.mbx.rsp.length = 128 ∧ t.mbx.result = 0) ∧
    (MailboxAsked s.m 0x05 8 → ∀ st k off, s.m.locate (s.m.mbxReq 8) = .window st k off → s.m.mbxReq 8 % 8 = 0 → s.m.answers st k = true →
      (∀ r, winBlk st k = some (.rp, r) → off ≠ 0x60) →
      exec .readReg s = .next (s.withM ((s.m.ctlRead mbxMaster st k off).2.mbxDone 0 (rspWords [(s.m.ctlRead mbxMaster st k off).1])))) ∧
    (MailboxAsked s.m 0x10 0 → exec .clearFe s = .next (s.withM (s.m.feClear.mbxDone 0 []))) ∧
    (MailboxAsked s.m 0x11 2 → s.m.limitOk (s.m.mbxReq 2) = true →
      exec .setPlimit s = .next (s.withM ((s.m.setRegFld 0 1 0x40 0 10 (s.m.mbxReq 2)).mbxDone 0 []))) ∧
    (MailboxAsked s.m 0x12 2 →
      (s.m.mbxReq 2 ≠ 0x5E7A → exec .chipReset s = .next (s.withM (s.m.mbxDone 4 []))) ∧
      (s.m.mbxReq 2 = 0x5E7A → s.m.warm = false → ∃ t, exec .chipReset s = .next (s.withM t) ∧ t.warm = true ∧ t.warmWhy = 2 ∧
        t.dt = s.m.dt + 1000000 ∧ t.mbx.done = true)) ∧
    (MailboxAsked s.m 0x13 2 →
      (s.m.mbxReq 2 ≠ 0xCA1D → exec .caldera s = .next (s.withM (s.m.mbxDone 4 []))) ∧
      (s.m.mbxReq 2 = 0xCA1D → exec .caldera s = .next (s.withM ((s.m.mbxDone 0 []).caldera 3 0 false false))))) ∧
  (∀ (m : Mach) (r : Nat) (bs : List (BitVec 8)), (m.mbxDone r bs).mbx.busy = false ∧ (m.mbxDone r bs).mbx.done = true ∧
    (m.mbxDone r bs).mbx.seq = m.mbx.seqin ∧ (m.mbxDone r bs).mbx.result = r ∧ (m.mbxDone r bs).mbx.rsp = bs) ∧
  (∀ (s : State) (b : BitVec 8), s.m.phase ≠ .reset → s.m.mbx.busy = false →
    (b.toNat ∈ [0x01, 0x02, 0x03, 0x04, 0x05, 0x10, 0x11, 0x12, 0x13] → ∃ t, exec (.mailboxWrite 0x04 [b]) s = .next (s.withM t) ∧
      t.mbx.busy = true ∧ t.mbx.done = false ∧ t.mbx.cmd = b.toNat) ∧
    (b.toNat ∉ [0x01, 0x02, 0x03, 0x04, 0x05, 0x10, 0x11, 0x12, 0x13] → ∃ t, exec (.mailboxWrite 0x04 [b]) s = .next (s.withM t) ∧
      t.mbx.busy = false ∧ t.mbx.done = true ∧ t.mbx.result = 1)) ∧
  (∀ (s : State), s.m.phase ≠ .reset → s.m.mbx.off = 1 → ∃ t, exec (.mailboxRead 2) s = .next (s.withM t) ∧
    t.busOut = [BitVec.ofNat 8 s.m.mbx.seq, BitVec.ofNat 8 s.m.mbx.result] ∧ t.mbx.off = 3)

/-- The I3C target and the test access port (R491, R494): a dynamic address is assigned where none is held and goes with RSTDAA; each reply
has its number of bytes; each TAP instruction enters the instruction register, and IDCODE shifts out 0x191444F3.
Debug sessions (R495): a session opens through a live grant with DBG permission, and a refused one raises its source; with none open, or on
a core out of its scope or in the SECURE world, the debugger changes nothing; else it stops, resumes and steps the core, and reads and writes
the registers of a STOPPED one, a written one without TAG. -/
def Obligations.TestAndDebugAccess : Prop :=
  ((∀ (s : State) (a : Nat), a < 128 →
    (s.m.mbx.dyn = none → ∃ t, exec (.entdaa a) s = .next (s.withM t) ∧ t.mbx.dyn = some a) ∧
    (s.m.mbx.dyn = none → ∃ t, exec (.setdasa s.m.i3cStatic a) s = .next (s.withM t) ∧ t.mbx.dyn = some a) ∧
    (s.m.mbx.dyn.isSome = true → exec (.entdaa a) s = .next s) ∧
    (∀ sa, sa ≠ s.m.i3cStatic → exec (.setdasa sa a) s = .next s)) ∧
  (∀ (s : State), ∃ t, exec .rstdaa s = .next (s.withM t) ∧ t.mbx.dyn = none) ∧
  (∀ (s : State), ∀ p ∈ [(Instr.getpid, 6), (.getbcr, 1), (.getdcr, 1), (.i3cGetstatus, 2)],
    ∃ t, exec p.1 s = .next (s.withM t) ∧ t.busOut.length = p.2 ∧ t.mbx = s.m.mbx) ∧
  (∀ (s : State), ∀ p ∈ [(Instr.extest, 0x00), (.sample, 0x02), (.highz, 0x03), (.clamp, 0x04), (.extestPulse, 0x05), (.extestTrain, 0x06),
      (.dbgacc, 0x10), (.bypass, 0xFF)], exec p.1 s = .next (s.withM { s.m with jtag := p.2 })) ∧
  (∀ (s : State), exec .idcode s = .next (s.withM { s.m with jtag := 0x01, tapOut := [.plain 0x191444F3] }))) ∧
  ((∀ (s : State) (c : Nat) (cap : Word), s.m.Opens (s.m.coreMaster c) 0 7 0x40 →
    (∀ g pa m1, s.m.live c cap .ctlwr 0 0 = .ok (g, pa, m1) →
      (g.otype = 0 → g.has .DBG = true → exec (.dbgSessOpen c cap) s = .next (s.withM { m1 with dbg := some ⟨pa, m1.dbgScope c g⟩ })) ∧
      (g.otype ≠ 0 ∨ g.has .DBG = false → exec (.dbgSessOpen c cap) s = .next (s.withM (m1.raiseOwn 0 11 none)))) ∧
    (cap.tag = false → exec (.dbgSessOpen c cap) s = .next (s.withM (s.m.raiseOwn 0 11 none)))) ∧
  (∀ (s : State) (mst : Master), s.m.Opens mst 0 7 0x40 → exec (.dbgSessClose mst) s = .next (s.withM { s.m with dbg := none })) ∧
  (∀ (s : State) (c n : Nat) (v : W64) (state vec : Bool), s.m.dbg = none ∨ (s.m.core c).world = .secure →
    exec (.dbgStop c vec) s = .next s ∧ exec (.dbgResume c) s = .next s ∧ exec (.dbgStep c) s = .next s ∧ exec (.dbgReadRegs c) s = .next s ∧
    exec (.dbgWriteRegs c state n v) s = .next s) ∧
  (∀ (s : State) (c : Nat) (d : DbgSess), s.m.dbg = some d → s.m.phase = .run → s.m.jtag = 0x10 → d.scope.contains c = true →
    (s.m.core c).world ≠ .secure → s.m.answers (coreStop c) (coreWin c) = true →
    let x := s.m.core c
    (x.st = .running → exec (.dbgStop c false) s = .next (s.withM (s.m.setCore c { x with st := .stopping }))) ∧
    (x.st = .stopped →
      (s.m.blockRuns c = true → x.resumable = true →
        exec (.dbgResume c) s = .next (s.withM (s.m.setCore c { x with st := .running, resumable := false, stepping := false }))) ∧
      exec (.dbgStep c) s = .next (s.withM (s.m.setCore c { x with st := .running, resumable := false, stepping := true })) ∧
      (∃ t, exec (.dbgReadRegs c) s = .next (s.withM t) ∧ t.tapOut.take 64 = (List.range 64).map (s.m.g c) ∧ t.cores = s.m.cores) ∧
      (∀ n v, exec (.dbgWriteRegs c false n v) s = .next (s.withM (s.m.setG c n ⟨v, false, false, 0⟩))) ∧
      (∀ v, fld v 0 16 ≠ 0xFFFF → exec (.dbgWriteRegs c true 7 v) s =
        .next (s.withM (s.m.setCore c ({ x with cmpid := fld v 0 16 }).snap))))))

/-- Counter banks and Fumarole windows (R504 to R507): a bank whose last overflow bit is cleared counts again; a PERIOD in range is taken and
discards the window in progress; at a boundary the counts of the window are latched and begin anew; peaks clear as written. -/
def Obligations.CountersAndWindows : Prop :=
  (∀ (s : State) (mst : Master) (st k ctrl ovf : Nat) (v : W64), counterBank st k = some (ctrl, ovf) → s.m.Opens mst st k ovf →
    ∃ t, exec (.pmcOvfClear mst st k v) s = .next (s.withM t) ∧ fld (t.reg st k ovf) 0 8 = s.m.regFld st k ovf 0 8 &&& (255 - fld v 0 8) ∧
      (fld (t.reg st k ovf) 0 8 = 0 → bit (t.reg st k ctrl) 2 = false)) ∧
  (∀ (s : State) (mst : Master) (px : Nat) (v : W64), px < 4 →
    (s.m.Opens mst (pxStop px) 0x23 0x380 →
      (fld v 0 32 < 1000 ∨ 1000000000 < fld v 0 32 → exec (.fumCfgWrite mst px v) s = .next s) ∧
      (1000 ≤ fld v 0 32 → fld v 0 32 ≤ 1000000000 → ∃ t, exec (.fumCfgWrite mst px v) s = .next (s.withM t) ∧
        fld (t.fumCfg px) 0 32 = fld v 0 32 ∧ bit (t.fumCfg px) 63 = bit v 63 ∧ t.fumSkip.contains px = true)) ∧
    (s.m.Opens mst (pxStop px) 0x23 0x390 → ∃ t, exec (.fumClrpeak mst px v) s = .next (s.withM t) ∧
      ∀ j, j < 32 → t.reg (pxStop px) 0x23 (0x410 + 0x20 * j) =
        if bit v j then 0 else s.m.reg (pxStop px) 0x23 (0x410 + 0x20 * j))) ∧
  (∀ (s : State) (px : Nat), px < 4 → bit (s.m.fumCfg px) 63 = true → 0 < fld (s.m.fumCfg px) 0 32 → s.m.answers (pxStop px) 0x23 = true →
    let p := fld (s.m.fumCfg px) 0 32
    ∃ t, exec (.fumaroleBoundary px) s = .next (s.withM t) ∧ t.dt = (s.m.dt / p + 1) * p ∧ t.fumSkip.contains px = false ∧
      (∀ j, j < 32 → (t.port (px * 32 + j)).rx = (0, 0) ∧ (t.port (px * 32 + j)).tx = (0, 0)) ∧
      (s.m.fumSkip.contains px = false → t.reg (pxStop px) 0x23 0x388 = BitVec.ofNat 64 t.dt ∧ ∀ j, j < 32 →
        fld (t.reg (pxStop px) 0x23 (0x400 + 0x20 * j)) 0 40 = (s.m.port (px * 32 + j)).rx.1 % 2 ^ 40))

/-! ### Start-up and resets -/

/-- Start-up (R528, R531, R534, R536, R540, R543): it runs from a power-on reset, or after a chip warm reset has asserted; uncorrectable fuses and a
flash that does not answer are boot stops 1 to 3; an attempt that releases its first core leaves the device running, and any other ends in a
boot stop with its reason.
Resets (R528, R541, R542, R545): a power-on reset loses all but the flash; RESET_N and a keyed SYT_RESET begin a chip warm reset, which one
under way joins; it asserts with every core OFF and keeps the flash and the test access port. -/
def Obligations.StartUpAndResets : Prop :=
  ((∀ (s : State) (b : BootIn),
    (s.m.phase ≠ .reset ∨ s.m.warm = true ∨ s.m.regsOff = true → exec (.coldBoot b) s = .next s) ∧
    (s.m.phase ≠ .reset ∨ s.m.warm = false ∨ s.m.regsOff = true → exec (.resetRelease b) s = .next s) ∧
    (s.m.phase = .reset → s.m.warm = false → s.m.regsOff = false →
      exec (.coldBoot b) s = .next (s.withM ((s.m.setPairFld 5 1 (if b.pairId then 1 else 0)).startUp b))) ∧
    (s.m.phase = .reset → s.m.warm = true → s.m.regsOff = false → exec (.resetRelease b) s = .next (s.withM (s.m.startUp b)))) ∧
  (∀ (m : Mach) (b : BootIn),
    ((∃ w ∈ b.fuseUe, w < 229) → (m.startUp b).phase = .bootStop ∧ fld ((m.startUp b).reg 0 0 0x40) 8 4 = 1) ∧
    ((∀ w ∈ b.fuseUe, 229 ≤ w) → b.flash = 2 ∨ b.flash = 3 →
      (m.startUp b).phase = .bootStop ∧ fld ((m.startUp b).reg 0 0 0x40) 0 4 = 15 ∧ fld ((m.startUp b).reg 0 0 0x40) 8 4 = b.flash)) ∧
  (∀ (m : Mach) (b : BootIn) (cause why : Nat) (rs : List (Nat × Nat)),
    ((Tried.up m).finish b cause rs none).phase = .run ∧ ((Tried.up m).finish b cause rs none).caldLow = false ∧
    ((Tried.up m).finish b cause rs none).cores = m.cores ∧
    ((Tried.stopped why m).finish b cause rs none).phase = .bootStop ∧
    fld (((Tried.stopped why m).finish b cause rs none).reg 0 0 0x40) 8 4 = why % 16)) ∧
  ((∀ (s : State), ∃ t, exec .powerOnReset s = .next (s.withM t) ∧ t.phase = .reset ∧ t.warm = false ∧ t.cores = [] ∧ t.mem = [] ∧ t.dt = 0 ∧
    t.queues = [] ∧ t.flash = s.m.flash ∧ t.fenceIn = s.m.fenceIn ∧ t.regsOff = false) ∧
  (∀ (s : State),
    (s.m.phase ≠ .reset → s.m.warm = false → exec .resetNAssert s = .next (s.withM { s.m with warm := true, warmWhy := 1 })) ∧
    (s.m.phase = .reset ∨ s.m.warm = true → exec .resetNAssert s = .next s)) ∧
  (∀ (s : State) (mst : Master) (key : Nat), s.m.Opens mst 0 0 0x48 →
    (key % 65536 ≠ 0x5E7A → exec (.sytReset mst key) s = .next s) ∧
    (key % 65536 = 0x5E7A → s.m.phase ≠ .reset → s.m.warm = false →
      exec (.sytReset mst key) s = .next (s.withM { s.m with warm := true, warmWhy := 4 }))) ∧
  (∀ (s : State),
    (s.m.warm = false ∨ s.m.phase = .reset → exec .chipWarmReset s = .next s) ∧
    (s.m.warm = true → s.m.phase ≠ .reset → ∃ t, exec .chipWarmReset s = .next (s.withM t) ∧ t.phase = .reset ∧ t.warm = true ∧
      t.txns = [] ∧ t.caldLow = true ∧ t.dbg = none ∧ (∀ c, (t.core c).st = .off ∧ (t.core c).g = []) ∧
      (∀ st k, (t.blk st k).lock = 0))))
end

