-- ==== Sys2Proof/Laws/Tab.lean ====
section
/-!
SUPPORT. Laws of the sparse tables: what is read after a write, and that every operation keeps the canonical form.
-/

namespace Sys2Proof.Tab

variable {β : Type}

/-! ### Reads after writes -/

theorem get_del (d : β) (t : List (Nat × β)) (k j : Nat) : get d (del t k) j = if j = k then d else get d t j := by
  induction t with
  | nil => simp [del, get]
  | cons p t ih =>
    obtain ⟨i, w⟩ := p
    simp only [del]
    split
    · next h => subst h; rw [ih]; simp only [get]; split <;> [rfl; (rw [if_neg (by omega)])]
    · next h => simp only [get]; rw [ih]; split <;> split <;> first | rfl | omega

theorem get_ins (d : β) (t : List (Nat × β)) (k j : Nat) (v : β) : get d (ins t k v) j = if j = k then v else get d t j := by
  induction t with
  | nil => simp only [ins, get]; by_cases h : j = k <;> simp [h, eq_comm (a := k)]
  | cons p t ih =>
    obtain ⟨i, w⟩ := p
    simp only [ins]
    split
    · simp only [get]; by_cases h : j = k <;> simp [h, eq_comm (a := k)]
    · split
      · next h => subst h; simp only [get]; by_cases h : j = i <;> simp [h, eq_comm (a := i)]
      · next h => simp only [get]; rw [ih]; by_cases h1 : i = j <;> by_cases h2 : j = k <;> simp [h1, h2] <;> omega

/-- What a table reads after a write. -/
theorem get_set [DecidableEq β] (d : β) (t : List (Nat × β)) (k j : Nat) (v : β) :
    get d (set d t k v) j = if j = k then v else get d t j := by
  unfold set
  split
  · next h => rw [get_del, h]
  · exact get_ins d t k j v

@[simp] theorem get_set_self [DecidableEq β] (d : β) (t : List (Nat × β)) (k : Nat) (v : β) : get d (set d t k v) k = v := by
  rw [get_set, if_pos rfl]

theorem get_set_ne [DecidableEq β] (d : β) (t : List (Nat × β)) {k j : Nat} (v : β) (h : j ≠ k) :
    get d (set d t k v) j = get d t j := by
  rw [get_set, if_neg h]

/-! ### The canonical form -/

/-- Every key of a table with rising keys lies above `lo`. -/
theorem rising_above {lo : Nat} {t : List (Nat × β)} (h : rising (some lo) t = true) : ∀ p ∈ t, lo < p.1 := by
  induction t generalizing lo with
  | nil => simp
  | cons q t ih =>
    obtain ⟨i, w⟩ := q
    simp only [rising, Bool.and_eq_true, decide_eq_true_eq] at h
    intro p hp
    rcases List.mem_cons.mp hp with rfl | hp
    · exact h.1
    · have := ih h.2 p hp; omega

/-- Keys that rise from above `j` rise from above a lower bound. -/
theorem rising_lower {i j : Nat} {t : List (Nat × β)} (hij : i ≤ j) (h : rising (some j) t = true) : rising (some i) t = true := by
  cases t with
  | nil => rfl
  | cons q t =>
    obtain ⟨k, w⟩ := q
    simp only [rising, Bool.and_eq_true, decide_eq_true_eq] at h ⊢
    exact ⟨by omega, h.2⟩

theorem rising_none {j : Nat} {t : List (Nat × β)} (h : rising (some j) t = true) : rising none t = true := by
  cases t with
  | nil => rfl
  | cons q t =>
    obtain ⟨k, w⟩ := q
    simp only [rising, Bool.and_eq_true] at h ⊢
    exact h.2

/-- A table whose head is `(j, w)` has rising keys when the rest rises from above `j`. -/
theorem rising_cons {lo : Option Nat} {j : Nat} {w : β} {t : List (Nat × β)} (hlo : ∀ i, lo = some i → i < j) :
    rising lo ((j, w) :: t) = rising (some j) t := by
  cases lo with
  | none => rfl
  | some i => simp [rising, hlo i rfl]

theorem rising_tail {lo : Option Nat} {p : Nat × β} {t : List (Nat × β)} (h : rising lo (p :: t) = true) : rising lo t = true := by
  obtain ⟨j, w⟩ := p
  cases lo with
  | none => exact rising_none h
  | some i =>
    simp only [rising, Bool.and_eq_true, decide_eq_true_eq] at h
    exact rising_lower (by omega) h.2

/-- Dropping entries keeps rising keys. -/
theorem rising_sublist {lo : Option Nat} {s t : List (Nat × β)} (hs : s.Sublist t) (h : rising lo t = true) : rising lo s = true := by
  induction hs generalizing lo with
  | slnil => exact h
  | cons a _ ih => exact ih (rising_tail h)
  | cons_cons a _ ih =>
    obtain ⟨j, w⟩ := a
    cases lo with
    | none => simp only [rising] at h ⊢; exact ih h
    | some i => simp only [rising, Bool.and_eq_true] at h ⊢; exact ⟨h.1, ih h.2⟩

theorem rising_ins {lo : Option Nat} {t : List (Nat × β)} {k : Nat} (v : β) (hlo : ∀ i, lo = some i → i < k)
    (h : rising lo t = true) : rising lo (ins t k v) = true := by
  induction t generalizing lo with
  | nil => simp only [ins]; rw [rising_cons hlo]; rfl
  | cons p t ih =>
    obtain ⟨j, w⟩ := p
    have hj : ∀ i, lo = some i → i < j := by
      intro i hi; subst hi; simp only [rising, Bool.and_eq_true, decide_eq_true_eq] at h; exact h.1
    rw [rising_cons hj] at h
    simp only [ins]
    split
    · next hk => rw [rising_cons hlo]; simp [rising, hk, h]
    · split
      · next hk => subst hk; rw [rising_cons hlo]; exact h
      · next h1 h2 => rw [rising_cons hj]; exact ih (by intro i hi; cases hi; omega) h

theorem del_sublist (t : List (Nat × β)) (k : Nat) : (del t k).Sublist t := by
  induction t with
  | nil => exact .slnil
  | cons p t ih =>
    obtain ⟨j, w⟩ := p
    simp only [del]
    split
    · exact ih.cons _
    · exact ih.cons_cons _

theorem mem_ins {t : List (Nat × β)} {k : Nat} {v : β} {p : Nat × β} (h : p ∈ ins t k v) : p = (k, v) ∨ p ∈ t := by
  induction t with
  | nil => simpa [ins] using h
  | cons q t ih =>
    obtain ⟨j, w⟩ := q
    simp only [ins] at h
    split at h
    · rcases List.mem_cons.mp h with h | h
      · exact .inl h
      · exact .inr h
    · split at h
      · rcases List.mem_cons.mp h with h | h
        · exact .inl h
        · exact .inr (List.mem_cons_of_mem _ h)
      · rcases List.mem_cons.mp h with h | h
        · exact .inr (h ▸ List.mem_cons_self)
        · rcases ih h with h | h
          · exact .inl h
          · exact .inr (List.mem_cons_of_mem _ h)

variable [DecidableEq β]

theorem wf_nil (d : Nat → β) : wf d [] = true := rfl

/-- A part of a canonical table, in its order, is canonical. -/
theorem wf_sublist {d : Nat → β} {s t : List (Nat × β)} (hs : s.Sublist t) (h : wf d t = true) : wf d s = true := by
  simp only [wf, Bool.and_eq_true, List.all_eq_true] at h ⊢
  exact ⟨rising_sublist hs h.1, fun p hp => h.2 p (hs.subset hp)⟩

theorem wf_del {d : Nat → β} {t : List (Nat × β)} (k : Nat) (h : wf d t = true) : wf d (del t k) = true :=
  wf_sublist (del_sublist t k) h

theorem wf_filter {d : Nat → β} {t : List (Nat × β)} (q : Nat × β → Bool) (h : wf d t = true) : wf d (t.filter q) = true :=
  wf_sublist List.filter_sublist h

theorem wf_ins {d : Nat → β} {t : List (Nat × β)} {k : Nat} {v : β} (hv : v ≠ d k) (h : wf d t = true) : wf d (ins t k v) = true := by
  simp only [wf, Bool.and_eq_true, List.all_eq_true] at h ⊢
  refine ⟨rising_ins v (by simp) h.1, fun p hp => ?_⟩
  rcases mem_ins hp with rfl | hp
  · simpa using hv
  · exact h.2 p hp

/-- A write keeps the canonical form. -/
theorem wf_set {d : Nat → β} {t : List (Nat × β)} (k : Nat) (v : β) (h : wf d t = true) : wf d (set (d k) t k v) = true := by
  unfold set
  split
  · exact wf_del k h
  · next hv => exact wf_ins hv h

/-- Changing every value keeps the canonical form. -/
theorem wf_mapV {d : β} {t : List (Nat × β)} (f : Nat → β → β) (h : wf (fun _ => d) t = true) : wf (fun _ => d) (mapV d f t) = true := by
  simp only [wf, Bool.and_eq_true, List.all_eq_true] at h ⊢
  obtain ⟨h1, h2⟩ := h
  refine ⟨?_, ?_⟩
  · clear h2
    generalize none = lo at h1 ⊢
    induction t generalizing lo with
    | nil => exact h1
    | cons p t ih =>
      obtain ⟨j, v⟩ := p
      simp only [mapV]
      split
      · exact ih _ (rising_tail h1)
      · cases lo with
        | none => simp only [rising] at h1 ⊢; exact ih _ h1
        | some i => simp only [rising, Bool.and_eq_true] at h1 ⊢; exact ⟨h1.1, ih _ h1.2⟩
  · clear h1 h2
    induction t with
    | nil => simp [mapV]
    | cons p t ih =>
      obtain ⟨j, v⟩ := p
      simp only [mapV]
      split
      · exact ih
      · next hv =>
        intro q hq
        rcases List.mem_cons.mp hq with rfl | hq
        · simpa using hv
        · exact ih q hq

end Sys2Proof.Tab
end

