-- ==== Sys2Proof/Laws/Memory.lean ====
section
/-!
SUPPORT. Laws of memory: reads after writes, what a write leaves alone, and that every operation that writes memory or metadata keeps
their canonical form.
-/

namespace Sys2Proof.Machine

/-! ### What a write leaves alone -/

/-- An initialised region changes nothing but the region maps. -/
theorem initRegion_frame (m : Mach) (c ca : Nat) :
    (m.initRegion c ca).mem = m.mem ∧ (m.initRegion c ca).mmeta = m.mmeta ∧ (m.initRegion c ca).cores = m.cores ∧
    (m.initRegion c ca).ctl = m.ctl ∧ (m.initRegion c ca).stale = m.stale := by
  simp only [Mach.initRegion]
  split <;> simp

/-- A property that each step of a fold keeps holds after the fold. -/
theorem foldl_keeps {α β : Type} {P : β → Prop} {f : β → α → β} (l : List α) (b : β) (hb : P b)
    (hf : ∀ b, P b → ∀ a, P (f b a)) : P (l.foldl f b) := by
  induction l generalizing b with
  | nil => exact hb
  | cons a l ih => exact ih _ (hf b hb a)

/-- A write that reaches DRAM changes nothing but the region maps beside the byte itself. -/
theorem touchDram_frame (m : Mach) (a : Nat) :
    (m.touchDram a).mem = m.mem ∧ (m.touchDram a).mmeta = m.mmeta ∧ (m.touchDram a).cores = m.cores ∧
    (m.touchDram a).ctl = m.ctl ∧ (m.touchDram a).stale = m.stale := by
  unfold Mach.touchDram
  split
  · exact initRegion_frame _ _ _
  · refine foldl_keeps (P := fun t : Mach => t.mem = m.mem ∧ t.mmeta = m.mmeta ∧ t.cores = m.cores ∧ t.ctl = m.ctl ∧ t.stale = m.stale)
      _ _ (initRegion_frame _ _ _) (fun b hb x => ?_)
    obtain ⟨h1, h2, h3, h4, h5⟩ := hb
    rw [← h1, ← h2, ← h3, ← h4, ← h5]
    exact initRegion_frame b _ x
  · simp

@[simp] theorem touchDram_mem (m : Mach) (a : Nat) : (m.touchDram a).mem = m.mem := (touchDram_frame m a).1
@[simp] theorem touchDram_mmeta (m : Mach) (a : Nat) : (m.touchDram a).mmeta = m.mmeta := (touchDram_frame m a).2.1
@[simp] theorem touchDram_cores (m : Mach) (a : Nat) : (m.touchDram a).cores = m.cores := (touchDram_frame m a).2.2.1
@[simp] theorem touchDram_ctl (m : Mach) (a : Nat) : (m.touchDram a).ctl = m.ctl := (touchDram_frame m a).2.2.2.1
@[simp] theorem touchDram_stale (m : Mach) (a : Nat) : (m.touchDram a).stale = m.stale := (touchDram_frame m a).2.2.2.2

/-- The memory that a byte write leaves. -/
theorem setByte_mem (m : Mach) (a : Nat) (v : BitVec 8) :
    (m.setByte a v).mem = if m.lost a then m.mem else Tab.set 0 m.mem a v := by
  unfold Mach.setByte
  by_cases h : m.lost a <;> by_cases h' : (m.stale.lookup (a / 64)).isSome <;> simp [h, h']

@[simp] theorem setByte_mmeta (m : Mach) (a : Nat) (v : BitVec 8) : (m.setByte a v).mmeta = m.mmeta := by
  unfold Mach.setByte
  by_cases h : m.lost a <;> by_cases h' : (m.stale.lookup (a / 64)).isSome <;> simp [h, h']

@[simp] theorem setByte_cores (m : Mach) (a : Nat) (v : BitVec 8) : (m.setByte a v).cores = m.cores := by
  unfold Mach.setByte
  by_cases h : m.lost a <;> by_cases h' : (m.stale.lookup (a / 64)).isSome <;> simp [h, h']

/-- The byte that is stored after a byte write. -/
theorem setByte_get (m : Mach) (a b : Nat) (v : BitVec 8) (h : m.lost a = false) :
    Tab.get 0 (m.setByte a v).mem b = if b = a then v else Tab.get 0 m.mem b := by
  rw [setByte_mem, h]
  exact Tab.get_set _ _ _ _ _

@[simp] theorem writeN_mmeta (m : Mach) (a n v : Nat) : (m.writeN a n v).mmeta = m.mmeta := by
  induction n generalizing m a v with
  | zero => rfl
  | succ n ih => simp [Mach.writeN, ih]

@[simp] theorem writeN_cores (m : Mach) (a n v : Nat) : (m.writeN a n v).cores = m.cores := by
  induction n generalizing m a v with
  | zero => rfl
  | succ n ih => simp [Mach.writeN, ih]

@[simp] theorem setMeta_mem (m : Mach) (a : Nat) (x : Meta) : (m.setMeta a x).mem = m.mem := by
  simp only [Mach.setMeta]
  repeat' split
  all_goals rfl

@[simp] theorem setMeta_cores (m : Mach) (a : Nat) (x : Meta) : (m.setMeta a x).cores = m.cores := by
  simp only [Mach.setMeta]
  repeat' split
  all_goals rfl

/-! ### The canonical form -/

/-- Memory after reset is in canonical form. -/
theorem reset_canon : Mach.reset.MemCanon := ⟨rfl, rfl⟩

/-- Other metadata in canonical form keep the machine's memory canonical. -/
theorem withMeta_canon {m : Mach} {t : List (Nat × Meta)} (h : m.MemCanon) (ht : Metadata.wf t = true) :
    ({ m with mmeta := t } : Mach).MemCanon := ⟨h.1, ht⟩

/-- One word's metadata. -/
theorem setWord_wf {t : List (Nat × Meta)} (w : Nat) (x : Meta) (h : Metadata.wf t = true) :
    Metadata.wf (Tab.set .zero t w x) = true :=
  Tab.wf_set (d := fun _ => Meta.zero) w x h

/-- A table of words of which some are set to one value. -/
theorem setAll_wf {t : List (Nat × Meta)} (l : List Nat) (x : Meta) (h : Metadata.wf t = true) :
    Metadata.wf (l.foldl (fun t w => Tab.set .zero t w x) t) = true :=
  foldl_keeps (P := fun t => Metadata.wf t = true) l t h (fun _ hb w => setWord_wf w x hb)

/-- A table of words of which some are removed. -/
theorem delAll_wf {t : List (Nat × Meta)} (l : List Nat) (h : Metadata.wf t = true) :
    Metadata.wf (l.foldl (fun t w => Tab.del t w) t) = true :=
  foldl_keeps (P := fun t => Metadata.wf t = true) l t h (fun _ hb w => Tab.wf_del w hb)

theorem setByte_canon {m : Mach} (a : Nat) (v : BitVec 8) (h : m.MemCanon) : (m.setByte a v).MemCanon := by
  refine ⟨?_, by rw [setByte_mmeta]; exact h.2⟩
  rw [setByte_mem]
  split
  · exact h.1
  · exact Tab.wf_set (d := fun _ => 0) a v h.1

theorem writeN_canon {m : Mach} (a n v : Nat) (h : m.MemCanon) : (m.writeN a n v).MemCanon := by
  induction n generalizing m a v with
  | zero => exact h
  | succ n ih => exact ih _ _ (setByte_canon _ _ h)

theorem openLine_canon {m : Mach} (a : Nat) (h : m.MemCanon) : (m.openLine a).MemCanon := by
  unfold Mach.openLine
  split
  · exact withMeta_canon h (delAll_wf _ h.2)
  · exact h

theorem setMeta_canon {m : Mach} (a : Nat) (x : Meta) (h : m.MemCanon) : (m.setMeta a x).MemCanon := by
  simp only [Mach.setMeta]
  split
  · exact h
  · split
    · split
      · exact withMeta_canon h (setAll_wf _ _ h.2)
      · exact withMeta_canon h (setWord_wf _ _ h.2)
    · split
      · exact withMeta_canon h (setWord_wf _ _ h.2)
      · exact h

theorem putWord_canon {m : Mach} (a : Nat) (d : W64) (tag poison : Bool) (h : m.MemCanon) : (m.putWord a d tag poison).MemCanon :=
  setMeta_canon _ _ (writeN_canon _ _ _ h)

theorem storePart_canon {m : Mach} (a n v : Nat) (poison : Bool) (h : m.MemCanon) : (m.storePart a n v poison).MemCanon :=
  setMeta_canon _ _ (writeN_canon _ _ _ h)

theorem storeBytes_canon {m : Mach} (a n v : Nat) (poison : Bool) (h : m.MemCanon) : (m.storeBytes a n v poison).MemCanon := by
  unfold Mach.storeBytes
  simp only
  split
  · exact storePart_canon _ _ _ _ h
  · exact storePart_canon _ _ _ _ (storePart_canon _ _ _ _ h)

theorem putWords_canon {m : Mach} (a : Nat) (ws : List Word) (h : m.MemCanon) : (m.putWords a ws).MemCanon := by
  unfold Mach.putWords
  induction ws generalizing m a with
  | nil => exact h
  | cons w ws ih =>
    rw [putWordsAt]
    exact ih (a + 8) (putWord_canon a w.data w.tag w.poison h)

/-- A memory of which some bytes are removed. -/
theorem delBytes_wf {t : List Host.Cell} (l : List Nat) (f : Nat → Nat) (h : Memory.wf t = true) :
    Memory.wf (l.foldl (fun t i => Tab.del t (f i)) t) = true :=
  foldl_keeps (P := fun t => Memory.wf t = true) l t h (fun _ hb _ => Tab.wf_del _ hb)

/-- A cache takes a line of a FAILED channel. -/
theorem takeLost_canon {m : Mach} (line : Nat) (h : m.MemCanon) : (m.takeLost line).MemCanon := by
  unfold Mach.takeLost
  split
  · exact h
  · have h1 := delBytes_wf (List.range 64) (fun i => line * 64 + i) h.1
    have h2 := setAll_wf (lineWords (line * 64)) ⟨false, true, 0⟩ h.2
    generalize (List.range 64).foldl (fun t i => Tab.del t (line * 64 + i)) m.mem = t at h1 ⊢
    exact ⟨h1, h2⟩

theorem setDir_canon {m : Mach} (line : Nat) (e : DirEnt) (h : m.MemCanon) : (m.setDir line e).MemCanon := by
  simp only [Mach.setDir]
  split
  · exact h
  · exact takeLost_canon line h

/-- What the caches hold of a line is discarded. -/
theorem revertLine_canon {m : Mach} (line : Nat) (h : m.MemCanon) : (m.revertLine line).MemCanon := by
  unfold Mach.revertLine
  split
  · next ws _ =>
    have key : ∀ l : List Nat, (l.foldl (fun (acc : Mach) i =>
        let w := (ws[i]?).getD .zero
        let a := line * 64 + 8 * i
        let m2 := acc.writeN a 8 w.data.toNat
        { m2 with mmeta := Tab.set .zero m2.mmeta (a / 8) ⟨w.tag, w.poison, w.colour⟩ }) m).MemCanon := fun l =>
      foldl_keeps (P := Mach.MemCanon) l m h (fun b hb i =>
        withMeta_canon (writeN_canon _ _ _ hb) (setWord_wf _ _ (writeN_canon _ _ _ hb).2))
    have := key (List.range 8)
    generalize List.range 8 = l at this ⊢
    exact ⟨this.1, this.2⟩
  · exact h

theorem poisonWord_canon {m : Mach} (a : Nat) (h : m.MemCanon) : (m.poisonWord a).MemCanon := by
  unfold Mach.poisonWord
  split
  · exact withMeta_canon h (setAll_wf _ _ h.2)
  · exact withMeta_canon h (setWord_wf _ _ h.2)

theorem poisonLine_canon {m : Mach} (pa : Nat) (h : m.MemCanon) : (m.poisonLine pa).MemCanon :=
  foldl_keeps (P := Mach.MemCanon) _ _ h (fun _ hb _ => poisonWord_canon _ hb)

/-- DRAM's copy of a line is poisoned. -/
theorem poisonDram_canon {m : Mach} (pa : Nat) (h : m.MemCanon) : (m.poisonDram pa).MemCanon := by
  unfold Mach.poisonDram
  split
  · exact h
  · exact poisonLine_canon pa h

/-- The metadata of DRAM's copy of a line is lost. -/
theorem loseStored_canon {m : Mach} (pa : Nat) (h : m.MemCanon) : (m.loseStored pa).MemCanon := by
  unfold Mach.loseStored
  split
  · exact h
  · exact withMeta_canon h (setAll_wf _ _ h.2)

/-- The words of a lost metadata store line. -/
theorem loseMeta_canon {m : Mach} (pa : Nat) (h : m.MemCanon) : (m.loseMeta pa).MemCanon :=
  foldl_keeps (P := Mach.MemCanon) _ _ h (fun _ hb _ => loseStored_canon _ hb)

/-- The tags of these words are cleared. -/
theorem untag_canon {m : Mach} (as : List Nat) (h : m.MemCanon) : (m.untag as).MemCanon :=
  foldl_keeps (P := Mach.MemCanon) _ _ h (fun _ hb _ => withMeta_canon hb (setWord_wf _ _ hb.2))

theorem loseChannel_canon {m : Mach} (ch : Nat) (h : m.MemCanon) : (m.loseChannel ch).MemCanon :=
  ⟨Tab.wf_filter _ h.1, Tab.wf_filter _ h.2⟩

theorem loseCm_canon {m : Mach} (k : Nat) (h : m.MemCanon) : (m.loseCm k).MemCanon :=
  ⟨Tab.wf_filter _ h.1, Tab.wf_filter _ h.2⟩

end Sys2Proof.Machine
end

