-- ==== Sys2Proof/Laws/State.lean ====
section
/-!
SUPPORT. Laws of the state: one lemma for each field that an update leaves alone, true by `rfl`, and what an update leaves in the record
that it writes.
-/

namespace Sys2Proof.Machine

variable (s : State) (m : Mach)

/-! ### The state and its machine -/

@[simp] theorem withM_pending (t : Mach) : (s.withM t).pending = s.pending := rfl
@[simp] theorem withM_m (t : Mach) : (s.withM t).m = t := rfl
@[simp] theorem withM_self : s.withM s.m = s := rfl
@[simp] theorem upd_eq (f : Mach → Mach) : s.upd f = .next (s.withM (f s.m)) := rfl

/-! ### Records after their update -/

/-- A write of one key leaves what another reads, whatever the two read where they are unlisted. -/
theorem get_set_default {β : Type} [DecidableEq β] {d d' : β} (t : List (Nat × β)) (k j : Nat) (v : β) (h : j ≠ k) :
    Tab.get d' (Tab.set d t k v) j = Tab.get d' t j := by
  unfold Tab.set
  split
  · rw [Tab.get_del, if_neg h]
  · rw [Tab.get_ins, if_neg h]

theorem core_setCore (c d : Nat) (x : Core) : (m.setCore c x).core d = if d = c then x else m.core d := Tab.get_set _ _ _ _ _
theorem fc_setFc (n k : Nat) (x : FcSrc) : (m.setFc n x).fc k = if k = n then x else m.fc k := by
  unfold Mach.setFc Mach.fc
  by_cases h : k = n
  · subst h; simp
  · rw [if_neg h]; exact get_set_default _ _ _ _ h
theorem hio_setHio (h k : Nat) (x : HioRt) : (m.setHio h x).hio k = if k = h then x else m.hio k := Tab.get_set _ _ _ _ _
theorem queue_setQueue (q k : Nat) (x : Queue) : (m.setQueue q x).queue k = if k = q then x else m.queue k := Tab.get_set _ _ _ _ _
theorem engine_setEngine (e k : Nat) (x : Engine) : (m.setEngine e x).engine k = if k = e then x else m.engine k :=
  Tab.get_set _ _ _ _ _
theorem slot_setSlot (n k : Nat) (x : Slot) : (m.setSlot n x).slot k = if k = n then x else m.slot k := Tab.get_set _ _ _ _ _
theorem port_setPort (q k : Nat) (x : PortRt) : (m.setPort q x).port k = if k = q then x else m.port k := Tab.get_set _ _ _ _ _
@[simp] theorem core_setCore_self (c : Nat) (x : Core) : (m.setCore c x).core c = x := by rw [core_setCore, if_pos rfl]
@[simp] theorem queue_setQueue_self (q : Nat) (x : Queue) : (m.setQueue q x).queue q = x := by rw [queue_setQueue, if_pos rfl]
@[simp] theorem slot_setSlot_self (n : Nat) (x : Slot) : (m.setSlot n x).slot n = x := by rw [slot_setSlot, if_pos rfl]
@[simp] theorem port_setPort_self (q : Nat) (x : PortRt) : (m.setPort q x).port q = x := by rw [port_setPort, if_pos rfl]
@[simp] theorem blk_setBlk_self (st k : Nat) (b : BlkState) : (m.setBlk st k b).blk st k = b := Tab.get_set_self _ _ _ _
@[simp] theorem reg_setReg_self (st k off : Nat) (v : W64) : (m.setReg st k off v).reg st k off = v := Tab.get_set_self _ _ _ _
theorem blk_setBlk_ne {st k st' k' : Nat} (b : BlkState) (h : st' * 256 + k' ≠ st * 256 + k) :
    (m.setBlk st k b).blk st' k' = m.blk st' k' := Tab.get_set_ne _ _ _ h

/-- A register in another cell keeps its value. -/
theorem reg_setReg_ne {st k off st' k' off' : Nat} (v : W64) (h : cellKey st' k' off' ≠ cellKey st k off) :
    (m.setReg st k off v).reg st' k' off' = m.reg st' k' off' := by
  unfold Mach.setReg Mach.reg
  exact get_set_default _ _ _ _ h

/-! ### `setReg` -/

@[simp] theorem setReg_phase (st k off : Nat) (v : W64) : (m.setReg st k off v).phase = m.phase := rfl
@[simp] theorem setReg_shadows (st k off : Nat) (v : W64) : (m.setReg st k off v).shadows = m.shadows := rfl
@[simp] theorem setReg_cores (st k off : Nat) (v : W64) : (m.setReg st k off v).cores = m.cores := rfl
@[simp] theorem setReg_mem (st k off : Nat) (v : W64) : (m.setReg st k off v).mem = m.mem := rfl
@[simp] theorem setReg_mmeta (st k off : Nat) (v : W64) : (m.setReg st k off v).mmeta = m.mmeta := rfl
@[simp] theorem setReg_blks (st k off : Nat) (v : W64) : (m.setReg st k off v).blks = m.blks := rfl
@[simp] theorem setReg_routes (st k off : Nat) (v : W64) : (m.setReg st k off v).routes = m.routes := rfl
@[simp] theorem setReg_evPend (st k off : Nat) (v : W64) : (m.setReg st k off v).evPend = m.evPend := rfl
@[simp] theorem setReg_reports (st k off : Nat) (v : W64) : (m.setReg st k off v).reports = m.reports := rfl
@[simp] theorem setReg_upsets (st k off : Nat) (v : W64) : (m.setReg st k off v).upsets = m.upsets := rfl
@[simp] theorem setReg_protLogs (st k off : Nat) (v : W64) : (m.setReg st k off v).protLogs = m.protLogs := rfl
@[simp] theorem setReg_sweepsRun (st k off : Nat) (v : W64) : (m.setReg st k off v).sweepsRun = m.sweepsRun := rfl
@[simp] theorem setReg_tagonly (st k off : Nat) (v : W64) : (m.setReg st k off v).tagonly = m.tagonly := rfl
@[simp] theorem setReg_dram (st k off : Nat) (v : W64) : (m.setReg st k off v).dram = m.dram := rfl
@[simp] theorem setReg_slt (st k off : Nat) (v : W64) : (m.setReg st k off v).slt = m.slt := rfl
@[simp] theorem setReg_fuses (st k off : Nat) (v : W64) : (m.setReg st k off v).fuses = m.fuses := rfl
@[simp] theorem setReg_dt (st k off : Nat) (v : W64) : (m.setReg st k off v).dt = m.dt := rfl
@[simp] theorem setReg_secTrig (st k off : Nat) (v : W64) : (m.setReg st k off v).secTrig = m.secTrig := rfl
@[simp] theorem setReg_mirWins (st k off : Nat) (v : W64) : (m.setReg st k off v).mirWins = m.mirWins := rfl
@[simp] theorem setReg_mirSeqs (st k off : Nat) (v : W64) : (m.setReg st k off v).mirSeqs = m.mirSeqs := rfl
@[simp] theorem setReg_fwds (st k off : Nat) (v : W64) : (m.setReg st k off v).fwds = m.fwds := rfl
@[simp] theorem setReg_l3 (st k off : Nat) (v : W64) : (m.setReg st k off v).l3 = m.l3 := rfl
@[simp] theorem setReg_dir (st k off : Nat) (v : W64) : (m.setReg st k off v).dir = m.dir := rfl
@[simp] theorem setReg_stale (st k off : Nat) (v : W64) : (m.setReg st k off v).stale = m.stale := rfl
@[simp] theorem setReg_txns (st k off : Nat) (v : W64) : (m.setReg st k off v).txns = m.txns := rfl
@[simp] theorem setReg_retried (st k off : Nat) (v : W64) : (m.setReg st k off v).retried = m.retried := rfl
@[simp] theorem setReg_gone (st k off : Nat) (v : W64) : (m.setReg st k off v).gone = m.gone := rfl
@[simp] theorem setReg_heldReqs (st k off : Nat) (v : W64) : (m.setReg st k off v).heldReqs = m.heldReqs := rfl
@[simp] theorem setReg_wbufs (st k off : Nat) (v : W64) : (m.setReg st k off v).wbufs = m.wbufs := rfl
@[simp] theorem setReg_sltMove (st k off : Nat) (v : W64) : (m.setReg st k off v).sltMove = m.sltMove := rfl
@[simp] theorem setReg_tokens (st k off : Nat) (v : W64) : (m.setReg st k off v).tokens = m.tokens := rfl
@[simp] theorem setReg_slots (st k off : Nat) (v : W64) : (m.setReg st k off v).slots = m.slots := rfl
@[simp] theorem setReg_slotNext (st k off : Nat) (v : W64) : (m.setReg st k off v).slotNext = m.slotNext := rfl
@[simp] theorem setReg_regions (st k off : Nat) (v : W64) : (m.setReg st k off v).regions = m.regions := rfl
@[simp] theorem setReg_mcReqs (st k off : Nat) (v : W64) : (m.setReg st k off v).mcReqs = m.mcReqs := rfl
@[simp] theorem setReg_mcRetried (st k off : Nat) (v : W64) : (m.setReg st k off v).mcRetried = m.mcRetried := rfl
@[simp] theorem setReg_mcDrain (st k off : Nat) (v : W64) : (m.setReg st k off v).mcDrain = m.mcDrain := rfl
@[simp] theorem setReg_mcTc3 (st k off : Nat) (v : W64) : (m.setReg st k off v).mcTc3 = m.mcTc3 := rfl
@[simp] theorem setReg_rows (st k off : Nat) (v : W64) : (m.setReg st k off v).rows = m.rows := rfl
@[simp] theorem setReg_refreshDue (st k off : Nat) (v : W64) : (m.setReg st k off v).refreshDue = m.refreshDue := rfl
@[simp] theorem setReg_retrains (st k off : Nat) (v : W64) : (m.setReg st k off v).retrains = m.retrains := rfl
@[simp] theorem setReg_remaps (st k off : Nat) (v : W64) : (m.setReg st k off v).remaps = m.remaps := rfl
@[simp] theorem setReg_patrols (st k off : Nat) (v : W64) : (m.setReg st k off v).patrols = m.patrols := rfl
@[simp] theorem setReg_sramPoison (st k off : Nat) (v : W64) : (m.setReg st k off v).sramPoison = m.sramPoison := rfl
@[simp] theorem setReg_fcSrc (st k off : Nat) (v : W64) : (m.setReg st k off v).fcSrc = m.fcSrc := rfl
@[simp] theorem setReg_caldLow (st k off : Nat) (v : W64) : (m.setReg st k off v).caldLow = m.caldLow := rfl
@[simp] theorem setReg_pxTab (st k off : Nat) (v : W64) : (m.setReg st k off v).pxTab = m.pxTab := rfl
@[simp] theorem setReg_egTab (st k off : Nat) (v : W64) : (m.setReg st k off v).egTab = m.egTab := rfl
@[simp] theorem setReg_handovers (st k off : Nat) (v : W64) : (m.setReg st k off v).handovers = m.handovers := rfl
@[simp] theorem setReg_ports (st k off : Nat) (v : W64) : (m.setReg st k off v).ports = m.ports := rfl
@[simp] theorem setReg_hists (st k off : Nat) (v : W64) : (m.setReg st k off v).hists = m.hists := rfl
@[simp] theorem setReg_meters (st k off : Nat) (v : W64) : (m.setReg st k off v).meters = m.meters := rfl
@[simp] theorem setReg_queues (st k off : Nat) (v : W64) : (m.setReg st k off v).queues = m.queues := rfl
@[simp] theorem setReg_engines (st k off : Nat) (v : W64) : (m.setReg st k off v).engines = m.engines := rfl
@[simp] theorem setReg_vqfs (st k off : Nat) (v : W64) : (m.setReg st k off v).vqfs = m.vqfs := rfl
@[simp] theorem setReg_pair (st k off : Nat) (v : W64) : (m.setReg st k off v).pair = m.pair := rfl
@[simp] theorem setReg_warm (st k off : Nat) (v : W64) : (m.setReg st k off v).warm = m.warm := rfl
@[simp] theorem setReg_warmWhy (st k off : Nat) (v : W64) : (m.setReg st k off v).warmWhy = m.warmWhy := rfl
@[simp] theorem setReg_dramKept (st k off : Nat) (v : W64) : (m.setReg st k off v).dramKept = m.dramKept := rfl
@[simp] theorem setReg_hios (st k off : Nat) (v : W64) : (m.setReg st k off v).hios = m.hios := rfl
@[simp] theorem setReg_cfgReqs (st k off : Nat) (v : W64) : (m.setReg st k off v).cfgReqs = m.cfgReqs := rfl
@[simp] theorem setReg_flash (st k off : Nat) (v : W64) : (m.setReg st k off v).flash = m.flash := rfl
@[simp] theorem setReg_mbx (st k off : Nat) (v : W64) : (m.setReg st k off v).mbx = m.mbx := rfl
@[simp] theorem setReg_dbg (st k off : Nat) (v : W64) : (m.setReg st k off v).dbg = m.dbg := rfl
@[simp] theorem setReg_jtag (st k off : Nat) (v : W64) : (m.setReg st k off v).jtag = m.jtag := rfl
@[simp] theorem setReg_power (st k off : Nat) (v : W64) : (m.setReg st k off v).power = m.power := rfl
@[simp] theorem setReg_ppsLast (st k off : Nat) (v : W64) : (m.setReg st k off v).ppsLast = m.ppsLast := rfl
@[simp] theorem setReg_ppsGood (st k off : Nat) (v : W64) : (m.setReg st k off v).ppsGood = m.ppsGood := rfl
@[simp] theorem setReg_ppsOut (st k off : Nat) (v : W64) : (m.setReg st k off v).ppsOut = m.ppsOut := rfl
@[simp] theorem setReg_kickAt (st k off : Nat) (v : W64) : (m.setReg st k off v).kickAt = m.kickAt := rfl
@[simp] theorem setReg_holdAt (st k off : Nat) (v : W64) : (m.setReg st k off v).holdAt = m.holdAt := rfl
@[simp] theorem setReg_secImage (st k off : Nat) (v : W64) : (m.setReg st k off v).secImage = m.secImage := rfl
@[simp] theorem setReg_holdImage (st k off : Nat) (v : W64) : (m.setReg st k off v).holdImage = m.holdImage := rfl
@[simp] theorem setReg_bootRec (st k off : Nat) (v : W64) : (m.setReg st k off v).bootRec = m.bootRec := rfl
@[simp] theorem setReg_prevRec (st k off : Nat) (v : W64) : (m.setReg st k off v).prevRec = m.prevRec := rfl
@[simp] theorem setReg_regsOff (st k off : Nat) (v : W64) : (m.setReg st k off v).regsOff = m.regsOff := rfl
@[simp] theorem setReg_fuseCe (st k off : Nat) (v : W64) : (m.setReg st k off v).fuseCe = m.fuseCe := rfl
@[simp] theorem setReg_fuseUe (st k off : Nat) (v : W64) : (m.setReg st k off v).fuseUe = m.fuseUe := rfl
@[simp] theorem setReg_fumSkip (st k off : Nat) (v : W64) : (m.setReg st k off v).fumSkip = m.fumSkip := rfl
@[simp] theorem setReg_tapOut (st k off : Nat) (v : W64) : (m.setReg st k off v).tapOut = m.tapOut := rfl
@[simp] theorem setReg_busOut (st k off : Nat) (v : W64) : (m.setReg st k off v).busOut = m.busOut := rfl
@[simp] theorem setReg_free (st k off : Nat) (v : W64) : (m.setReg st k off v).free = m.free := rfl

/-! ### `setBlk` -/

@[simp] theorem setBlk_phase (st k : Nat) (b : BlkState) : (m.setBlk st k b).phase = m.phase := rfl
@[simp] theorem setBlk_shadows (st k : Nat) (b : BlkState) : (m.setBlk st k b).shadows = m.shadows := rfl
@[simp] theorem setBlk_cores (st k : Nat) (b : BlkState) : (m.setBlk st k b).cores = m.cores := rfl
@[simp] theorem setBlk_mem (st k : Nat) (b : BlkState) : (m.setBlk st k b).mem = m.mem := rfl
@[simp] theorem setBlk_mmeta (st k : Nat) (b : BlkState) : (m.setBlk st k b).mmeta = m.mmeta := rfl
@[simp] theorem setBlk_ctl (st k : Nat) (b : BlkState) : (m.setBlk st k b).ctl = m.ctl := rfl
@[simp] theorem setBlk_routes (st k : Nat) (b : BlkState) : (m.setBlk st k b).routes = m.routes := rfl
@[simp] theorem setBlk_evPend (st k : Nat) (b : BlkState) : (m.setBlk st k b).evPend = m.evPend := rfl
@[simp] theorem setBlk_reports (st k : Nat) (b : BlkState) : (m.setBlk st k b).reports = m.reports := rfl
@[simp] theorem setBlk_upsets (st k : Nat) (b : BlkState) : (m.setBlk st k b).upsets = m.upsets := rfl
@[simp] theorem setBlk_protLogs (st k : Nat) (b : BlkState) : (m.setBlk st k b).protLogs = m.protLogs := rfl
@[simp] theorem setBlk_sweepsRun (st k : Nat) (b : BlkState) : (m.setBlk st k b).sweepsRun = m.sweepsRun := rfl
@[simp] theorem setBlk_tagonly (st k : Nat) (b : BlkState) : (m.setBlk st k b).tagonly = m.tagonly := rfl
@[simp] theorem setBlk_dram (st k : Nat) (b : BlkState) : (m.setBlk st k b).dram = m.dram := rfl
@[simp] theorem setBlk_slt (st k : Nat) (b : BlkState) : (m.setBlk st k b).slt = m.slt := rfl
@[simp] theorem setBlk_fuses (st k : Nat) (b : BlkState) : (m.setBlk st k b).fuses = m.fuses := rfl
@[simp] theorem setBlk_dt (st k : Nat) (b : BlkState) : (m.setBlk st k b).dt = m.dt := rfl
@[simp] theorem setBlk_secTrig (st k : Nat) (b : BlkState) : (m.setBlk st k b).secTrig = m.secTrig := rfl
@[simp] theorem setBlk_mirWins (st k : Nat) (b : BlkState) : (m.setBlk st k b).mirWins = m.mirWins := rfl
@[simp] theorem setBlk_mirSeqs (st k : Nat) (b : BlkState) : (m.setBlk st k b).mirSeqs = m.mirSeqs := rfl
@[simp] theorem setBlk_fwds (st k : Nat) (b : BlkState) : (m.setBlk st k b).fwds = m.fwds := rfl
@[simp] theorem setBlk_l3 (st k : Nat) (b : BlkState) : (m.setBlk st k b).l3 = m.l3 := rfl
@[simp] theorem setBlk_dir (st k : Nat) (b : BlkState) : (m.setBlk st k b).dir = m.dir := rfl
@[simp] theorem setBlk_stale (st k : Nat) (b : BlkState) : (m.setBlk st k b).stale = m.stale := rfl
@[simp] theorem setBlk_txns (st k : Nat) (b : BlkState) : (m.setBlk st k b).txns = m.txns := rfl
@[simp] theorem setBlk_retried (st k : Nat) (b : BlkState) : (m.setBlk st k b).retried = m.retried := rfl
@[simp] theorem setBlk_gone (st k : Nat) (b : BlkState) : (m.setBlk st k b).gone = m.gone := rfl
@[simp] theorem setBlk_heldReqs (st k : Nat) (b : BlkState) : (m.setBlk st k b).heldReqs = m.heldReqs := rfl
@[simp] theorem setBlk_wbufs (st k : Nat) (b : BlkState) : (m.setBlk st k b).wbufs = m.wbufs := rfl
@[simp] theorem setBlk_sltMove (st k : Nat) (b : BlkState) : (m.setBlk st k b).sltMove = m.sltMove := rfl
@[simp] theorem setBlk_tokens (st k : Nat) (b : BlkState) : (m.setBlk st k b).tokens = m.tokens := rfl
@[simp] theorem setBlk_slots (st k : Nat) (b : BlkState) : (m.setBlk st k b).slots = m.slots := rfl
@[simp] theorem setBlk_slotNext (st k : Nat) (b : BlkState) : (m.setBlk st k b).slotNext = m.slotNext := rfl
@[simp] theorem setBlk_regions (st k : Nat) (b : BlkState) : (m.setBlk st k b).regions = m.regions := rfl
@[simp] theorem setBlk_mcReqs (st k : Nat) (b : BlkState) : (m.setBlk st k b).mcReqs = m.mcReqs := rfl
@[simp] theorem setBlk_mcRetried (st k : Nat) (b : BlkState) : (m.setBlk st k b).mcRetried = m.mcRetried := rfl
@[simp] theorem setBlk_mcDrain (st k : Nat) (b : BlkState) : (m.setBlk st k b).mcDrain = m.mcDrain := rfl
@[simp] theorem setBlk_mcTc3 (st k : Nat) (b : BlkState) : (m.setBlk st k b).mcTc3 = m.mcTc3 := rfl
@[simp] theorem setBlk_rows (st k : Nat) (b : BlkState) : (m.setBlk st k b).rows = m.rows := rfl
@[simp] theorem setBlk_refreshDue (st k : Nat) (b : BlkState) : (m.setBlk st k b).refreshDue = m.refreshDue := rfl
@[simp] theorem setBlk_retrains (st k : Nat) (b : BlkState) : (m.setBlk st k b).retrains = m.retrains := rfl
@[simp] theorem setBlk_remaps (st k : Nat) (b : BlkState) : (m.setBlk st k b).remaps = m.remaps := rfl
@[simp] theorem setBlk_patrols (st k : Nat) (b : BlkState) : (m.setBlk st k b).patrols = m.patrols := rfl
@[simp] theorem setBlk_sramPoison (st k : Nat) (b : BlkState) : (m.setBlk st k b).sramPoison = m.sramPoison := rfl
@[simp] theorem setBlk_fcSrc (st k : Nat) (b : BlkState) : (m.setBlk st k b).fcSrc = m.fcSrc := rfl
@[simp] theorem setBlk_caldLow (st k : Nat) (b : BlkState) : (m.setBlk st k b).caldLow = m.caldLow := rfl
@[simp] theorem setBlk_pxTab (st k : Nat) (b : BlkState) : (m.setBlk st k b).pxTab = m.pxTab := rfl
@[simp] theorem setBlk_egTab (st k : Nat) (b : BlkState) : (m.setBlk st k b).egTab = m.egTab := rfl
@[simp] theorem setBlk_handovers (st k : Nat) (b : BlkState) : (m.setBlk st k b).handovers = m.handovers := rfl
@[simp] theorem setBlk_ports (st k : Nat) (b : BlkState) : (m.setBlk st k b).ports = m.ports := rfl
@[simp] theorem setBlk_hists (st k : Nat) (b : BlkState) : (m.setBlk st k b).hists = m.hists := rfl
@[simp] theorem setBlk_meters (st k : Nat) (b : BlkState) : (m.setBlk st k b).meters = m.meters := rfl
@[simp] theorem setBlk_queues (st k : Nat) (b : BlkState) : (m.setBlk st k b).queues = m.queues := rfl
@[simp] theorem setBlk_engines (st k : Nat) (b : BlkState) : (m.setBlk st k b).engines = m.engines := rfl
@[simp] theorem setBlk_vqfs (st k : Nat) (b : BlkState) : (m.setBlk st k b).vqfs = m.vqfs := rfl
@[simp] theorem setBlk_pair (st k : Nat) (b : BlkState) : (m.setBlk st k b).pair = m.pair := rfl
@[simp] theorem setBlk_warm (st k : Nat) (b : BlkState) : (m.setBlk st k b).warm = m.warm := rfl
@[simp] theorem setBlk_warmWhy (st k : Nat) (b : BlkState) : (m.setBlk st k b).warmWhy = m.warmWhy := rfl
@[simp] theorem setBlk_dramKept (st k : Nat) (b : BlkState) : (m.setBlk st k b).dramKept = m.dramKept := rfl
@[simp] theorem setBlk_hios (st k : Nat) (b : BlkState) : (m.setBlk st k b).hios = m.hios := rfl
@[simp] theorem setBlk_cfgReqs (st k : Nat) (b : BlkState) : (m.setBlk st k b).cfgReqs = m.cfgReqs := rfl
@[simp] theorem setBlk_flash (st k : Nat) (b : BlkState) : (m.setBlk st k b).flash = m.flash := rfl
@[simp] theorem setBlk_mbx (st k : Nat) (b : BlkState) : (m.setBlk st k b).mbx = m.mbx := rfl
@[simp] theorem setBlk_dbg (st k : Nat) (b : BlkState) : (m.setBlk st k b).dbg = m.dbg := rfl
@[simp] theorem setBlk_jtag (st k : Nat) (b : BlkState) : (m.setBlk st k b).jtag = m.jtag := rfl
@[simp] theorem setBlk_power (st k : Nat) (b : BlkState) : (m.setBlk st k b).power = m.power := rfl
@[simp] theorem setBlk_ppsLast (st k : Nat) (b : BlkState) : (m.setBlk st k b).ppsLast = m.ppsLast := rfl
@[simp] theorem setBlk_ppsGood (st k : Nat) (b : BlkState) : (m.setBlk st k b).ppsGood = m.ppsGood := rfl
@[simp] theorem setBlk_ppsOut (st k : Nat) (b : BlkState) : (m.setBlk st k b).ppsOut = m.ppsOut := rfl
@[simp] theorem setBlk_kickAt (st k : Nat) (b : BlkState) : (m.setBlk st k b).kickAt = m.kickAt := rfl
@[simp] theorem setBlk_holdAt (st k : Nat) (b : BlkState) : (m.setBlk st k b).holdAt = m.holdAt := rfl
@[simp] theorem setBlk_secImage (st k : Nat) (b : BlkState) : (m.setBlk st k b).secImage = m.secImage := rfl
@[simp] theorem setBlk_holdImage (st k : Nat) (b : BlkState) : (m.setBlk st k b).holdImage = m.holdImage := rfl
@[simp] theorem setBlk_bootRec (st k : Nat) (b : BlkState) : (m.setBlk st k b).bootRec = m.bootRec := rfl
@[simp] theorem setBlk_prevRec (st k : Nat) (b : BlkState) : (m.setBlk st k b).prevRec = m.prevRec := rfl
@[simp] theorem setBlk_regsOff (st k : Nat) (b : BlkState) : (m.setBlk st k b).regsOff = m.regsOff := rfl
@[simp] theorem setBlk_fuseCe (st k : Nat) (b : BlkState) : (m.setBlk st k b).fuseCe = m.fuseCe := rfl
@[simp] theorem setBlk_fuseUe (st k : Nat) (b : BlkState) : (m.setBlk st k b).fuseUe = m.fuseUe := rfl
@[simp] theorem setBlk_fumSkip (st k : Nat) (b : BlkState) : (m.setBlk st k b).fumSkip = m.fumSkip := rfl
@[simp] theorem setBlk_tapOut (st k : Nat) (b : BlkState) : (m.setBlk st k b).tapOut = m.tapOut := rfl
@[simp] theorem setBlk_busOut (st k : Nat) (b : BlkState) : (m.setBlk st k b).busOut = m.busOut := rfl
@[simp] theorem setBlk_free (st k : Nat) (b : BlkState) : (m.setBlk st k b).free = m.free := rfl

/-! ### `setCore` -/

@[simp] theorem setCore_phase (c : Nat) (x : Core) : (m.setCore c x).phase = m.phase := rfl
@[simp] theorem setCore_shadows (c : Nat) (x : Core) : (m.setCore c x).shadows = m.shadows := rfl
@[simp] theorem setCore_mem (c : Nat) (x : Core) : (m.setCore c x).mem = m.mem := rfl
@[simp] theorem setCore_mmeta (c : Nat) (x : Core) : (m.setCore c x).mmeta = m.mmeta := rfl
@[simp] theorem setCore_ctl (c : Nat) (x : Core) : (m.setCore c x).ctl = m.ctl := rfl
@[simp] theorem setCore_blks (c : Nat) (x : Core) : (m.setCore c x).blks = m.blks := rfl
@[simp] theorem setCore_routes (c : Nat) (x : Core) : (m.setCore c x).routes = m.routes := rfl
@[simp] theorem setCore_evPend (c : Nat) (x : Core) : (m.setCore c x).evPend = m.evPend := rfl
@[simp] theorem setCore_reports (c : Nat) (x : Core) : (m.setCore c x).reports = m.reports := rfl
@[simp] theorem setCore_upsets (c : Nat) (x : Core) : (m.setCore c x).upsets = m.upsets := rfl
@[simp] theorem setCore_protLogs (c : Nat) (x : Core) : (m.setCore c x).protLogs = m.protLogs := rfl
@[simp] theorem setCore_sweepsRun (c : Nat) (x : Core) : (m.setCore c x).sweepsRun = m.sweepsRun := rfl
@[simp] theorem setCore_tagonly (c : Nat) (x : Core) : (m.setCore c x).tagonly = m.tagonly := rfl
@[simp] theorem setCore_dram (c : Nat) (x : Core) : (m.setCore c x).dram = m.dram := rfl
@[simp] theorem setCore_slt (c : Nat) (x : Core) : (m.setCore c x).slt = m.slt := rfl
@[simp] theorem setCore_fuses (c : Nat) (x : Core) : (m.setCore c x).fuses = m.fuses := rfl
@[simp] theorem setCore_dt (c : Nat) (x : Core) : (m.setCore c x).dt = m.dt := rfl
@[simp] theorem setCore_secTrig (c : Nat) (x : Core) : (m.setCore c x).secTrig = m.secTrig := rfl
@[simp] theorem setCore_mirWins (c : Nat) (x : Core) : (m.setCore c x).mirWins = m.mirWins := rfl
@[simp] theorem setCore_mirSeqs (c : Nat) (x : Core) : (m.setCore c x).mirSeqs = m.mirSeqs := rfl
@[simp] theorem setCore_fwds (c : Nat) (x : Core) : (m.setCore c x).fwds = m.fwds := rfl
@[simp] theorem setCore_l3 (c : Nat) (x : Core) : (m.setCore c x).l3 = m.l3 := rfl
@[simp] theorem setCore_dir (c : Nat) (x : Core) : (m.setCore c x).dir = m.dir := rfl
@[simp] theorem setCore_stale (c : Nat) (x : Core) : (m.setCore c x).stale = m.stale := rfl
@[simp] theorem setCore_txns (c : Nat) (x : Core) : (m.setCore c x).txns = m.txns := rfl
@[simp] theorem setCore_retried (c : Nat) (x : Core) : (m.setCore c x).retried = m.retried := rfl
@[simp] theorem setCore_gone (c : Nat) (x : Core) : (m.setCore c x).gone = m.gone := rfl
@[simp] theorem setCore_heldReqs (c : Nat) (x : Core) : (m.setCore c x).heldReqs = m.heldReqs := rfl
@[simp] theorem setCore_wbufs (c : Nat) (x : Core) : (m.setCore c x).wbufs = m.wbufs := rfl
@[simp] theorem setCore_sltMove (c : Nat) (x : Core) : (m.setCore c x).sltMove = m.sltMove := rfl
@[simp] theorem setCore_tokens (c : Nat) (x : Core) : (m.setCore c x).tokens = m.tokens := rfl
@[simp] theorem setCore_slots (c : Nat) (x : Core) : (m.setCore c x).slots = m.slots := rfl
@[simp] theorem setCore_slotNext (c : Nat) (x : Core) : (m.setCore c x).slotNext = m.slotNext := rfl
@[simp] theorem setCore_regions (c : Nat) (x : Core) : (m.setCore c x).regions = m.regions := rfl
@[simp] theorem setCore_mcReqs (c : Nat) (x : Core) : (m.setCore c x).mcReqs = m.mcReqs := rfl
@[simp] theorem setCore_mcRetried (c : Nat) (x : Core) : (m.setCore c x).mcRetried = m.mcRetried := rfl
@[simp] theorem setCore_mcDrain (c : Nat) (x : Core) : (m.setCore c x).mcDrain = m.mcDrain := rfl
@[simp] theorem setCore_mcTc3 (c : Nat) (x : Core) : (m.setCore c x).mcTc3 = m.mcTc3 := rfl
@[simp] theorem setCore_rows (c : Nat) (x : Core) : (m.setCore c x).rows = m.rows := rfl
@[simp] theorem setCore_refreshDue (c : Nat) (x : Core) : (m.setCore c x).refreshDue = m.refreshDue := rfl
@[simp] theorem setCore_retrains (c : Nat) (x : Core) : (m.setCore c x).retrains = m.retrains := rfl
@[simp] theorem setCore_remaps (c : Nat) (x : Core) : (m.setCore c x).remaps = m.remaps := rfl
@[simp] theorem setCore_patrols (c : Nat) (x : Core) : (m.setCore c x).patrols = m.patrols := rfl
@[simp] theorem setCore_sramPoison (c : Nat) (x : Core) : (m.setCore c x).sramPoison = m.sramPoison := rfl
@[simp] theorem setCore_fcSrc (c : Nat) (x : Core) : (m.setCore c x).fcSrc = m.fcSrc := rfl
@[simp] theorem setCore_caldLow (c : Nat) (x : Core) : (m.setCore c x).caldLow = m.caldLow := rfl
@[simp] theorem setCore_pxTab (c : Nat) (x : Core) : (m.setCore c x).pxTab = m.pxTab := rfl
@[simp] theorem setCore_egTab (c : Nat) (x : Core) : (m.setCore c x).egTab = m.egTab := rfl
@[simp] theorem setCore_handovers (c : Nat) (x : Core) : (m.setCore c x).handovers = m.handovers := rfl
@[simp] theorem setCore_ports (c : Nat) (x : Core) : (m.setCore c x).ports = m.ports := rfl
@[simp] theorem setCore_hists (c : Nat) (x : Core) : (m.setCore c x).hists = m.hists := rfl
@[simp] theorem setCore_meters (c : Nat) (x : Core) : (m.setCore c x).meters = m.meters := rfl
@[simp] theorem setCore_queues (c : Nat) (x : Core) : (m.setCore c x).queues = m.queues := rfl
@[simp] theorem setCore_engines (c : Nat) (x : Core) : (m.setCore c x).engines = m.engines := rfl
@[simp] theorem setCore_vqfs (c : Nat) (x : Core) : (m.setCore c x).vqfs = m.vqfs := rfl
@[simp] theorem setCore_pair (c : Nat) (x : Core) : (m.setCore c x).pair = m.pair := rfl
@[simp] theorem setCore_warm (c : Nat) (x : Core) : (m.setCore c x).warm = m.warm := rfl
@[simp] theorem setCore_warmWhy (c : Nat) (x : Core) : (m.setCore c x).warmWhy = m.warmWhy := rfl
@[simp] theorem setCore_dramKept (c : Nat) (x : Core) : (m.setCore c x).dramKept = m.dramKept := rfl
@[simp] theorem setCore_hios (c : Nat) (x : Core) : (m.setCore c x).hios = m.hios := rfl
@[simp] theorem setCore_cfgReqs (c : Nat) (x : Core) : (m.setCore c x).cfgReqs = m.cfgReqs := rfl
@[simp] theorem setCore_flash (c : Nat) (x : Core) : (m.setCore c x).flash = m.flash := rfl
@[simp] theorem setCore_mbx (c : Nat) (x : Core) : (m.setCore c x).mbx = m.mbx := rfl
@[simp] theorem setCore_dbg (c : Nat) (x : Core) : (m.setCore c x).dbg = m.dbg := rfl
@[simp] theorem setCore_jtag (c : Nat) (x : Core) : (m.setCore c x).jtag = m.jtag := rfl
@[simp] theorem setCore_power (c : Nat) (x : Core) : (m.setCore c x).power = m.power := rfl
@[simp] theorem setCore_ppsLast (c : Nat) (x : Core) : (m.setCore c x).ppsLast = m.ppsLast := rfl
@[simp] theorem setCore_ppsGood (c : Nat) (x : Core) : (m.setCore c x).ppsGood = m.ppsGood := rfl
@[simp] theorem setCore_ppsOut (c : Nat) (x : Core) : (m.setCore c x).ppsOut = m.ppsOut := rfl
@[simp] theorem setCore_kickAt (c : Nat) (x : Core) : (m.setCore c x).kickAt = m.kickAt := rfl
@[simp] theorem setCore_holdAt (c : Nat) (x : Core) : (m.setCore c x).holdAt = m.holdAt := rfl
@[simp] theorem setCore_secImage (c : Nat) (x : Core) : (m.setCore c x).secImage = m.secImage := rfl
@[simp] theorem setCore_holdImage (c : Nat) (x : Core) : (m.setCore c x).holdImage = m.holdImage := rfl
@[simp] theorem setCore_bootRec (c : Nat) (x : Core) : (m.setCore c x).bootRec = m.bootRec := rfl
@[simp] theorem setCore_prevRec (c : Nat) (x : Core) : (m.setCore c x).prevRec = m.prevRec := rfl
@[simp] theorem setCore_regsOff (c : Nat) (x : Core) : (m.setCore c x).regsOff = m.regsOff := rfl
@[simp] theorem setCore_fuseCe (c : Nat) (x : Core) : (m.setCore c x).fuseCe = m.fuseCe := rfl
@[simp] theorem setCore_fuseUe (c : Nat) (x : Core) : (m.setCore c x).fuseUe = m.fuseUe := rfl
@[simp] theorem setCore_fumSkip (c : Nat) (x : Core) : (m.setCore c x).fumSkip = m.fumSkip := rfl
@[simp] theorem setCore_tapOut (c : Nat) (x : Core) : (m.setCore c x).tapOut = m.tapOut := rfl
@[simp] theorem setCore_busOut (c : Nat) (x : Core) : (m.setCore c x).busOut = m.busOut := rfl
@[simp] theorem setCore_free (c : Nat) (x : Core) : (m.setCore c x).free = m.free := rfl

/-! ### `setFc` -/

@[simp] theorem setFc_phase (n : Nat) (x : FcSrc) : (m.setFc n x).phase = m.phase := rfl
@[simp] theorem setFc_shadows (n : Nat) (x : FcSrc) : (m.setFc n x).shadows = m.shadows := rfl
@[simp] theorem setFc_cores (n : Nat) (x : FcSrc) : (m.setFc n x).cores = m.cores := rfl
@[simp] theorem setFc_mem (n : Nat) (x : FcSrc) : (m.setFc n x).mem = m.mem := rfl
@[simp] theorem setFc_mmeta (n : Nat) (x : FcSrc) : (m.setFc n x).mmeta = m.mmeta := rfl
@[simp] theorem setFc_ctl (n : Nat) (x : FcSrc) : (m.setFc n x).ctl = m.ctl := rfl
@[simp] theorem setFc_blks (n : Nat) (x : FcSrc) : (m.setFc n x).blks = m.blks := rfl
@[simp] theorem setFc_routes (n : Nat) (x : FcSrc) : (m.setFc n x).routes = m.routes := rfl
@[simp] theorem setFc_evPend (n : Nat) (x : FcSrc) : (m.setFc n x).evPend = m.evPend := rfl
@[simp] theorem setFc_reports (n : Nat) (x : FcSrc) : (m.setFc n x).reports = m.reports := rfl
@[simp] theorem setFc_upsets (n : Nat) (x : FcSrc) : (m.setFc n x).upsets = m.upsets := rfl
@[simp] theorem setFc_protLogs (n : Nat) (x : FcSrc) : (m.setFc n x).protLogs = m.protLogs := rfl
@[simp] theorem setFc_sweepsRun (n : Nat) (x : FcSrc) : (m.setFc n x).sweepsRun = m.sweepsRun := rfl
@[simp] theorem setFc_tagonly (n : Nat) (x : FcSrc) : (m.setFc n x).tagonly = m.tagonly := rfl
@[simp] theorem setFc_dram (n : Nat) (x : FcSrc) : (m.setFc n x).dram = m.dram := rfl
@[simp] theorem setFc_slt (n : Nat) (x : FcSrc) : (m.setFc n x).slt = m.slt := rfl
@[simp] theorem setFc_fuses (n : Nat) (x : FcSrc) : (m.setFc n x).fuses = m.fuses := rfl
@[simp] theorem setFc_dt (n : Nat) (x : FcSrc) : (m.setFc n x).dt = m.dt := rfl
@[simp] theorem setFc_secTrig (n : Nat) (x : FcSrc) : (m.setFc n x).secTrig = m.secTrig := rfl
@[simp] theorem setFc_mirWins (n : Nat) (x : FcSrc) : (m.setFc n x).mirWins = m.mirWins := rfl
@[simp] theorem setFc_mirSeqs (n : Nat) (x : FcSrc) : (m.setFc n x).mirSeqs = m.mirSeqs := rfl
@[simp] theorem setFc_fwds (n : Nat) (x : FcSrc) : (m.setFc n x).fwds = m.fwds := rfl
@[simp] theorem setFc_l3 (n : Nat) (x : FcSrc) : (m.setFc n x).l3 = m.l3 := rfl
@[simp] theorem setFc_dir (n : Nat) (x : FcSrc) : (m.setFc n x).dir = m.dir := rfl
@[simp] theorem setFc_stale (n : Nat) (x : FcSrc) : (m.setFc n x).stale = m.stale := rfl
@[simp] theorem setFc_txns (n : Nat) (x : FcSrc) : (m.setFc n x).txns = m.txns := rfl
@[simp] theorem setFc_retried (n : Nat) (x : FcSrc) : (m.setFc n x).retried = m.retried := rfl
@[simp] theorem setFc_gone (n : Nat) (x : FcSrc) : (m.setFc n x).gone = m.gone := rfl
@[simp] theorem setFc_heldReqs (n : Nat) (x : FcSrc) : (m.setFc n x).heldReqs = m.heldReqs := rfl
@[simp] theorem setFc_wbufs (n : Nat) (x : FcSrc) : (m.setFc n x).wbufs = m.wbufs := rfl
@[simp] theorem setFc_sltMove (n : Nat) (x : FcSrc) : (m.setFc n x).sltMove = m.sltMove := rfl
@[simp] theorem setFc_tokens (n : Nat) (x : FcSrc) : (m.setFc n x).tokens = m.tokens := rfl
@[simp] theorem setFc_slots (n : Nat) (x : FcSrc) : (m.setFc n x).slots = m.slots := rfl
@[simp] theorem setFc_slotNext (n : Nat) (x : FcSrc) : (m.setFc n x).slotNext = m.slotNext := rfl
@[simp] theorem setFc_regions (n : Nat) (x : FcSrc) : (m.setFc n x).regions = m.regions := rfl
@[simp] theorem setFc_mcReqs (n : Nat) (x : FcSrc) : (m.setFc n x).mcReqs = m.mcReqs := rfl
@[simp] theorem setFc_mcRetried (n : Nat) (x : FcSrc) : (m.setFc n x).mcRetried = m.mcRetried := rfl
@[simp] theorem setFc_mcDrain (n : Nat) (x : FcSrc) : (m.setFc n x).mcDrain = m.mcDrain := rfl
@[simp] theorem setFc_mcTc3 (n : Nat) (x : FcSrc) : (m.setFc n x).mcTc3 = m.mcTc3 := rfl
@[simp] theorem setFc_rows (n : Nat) (x : FcSrc) : (m.setFc n x).rows = m.rows := rfl
@[simp] theorem setFc_refreshDue (n : Nat) (x : FcSrc) : (m.setFc n x).refreshDue = m.refreshDue := rfl
@[simp] theorem setFc_retrains (n : Nat) (x : FcSrc) : (m.setFc n x).retrains = m.retrains := rfl
@[simp] theorem setFc_remaps (n : Nat) (x : FcSrc) : (m.setFc n x).remaps = m.remaps := rfl
@[simp] theorem setFc_patrols (n : Nat) (x : FcSrc) : (m.setFc n x).patrols = m.patrols := rfl
@[simp] theorem setFc_sramPoison (n : Nat) (x : FcSrc) : (m.setFc n x).sramPoison = m.sramPoison := rfl
@[simp] theorem setFc_caldLow (n : Nat) (x : FcSrc) : (m.setFc n x).caldLow = m.caldLow := rfl
@[simp] theorem setFc_pxTab (n : Nat) (x : FcSrc) : (m.setFc n x).pxTab = m.pxTab := rfl
@[simp] theorem setFc_egTab (n : Nat) (x : FcSrc) : (m.setFc n x).egTab = m.egTab := rfl
@[simp] theorem setFc_handovers (n : Nat) (x : FcSrc) : (m.setFc n x).handovers = m.handovers := rfl
@[simp] theorem setFc_ports (n : Nat) (x : FcSrc) : (m.setFc n x).ports = m.ports := rfl
@[simp] theorem setFc_hists (n : Nat) (x : FcSrc) : (m.setFc n x).hists = m.hists := rfl
@[simp] theorem setFc_meters (n : Nat) (x : FcSrc) : (m.setFc n x).meters = m.meters := rfl
@[simp] theorem setFc_queues (n : Nat) (x : FcSrc) : (m.setFc n x).queues = m.queues := rfl
@[simp] theorem setFc_engines (n : Nat) (x : FcSrc) : (m.setFc n x).engines = m.engines := rfl
@[simp] theorem setFc_vqfs (n : Nat) (x : FcSrc) : (m.setFc n x).vqfs = m.vqfs := rfl
@[simp] theorem setFc_pair (n : Nat) (x : FcSrc) : (m.setFc n x).pair = m.pair := rfl
@[simp] theorem setFc_warm (n : Nat) (x : FcSrc) : (m.setFc n x).warm = m.warm := rfl
@[simp] theorem setFc_warmWhy (n : Nat) (x : FcSrc) : (m.setFc n x).warmWhy = m.warmWhy := rfl
@[simp] theorem setFc_dramKept (n : Nat) (x : FcSrc) : (m.setFc n x).dramKept = m.dramKept := rfl
@[simp] theorem setFc_hios (n : Nat) (x : FcSrc) : (m.setFc n x).hios = m.hios := rfl
@[simp] theorem setFc_cfgReqs (n : Nat) (x : FcSrc) : (m.setFc n x).cfgReqs = m.cfgReqs := rfl
@[simp] theorem setFc_flash (n : Nat) (x : FcSrc) : (m.setFc n x).flash = m.flash := rfl
@[simp] theorem setFc_mbx (n : Nat) (x : FcSrc) : (m.setFc n x).mbx = m.mbx := rfl
@[simp] theorem setFc_dbg (n : Nat) (x : FcSrc) : (m.setFc n x).dbg = m.dbg := rfl
@[simp] theorem setFc_jtag (n : Nat) (x : FcSrc) : (m.setFc n x).jtag = m.jtag := rfl
@[simp] theorem setFc_power (n : Nat) (x : FcSrc) : (m.setFc n x).power = m.power := rfl
@[simp] theorem setFc_ppsLast (n : Nat) (x : FcSrc) : (m.setFc n x).ppsLast = m.ppsLast := rfl
@[simp] theorem setFc_ppsGood (n : Nat) (x : FcSrc) : (m.setFc n x).ppsGood = m.ppsGood := rfl
@[simp] theorem setFc_ppsOut (n : Nat) (x : FcSrc) : (m.setFc n x).ppsOut = m.ppsOut := rfl
@[simp] theorem setFc_kickAt (n : Nat) (x : FcSrc) : (m.setFc n x).kickAt = m.kickAt := rfl
@[simp] theorem setFc_holdAt (n : Nat) (x : FcSrc) : (m.setFc n x).holdAt = m.holdAt := rfl
@[simp] theorem setFc_secImage (n : Nat) (x : FcSrc) : (m.setFc n x).secImage = m.secImage := rfl
@[simp] theorem setFc_holdImage (n : Nat) (x : FcSrc) : (m.setFc n x).holdImage = m.holdImage := rfl
@[simp] theorem setFc_bootRec (n : Nat) (x : FcSrc) : (m.setFc n x).bootRec = m.bootRec := rfl
@[simp] theorem setFc_prevRec (n : Nat) (x : FcSrc) : (m.setFc n x).prevRec = m.prevRec := rfl
@[simp] theorem setFc_regsOff (n : Nat) (x : FcSrc) : (m.setFc n x).regsOff = m.regsOff := rfl
@[simp] theorem setFc_fuseCe (n : Nat) (x : FcSrc) : (m.setFc n x).fuseCe = m.fuseCe := rfl
@[simp] theorem setFc_fuseUe (n : Nat) (x : FcSrc) : (m.setFc n x).fuseUe = m.fuseUe := rfl
@[simp] theorem setFc_fumSkip (n : Nat) (x : FcSrc) : (m.setFc n x).fumSkip = m.fumSkip := rfl
@[simp] theorem setFc_tapOut (n : Nat) (x : FcSrc) : (m.setFc n x).tapOut = m.tapOut := rfl
@[simp] theorem setFc_busOut (n : Nat) (x : FcSrc) : (m.setFc n x).busOut = m.busOut := rfl
@[simp] theorem setFc_free (n : Nat) (x : FcSrc) : (m.setFc n x).free = m.free := rfl

/-! ### `setHio` -/

@[simp] theorem setHio_phase (h : Nat) (x : HioRt) : (m.setHio h x).phase = m.phase := rfl
@[simp] theorem setHio_shadows (h : Nat) (x : HioRt) : (m.setHio h x).shadows = m.shadows := rfl
@[simp] theorem setHio_cores (h : Nat) (x : HioRt) : (m.setHio h x).cores = m.cores := rfl
@[simp] theorem setHio_mem (h : Nat) (x : HioRt) : (m.setHio h x).mem = m.mem := rfl
@[simp] theorem setHio_mmeta (h : Nat) (x : HioRt) : (m.setHio h x).mmeta = m.mmeta := rfl
@[simp] theorem setHio_ctl (h : Nat) (x : HioRt) : (m.setHio h x).ctl = m.ctl := rfl
@[simp] theorem setHio_blks (h : Nat) (x : HioRt) : (m.setHio h x).blks = m.blks := rfl
@[simp] theorem setHio_routes (h : Nat) (x : HioRt) : (m.setHio h x).routes = m.routes := rfl
@[simp] theorem setHio_evPend (h : Nat) (x : HioRt) : (m.setHio h x).evPend = m.evPend := rfl
@[simp] theorem setHio_reports (h : Nat) (x : HioRt) : (m.setHio h x).reports = m.reports := rfl
@[simp] theorem setHio_upsets (h : Nat) (x : HioRt) : (m.setHio h x).upsets = m.upsets := rfl
@[simp] theorem setHio_protLogs (h : Nat) (x : HioRt) : (m.setHio h x).protLogs = m.protLogs := rfl
@[simp] theorem setHio_sweepsRun (h : Nat) (x : HioRt) : (m.setHio h x).sweepsRun = m.sweepsRun := rfl
@[simp] theorem setHio_tagonly (h : Nat) (x : HioRt) : (m.setHio h x).tagonly = m.tagonly := rfl
@[simp] theorem setHio_dram (h : Nat) (x : HioRt) : (m.setHio h x).dram = m.dram := rfl
@[simp] theorem setHio_slt (h : Nat) (x : HioRt) : (m.setHio h x).slt = m.slt := rfl
@[simp] theorem setHio_fuses (h : Nat) (x : HioRt) : (m.setHio h x).fuses = m.fuses := rfl
@[simp] theorem setHio_dt (h : Nat) (x : HioRt) : (m.setHio h x).dt = m.dt := rfl
@[simp] theorem setHio_secTrig (h : Nat) (x : HioRt) : (m.setHio h x).secTrig = m.secTrig := rfl
@[simp] theorem setHio_mirWins (h : Nat) (x : HioRt) : (m.setHio h x).mirWins = m.mirWins := rfl
@[simp] theorem setHio_mirSeqs (h : Nat) (x : HioRt) : (m.setHio h x).mirSeqs = m.mirSeqs := rfl
@[simp] theorem setHio_fwds (h : Nat) (x : HioRt) : (m.setHio h x).fwds = m.fwds := rfl
@[simp] theorem setHio_l3 (h : Nat) (x : HioRt) : (m.setHio h x).l3 = m.l3 := rfl
@[simp] theorem setHio_dir (h : Nat) (x : HioRt) : (m.setHio h x).dir = m.dir := rfl
@[simp] theorem setHio_stale (h : Nat) (x : HioRt) : (m.setHio h x).stale = m.stale := rfl
@[simp] theorem setHio_txns (h : Nat) (x : HioRt) : (m.setHio h x).txns = m.txns := rfl
@[simp] theorem setHio_retried (h : Nat) (x : HioRt) : (m.setHio h x).retried = m.retried := rfl
@[simp] theorem setHio_gone (h : Nat) (x : HioRt) : (m.setHio h x).gone = m.gone := rfl
@[simp] theorem setHio_heldReqs (h : Nat) (x : HioRt) : (m.setHio h x).heldReqs = m.heldReqs := rfl
@[simp] theorem setHio_wbufs (h : Nat) (x : HioRt) : (m.setHio h x).wbufs = m.wbufs := rfl
@[simp] theorem setHio_sltMove (h : Nat) (x : HioRt) : (m.setHio h x).sltMove = m.sltMove := rfl
@[simp] theorem setHio_tokens (h : Nat) (x : HioRt) : (m.setHio h x).tokens = m.tokens := rfl
@[simp] theorem setHio_slots (h : Nat) (x : HioRt) : (m.setHio h x).slots = m.slots := rfl
@[simp] theorem setHio_slotNext (h : Nat) (x : HioRt) : (m.setHio h x).slotNext = m.slotNext := rfl
@[simp] theorem setHio_regions (h : Nat) (x : HioRt) : (m.setHio h x).regions = m.regions := rfl
@[simp] theorem setHio_mcReqs (h : Nat) (x : HioRt) : (m.setHio h x).mcReqs = m.mcReqs := rfl
@[simp] theorem setHio_mcRetried (h : Nat) (x : HioRt) : (m.setHio h x).mcRetried = m.mcRetried := rfl
@[simp] theorem setHio_mcDrain (h : Nat) (x : HioRt) : (m.setHio h x).mcDrain = m.mcDrain := rfl
@[simp] theorem setHio_mcTc3 (h : Nat) (x : HioRt) : (m.setHio h x).mcTc3 = m.mcTc3 := rfl
@[simp] theorem setHio_rows (h : Nat) (x : HioRt) : (m.setHio h x).rows = m.rows := rfl
@[simp] theorem setHio_refreshDue (h : Nat) (x : HioRt) : (m.setHio h x).refreshDue = m.refreshDue := rfl
@[simp] theorem setHio_retrains (h : Nat) (x : HioRt) : (m.setHio h x).retrains = m.retrains := rfl
@[simp] theorem setHio_remaps (h : Nat) (x : HioRt) : (m.setHio h x).remaps = m.remaps := rfl
@[simp] theorem setHio_patrols (h : Nat) (x : HioRt) : (m.setHio h x).patrols = m.patrols := rfl
@[simp] theorem setHio_sramPoison (h : Nat) (x : HioRt) : (m.setHio h x).sramPoison = m.sramPoison := rfl
@[simp] theorem setHio_fcSrc (h : Nat) (x : HioRt) : (m.setHio h x).fcSrc = m.fcSrc := rfl
@[simp] theorem setHio_caldLow (h : Nat) (x : HioRt) : (m.setHio h x).caldLow = m.caldLow := rfl
@[simp] theorem setHio_pxTab (h : Nat) (x : HioRt) : (m.setHio h x).pxTab = m.pxTab := rfl
@[simp] theorem setHio_egTab (h : Nat) (x : HioRt) : (m.setHio h x).egTab = m.egTab := rfl
@[simp] theorem setHio_handovers (h : Nat) (x : HioRt) : (m.setHio h x).handovers = m.handovers := rfl
@[simp] theorem setHio_ports (h : Nat) (x : HioRt) : (m.setHio h x).ports = m.ports := rfl
@[simp] theorem setHio_hists (h : Nat) (x : HioRt) : (m.setHio h x).hists = m.hists := rfl
@[simp] theorem setHio_meters (h : Nat) (x : HioRt) : (m.setHio h x).meters = m.meters := rfl
@[simp] theorem setHio_queues (h : Nat) (x : HioRt) : (m.setHio h x).queues = m.queues := rfl
@[simp] theorem setHio_engines (h : Nat) (x : HioRt) : (m.setHio h x).engines = m.engines := rfl
@[simp] theorem setHio_vqfs (h : Nat) (x : HioRt) : (m.setHio h x).vqfs = m.vqfs := rfl
@[simp] theorem setHio_pair (h : Nat) (x : HioRt) : (m.setHio h x).pair = m.pair := rfl
@[simp] theorem setHio_warm (h : Nat) (x : HioRt) : (m.setHio h x).warm = m.warm := rfl
@[simp] theorem setHio_warmWhy (h : Nat) (x : HioRt) : (m.setHio h x).warmWhy = m.warmWhy := rfl
@[simp] theorem setHio_dramKept (h : Nat) (x : HioRt) : (m.setHio h x).dramKept = m.dramKept := rfl
@[simp] theorem setHio_cfgReqs (h : Nat) (x : HioRt) : (m.setHio h x).cfgReqs = m.cfgReqs := rfl
@[simp] theorem setHio_flash (h : Nat) (x : HioRt) : (m.setHio h x).flash = m.flash := rfl
@[simp] theorem setHio_mbx (h : Nat) (x : HioRt) : (m.setHio h x).mbx = m.mbx := rfl
@[simp] theorem setHio_dbg (h : Nat) (x : HioRt) : (m.setHio h x).dbg = m.dbg := rfl
@[simp] theorem setHio_jtag (h : Nat) (x : HioRt) : (m.setHio h x).jtag = m.jtag := rfl
@[simp] theorem setHio_power (h : Nat) (x : HioRt) : (m.setHio h x).power = m.power := rfl
@[simp] theorem setHio_ppsLast (h : Nat) (x : HioRt) : (m.setHio h x).ppsLast = m.ppsLast := rfl
@[simp] theorem setHio_ppsGood (h : Nat) (x : HioRt) : (m.setHio h x).ppsGood = m.ppsGood := rfl
@[simp] theorem setHio_ppsOut (h : Nat) (x : HioRt) : (m.setHio h x).ppsOut = m.ppsOut := rfl
@[simp] theorem setHio_kickAt (h : Nat) (x : HioRt) : (m.setHio h x).kickAt = m.kickAt := rfl
@[simp] theorem setHio_holdAt (h : Nat) (x : HioRt) : (m.setHio h x).holdAt = m.holdAt := rfl
@[simp] theorem setHio_secImage (h : Nat) (x : HioRt) : (m.setHio h x).secImage = m.secImage := rfl
@[simp] theorem setHio_holdImage (h : Nat) (x : HioRt) : (m.setHio h x).holdImage = m.holdImage := rfl
@[simp] theorem setHio_bootRec (h : Nat) (x : HioRt) : (m.setHio h x).bootRec = m.bootRec := rfl
@[simp] theorem setHio_prevRec (h : Nat) (x : HioRt) : (m.setHio h x).prevRec = m.prevRec := rfl
@[simp] theorem setHio_regsOff (h : Nat) (x : HioRt) : (m.setHio h x).regsOff = m.regsOff := rfl
@[simp] theorem setHio_fuseCe (h : Nat) (x : HioRt) : (m.setHio h x).fuseCe = m.fuseCe := rfl
@[simp] theorem setHio_fuseUe (h : Nat) (x : HioRt) : (m.setHio h x).fuseUe = m.fuseUe := rfl
@[simp] theorem setHio_fumSkip (h : Nat) (x : HioRt) : (m.setHio h x).fumSkip = m.fumSkip := rfl
@[simp] theorem setHio_tapOut (h : Nat) (x : HioRt) : (m.setHio h x).tapOut = m.tapOut := rfl
@[simp] theorem setHio_busOut (h : Nat) (x : HioRt) : (m.setHio h x).busOut = m.busOut := rfl
@[simp] theorem setHio_free (h : Nat) (x : HioRt) : (m.setHio h x).free = m.free := rfl

/-! ### `setQueue` -/

@[simp] theorem setQueue_phase (q : Nat) (x : Queue) : (m.setQueue q x).phase = m.phase := rfl
@[simp] theorem setQueue_shadows (q : Nat) (x : Queue) : (m.setQueue q x).shadows = m.shadows := rfl
@[simp] theorem setQueue_cores (q : Nat) (x : Queue) : (m.setQueue q x).cores = m.cores := rfl
@[simp] theorem setQueue_mem (q : Nat) (x : Queue) : (m.setQueue q x).mem = m.mem := rfl
@[simp] theorem setQueue_mmeta (q : Nat) (x : Queue) : (m.setQueue q x).mmeta = m.mmeta := rfl
@[simp] theorem setQueue_ctl (q : Nat) (x : Queue) : (m.setQueue q x).ctl = m.ctl := rfl
@[simp] theorem setQueue_blks (q : Nat) (x : Queue) : (m.setQueue q x).blks = m.blks := rfl
@[simp] theorem setQueue_routes (q : Nat) (x : Queue) : (m.setQueue q x).routes = m.routes := rfl
@[simp] theorem setQueue_evPend (q : Nat) (x : Queue) : (m.setQueue q x).evPend = m.evPend := rfl
@[simp] theorem setQueue_reports (q : Nat) (x : Queue) : (m.setQueue q x).reports = m.reports := rfl
@[simp] theorem setQueue_upsets (q : Nat) (x : Queue) : (m.setQueue q x).upsets = m.upsets := rfl
@[simp] theorem setQueue_protLogs (q : Nat) (x : Queue) : (m.setQueue q x).protLogs = m.protLogs := rfl
@[simp] theorem setQueue_sweepsRun (q : Nat) (x : Queue) : (m.setQueue q x).sweepsRun = m.sweepsRun := rfl
@[simp] theorem setQueue_tagonly (q : Nat) (x : Queue) : (m.setQueue q x).tagonly = m.tagonly := rfl
@[simp] theorem setQueue_dram (q : Nat) (x : Queue) : (m.setQueue q x).dram = m.dram := rfl
@[simp] theorem setQueue_slt (q : Nat) (x : Queue) : (m.setQueue q x).slt = m.slt := rfl
@[simp] theorem setQueue_fuses (q : Nat) (x : Queue) : (m.setQueue q x).fuses = m.fuses := rfl
@[simp] theorem setQueue_dt (q : Nat) (x : Queue) : (m.setQueue q x).dt = m.dt := rfl
@[simp] theorem setQueue_secTrig (q : Nat) (x : Queue) : (m.setQueue q x).secTrig = m.secTrig := rfl
@[simp] theorem setQueue_mirWins (q : Nat) (x : Queue) : (m.setQueue q x).mirWins = m.mirWins := rfl
@[simp] theorem setQueue_mirSeqs (q : Nat) (x : Queue) : (m.setQueue q x).mirSeqs = m.mirSeqs := rfl
@[simp] theorem setQueue_fwds (q : Nat) (x : Queue) : (m.setQueue q x).fwds = m.fwds := rfl
@[simp] theorem setQueue_l3 (q : Nat) (x : Queue) : (m.setQueue q x).l3 = m.l3 := rfl
@[simp] theorem setQueue_dir (q : Nat) (x : Queue) : (m.setQueue q x).dir = m.dir := rfl
@[simp] theorem setQueue_stale (q : Nat) (x : Queue) : (m.setQueue q x).stale = m.stale := rfl
@[simp] theorem setQueue_txns (q : Nat) (x : Queue) : (m.setQueue q x).txns = m.txns := rfl
@[simp] theorem setQueue_retried (q : Nat) (x : Queue) : (m.setQueue q x).retried = m.retried := rfl
@[simp] theorem setQueue_gone (q : Nat) (x : Queue) : (m.setQueue q x).gone = m.gone := rfl
@[simp] theorem setQueue_heldReqs (q : Nat) (x : Queue) : (m.setQueue q x).heldReqs = m.heldReqs := rfl
@[simp] theorem setQueue_wbufs (q : Nat) (x : Queue) : (m.setQueue q x).wbufs = m.wbufs := rfl
@[simp] theorem setQueue_sltMove (q : Nat) (x : Queue) : (m.setQueue q x).sltMove = m.sltMove := rfl
@[simp] theorem setQueue_tokens (q : Nat) (x : Queue) : (m.setQueue q x).tokens = m.tokens := rfl
@[simp] theorem setQueue_slots (q : Nat) (x : Queue) : (m.setQueue q x).slots = m.slots := rfl
@[simp] theorem setQueue_slotNext (q : Nat) (x : Queue) : (m.setQueue q x).slotNext = m.slotNext := rfl
@[simp] theorem setQueue_regions (q : Nat) (x : Queue) : (m.setQueue q x).regions = m.regions := rfl
@[simp] theorem setQueue_mcReqs (q : Nat) (x : Queue) : (m.setQueue q x).mcReqs = m.mcReqs := rfl
@[simp] theorem setQueue_mcRetried (q : Nat) (x : Queue) : (m.setQueue q x).mcRetried = m.mcRetried := rfl
@[simp] theorem setQueue_mcDrain (q : Nat) (x : Queue) : (m.setQueue q x).mcDrain = m.mcDrain := rfl
@[simp] theorem setQueue_mcTc3 (q : Nat) (x : Queue) : (m.setQueue q x).mcTc3 = m.mcTc3 := rfl
@[simp] theorem setQueue_rows (q : Nat) (x : Queue) : (m.setQueue q x).rows = m.rows := rfl
@[simp] theorem setQueue_refreshDue (q : Nat) (x : Queue) : (m.setQueue q x).refreshDue = m.refreshDue := rfl
@[simp] theorem setQueue_retrains (q : Nat) (x : Queue) : (m.setQueue q x).retrains = m.retrains := rfl
@[simp] theorem setQueue_remaps (q : Nat) (x : Queue) : (m.setQueue q x).remaps = m.remaps := rfl
@[simp] theorem setQueue_patrols (q : Nat) (x : Queue) : (m.setQueue q x).patrols = m.patrols := rfl
@[simp] theorem setQueue_sramPoison (q : Nat) (x : Queue) : (m.setQueue q x).sramPoison = m.sramPoison := rfl
@[simp] theorem setQueue_fcSrc (q : Nat) (x : Queue) : (m.setQueue q x).fcSrc = m.fcSrc := rfl
@[simp] theorem setQueue_caldLow (q : Nat) (x : Queue) : (m.setQueue q x).caldLow = m.caldLow := rfl
@[simp] theorem setQueue_pxTab (q : Nat) (x : Queue) : (m.setQueue q x).pxTab = m.pxTab := rfl
@[simp] theorem setQueue_egTab (q : Nat) (x : Queue) : (m.setQueue q x).egTab = m.egTab := rfl
@[simp] theorem setQueue_handovers (q : Nat) (x : Queue) : (m.setQueue q x).handovers = m.handovers := rfl
@[simp] theorem setQueue_ports (q : Nat) (x : Queue) : (m.setQueue q x).ports = m.ports := rfl
@[simp] theorem setQueue_hists (q : Nat) (x : Queue) : (m.setQueue q x).hists = m.hists := rfl
@[simp] theorem setQueue_meters (q : Nat) (x : Queue) : (m.setQueue q x).meters = m.meters := rfl
@[simp] theorem setQueue_engines (q : Nat) (x : Queue) : (m.setQueue q x).engines = m.engines := rfl
@[simp] theorem setQueue_vqfs (q : Nat) (x : Queue) : (m.setQueue q x).vqfs = m.vqfs := rfl
@[simp] theorem setQueue_pair (q : Nat) (x : Queue) : (m.setQueue q x).pair = m.pair := rfl
@[simp] theorem setQueue_warm (q : Nat) (x : Queue) : (m.setQueue q x).warm = m.warm := rfl
@[simp] theorem setQueue_warmWhy (q : Nat) (x : Queue) : (m.setQueue q x).warmWhy = m.warmWhy := rfl
@[simp] theorem setQueue_dramKept (q : Nat) (x : Queue) : (m.setQueue q x).dramKept = m.dramKept := rfl
@[simp] theorem setQueue_hios (q : Nat) (x : Queue) : (m.setQueue q x).hios = m.hios := rfl
@[simp] theorem setQueue_cfgReqs (q : Nat) (x : Queue) : (m.setQueue q x).cfgReqs = m.cfgReqs := rfl
@[simp] theorem setQueue_flash (q : Nat) (x : Queue) : (m.setQueue q x).flash = m.flash := rfl
@[simp] theorem setQueue_mbx (q : Nat) (x : Queue) : (m.setQueue q x).mbx = m.mbx := rfl
@[simp] theorem setQueue_dbg (q : Nat) (x : Queue) : (m.setQueue q x).dbg = m.dbg := rfl
@[simp] theorem setQueue_jtag (q : Nat) (x : Queue) : (m.setQueue q x).jtag = m.jtag := rfl
@[simp] theorem setQueue_power (q : Nat) (x : Queue) : (m.setQueue q x).power = m.power := rfl
@[simp] theorem setQueue_ppsLast (q : Nat) (x : Queue) : (m.setQueue q x).ppsLast = m.ppsLast := rfl
@[simp] theorem setQueue_ppsGood (q : Nat) (x : Queue) : (m.setQueue q x).ppsGood = m.ppsGood := rfl
@[simp] theorem setQueue_ppsOut (q : Nat) (x : Queue) : (m.setQueue q x).ppsOut = m.ppsOut := rfl
@[simp] theorem setQueue_kickAt (q : Nat) (x : Queue) : (m.setQueue q x).kickAt = m.kickAt := rfl
@[simp] theorem setQueue_holdAt (q : Nat) (x : Queue) : (m.setQueue q x).holdAt = m.holdAt := rfl
@[simp] theorem setQueue_secImage (q : Nat) (x : Queue) : (m.setQueue q x).secImage = m.secImage := rfl
@[simp] theorem setQueue_holdImage (q : Nat) (x : Queue) : (m.setQueue q x).holdImage = m.holdImage := rfl
@[simp] theorem setQueue_bootRec (q : Nat) (x : Queue) : (m.setQueue q x).bootRec = m.bootRec := rfl
@[simp] theorem setQueue_prevRec (q : Nat) (x : Queue) : (m.setQueue q x).prevRec = m.prevRec := rfl
@[simp] theorem setQueue_regsOff (q : Nat) (x : Queue) : (m.setQueue q x).regsOff = m.regsOff := rfl
@[simp] theorem setQueue_fuseCe (q : Nat) (x : Queue) : (m.setQueue q x).fuseCe = m.fuseCe := rfl
@[simp] theorem setQueue_fuseUe (q : Nat) (x : Queue) : (m.setQueue q x).fuseUe = m.fuseUe := rfl
@[simp] theorem setQueue_fumSkip (q : Nat) (x : Queue) : (m.setQueue q x).fumSkip = m.fumSkip := rfl
@[simp] theorem setQueue_tapOut (q : Nat) (x : Queue) : (m.setQueue q x).tapOut = m.tapOut := rfl
@[simp] theorem setQueue_busOut (q : Nat) (x : Queue) : (m.setQueue q x).busOut = m.busOut := rfl
@[simp] theorem setQueue_free (q : Nat) (x : Queue) : (m.setQueue q x).free = m.free := rfl

/-! ### `setEngine` -/

@[simp] theorem setEngine_phase (e : Nat) (x : Engine) : (m.setEngine e x).phase = m.phase := rfl
@[simp] theorem setEngine_shadows (e : Nat) (x : Engine) : (m.setEngine e x).shadows = m.shadows := rfl
@[simp] theorem setEngine_cores (e : Nat) (x : Engine) : (m.setEngine e x).cores = m.cores := rfl
@[simp] theorem setEngine_mem (e : Nat) (x : Engine) : (m.setEngine e x).mem = m.mem := rfl
@[simp] theorem setEngine_mmeta (e : Nat) (x : Engine) : (m.setEngine e x).mmeta = m.mmeta := rfl
@[simp] theorem setEngine_ctl (e : Nat) (x : Engine) : (m.setEngine e x).ctl = m.ctl := rfl
@[simp] theorem setEngine_blks (e : Nat) (x : Engine) : (m.setEngine e x).blks = m.blks := rfl
@[simp] theorem setEngine_routes (e : Nat) (x : Engine) : (m.setEngine e x).routes = m.routes := rfl
@[simp] theorem setEngine_evPend (e : Nat) (x : Engine) : (m.setEngine e x).evPend = m.evPend := rfl
@[simp] theorem setEngine_reports (e : Nat) (x : Engine) : (m.setEngine e x).reports = m.reports := rfl
@[simp] theorem setEngine_upsets (e : Nat) (x : Engine) : (m.setEngine e x).upsets = m.upsets := rfl
@[simp] theorem setEngine_protLogs (e : Nat) (x : Engine) : (m.setEngine e x).protLogs = m.protLogs := rfl
@[simp] theorem setEngine_sweepsRun (e : Nat) (x : Engine) : (m.setEngine e x).sweepsRun = m.sweepsRun := rfl
@[simp] theorem setEngine_tagonly (e : Nat) (x : Engine) : (m.setEngine e x).tagonly = m.tagonly := rfl
@[simp] theorem setEngine_dram (e : Nat) (x : Engine) : (m.setEngine e x).dram = m.dram := rfl
@[simp] theorem setEngine_slt (e : Nat) (x : Engine) : (m.setEngine e x).slt = m.slt := rfl
@[simp] theorem setEngine_fuses (e : Nat) (x : Engine) : (m.setEngine e x).fuses = m.fuses := rfl
@[simp] theorem setEngine_dt (e : Nat) (x : Engine) : (m.setEngine e x).dt = m.dt := rfl
@[simp] theorem setEngine_secTrig (e : Nat) (x : Engine) : (m.setEngine e x).secTrig = m.secTrig := rfl
@[simp] theorem setEngine_mirWins (e : Nat) (x : Engine) : (m.setEngine e x).mirWins = m.mirWins := rfl
@[simp] theorem setEngine_mirSeqs (e : Nat) (x : Engine) : (m.setEngine e x).mirSeqs = m.mirSeqs := rfl
@[simp] theorem setEngine_fwds (e : Nat) (x : Engine) : (m.setEngine e x).fwds = m.fwds := rfl
@[simp] theorem setEngine_l3 (e : Nat) (x : Engine) : (m.setEngine e x).l3 = m.l3 := rfl
@[simp] theorem setEngine_dir (e : Nat) (x : Engine) : (m.setEngine e x).dir = m.dir := rfl
@[simp] theorem setEngine_stale (e : Nat) (x : Engine) : (m.setEngine e x).stale = m.stale := rfl
@[simp] theorem setEngine_txns (e : Nat) (x : Engine) : (m.setEngine e x).txns = m.txns := rfl
@[simp] theorem setEngine_retried (e : Nat) (x : Engine) : (m.setEngine e x).retried = m.retried := rfl
@[simp] theorem setEngine_gone (e : Nat) (x : Engine) : (m.setEngine e x).gone = m.gone := rfl
@[simp] theorem setEngine_heldReqs (e : Nat) (x : Engine) : (m.setEngine e x).heldReqs = m.heldReqs := rfl
@[simp] theorem setEngine_wbufs (e : Nat) (x : Engine) : (m.setEngine e x).wbufs = m.wbufs := rfl
@[simp] theorem setEngine_sltMove (e : Nat) (x : Engine) : (m.setEngine e x).sltMove = m.sltMove := rfl
@[simp] theorem setEngine_tokens (e : Nat) (x : Engine) : (m.setEngine e x).tokens = m.tokens := rfl
@[simp] theorem setEngine_slots (e : Nat) (x : Engine) : (m.setEngine e x).slots = m.slots := rfl
@[simp] theorem setEngine_slotNext (e : Nat) (x : Engine) : (m.setEngine e x).slotNext = m.slotNext := rfl
@[simp] theorem setEngine_regions (e : Nat) (x : Engine) : (m.setEngine e x).regions = m.regions := rfl
@[simp] theorem setEngine_mcReqs (e : Nat) (x : Engine) : (m.setEngine e x).mcReqs = m.mcReqs := rfl
@[simp] theorem setEngine_mcRetried (e : Nat) (x : Engine) : (m.setEngine e x).mcRetried = m.mcRetried := rfl
@[simp] theorem setEngine_mcDrain (e : Nat) (x : Engine) : (m.setEngine e x).mcDrain = m.mcDrain := rfl
@[simp] theorem setEngine_mcTc3 (e : Nat) (x : Engine) : (m.setEngine e x).mcTc3 = m.mcTc3 := rfl
@[simp] theorem setEngine_rows (e : Nat) (x : Engine) : (m.setEngine e x).rows = m.rows := rfl
@[simp] theorem setEngine_refreshDue (e : Nat) (x : Engine) : (m.setEngine e x).refreshDue = m.refreshDue := rfl
@[simp] theorem setEngine_retrains (e : Nat) (x : Engine) : (m.setEngine e x).retrains = m.retrains := rfl
@[simp] theorem setEngine_remaps (e : Nat) (x : Engine) : (m.setEngine e x).remaps = m.remaps := rfl
@[simp] theorem setEngine_patrols (e : Nat) (x : Engine) : (m.setEngine e x).patrols = m.patrols := rfl
@[simp] theorem setEngine_sramPoison (e : Nat) (x : Engine) : (m.setEngine e x).sramPoison = m.sramPoison := rfl
@[simp] theorem setEngine_fcSrc (e : Nat) (x : Engine) : (m.setEngine e x).fcSrc = m.fcSrc := rfl
@[simp] theorem setEngine_caldLow (e : Nat) (x : Engine) : (m.setEngine e x).caldLow = m.caldLow := rfl
@[simp] theorem setEngine_pxTab (e : Nat) (x : Engine) : (m.setEngine e x).pxTab = m.pxTab := rfl
@[simp] theorem setEngine_egTab (e : Nat) (x : Engine) : (m.setEngine e x).egTab = m.egTab := rfl
@[simp] theorem setEngine_handovers (e : Nat) (x : Engine) : (m.setEngine e x).handovers = m.handovers := rfl
@[simp] theorem setEngine_ports (e : Nat) (x : Engine) : (m.setEngine e x).ports = m.ports := rfl
@[simp] theorem setEngine_hists (e : Nat) (x : Engine) : (m.setEngine e x).hists = m.hists := rfl
@[simp] theorem setEngine_meters (e : Nat) (x : Engine) : (m.setEngine e x).meters = m.meters := rfl
@[simp] theorem setEngine_queues (e : Nat) (x : Engine) : (m.setEngine e x).queues = m.queues := rfl
@[simp] theorem setEngine_vqfs (e : Nat) (x : Engine) : (m.setEngine e x).vqfs = m.vqfs := rfl
@[simp] theorem setEngine_pair (e : Nat) (x : Engine) : (m.setEngine e x).pair = m.pair := rfl
@[simp] theorem setEngine_warm (e : Nat) (x : Engine) : (m.setEngine e x).warm = m.warm := rfl
@[simp] theorem setEngine_warmWhy (e : Nat) (x : Engine) : (m.setEngine e x).warmWhy = m.warmWhy := rfl
@[simp] theorem setEngine_dramKept (e : Nat) (x : Engine) : (m.setEngine e x).dramKept = m.dramKept := rfl
@[simp] theorem setEngine_hios (e : Nat) (x : Engine) : (m.setEngine e x).hios = m.hios := rfl
@[simp] theorem setEngine_cfgReqs (e : Nat) (x : Engine) : (m.setEngine e x).cfgReqs = m.cfgReqs := rfl
@[simp] theorem setEngine_flash (e : Nat) (x : Engine) : (m.setEngine e x).flash = m.flash := rfl
@[simp] theorem setEngine_mbx (e : Nat) (x : Engine) : (m.setEngine e x).mbx = m.mbx := rfl
@[simp] theorem setEngine_dbg (e : Nat) (x : Engine) : (m.setEngine e x).dbg = m.dbg := rfl
@[simp] theorem setEngine_jtag (e : Nat) (x : Engine) : (m.setEngine e x).jtag = m.jtag := rfl
@[simp] theorem setEngine_power (e : Nat) (x : Engine) : (m.setEngine e x).power = m.power := rfl
@[simp] theorem setEngine_ppsLast (e : Nat) (x : Engine) : (m.setEngine e x).ppsLast = m.ppsLast := rfl
@[simp] theorem setEngine_ppsGood (e : Nat) (x : Engine) : (m.setEngine e x).ppsGood = m.ppsGood := rfl
@[simp] theorem setEngine_ppsOut (e : Nat) (x : Engine) : (m.setEngine e x).ppsOut = m.ppsOut := rfl
@[simp] theorem setEngine_kickAt (e : Nat) (x : Engine) : (m.setEngine e x).kickAt = m.kickAt := rfl
@[simp] theorem setEngine_holdAt (e : Nat) (x : Engine) : (m.setEngine e x).holdAt = m.holdAt := rfl
@[simp] theorem setEngine_secImage (e : Nat) (x : Engine) : (m.setEngine e x).secImage = m.secImage := rfl
@[simp] theorem setEngine_holdImage (e : Nat) (x : Engine) : (m.setEngine e x).holdImage = m.holdImage := rfl
@[simp] theorem setEngine_bootRec (e : Nat) (x : Engine) : (m.setEngine e x).bootRec = m.bootRec := rfl
@[simp] theorem setEngine_prevRec (e : Nat) (x : Engine) : (m.setEngine e x).prevRec = m.prevRec := rfl
@[simp] theorem setEngine_regsOff (e : Nat) (x : Engine) : (m.setEngine e x).regsOff = m.regsOff := rfl
@[simp] theorem setEngine_fuseCe (e : Nat) (x : Engine) : (m.setEngine e x).fuseCe = m.fuseCe := rfl
@[simp] theorem setEngine_fuseUe (e : Nat) (x : Engine) : (m.setEngine e x).fuseUe = m.fuseUe := rfl
@[simp] theorem setEngine_fumSkip (e : Nat) (x : Engine) : (m.setEngine e x).fumSkip = m.fumSkip := rfl
@[simp] theorem setEngine_tapOut (e : Nat) (x : Engine) : (m.setEngine e x).tapOut = m.tapOut := rfl
@[simp] theorem setEngine_busOut (e : Nat) (x : Engine) : (m.setEngine e x).busOut = m.busOut := rfl
@[simp] theorem setEngine_free (e : Nat) (x : Engine) : (m.setEngine e x).free = m.free := rfl

/-! ### `setVqf` -/

@[simp] theorem setVqf_phase (e v : Nat) (x : Vqf) : (m.setVqf e v x).phase = m.phase := rfl
@[simp] theorem setVqf_shadows (e v : Nat) (x : Vqf) : (m.setVqf e v x).shadows = m.shadows := rfl
@[simp] theorem setVqf_cores (e v : Nat) (x : Vqf) : (m.setVqf e v x).cores = m.cores := rfl
@[simp] theorem setVqf_mem (e v : Nat) (x : Vqf) : (m.setVqf e v x).mem = m.mem := rfl
@[simp] theorem setVqf_mmeta (e v : Nat) (x : Vqf) : (m.setVqf e v x).mmeta = m.mmeta := rfl
@[simp] theorem setVqf_ctl (e v : Nat) (x : Vqf) : (m.setVqf e v x).ctl = m.ctl := rfl
@[simp] theorem setVqf_blks (e v : Nat) (x : Vqf) : (m.setVqf e v x).blks = m.blks := rfl
@[simp] theorem setVqf_routes (e v : Nat) (x : Vqf) : (m.setVqf e v x).routes = m.routes := rfl
@[simp] theorem setVqf_evPend (e v : Nat) (x : Vqf) : (m.setVqf e v x).evPend = m.evPend := rfl
@[simp] theorem setVqf_reports (e v : Nat) (x : Vqf) : (m.setVqf e v x).reports = m.reports := rfl
@[simp] theorem setVqf_upsets (e v : Nat) (x : Vqf) : (m.setVqf e v x).upsets = m.upsets := rfl
@[simp] theorem setVqf_protLogs (e v : Nat) (x : Vqf) : (m.setVqf e v x).protLogs = m.protLogs := rfl
@[simp] theorem setVqf_sweepsRun (e v : Nat) (x : Vqf) : (m.setVqf e v x).sweepsRun = m.sweepsRun := rfl
@[simp] theorem setVqf_tagonly (e v : Nat) (x : Vqf) : (m.setVqf e v x).tagonly = m.tagonly := rfl
@[simp] theorem setVqf_dram (e v : Nat) (x : Vqf) : (m.setVqf e v x).dram = m.dram := rfl
@[simp] theorem setVqf_slt (e v : Nat) (x : Vqf) : (m.setVqf e v x).slt = m.slt := rfl
@[simp] theorem setVqf_fuses (e v : Nat) (x : Vqf) : (m.setVqf e v x).fuses = m.fuses := rfl
@[simp] theorem setVqf_dt (e v : Nat) (x : Vqf) : (m.setVqf e v x).dt = m.dt := rfl
@[simp] theorem setVqf_secTrig (e v : Nat) (x : Vqf) : (m.setVqf e v x).secTrig = m.secTrig := rfl
@[simp] theorem setVqf_mirWins (e v : Nat) (x : Vqf) : (m.setVqf e v x).mirWins = m.mirWins := rfl
@[simp] theorem setVqf_mirSeqs (e v : Nat) (x : Vqf) : (m.setVqf e v x).mirSeqs = m.mirSeqs := rfl
@[simp] theorem setVqf_fwds (e v : Nat) (x : Vqf) : (m.setVqf e v x).fwds = m.fwds := rfl
@[simp] theorem setVqf_l3 (e v : Nat) (x : Vqf) : (m.setVqf e v x).l3 = m.l3 := rfl
@[simp] theorem setVqf_dir (e v : Nat) (x : Vqf) : (m.setVqf e v x).dir = m.dir := rfl
@[simp] theorem setVqf_stale (e v : Nat) (x : Vqf) : (m.setVqf e v x).stale = m.stale := rfl
@[simp] theorem setVqf_txns (e v : Nat) (x : Vqf) : (m.setVqf e v x).txns = m.txns := rfl
@[simp] theorem setVqf_retried (e v : Nat) (x : Vqf) : (m.setVqf e v x).retried = m.retried := rfl
@[simp] theorem setVqf_gone (e v : Nat) (x : Vqf) : (m.setVqf e v x).gone = m.gone := rfl
@[simp] theorem setVqf_heldReqs (e v : Nat) (x : Vqf) : (m.setVqf e v x).heldReqs = m.heldReqs := rfl
@[simp] theorem setVqf_wbufs (e v : Nat) (x : Vqf) : (m.setVqf e v x).wbufs = m.wbufs := rfl
@[simp] theorem setVqf_sltMove (e v : Nat) (x : Vqf) : (m.setVqf e v x).sltMove = m.sltMove := rfl
@[simp] theorem setVqf_tokens (e v : Nat) (x : Vqf) : (m.setVqf e v x).tokens = m.tokens := rfl
@[simp] theorem setVqf_slots (e v : Nat) (x : Vqf) : (m.setVqf e v x).slots = m.slots := rfl
@[simp] theorem setVqf_slotNext (e v : Nat) (x : Vqf) : (m.setVqf e v x).slotNext = m.slotNext := rfl
@[simp] theorem setVqf_regions (e v : Nat) (x : Vqf) : (m.setVqf e v x).regions = m.regions := rfl
@[simp] theorem setVqf_mcReqs (e v : Nat) (x : Vqf) : (m.setVqf e v x).mcReqs = m.mcReqs := rfl
@[simp] theorem setVqf_mcRetried (e v : Nat) (x : Vqf) : (m.setVqf e v x).mcRetried = m.mcRetried := rfl
@[simp] theorem setVqf_mcDrain (e v : Nat) (x : Vqf) : (m.setVqf e v x).mcDrain = m.mcDrain := rfl
@[simp] theorem setVqf_mcTc3 (e v : Nat) (x : Vqf) : (m.setVqf e v x).mcTc3 = m.mcTc3 := rfl
@[simp] theorem setVqf_rows (e v : Nat) (x : Vqf) : (m.setVqf e v x).rows = m.rows := rfl
@[simp] theorem setVqf_refreshDue (e v : Nat) (x : Vqf) : (m.setVqf e v x).refreshDue = m.refreshDue := rfl
@[simp] theorem setVqf_retrains (e v : Nat) (x : Vqf) : (m.setVqf e v x).retrains = m.retrains := rfl
@[simp] theorem setVqf_remaps (e v : Nat) (x : Vqf) : (m.setVqf e v x).remaps = m.remaps := rfl
@[simp] theorem setVqf_patrols (e v : Nat) (x : Vqf) : (m.setVqf e v x).patrols = m.patrols := rfl
@[simp] theorem setVqf_sramPoison (e v : Nat) (x : Vqf) : (m.setVqf e v x).sramPoison = m.sramPoison := rfl
@[simp] theorem setVqf_fcSrc (e v : Nat) (x : Vqf) : (m.setVqf e v x).fcSrc = m.fcSrc := rfl
@[simp] theorem setVqf_caldLow (e v : Nat) (x : Vqf) : (m.setVqf e v x).caldLow = m.caldLow := rfl
@[simp] theorem setVqf_pxTab (e v : Nat) (x : Vqf) : (m.setVqf e v x).pxTab = m.pxTab := rfl
@[simp] theorem setVqf_egTab (e v : Nat) (x : Vqf) : (m.setVqf e v x).egTab = m.egTab := rfl
@[simp] theorem setVqf_handovers (e v : Nat) (x : Vqf) : (m.setVqf e v x).handovers = m.handovers := rfl
@[simp] theorem setVqf_ports (e v : Nat) (x : Vqf) : (m.setVqf e v x).ports = m.ports := rfl
@[simp] theorem setVqf_hists (e v : Nat) (x : Vqf) : (m.setVqf e v x).hists = m.hists := rfl
@[simp] theorem setVqf_meters (e v : Nat) (x : Vqf) : (m.setVqf e v x).meters = m.meters := rfl
@[simp] theorem setVqf_queues (e v : Nat) (x : Vqf) : (m.setVqf e v x).queues = m.queues := rfl
@[simp] theorem setVqf_engines (e v : Nat) (x : Vqf) : (m.setVqf e v x).engines = m.engines := rfl
@[simp] theorem setVqf_pair (e v : Nat) (x : Vqf) : (m.setVqf e v x).pair = m.pair := rfl
@[simp] theorem setVqf_warm (e v : Nat) (x : Vqf) : (m.setVqf e v x).warm = m.warm := rfl
@[simp] theorem setVqf_warmWhy (e v : Nat) (x : Vqf) : (m.setVqf e v x).warmWhy = m.warmWhy := rfl
@[simp] theorem setVqf_dramKept (e v : Nat) (x : Vqf) : (m.setVqf e v x).dramKept = m.dramKept := rfl
@[simp] theorem setVqf_hios (e v : Nat) (x : Vqf) : (m.setVqf e v x).hios = m.hios := rfl
@[simp] theorem setVqf_cfgReqs (e v : Nat) (x : Vqf) : (m.setVqf e v x).cfgReqs = m.cfgReqs := rfl
@[simp] theorem setVqf_flash (e v : Nat) (x : Vqf) : (m.setVqf e v x).flash = m.flash := rfl
@[simp] theorem setVqf_mbx (e v : Nat) (x : Vqf) : (m.setVqf e v x).mbx = m.mbx := rfl
@[simp] theorem setVqf_dbg (e v : Nat) (x : Vqf) : (m.setVqf e v x).dbg = m.dbg := rfl
@[simp] theorem setVqf_jtag (e v : Nat) (x : Vqf) : (m.setVqf e v x).jtag = m.jtag := rfl
@[simp] theorem setVqf_power (e v : Nat) (x : Vqf) : (m.setVqf e v x).power = m.power := rfl
@[simp] theorem setVqf_ppsLast (e v : Nat) (x : Vqf) : (m.setVqf e v x).ppsLast = m.ppsLast := rfl
@[simp] theorem setVqf_ppsGood (e v : Nat) (x : Vqf) : (m.setVqf e v x).ppsGood = m.ppsGood := rfl
@[simp] theorem setVqf_ppsOut (e v : Nat) (x : Vqf) : (m.setVqf e v x).ppsOut = m.ppsOut := rfl
@[simp] theorem setVqf_kickAt (e v : Nat) (x : Vqf) : (m.setVqf e v x).kickAt = m.kickAt := rfl
@[simp] theorem setVqf_holdAt (e v : Nat) (x : Vqf) : (m.setVqf e v x).holdAt = m.holdAt := rfl
@[simp] theorem setVqf_secImage (e v : Nat) (x : Vqf) : (m.setVqf e v x).secImage = m.secImage := rfl
@[simp] theorem setVqf_holdImage (e v : Nat) (x : Vqf) : (m.setVqf e v x).holdImage = m.holdImage := rfl
@[simp] theorem setVqf_bootRec (e v : Nat) (x : Vqf) : (m.setVqf e v x).bootRec = m.bootRec := rfl
@[simp] theorem setVqf_prevRec (e v : Nat) (x : Vqf) : (m.setVqf e v x).prevRec = m.prevRec := rfl
@[simp] theorem setVqf_regsOff (e v : Nat) (x : Vqf) : (m.setVqf e v x).regsOff = m.regsOff := rfl
@[simp] theorem setVqf_fuseCe (e v : Nat) (x : Vqf) : (m.setVqf e v x).fuseCe = m.fuseCe := rfl
@[simp] theorem setVqf_fuseUe (e v : Nat) (x : Vqf) : (m.setVqf e v x).fuseUe = m.fuseUe := rfl
@[simp] theorem setVqf_fumSkip (e v : Nat) (x : Vqf) : (m.setVqf e v x).fumSkip = m.fumSkip := rfl
@[simp] theorem setVqf_tapOut (e v : Nat) (x : Vqf) : (m.setVqf e v x).tapOut = m.tapOut := rfl
@[simp] theorem setVqf_busOut (e v : Nat) (x : Vqf) : (m.setVqf e v x).busOut = m.busOut := rfl
@[simp] theorem setVqf_free (e v : Nat) (x : Vqf) : (m.setVqf e v x).free = m.free := rfl

/-! ### `setSlot` -/

@[simp] theorem setSlot_phase (n : Nat) (x : Slot) : (m.setSlot n x).phase = m.phase := rfl
@[simp] theorem setSlot_shadows (n : Nat) (x : Slot) : (m.setSlot n x).shadows = m.shadows := rfl
@[simp] theorem setSlot_cores (n : Nat) (x : Slot) : (m.setSlot n x).cores = m.cores := rfl
@[simp] theorem setSlot_mem (n : Nat) (x : Slot) : (m.setSlot n x).mem = m.mem := rfl
@[simp] theorem setSlot_mmeta (n : Nat) (x : Slot) : (m.setSlot n x).mmeta = m.mmeta := rfl
@[simp] theorem setSlot_ctl (n : Nat) (x : Slot) : (m.setSlot n x).ctl = m.ctl := rfl
@[simp] theorem setSlot_blks (n : Nat) (x : Slot) : (m.setSlot n x).blks = m.blks := rfl
@[simp] theorem setSlot_routes (n : Nat) (x : Slot) : (m.setSlot n x).routes = m.routes := rfl
@[simp] theorem setSlot_evPend (n : Nat) (x : Slot) : (m.setSlot n x).evPend = m.evPend := rfl
@[simp] theorem setSlot_reports (n : Nat) (x : Slot) : (m.setSlot n x).reports = m.reports := rfl
@[simp] theorem setSlot_upsets (n : Nat) (x : Slot) : (m.setSlot n x).upsets = m.upsets := rfl
@[simp] theorem setSlot_protLogs (n : Nat) (x : Slot) : (m.setSlot n x).protLogs = m.protLogs := rfl
@[simp] theorem setSlot_sweepsRun (n : Nat) (x : Slot) : (m.setSlot n x).sweepsRun = m.sweepsRun := rfl
@[simp] theorem setSlot_tagonly (n : Nat) (x : Slot) : (m.setSlot n x).tagonly = m.tagonly := rfl
@[simp] theorem setSlot_dram (n : Nat) (x : Slot) : (m.setSlot n x).dram = m.dram := rfl
@[simp] theorem setSlot_slt (n : Nat) (x : Slot) : (m.setSlot n x).slt = m.slt := rfl
@[simp] theorem setSlot_fuses (n : Nat) (x : Slot) : (m.setSlot n x).fuses = m.fuses := rfl
@[simp] theorem setSlot_dt (n : Nat) (x : Slot) : (m.setSlot n x).dt = m.dt := rfl
@[simp] theorem setSlot_secTrig (n : Nat) (x : Slot) : (m.setSlot n x).secTrig = m.secTrig := rfl
@[simp] theorem setSlot_mirWins (n : Nat) (x : Slot) : (m.setSlot n x).mirWins = m.mirWins := rfl
@[simp] theorem setSlot_mirSeqs (n : Nat) (x : Slot) : (m.setSlot n x).mirSeqs = m.mirSeqs := rfl
@[simp] theorem setSlot_fwds (n : Nat) (x : Slot) : (m.setSlot n x).fwds = m.fwds := rfl
@[simp] theorem setSlot_l3 (n : Nat) (x : Slot) : (m.setSlot n x).l3 = m.l3 := rfl
@[simp] theorem setSlot_dir (n : Nat) (x : Slot) : (m.setSlot n x).dir = m.dir := rfl
@[simp] theorem setSlot_stale (n : Nat) (x : Slot) : (m.setSlot n x).stale = m.stale := rfl
@[simp] theorem setSlot_txns (n : Nat) (x : Slot) : (m.setSlot n x).txns = m.txns := rfl
@[simp] theorem setSlot_retried (n : Nat) (x : Slot) : (m.setSlot n x).retried = m.retried := rfl
@[simp] theorem setSlot_gone (n : Nat) (x : Slot) : (m.setSlot n x).gone = m.gone := rfl
@[simp] theorem setSlot_heldReqs (n : Nat) (x : Slot) : (m.setSlot n x).heldReqs = m.heldReqs := rfl
@[simp] theorem setSlot_wbufs (n : Nat) (x : Slot) : (m.setSlot n x).wbufs = m.wbufs := rfl
@[simp] theorem setSlot_sltMove (n : Nat) (x : Slot) : (m.setSlot n x).sltMove = m.sltMove := rfl
@[simp] theorem setSlot_tokens (n : Nat) (x : Slot) : (m.setSlot n x).tokens = m.tokens := rfl
@[simp] theorem setSlot_slotNext (n : Nat) (x : Slot) : (m.setSlot n x).slotNext = m.slotNext := rfl
@[simp] theorem setSlot_regions (n : Nat) (x : Slot) : (m.setSlot n x).regions = m.regions := rfl
@[simp] theorem setSlot_mcReqs (n : Nat) (x : Slot) : (m.setSlot n x).mcReqs = m.mcReqs := rfl
@[simp] theorem setSlot_mcRetried (n : Nat) (x : Slot) : (m.setSlot n x).mcRetried = m.mcRetried := rfl
@[simp] theorem setSlot_mcDrain (n : Nat) (x : Slot) : (m.setSlot n x).mcDrain = m.mcDrain := rfl
@[simp] theorem setSlot_mcTc3 (n : Nat) (x : Slot) : (m.setSlot n x).mcTc3 = m.mcTc3 := rfl
@[simp] theorem setSlot_rows (n : Nat) (x : Slot) : (m.setSlot n x).rows = m.rows := rfl
@[simp] theorem setSlot_refreshDue (n : Nat) (x : Slot) : (m.setSlot n x).refreshDue = m.refreshDue := rfl
@[simp] theorem setSlot_retrains (n : Nat) (x : Slot) : (m.setSlot n x).retrains = m.retrains := rfl
@[simp] theorem setSlot_remaps (n : Nat) (x : Slot) : (m.setSlot n x).remaps = m.remaps := rfl
@[simp] theorem setSlot_patrols (n : Nat) (x : Slot) : (m.setSlot n x).patrols = m.patrols := rfl
@[simp] theorem setSlot_sramPoison (n : Nat) (x : Slot) : (m.setSlot n x).sramPoison = m.sramPoison := rfl
@[simp] theorem setSlot_fcSrc (n : Nat) (x : Slot) : (m.setSlot n x).fcSrc = m.fcSrc := rfl
@[simp] theorem setSlot_caldLow (n : Nat) (x : Slot) : (m.setSlot n x).caldLow = m.caldLow := rfl
@[simp] theorem setSlot_pxTab (n : Nat) (x : Slot) : (m.setSlot n x).pxTab = m.pxTab := rfl
@[simp] theorem setSlot_egTab (n : Nat) (x : Slot) : (m.setSlot n x).egTab = m.egTab := rfl
@[simp] theorem setSlot_handovers (n : Nat) (x : Slot) : (m.setSlot n x).handovers = m.handovers := rfl
@[simp] theorem setSlot_ports (n : Nat) (x : Slot) : (m.setSlot n x).ports = m.ports := rfl
@[simp] theorem setSlot_hists (n : Nat) (x : Slot) : (m.setSlot n x).hists = m.hists := rfl
@[simp] theorem setSlot_meters (n : Nat) (x : Slot) : (m.setSlot n x).meters = m.meters := rfl
@[simp] theorem setSlot_queues (n : Nat) (x : Slot) : (m.setSlot n x).queues = m.queues := rfl
@[simp] theorem setSlot_engines (n : Nat) (x : Slot) : (m.setSlot n x).engines = m.engines := rfl
@[simp] theorem setSlot_vqfs (n : Nat) (x : Slot) : (m.setSlot n x).vqfs = m.vqfs := rfl
@[simp] theorem setSlot_pair (n : Nat) (x : Slot) : (m.setSlot n x).pair = m.pair := rfl
@[simp] theorem setSlot_warm (n : Nat) (x : Slot) : (m.setSlot n x).warm = m.warm := rfl
@[simp] theorem setSlot_warmWhy (n : Nat) (x : Slot) : (m.setSlot n x).warmWhy = m.warmWhy := rfl
@[simp] theorem setSlot_dramKept (n : Nat) (x : Slot) : (m.setSlot n x).dramKept = m.dramKept := rfl
@[simp] theorem setSlot_hios (n : Nat) (x : Slot) : (m.setSlot n x).hios = m.hios := rfl
@[simp] theorem setSlot_cfgReqs (n : Nat) (x : Slot) : (m.setSlot n x).cfgReqs = m.cfgReqs := rfl
@[simp] theorem setSlot_flash (n : Nat) (x : Slot) : (m.setSlot n x).flash = m.flash := rfl
@[simp] theorem setSlot_mbx (n : Nat) (x : Slot) : (m.setSlot n x).mbx = m.mbx := rfl
@[simp] theorem setSlot_dbg (n : Nat) (x : Slot) : (m.setSlot n x).dbg = m.dbg := rfl
@[simp] theorem setSlot_jtag (n : Nat) (x : Slot) : (m.setSlot n x).jtag = m.jtag := rfl
@[simp] theorem setSlot_power (n : Nat) (x : Slot) : (m.setSlot n x).power = m.power := rfl
@[simp] theorem setSlot_ppsLast (n : Nat) (x : Slot) : (m.setSlot n x).ppsLast = m.ppsLast := rfl
@[simp] theorem setSlot_ppsGood (n : Nat) (x : Slot) : (m.setSlot n x).ppsGood = m.ppsGood := rfl
@[simp] theorem setSlot_ppsOut (n : Nat) (x : Slot) : (m.setSlot n x).ppsOut = m.ppsOut := rfl
@[simp] theorem setSlot_kickAt (n : Nat) (x : Slot) : (m.setSlot n x).kickAt = m.kickAt := rfl
@[simp] theorem setSlot_holdAt (n : Nat) (x : Slot) : (m.setSlot n x).holdAt = m.holdAt := rfl
@[simp] theorem setSlot_secImage (n : Nat) (x : Slot) : (m.setSlot n x).secImage = m.secImage := rfl
@[simp] theorem setSlot_holdImage (n : Nat) (x : Slot) : (m.setSlot n x).holdImage = m.holdImage := rfl
@[simp] theorem setSlot_bootRec (n : Nat) (x : Slot) : (m.setSlot n x).bootRec = m.bootRec := rfl
@[simp] theorem setSlot_prevRec (n : Nat) (x : Slot) : (m.setSlot n x).prevRec = m.prevRec := rfl
@[simp] theorem setSlot_regsOff (n : Nat) (x : Slot) : (m.setSlot n x).regsOff = m.regsOff := rfl
@[simp] theorem setSlot_fuseCe (n : Nat) (x : Slot) : (m.setSlot n x).fuseCe = m.fuseCe := rfl
@[simp] theorem setSlot_fuseUe (n : Nat) (x : Slot) : (m.setSlot n x).fuseUe = m.fuseUe := rfl
@[simp] theorem setSlot_fumSkip (n : Nat) (x : Slot) : (m.setSlot n x).fumSkip = m.fumSkip := rfl
@[simp] theorem setSlot_tapOut (n : Nat) (x : Slot) : (m.setSlot n x).tapOut = m.tapOut := rfl
@[simp] theorem setSlot_busOut (n : Nat) (x : Slot) : (m.setSlot n x).busOut = m.busOut := rfl
@[simp] theorem setSlot_free (n : Nat) (x : Slot) : (m.setSlot n x).free = m.free := rfl

/-! ### `setPort` -/

@[simp] theorem setPort_phase (q : Nat) (x : PortRt) : (m.setPort q x).phase = m.phase := rfl
@[simp] theorem setPort_shadows (q : Nat) (x : PortRt) : (m.setPort q x).shadows = m.shadows := rfl
@[simp] theorem setPort_cores (q : Nat) (x : PortRt) : (m.setPort q x).cores = m.cores := rfl
@[simp] theorem setPort_mem (q : Nat) (x : PortRt) : (m.setPort q x).mem = m.mem := rfl
@[simp] theorem setPort_mmeta (q : Nat) (x : PortRt) : (m.setPort q x).mmeta = m.mmeta := rfl
@[simp] theorem setPort_ctl (q : Nat) (x : PortRt) : (m.setPort q x).ctl = m.ctl := rfl
@[simp] theorem setPort_blks (q : Nat) (x : PortRt) : (m.setPort q x).blks = m.blks := rfl
@[simp] theorem setPort_routes (q : Nat) (x : PortRt) : (m.setPort q x).routes = m.routes := rfl
@[simp] theorem setPort_evPend (q : Nat) (x : PortRt) : (m.setPort q x).evPend = m.evPend := rfl
@[simp] theorem setPort_reports (q : Nat) (x : PortRt) : (m.setPort q x).reports = m.reports := rfl
@[simp] theorem setPort_upsets (q : Nat) (x : PortRt) : (m.setPort q x).upsets = m.upsets := rfl
@[simp] theorem setPort_protLogs (q : Nat) (x : PortRt) : (m.setPort q x).protLogs = m.protLogs := rfl
@[simp] theorem setPort_sweepsRun (q : Nat) (x : PortRt) : (m.setPort q x).sweepsRun = m.sweepsRun := rfl
@[simp] theorem setPort_tagonly (q : Nat) (x : PortRt) : (m.setPort q x).tagonly = m.tagonly := rfl
@[simp] theorem setPort_dram (q : Nat) (x : PortRt) : (m.setPort q x).dram = m.dram := rfl
@[simp] theorem setPort_slt (q : Nat) (x : PortRt) : (m.setPort q x).slt = m.slt := rfl
@[simp] theorem setPort_fuses (q : Nat) (x : PortRt) : (m.setPort q x).fuses = m.fuses := rfl
@[simp] theorem setPort_dt (q : Nat) (x : PortRt) : (m.setPort q x).dt = m.dt := rfl
@[simp] theorem setPort_secTrig (q : Nat) (x : PortRt) : (m.setPort q x).secTrig = m.secTrig := rfl
@[simp] theorem setPort_mirWins (q : Nat) (x : PortRt) : (m.setPort q x).mirWins = m.mirWins := rfl
@[simp] theorem setPort_mirSeqs (q : Nat) (x : PortRt) : (m.setPort q x).mirSeqs = m.mirSeqs := rfl
@[simp] theorem setPort_fwds (q : Nat) (x : PortRt) : (m.setPort q x).fwds = m.fwds := rfl
@[simp] theorem setPort_l3 (q : Nat) (x : PortRt) : (m.setPort q x).l3 = m.l3 := rfl
@[simp] theorem setPort_dir (q : Nat) (x : PortRt) : (m.setPort q x).dir = m.dir := rfl
@[simp] theorem setPort_stale (q : Nat) (x : PortRt) : (m.setPort q x).stale = m.stale := rfl
@[simp] theorem setPort_txns (q : Nat) (x : PortRt) : (m.setPort q x).txns = m.txns := rfl
@[simp] theorem setPort_retried (q : Nat) (x : PortRt) : (m.setPort q x).retried = m.retried := rfl
@[simp] theorem setPort_gone (q : Nat) (x : PortRt) : (m.setPort q x).gone = m.gone := rfl
@[simp] theorem setPort_heldReqs (q : Nat) (x : PortRt) : (m.setPort q x).heldReqs = m.heldReqs := rfl
@[simp] theorem setPort_wbufs (q : Nat) (x : PortRt) : (m.setPort q x).wbufs = m.wbufs := rfl
@[simp] theorem setPort_sltMove (q : Nat) (x : PortRt) : (m.setPort q x).sltMove = m.sltMove := rfl
@[simp] theorem setPort_tokens (q : Nat) (x : PortRt) : (m.setPort q x).tokens = m.tokens := rfl
@[simp] theorem setPort_slots (q : Nat) (x : PortRt) : (m.setPort q x).slots = m.slots := rfl
@[simp] theorem setPort_slotNext (q : Nat) (x : PortRt) : (m.setPort q x).slotNext = m.slotNext := rfl
@[simp] theorem setPort_regions (q : Nat) (x : PortRt) : (m.setPort q x).regions = m.regions := rfl
@[simp] theorem setPort_mcReqs (q : Nat) (x : PortRt) : (m.setPort q x).mcReqs = m.mcReqs := rfl
@[simp] theorem setPort_mcRetried (q : Nat) (x : PortRt) : (m.setPort q x).mcRetried = m.mcRetried := rfl
@[simp] theorem setPort_mcDrain (q : Nat) (x : PortRt) : (m.setPort q x).mcDrain = m.mcDrain := rfl
@[simp] theorem setPort_mcTc3 (q : Nat) (x : PortRt) : (m.setPort q x).mcTc3 = m.mcTc3 := rfl
@[simp] theorem setPort_rows (q : Nat) (x : PortRt) : (m.setPort q x).rows = m.rows := rfl
@[simp] theorem setPort_refreshDue (q : Nat) (x : PortRt) : (m.setPort q x).refreshDue = m.refreshDue := rfl
@[simp] theorem setPort_retrains (q : Nat) (x : PortRt) : (m.setPort q x).retrains = m.retrains := rfl
@[simp] theorem setPort_remaps (q : Nat) (x : PortRt) : (m.setPort q x).remaps = m.remaps := rfl
@[simp] theorem setPort_patrols (q : Nat) (x : PortRt) : (m.setPort q x).patrols = m.patrols := rfl
@[simp] theorem setPort_sramPoison (q : Nat) (x : PortRt) : (m.setPort q x).sramPoison = m.sramPoison := rfl
@[simp] theorem setPort_fcSrc (q : Nat) (x : PortRt) : (m.setPort q x).fcSrc = m.fcSrc := rfl
@[simp] theorem setPort_caldLow (q : Nat) (x : PortRt) : (m.setPort q x).caldLow = m.caldLow := rfl
@[simp] theorem setPort_pxTab (q : Nat) (x : PortRt) : (m.setPort q x).pxTab = m.pxTab := rfl
@[simp] theorem setPort_egTab (q : Nat) (x : PortRt) : (m.setPort q x).egTab = m.egTab := rfl
@[simp] theorem setPort_handovers (q : Nat) (x : PortRt) : (m.setPort q x).handovers = m.handovers := rfl
@[simp] theorem setPort_hists (q : Nat) (x : PortRt) : (m.setPort q x).hists = m.hists := rfl
@[simp] theorem setPort_meters (q : Nat) (x : PortRt) : (m.setPort q x).meters = m.meters := rfl
@[simp] theorem setPort_queues (q : Nat) (x : PortRt) : (m.setPort q x).queues = m.queues := rfl
@[simp] theorem setPort_engines (q : Nat) (x : PortRt) : (m.setPort q x).engines = m.engines := rfl
@[simp] theorem setPort_vqfs (q : Nat) (x : PortRt) : (m.setPort q x).vqfs = m.vqfs := rfl
@[simp] theorem setPort_pair (q : Nat) (x : PortRt) : (m.setPort q x).pair = m.pair := rfl
@[simp] theorem setPort_warm (q : Nat) (x : PortRt) : (m.setPort q x).warm = m.warm := rfl
@[simp] theorem setPort_warmWhy (q : Nat) (x : PortRt) : (m.setPort q x).warmWhy = m.warmWhy := rfl
@[simp] theorem setPort_dramKept (q : Nat) (x : PortRt) : (m.setPort q x).dramKept = m.dramKept := rfl
@[simp] theorem setPort_hios (q : Nat) (x : PortRt) : (m.setPort q x).hios = m.hios := rfl
@[simp] theorem setPort_cfgReqs (q : Nat) (x : PortRt) : (m.setPort q x).cfgReqs = m.cfgReqs := rfl
@[simp] theorem setPort_flash (q : Nat) (x : PortRt) : (m.setPort q x).flash = m.flash := rfl
@[simp] theorem setPort_mbx (q : Nat) (x : PortRt) : (m.setPort q x).mbx = m.mbx := rfl
@[simp] theorem setPort_dbg (q : Nat) (x : PortRt) : (m.setPort q x).dbg = m.dbg := rfl
@[simp] theorem setPort_jtag (q : Nat) (x : PortRt) : (m.setPort q x).jtag = m.jtag := rfl
@[simp] theorem setPort_power (q : Nat) (x : PortRt) : (m.setPort q x).power = m.power := rfl
@[simp] theorem setPort_ppsLast (q : Nat) (x : PortRt) : (m.setPort q x).ppsLast = m.ppsLast := rfl
@[simp] theorem setPort_ppsGood (q : Nat) (x : PortRt) : (m.setPort q x).ppsGood = m.ppsGood := rfl
@[simp] theorem setPort_ppsOut (q : Nat) (x : PortRt) : (m.setPort q x).ppsOut = m.ppsOut := rfl
@[simp] theorem setPort_kickAt (q : Nat) (x : PortRt) : (m.setPort q x).kickAt = m.kickAt := rfl
@[simp] theorem setPort_holdAt (q : Nat) (x : PortRt) : (m.setPort q x).holdAt = m.holdAt := rfl
@[simp] theorem setPort_secImage (q : Nat) (x : PortRt) : (m.setPort q x).secImage = m.secImage := rfl
@[simp] theorem setPort_holdImage (q : Nat) (x : PortRt) : (m.setPort q x).holdImage = m.holdImage := rfl
@[simp] theorem setPort_bootRec (q : Nat) (x : PortRt) : (m.setPort q x).bootRec = m.bootRec := rfl
@[simp] theorem setPort_prevRec (q : Nat) (x : PortRt) : (m.setPort q x).prevRec = m.prevRec := rfl
@[simp] theorem setPort_regsOff (q : Nat) (x : PortRt) : (m.setPort q x).regsOff = m.regsOff := rfl
@[simp] theorem setPort_fuseCe (q : Nat) (x : PortRt) : (m.setPort q x).fuseCe = m.fuseCe := rfl
@[simp] theorem setPort_fuseUe (q : Nat) (x : PortRt) : (m.setPort q x).fuseUe = m.fuseUe := rfl
@[simp] theorem setPort_fumSkip (q : Nat) (x : PortRt) : (m.setPort q x).fumSkip = m.fumSkip := rfl
@[simp] theorem setPort_tapOut (q : Nat) (x : PortRt) : (m.setPort q x).tapOut = m.tapOut := rfl
@[simp] theorem setPort_busOut (q : Nat) (x : PortRt) : (m.setPort q x).busOut = m.busOut := rfl
@[simp] theorem setPort_free (q : Nat) (x : PortRt) : (m.setPort q x).free = m.free := rfl

/-! ### `modPair` -/

@[simp] theorem modPair_phase (f : PairRt → PairRt) : (m.modPair f).phase = m.phase := rfl
@[simp] theorem modPair_shadows (f : PairRt → PairRt) : (m.modPair f).shadows = m.shadows := rfl
@[simp] theorem modPair_cores (f : PairRt → PairRt) : (m.modPair f).cores = m.cores := rfl
@[simp] theorem modPair_mem (f : PairRt → PairRt) : (m.modPair f).mem = m.mem := rfl
@[simp] theorem modPair_mmeta (f : PairRt → PairRt) : (m.modPair f).mmeta = m.mmeta := rfl
@[simp] theorem modPair_ctl (f : PairRt → PairRt) : (m.modPair f).ctl = m.ctl := rfl
@[simp] theorem modPair_blks (f : PairRt → PairRt) : (m.modPair f).blks = m.blks := rfl
@[simp] theorem modPair_routes (f : PairRt → PairRt) : (m.modPair f).routes = m.routes := rfl
@[simp] theorem modPair_evPend (f : PairRt → PairRt) : (m.modPair f).evPend = m.evPend := rfl
@[simp] theorem modPair_reports (f : PairRt → PairRt) : (m.modPair f).reports = m.reports := rfl
@[simp] theorem modPair_upsets (f : PairRt → PairRt) : (m.modPair f).upsets = m.upsets := rfl
@[simp] theorem modPair_protLogs (f : PairRt → PairRt) : (m.modPair f).protLogs = m.protLogs := rfl
@[simp] theorem modPair_sweepsRun (f : PairRt → PairRt) : (m.modPair f).sweepsRun = m.sweepsRun := rfl
@[simp] theorem modPair_tagonly (f : PairRt → PairRt) : (m.modPair f).tagonly = m.tagonly := rfl
@[simp] theorem modPair_dram (f : PairRt → PairRt) : (m.modPair f).dram = m.dram := rfl
@[simp] theorem modPair_slt (f : PairRt → PairRt) : (m.modPair f).slt = m.slt := rfl
@[simp] theorem modPair_fuses (f : PairRt → PairRt) : (m.modPair f).fuses = m.fuses := rfl
@[simp] theorem modPair_dt (f : PairRt → PairRt) : (m.modPair f).dt = m.dt := rfl
@[simp] theorem modPair_secTrig (f : PairRt → PairRt) : (m.modPair f).secTrig = m.secTrig := rfl
@[simp] theorem modPair_mirWins (f : PairRt → PairRt) : (m.modPair f).mirWins = m.mirWins := rfl
@[simp] theorem modPair_mirSeqs (f : PairRt → PairRt) : (m.modPair f).mirSeqs = m.mirSeqs := rfl
@[simp] theorem modPair_fwds (f : PairRt → PairRt) : (m.modPair f).fwds = m.fwds := rfl
@[simp] theorem modPair_l3 (f : PairRt → PairRt) : (m.modPair f).l3 = m.l3 := rfl
@[simp] theorem modPair_dir (f : PairRt → PairRt) : (m.modPair f).dir = m.dir := rfl
@[simp] theorem modPair_stale (f : PairRt → PairRt) : (m.modPair f).stale = m.stale := rfl
@[simp] theorem modPair_txns (f : PairRt → PairRt) : (m.modPair f).txns = m.txns := rfl
@[simp] theorem modPair_retried (f : PairRt → PairRt) : (m.modPair f).retried = m.retried := rfl
@[simp] theorem modPair_gone (f : PairRt → PairRt) : (m.modPair f).gone = m.gone := rfl
@[simp] theorem modPair_heldReqs (f : PairRt → PairRt) : (m.modPair f).heldReqs = m.heldReqs := rfl
@[simp] theorem modPair_wbufs (f : PairRt → PairRt) : (m.modPair f).wbufs = m.wbufs := rfl
@[simp] theorem modPair_sltMove (f : PairRt → PairRt) : (m.modPair f).sltMove = m.sltMove := rfl
@[simp] theorem modPair_tokens (f : PairRt → PairRt) : (m.modPair f).tokens = m.tokens := rfl
@[simp] theorem modPair_slots (f : PairRt → PairRt) : (m.modPair f).slots = m.slots := rfl
@[simp] theorem modPair_slotNext (f : PairRt → PairRt) : (m.modPair f).slotNext = m.slotNext := rfl
@[simp] theorem modPair_regions (f : PairRt → PairRt) : (m.modPair f).regions = m.regions := rfl
@[simp] theorem modPair_mcReqs (f : PairRt → PairRt) : (m.modPair f).mcReqs = m.mcReqs := rfl
@[simp] theorem modPair_mcRetried (f : PairRt → PairRt) : (m.modPair f).mcRetried = m.mcRetried := rfl
@[simp] theorem modPair_mcDrain (f : PairRt → PairRt) : (m.modPair f).mcDrain = m.mcDrain := rfl
@[simp] theorem modPair_mcTc3 (f : PairRt → PairRt) : (m.modPair f).mcTc3 = m.mcTc3 := rfl
@[simp] theorem modPair_rows (f : PairRt → PairRt) : (m.modPair f).rows = m.rows := rfl
@[simp] theorem modPair_refreshDue (f : PairRt → PairRt) : (m.modPair f).refreshDue = m.refreshDue := rfl
@[simp] theorem modPair_retrains (f : PairRt → PairRt) : (m.modPair f).retrains = m.retrains := rfl
@[simp] theorem modPair_remaps (f : PairRt → PairRt) : (m.modPair f).remaps = m.remaps := rfl
@[simp] theorem modPair_patrols (f : PairRt → PairRt) : (m.modPair f).patrols = m.patrols := rfl
@[simp] theorem modPair_sramPoison (f : PairRt → PairRt) : (m.modPair f).sramPoison = m.sramPoison := rfl
@[simp] theorem modPair_fcSrc (f : PairRt → PairRt) : (m.modPair f).fcSrc = m.fcSrc := rfl
@[simp] theorem modPair_caldLow (f : PairRt → PairRt) : (m.modPair f).caldLow = m.caldLow := rfl
@[simp] theorem modPair_pxTab (f : PairRt → PairRt) : (m.modPair f).pxTab = m.pxTab := rfl
@[simp] theorem modPair_egTab (f : PairRt → PairRt) : (m.modPair f).egTab = m.egTab := rfl
@[simp] theorem modPair_handovers (f : PairRt → PairRt) : (m.modPair f).handovers = m.handovers := rfl
@[simp] theorem modPair_ports (f : PairRt → PairRt) : (m.modPair f).ports = m.ports := rfl
@[simp] theorem modPair_hists (f : PairRt → PairRt) : (m.modPair f).hists = m.hists := rfl
@[simp] theorem modPair_meters (f : PairRt → PairRt) : (m.modPair f).meters = m.meters := rfl
@[simp] theorem modPair_queues (f : PairRt → PairRt) : (m.modPair f).queues = m.queues := rfl
@[simp] theorem modPair_engines (f : PairRt → PairRt) : (m.modPair f).engines = m.engines := rfl
@[simp] theorem modPair_vqfs (f : PairRt → PairRt) : (m.modPair f).vqfs = m.vqfs := rfl
@[simp] theorem modPair_warm (f : PairRt → PairRt) : (m.modPair f).warm = m.warm := rfl
@[simp] theorem modPair_warmWhy (f : PairRt → PairRt) : (m.modPair f).warmWhy = m.warmWhy := rfl
@[simp] theorem modPair_dramKept (f : PairRt → PairRt) : (m.modPair f).dramKept = m.dramKept := rfl
@[simp] theorem modPair_hios (f : PairRt → PairRt) : (m.modPair f).hios = m.hios := rfl
@[simp] theorem modPair_cfgReqs (f : PairRt → PairRt) : (m.modPair f).cfgReqs = m.cfgReqs := rfl
@[simp] theorem modPair_flash (f : PairRt → PairRt) : (m.modPair f).flash = m.flash := rfl
@[simp] theorem modPair_mbx (f : PairRt → PairRt) : (m.modPair f).mbx = m.mbx := rfl
@[simp] theorem modPair_dbg (f : PairRt → PairRt) : (m.modPair f).dbg = m.dbg := rfl
@[simp] theorem modPair_jtag (f : PairRt → PairRt) : (m.modPair f).jtag = m.jtag := rfl
@[simp] theorem modPair_power (f : PairRt → PairRt) : (m.modPair f).power = m.power := rfl
@[simp] theorem modPair_ppsLast (f : PairRt → PairRt) : (m.modPair f).ppsLast = m.ppsLast := rfl
@[simp] theorem modPair_ppsGood (f : PairRt → PairRt) : (m.modPair f).ppsGood = m.ppsGood := rfl
@[simp] theorem modPair_ppsOut (f : PairRt → PairRt) : (m.modPair f).ppsOut = m.ppsOut := rfl
@[simp] theorem modPair_kickAt (f : PairRt → PairRt) : (m.modPair f).kickAt = m.kickAt := rfl
@[simp] theorem modPair_holdAt (f : PairRt → PairRt) : (m.modPair f).holdAt = m.holdAt := rfl
@[simp] theorem modPair_secImage (f : PairRt → PairRt) : (m.modPair f).secImage = m.secImage := rfl
@[simp] theorem modPair_holdImage (f : PairRt → PairRt) : (m.modPair f).holdImage = m.holdImage := rfl
@[simp] theorem modPair_bootRec (f : PairRt → PairRt) : (m.modPair f).bootRec = m.bootRec := rfl
@[simp] theorem modPair_prevRec (f : PairRt → PairRt) : (m.modPair f).prevRec = m.prevRec := rfl
@[simp] theorem modPair_regsOff (f : PairRt → PairRt) : (m.modPair f).regsOff = m.regsOff := rfl
@[simp] theorem modPair_fuseCe (f : PairRt → PairRt) : (m.modPair f).fuseCe = m.fuseCe := rfl
@[simp] theorem modPair_fuseUe (f : PairRt → PairRt) : (m.modPair f).fuseUe = m.fuseUe := rfl
@[simp] theorem modPair_fumSkip (f : PairRt → PairRt) : (m.modPair f).fumSkip = m.fumSkip := rfl
@[simp] theorem modPair_tapOut (f : PairRt → PairRt) : (m.modPair f).tapOut = m.tapOut := rfl
@[simp] theorem modPair_busOut (f : PairRt → PairRt) : (m.modPair f).busOut = m.busOut := rfl
@[simp] theorem modPair_free (f : PairRt → PairRt) : (m.modPair f).free = m.free := rfl

/-! ### `report` -/

@[simp] theorem report_phase (r : Report) : (m.report r).phase = m.phase := rfl
@[simp] theorem report_shadows (r : Report) : (m.report r).shadows = m.shadows := rfl
@[simp] theorem report_cores (r : Report) : (m.report r).cores = m.cores := rfl
@[simp] theorem report_mem (r : Report) : (m.report r).mem = m.mem := rfl
@[simp] theorem report_mmeta (r : Report) : (m.report r).mmeta = m.mmeta := rfl
@[simp] theorem report_ctl (r : Report) : (m.report r).ctl = m.ctl := rfl
@[simp] theorem report_blks (r : Report) : (m.report r).blks = m.blks := rfl
@[simp] theorem report_routes (r : Report) : (m.report r).routes = m.routes := rfl
@[simp] theorem report_evPend (r : Report) : (m.report r).evPend = m.evPend := rfl
@[simp] theorem report_upsets (r : Report) : (m.report r).upsets = m.upsets := rfl
@[simp] theorem report_protLogs (r : Report) : (m.report r).protLogs = m.protLogs := rfl
@[simp] theorem report_sweepsRun (r : Report) : (m.report r).sweepsRun = m.sweepsRun := rfl
@[simp] theorem report_tagonly (r : Report) : (m.report r).tagonly = m.tagonly := rfl
@[simp] theorem report_dram (r : Report) : (m.report r).dram = m.dram := rfl
@[simp] theorem report_slt (r : Report) : (m.report r).slt = m.slt := rfl
@[simp] theorem report_fuses (r : Report) : (m.report r).fuses = m.fuses := rfl
@[simp] theorem report_dt (r : Report) : (m.report r).dt = m.dt := rfl
@[simp] theorem report_secTrig (r : Report) : (m.report r).secTrig = m.secTrig := rfl
@[simp] theorem report_mirWins (r : Report) : (m.report r).mirWins = m.mirWins := rfl
@[simp] theorem report_mirSeqs (r : Report) : (m.report r).mirSeqs = m.mirSeqs := rfl
@[simp] theorem report_fwds (r : Report) : (m.report r).fwds = m.fwds := rfl
@[simp] theorem report_l3 (r : Report) : (m.report r).l3 = m.l3 := rfl
@[simp] theorem report_dir (r : Report) : (m.report r).dir = m.dir := rfl
@[simp] theorem report_stale (r : Report) : (m.report r).stale = m.stale := rfl
@[simp] theorem report_txns (r : Report) : (m.report r).txns = m.txns := rfl
@[simp] theorem report_retried (r : Report) : (m.report r).retried = m.retried := rfl
@[simp] theorem report_gone (r : Report) : (m.report r).gone = m.gone := rfl
@[simp] theorem report_heldReqs (r : Report) : (m.report r).heldReqs = m.heldReqs := rfl
@[simp] theorem report_wbufs (r : Report) : (m.report r).wbufs = m.wbufs := rfl
@[simp] theorem report_sltMove (r : Report) : (m.report r).sltMove = m.sltMove := rfl
@[simp] theorem report_tokens (r : Report) : (m.report r).tokens = m.tokens := rfl
@[simp] theorem report_slots (r : Report) : (m.report r).slots = m.slots := rfl
@[simp] theorem report_slotNext (r : Report) : (m.report r).slotNext = m.slotNext := rfl
@[simp] theorem report_regions (r : Report) : (m.report r).regions = m.regions := rfl
@[simp] theorem report_mcReqs (r : Report) : (m.report r).mcReqs = m.mcReqs := rfl
@[simp] theorem report_mcRetried (r : Report) : (m.report r).mcRetried = m.mcRetried := rfl
@[simp] theorem report_mcDrain (r : Report) : (m.report r).mcDrain = m.mcDrain := rfl
@[simp] theorem report_mcTc3 (r : Report) : (m.report r).mcTc3 = m.mcTc3 := rfl
@[simp] theorem report_rows (r : Report) : (m.report r).rows = m.rows := rfl
@[simp] theorem report_refreshDue (r : Report) : (m.report r).refreshDue = m.refreshDue := rfl
@[simp] theorem report_retrains (r : Report) : (m.report r).retrains = m.retrains := rfl
@[simp] theorem report_remaps (r : Report) : (m.report r).remaps = m.remaps := rfl
@[simp] theorem report_patrols (r : Report) : (m.report r).patrols = m.patrols := rfl
@[simp] theorem report_sramPoison (r : Report) : (m.report r).sramPoison = m.sramPoison := rfl
@[simp] theorem report_fcSrc (r : Report) : (m.report r).fcSrc = m.fcSrc := rfl
@[simp] theorem report_caldLow (r : Report) : (m.report r).caldLow = m.caldLow := rfl
@[simp] theorem report_pxTab (r : Report) : (m.report r).pxTab = m.pxTab := rfl
@[simp] theorem report_egTab (r : Report) : (m.report r).egTab = m.egTab := rfl
@[simp] theorem report_handovers (r : Report) : (m.report r).handovers = m.handovers := rfl
@[simp] theorem report_ports (r : Report) : (m.report r).ports = m.ports := rfl
@[simp] theorem report_hists (r : Report) : (m.report r).hists = m.hists := rfl
@[simp] theorem report_meters (r : Report) : (m.report r).meters = m.meters := rfl
@[simp] theorem report_queues (r : Report) : (m.report r).queues = m.queues := rfl
@[simp] theorem report_engines (r : Report) : (m.report r).engines = m.engines := rfl
@[simp] theorem report_vqfs (r : Report) : (m.report r).vqfs = m.vqfs := rfl
@[simp] theorem report_pair (r : Report) : (m.report r).pair = m.pair := rfl
@[simp] theorem report_warm (r : Report) : (m.report r).warm = m.warm := rfl
@[simp] theorem report_warmWhy (r : Report) : (m.report r).warmWhy = m.warmWhy := rfl
@[simp] theorem report_dramKept (r : Report) : (m.report r).dramKept = m.dramKept := rfl
@[simp] theorem report_hios (r : Report) : (m.report r).hios = m.hios := rfl
@[simp] theorem report_cfgReqs (r : Report) : (m.report r).cfgReqs = m.cfgReqs := rfl
@[simp] theorem report_flash (r : Report) : (m.report r).flash = m.flash := rfl
@[simp] theorem report_mbx (r : Report) : (m.report r).mbx = m.mbx := rfl
@[simp] theorem report_dbg (r : Report) : (m.report r).dbg = m.dbg := rfl
@[simp] theorem report_jtag (r : Report) : (m.report r).jtag = m.jtag := rfl
@[simp] theorem report_power (r : Report) : (m.report r).power = m.power := rfl
@[simp] theorem report_ppsLast (r : Report) : (m.report r).ppsLast = m.ppsLast := rfl
@[simp] theorem report_ppsGood (r : Report) : (m.report r).ppsGood = m.ppsGood := rfl
@[simp] theorem report_ppsOut (r : Report) : (m.report r).ppsOut = m.ppsOut := rfl
@[simp] theorem report_kickAt (r : Report) : (m.report r).kickAt = m.kickAt := rfl
@[simp] theorem report_holdAt (r : Report) : (m.report r).holdAt = m.holdAt := rfl
@[simp] theorem report_secImage (r : Report) : (m.report r).secImage = m.secImage := rfl
@[simp] theorem report_holdImage (r : Report) : (m.report r).holdImage = m.holdImage := rfl
@[simp] theorem report_bootRec (r : Report) : (m.report r).bootRec = m.bootRec := rfl
@[simp] theorem report_prevRec (r : Report) : (m.report r).prevRec = m.prevRec := rfl
@[simp] theorem report_regsOff (r : Report) : (m.report r).regsOff = m.regsOff := rfl
@[simp] theorem report_fuseCe (r : Report) : (m.report r).fuseCe = m.fuseCe := rfl
@[simp] theorem report_fuseUe (r : Report) : (m.report r).fuseUe = m.fuseUe := rfl
@[simp] theorem report_fumSkip (r : Report) : (m.report r).fumSkip = m.fumSkip := rfl
@[simp] theorem report_tapOut (r : Report) : (m.report r).tapOut = m.tapOut := rfl
@[simp] theorem report_busOut (r : Report) : (m.report r).busOut = m.busOut := rfl
@[simp] theorem report_free (r : Report) : (m.report r).free = m.free := rfl

/-! ### `drawn` -/

@[simp] theorem drawn_phase : (m.drawn).phase = m.phase := rfl
@[simp] theorem drawn_shadows : (m.drawn).shadows = m.shadows := rfl
@[simp] theorem drawn_cores : (m.drawn).cores = m.cores := rfl
@[simp] theorem drawn_mem : (m.drawn).mem = m.mem := rfl
@[simp] theorem drawn_mmeta : (m.drawn).mmeta = m.mmeta := rfl
@[simp] theorem drawn_ctl : (m.drawn).ctl = m.ctl := rfl
@[simp] theorem drawn_blks : (m.drawn).blks = m.blks := rfl
@[simp] theorem drawn_routes : (m.drawn).routes = m.routes := rfl
@[simp] theorem drawn_evPend : (m.drawn).evPend = m.evPend := rfl
@[simp] theorem drawn_reports : (m.drawn).reports = m.reports := rfl
@[simp] theorem drawn_upsets : (m.drawn).upsets = m.upsets := rfl
@[simp] theorem drawn_protLogs : (m.drawn).protLogs = m.protLogs := rfl
@[simp] theorem drawn_sweepsRun : (m.drawn).sweepsRun = m.sweepsRun := rfl
@[simp] theorem drawn_tagonly : (m.drawn).tagonly = m.tagonly := rfl
@[simp] theorem drawn_dram : (m.drawn).dram = m.dram := rfl
@[simp] theorem drawn_slt : (m.drawn).slt = m.slt := rfl
@[simp] theorem drawn_fuses : (m.drawn).fuses = m.fuses := rfl
@[simp] theorem drawn_dt : (m.drawn).dt = m.dt := rfl
@[simp] theorem drawn_secTrig : (m.drawn).secTrig = m.secTrig := rfl
@[simp] theorem drawn_mirWins : (m.drawn).mirWins = m.mirWins := rfl
@[simp] theorem drawn_mirSeqs : (m.drawn).mirSeqs = m.mirSeqs := rfl
@[simp] theorem drawn_fwds : (m.drawn).fwds = m.fwds := rfl
@[simp] theorem drawn_l3 : (m.drawn).l3 = m.l3 := rfl
@[simp] theorem drawn_dir : (m.drawn).dir = m.dir := rfl
@[simp] theorem drawn_stale : (m.drawn).stale = m.stale := rfl
@[simp] theorem drawn_txns : (m.drawn).txns = m.txns := rfl
@[simp] theorem drawn_retried : (m.drawn).retried = m.retried := rfl
@[simp] theorem drawn_gone : (m.drawn).gone = m.gone := rfl
@[simp] theorem drawn_heldReqs : (m.drawn).heldReqs = m.heldReqs := rfl
@[simp] theorem drawn_wbufs : (m.drawn).wbufs = m.wbufs := rfl
@[simp] theorem drawn_sltMove : (m.drawn).sltMove = m.sltMove := rfl
@[simp] theorem drawn_tokens : (m.drawn).tokens = m.tokens := rfl
@[simp] theorem drawn_slots : (m.drawn).slots = m.slots := rfl
@[simp] theorem drawn_slotNext : (m.drawn).slotNext = m.slotNext := rfl
@[simp] theorem drawn_regions : (m.drawn).regions = m.regions := rfl
@[simp] theorem drawn_mcReqs : (m.drawn).mcReqs = m.mcReqs := rfl
@[simp] theorem drawn_mcRetried : (m.drawn).mcRetried = m.mcRetried := rfl
@[simp] theorem drawn_mcDrain : (m.drawn).mcDrain = m.mcDrain := rfl
@[simp] theorem drawn_mcTc3 : (m.drawn).mcTc3 = m.mcTc3 := rfl
@[simp] theorem drawn_rows : (m.drawn).rows = m.rows := rfl
@[simp] theorem drawn_refreshDue : (m.drawn).refreshDue = m.refreshDue := rfl
@[simp] theorem drawn_retrains : (m.drawn).retrains = m.retrains := rfl
@[simp] theorem drawn_remaps : (m.drawn).remaps = m.remaps := rfl
@[simp] theorem drawn_patrols : (m.drawn).patrols = m.patrols := rfl
@[simp] theorem drawn_sramPoison : (m.drawn).sramPoison = m.sramPoison := rfl
@[simp] theorem drawn_fcSrc : (m.drawn).fcSrc = m.fcSrc := rfl
@[simp] theorem drawn_caldLow : (m.drawn).caldLow = m.caldLow := rfl
@[simp] theorem drawn_pxTab : (m.drawn).pxTab = m.pxTab := rfl
@[simp] theorem drawn_egTab : (m.drawn).egTab = m.egTab := rfl
@[simp] theorem drawn_handovers : (m.drawn).handovers = m.handovers := rfl
@[simp] theorem drawn_ports : (m.drawn).ports = m.ports := rfl
@[simp] theorem drawn_hists : (m.drawn).hists = m.hists := rfl
@[simp] theorem drawn_meters : (m.drawn).meters = m.meters := rfl
@[simp] theorem drawn_queues : (m.drawn).queues = m.queues := rfl
@[simp] theorem drawn_engines : (m.drawn).engines = m.engines := rfl
@[simp] theorem drawn_vqfs : (m.drawn).vqfs = m.vqfs := rfl
@[simp] theorem drawn_pair : (m.drawn).pair = m.pair := rfl
@[simp] theorem drawn_warm : (m.drawn).warm = m.warm := rfl
@[simp] theorem drawn_warmWhy : (m.drawn).warmWhy = m.warmWhy := rfl
@[simp] theorem drawn_dramKept : (m.drawn).dramKept = m.dramKept := rfl
@[simp] theorem drawn_hios : (m.drawn).hios = m.hios := rfl
@[simp] theorem drawn_cfgReqs : (m.drawn).cfgReqs = m.cfgReqs := rfl
@[simp] theorem drawn_flash : (m.drawn).flash = m.flash := rfl
@[simp] theorem drawn_mbx : (m.drawn).mbx = m.mbx := rfl
@[simp] theorem drawn_dbg : (m.drawn).dbg = m.dbg := rfl
@[simp] theorem drawn_jtag : (m.drawn).jtag = m.jtag := rfl
@[simp] theorem drawn_power : (m.drawn).power = m.power := rfl
@[simp] theorem drawn_ppsLast : (m.drawn).ppsLast = m.ppsLast := rfl
@[simp] theorem drawn_ppsGood : (m.drawn).ppsGood = m.ppsGood := rfl
@[simp] theorem drawn_ppsOut : (m.drawn).ppsOut = m.ppsOut := rfl
@[simp] theorem drawn_kickAt : (m.drawn).kickAt = m.kickAt := rfl
@[simp] theorem drawn_holdAt : (m.drawn).holdAt = m.holdAt := rfl
@[simp] theorem drawn_secImage : (m.drawn).secImage = m.secImage := rfl
@[simp] theorem drawn_holdImage : (m.drawn).holdImage = m.holdImage := rfl
@[simp] theorem drawn_bootRec : (m.drawn).bootRec = m.bootRec := rfl
@[simp] theorem drawn_prevRec : (m.drawn).prevRec = m.prevRec := rfl
@[simp] theorem drawn_regsOff : (m.drawn).regsOff = m.regsOff := rfl
@[simp] theorem drawn_fuseCe : (m.drawn).fuseCe = m.fuseCe := rfl
@[simp] theorem drawn_fuseUe : (m.drawn).fuseUe = m.fuseUe := rfl
@[simp] theorem drawn_fumSkip : (m.drawn).fumSkip = m.fumSkip := rfl
@[simp] theorem drawn_tapOut : (m.drawn).tapOut = m.tapOut := rfl
@[simp] theorem drawn_busOut : (m.drawn).busOut = m.busOut := rfl

end Sys2Proof.Machine
end

