-- ==== Sys2Proof/Laws/Vector.lean ====
section
/-!
SUPPORT. Laws of the long vectors: what a write of one element does, and what an element-wise instruction leaves in each element.
-/

namespace Sys2Proof.Machine

/-- The three parts of a number in which `n` bits at `lo` are replaced. -/
theorem replBits_parts (v lo n x : Nat) :
    replBits v lo n x = v / 2 ^ (lo + n) * 2 ^ (lo + n) + (x % 2 ^ n) * 2 ^ lo + v % 2 ^ lo := by
  unfold replBits
  rw [Nat.shiftRight_eq_div_pow, Nat.shiftLeft_eq, Nat.shiftLeft_eq]
  have h1 : v = 2 ^ lo * (v / 2 ^ lo) + v % 2 ^ lo := (Nat.div_add_mod v (2 ^ lo)).symm
  have h2 : v / 2 ^ lo = 2 ^ n * (v / 2 ^ lo / 2 ^ n) + v / 2 ^ lo % 2 ^ n := (Nat.div_add_mod _ _).symm
  have h3 : v / 2 ^ lo / 2 ^ n = v / 2 ^ (lo + n) := by rw [Nat.div_div_eq_div_mul, pow_add]
  have h4 : v = v / 2 ^ (lo + n) * 2 ^ (lo + n) + (v / 2 ^ lo % 2 ^ n) * 2 ^ lo + v % 2 ^ lo := by
    conv => lhs; rw [h1, h2, h3]
    ring
  omega

/-- Bit `k` of a number in which `n` bits at `lo` are replaced. -/
theorem replBits_testBit (v lo n x k : Nat) :
    (replBits v lo n x).testBit k = if lo ≤ k ∧ k < lo + n then x.testBit (k - lo) else v.testBit k := by
  have e : v / 2 ^ (lo + n) * 2 ^ (lo + n) + (x % 2 ^ n) * 2 ^ lo + v % 2 ^ lo =
      2 ^ lo * (2 ^ n * (v / 2 ^ (lo + n)) + x % 2 ^ n) + v % 2 ^ lo := by rw [pow_add]; ring
  rw [replBits_parts, e, Nat.testBit_two_pow_mul_add _ (Nat.mod_lt _ (by positivity)),
    Nat.testBit_two_pow_mul_add _ (Nat.mod_lt _ (by positivity))]
  simp only [Nat.testBit_mod_two_pow, Nat.testBit_div_two_pow]
  by_cases h : k < lo
  · simp [h]
  · by_cases h' : k - lo < n
    · simp only [h, h', if_true, if_false, decide_true, Bool.true_and]
      rw [if_pos (by omega)]
    · simp only [h, h', if_false]
      rw [if_neg (by omega)]
      congr 1
      omega

/-- A field of a number in which another field, or the same one, is replaced. -/
theorem field_replBits (v i j n x : Nat) :
    (replBits v (i * n) n x >>> (j * n)) % 2 ^ n = if j = i then x % 2 ^ n else (v >>> (j * n)) % 2 ^ n := by
  apply Nat.eq_of_testBit_eq
  intro k
  simp only [Nat.testBit_mod_two_pow, Nat.testBit_shiftRight, replBits_testBit]
  by_cases hk : k < n
  · by_cases h : j = i
    · subst h
      simp [hk]
    · have hn : ¬ (i * n ≤ j * n + k ∧ j * n + k < i * n + n) := by
        rcases Nat.lt_or_gt_of_ne h with h | h
        · have : (j + 1) * n ≤ i * n := Nat.mul_le_mul_right _ h
          rw [Nat.add_mul] at this
          omega
        · have : (i + 1) * n ≤ j * n := Nat.mul_le_mul_right _ h
          rw [Nat.add_mul] at this
          omega
      simp [hk, hn, h]
  · by_cases h : j = i <;> simp [hk, h]

/-- The low bits of a wide number keep a field that lies in them. -/
theorem field_mod (v s j n : Nat) (h : j * n + n ≤ s) : ((v % 2 ^ s) >>> (j * n)) % 2 ^ n = (v >>> (j * n)) % 2 ^ n := by
  apply Nat.eq_of_testBit_eq
  intro k
  simp only [Nat.testBit_mod_two_pow, Nat.testBit_shiftRight]
  by_cases hk : k < n
  · simp [hk, show j * n + k < s by omega]
  · simp [hk]

/-- Element `j` after a write of element `i`. -/
theorem elem_put (r : VReg) (w i j v : Nat) (p : Bool) (hj : j * w + w ≤ 1024) :
    (r.put w i v p).elem w j = if j = i then v % 2 ^ w else r.elem w j := by
  simp only [VReg.put, VReg.elem, BitVec.toNat_ofNat]
  rw [field_mod _ 1024 _ _ hj, field_replBits]

/-- The poison of element `j` after a write of element `i`. -/
theorem pois_put (r : VReg) (w i j v : Nat) (p : Bool) (hw : 8 ≤ w) (hj : j * (w / 8) + w / 8 ≤ 128) :
    (r.put w i v p).pois w j = if j = i then p else r.pois w j := by
  simp only [VReg.put, VReg.pois, BitVec.toNat_ofNat]
  rw [field_mod _ _ _ _ hj, field_replBits]
  by_cases h : j = i
  · have h2 : 2 ≤ 2 ^ (w / 8) := by
      calc 2 = 2 ^ 1 := rfl
        _ ≤ 2 ^ (w / 8) := Nat.pow_le_pow_right (by decide) (by omega)
    cases p
    · simp [h]
    · simp only [h, if_true]
      rw [Nat.mod_eq_of_lt (by omega)]
      simp
      omega
  · simp [h]

/-- The element width is 8, 16, 32 or 64. -/
theorem ew_cases (x : Core) : x.ew = 8 ∨ x.ew = 16 ∨ x.ew = 32 ∨ x.ew = 64 := by
  have : fld x.vtype 0 2 < 4 := Nat.mod_lt _ (by decide)
  unfold Core.ew
  interval_cases fld x.vtype 0 2 <;> simp

/-- What one element becomes in an element-wise instruction. -/
def Mach.vStepElem (m : Mach) (c : Nat) (masked : Bool) (f : Nat → Option VElem) (r : VReg) (i : Nat) : VReg :=
  match (if m.vActive c masked i then f i else none) with
  | some e => r.put (m.core c).ew i e.val (e.poison || m.vMaskPoison c masked)
  | none => if m.vMaskPoison c masked then r.taint (m.core c).ew i else r

/-- An element-wise instruction over the first `n` elements, element by element. -/
theorem vFold_elem (m : Mach) (c : Nat) (masked : Bool) (f : Nat → Option VElem) (old : VReg) (n j : Nat)
    (hj : j < 1024 / (m.core c).ew) :
    let w := (m.core c).ew
    let v := (List.range n).foldl (m.vStepElem c masked f) old
    v.elem w j = (if j < n then ((if m.vActive c masked j then f j else none).map (fun e => e.val % 2 ^ w)).getD (old.elem w j)
      else old.elem w j) ∧
    v.pois w j = (if j < n then ((if m.vActive c masked j then f j else none).map (fun e => e.poison)).getD (old.pois w j)
      || m.vMaskPoison c masked else old.pois w j) := by
  intro w
  have hw := ew_cases (m.core c)
  have h1 : j * w + w ≤ 1024 := by
    simp only [w] at *
    rcases hw with h | h | h | h <;> rw [h] at hj ⊢ <;> omega
  have h2 : j * (w / 8) + w / 8 ≤ 128 := by
    simp only [w] at *
    rcases hw with h | h | h | h <;> rw [h] at hj ⊢ <;> omega
  have h3 : 8 ≤ w := by
    simp only [w]
    rcases hw with h | h | h | h <;> omega
  induction n with
  | zero => simp
  | succ n ih =>
    simp only [List.range_succ, List.foldl_append, List.foldl_cons, List.foldl_nil] at ih ⊢
    generalize hv : (List.range n).foldl (m.vStepElem c masked f) old = v at ih ⊢
    obtain ⟨ih1, ih2⟩ := ih
    unfold Mach.vStepElem
    have hew : (m.core c).ew = w := rfl
    have hmp : ∀ x : VReg, (x.taint w n).elem w j = x.elem w j ∧ (x.taint w n).pois w j = if j = n then true else x.pois w j := by
      intro x
      simp only [VReg.taint]
      rw [elem_put _ _ _ _ _ _ h1, pois_put _ _ _ _ _ _ h3 h2]
      by_cases h : j = n
      · subst h
        simp [VReg.elem]
      · simp [h]
    cases hf : (if m.vActive c masked n then f n else none) with
    | some e =>
      simp only
      rw [elem_put _ _ _ _ _ _ h1, pois_put _ _ _ _ _ _ h3 h2, ih1, ih2]
      by_cases h : j = n
      · subst h
        simp [hf, w]
      · simp [h, show (j < n + 1) = (j < n) from propext (by omega)]
    | none =>
      simp only
      by_cases hp : m.vMaskPoison c masked = true
      · simp only [hp, if_true, hew, hmp v]
        by_cases h : j = n
        · subst h
          simp [hf, ih1]
        · simp only [h, if_false, ih1, ih2, hp, and_self, show (j < n + 1) = (j < n) from propext (by omega)]
      · simp only [hp, Bool.false_eq_true, if_false, ih1, ih2, Bool.or_false]
        by_cases h : j = n
        · subst h
          simp [hf]
        · simp only [and_self, show (j < n + 1) = (j < n) from propext (by omega)]

/-- The destination of an element-wise instruction is the fold over its elements. -/
theorem vMap_fold (m : Mach) (c : Nat) (masked : Bool) (old : VReg) (f : Nat → Option VElem) :
    m.vMap c masked old f = (List.range (m.core c).vl).foldl (m.vStepElem c masked f) old := rfl

end Sys2Proof.Machine
end

