-- ==== Sys2Proof/Laws/Ops.lean ====
section
/-!
SUPPORT. Laws of the shared operations: what an instruction that begins does, when a register window is reached, what a register write
changes, what a raise and a violation leave, and which memory has no port of its own.
-/

namespace Sys2Proof.Machine

/-! ### Instructions -/

/-- An instruction that begins ends as its body says. -/
theorem instr_begins {m m1 : Mach} {c : Nat} (h : m.Begins c m1) (evs : List Nat) (body : Mach → Res) :
    m.instr c evs body = m1.finish c evs (body m1) := by
  obtain ⟨h1, h2, h3⟩ := h
  simp [Mach.instr, h1, h2, h3]

/-- A core that cannot run an instruction leaves the machine as it is. -/
theorem instr_stopped {m : Mach} {c : Nat} (h : m.canRun c = false) (evs : List Nat) (body : Mach → Res) :
    m.instr c evs body = m := by
  simp [Mach.instr, h]

/-- A due asynchronous exception is taken in place of the instruction. -/
theorem instr_due {m : Mach} {c : Nat} {d : Due} (h : m.canRun c = true) (hd : m.due c = some d) (evs : List Nat) (body : Mach → Res) :
    m.instr c evs body = (m.takeDue c d).stepDone c := by
  simp [Mach.instr, h, hd]

/-- A fetch that fails traps. -/
theorem instr_fetch_error {m m1 : Mach} {c : Nat} {e : Exc} (h : m.canRun c = true) (hd : m.due c = none)
    (hf : m.fetch c = .error (e, m1)) (evs : List Nat) (body : Mach → Res) : m.instr c evs body = (m1.trap c e).stepDone c := by
  simp [Mach.instr, h, hd, hf]

/-- What an instruction can do: nothing, an exception that was due, a fetch fault, or its own end. -/
theorem instr_cases (m : Mach) (c : Nat) (evs : List Nat) (body : Mach → Res) :
    (m.canRun c = false ∧ m.instr c evs body = m) ∨
    (∃ d, m.due c = some d ∧ m.instr c evs body = (m.takeDue c d).stepDone c) ∨
    (∃ e m1, m.fetch c = .error (e, m1) ∧ m.instr c evs body = (m1.trap c e).stepDone c) ∨
    (∃ m1, m.Begins c m1 ∧ m.instr c evs body = m1.finish c evs (body m1)) := by
  cases h : m.canRun c with
  | false => exact .inl ⟨rfl, instr_stopped h evs body⟩
  | true =>
    cases hd : m.due c with
    | some d => exact .inr (.inl ⟨d, rfl, instr_due h hd evs body⟩)
    | none =>
      cases hf : m.fetch c with
      | error p => obtain ⟨e, m1⟩ := p; exact .inr (.inr (.inl ⟨e, m1, rfl, instr_fetch_error h hd hf evs body⟩))
      | ok m1 => exact .inr (.inr (.inr ⟨m1, ⟨h, hd, hf⟩, instr_begins ⟨h, hd, hf⟩ evs body⟩))

/-- A core that begins an instruction runs. -/
theorem begins_running {m m1 : Mach} {c : Nat} (h : m.Begins c m1) :
    m.phase = .run ∧ c < 176 ∧ (m.core c).st = .running ∧ (m.core c).rpWait = none ∧ (m.core c).put = none := by
  have := h.1
  simp only [Mach.canRun, Bool.and_eq_true, decide_eq_true_eq, Option.isNone_iff_eq_none] at this
  tauto

/-- A long-vector instruction that begins on a V-core with a legal vector type ends as its body says. -/
theorem vinstr_begins {m m1 : Mach} {c : Nat} (h : m.Begins c m1) (hc : c < 144) (hv : bit (m1.core c).vtype 63 = false)
    (body : Mach → Res) : vinstr c true body m = m1.finish c [0x010] (body m1) := by
  simp [vinstr, instr_begins h, isC, Nat.not_le.mpr hc, hv]

/-! ### Windows -/

/-- A command on an open window reaches it. -/
theorem window_open {m : Mach} {mst : Master} {st k off : Nat} (h : m.Opens mst st k off) (f : Mach → Mach) :
    m.window mst st k off f = f m := by
  obtain ⟨h1, h2, h3⟩ := h
  unfold Mach.window
  rw [Option.isNone_eq_false_iff.mpr h1]
  simp only [h2, Bool.false_eq_true, if_false, Bool.not_true]
  rcases h3 with h3 | h3 <;> simp [h3]

/-- A command on an open window of a core reaches it. -/
theorem coreWindow_open {m : Mach} {mst : Master} {c off : Nat} (hc : c < 176) (h : m.Opens mst (coreStop c) (coreWin c) off)
    (f : Mach → Mach) : m.coreWindow mst c off f = f m := by
  unfold Mach.coreWindow
  rw [if_neg (by omega), window_open h]

/-! ### Registers -/

/-- What a register reads after a write of another or the same one. -/
theorem g_setG (m : Mach) (c d c' r : Nat) (w : Word) :
    (m.setG c d w).g c' r = if c' = c ∧ r % 64 = d % 64 ∧ d % 64 ≠ 0 then w else m.g c' r := by
  unfold Mach.setG Mach.g
  by_cases hd : d % 64 = 0
  · simp [hd]
  · by_cases hr : r % 64 = 0
    · simp [hr]
      intro _ h; omega
    · by_cases hc : c' = c
      · subst hc
        by_cases h : r % 64 = d % 64
        · simp [hd, h]
        · simp [hd, hr, h, Tab.get_set_ne _ _ _ h]
      · simp [hd, hr, hc, core_setCore]

/-- A write to g0 is discarded. -/
@[simp] theorem setG_zero (m : Mach) (c : Nat) (w : Word) : m.setG c 0 w = m := rfl

@[simp] theorem setG_mem (m : Mach) (c d : Nat) (w : Word) : (m.setG c d w).mem = m.mem := by
  unfold Mach.setG; split <;> rfl
@[simp] theorem setG_mmeta (m : Mach) (c d : Nat) (w : Word) : (m.setG c d w).mmeta = m.mmeta := by
  unfold Mach.setG; split <;> rfl
@[simp] theorem setG_ctl (m : Mach) (c d : Nat) (w : Word) : (m.setG c d w).ctl = m.ctl := by
  unfold Mach.setG; split <;> rfl

/-! ### Loads and stores -/

/-- Memory is neither a root-port range nor a doorbell. -/
theorem mem_noRp {m : Mach} {p : Piece} (h : m.isMem p.pa = true) : m.rpPiece p = none ∧ m.bellPiece p = false := by
  unfold Mach.isMem at h
  unfold Mach.rpPiece Mach.bellPiece
  split at h <;> simp_all

/-- A word without TAG is not untagged by a sweep. -/
theorem untagSwept_untagged (m : Mach) (c : Nat) (w : Word) (h : w.tag = false) : m.untagSwept c w = w := by
  unfold Mach.untagSwept
  induction m.sweepsRun generalizing w with
  | nil => rfl
  | cons q t ih =>
    have : (m.core c).sweepWord q w = w := by simp [Core.sweepWord, Core.sweptBy, h]
    simp [List.foldl, this, ih w h]

/-! ### Events and violations -/

/-- What a raise can do: nothing, a count of a dropped or of a coalesced raise, or one more pending event. -/
theorem raiseEvent_cases (m : Mach) (n : Nat) :
    m.raiseEvent n = m ∨ m.raiseEvent n = m.countReg 0 0 0x620 32 32 1 ∨ m.raiseEvent n = m.countReg 0 0 0x620 0 32 1 ∨
    m.raiseEvent n = { m with evPend := insNat m.evPend n } := by
  unfold Mach.raiseEvent
  split
  · exact .inl rfl
  · split
    · exact .inr (.inl rfl)
    · split
      · exact .inr (.inr (.inl rfl))
      · exact .inr (.inr (.inr rfl))

/-- A violation changes its window's header and sends a report. -/
theorem logViol_eq (m : Mach) (st k : Nat) (v : Viol) : ∃ b r, m.logViol st k v = (m.setBlk st k b).report r := ⟨_, _, rfl⟩

@[simp] theorem logViol_mem (m : Mach) (st k : Nat) (v : Viol) : (m.logViol st k v).mem = m.mem := rfl
@[simp] theorem logViol_cores (m : Mach) (st k : Nat) (v : Viol) : (m.logViol st k v).cores = m.cores := rfl

/-! ### Long vectors -/

/-- The flags of an element-wise instruction whose elements raise none. -/
theorem vFlags_none (m : Mach) (c : Nat) (k : Bool) (f : Nat → Option VElem) (hf : ∀ i e, f i = some e → e.flags = .none) :
    m.vFlags c k f = .none := by
  unfold Mach.vFlags
  generalize List.range _ = l
  suffices ∀ a : Flags, a = .none → l.foldl (fun a i => match (if m.vActive c k i then f i else none) with
    | some e => a.or e.flags | none => a) a = .none from this _ rfl
  induction l with
  | nil => intro a h; exact h
  | cons x t ih =>
    intro a h
    simp only [List.foldl_cons]
    apply ih
    split
    · next e he =>
      split at he
      · rw [hf _ _ he, h]; rfl
      · simp at he
    · exact h

/-- What each element of an element-wise instruction becomes. -/
theorem vMap_elem (m : Mach) (c : Nat) (k : Bool) (old : VReg) (f : Nat → Option VElem) (i : Nat) (hi : i < 1024 / (m.core c).ew) :
    let w := (m.core c).ew
    let v := m.vMap c k old f
    v.elem w i = (if i < (m.core c).vl then ((if m.vActive c k i then f i else none).map (fun e => e.val % 2 ^ w)).getD (old.elem w i)
      else old.elem w i) ∧
    v.pois w i = (if i < (m.core c).vl then ((if m.vActive c k i then f i else none).map (fun e => e.poison)).getD (old.pois w i)
      || m.vMaskPoison c k else old.pois w i) := by
  rw [vMap_fold]
  exact vFold_elem m c k f old (m.core c).vl i hi

/-- An element is narrower than its width. -/
theorem elem_lt (r : VReg) (w i : Nat) : r.elem w i < 2 ^ w := Nat.mod_lt _ (by positivity)

/-- The second source of an element-wise instruction is narrower than the element width. -/
theorem vB_lt (m : Mach) (c : Nat) (sc : Bool) (b i : Nat) : (m.vB c sc b i).1 < 2 ^ (m.core c).ew := by
  unfold Mach.vB
  simp only
  split <;> exact Nat.mod_lt _ (by positivity)

end Sys2Proof.Machine
end

