-- ==== Sys2Proof/Tests/Slice0.lean ====
section
/-!
SUPPORT. Tests: an ill-formed term for each check of well-formedness, the worked examples of the spec, and for each statement a concrete
state and operands that meet its hypotheses.
-/

set_option maxRecDepth 20000

namespace Sys2Proof.Tests

open Sys2Proof.Machine

/-! ### Well-formedness -/

/-- The Sytum as sender. -/
def syt : Master := ⟨0, 0, .host, 0, true⟩
/-- V-core 0 as sender. -/
def host0 : Master := ⟨podStop 0, 0, .host, 0, false⟩
/-- A sender in the SECURE world. -/
def sec0 : Master := ⟨podStop 0, 0, .secure, 0, false⟩

theorem test_wf_core : (Instr.add 176 0 0 0).wf = false := by decide
theorem test_wf_core_last : (Instr.add 175 0 0 0).wf = true := by decide
theorem test_wf_event : (Instr.eventDelivery 1024).wf = false := by decide
theorem test_wf_master : (Instr.sytEvrRouteWrite ⟨56, 0, .host, 0, false⟩ 0).wf = false := by decide
theorem test_wf_master_unit : (Instr.sytEvrRouteWrite ⟨55, 64, .host, 0, false⟩ 0).wf = false := by decide
theorem test_wf_offset : (Instr.ctxRegisterWrite syt 0 4096 .zero).wf = false := by decide
theorem test_wf_window : (Instr.expertUnlockWrite syt 0 0xF0 0).wf = false := by decide
theorem test_wf_pod : (Instr.podReset syt 36 []).wf = false := by decide
theorem test_wf_cluster : (Instr.ccReset syt 4 []).wf = false := by decide
theorem test_wf_va : (Instr.prefetchIssue 0 0 0 (2 ^ 48)).wf = false := by decide
theorem test_wf_agent : (Instr.rds 176 0 0 none false).wf = false := by decide
theorem test_wf_line : (Instr.rds 0 (2 ^ 46) 0 none false).wf = false := by decide
theorem test_wf_class : (Instr.rds 0 0 4 none false).wf = false := by decide
theorem test_wf_word_of_line : (Instr.atomf syt 0 0 8 0 .zero .zero).wf = false := by decide
theorem test_wf_requester : (Instr.data 56 0 0).wf = false := by decide
theorem test_wf_requester_unit : (Instr.data 0 64 0).wf = false := by decide
theorem test_wf_stop : (Instr.flitReceive 56 false 0 [] false).wf = false := by decide
theorem test_wf_slot : (Instr.maintenanceCommand 16).wf = false := by decide
theorem test_wf_slot_done : (Instr.slotDone 16).wf = false := by decide
theorem test_wf_controller : (Instr.mcOrderWrite syt 6 false).wf = false := by decide
theorem test_wf_channel : (Instr.refresh 12 0 0 0 false).wf = false := by decide
theorem test_wf_subchannel : (Instr.refresh 0 2 0 0 false).wf = false := by decide
theorem test_wf_mask : (Instr.bankmaskWrite syt 0 5 0).wf = false := by decide
theorem test_wf_pend : (Instr.fcPendClear syt 8 0).wf = false := by decide
theorem test_wf_port : (Instr.frameReceive 128 default).wf = false := by decide
theorem test_wf_complex : (Instr.streamGateIntervalEnd 4 0).wf = false := by decide
theorem test_wf_pair : (Instr.pxPairWrite syt 0 16 0).wf = false := by decide
theorem test_wf_queue : (Instr.recordAccept 4096 0).wf = false := by decide
theorem test_wf_engine : (Instr.leQRead syt 2).wf = false := by decide
theorem test_wf_role : (Instr.epnRoleWrite syt 0 32 0).wf = false := by decide
theorem test_wf_epnis_link : (Instr.epnisFrameReceive 2 0 0 false none none .other).wf = false := by decide
theorem test_wf_sense_path : (Instr.psenseFrameReceive 2 .leave).wf = false := by decide
theorem test_wf_fence_path : (Instr.fenceCommandReceive 4 false).wf = false := by decide
theorem test_wf_vqf : (Instr.vqfStopComplete 0 64).wf = false := by decide
theorem test_wf_domain : (Instr.secHoldTimeout 49).wf = false := by decide
theorem test_wf_host_io : (Instr.dmaRequest 2 default).wf = false := by decide
theorem test_wf_root_port : (Instr.rpCfgAccess syt 32 false 0).wf = false := by decide
theorem test_wf_address : (Instr.entdaa 128).wf = false := by decide
theorem test_wf_static_address : (Instr.setdasa 128 0).wf = false := by decide
theorem test_wf_mailbox : (Instr.mailboxWrite 256 []).wf = false := by decide
theorem test_wf_priority : (Instr.pauseTimeExpiry 0 9).wf = false := by decide

/-! ### Machines -/

/-- A cached grant with these permissions for the low 2⁴⁰ bytes. -/
def grantLine (pa perms : Nat) : GrantLine := ⟨pa, 0, BitVec.ofNat 64 (2 ^ 40), setBit (setFld 0 0 16 perms) 63 true, 0⟩
/-- A translation of `2 ^ lg` bytes at `v` to the same addresses, with every right. -/
def transl (v lg pt : Nat) : TlbEntry := ⟨.host, 0, 0, true, lg, v, 0, v, true, true, true, true, true, true, false, pt⟩

/-- The capability of the grant that `core0` caches, at `cursor`. -/
def cap0 (cursor : Nat) : Word := .cap cursor 1 false 0

/-- A running core with a grant, translations and a few registers. -/
def core0 : Core := { Core.reset with
  st := .running, pcc := cap0 0x1000, gtab := 0x10000, s1 := 1, tlb := [transl 0x10000 16 1, transl 0 47 0]
  gcache := [grantLine 0x10020 0xFFFF], vtype := 3, vl := 2
  g := [(1, .plain 5), (2, .plain 7), (3, cap0 0x2000), (4, ⟨9, false, true, 3⟩), (5, .plain 8)] }

/-- A running device with every domain ON, one channel and one core. -/
def dev : Mach := { Mach.reset with
  phase := .run, ctl := (List.range 49).map (fun d => (544 + d, 1)), cores := [(0, core0)], dram := ⟨[0], 2 ^ 30, []⟩ }

/-- The device with core 0 as given. -/
def devC (x : Core) : Mach := { dev with cores := [(0, x)] }
/-- The device with core 0 in this state. -/
def devSt (st : CoreState) : Mach := devC { core0 with st := st }

/-- The value of an access, or the default. -/
def got {ε α : Type} (d : α) : Except ε α → α
  | .ok a => a
  | .error _ => d

/-- Whether an access passes. -/
def passes {ε α : Type} : Except ε α → Bool
  | .ok _ => true
  | .error _ => false

theorem got_eq {ε α : Type} {d : α} {e : Except ε α} (h : passes e = true) : e = .ok (got d e) := by
  cases e with
  | ok a => rfl
  | error _ => simp [passes] at h

/-- The machine after the fetch. -/
def fetched (m : Mach) (c : Nat) : Mach := got m (m.fetch c)

/-- An instruction begins where the core runs, nothing is due and the fetch passes. -/
theorem begins_of {m : Mach} {c : Nat} (h : (m.canRun c && (m.due c).isNone && passes (m.fetch c)) = true) :
    m.Begins c (fetched m c) := by
  simp only [Bool.and_eq_true, Option.isNone_iff_eq_none] at h
  exact ⟨h.1.1, h.1.2, got_eq h.2⟩

/-- Whether an access passes in one part with which `q` holds. -/
def one {ε : Type} (e : Except ε (List Piece × Grant × Mach)) (q : Piece → Grant → Mach → Bool) : Bool :=
  match e with
  | .ok ([p], g, t) => q p g t
  | _ => false

theorem one_some {ε : Type} {e : Except ε (List Piece × Grant × Mach)} {q : Piece → Grant → Mach → Bool} (h : one e q = true) :
    ∃ p g t, e = .ok ([p], g, t) ∧ q p g t = true := by
  unfold one at h
  split at h
  · next p g t => exact ⟨p, g, t, rfl, h⟩
  · cases h

theorem test_begins : dev.Begins 0 (fetched dev 0) := begins_of (by decide)


/-! ### Hypotheses of the statements about instructions -/

theorem hyp_CommandsRun : State.reset.pending = [] := rfl
theorem test_step_front : step ⟨[.add 0 1 2 3], dev⟩ = exec (.add 0 1 2 3) ⟨[], dev⟩ := rfl
theorem hyp_StepKeepsMemoryCanonical : State.reset.m.MemCanon ∧ step State.reset = .next State.reset := ⟨reset_canon, rfl⟩
theorem hyp_InstructionFrames : (0 < 144 ∧ (dev.core 0).stepping = false) ∧ (dev.upsets = [] ∧ dev.fetch 0 = .ok (fetched dev 0)) ∧
    (State.reset.m.core 0).st ≠ .running := by
  exact ⟨by decide, ⟨rfl, got_eq (by decide)⟩, by decide⟩
theorem hyp_IntegerTwoSourceResults : dev.Begins 0 (fetched dev 0) := test_begins

/-- A device without DRAM has no byte in a FAILED channel. -/
theorem lost_of_no_dram {m : Mach} (h : m.dram = ⟨[], 0, []⟩) (a : Nat) : m.lost a = false := by
  have key : ∀ l, m.locate a = l → l ≠ .dram ∧ ∀ c, l ≠ .pinned c := by
    intro l hl
    unfold Mach.locate at hl
    rw [h] at hl
    simp only [List.length_nil, Nat.zero_mul, Nat.not_lt_zero, if_false, Tab.get] at hl
    split at hl
    · subst hl; simp
    · split at hl
      · split at hl <;> (subst hl; simp)
      · split at hl
        · split at hl
          · split at hl <;> (subst hl; simp)
          · split at hl
            · split at hl <;> (subst hl; simp)
            · split at hl <;> (subst hl; simp)
            · subst hl; simp
        · subst hl; simp
  obtain ⟨h1, h2⟩ := key _ rfl
  unfold Mach.lost
  split
  · contradiction
  · next c hc => exact absurd hc (h2 c)
  · rfl

/-- The device without DRAM: memory is cluster memory. -/
def noDram : Mach := { dev with dram := ⟨[], 0, []⟩ }
/-- A piece of cluster memory. -/
def cmPiece : Piece := ⟨ctlBase + ccStop 0 * 0x1000000 + 0x100000, 8, 0, 0x2000⟩

theorem hyp_LoadResults : (∃ p m2, LoadPasses (fetched dev 0) 0 (cap0 0x2000) 0x2000 8 p m2 ∧ p.n = 8) ∧
    ((fetched dev 0).g 0 4).poison = true ∧ (dev.core 0).mb = [] := by
  refine ⟨?_, by decide, rfl⟩
  obtain ⟨p, g, t, h, hq⟩ := one_some (e := (fetched dev 0).check 0 (cap0 0x2000) 0x2000 (loadReq 8))
    (q := fun p g t => t.isMem p.pa && (t.refuseFirst 0 g .read [p]).isNone && decide (p.n = 8)) (by decide)
  simp only [Bool.and_eq_true, Option.isNone_iff_eq_none, decide_eq_true_eq] at hq
  exact ⟨p, t, ⟨rfl, hq.1.1, g, h, hq.1.2⟩, hq.2⟩

theorem hyp_StoreResults : (∃ p m2, StorePasses (fetched dev 0) 0 (cap0 0x2000) 0x2000 8 p m2 ∧ p.n = 8) ∧
    noDram.isMem cmPiece.pa = true ∧ (∀ a, noDram.lost a = false) ∧ ∀ a, (noDram.storePiece 0 cmPiece 1 false).lost a = false := by
  refine ⟨?_, by decide, lost_of_no_dram rfl, lost_of_no_dram (by decide)⟩
  obtain ⟨p, g, t, h, hq⟩ := one_some (e := (fetched dev 0).check 0 (cap0 0x2000) 0x2000 (storeReq 8))
    (q := fun p g t => t.isMem p.pa && (t.refusal 0 g false p.pa).isNone && ! t.mirrorFull 0 [p] && decide (p.n = 8)) (by decide)
  simp only [Bool.and_eq_true, Option.isNone_iff_eq_none, decide_eq_true_eq, Bool.not_eq_true'] at hq
  exact ⟨p, t, ⟨rfl, hq.1.1.1, hq.1.2, g, h, hq.1.1.2⟩, hq.2⟩

theorem hyp_AtomicResults : ∃ p m2, AtomicPasses (fetched dev 0) 0 (cap0 0x2000) p m2 ∧ ((m2.atomicReady 0 p).word p.pa).poison = false ∧
    ((m2.atomicReady 0 p).word p.pa).data ≠ ((fetched dev 0).g 0 1).data ∧
    ((m2.atomicReady 0 p).word p.pa).data = ((fetched dev 0).g 0 0).data := by
  obtain ⟨p, g, t, h, hq⟩ := one_some (e := (fetched dev 0).check 0 (cap0 0x2000) (cap0 0x2000).cursor atomicReq)
    (q := fun p g t => (t.refuseFirst 0 g .atomic [p]).isNone && ! t.mirrorFull 0 [p] &&
      ! ((t.atomicReady 0 p).word p.pa).poison && decide (((t.atomicReady 0 p).word p.pa).data = 0)) (by decide)
  simp only [Bool.and_eq_true, Option.isNone_iff_eq_none, decide_eq_true_eq, Bool.not_eq_true'] at hq
  exact ⟨p, t, ⟨rfl, hq.1.1.2, g, h, hq.1.1.1⟩, hq.1.2, by rw [hq.2]; decide, by rw [hq.2]; decide⟩

theorem hyp_CapabilityLoadsAndStores :
    (∃ p g m2, (fetched dev 0).check 0 (cap0 0x2000) 0x2000 ldcReq = .ok ([p], g, m2) ∧ m2.isMem p.pa = true ∧ m2.sweepsRun = [] ∧
      m2.refuseFirst 0 g .capld [p] = none ∧ (m2.loadSides 0 [p]).sweepsRun = []) ∧
    (∃ p g m2, (fetched dev 0).check 0 (cap0 0x2000) 0x2000 (stcReq true) = .ok ([p], g, m2) ∧ m2.isMem p.pa = true ∧ m2.sweepsRun = [] ∧
      m2.mirrorFull 0 [p] = false ∧ ((fetched dev 0).g 0 3).tag = true) := by
  constructor
  · obtain ⟨p, g, t, h, hq⟩ := one_some (e := (fetched dev 0).check 0 (cap0 0x2000) 0x2000 ldcReq)
      (q := fun p g t => t.isMem p.pa && t.sweepsRun.isEmpty && (t.refuseFirst 0 g .capld [p]).isNone &&
        (t.loadSides 0 [p]).sweepsRun.isEmpty) (by decide)
    simp only [Bool.and_eq_true, Option.isNone_iff_eq_none, List.isEmpty_iff] at hq
    exact ⟨p, g, t, h, hq.1.1.1, hq.1.1.2, hq.1.2, hq.2⟩
  · obtain ⟨p, g, t, h, hq⟩ := one_some (e := (fetched dev 0).check 0 (cap0 0x2000) 0x2000 (stcReq true))
      (q := fun p _ t => t.isMem p.pa && t.sweepsRun.isEmpty && ! t.mirrorFull 0 [p]) (by decide)
    simp only [Bool.and_eq_true, List.isEmpty_iff, Bool.not_eq_true'] at hq
    exact ⟨p, g, t, h, hq.1.1, hq.1.2, hq.2, by decide⟩

/-- A C-core in place of the V-core. -/
def devCC : Mach := { dev with cores := [(144, core0)] }

theorem hyp_ControlTransfers : dev.Begins 0 (fetched dev 0) ∧ devCC.Begins 144 (fetched devCC 144) ∧
    passes ((fetched dev 0).branchTarget 0 0x1004) = true ∧
    passes ((fetched dev 0).live 0 (cap0 0x2000) .fetch 0x2004 0x2004) = true ∧
    ((fetched dev 0).g 0 4).poison = true ∧ ((fetched devCC 144).g 144 1).poison = false := by
  exact ⟨test_begins, begins_of (by decide), by decide, by decide, by decide, by decide⟩

theorem hyp_CapabilityCursor : ((fetched dev 0).g 0 3).tag = true ∧ ((fetched dev 0).g 0 3).poison = false ∧
    ((fetched dev 0).g 0 1).tag = false ∧ ((fetched dev 0).g 0 4).poison = true ∧
    ((fetched dev 0).entry 0 false 1).toOption.isSome = true := by decide

/-- Whether an access passes with a value of which `q` holds. -/
def okAnd {ε α : Type} (e : Except ε α) (q : α → Bool) : Bool :=
  match e with
  | .ok a => q a
  | .error _ => false

theorem okAnd_some {ε α : Type} {e : Except ε α} {q : α → Bool} (h : okAnd e q = true) : ∃ a, e = .ok a ∧ q a = true := by
  cases e with
  | ok a => exact ⟨a, rfl, h⟩
  | error _ => cases h

/-- The bytes of a 64-bit word at `a` that are not 0. -/
def cells (a v : Nat) : List Host.Cell :=
  ((List.range 8).map (fun i => (a + i, BitVec.ofNat 8 (v / 256 ^ i)))).filter (fun p => decide (p.2 ≠ 0))

/-- A sealed pair (2, 3), a valid entry 6, an exhausted entry 8, a gate descriptor, three mint requests, a link frame and an exception frame. -/
def grantMem : List Host.Cell :=
  cells 0x3000 (cap0 0x1000).data.toNat ++ cells 0x3008 0x20000 ++ cells 0x3010 7 ++
  cells 0x5000 0x3000 ++ cells 0x5008 0x4000 ++ cells 0x5010 (1 + 4 * 2 ^ 48) ++
  cells 0x5020 0x3000 ++ cells 0x5028 0x4000 ++ cells 0x5030 (1 + 6 * 2 ^ 48) ++
  cells 0x5040 0x3000 ++ cells 0x5048 0x4000 ++ cells 0x5050 (1 + 8 * 2 ^ 48) ++
  cells 0x6000 (cap0 0x1000).data.toNat ++ cells 0x6008 0x10000 ++ cells 0x6018 5 ++
  cells 0x7000 (cap0 0x1000).data.toNat ++
  cells 0x10040 0x3000 ++ cells 0x10048 0x4000 ++ cells 0x10050 (0xFFFF + 2 ^ 63) ++
  cells 0x10060 0x3000 ++ cells 0x10068 0x4000 ++ cells 0x10070 (0xFFFF + 0x55 * 2 ^ 16 + 2 ^ 63) ++
  cells 0x100C8 0x4000 ++ cells 0x100D0 (0xFFFF + 2 ^ 63) ++ cells 0x10110 (2 ^ 62)

/-- The core that works on grants: g1 names entry 2, g2 its sealed half, g3 any address, g6 to g8 the mint requests, g9 the seal. -/
def coreG : Core := { core0 with
  link := cap0 0x6000, savecap := cap0 0x7020
  g := [(1, .cap 0x3000 2 false 0), (2, .cap 0x3000 3 false 0), (3, cap0 0x2000), (6, cap0 0x5000), (7, cap0 0x5020), (8, cap0 0x5040),
    (9, cap0 0x55), (10, .cap 0 4 false 0)] }

/-- The device with grants in memory. -/
def devG : Mach := { dev with
  cores := [(0, coreG)], mem := grantMem, mmeta := [(0x600, ⟨true, false, 0⟩), (0xC00, ⟨true, false, 0⟩), (0xE00, ⟨true, false, 0⟩)] }

theorem test_grantMem : devG.MemCanon := by constructor <;> decide
theorem test_devG_begins : devG.Begins 0 (fetched devG 0) := begins_of (by decide)

theorem hyp_Seal : ∃ g pa m2 k pk m3, (fetched devG 0).liveOp 0 ((fetched devG 0).g 0 1) = .ok (g, pa, m2) ∧
    m2.liveOp 0 ((fetched devG 0).g 0 9) = .ok (k, pk, m3) ∧ k.otype = 0 ∧ k.base ≤ 0x55 ∧ 0x55 < k.limit ∧ g.otype = 0 ∧ k.has .SE = true ∧
    (m3.readGrant (pa + 32)).valid = true ∧ (m3.readGrant (pa + 32)).otype = 0x55 ∧ g.twin (m3.readGrant (pa + 32)) = true := by
  obtain ⟨⟨g, pa, m2⟩, h, hq⟩ := okAnd_some (e := (fetched devG 0).liveOp 0 ((fetched devG 0).g 0 1))
    (q := fun r => okAnd (r.2.2.liveOp 0 ((fetched devG 0).g 0 9)) (fun k => decide (k.1.otype = 0) && decide (k.1.base ≤ 0x55) &&
      decide (0x55 < k.1.limit) && decide (r.1.otype = 0) && k.1.has .SE && (k.2.2.readGrant (r.2.1 + 32)).valid &&
      decide ((k.2.2.readGrant (r.2.1 + 32)).otype = 0x55) && r.1.twin (k.2.2.readGrant (r.2.1 + 32)))) (by decide)
  obtain ⟨⟨k, pk, m3⟩, h', hq⟩ := okAnd_some hq
  simp only [Bool.and_eq_true, decide_eq_true_eq] at hq
  obtain ⟨⟨⟨⟨⟨⟨⟨a, b⟩, c⟩, d⟩, e⟩, f⟩, i⟩, j⟩ := hq
  exact ⟨g, pa, m2, k, pk, m3, h, h', a, b, c, d, e, f, i, j⟩

theorem hyp_Unseal : ∃ g pa m2 k pk m3, (fetched devG 0).liveOp 0 ((fetched devG 0).g 0 2) = .ok (g, pa, m2) ∧
    m2.liveOp 0 ((fetched devG 0).g 0 9) = .ok (k, pk, m3) ∧ k.otype = 0 ∧ g.otype = 0x55 ∧ k.has .US = true ∧
    (m3.readGrant (pa - 32)).valid = true ∧ (m3.readGrant (pa - 32)).otype = 0 ∧ g.twin (m3.readGrant (pa - 32)) = true := by
  obtain ⟨⟨g, pa, m2⟩, h, hq⟩ := okAnd_some (e := (fetched devG 0).liveOp 0 ((fetched devG 0).g 0 2))
    (q := fun r => okAnd (r.2.2.liveOp 0 ((fetched devG 0).g 0 9)) (fun k => decide (k.1.otype = 0) && decide (r.1.otype = 0x55) &&
      k.1.has .US && (k.2.2.readGrant (r.2.1 - 32)).valid && decide ((k.2.2.readGrant (r.2.1 - 32)).otype = 0) &&
      r.1.twin (k.2.2.readGrant (r.2.1 - 32)))) (by decide)
  obtain ⟨⟨k, pk, m3⟩, h', hq⟩ := okAnd_some hq
  simp only [Bool.and_eq_true, decide_eq_true_eq] at hq
  obtain ⟨⟨⟨⟨⟨a, b⟩, c⟩, d⟩, e⟩, f⟩ := hq
  exact ⟨g, pa, m2, k, pk, m3, h, h', a, b, c, d, e, f⟩

/-- The checks of GMINT up to its entry: the request in register `r` names an entry of which `q` holds. -/
def mintTo (r : Nat) (q : Grant → Bool) : Bool :=
  let m1 := fetched devG 0
  let x := m1.g 0 3
  let y := m1.g 0 r
  okAnd (m1.liveOp 0 x) (fun p => decide (p.1.otype = 0) && p.1.has .GM && okAnd (p.2.2.firstPiece 0 y y.cursor mintReadReq) (fun a =>
    let m4 := (a.2.loadSide 0 a.1).readUpsets (some 0) false a.1.pa 32
    let w := fun i => m4.coreWord 0 (a.1.pa + 8 * i)
    let k := MintReq.ofWords (w 0) (w 1) (w 2) (w 3)
    ! (w 0).poison && ! (w 1).poison && ! (w 2).poison && (k.bad p.1 x y).isNone && decide (k.otype = 0) &&
      okAnd (m4.entryPa 0 k.tsel k.index) (fun t => q (t.2.readGrant t.1))))

/-- The three cases of GMINT: a free entry, a valid one, an exhausted one. -/
theorem hyp_Mint : mintTo 6 (fun e => ! e.valid && ! e.exh) = true ∧ mintTo 7 (fun e => e.valid) = true ∧
    mintTo 8 (fun e => ! e.valid && e.exh) = true := by decide

/-- GREVOKE of a live target under RV, and of one that is not live. -/
theorem hyp_Revoke :
    okAnd ((fetched devG 0).entry 0 false 2) (fun t => t.1.valid && decide (t.1.gen = 0) &&
      okAnd (t.2.2.live 0 (cap0 0x2000) .noacc 0 0x2000) (fun r => decide (r.1.otype = 0) && r.1.has .RV && decide (r.1.base ≤ t.1.base) &&
        decide (t.1.limit ≤ r.1.limit))) = true ∧
    okAnd ((fetched devG 0).entry 0 false 4) (fun t => ! t.1.valid) = true := by decide

/-- A gate call whose descriptor is read and whose link frame passes. -/
theorem hyp_GateCall :
    okAnd ((fetched devG 0).live 0 ((fetched devG 0).g 0 2) .noacc 0 0x3000) (fun g => decide (g.1.otype ≠ 0) && g.1.has .GT &&
      decide (g.1.base = 0x3000) && decide (g.1.base + 32 ≤ g.1.limit) && okAnd (g.2.2.gateDesc 0 g.1 0x3000) (fun d =>
        let m4 := d.2.readUpsets (some 0) false d.1 32
        (GateDesc.ofWords (m4.descWords 0 d.1)).any (fun x => decide (x.world = .host)) &&
          passes (m4.firstPiece 0 (m4.core 0).link (m4.core 0).link.cursor linkStore))) = true := by decide

/-- The same core with no exception frame open and one link frame. -/
def devR : Mach := { devG with cores := [(0, { coreG with link := cap0 0x6040, savecap := .zero })] }

/-- A return from an exception, and one from a gate. -/
theorem hyp_GateReturn :
    ((fetched devG 0).frameOpen 0 && okAnd ((fetched devG 0).firstPiece 0 (cap0 0x7020) 0x7000 frameLoad) (fun p =>
      let m3 := (p.2.loadSide 0 p.1).readUpsets (some 0) false p.1.pa 32
      let w := fun i => m3.coreWord 0 (p.1.pa + 8 * i)
      ! (w 0).poison && ! (w 3).poison && (w 0).tag && decide ((w 0).cursor % 4 = 0))) = true ∧
    (! (fetched devR 0).frameOpen 0 && okAnd ((fetched devR 0).firstPiece 0 (cap0 0x6040) 0x6000 linkLoad) (fun p =>
      let m3 := (p.2.loadSide 0 p.1).readUpsets (some 0) false p.1.pa 64
      let w := fun i => m3.coreWord 0 (p.1.pa + 8 * i)
      (List.range 6).all (fun i => ! (w i).poison) && decide (fld (w 3).data 32 16 = 0) && (w 0).tag && decide ((w 0).cursor % 4 = 0) &&
        decide (World.ofCode (fld (w 3).data 16 2) = some .host))) = true := by decide

theorem hyp_SystemInstructionResults : dev.Begins 0 (fetched dev 0) ∧ ((fetched dev 0).g 0 1).poison = false ∧
    (((fetched dev 0).drainAll 0).core 0).mirrorLost = false ∧ (((fetched dev 0).drainAll 0).core 0).mirrorSent = 0 ∧
    (((fetched (devC { core0 with mirrorLost := true }) 0).drainAll 0).core 0).mirrorLost = true ∧
    devCC.Begins 144 (fetched devCC 144) :=
  ⟨test_begins, by decide, by decide, by decide, by decide, begins_of (by decide)⟩

/-- A core that can take an exception: SAVECAP and EVCAP pass. -/
def coreX : Core := { core0 with savecap := cap0 0x7000, evcap := cap0 0x1000, evmask := 0x8000000000010000, timecmp := 1 }

theorem hyp_ExceptionEntry :
    (let m := devC coreX
     let m0 := (m.serialise 0).countCore 0 0x00C 1
     let x := m0.core 0
     (! x.window && m0.savecapOk 0 x.savecap && one (m0.check 0 x.savecap x.savecap.cursor frameReq) (fun p g m1 =>
       (m1.refuseFirst 0 g .capst [p]).isNone &&
       (let m2 := m1.storeFrame 0 p.pt p.pa (entryFrame x false (.async .event 0) 0)
        let m3 := m2.setCore 0 { m2.core 0 with savecap := x.savecap.withCursor (x.savecap.cursor + 32) }
        m3.evcapOk 0 (m3.core 0).evcap))) = true) ∧
    ((((devC { coreX with window := true }).serialise 0).countCore 0 0x00C 1).core 0).window = true := by decide

theorem hyp_ExceptionSavecap :
    (let m0 := (dev.serialise 0).countCore 0 0x00C 1
     (m0.core 0).window = false ∧ m0.savecapOk 0 (m0.core 0).savecap = false) ∧ (dev.core 0).world ≠ .secure := by decide

/-- What is due: an event by the timer, an NMI, a refused store, and nothing in the entry window. -/
theorem hyp_AsynchronousExceptions :
    (let m := { devC coreX with dt := 5 }; m.canRun 0 = true ∧ m.due 0 = some .event) ∧
    (let m := devC { coreX with nmi := true }; m.canRun 0 = true ∧ m.due 0 = some .nmi ∧ (m.core 0).na = false) ∧
    (let m := devC { coreX with refused := some ⟨.capPerm, .ctlPerm, .write, 0, false, false⟩ }; m.canRun 0 = true ∧ m.due 0 = some .refused) ∧
    (let m := devC { coreX with window := true }; m.due 0 = none) ∧
    (let m := devC { core0 with pcc := .zero }; m.canRun 0 = true ∧ m.due 0 = none ∧ passes (m.fetch 0) = false) := by decide

/-- A clean event device: one event pending on core 0's line 0, and a soft event that any compartment may signal. -/
def devE : Mach := { dev with
  routes := [(3, 0x2000400), (5, 0x700000400), (300, 0x400)], evPend := [300] }

theorem hyp_Events :
    (bit (devE.route 3) 10 = true ∧ 3 ∉ devE.evPend ∧ 300 ∈ devE.evPend ∧ bit (devE.route 300) 10 = true ∧ bit (devE.route 4) 10 = false) ∧
    (bit (0 : W64) 24 = false ∧ fld (0 : W64) 16 8 < 144 ∧ fld (0 : W64) 0 10 ≠ 790) ∧
    (bit (0x11F0000 : W64) 24 = true ∧ fld (0x11F0000 : W64) 16 8 < 32) ∧
    ((devC coreX).core 0).timecmp ≠ 0 ∧ devE.Begins 0 (fetched devE 0) ∧
    (fetched devE 0).collectable 0 1 = some (300, 0) ∧ (fetched devE 0).collectable 0 0x10000 = none ∧
    bit ((fetched devE 0).route 3) 25 = true ∧
    (bit ((fetched devE 0).route 5) 25 = false ∧ fld ((fetched devE 0).route 5) 32 16 ≠ ((fetched devE 0).core 0).cmpid) := by
  refine ⟨by decide, by decide, by decide, by decide, begins_of (by decide), by decide, by decide, by decide, by decide⟩

theorem hyp_NmiInput : bit (dev.reg 0 0 0x658) 32 = false ∧
    bit ((dev.setReg 0 0 0x658 (1 <<< 32)).reg 0 0 0x658) 32 = true ∧ (dev.setReg 0 0 0x640 1).nmiTarget 0 = true ∧
    ((devSt .stopped).core 0).st = .stopped := by decide

theorem hyp_Vector : VecBegins ⟨[], dev⟩ 0 (fetched dev 0) ∧ ((fetched dev 0).core 0).vfmt = some Fp.f64 ∧
    (∃ m1, VecBegins ⟨[], devC { core0 with vtype := 0 }⟩ 0 m1 ∧ (m1.core 0).vfmt = none) ∧
    (∃ m1, (devC { core0 with vtype := vill }).Begins 0 m1 ∧ bit (m1.core 0).vtype 63 = true) :=
  ⟨⟨test_begins, by decide, by decide⟩, by decide, ⟨_, ⟨begins_of (by decide), by decide, by decide⟩, by decide⟩,
    ⟨_, begins_of (by decide), by decide⟩⟩

/-- A unit-stride access of two elements in one page. -/
theorem hyp_VectorMemoryResults : (fetched dev 0).vMaskPoison 0 false = false ∧
    (∀ st, okAnd ((fetched dev 0).vInstrCheck 0 (cap0 0x2000) false st) (fun r =>
      okAnd (r.2.vElems 0 r.1 st 8 (fun i => 0x2000 + i * 8) (fun _ => false) [0, 1]) (fun t =>
        (t.2.vRefuse 0 r.1 t.1).isNone && ! t.2.mirrorFull 0 (t.1.map VPiece.p))) = true) := by decide

/-- A core that maps a page at 2³⁰ to its own window. -/
def coreW : Core := { core0 with tlb :=
  [transl 0x10000 16 1, ⟨.host, 0, 0, true, 12, 0x40000000, 0, winPa (coreStop 0) (coreWin 0) 0, true, true, true, true, true, true, false, 2⟩,
   transl 0 47 0] }

theorem hyp_ControlAccess :
    one ((fetched (devC coreW) 0).check 0 (cap0 0x40000110) 0x40000110 ctlrReq)
      (fun p g t => (t.ctlRefusal 0 g false p.pa).isNone && decide (t.locate p.pa = .window (coreStop 0) (coreWin 0) 0x110)) = true ∧
    one ((fetched (devC coreW) 0).check 0 (cap0 0x40000110) 0x40000110 mntCtlReq)
      (fun p g t => ! t.notControl p.pa && ((t.serialPoint 0).ctlRefusal 0 g true p.pa).isNone) = true ∧
    one ((fetched dev 0).check 0 (cap0 0x2000) 0x2000 ctlrReq) (fun p _ t => t.isMem p.pa) = true := by decide

/-! ### Hypotheses of the statements about ledger and maintenance instructions -/

/-- The core that maps a page at 2³⁰ to the doorbell page of queue 0, whose record grant block is the second half of its grant table page:
g6 holds the taken record of pair 0, g7 one of pair 1, and g8 the length of an LPUT. -/
def coreL : Core := { core0 with
  tlb := [transl 0x10000 16 1,
    ⟨.host, 0, 0, true, 12, 0x40000000, 0, ctlBase + leStop 0 * 0x1000000 + 0x100000, true, true, true, true, true, true, false, 2⟩, transl 0 47 0]
  g := [(3, cap0 0x40000000), (5, cap0 0x8000), (6, .cap 5 33 false 0), (7, .cap 6 35 false 0), (8, .plain 64)] }

/-- A record. -/
def recd (seq : Nat) (st : RecState) (pair : Option Nat) (outs : List OutRec) : LRec :=
  ⟨seq, st, 0, [], 0, false, 0, 0, 0, 0, 0, 0, 0, none, 0, outs, pair, none, .none, .none, false⟩
/-- An output. -/
def out1 : OutRec := ⟨0, 64, 0, 0, false, false, 0, 0, 1, none⟩

/-- A working queue 0 with two taken records, the second with four outputs, and a delivered one. -/
def queueL : Queue := { Queue.reset with
  w2 := 0x10000, w3 := 0x30020, st := 1, next := 8
  recs := [recd 5 .taken (some 0) [], recd 6 .taken (some 1) [out1, out1, out1, out1], recd 7 .delivered none []] }

/-- The device with queue 0 in service. -/
def devQ (x : Queue) (c : Core) : Mach := { dev with
  cores := [(0, c)], queues := [(0, x)], vqfs := [(0, { Vqf.reset with ports0 := 1, q := 100, b := 100 })]
  mem := cells 0x8000 (cap0 0x9000).data.toNat ++ cells 0x8008 64 ++ cells 0x10420 5 ++ cells 0x10428 6 ++
    cells 0x10430 (0xFFFF + 0xFFF0 * 2 ^ 16 + 2 ^ 63) ++ cells 0x10460 6 ++ cells 0x10468 7 ++
    cells 0x10470 (0xFFFF + 0xFFF0 * 2 ^ 16 + 2 ^ 63)
  mmeta := [(0x1000, ⟨true, false, 0⟩)]
  ctl := ((dev.setReg (leStop 0) 1 0x100 1).setReg (portStop 0) (portWin 0) 0x40 (1536 * 256)).ctl }
def devL : Mach := devQ queueL coreL

/-- A record capability in register `r` whose record `q` accepts. -/
def recordIn (r : Nat) (q : Mach → RecCap → LRec → Bool) : Bool :=
  okAnd (((fetched devL 0).drainAll 0).recordCap 0 ((fetched devL 0).g 0 r)) (fun t =>
    match t.2.takenRec t.1 ((fetched devL 0).g 0 r) with
    | some y => q t.2 t.1 y
    | none => false)

/-- The same core whose record capability is stale, and the queue with nothing delivered. -/
def devLS : Mach := devQ { queueL with recs := [] } coreL

theorem hyp_LedgerInstructionResults :
    (devL.Begins 0 (fetched devL 0)) ∧
    okAnd (((fetched devL 0).drainAll 0).doorbell 0 ((fetched devL 0).g 0 3)) (fun t =>
      okAnd (t.2.translate 0 ⟨true, false, false⟩ true ((t.2.core 0).entryAddr (t.2.queue t.1).rgTsel (t.2.queue t.1).rgBase)) (fun u =>
        decide ((u.2.2.pairPa t.1 0).map Prod.fst = some u.1))) = true ∧
    okAnd ((fetched devL 0).recordCap 0 ((fetched devL 0).g 0 6)) (fun t => ! (t.2.queue t.1.q).mir &&
      (((t.2.drainAll 0).takenRec t.1 ((fetched devL 0).g 0 6)).isSome)) = true ∧
    recordIn 6 (fun _ _ _ => true) = true ∧
    okAnd (((fetched devLS 0).drainAll 0).recordCap 0 ((fetched devLS 0).g 0 6)) (fun t =>
      (t.2.takenRec t.1 ((fetched devLS 0).g 0 6)).isNone) = true := by
  exact ⟨begins_of (by decide), by decide, by decide, by decide, by decide⟩

/-- LTAKE at its engine: a delivered record and a free pair; nothing delivered; every pair in use. -/
theorem hyp_Ltake : (devL.queue 0).st = 1 ∧ (devL.vqf 0 (devL.queue 0).vqf).st ≠ 3 ∧ devL.primary 0 = true ∧ (devL.queue 0).held = false ∧
    (devL.engine 0).rebuilding = false ∧ (devL.queue 0).recs.find? (fun z => decide (z.st = .delivered)) = some (recd 7 .delivered none []) ∧
    devL.freePair 0 = some 2 ∧ devLS.primary 0 = true ∧ (devLS.queue 0).recs = [] ∧
    (∃ j < (devL.queue 0).rgPairs, ∀ z ∈ (devL.queue 0).recs, z.pair ≠ some j) ∧
    (∀ j < ({ queueL with w3 := 0x20020 } : Queue).rgPairs, ∃ z ∈ queueL.recs, z.pair = some j) := by decide

/-- LOUT below the limit of four outputs and at it. -/
def loutOf (r : Nat) (q : LRec → Bool) : Bool :=
  let x := (fetched devL 0).g 0 r
  recordIn r (fun m2 r _ => okAnd (m2.readOut 0 (m2.queue r.q).g3 ((fetched devL 0).g 0 5)) (fun o => okAnd (o.2.outData 0 x o.1) (fun p =>
    (match p.2.takenRec r x with | some z => q z | none => false) && ! p.2.outBad (p.2.queue r.q).g3 o.1 &&
      (p.2.vqf (r.q / 2048) (p.2.queue r.q).vqf).mayPort o.1.port)))

theorem hyp_Lout : loutOf 6 (fun z => decide (z.outs.length < 4)) = true ∧ loutOf 7 (fun z => decide (4 ≤ z.outs.length)) = true := by decide

/-- LPUT of 64 bytes from 0x8000, which its engine admits, refuses (here for a queue that is not in service), or has accepted. -/
def lputOf (m : Mach) (q : PutWait → Mach → Bool) : Bool :=
  let m1 := fetched m 0
  okAnd ((m1.drainAll 0).doorbell 0 (m1.g 0 3)) (fun t => okAnd (t.2.checkRange 0 (m1.g 0 5) 64 [.R]) (fun u =>
    u.1.all (fun p => u.2.isMem p.pa) &&
    (let m4 := u.1.foldl (fun acc p => acc.readUpsets none false p.pa p.n) u.2
     ! (m4.putSource 0 u.1).2 &&
     (let m5 := m4.tryPut 0 ⟨t.1, none, fld (m4.vqf (t.1 / 2048) (m4.queue t.1).vqf).cfg 12 4, none, (m4.putSource 0 u.1).1, 0⟩
      match (m5.core 0).put with
      | some w => q w m5
      | none => false))))

/-- The engine enabled; and a device whose LPUT is accepted at its engine. -/
def devP : Mach := devL.setBlk (leStop 0) 0 { devL.blk (leStop 0) 0 with enable := true }
def devA : Mach := (devP.setQueue 0 { queueL with recs := [recd 8 .accepted none []] }).setCore 0
  { coreL with put := some ⟨0, none, 0, some 8, [], 0⟩ }

theorem hyp_Lput : lputOf devP (fun w m5 => w.refused.isNone && decide (w.seq = some 8) &&
      decide (((m5.queue w.queue).rec? 8).map LRec.st = some .admitted)) = true ∧
    lputOf devL (fun w _ => decide (w.refused = some 1)) = true ∧
    lputOf (devP.setQueue 0 { queueL with st := 2 }) (fun w _ => decide (w.refused = some 0)) = true ∧
    ((devA.core 0).st = .running ∧ devA.phase = .run ∧ ((devA.queue 0).rec? 8).map LRec.st = some .accepted) := by decide


/-- The core that maps pages to the maintenance engine's window, with an MNTQ request block at 0x5800 and a bad one at 0x5840. -/
def coreM : Core := { core0 with
  tlb := [transl 0x10000 16 1, ⟨.host, 0, 0, true, 12, 0x40000000, 0, winPa mntStop 0 0, true, true, true, true, true, true, false, 2⟩, transl 0 47 0]
  g := [(3, cap0 0x40000048), (5, cap0 0x5800), (6, cap0 0x5840), (7, cap0 0x2000)] }

/-- The device with its maintenance engine enabled: a request to clean one line by a physical and one by a virtual range, and a bad one. -/
def devMt : Mach := { (dev.setBlk mntStop 0 { dev.blk mntStop 0 with enable := true }) with
  cores := [(0, coreM)], mem := cells 0x5808 0x2000 ++ cells 0x5810 0x2040 }
/-- The same with a virtual request. -/
def devMv : Mach := { devMt with mem := cells 0x5800 8 ++ cells 0x5808 0x2000 ++ cells 0x5810 0x2040 }
/-- The same with every slot running. -/
def devMf : Mach := { devMt with slots := (List.range 16).map (fun n => (n, { Slot.idle with state := 1 })) }

/-- An MNTQ that register `r` authorises, up to the choice of its slot. -/
def mntqOf (m : Mach) (r b : Nat) (bad : Bool) (q : Mach → Bool) : Bool :=
  let m1 := fetched m 0
  okAnd ((m1.drainAll 0).firstPiece 0 (m1.g 0 b) (m1.g 0 b).cursor mntReadReq) (fun t =>
    let m3 := (t.2.loadSide 0 t.1).readUpsets (some 0) false t.1.pa 64
    let w := fun i => m3.coreWord 0 (t.1.pa + 8 * i)
    let k := MntReq.ofWords w
    (List.range 8).all (fun i => ! (w i).poison) && decide (m3.mntBad k = bad) &&
      (bad || (decide (k.op ≠ 4) && okAnd (if k.virt then m3.mntVirt 0 (m1.g 0 r) k else m3.mntPhys 0 (m1.g 0 r)) (fun u =>
        ! u.2.mntUnavail && q u.2))))

theorem hyp_MaintenanceInstructionResults : devMt.Begins 0 (fetched devMt 0) ∧
    mntqOf devMt 3 5 false (fun m => m.freeSlot.isSome) = true ∧ mntqOf devMv 7 5 false (fun m => m.freeSlot.isSome) = true ∧
    mntqOf devMf 3 5 false (fun m => m.freeSlot.isNone) = true ∧ mntqOf devMt 3 6 true (fun _ => true) = true ∧
    fld ((fetched devMt 0).mntStatus 1) 0 16 = 0 ∧ fld ((fetched devMf 0).mntStatus 1) 0 16 ≠ 0 := by
  exact ⟨begins_of (by decide), by decide, by decide, by decide, by decide, by decide, by decide⟩

/-! ### Hypotheses of the statements about cores and block headers -/

/-- Each state in which a core's commands find it, from a sender that R149 admits, and a SECURE context from one that it does not. -/
theorem hyp_CoreCommands : CoreOpens dev host0 0 0x40 ∧ dev.barred host0 0 = false ∧ (dev.core 0).st = .running ∧
    (devSt .halted).barred host0 0 = false ∧ ((devSt .halted).core 0).st = .halted ∧ (devSt .fatal).barred host0 0 = false ∧
    ((devSt .off).core 0).st = .off ∧
    (dev.setBlk (podStop 0) 0 { BlkState.reset with enable := true }).blockRuns 0 = true ∧
    ((devC { core0 with st := .stopped, resumable := true }).core 0).resumable = true ∧
    (devC { core0 with st := .stopped, resumable := true }).barred host0 0 = false ∧
    ((devC { core0 with world := .secure }).core 0).world = .secure ∧ host0.sytum = false ∧
    (devC { core0 with world := .secure }).barred syt 0 = false := by
  refine ⟨?_, ?_⟩
  · unfold CoreOpens Mach.Opens; decide
  · decide

theorem hyp_CoreStop : ((devSt .stopping).core 0).st = .stopping ∧ (devSt .stopping).phase = .run ∧ ((devSt .stopping).core 0).rpWait = none ∧
    ((devSt .stopping).core 0).put = none ∧ (devSt .stopping).due 0 = none := by decide

theorem hyp_ContextRegisters : (∀ off ∈ [0x80, 0x88, 0x90, 0x98, 0xA0, 0xB0], CoreOpens (devSt .stopped) syt 0 off) ∧
    (Word.plain 0x2000).cursor % 4 = 0 ∧ fld (Word.plain 0xFFFE).data 0 16 ≠ 0xFFFF ∧ (dev.core 0).st = .running ∧ CoreOpens dev syt 0 0x80 := by
  refine ⟨?_, by decide, by decide, by decide, ?_⟩
  · unfold CoreOpens Mach.Opens; decide
  · unfold CoreOpens Mach.Opens; decide

/-- The same device with the block in window `k` of stop `st` in this state. -/
def devB (st k : Nat) (b : BlkState) : Mach := dev.setBlk st k b

theorem hyp_BlockHeaders : dev.Opens host0 (podStop 0) 5 0x18 ∧ dev.Opens host0 mntStop 0 0x08 ∧ dev.Opens host0 mntStop 0 0x20 ∧
    winBlk mntStop 0 = some (.mnt, 0) ∧ (dev.blk mntStop 0).disabling = false ∧ (dev.blk mntStop 0).enable = false ∧
    neverOff mntStop 0 = false ∧ (devMf.blk mntStop 0).enable = true ∧ devMf.work mntStop 0 = true ∧ devMt.work mntStop 0 = false ∧
    ((devB mntStop 0 { BlkState.reset with enable := true, disabling := true }).blk mntStop 0).disabling = true ∧
    (devB mntStop 0 { BlkState.reset with enable := true, disabling := true }).work mntStop 0 = false := by
  refine ⟨?_, ?_, ?_, by decide, ?_⟩
  · unfold Mach.Opens; decide
  · unfold Mach.Opens; decide
  · unfold Mach.Opens; decide
  · decide

/-- The unlock sequence, and a block without power. -/
theorem hyp_ExpertUnlock : (dev.blk (podStop 0) 5).lock = 0 ∧ ((devB (podStop 0) 5 { BlkState.reset with lock := 1 }).blk (podStop 0) 5).lock = 1 ∧
    (winBlk mntStop 0).isSome = true ∧ Mach.reset.answers mntStop 0 = false := by decide

/-- The largest values of a violation's fields, with VALID clear and set. -/
theorem hyp_ViolationRecord : 2 ^ 52 - 1 < 2 ^ 52 ∧ 63 < 64 ∧ bit (dev.blk 7 0).violAddr 63 = false ∧
    bit ((devB 7 0 { BlkState.reset with violAddr := 0x8000000000000000 }).blk 7 0).violAddr 63 = true := by decide

theorem hyp_BlockResets : dev.Opens syt (podStop 0) 0 0x50 ∧ dev.Opens syt (ccStop 0) 0 0x48 ∧ (dev.blk (podStop 0) 0).quiesce = false ∧
    ((devB (podStop 0) 0 { BlkState.reset with quiesce := true }).blk (podStop 0) 0).quiesce = true ∧
    ((devB (ccStop 0) 0 { BlkState.reset with quiesce := true }).blk (ccStop 0) 0).quiesce = true ∧
    CoreOpens dev syt 144 0x100 ∧ CoreOpens dev syt 144 0x110 ∧ CoreOpens dev syt 0 0x100 ∧ dev.Opens syt (podStop 0) 5 0x120 := by
  unfold CoreOpens Mach.Opens; decide

/-- Caches that are on, and a core that has yet to take part in a sweep. -/
theorem hyp_CacheCleans :
    bit ((dev.setReg (coreStop 144) (coreWin 144) 0x100 1).coreReg 144 0x100) 0 = true ∧
    bit ((dev.setReg (coreStop 0) (coreWin 0) 0x100 1).coreReg 0 0x100) 0 = true ∧
    bit ((dev.setReg (podStop 0) 5 0x120 1).l3Reg 0 0x120) 0 = true ∧
    ((devC { core0 with sweeps := [⟨false, 1, 0x10000, 0x10020⟩] }).core 0).sweeps ≠ [] := by decide


/-! ### Hypotheses of the statements about coherence and memory -/

/-- The device with this directory entry for line 0, this state of it in V-core 0, and these transactions. -/
def devH (e : DirEnt) (st : LineSt) (ts : List Txn) : Mach := { devC { core0 with lines := [(0, st)] } with dir := [(0, e)], txns := ts }
/-- A read by V-core 1 to own line 0, active at the home. -/
def txn1 : Txn := { Txn.new .rdx 0 (coreStop 1) (coreUnit 1) (some 1) 2 .host with active := true }
/-- An entry that V-core 0 owns, and one that it shares. -/
def owned : DirEnt := ⟨some 0, none, [], []⟩
def shared : DirEnt := ⟨none, none, [0], []⟩

theorem hyp_CoherenceRequests : (devH owned .M []).dirOf 0 ≠ .none ∧ dev.dirOf 0 = .none ∧
    ({ dev with mirWins := [(0, { MirWin.off with en := true, llimit := 0x1000 })] }).inMirror 0 = true ∧
    dev.homed (txn1.line * 64) = true ∧ dev.sltMove = none ∧ dev.carveOf (txn1.line * 64) = none ∧ dev.retried = [] ∧
    dev.trackerFree (dev.home txn1.line) txn1.tc = true ∧
    (dev.setReg (podStop (dev.home 0)) 5 0x100 0xFFFF).trackerFree ((dev.setReg (podStop (dev.home 0)) 5 0x100 0xFFFF).home txn1.line) txn1.tc = false := by
  decide

/-- An entry with an owner, one with sharers, and a request of each kind. -/
theorem hyp_SnoopsNeeded : owned.owner = some 0 ∧ txn1.agent ≠ some 0 ∧ shared.owner = none ∧ 0 ∈ shared.agents ∧ txn1.kind = .rdx ∧
    ({ txn1 with kind := .rds }).agent ≠ some 0 ∧ (Txn.new .atomf 0 56 0 none 2 .host).agent ≠ some 0 := by decide

/-- A snoop of each kind that waits for V-core 0, which holds the line. -/
theorem hyp_Snoops : ∀ k ∈ [Snp.K, .X, .I, .C], ((devH owned .M [{ txn1 with snoops := [(0, k)] }]).active 0).isSome = true ∧
    (devH owned .M [{ txn1 with snoops := [(0, k)] }]).lineSt 0 0 ≠ .I ∧ ({ txn1 with snoops := [(0, k)] }).snoops.contains (0, k) = true := by
  decide

theorem hyp_CoherenceMessages :
    (∀ r ∈ [Rsp.S, .I, .wbf], ((devH owned .I [{ txn1 with answers := [(0, r, false)] }]).active 0) = some { txn1 with answers := [(0, r, false)] }) ∧
    txn1.wbHere = [] ∧ txn1.of (coreStop 1) (coreUnit 1) 0 = true ∧
    (∀ x : Bool, ((devH owned .I [{ txn1 with dataSent := true, goSent := true, gotData := x, gotGo := false }]).active 0).isSome = true) ∧
    ((devH owned .I [{ txn1 with gotData := true, gotGo := true }]).active 0) = some { txn1 with gotData := true, gotGo := true } ∧
    (devH owned .M []).lineSt 0 0 = .M ∧ (devH owned .E []).lineSt 0 0 = .E ∧ (devH owned .E []).homed 0 = true ∧
    (devH owned .E []).active 0 = none ∧ (devH owned .E []).lineOpen 0 = false ∧
    (let r : Retried := ⟨0, txn1, true, false⟩
     ({ dev with retried := [r] }).retried = [r] ∧ ({ dev with retried := [r] }).trackerFree 0 r.req.tc = true) := by decide

/-- A core whose prefetcher is on, with a page of ordinary memory translated. -/
def devF : Mach := dev.setReg (coreStop 0) (coreWin 0) 0x100 1

theorem hyp_MeshCommands : dev.sltMove = none ∧ fld (35 : W64) 0 6 ∈ dev.slicesPresent ∧ ({ dev with sltMove := some (5, 35) }).sltMove = some (5, 35) ∧
    dev.txns = [] ∧ dev.heldReqs = [] ∧ 0x2000 / 4096 = 0x2FC0 / 4096 ∧ devF.canRun 0 = true ∧
    bit (devF.reg (coreStop 0) 0 0x800) (2 + 4 % 3) = false ∧ bit (devF.coreReg 0 0x100) 20 = false ∧ bit (devF.coreReg 0 0x100) 0 = true ∧
    ((devF.core 0).tlb.find? (fun e => e.hits (devF.core 0).regime ⟨true, false, false⟩ 0x2FC0)) = some (transl 0 47 0) ∧
    (transl 0 47 0).ptype = 0 ∧ devF.lineSt 0 (0x2FC0 / 64) = .I ∧ devF.carveOf (0x2FC0 / 64 * 64) = none := by decide

/-- A slot that cleans one line. -/
def slot1 : Slot := { Slot.idle with state := 1, ranges := [(0x2000, 0x2040)], addr := 0x2000, cap := some (0x10020, 0) }
/-- The device whose slot 15 is `x`, with a valid authority at 0x10020. -/
def devS (x : Slot) : Mach := { dev with slots := [(15, x)], mem := cells 0x10028 0x4000 ++ cells 0x10030 (0xFFFF + 2 ^ 63) }

theorem test_slotReady : SlotReady (devS slot1) 15 := by
  refine ⟨by decide, by decide, by decide, by decide, by decide, by decide, by decide, ?_⟩
  intro pa gen h
  have e : (devS slot1).slot 15 = slot1 := by decide
  rw [e] at h
  simp only [slot1, Option.some.injEq, Prod.mk.injEq] at h
  obtain ⟨rfl, rfl⟩ := h
  decide

theorem hyp_MaintenanceSlots : SlotReady (devS slot1) 15 ∧ (devS slot1).locate 0x2000 = .dram ∧ (devS slot1).lineOpen (0x2000 / 64) = false ∧
    (devS slot1).sltMove = none ∧ (devS slot1).carveOf 0x2000 = none ∧ slot1.need = 0 ∧ slot1.world ≠ .secure ∧
    (({ devS slot1 with slots := [(15, slot1)], mem := [] }).readGrant 0x10020).valid = false ∧
    ((devS { slot1 with ranges := [] }).slot 15).ueAt = none ∧ (devS { slot1 with ending := some 6 }).slot 15 = { slot1 with ending := some 6 } ∧
    dev.Opens syt mntStop 0 0x48 ∧ bit (0x8000 : W64) 15 = true := by
  refine ⟨test_slotReady, by decide, by decide, by decide, by decide, by decide, by decide, by decide, by decide, by decide, ?_, by decide⟩
  unfold Mach.Opens; decide

/-- The slot's line in a carve-out. -/
theorem hyp_SlotCarved : (((devS slot1).setReg 0 9 0x100 1).setReg 0 9 0x108 0x200000).carveOf 0x2000 = some 0 := by decide

/-- A word that names the swept entry, through each table, and one that names it in another table page. -/
theorem hyp_SweepClearsTags :
    (core0.sweepWord ⟨false, 1, 0x10000, 0x10020⟩ (cap0 0)).tag = false ∧ (core0.sweepWord ⟨false, 1, 0x20000, 0x20020⟩ (cap0 0)).tag = true ∧
    (core0.sweepWord ⟨true, 1, 0, 0x20020⟩ (.cap 0 1 true 0)).tag = false := by decide

/-- The device with channel 0 in this state, with this much memory. -/
def devD (st : Nat) : Mach := (dev.setReg (chanStop 0) (1 + 0 % 2) 0x40 (BitVec.ofNat 64 st)).setReg (chanStop 0) (1 + 0 % 2) 0x48 1

theorem hyp_MemoryChannels : (devD 2).locate (0x80 * 64) = .dram ∧ (devD 2).phase = .run ∧ (devD 2).mcRetried = [] ∧
    ((devD 2).channelOf (0x80 * 64)).1 = 0 ∧ (devD 2).chanState 0 = 2 ∧ (devD 4).chanState 0 = 4 ∧ (devD 1).chanState 0 = 1 ∧
    (devD 2).positionFree 0 2 = true ∧ ((devD 2).setReg (chanStop 0) 0 0x800 0xFFFF).positionFree 0 2 = false ∧ (devD 2).mcReqs = [] ∧
    dev.holdsCopy 0 = false ∧
    ((dev.setReg (leStop 0) 0 0x40 0x2000).setReg (leStop 0) 0 0x48 (BitVec.ofNat 64 pinBase)).holdsCopy 0 = true := by decide

theorem hyp_ChannelWindows : dev.Opens syt (chanStop 11) (dphyWin 11) 0x58 ∧ dev.Opens syt (mcStop 5) 0 0x40 ∧
    dev.Opens syt (chanStop 11) (dphyWin 11) (0x800 + 8 * 4) ∧ dev.Opens syt (mcStop 5) 0 0x840 := by
  unfold Mach.Opens; decide

/-- Windows whose expert page is open. -/
def devX (m : Mach) (st k : Nat) : Mach := m.setBlk st k { m.blk st k with lock := 2 }

theorem hyp_ProtectionCommands : (devX (devD 1) (chanStop 0) (dphyWin 0)).expert (chanStop 0) (dphyWin 0) = true ∧
    bit (0x40000 : W64) (14 + 4) = true ∧ fld (0x40000 : W64) 14 5 = 2 ^ 4 ∧ fld (0x40000 : W64) 0 7 = 0 ∧
    (devX (devD 2) (mcStop 0) 0).expert (mcStop 0) 0 = true ∧ (devD 2).chanState (2 * 0 + fld (1 : W64) 1 1) = 2 ∧
    bit ((devD 2).reg (mcStop 0) 0 0x840) 62 = false ∧ bit (dev.reg (mcStop 5) 0 0x340) 0 = false ∧ dev.upsets = [] ∧
    (devD 2).regionCount 0 = 512 ∧ ((devD 2).regionsOf 0).next < 512 ∧
    winBlk (mcStop 0) 0 = some (.mc, 0) ∧ bit ((devD 2).remap (mcStop 0) 0 ((devD 2).remapIndex (mcStop 0) 0)) 63 = false ∧
    fld (dev.reg (mcStop 0) 0 0x348) 39 1 = 0 := by decide

/-- A patrol of channel 0 at its first line, whose region is initialised. -/
def devPt : Mach := { (devD 2).setReg (mcStop 0) 0 0x340 1 with regions := [(0, ⟨1, 1, 0⟩)] }

theorem hyp_PatrolScrub : bit (devPt.reg (mcStop 0) 0 0x340) 0 = true ∧ devPt.chanState 0 = 2 ∧ 64 < devPt.capacity 0 ∧ devPt.upsets = [] ∧
    (devPt.regionsOf 0).map.testBit 0 = true ∧ devPt.patrolAt 0 = 0 := by decide

theorem hyp_ProtWindows : dev.Opens syt (mcStop 0) 0 0x338 ∧ dev.Opens syt (mcStop 0) 0 0x310 := by
  unfold Mach.Opens; decide


/-! ### Hypotheses of the statements about the collector and the ports -/

theorem hyp_CollectorCommands : dev.Opens syt 0 2 (0x80 + 8 * 7) ∧ dev.Opens syt 0 2 0x100 ∧ dev.Opens syt 0 2 0x1A0 ∧ dev.Opens syt 0 2 0x40 ∧
    bit (dev.reg 0 2 0x40) 1 = false ∧ dev.Opens syt 0 2 0x800 ∧ ((devX dev 0 2).blk 0 2).lock = 2 ∧ (dev.blk 0 2).lock ≠ 2 ∧
    (bit (0x1000000000 : W64) 36 = true) ∧ dev.phase ≠ .caldera := by
  unfold Mach.Opens; decide

/-- A source with no reaction, with the record free and taken, and one whose reaction is CALD. -/
def devK (react : Nat) : Mach := dev.setFc 3 { FcSrc.fresh 3 with react := react }
def rep3 : Report := ⟨3, some 0x1000, 5, 2, some 1⟩

theorem hyp_CollectorOccurrences : srcReal rep3.src = true ∧ dev.inShadow (srcStop rep3.src) = false ∧ ((devK 0).fc 3).react = 0 ∧
    ((devK 32).fc 3).react = 32 ∧ bit ((devK 0).reg 0 2 0x100) 63 = false ∧
    bit (((devK 0).setReg 0 2 0x100 0x8000000000000000).reg 0 2 0x100) 63 = true ∧ (devK 32).phase ≠ .caldera ∧ (devK 32).txns = [] ∧
    (devK 32).stale = [] ∧ ({ dev with phase := .caldera }).phase = .caldera := by decide

/-- The last port, enabled, with this status. -/
def devO (status : W64) : Mach :=
  ((dev.setBlk (portStop 127) (portWin 127) { BlkState.reset with enable := true }).setBlk (portStop 127) 0 { BlkState.reset with enable := true }).setReg
    (portStop 127) (portWin 127) 0x48 status

theorem hyp_PortLinkCommands : (devO 2).answers (portStop 127) (portWin 127) = true ∧ ((devO 2).blk (portStop 127) (portWin 127)).enable = true ∧
    fld ((devO 2).portReg 127 0x48) 0 4 = 2 ∧ (devO 3).linkUp 127 = true ∧ fld ((devO 16).portReg 127 0x48) 4 2 = 1 ∧
    (devO 2).linkUp 127 = false ∧ bit ((dev.setReg (portStop 127) (portWin 127) 0x40 0x80).portReg 127 0x40) 7 = true ∧
    bit (dev.portReg 127 0x40) 7 = false := by decide

/-- The widths where PX_PORT_CFG's clauses meet: a maximum frame of 63, 64, 9600 and 9601, and a mode that has no FEC. -/
theorem hyp_PortCfg : dev.Opens syt (portStop 127) (portWin 127) 0x40 ∧ dev.Opens syt (portStop 127) (portWin 127) 0x78 ∧
    fld (0x3F01 : W64) 8 14 = 63 ∧ fld (0x4001 : W64) 8 14 = 64 ∧ fld (0x258001 : W64) 8 14 = 9600 ∧ fld (0x258101 : W64) 8 14 = 9601 ∧
    bit (0x3F01 : W64) 0 = true ∧ fld (0x3F01 : W64) 1 2 = 0 ∧ fld (4 : W64) 1 2 = 2 ∧ fld (6 : W64) 1 2 = 3 := by
  unfold Mach.Opens; decide

/-- A complex with a table selected, at its last entry and beyond. -/
def devT (sel : W64) : Mach := dev.setReg (pxStop 3) 0x21 0x40 sel
def devTE (sel w0 w1 w2 : W64) : Mach :=
  ((((dev.setReg (pxStop 3) 0x22 0x40 sel).setReg (pxStop 3) 0x22 0x80 w0).setReg (pxStop 3) 0x22 0x88 w1).setReg (pxStop 3) 0x22 0x90 w2).setEg
    96 1 0 [0x40 <<< 32]

theorem hyp_PortTables : dev.Opens syt (pxStop 3) 0 (0x80 + 8 * 15) ∧ fld (0x0100 : W64) 0 5 ≠ fld (0x0100 : W64) 8 5 ∧
    (∀ i, i < 16 → bit (dev.reg (pxStop 3) 0 (0x80 + 8 * i)) 63 = false) ∧ dev.Opens syt (pxStop 3) 0x21 0x48 ∧
    fld ((devT 0xFFF0000).reg (pxStop 3) 0x21 0x40) 0 3 = 0 ∧ fld ((devT 0xFFF0000).reg (pxStop 3) 0x21 0x40) 16 12 < sfSize 0 ∧
    sfSize 2 ≤ fld ((devT 0x2000002).reg (pxStop 3) 0x21 0x40) 16 12 ∧ (devT 0xFFF0000).sfRefused 3 0 4095 (fun _ => 0) = false ∧
    (devT 2).sfRefused 3 2 0 (fun i => if i = 0 then 0x8000000000000000 else 0) = true ∧ dev.Opens syt (pxStop 3) 0x22 0x48 ∧
    dev.Opens syt (pxStop 3) 0 0x50 := by
  unfold Mach.Opens; decide

/-- The egress tables: a list entry, a table that takes no write, and a CHANGE whose time is to come and whose time is past. -/
theorem hyp_EgressTables : fld ((devTE 0x3FF0001 0 0 0).reg (pxStop 3) 0x22 0x40) 0 2 = 1 ∧ ((devTE 1 0 0 0).port 96).pendingChange = false ∧
    fld (0x40 : W64) 8 2 ≠ 3 ∧ fld ((devTE 2 0 0 0).reg (pxStop 3) 0x22 0x40) 0 2 = 2 ∧ fld ((devTE 0x80003 0 0 0).reg (pxStop 3) 0x22 0x40) 16 10 = 8 ∧
    (let m := devTE 0 0x80010000 1000 5000
     let w := fun i => m.reg (pxStop 3) 0x22 (0x80 + 8 * i)
     fld (m.reg (pxStop 3) 0x22 0x40) 0 2 = 0 ∧ bit (w 0) 31 = true ∧ fld (w 0) 16 11 = 1 ∧ (∀ i, i < 1 → 32 ≤ fld (m.eg 96 1 i 0) 32 32) ∧
     changeTime m.dt (w 2).toNat (fld (w 1) 0 32) = some 5000) ∧ changeTime 10000 5000 1000 = some 12000 := by decide

/-- A port with lists, and a complex with a gate and a recovery function. -/
def devGl : Mach := (dev.setPort 96 { PortRt.idle with
  pendingChange := true, changeAt := 100, adm := [0x40 <<< 32], everOper := true, oper := [0x4000000001], operCycle := 1000, txts := [(5, 77)] }).setSf 3 2 511
    [0x8000000000000001, 1000, 0, 0] |>.setSf 3 5 1023 [0x8000000000010101, 0, 0, 0]

theorem hyp_PortTimers : (devGl.port 96).pendingChange = true ∧ (devGl.port 96).everOper = true ∧ 0 < (devGl.port 96).operCycle ∧
    bit (devGl.sf 3 2 511 0) 63 = true ∧ 0 < fld (devGl.sf 3 2 511 1) 0 32 ∧ fld (devGl.sf 3 5 1023 0) 16 16 ≠ 0 ∧
    (devGl.port 96).txts = [(5, 77)] ∧ (dev.port 127).txts = [] ∧ (dev.blk (pxStop 3) 0).quiesce = false ∧
    ((dev.setBlk (pxStop 3) 0 { BlkState.reset with quiesce := true }).blk (pxStop 3) 0).quiesce = true := by decide

/-- A 60-byte frame of zeros, and a device whose last port is up, steers to queue 0, and knows a stream by the all-zero address. -/
def rx0 : RxFrame := ⟨List.replicate 60 0, false, 1000000⟩
def devV (w : W64) : Mach := ((devO 3).setReg (portStop 127) (portWin 127) 0x40 (1536 * 256)).setReg (portStop 127) (portWin 127) 0x50 0x1000
  |>.setSf 3 1 4095 [w, 0, 0, 0] 
def devVS (w : W64) : Mach := (devV w).setSf 3 0 0 [0x8020000000000000, 0x0FFF0000, 0, 0]

theorem hyp_FrameReceive : (devV 0).linkUp 127 = true ∧ rx0.bad = false ∧ rx0.bytes.length + 4 = 64 ∧ (devV 0).maxFrm 127 = 1536 ∧
    be16 rx0.bytes 12 ≠ 0x8808 ∧ (devV 0).phase = .run ∧ (devV 0).portShut 127 = false ∧ bit ((devV 0).portReg 127 0x78) 0 = false ∧
    (devV 0).streamOf 127 rx0.bytes = none ∧ (devV 0).bufferSpace 3 60 false = some false ∧ bit ((devV 0).portReg 127 0x50) 12 = true ∧
    (devV 0).engineHere 0 = true ∧
    (devVS 0x8000000000000000).streamOf 127 rx0.bytes = some 4095 ∧
    (devVS 0x80000000003C0000).bufferSpace 3 60 true = some true ∧ (devVS 0x80000000003C0000).queueTc 0 = 0 ∧ fld ((devVS 0x80000000003C0000).sf 3 1 4095 0) 16 14 = 60 ∧
    fld ((devVS 0x80000000003B0000).sf 3 1 4095 0) 16 14 = 59 ∧ bit ((devVS 0x80000000003B0000).sf 3 1 4095 0) 63 = true := by decide

/-- One frame in the last egress queue of the last port. -/
def eg0 : EgFrame := ⟨0, 5, 0, 0x2000, 64, 0, none, false, 0, false⟩
def devEg : Mach := (devO 3).setPort 127 { PortRt.idle with eqs := [(7, [eg0])] }

theorem hyp_FrameTransmit : devEg.linkUp 127 = true ∧ (devO 2).linkUp 127 = false ∧ bit (devEg.portReg 127 0x78) 1 = false ∧
    (devEg.port 127).cut = none ∧ (devEg.port 127).paused = 0 ∧ (devEg.port 127).frames 7 = [eg0] ∧
    (∀ i, i < 7 → (devEg.port 127).frames i = []) ∧ bit (devEg.eg 127 0 0 0) 0 = false ∧ (∀ i, i < 8 → bit (devEg.eg 127 3 i 0) 0 = false) ∧
    fld (devEg.eg 127 3 7 0) 16 14 = 0 ∧ devEg.upsets = [] ∧ devEg.mmeta = [] := by decide

/-- The numbers where the recovery's clauses meet: the next number, the last in the history, the first beyond it. -/
theorem test_recoverSeq : recoverSeq true 32 (some ⟨65535, 1⟩) 0 = (true, ⟨0, 3⟩) ∧
    (recoverSeq true 32 (some ⟨0, 1⟩) 31) = (true, ⟨31, 2 ^ 31 + 1⟩) ∧ (recoverSeq true 32 (some ⟨0, 1⟩) 32).1 = false ∧
    (recoverSeq true 32 (some ⟨0, 1⟩) 0).1 = false := by decide


/-! ### Hypotheses of the statements about the ledger engines and the pair -/

/-- A frame that complex 3 holds for queue 0. -/
def hand0 : Handover := ⟨127, 0, [1, 2, 3], none, 5, 77, false⟩
/-- The device whose queue 0 is `x`, its engine enabled. -/
def devN (x : Queue) : Mach := (devQ x coreL).setBlk (leStop 0) 0 { dev.blk (leStop 0) 0 with enable := true }

theorem hyp_RecordAdmit : ({ devN queueL with handovers := [(3, hand0)] }).firstHeld 3 = some hand0 ∧ (devN queueL).raiseHolds 0 = false ∧
    ({ devN queueL with handovers := [(3, hand0)] }).refuseCause 0 3 = none ∧
    ({ devL with handovers := [(3, hand0)] }).refuseCause 0 3 = some 1 := by decide

/-- A queue in DRAM with one record in this state. -/
def queue1 (r : LRec) : Queue := { queueL with w1 := 0x20000, recs := [r] }
def rec5 (st : RecState) : LRec := recd 5 st none []

theorem hyp_LedgerRecords : ((devN (queue1 (rec5 .admitted))).queue 0).rec? 5 = some (rec5 .admitted) ∧
    (rec5 .admitted).partner ≠ .awaited ∧ (devN queueL).pair.raising = false ∧
    (devN (queue1 (rec5 .accepted))).delivers 0 = true ∧ (devN { queueL with st := 0 }).delivers 0 = false ∧
    (queue1 (rec5 .accepted)).nextDeliver = some (rec5 .accepted) ∧ bit ((devN queueL).vqf 0 0).cfg 11 = false ∧
    (devN queueL).carveOf 0x20000 = none ∧ queueL.j = false ∧ bit queueL.w0 36 = false ∧
    (queue1 (rec5 .retired)).nextRelease = some (rec5 .retired) ∧ (rec5 .retired).marker = .none ∧
    (queue1 { rec5 .retired with marker := .awaited }).nextRelease = some { rec5 .retired with marker := .awaited } ∧
    (queue1 { rec5 .retired with outs := [out1] }).nextRelease = some { rec5 .retired with outs := [out1] } ∧
    (devN (queue1 (rec5 .retired))).mirrorsNow 0 = false ∧
    ((devN (queue1 { rec5 .released with outs := [out1] })).queue 0).rec? 5 = some { rec5 .released with outs := [out1] } ∧ 0 < out1.left ∧
    (devL.queue 0).recs.find? (fun r => decide (r.pair = some 0)) = some (recd 5 .taken (some 0) []) ∧
    (∀ r ∈ (devL.queue 0).recs, r.pair ≠ some 63) := by decide

/-- The descriptor that a write makes: in place, out of place, and with EN clear. -/
def devW (st : Nat) (w0 w1 : W64) : Mach :=
  ((((devN { queueL with st := st, recs := [] }).setReg (leStop 0) 0 0x140 w0).setReg (leStop 0) 0 0x148 w1).setReg (leStop 0) 0 0x150
    0x10000).setReg (leStop 0) 0 0x158 0x40020
/-- The descriptor of a write to queue 0 that holds nothing. -/
def writes (m : Mach) : Queue :=
  { m.queue 0 with
    w0 := m.reg (leStop 0) 0 0x140 &&& 0x1000001FFFFF1FFF, w1 := m.reg (leStop 0) 0 0x148 &&& 0x000FFFFFFFFFFFFF
    w2 := m.reg (leStop 0) 0 0x150 &&& 0x000FFFFFFFFFF000, w3 := m.reg (leStop 0) 0 0x158 &&& 0xFFFFFFFF017F07FF
    next := fld (m.reg (leStop 0) 0 0x160) 0 48 }

theorem hyp_QueueDescriptors : dev.Opens syt (leStop 0) 0 0x108 ∧ dev.Opens syt (leStop 1) 0 0x80 ∧
    (devW 0 0x400 0x20000).placementOk 0 (writes (devW 0 0x1000000000000400 0x20000)) = true ∧
    (devW 0 0x400 0x20000).placementOk 0 (writes (devW 0 0x1000000000000400 0x20040)) = false ∧
    bit (0x1000000000000400 : W64) 60 = true ∧ bit (0x400 : W64) 60 = false ∧
    (({ devW 0 0x1000000000000400 0x20000 with vqfs := [(0, { Vqf.reset with st := 1 })] }).vqf 0 0).st = 1 ∧
    ((devW 0 0x1000000000000400 0x20000).vqf 0 0).st ≠ 1 ∧ (devL.queue 0).st = 1 ∧
    ((dev.setBlk (leStop 1) 0 { BlkState.reset with quiesce := true }).blk (leStop 1) 0).quiesce = true ∧
    (({ dev with engines := [(1, { Engine.reset with rebuilding := true })] }).engine 1).rebuilding = true := by
  unfold Mach.Opens; decide

/-- The device with queue function 5 of engine 1 selected, in this state, and queue 2049 belonging to it. -/
def devU (v : Vqf) (x : Queue) : Mach := { dev.setReg (leStop 1) 3 0x40 5 with vqfs := [(1029, v)], queues := [(2049, x)] }
def queueU (r : List LRec) : Queue := { Queue.reset with w0 := 0x1000000000050008, st := 1, recs := r }

theorem hyp_VqfCommands : dev.Opens syt (leStop 1) 3 0x68 ∧ (devU { Vqf.reset with busy := true } .reset).vqfSel 1 = 5 ∧
    ((devU { Vqf.reset with busy := true } .reset).vqf 1 5).busy = true ∧ ({ Vqf.reset with share := 1 } : Vqf).weight ≠ 0 ∧
    ((devU { Vqf.reset with st := 4, saved := true } (queueU [])).vqf 1 5).st = 4 ∧
    (devU { Vqf.reset with st := 4, saved := true } (queueU [])).queuesOf 1 5 = [(2049, queueU [])] ∧ (queueU []).mir = true ∧
    (devU { Vqf.reset with st := 4, saved := true } (queueU [])).pairState = 0 ∧
    ({ Vqf.reset with hcause := true }).hcause = true := by
  unfold Mach.Opens; decide

/-- FREEZE with records that it waits for and without. -/
theorem hyp_VqfFreeze : ∀ st ∈ [1, 2], (∀ r ∈ [recd 5 .released none []], r.st ≠ .taken) ∧
    (∃ p ∈ (devU { Vqf.reset with st := st } (queueU [recd 5 .released none []])).queuesOf 1 5, ∃ r ∈ p.2.recs, r.st = .released) ∧
    (∀ p ∈ (devU { Vqf.reset with st := st } (queueU [recd 5 .accepted none []])).queuesOf 1 5, ∀ r ∈ p.2.recs,
      r.st ≠ .released ∧ r.st ≠ .admitted) := by decide

/-- SAVE and RESTORE with their state block in memory. -/
def devZ (st : Nat) (blk : List Host.Cell) : Mach :=
  { devU { Vqf.reset with st := st, blk := 0x30000, recArea := 0x40000, avail := 1 } (queueU []) with mem := blk }

theorem hyp_VqfSave : (devZ 4 []).plainDram 0x30000 4096 = true ∧ (devZ 4 []).plainDram 0x40000 1024 = true ∧
    fld ((devZ 4 []).vqf 1 5).blk 12 40 * 4096 = 0x30000 ∧ (devZ 4 []).areaWords [2049] = [] := by decide

theorem hyp_VqfRestore : (let b := (devZ 0 (cells 0x30000 1)).words 0x30000 512
      let w := fun (i : Nat) => ((b[i]?).getD Word.zero).data
      fld (w 0) 0 16 = 1 ∧ b.any (fun y => y.poison) = false ∧ fld (w 0) 32 6 = 0 ∧ fld (w 1) 0 32 = 0) ∧
    (devZ 0 []).isMem 0x30000 = true ∧ ((devZ 0 []).engine 1).pbufs.length ≤ (devZ 0 []).pSize 1 ∧ (devZ 0 []).hotUsed 1 ≤ 8192 ∧
    fld (((devZ 0 []).words 0x30000 512)[0]?.getD Word.zero).data 0 16 ≠ 1 := by decide

theorem hyp_VqfRounds : (∀ p ∈ dev.cores, p.2.put = none) ∧ ((devU { Vqf.reset with st := 2 } (queueU [])).vqf 1 5).st = 2 ∧
    (∀ p ∈ (devU { Vqf.reset with st := 2 } (queueU [])).queuesOf 1 5, p.2.stopDone = true) := by decide

/-- The device with these links up, in this state of the pair, the pair-sense channel up. -/
def devPr (st : Nat) (up : List Nat) (w : W64) : Mach :=
  (up.foldl (fun acc l => (acc.setReg (leStop l) 1 0x40 1).setReg (leStop l) 1 0x48 2) dev).setReg (leStop 0) 1 0x90
    (BitVec.ofNat 64 st ||| 0x8000 ||| w)

theorem hyp_EpnisFrames : (devPr 2 [0, 1] 0).epnUp 1 = true ∧ (devPr 2 [0, 1] 0).phase = .run ∧ ((devPr 2 [0, 1] 0).pair.link 1).rxNext = 0 := by
  decide
theorem hyp_EpnisLinks : (devPr 0 [0] 0).regFld (leStop 0) 1 0x48 0 2 = 2 ∧ (devPr 0 [0] 0).pairState = 0 ∧
    (devPr 0 [0] 0).regFld (leStop 1) 1 0x48 0 2 ≠ 2 ∧ (devPr 2 [0, 1] 0).epnUp 0 = true ∧ (devPr 2 [0, 1] 0).pairState = 2 ∧
    ((devPr 3 [0] 0).setReg (leStop 1) 1 0x40 1).answers (leStop 1) 1 = true ∧
    ((devPr 3 [0] 0).setReg (leStop 1) 1 0x40 1).regFld (leStop 1) 1 0x40 0 1 = 1 ∧
    ((devPr 3 [0] 0).setReg (leStop 1) 1 0x40 1).epnUp 1 = false ∧ (devPr 3 [0] 0).pair.relinks = [] ∧ (devPr 3 [0] 0).pairState = 3 ∧
    bit ((devPr 0 [0] 0).pairReg 0x80) 0 = false := by decide

theorem hyp_Heartbeats : (devPr 2 [0] 0).answers (leStop 1) 2 = true ∧ (devPr 2 [0] 0).psup = true ∧ (devPr 2 [0] 0).pair.leaving = false ∧
    (∀ l, l < 2 → (devPr 0 [0] 0).regFld (leStop l) 2 0x40 8 8 < 19) ∧ (devPr 2 [0] 0x20).mirroring = true ∧
    (devPr 2 [0] 0x20).pairId = true ∧ (devPr 2 [0] 0x20).fenceIn = false ∧
    (let m : Mach := { devPr 2 [0] 0x20 with pair := { PairRt.reset with epMiss := 9, psMiss := 9 } }
     m.pair.leftAt = none ∧ m.pair.seen = [false, false, false, false] ∧ 9 ≤ m.pair.epMiss ∧ 9 ≤ m.pair.psMiss ∧ m.phase = .run) ∧
    ({ devPr 2 [0] 0 with pair := { PairRt.reset with fenceAt := some 5 } }).pair.fenceAt = some 5 := by decide

theorem hyp_PairStates : dev.Opens syt (leStop 1) 1 0x88 ∧ (devPr 0 [0] 0).canJoin = true ∧ (devPr 5 [1] 0).canJoin = true ∧
    dev.canJoin = false ∧ (devPr 3 [0] 0).mirroring = true ∧ dev.mirroring = false ∧
    bit ((devPr 2 [0] 0x10).pairReg 0x90) 3 = false ∧ bit ((devPr 2 [0] 0x10).pairReg 0x90) 4 = true ∧
    bit (((devPr 2 [0] 0x10).setReg (leStop 0) 1 0x80 2).pairReg 0x80) 1 = true ∧ (devPr 1 [0] 0).pairState = 1 ∧
    (devPr 1 [0] 0).pair.shaken = false ∧ (devPr 1 [0] 0x20).pairId = true ∧ (devPr 1 [0, 1] 0).linksUp = 2 ∧ (devPr 1 [0] 0).linksUp = 1 ∧
    (devPr 4 [0] 0).pairState = 4 ∧ fld ((devPr 4 [0] 0).pairReg 0x90) 8 2 ≠ 3 := by
  unfold Mach.Opens; decide

/-- The device as standby of queue 0, with a journal of 16 entries in channels 0 and 2. -/
def devY : Mach := { (((devPr 2 [0] 0).setReg (leStop 0) 0 0x40 0x2400).setReg (leStop 0) 0 0x48 (BitVec.ofNat 64 pinBase)).setReg (leStop 0) 0 0x50
    (BitVec.ofNat 64 (pinBase + 2 * 2 ^ 40)) with
  queues := [(0, { Queue.reset with w0 := 0x100000000000000C, st := 1, mirrored := true, copies := [recd 4 .accepted none []], expected := 5 })]
  dram := ⟨[0], 2 ^ 30, [(0, 0x200000), (2, 0x200000)]⟩, regions := [(0, ⟨1, 1, 0⟩), (2, ⟨1, 1, 0⟩)] }
theorem hyp_MirrorTraffic : (devPr 0 [0] 0).standsBy 0 = false ∧ devY.standsBy 0 = true ∧ devY.linkSeq 0 5 = 5 ∧ devY.linkSeq 0 6 ≠ 5 ∧
    (devY.queue 0).expected = 5 ∧ (devY.engine 0).journal.length < devY.jSize 0 ∧ (devY.queue 0).copies = [recd 4 .accepted none []] ∧
    ((devPr 2 [0] 0)).mirroring = true ∧
    (({ devPr 2 [0] 0 with queues := [(0, queue1 { rec5 .admitted with partner := .awaited })] }).queue 0).rec? 5 =
      some { rec5 .admitted with partner := .awaited } := by decide

/-- Mirror-window entries: none held, one held, a write that a rule refuses, and roles. -/
theorem hyp_MirrorWindows : dev.Opens syt (leStop 1) 1 0x208 ∧ dev.Opens syt (leStop 1) 1 (0x100 + 8 * 31) ∧ dev.mirWins = [] ∧
    dev.mwWhy 0 true (winOf 0x1001 0x1000 0) = 5 ∧ dev.mwWhy 0 true (winOf 0x1001 0x2000 0) = 0 ∧ (winOf 0x1001 0x2000 0).en = true ∧
    (winOf 0x1001 0x2000 0).out = true ∧ (winOf 0x1000 0x2000 0).en = false ∧ (devPr 2 [0] 0).pairState ≠ 0 ∧ (devPr 2 [0] 0).pairState ≠ 5 := by
  unfold Mach.Opens; decide


/-! ### Hypotheses of the statements about the system -/

/-- A guest as sender. -/
def guest0 : Master := ⟨podStop 0, 0, .guest, 1, false⟩

theorem hyp_TranslationCommands : CoreOpens dev host0 0 0x1B8 ∧ CoreOpens dev guest0 0 0x1B8 ∧ guest0.world = .guest ∧
    World.ofCode (fld (0x8 : W64) 3 2) = some .guest ∧ CoreOpens dev host0 0 0x198 ∧
    ((devC { core0 with world := .guest }).core 0).world = .guest ∧ bit ((devC { core0 with world := .guest }).coreReg 0 0x190) 0 = false := by
  unfold CoreOpens Mach.Opens; decide

/-- The secure world in this state, with a watchdog of 3 ms and a hold time of 2 ms, holding domain 48, which has a deferred request. -/
def devSec (st : Nat) : Mach := { ((dev.setReg 0 0 0x700 (BitVec.ofNat 64 st)).setReg 0 0 0x710 0x30002).setReg 0 0 0x718 0x1000000000000 with
  power := { PowRt.idle with deferred := [⟨7, 2, 48, 0⟩] } }

theorem hyp_SecureWorld : (devSec 2).regFld 0 0 0x710 16 10 = 3 ∧ (devSec 2).regFld 0 0 0x700 0 3 = 2 ∧ (devSec 1).regFld 0 0 0x700 0 3 = 1 ∧
    dev.Opens sec0 0 0 0x708 ∧ sec0.world = .secure ∧ dev.Opens host0 0 0 0x708 ∧ ({ dev with secTrig := some 2 }).secTrig.isSome = true ∧
    dev.secTrig = none ∧ dev.Opens sec0 0 0 0x718 ∧ (devSec 2).secHeld 48 = true ∧ dev.secHeld 48 = false ∧
    (∃ q ∈ (devSec 2).power.deferred, q.dom = 48) ∧ (devSec 0).regFld 0 0 0x700 0 3 = 0 ∧ (devSec 4).regFld 0 0 0x700 0 3 = 4 ∧
    ({ (default : SecIn) with sigOk := true }).sigOk = true ∧ (default : SecIn).sigOk = false ∧
    inRanges ((dev.setReg 0 9 0x100 1).setReg 0 9 0x108 0x200000).carveOuts 0x1FFFFF = true := by
  unfold Mach.Opens; decide

/-- Domain 48 with this request in front, and a full queue. -/
def devPm (q : PmReq) : Mach := { dev with power := { PowRt.idle with queue := [q] } }
def devPf : Mach := { dev with power := { PowRt.idle with queue := List.replicate 16 ⟨1, 1, 0, 0⟩ } }

theorem hyp_PowerRequests : dev.Opens host0 0 1 0x50 ∧ dev.badPm 1 49 0 = true ∧ dev.badPm 1 48 0 = false ∧ dev.badPm 3 35 3400 = false ∧
    dev.badPm 3 36 3400 = true ∧ dev.secHeld 48 = false ∧ (devSec 2).badPm 2 48 0 = false ∧ (devSec 2).secHeld 48 = true ∧
    16 ≤ devPf.power.queue.length ∧ (devPm ⟨1, 3, 0, 1500⟩).pmNext 0 = some ⟨1, 3, 0, 1500⟩ ∧ dev.pmNext 48 = none ∧
    (devPm ⟨1, 2, 48, 0⟩).domState 48 = 1 ∧ Mach.reset.domState 48 ≠ 1 ∧ (dev.blk (domStop 48) 0).quiesce = false ∧
    ((dev.setBlk (domStop 48) 0 { BlkState.reset with quiesce := true }).blk (domStop 48) 0).quiesce = true ∧
    (dev.setReg 0 1 (0x100 + 8 * 48) 4).domState 48 = 4 := by
  unfold Mach.Opens; decide

/-- A cap with room below it, and the average above, between and below the bounds of the limit. -/
def devCap : Mach := { (dev.setReg 0 1 0x40 400).setReg 0 1 0x48 (3000 <<< 16) with power := { PowRt.idle with below := 9 } }

theorem hyp_PowerLimits : dev.domState 35 = 1 ∧ 1000 ≤ devCap.regFld 0 1 0x48 16 12 ∧ devCap.phase = .run ∧ devCap.powerLimit * 1000 = 400000 ∧
    400000 * 98 < 392001 * 100 ∧ 400000 * 95 ≤ 380000 * 100 ∧ 392000 * 100 ≤ 400000 * 98 ∧ 379999 * 100 < 400000 * 95 ∧ 9 ≤ devCap.power.below ∧
    dev.Opens syt 0 1 0x40 ∧ dev.limitOk 380 = true ∧ dev.limitOk 560 = true ∧ dev.limitOk 379 = false ∧ dev.limitOk 561 = false ∧
    bit (dev.reg 0 8 0x48) 19 = false ∧ bit ((dev.setReg 0 8 0x48 0x80000).reg 0 8 0x48) 19 = true := by
  unfold Mach.Opens; decide

/-- Device time from its PPS input. -/
def devDt : Mach := (dev.setReg 0 4 0x40 2).setReg 0 4 0x48 0x1

theorem hyp_DeviceTime : (∀ p ∈ dev.cores, p.2.put = none) ∧ dev.Opens syt 0 4 0x60 ∧ dev.Opens syt 0 4 0x68 ∧ dev.Opens syt 0 4 0x58 ∧
    dev.dtSrc = 0 ∧ devDt.dtSrc = 2 ∧ (BitVec.ofNat 32 (fld (0x20C49C : W64) 0 32)).toInt = 2147484 ∧
    (BitVec.ofNat 32 (fld (0xFFDF3B64 : W64) 0 32)).toInt = -2147484 ∧
    (({ devDt with ppsLast := some 5 }).ppsLast = some 5 ∧ 5 + 1001000000 < 1001000006) ∧ devDt.ppsLast = none ∧
    (secErr ((1000000500 * 16 - fld (devDt.reg 0 4 0x78) 0 16) / 16)).natAbs ≤ 1000000 ∧ bit (devDt.reg 0 4 0x48) 1 = false ∧
    bit ((devDt.setReg 0 4 0x48 2).reg 0 4 0x48) 1 = true ∧ dev.ppsOut = none ∧ ({ dev with ppsOut := some 9 }).ppsOut = some 9 := by
  unfold Mach.Opens; decide

/-- The host I/O group 1, which takes requests, with a context for requester 3, whose list names grant 1; stage 1 is a table of 2 MiB leaves. -/
def devHio : Mach := { (dev.setBlk (hioStop 1) 0 { BlkState.reset with enable := true }).setReg (hioStop 1) 0x11 0x40 1 with
  hios := [(1, { HioRt.idle with lists := [(3, [cap0 0])] })], mem := cells 0xC0 0x8000000000000000 }
def dmaR : DmaReq := ⟨15, 3, false, 0x2000, 64, [], false⟩

theorem hyp_DeviceRequests : devHio.hioTakes 1 = true ∧ dmaR.port < 16 ∧ dmaR.len ≠ 0 ∧ (devHio.hio 1).halted.contains 3 = false ∧
    (({ devHio with hios := [(1, { HioRt.idle with halted := [3] })] }).hio 1).halted.contains 3 = true ∧ devHio.isMsi 1 dmaR = false ∧
    devHio.ctxOk 1 3 = true ∧ devHio.ctxOk 1 4 = false ∧
    (devHio.setReg (hioStop 1) 16 0x68 0x8000000000000001).isMsi 1 ⟨15, 3, true, 0, 4, [31], false⟩ = true ∧
    fld ((devHio.setReg (hioStop 1) 16 0x68 0x8000000000000001).rpReg 31 0x68) 58 6 = 32 := by decide

theorem hyp_DmatCommands : dev.Opens syt (hioStop 1) 0x11 0x48 ∧ dev.Opens syt (hioStop 1) 0x11 0x68 ∧ dev.Opens syt (hioStop 1) 0 0x48 ∧
    (∃ p ∈ (({ dev with hios := [(1, { HioRt.idle with recs := [(0, ⟨3, true, false, 0⟩)] })] }).hio 1).recs, p.2.rid = 3 ∧ p.2.cause = true) ∧
    (∀ p ∈ (({ dev with hios := [(1, { HioRt.idle with recs := [(0, ⟨3, false, false, 0⟩)] })] }).hio 1).recs, p.2.rid = 3 → p.2.cause = false) ∧
    (dev.blk (hioStop 1) 0).quiesce = false := by
  unfold Mach.Opens; decide

/-- The layout that gives root port 31 a lane. -/
def devLy : Mach := dev.setReg (hioStop 1) 0 0x40 (1 <<< 45)
/-- Root port 31 with its link up, secondary bus 4 and subordinate bus 6, asked for this bus; a core waits for a read of its range. -/
def devRp (bus : Nat) : Mach :=
  (((devLy.setReg (rpStop 31) (rpWin 31) 0x48 1).setReg (rpStop 31) (rpWin 31) 0x40 0x60400000000).setReg (rpStop 31) (rpWin 31) 0x58
    (BitVec.ofNat 64 (bus * 2 ^ 20))).setReg (rpStop 31) (rpWin 31) 0x50 1
def wait0 : RpWait := ⟨some 1, false, rpBase + 31 * 0x20000000000, 0x2000, 8, false⟩
def devRw : Mach := { devRp 4 with cores := [(0, { core0 with rpWait := some wait0 })], cfgReqs := [⟨31, 0, 0, false, false, 0, 0, 5⟩] }

theorem hyp_RootPorts : devLy.answers (rpStop 31) (rpWin 31) = true ∧ bit (devLy.rpReg 31 0x48) 0 = false ∧ bit ((devRp 4).rpReg 31 0x48) 0 = true ∧
    (devRp 4).cfgReqs = [] ∧ devLy.Opens syt (rpStop 31) (rpWin 31) 0x60 ∧ devLy.Opens syt (rpStop 31) (rpWin 31) 0x40 ∧
    fld ((devRp 6).rpReg 31 0x58) 20 8 = 6 ∧ fld ((devRp 6).rpReg 31 0x40) 32 8 = 4 ∧ fld ((devRp 6).rpReg 31 0x40) 40 8 = 6 ∧
    fld ((devRp 7).rpReg 31 0x58) 20 8 = 7 ∧ (devRw.core 0).rpWait = some wait0 ∧ devRw.rpOf 0 = some 31 ∧ wait0.cfg = false ∧
    (dev.core 0).rpWait = none ∧ (devRw.cfgReqs.find? (fun q => decide (q.rp = 31))).isSome = true ∧ devRw.dt < 5 + 1000000000 ∧
    5 + 1000000000 ≤ ({ devRw with dt := 1000000005 }).dt := by
  unfold Mach.Opens; decide

/-- Flash of 1 MiB at this address, a buffer at 0x10000, and suspension supported. -/
def devFl (a : W64) : Mach := ((dev.setReg 0 5 0x40 0x10001).setReg 0 5 0x50 a).setReg 0 5 0x58 0x10000

theorem hyp_FlashCommands : dev.Opens syt 0 5 0x48 ∧ (devFl 0xF0000).xspiWhy 1 0x10000 = 0 ∧ (devFl 0xF0000).xspiWhy 1 0x10001 = 2 ∧
    (devFl 0xF0000).xspiWhy 2 0x10000 = 0 ∧ (devFl 0x100000).xspiWhy 2 1 = 2 ∧ (devFl 0xFF000).xspiWhy 3 0 = 0 ∧ (devFl 0xFF800).xspiWhy 3 0 = 2 ∧
    (devFl 0xF0000).xspiWhy 4 0 = 0 ∧ (devFl 0xF1000).xspiWhy 4 0 = 2 := by
  unfold Mach.Opens; decide

/-- The mailbox asked for command `code` with these request bytes, every command allowed. -/
def devMb (code : Nat) (bs : List (BitVec 8)) : Mach := { dev.setReg 0 6 0x40 0xF with
  mbx := { Mbx.reset with busy := true, cmd := code, seqin := 9, req := bs.zipIdx.map (fun p => (0x10 + p.2, p.1)) } }

theorem hyp_MailboxCommands : (∀ p ∈ [(0x01, []), (0x02, []), (0x03, []), (0x04, [0]), (0x10, []), (0x11, [0x7C, 1]), (0x12, [0x7A, 0x5E]),
      (0x12, [0, 0]), (0x13, [0x1D, 0xCA]), (0x13, [0, 0])], MailboxAsked (devMb p.1 p.2) p.1 p.2.length) ∧
    (devMb 0x11 [0x7C, 1]).mbxReq 2 = 380 ∧ (devMb 0x12 [0x7A, 0x5E]).mbxReq 2 = 0x5E7A ∧ (devMb 0x13 [0x1D, 0xCA]).mbxReq 2 = 0xCA1D ∧
    (devMb 0x10 []).warm = false ∧ dev.mbx.busy = false ∧ dev.phase ≠ .reset ∧ ((devMb 0x10 []).setReg 0 6 0x40 0).mbxAllowed 0x10 = false ∧
    (devMb 0x11 [0]).mbx.req.lookup 0x11 = none ∧ ({ dev with mbx := { Mbx.reset with off := 1 } }).mbx.off = 1 := by
  unfold MailboxAsked; decide

/-- READ_REG of the Sytum's first register. -/
theorem hyp_ReadReg : MailboxAsked (devMb 0x05 [0, 0, 0, 0, 0, 0xE0, 0x0F, 0]) 0x05 8 ∧
    (let m := devMb 0x05 [0, 0, 0, 0, 0, 0xE0, 0x0F, 0]
     m.mbxReq 8 % 8 = 0 ∧ m.locate (m.mbxReq 8) = .window 0 0 0 ∧ m.answers 0 0 = true ∧ winBlk 0 0 = some (.syt, 0)) := by
  unfold MailboxAsked; decide

/-- A debug session over core 0, with the test access port at DBGACC. -/
def devDb (st : CoreState) : Mach := { (devC { core0 with st := st, resumable := true }).setBlk (podStop 0) 0 { BlkState.reset with enable := true } with
  dbg := some ⟨0x10020, [0]⟩, jtag := 0x10 }

theorem hyp_TestAndDebugAccess : dev.mbx.dyn = none ∧ ({ dev with mbx := { Mbx.reset with dyn := some 0x7F } }).mbx.dyn.isSome = true ∧
    dev.i3cStatic ≠ 0 ∧ dev.Opens (dev.coreMaster 0) 0 7 0x40 ∧
    okAnd (dev.live 0 (cap0 0) .ctlwr 0 0) (fun t => decide (t.1.otype = 0) && t.1.has .DBG) = true ∧ Word.zero.tag = false ∧ dev.dbg = none ∧
    (devDb .stopped).dbg = some ⟨0x10020, [0]⟩ ∧ (devDb .stopped).jtag = 0x10 ∧ (DbgSess.mk 0x10020 [0]).scope.contains 0 = true ∧
    ((devDb .stopped).core 0).world ≠ .secure ∧ (devDb .stopped).answers (coreStop 0) (coreWin 0) = true ∧ (devDb .stopped).blockRuns 0 = true ∧
    ((devDb .running).core 0).st = .running ∧ ((devDb .stopped).core 0).resumable = true := by
  unfold Mach.Opens; decide

/-- A device request without DBG permission. -/
theorem hyp_DebugRefused : okAnd ((devC { core0 with gcache := [grantLine 0x10020 0] }).live 0 (cap0 0) .ctlwr 0 0)
    (fun t => decide (t.1.otype = 0) && ! t.1.has .DBG) = true := by decide

/-- A Fumarole window of the shortest period. -/
def devFu : Mach := dev.setReg (pxStop 3) 0x23 0x380 0x80000000000003E8

theorem hyp_CountersAndWindows : counterBank (coreStop 175) (coreWin 175) = some (0x400, 0x408) ∧
    dev.Opens syt (coreStop 175) (coreWin 175) 0x408 ∧ dev.Opens syt (pxStop 3) 0x23 0x380 ∧ dev.Opens syt (pxStop 3) 0x23 0x390 ∧
    fld (999 : W64) 0 32 < 1000 ∧ fld (1000000000 : W64) 0 32 ≤ 1000000000 ∧ bit (devFu.fumCfg 3) 63 = true ∧ fld (devFu.fumCfg 3) 0 32 = 1000 ∧
    devFu.answers (pxStop 3) 0x23 = true ∧ devFu.fumSkip.contains 3 = false := by
  unfold Mach.Opens; decide

/-- Start-up input whose fuse word `w` is uncorrectable. -/
def bootU (w flash : Nat) : BootIn := ⟨[], [], [w], false, flash, 0, false, (0, 0), default, default, 0, [], default, 0⟩

theorem hyp_StartUpAndResets : Mach.reset.phase = .reset ∧ Mach.reset.warm = false ∧ Mach.reset.regsOff = false ∧
    ({ Mach.reset with warm := true }).warm = true ∧ dev.phase ≠ .reset ∧ (∃ w ∈ (bootU 228 0).fuseUe, w < 229) ∧
    (∀ w ∈ (bootU 229 2).fuseUe, 229 ≤ w) ∧ (bootU 229 3).flash = 3 ∧ dev.warm = false ∧ dev.Opens syt 0 0 0x48 ∧ 0x15E7A % 65536 = 0x5E7A := by
  unfold Mach.Opens; decide


/-! ### Worked examples of the spec -/

/-- The address of an L3 slice's register and of a doorbell page (the example under R17). -/
theorem test_window_address : winPa (podStop 17) 5 0x28 = 0xFE0001C005028 ∧ podStop 17 = 28 ∧
    dev.locate (0xFE00031000000 + 0x100000 + 952 * 0x1000) = .bell 3000 0 ∧ queueStop 3000 = 49 := by decide

/-- A capability's payload and the address of its entry (the example under R43). -/
theorem test_capability_payload : (Word.cap 0x7F001240 677 false 3).data = 0x32A500007F001240 ∧ (Word.cap 0x7F001240 677 false 3).tag = true ∧
    ({ Core.reset with gtab := 0x40000000 } : Core).entryAddr false 677 = 0x400054A0 := by decide

/-- The last step of the constant of the example under R79. -/
theorem test_oris : (match step ⟨[.oris 0 9 9 0x0DEF], devC { core0 with g := [(9, .plain 0x48D159E26AF)] }⟩ with
    | .next t => (t.m.g 0 9).data
    | _ => 0) = 0x0123456789ABCDEF := by decide

/-- The home of a line (the example under R246). -/
theorem test_home_slice : foldH 0x1234567880 = 371 ∧ Mach.reset.homeSlice 0x1234567880 = 11 ∧ podStop 11 = 21 := by decide

/-- Twelve channels of 448 GiB, as in the example under R291. -/
def dev12 : Mach := { dev with dram := ⟨List.range 12, 448 * 2 ^ 30, []⟩ }
theorem test_channel_mapping : dev12.channelOf 0x1234567880 = (6, 0x1845C8A80) ∧ chanStop 6 = 31 ∧ dphyWin 6 = 1 ∧
    dev12.bankOf 6 0x1845C8A80 = 16 ∧ 0x1845C8A80 / 64 % 2 = 0 ∧ winPa 31 1 0 = 0xFE0001F001000 := by decide

/-- Fault sources of a C-core, a V-core and a pod (the example under R330). -/
theorem test_fault_sources : (faultRange (coreStop 161)).1 + ctxFatalSrc 161 = 413 ∧ (faultRange (coreStop 57)).1 + ctxFatalSrc 57 = 168 ∧
    (faultRange (podStop 14)).1 = 161 ∧ coreStop 57 = 25 ∧ coreWin 57 = 2 := by decide

/-- The change time of the example under R368. -/
theorem test_change_time : changeTime 1003600123 1000000000 250000 = some 1003750000 := by decide

/-- The header words of the record of the example under R411, and the payload of its capability. -/
theorem test_record_header :
    (let r : LRec := { recd 1000005 .accepted none [] with data := List.replicate 140 0, port := 70, pri := 6, handle := 0x123, vqf := 12 }
     (({ dev with queues := [(3000, { Queue.reset with w0 := 0x10 })] }.slotWords 3000 r false).take 2).map Word.data = [0x0BB80000000F4245, 0x000C1236468C008C]) ∧
    (Word.cap 1000005 1031 false 9).data = 0x94070000000F4245 ∧ (statusOf 0 1 1000005).data = 0x0000000F42450100 := by decide

/-- The quotas of the example under R456, in the first round and after WEIGHT 1 for the third. -/
theorem test_quotas :
    (([0x00C80200, 0x100, 0x100] : List W64).map (fun w => (({ Vqf.reset with share := w } : Vqf).quotas true 1024 0).q) = [200, 150, 150]) ∧
    (([0x00C80200, 0x100, 0x001] : List W64).map (fun w => (({ Vqf.reset with share := w } : Vqf).quotas true 769 0).q) = [200, 199, 0]) := by decide

/-- The root ports of the layout of the example under R474, and the range of the first. -/
theorem test_layout : ((List.range 16).filter (fun i => ! (dev.setReg (hioStop 1) 0 0x40 0x242003000004).layoutOff (rpStop (16 + i)) (rpWin (16 + i)))) =
    [0, 8, 12, 14, 15] ∧ rpBase + 16 * 0x20000000000 = 0xC200000000000 ∧ winPa (rpStop 24) (rpWin 24) 0 = 0xFE00036009000 := by decide

end Sys2Proof.Tests
end

/-!
SUPPORT. Reading rules for the fields of a payload and for the lanes of the short vectors (R93): what a field replacement leaves in each
bit and in each lane, and what a payload built from its lanes reads as.
-/

namespace Sys2Proof.Machine

/-! ### Fields and lanes of a payload -/

/-- Bit `k` of a payload in which `n` bits at `lo` are replaced. -/
theorem getLsbD_setFld (v : W64) (lo n x k : Nat) (hk : k < 64) :
    (setFld v lo n x).getLsbD k = if lo ≤ k ∧ k < lo + n then x.testBit (k - lo) else v.getLsbD k := by
  simp only [setFld, BitVec.getLsbD_or, BitVec.getLsbD_and, BitVec.getLsbD_not, BitVec.getLsbD_ofNat, Nat.testBit_shiftLeft,
    Nat.testBit_two_pow_sub_one, Nat.testBit_mod_two_pow, hk, decide_true, Bool.true_and]
  by_cases hlo : lo ≤ k
  · by_cases hn : k - lo < n
    · simp [hlo, hn, show k < lo + n by omega]
    · simp [hn, show ¬ k < lo + n by omega]
  · simp [hlo]

/-- Bit `k` of a lane. -/
theorem testBit_laneAt (n i k : Nat) (x : W64) :
    (laneAt n i x).testBit k = (decide (k < n) && x.getLsbD (n * i + k)) := by
  rw [laneAt, fld, Nat.testBit_mod_two_pow, Nat.testBit_shiftRight, BitVec.testBit_toNat]

/-- A lane is narrower than its width. -/
theorem laneAt_lt (n i : Nat) (x : W64) : laneAt n i x < 2 ^ n := Nat.mod_lt _ (by positivity)

/-- Lane `i` of a payload in which lane `j` is replaced. -/
theorem laneAt_setFld (v : W64) (n i j x : Nat) (h : n * i + n ≤ 64) :
    laneAt n i (setFld v (n * j) n x) = if i = j then x % 2 ^ n else laneAt n i v := by
  apply Nat.eq_of_testBit_eq
  intro k
  rw [testBit_laneAt]
  by_cases hk : k < n
  · rw [getLsbD_setFld _ _ _ _ _ (by omega)]
    by_cases hij : i = j
    · subst hij
      simp [hk, Nat.testBit_mod_two_pow]
    · have outside : ¬ (n * j ≤ n * i + k ∧ n * i + k < n * j + n) := by
        rcases Nat.lt_or_gt_of_ne hij with hlt | hlt
        · have := Nat.mul_le_mul_left n (show i + 1 ≤ j from hlt)
          rw [Nat.mul_add] at this
          omega
        · have := Nat.mul_le_mul_left n (show j + 1 ≤ i from hlt)
          rw [Nat.mul_add] at this
          omega
      simp [hij, outside, testBit_laneAt]
  · split <;> simp [hk, testBit_laneAt, Nat.testBit_mod_two_pow]

/-- One more lane goes above the lanes that stand. -/
theorem ofLanes_concat (n : Nat) (l : List Nat) (a : Nat) :
    ofLanes n (l ++ [a]) = setFld (ofLanes n l) (n * l.length) n a := by
  simp [ofLanes, List.zipIdx_append]

/-- A lane of a payload that is built from its lanes: the entry of the list, cut to the width, and 0 above the list. -/
theorem laneAt_ofLanes (n i : Nat) (l : List Nat) (h : n * i + n ≤ 64) :
    laneAt n i (ofLanes n l) = l[i]?.getD 0 % 2 ^ n := by
  induction l using List.reverseRecOn with
  | nil => simp [ofLanes, laneAt, fld]
  | append_singleton l a ih =>
    rw [ofLanes_concat, laneAt_setFld _ _ _ _ _ h]
    by_cases hi : i = l.length
    · simp [hi]
    · rw [if_neg hi, ih, List.getElem?_append]
      by_cases hlt : i < l.length
      · simp [hlt]
      · simp [hlt, show ¬ i - l.length = 0 by omega]

/-- Lane `i` of a payload whose every lane is given by a function of its number. -/
theorem laneAt_ofLanes_range (n i : Nat) (f : Nat → Nat) (hi : i < 64 / n) :
    laneAt n i (ofLanes n ((List.range (64 / n)).map f)) = f i % 2 ^ n := by
  have fits : n * i + n ≤ 64 :=
    calc n * i + n = n * (i + 1) := by ring
      _ ≤ n * (64 / n) := Nat.mul_le_mul_left n hi
      _ ≤ 64 := Nat.mul_div_le 64 n
  simp [laneAt_ofLanes _ _ _ fits, hi]

/-- The low bits of an integer are its remainder. -/
theorem lowBits_cast (n : Nat) (v : Int) : (lowBits n v : Int) = v % 2 ^ n :=
  Int.toNat_of_nonneg (Int.emod_nonneg _ (by positivity))

/-- The low bits of an integer fit their width. -/
theorem lowBits_mod (n : Nat) (v : Int) : lowBits n v % 2 ^ n = lowBits n v := by
  have h := Int.emod_lt_of_pos v (show (0 : Int) < 2 ^ n by positivity)
  rw [← lowBits_cast] at h
  exact Nat.mod_eq_of_lt (by exact_mod_cast h)

/-- A shift amount is srcB[5:0] (R77). -/
theorem sh6_eq (y : W64) : sh6 y = y.toNat % 64 := rfl

/-! ### The operations per lane -/

/-- Each lane of an unsigned lane operation. -/
theorem laneAt_laneU (f : Nat → Nat → Nat → Nat) (n i : Nat) (x y : W64) (hi : i < 64 / n) :
    laneAt n i (laneU f n x y) = f n (laneAt n i x) (laneAt n i y) % 2 ^ n :=
  laneAt_ofLanes_range n i _ hi

/-- Each lane of a signed lane operation. -/
theorem laneAt_laneS (f : Nat → Int → Int → Int) (n i : Nat) (x y : W64) (hi : i < 64 / n) :
    (laneAt n i (laneS f n x y) : Int) = f n (laneAtS n i x) (laneAtS n i y) % 2 ^ n := by
  rw [laneS, laneAt_ofLanes_range n i _ hi, lowBits_mod, lowBits_cast]

/-- Each lane of a left shift. -/
theorem laneAt_pkShl (n i : Nat) (x y : W64) (hi : i < 64 / n) :
    laneAt n i (pkShl n x y) = if n ≤ sh6 y then 0 else laneAt n i x * 2 ^ sh6 y % 2 ^ n := by
  rw [pkShl, laneAt_ofLanes_range n i _ hi]
  split <;> simp

/-- Each lane of a logical right shift. -/
theorem laneAt_pkShr (n i : Nat) (x y : W64) (hi : i < 64 / n) : laneAt n i (pkShr n x y) = laneAt n i x / 2 ^ sh6 y := by
  rw [pkShr, laneAt_ofLanes_range n i _ hi]
  exact Nat.mod_eq_of_lt ((Nat.div_le_self _ _).trans_lt (laneAt_lt n i x))

/-- Each lane of an arithmetic right shift. -/
theorem laneAt_pkSra (n i : Nat) (x y : W64) (hi : i < 64 / n) :
    laneAt n i (pkSra n x y) = lowBits n (laneAtS n i x / 2 ^ sh6 y) := by
  rw [pkSra, laneAt_ofLanes_range n i _ hi, lowBits_mod]

end Sys2Proof.Machine

/-!
SUPPORT. The results of the integer instructions of two register sources (R77, R78): an instruction of this form that begins retires with
one result word, and every instruction of the table has the form with the payload that its rule gives.
-/

namespace Sys2Proof.Machine

/-! ### Operand forms that begin -/

/-- Two register sources: the instruction retires with the operation's payload and the OR of both POISON bits (R34). -/
theorem alu2_begins {m m1 : Mach} {c : Nat} (h : m.Begins c m1) (d a b : BitVec 6) (f : W64 → W64 → W64) :
    alu2 c d a b f m = m1.finish c [] (.ok (m1.setG c d.toNat
      ⟨f (m1.g c a.toNat).data (m1.g c b.toNat).data, false, (m1.g c a.toNat).poison || (m1.g c b.toNat).poison, 0⟩)) :=
  instr_begins h _ _

/-- One register source: the instruction retires with the operation's payload and the POISON of the source (R34). -/
theorem alu1_begins {m m1 : Mach} {c : Nat} (h : m.Begins c m1) (d a : BitVec 6) (f : W64 → W64) :
    alu1 c d a f m = m1.finish c [] (.ok (m1.setG c d.toNat
      ⟨f (m1.g c a.toNat).data, false, (m1.g c a.toNat).poison, 0⟩)) :=
  instr_begins h _ _

/-- Three sources, the old destination among them: POISON is the OR of all three (R94). -/
theorem alu3_begins {m m1 : Mach} {c : Nat} (h : m.Begins c m1) (d a b : BitVec 6) (f : W64 → W64 → W64 → W64) :
    alu3 c d a b f m = m1.finish c [] (.ok (m1.setG c d.toNat
      ⟨f (m1.g c d.toNat).data (m1.g c a.toNat).data (m1.g c b.toNat).data, false,
        (m1.g c a.toNat).poison || (m1.g c b.toNat).poison || (m1.g c d.toNat).poison, 0⟩)) :=
  instr_begins h _ _

/-- The instruction `i` is the operation `f` on two register sources. -/
def IsAlu2 (i : Nat → BitVec 6 → BitVec 6 → BitVec 6 → Instr) (f : W64 → W64 → W64) : Prop :=
  ∀ c d a b s, exec (i c d a b) s = s.upd (alu2 c d a b f)

/-- The same instruction under another form of its operation. -/
theorem IsAlu2.congr {i : Nat → BitVec 6 → BitVec 6 → BitVec 6 → Instr} {f g : W64 → W64 → W64} (h : IsAlu2 i f)
    (hfg : ∀ x y, f x y = g x y) : IsAlu2 i g := by
  obtain rfl : f = g := funext₂ hfg
  exact h

/-- An instruction of two register sources that begins has one next state. -/
theorem IsAlu2.exec_begins {i : Nat → BitVec 6 → BitVec 6 → BitVec 6 → Instr} {f : W64 → W64 → W64} (hi : IsAlu2 i f)
    {s : State} {c : Nat} {m1 : Mach} (h : s.m.Begins c m1) (d a b : BitVec 6) :
    exec (i c d a b) s = .next (s.withM (m1.finish c [] (.ok (m1.setG c d.toNat
      ⟨f (m1.g c a.toNat).data (m1.g c b.toNat).data, false, (m1.g c a.toNat).poison || (m1.g c b.toNat).poison, 0⟩)))) := by
  rw [hi, upd_eq, alu2_begins h]

/-! ### The operations in the terms of their rules -/

theorem opSlt_eq (x y : W64) : opSlt x y = if x.toInt < y.toInt then 1 else 0 := by simp [opSlt, ofBool, BitVec.slt]
theorem opSltu_eq (x y : W64) : opSltu x y = if x.toNat < y.toNat then 1 else 0 := by simp [opSltu, ofBool, BitVec.ult]
theorem ofBool_beq (x y : W64) : ofBool (x == y) = if x = y then 1 else 0 := by simp [ofBool]
theorem opMin_eq (x y : W64) : opMin x y = if x.toInt < y.toInt then x else y := by simp [opMin, BitVec.slt]
theorem opMax_eq (x y : W64) : opMax x y = if x.toInt < y.toInt then y else x := by simp [opMax, BitVec.slt]
theorem opMinu_eq (x y : W64) : opMinu x y = if x.toNat < y.toNat then x else y := by simp [opMinu, BitVec.ult]
theorem opMaxu_eq (x y : W64) : opMaxu x y = if x.toNat < y.toNat then y else x := by simp [opMaxu, BitVec.ult]

/-- A product depends on its words as natural numbers alone. -/
theorem mul_eq_ofNat (x y : W64) : x * y = BitVec.ofNat 64 (x.toNat * y.toNat) := by simp [BitVec.ofNat_mul]

/-- The product of two unsigned words, cut to its high half, stays a natural number. -/
theorem opMulhu_eq (x y : W64) : opMulhu x y = BitVec.ofNat 64 (x.toNat * y.toNat / 2 ^ 64) := by
  rw [opMulhu, highBits, ← BitVec.ofInt_natCast]
  norm_cast

/-! ### Division (R78) -/

theorem opDiv_zero (x : W64) : opDiv x 0 = 0xFFFFFFFFFFFFFFFF := if_pos rfl
theorem opDivu_zero (x : W64) : opDivu x 0 = 0xFFFFFFFFFFFFFFFF := if_pos rfl
theorem opRem_zero (x : W64) : opRem x 0 = x := if_pos rfl
theorem opRemu_zero (x : W64) : opRemu x 0 = x := if_pos rfl

/-- The one quotient that does not fit, −2⁶³ ÷ −1, wraps to −2⁶³. -/
theorem opDiv_overflow : opDiv 0x8000000000000000 0xFFFFFFFFFFFFFFFF = 0x8000000000000000 := by decide
theorem opRem_overflow : opRem 0x8000000000000000 0xFFFFFFFFFFFFFFFF = 0 := by decide

/-! ### The table -/

/-- Every instruction of the table computes the payload that the table gives it. -/
theorem twoSourceTable_isAlu2 : ∀ p ∈ twoSourceTable, IsAlu2 p.1 p.2 := by
  simp only [twoSourceTable, List.forall_mem_cons, List.not_mem_nil, false_imp_iff, implies_true, and_true]
  refine ⟨?add, ?sub, ?and, ?or, ?xor, ?andn, ?orn, ?xnor, ?shl, ?shr, ?sra, ?ror, ?slt, ?sltu, ?seq, ?min, ?max, ?minu, ?maxu,
    ?mul, ?mulh, ?mulhu, ?mulhsu, ?div, ?divu, ?rem, ?remu⟩
  case slt => exact IsAlu2.congr (fun _ _ _ _ _ => rfl) opSlt_eq
  case sltu => exact IsAlu2.congr (fun _ _ _ _ _ => rfl) opSltu_eq
  case seq => exact IsAlu2.congr (fun _ _ _ _ _ => rfl) ofBool_beq
  case min => exact IsAlu2.congr (fun _ _ _ _ _ => rfl) opMin_eq
  case max => exact IsAlu2.congr (fun _ _ _ _ _ => rfl) opMax_eq
  case minu => exact IsAlu2.congr (fun _ _ _ _ _ => rfl) opMinu_eq
  case maxu => exact IsAlu2.congr (fun _ _ _ _ _ => rfl) opMaxu_eq
  case mul => exact IsAlu2.congr (fun _ _ _ _ _ => rfl) mul_eq_ofNat
  case mulhu => exact IsAlu2.congr (fun _ _ _ _ _ => rfl) opMulhu_eq
  all_goals exact fun _ _ _ _ _ => rfl

/-- Settles O6: every instruction of the table is its operation on two register sources, which retires with the payload when it begins. -/
theorem integerTwoSourceResults : Obligations.IntegerTwoSourceResults :=
  ⟨fun p hp _ _ d a b _ h => (twoSourceTable_isAlu2 p hp).exec_begins h d a b,
    fun x => ⟨opDiv_zero x, opDivu_zero x, opRem_zero x, opRemu_zero x, opDiv_overflow, opRem_overflow⟩⟩

end Sys2Proof.Machine

/-!
SUPPORT. The results of the short-vector instructions (R93, R94): an instruction per lane completes for every lane width but 3 and traps
for 3, its payload obeys the table lane by lane, and the horizontal operations have the payload of their rule.
-/

namespace Sys2Proof.Machine

/-! ### Instructions per lane (R93) -/

/-- The instruction `i` is the operation `f` on lanes, whose width its field selects. -/
def IsPkLanes (i : Nat → BitVec 6 → BitVec 6 → BitVec 6 → BitVec 2 → Instr) (f : Nat → W64 → W64 → W64) : Prop :=
  ∀ c d a b w s, exec (i c d a b w) s = s.upd (pkLanes c d a b w f)

section
variable {i : Nat → BitVec 6 → BitVec 6 → BitVec 6 → BitVec 2 → Instr} {f : Nat → W64 → W64 → W64}
  {s : State} {c : Nat} {m1 : Mach}

/-- A legal lane width: the instruction retires with the operation's payload on lanes of that width. -/
theorem IsPkLanes.exec_begins (hi : IsPkLanes i f) (h : s.m.Begins c m1) (d a b : BitVec 6) {w : BitVec 2} (hw : w ≠ 3) :
    exec (i c d a b w) s = .next (s.withM (m1.finish c [] (.ok (m1.setG c d.toNat
      ⟨f (8 * 2 ^ w.toNat) (m1.g c a.toNat).data (m1.g c b.toNat).data, false,
        (m1.g c a.toNat).poison || (m1.g c b.toNat).poison, 0⟩)))) := by
  rw [hi, upd_eq, pkLanes, alu2If, instr_begins h]
  rw [if_neg (by simpa using hw)]
  rfl

/-- Lane width 3 traps ILLEGAL. -/
theorem IsPkLanes.exec_illegal (hi : IsPkLanes i f) (h : s.m.Begins c m1) (d a b : BitVec 6) :
    exec (i c d a b 3) s = .next (s.withM (m1.finish c [] (.trap (m1.illegal c 0)))) := by
  rw [hi, upd_eq, pkLanes, alu2If, instr_begins h]
  rfl

end

/-! ### The tables per lane -/

theorem ones_decide (n : Nat) (p : Prop) [Decidable p] : ones n (decide p) = if p then 2 ^ n - 1 else 0 := by simp [ones]
theorem onesI_decide (n : Nat) (p : Prop) [Decidable p] : onesI n (decide p) = if p then -1 else 0 := by simp [onesI]

/-- The unsigned difference of two numbers, by their order. -/
theorem max_sub_min (x y : Nat) : max x y - min x y = if x < y then y - x else x - y := by
  split <;> omega

/-- The same instruction under another form of its operation on a lane, unsigned or signed. -/
theorem IsPkLanes.congr {α : Type} {i : Nat → BitVec 6 → BitVec 6 → BitVec 6 → BitVec 2 → Instr}
    {lanes : (Nat → α → α → α) → Nat → W64 → W64 → W64} {f g : Nat → α → α → α} (h : IsPkLanes i (lanes f))
    (hfg : ∀ n x y, f n x y = g n x y) : IsPkLanes i (lanes g) := by
  obtain rfl : f = g := funext₃ hfg
  exact h

/-- Every instruction of the unsigned table is its operation on unsigned lanes. -/
theorem unsignedLaneTable_isPkLanes : ∀ p ∈ unsignedLaneTable, IsPkLanes p.1 (laneU p.2) := by
  simp only [unsignedLaneTable, List.forall_mem_cons, List.not_mem_nil, false_imp_iff, implies_true, and_true]
  refine ⟨?add, ?addus, ?subus, ?minu, ?maxu, ?meanu, ?difu, ?eq, ?gtu, ?mul⟩
  case difu => exact IsPkLanes.congr (fun _ _ _ _ _ _ => rfl) fun _ => max_sub_min
  case eq => exact IsPkLanes.congr (fun _ _ _ _ _ _ => rfl) fun n x y => ones_decide n (x = y)
  case gtu => exact IsPkLanes.congr (fun _ _ _ _ _ _ => rfl) fun n x y => ones_decide n (y < x)
  all_goals exact fun _ _ _ _ _ _ => rfl

/-- Every instruction of the signed table is its operation on signed lanes. -/
theorem signedLaneTable_isPkLanes : ∀ p ∈ signedLaneTable, IsPkLanes p.1 (laneS p.2) := by
  simp only [signedLaneTable, List.forall_mem_cons, List.not_mem_nil, false_imp_iff, implies_true, and_true]
  refine ⟨?sub, ?addss, ?subss, ?min, ?max, ?gt⟩
  case gt => exact IsPkLanes.congr (fun _ _ _ _ _ _ => rfl) fun n x y => onesI_decide n (y < x)
  all_goals exact fun _ _ _ _ _ _ => rfl

/-- Every instruction of the shift table is an operation on lanes that shifts each by srcB[5:0]. -/
theorem shiftLaneTable_isPkLanes : ∀ p ∈ shiftLaneTable, ∃ f, IsPkLanes p.1 f ∧ ∀ n i x y, i < 64 / n →
    laneAt n i (f n x y) = p.2 n (laneAt n i x) (y.toNat % 64) := by
  simp only [shiftLaneTable, List.forall_mem_cons, List.not_mem_nil, false_imp_iff, implies_true, and_true]
  exact ⟨⟨pkShl, fun _ _ _ _ _ _ => rfl, laneAt_pkShl⟩, ⟨pkShr, fun _ _ _ _ _ _ => rfl, laneAt_pkShr⟩,
    ⟨pkSra, fun _ _ _ _ _ _ => rfl, laneAt_pkSra⟩⟩

/-! ### Horizontal operations (R94) -/

/-- A sum in order is the sum of the list. -/
theorem foldl_add_eq_sum {α β : Type} [AddCommMonoid β] (l : List α) (g : α → β) :
    l.foldl (fun t i => t + g i) 0 = (l.map g).sum := by
  rw [List.sum_eq_foldl, List.foldl_map]

/-- Every instruction of the horizontal table computes the payload that the table gives it. -/
theorem horizontalTable_isAlu2 : ∀ p ∈ horizontalTable, IsAlu2 p.1 p.2 := by
  simp only [horizontalTable, List.forall_mem_cons, List.not_mem_nil, false_imp_iff, implies_true, and_true]
  refine ⟨?nrw16s, ?nrw16u, ?nrw32s, ?zipl8, ?ziph8, ?zipl16, ?ziph16, ?dot16, ?dotu8, ?difsum8⟩
  case dot16 => exact IsAlu2.congr (fun _ _ _ _ _ => rfl) fun x y => by rw [opDot16, foldl_add_eq_sum]; rfl
  case dotu8 => exact IsAlu2.congr (fun _ _ _ _ _ => rfl) fun x y => by rw [opDotU8, foldl_add_eq_sum]; rfl
  case difsum8 => exact IsAlu2.congr (fun _ _ _ _ _ => rfl) fun x y => by simp only [opDifsum8, foldl_add_eq_sum, max_sub_min]; rfl
  all_goals exact fun _ _ _ _ _ => rfl

theorem opSumU8_eq (x : W64) : opSumU8 x = BitVec.ofNat 64 (([0, 1, 2, 3, 4, 5, 6, 7].map (fun i => laneAt 8 i x)).sum) := by
  rw [opSumU8, foldl_add_eq_sum]
  rfl

theorem opSumS16_eq (x : W64) : opSumS16 x = BitVec.ofInt 64 (([0, 1, 2, 3].map (fun i => laneAtS 16 i x)).sum) := by
  rw [opSumS16, foldl_add_eq_sum]
  rfl

theorem exec_pksumu8 (c : Nat) (d a : BitVec 6) (s : State) : exec (.pksumu8 c d a) s = s.upd (alu1 c d a opSumU8) := rfl
theorem exec_pksums16 (c : Nat) (d a : BitVec 6) (s : State) : exec (.pksums16 c d a) s = s.upd (alu1 c d a opSumS16) := rfl
theorem exec_pksel (c : Nat) (d a b : BitVec 6) (s : State) : exec (.pksel c d a b) s = s.upd (alu3 c d a b opPksel) := rfl

/-! ### The obligation -/

/-- Settles O8: an instruction of a lane table is its operation on lanes, whose payload obeys the table lane by lane; a horizontal one is
its operation on its sources. -/
theorem packedResults : Obligations.PackedResults := by
  refine ⟨fun s c d a b w m1 h hw => ⟨fun p hp => ?unsigned, fun p hp => ?signed, fun p hp => ?shift⟩,
    fun s c d a b m1 h => ⟨fun p hp => ?unsigned3, fun p hp => ?signed3, fun p hp => ?shift3⟩,
    fun s c d a b m1 h => ⟨fun p hp => ?horizontal, ?sumu8, ?sums16, ?sel⟩⟩
  case unsigned =>
    exact ⟨_, (unsignedLaneTable_isPkLanes p hp).exec_begins h d a b hw, fun i hi => laneAt_laneU _ _ i _ _ hi⟩
  case signed =>
    exact ⟨_, (signedLaneTable_isPkLanes p hp).exec_begins h d a b hw, fun i hi => laneAt_laneS _ _ i _ _ hi⟩
  case shift =>
    obtain ⟨f, hf, lane⟩ := shiftLaneTable_isPkLanes p hp
    exact ⟨_, hf.exec_begins h d a b hw, fun i hi => lane _ i _ _ hi⟩
  case unsigned3 => exact (unsignedLaneTable_isPkLanes p hp).exec_illegal h d a b
  case signed3 => exact (signedLaneTable_isPkLanes p hp).exec_illegal h d a b
  case shift3 =>
    obtain ⟨f, hf, -⟩ := shiftLaneTable_isPkLanes p hp
    exact hf.exec_illegal h d a b
  case horizontal => exact (horizontalTable_isAlu2 p hp).exec_begins h d a b
  case sumu8 => rw [exec_pksumu8, upd_eq, alu1_begins h, opSumU8_eq]
  case sums16 => rw [exec_pksums16, upd_eq, alu1_begins h, opSumS16_eq]
  case sel =>
    rw [exec_pksel, upd_eq, alu3_begins h]
    rfl

end Sys2Proof.Machine

/-!
SUPPORT. The results of the integer long-vector instructions (R105, R110 to R112): what an element-wise write leaves in its destination, how
an instruction of this form ends when it begins, and that every instruction of the table has the form with the element that its rule gives.
-/

namespace Sys2Proof.Machine

/-! ### Element-wise writes -/

/-- The element width is not 0. -/
theorem ew_pos (x : Core) : 0 < x.ew := by
  rcases ew_cases x with h | h | h | h <;> omega

/-- Element results for every element number, written where the element is active: `val`, cut to the element width, and `pois`. -/
theorem elementwise_vMap_some (m : Mach) (c : Nat) (k : Bool) (old : VReg) (e : Nat → VElem) (val : Nat → Nat) (pois : Nat → Bool)
    (hval : ∀ i, (e i).val % 2 ^ (m.core c).ew = val i % 2 ^ (m.core c).ew) (hpois : ∀ i, (e i).poison = pois i) :
    Elementwise m c k old (m.vMap c k old (fun i => some (e i))) val pois := by
  intro i hi
  obtain ⟨helem, hpoison⟩ := vMap_elem m c k old (fun i => some (e i)) i hi
  rw [helem, hpoison]
  refine ⟨fun hvl hact => ?active, fun hvl hact => ?inactive, fun hvl => ?tail⟩
  case active => simp [hvl, hact, hval, hpois]
  case inactive => simp [hvl, hact]
  case tail => simp [Nat.not_lt.mpr hvl]

/-- A write of element results that raise no flag leaves FCSR as `accrue` of none does. -/
theorem vWrite_some_noFlags (m : Mach) (c : Nat) (k : Bool) (vd : Nat) (e : Nat → VElem) (he : ∀ i, (e i).flags = .none) :
    m.vWrite c k vd (fun i => some (e i)) =
      .ok (((m.setV c vd (m.vMap c k (m.v c vd) (fun i => some (e i)))).accrue c .none).vRetire c) := by
  have noFlags : m.vFlags c k (fun i => some (e i)) = .none :=
    vFlags_none m c k _ (fun i _ hi => Option.some.inj hi ▸ he i)
  rw [Mach.vWrite, noFlags]

/-! ### The frame of a long-vector instruction (R75, R105) -/

section
variable {m m1 : Mach} {c : Nat}

/-- With VILL set a legal long-vector instruction traps VECTOR on a V-core. -/
theorem vinstr_vill (h : m.Begins c m1) (hc : c < 144) (hv : bit (m1.core c).vtype 63 = true) (body : Mach → Res) :
    vinstr c true body m = m1.finish c [0x010] (.trap (.plain .vector 0 0)) := by
  simp [vinstr, instr_begins h, isC, Nat.not_le.mpr hc, hv]

/-- On a C-core every long-vector instruction traps ILLEGAL. -/
theorem vinstr_ccore (h : m.Begins c m1) (hc : 144 ≤ c) (legal : Bool) (body : Mach → Res) :
    vinstr c legal body m = m1.finish c [0x010] (.trap (m1.illegal c 0)) := by
  simp [vinstr, instr_begins h, isC, hc]

end

/-- A second source that is a general register or a vector register is legal (R109). -/
theorem vbLegal_of {sc : Bool} {b : BitVec 6} (h : sc = true ∨ b.getLsbD 5 = false) : vbLegal sc b = true := by
  simpa [vbLegal] using h

/-! ### Integer instructions that begin -/

/-- Element `i` of the result of an integer instruction (R112). -/
def Mach.vintElem (m : Mach) (c : Nat) (vd va : BitVec 5) (sc : Bool) (b : BitVec 6) (acc : Bool) (f : Nat → Nat → Nat → Nat → Nat)
    (i : Nat) : VElem :=
  let w := (m.core c).ew
  let x := m.v c va.toNat
  let y := m.vB c sc b.toNat i
  let z := m.v c vd.toNat
  ⟨f w (z.elem w i) (x.elem w i) y.1 % 2 ^ w, x.pois w i || y.2 || (acc && z.pois w i), .none⟩

/-- A legal integer instruction writes its elements and raises no flag. -/
theorem vint_begins {m m1 : Mach} {c : Nat} (h : m.Begins c m1) (hc : c < 144) (hv : bit (m1.core c).vtype 63 = false)
    (k : Bool) (vd va : BitVec 5) {sc : Bool} {b : BitVec 6} (hb : vbLegal sc b = true) (acc : Bool) (f : Nat → Nat → Nat → Nat → Nat) :
    vint c k vd va sc b acc f m = m1.finish c [0x010] (.ok (((m1.setV c vd.toNat
      (m1.vMap c k (m1.v c vd.toNat) (fun i => some (m1.vintElem c vd va sc b acc f i)))).accrue c .none).vRetire c)) := by
  rw [vint, hb, vinstr_begins h hc hv]
  exact congrArg (m1.finish c [0x010]) (vWrite_some_noFlags m1 c k vd.toNat (m1.vintElem c vd va sc b acc f) fun _ => rfl)

/-- The instruction `i` is an integer operation whose element is `f`, where the two sources are elements of `w` bits; `acc` makes the old
destination a source. -/
def IsVint (i : VecCtor) (acc : Bool) (f : Nat → Nat → Nat → Nat → Nat) : Prop :=
  ∃ g : Nat → Nat → Nat → Nat → Nat,
    (∀ c k vd va sc b s, exec (i c k vd va sc b) s = s.upd (vint c k vd va sc b acc g)) ∧
    ∀ w z x y, 0 < w → x < 2 ^ w → y < 2 ^ w → g w z x y = f w z x y

/-- An operation that is written as its rule gives it. -/
theorem IsVint.of_exec {i : VecCtor} {acc : Bool} {f : Nat → Nat → Nat → Nat → Nat}
    (h : ∀ c k vd va sc b s, exec (i c k vd va sc b) s = s.upd (vint c k vd va sc b acc f)) : IsVint i acc f :=
  ⟨f, h, fun _ _ _ _ _ _ _ => rfl⟩

section
variable {i : VecCtor} {acc : Bool} {f : Nat → Nat → Nat → Nat → Nat} {s : State} {c : Nat} {m1 : Mach}

/-- An integer instruction that begins completes element by element. -/
theorem IsVint.exec_begins (hi : IsVint i acc f) (h : VecBegins s c m1) (k : Bool) (vd va : BitVec 5) {sc : Bool} {b : BitVec 6}
    (hb : vbLegal sc b = true) :
    let w := (m1.core c).ew
    let x := m1.v c va.toNat
    let z := m1.v c vd.toNat
    ∃ v, exec (i c k vd va sc b) s = ends s m1 c [0x010] (.ok (((m1.setV c vd.toNat v).accrue c .none).vRetire c)) ∧
      Elementwise m1 c k z v (fun i => f w (z.elem w i) (x.elem w i) (m1.vB c sc b.toNat i).1)
        (fun i => x.pois w i || (m1.vB c sc b.toNat i).2 || (acc && z.pois w i)) := by
  intro w x z
  obtain ⟨hbegin, hc, hv⟩ := h
  obtain ⟨g, hexec, agree⟩ := hi
  refine ⟨_, ?_, elementwise_vMap_some m1 c k z (m1.vintElem c vd va sc b acc g) _ _ (fun i => ?_) (fun i => rfl)⟩
  · rw [hexec, upd_eq, vint_begins hbegin hc hv k vd va hb]
    rfl
  · rw [← agree w _ _ _ (ew_pos _) (elem_lt x w i) (vB_lt m1 c sc b.toNat i)]
    exact Nat.mod_mod _ _

/-- With VILL set it traps VECTOR. -/
theorem IsVint.exec_vill (hi : IsVint i acc f) (h : s.m.Begins c m1) (hc : c < 144) (hv : bit (m1.core c).vtype 63 = true) (k : Bool)
    (vd va : BitVec 5) {sc : Bool} {b : BitVec 6} (hb : vbLegal sc b = true) :
    exec (i c k vd va sc b) s = ends s m1 c [0x010] (.trap (.plain .vector 0 0)) := by
  obtain ⟨g, hexec, -⟩ := hi
  rw [hexec, upd_eq, vint, hb, vinstr_vill h hc hv]
  rfl

/-- On a C-core it traps ILLEGAL. -/
theorem IsVint.exec_ccore (hi : IsVint i acc f) (h : s.m.Begins c m1) (hc : 144 ≤ c) (k : Bool) (vd va : BitVec 5) (sc : Bool)
    (b : BitVec 6) : exec (i c k vd va sc b) s = ends s m1 c [0x010] (.trap (m1.illegal c 0)) := by
  obtain ⟨g, hexec, -⟩ := hi
  rw [hexec, upd_eq, vint, vinstr_ccore h hc]
  rfl

end

/-! ### The table -/

/-- An element of `w` bits as a two's complement word is its signed number. -/
theorem toInt_ofNat_eq_sgn {w x : Nat} (hw : 0 < w) (hx : x < 2 ^ w) : (BitVec.ofNat w x).toInt = sgn w x := by
  have half : 2 ^ w = 2 * 2 ^ (w - 1) := by rw [← pow_succ', Nat.sub_add_cancel hw]
  rw [BitVec.toInt_eq_toNat_cond, BitVec.toNat_ofNat, Nat.mod_eq_of_lt hx, sgn]
  by_cases hs : x < 2 ^ (w - 1)
  · rw [if_pos hs, if_pos (by omega)]
  · rw [if_neg hs, if_neg (by omega)]
    norm_cast

/-- An operation that reads its two sources as words of `w` bits in two's complement is the one on their signed numbers. -/
theorem IsVint.of_exec_signed {i : VecCtor} {acc : Bool} (op : Nat → Nat → Nat → Int → Int → Nat)
    (h : ∀ c k vd va sc b s, exec (i c k vd va sc b) s =
      s.upd (vint c k vd va sc b acc (fun w _ x y => op w x y (BitVec.ofNat w x).toInt (BitVec.ofNat w y).toInt))) :
    IsVint i acc (fun w _ x y => op w x y (sgn w x) (sgn w y)) :=
  ⟨_, h, fun w _ x y hw hx hy => by simp only [toInt_ofNat_eq_sgn hw hx, toInt_ofNat_eq_sgn hw hy]⟩

/-- Every instruction of the table is the integer operation that the table gives it. -/
theorem vecIntTable_isVint : ∀ q ∈ vecIntTable, IsVint q.1 q.2.1 q.2.2 := by
  simp only [vecIntTable, List.forall_mem_cons, List.not_mem_nil, false_imp_iff, implies_true, and_true]
  refine ⟨?add, ?sub, ?and, ?or, ?xor, ?shl, ?shr, ?sra, ?min, ?max, ?minu, ?maxu, ?mul, ?mulh, ?mulhu, ?macc, ?adds, ?addus, ?subs,
    ?subus⟩
  case sra => exact .of_exec_signed (fun w _ y a _ => low w (a / 2 ^ (y % 64))) fun _ _ _ _ _ _ _ => rfl
  case min => exact .of_exec_signed (fun _ x y a b => if a < b then x else y) fun _ _ _ _ _ _ _ => rfl
  case max => exact .of_exec_signed (fun _ x y a b => if a < b then y else x) fun _ _ _ _ _ _ _ => rfl
  case mulh => exact .of_exec_signed (fun w _ _ a b => low w (a * b / 2 ^ w)) fun _ _ _ _ _ _ _ => rfl
  case adds => exact .of_exec_signed (fun w _ _ a b => low w (clampS w (a + b))) fun _ _ _ _ _ _ _ => rfl
  case subs => exact .of_exec_signed (fun w _ _ a b => low w (clampS w (a - b))) fun _ _ _ _ _ _ _ => rfl
  all_goals exact .of_exec fun _ _ _ _ _ _ _ => rfl

/-! ### The obligation -/

/-- Settles O21: every instruction of the table is an integer operation, which completes element by element when it begins and otherwise
traps in the frame of its instruction. -/
theorem vectorIntegerResults : Obligations.VectorIntegerResults := by
  intro q hq s c k vd va sc b m1 hsrc
  have isVint := vecIntTable_isVint q hq
  have legal := vbLegal_of hsrc
  exact ⟨fun h => isVint.exec_begins h k vd va legal,
    fun h hc hv => isVint.exec_vill h hc hv k vd va legal,
    fun h hc => isVint.exec_ccore h hc k vd va sc b⟩

end Sys2Proof.Machine

/-!
SUPPORT. The event router, EWAIT, ESIG and the NMI input (R201 to R208): what a raise leaves on an enabled and on a disabled route, what
EWAIT collects under its selection, and what the delivery of an NMI leaves in the cores and in the input's register.
-/

namespace Sys2Proof.Machine

/-! ### What the commands do to the machine -/

section
variable (s : State) (mst : Master) (v : W64) (c n : Nat) (d a : BitVec 6)

theorem exec_sytEvrRouteWrite : exec (.sytEvrRouteWrite mst v) s = .next (s.withM (s.m.writeRoute mst v)) := rfl
theorem exec_sytEvrFire : exec (.sytEvrFire mst v) s = .next (s.withM (s.m.fireEvent mst v)) := rfl
theorem exec_eventDelivery : exec (.eventDelivery n) s = .next (s.withM (s.m.deliverEvent n)) := rfl
theorem exec_timerExpires : exec (.timerExpires c) s = .next (s.withM (s.m.timerExpires c)) := rfl
theorem exec_ewait : exec (.ewait c d a) s = .next (s.withM (ewait c d a s.m)) := rfl
theorem exec_esig : exec (.esig c a) s = .next (s.withM (esig c a s.m)) := rfl
theorem exec_nmiNAssert : exec .nmiNAssert s = .next (s.withM s.m.nmiAssert) := rfl
theorem exec_nmiNRelease : exec .nmiNRelease s = .next (s.withM (s.m.setRegBit 0 0 0x658 32 false)) := rfl

end

/-! ### Bits of a replaced field -/

/-- A field replacement leaves the bits outside the field. -/
theorem bit_setFld_outside (v : W64) {lo n i : Nat} (x : Nat) (hi : i < 64) (h : ¬ (lo ≤ i ∧ i < lo + n)) :
    bit (setFld v lo n x) i = bit v i := by
  rw [bit, getLsbD_setFld _ _ _ _ _ hi, if_neg h, bit]

/-- A bit reads as it was set. -/
theorem bit_setBit_self (v : W64) {i : Nat} (b : Bool) (hi : i < 64) : bit (setBit v i b) i = b := by
  rw [bit, setBit, getLsbD_setFld _ _ _ _ _ hi, if_pos (by omega)]
  cases b <;> simp

section
variable (m : Mach)

/-- A count in one field of a register leaves the bits outside the field. -/
theorem bit_countReg_outside {st k off lo n by_ i : Nat} (hi : i < 64) (h : ¬ (lo ≤ i ∧ i < lo + n)) :
    bit ((m.countReg st k off lo n by_).reg st k off) i = bit (m.reg st k off) i := by
  rw [Mach.countReg, Mach.setRegFld, reg_setReg_self, bit_setFld_outside _ _ hi h]

/-- A bit of a register reads as it was set. -/
theorem bit_setRegBit_self {st k off i : Nat} (b : Bool) (hi : i < 64) :
    bit ((m.setRegBit st k off i b).reg st k off) i = b := by
  rw [Mach.setRegBit, reg_setReg_self, bit_setBit_self _ _ hi]

/-- Another register keeps its value when a field of one counts. -/
theorem reg_countReg_ne {st k off st' k' off' lo n by_ : Nat} (h : cellKey st' k' off' ≠ cellKey st k off) :
    (m.countReg st k off lo n by_).reg st' k' off' = m.reg st' k' off' := reg_setReg_ne m _ h

/-- Another register keeps its value when a bit of one is set. -/
theorem reg_setRegBit_ne {st k off st' k' off' i : Nat} {b : Bool} (h : cellKey st' k' off' ≠ cellKey st k off) :
    (m.setRegBit st k off i b).reg st' k' off' = m.reg st' k' off' := reg_setReg_ne m _ h

@[simp] theorem countReg_core (st k off lo n by_ c : Nat) : (m.countReg st k off lo n by_).core c = m.core c := rfl
@[simp] theorem countReg_phase (st k off lo n by_ : Nat) : (m.countReg st k off lo n by_).phase = m.phase := rfl
@[simp] theorem setRegBit_core (st k off i c : Nat) (b : Bool) : (m.setRegBit st k off i b).core c = m.core c := rfl
@[simp] theorem setRegBit_phase (st k off i : Nat) (b : Bool) : (m.setRegBit st k off i b).phase = m.phase := rfl
@[simp] theorem setCore_reg (c st k off : Nat) (x : Core) : (m.setCore c x).reg st k off = m.reg st k off := rfl

end

/-! ### The event router (R201 to R203) -/

/-- The members of a list after an insertion. -/
theorem mem_insNat (l : List Nat) (n k : Nat) : k ∈ insNat l n ↔ k = n ∨ k ∈ l := by
  induction l with
  | nil => simp [insNat]
  | cons x t ih =>
    unfold insNat
    split_ifs with hlt heq
    · simp
    · subst heq; simp
    · simp only [List.mem_cons, ih, or_left_comm]

section
variable {m : Mach} {n : Nat}

/-- A raise on an enabled route makes the event pending. -/
theorem raiseEvent_enabled (hn : n < 792) (hen : bit (m.route n) 10 = true) (hp : n ∉ m.evPend) :
    m.raiseEvent n = { m with evPend := insNat m.evPend n } := by
  simp [Mach.raiseEvent, hn, hen, hp]

/-- A raise of a pending event is counted. -/
theorem raiseEvent_pending (hn : n < 792) (hen : bit (m.route n) 10 = true) (hp : n ∈ m.evPend) :
    m.raiseEvent n = m.countReg 0 0 0x620 0 32 1 := by
  simp [Mach.raiseEvent, hn, hen, hp]

/-- A raise on a disabled route is dropped and counted. -/
theorem raiseEvent_disabled (hn : n < 792) (hen : bit (m.route n) 10 = false) :
    m.raiseEvent n = m.countReg 0 0 0x620 32 32 1 := by
  simp [Mach.raiseEvent, hn, hen]

/-- A route to an existing core that is neither secure nor event 790 is taken from any master. -/
theorem writeRoute_taken {mst : Master} {v : W64} (hcc : bit v 24 = true → fld v 16 8 < 32)
    (hv : bit v 24 = false → fld v 16 8 < 144) (hsec : bit v 11 = false) (h790 : fld v 0 10 ≠ 790) :
    m.writeRoute mst v = { m with routes := Tab.set 0 m.routes (fld v 0 10) (routeMask v) } := by
  have named : (if bit v 24 then decide (31 < fld v 16 8) else decide (143 < fld v 16 8)) = false := by
    cases h24 : bit v 24 with
    | true => have := hcc h24; simp; omega
    | false => have := hv h24; simp; omega
  simp [Mach.writeRoute, named, hsec, h790]

/-- An event that is not reserved is fired for any master. -/
theorem fireEvent_raises {mst : Master} {v : W64} (h790 : fld v 0 10 ≠ 790) (hn : fld v 0 10 < 792) :
    m.fireEvent mst v = m.raiseEvent (fld v 0 10) := by
  simp [Mach.fireEvent, h790, hn]

/-- A pending event of an enabled route wakes the core that the route names. -/
theorem deliverEvent_wakes (hp : n ∈ m.evPend) (hen : bit (m.route n) 10 = true) :
    m.deliverEvent n = m.wake (routeCore (m.route n)) := by
  simp [Mach.deliverEvent, hp, hen]

/-- A timer that is set and expires brings device time to TIMECMP and wakes its core (R204). -/
theorem timerExpires_wakes {c : Nat} (h : (m.core c).timecmp ≠ 0) :
    m.timerExpires c = Mach.wake { m with dt := max m.dt (m.core c).timecmp.toNat } c := if_neg h

end

/-! ### EWAIT (R205) -/

section
variable {m m1 : Mach} {c : Nat} {sel : W64}

/-- A selected event is collected and no longer pending. -/
theorem collect_event {n j : Nat} (h : m.collectable c sel = some (n, j)) :
    m.collect c sel = some (setFld (setFld 0 0 10 n) 12 4 j, m.clearEvent n) := by
  simp [Mach.collect, h]

/-- Without a selected event a selected pending timer is collected and stopped. -/
theorem collect_timer (h : m.collectable c sel = none) (hsel : bit sel 16 = true) (ht : m.timerPending c = true) :
    m.collect c sel = some (0x4000000000000000, m.setCore c { m.core c with timecmp := 0 }) := by
  simp only [Mach.collect, h, hsel, ht, Bool.and_self, if_true]
  rfl

/-- With nothing to collect EWAIT answers NONE when it may not wait. -/
theorem collect_poll (h : m.collectable c sel = none) (hsel : bit sel 16 = false) (hpoll : bit sel 32 = true) :
    m.collect c sel = some (0x8000000000000000, m) := by
  simp only [Mach.collect, h, hsel, hpoll, Bool.false_and, Bool.false_eq_true, if_false, or_true, if_true]
  rfl

/-- With nothing to collect, a selection and leave to wait, EWAIT has no answer. -/
theorem collect_nothing (h : m.collectable c sel = none) (hsel : bit sel 16 = false) (hpoll : bit sel 32 = false)
    (hsome : fld sel 0 17 ≠ 0) : m.collect c sel = none := by
  simp [Mach.collect, h, hsel, hpoll, hsome]

/-- EWAIT that begins on a running core ends as its body says. -/
theorem ewait_begins (h : m.Begins c m1) (d a : BitVec 6) : ewait c d a m = m1.finish c [] (ewaitBody c d a m1) := by
  obtain ⟨-, -, hrun, -⟩ := begins_running h
  rw [ewait, if_neg (by simp [hrun]), instr_begins h]

/-- EWAIT returns what it collects. -/
theorem ewaitBody_collects {d a : BitVec 6} {v : W64} (hp : (m.g c a.toNat).poison = false)
    (h : m.collect c (m.g c a.toNat).data = some (v, m1)) : ewaitBody c d a m = .ok (m1.setG c d.toNat (.plain v)) := by
  simp [ewaitBody, hp, h]

/-- EWAIT waits when it collects nothing. -/
theorem ewaitBody_waits {d a : BitVec 6} (hp : (m.g c a.toNat).poison = false) (h : m.collect c (m.g c a.toNat).data = none) :
    ewaitBody c d a m =
      .wait (m.setCore c { m.core c with st := .waiting, sel := (m.g c a.toNat).data, wdst := d.toNat }) := by
  simp [ewaitBody, hp, h]

section
variable {s : State} (h : s.m.Begins c m1) (d a : BitVec 6) (hp : (m1.g c a.toNat).poison = false)
include h hp

/-- EWAIT that begins and collects retires with what it collects. -/
theorem exec_ewait_collects {v : W64} {m2 : Mach} (hc : m1.collect c (m1.g c a.toNat).data = some (v, m2)) :
    exec (.ewait c d a) s = ends s m1 c [] (.ok (m2.setG c d.toNat (.plain v))) := by
  rw [exec_ewait, ewait_begins h, ewaitBody_collects hp hc, ends]

/-- EWAIT that begins and collects nothing leaves its core waiting. -/
theorem exec_ewait_waits (hc : m1.collect c (m1.g c a.toNat).data = none) :
    exec (.ewait c d a) s = ends s m1 c [] (.wait (m1.setCore c { m1.core c with
      st := .waiting, sel := (m1.g c a.toNat).data, wdst := d.toNat })) := by
  rw [exec_ewait, ewait_begins h, ewaitBody_waits hp hc, ends]

end
end

/-! ### ESIG (R206) -/

section
variable {s : State} {m1 : Mach} {c n : Nat} (h : s.m.Begins c m1) (a : BitVec 6) (hp : (m1.g c a.toNat).poison = false)
  (hn : fld (m1.g c a.toNat).data 0 10 = n)
include h hp hn

/-- ESIG that begins traps when its number names no soft event or the route does not admit the core's compartment. -/
theorem exec_esig_refused
    (hr : 255 < n ∨ (bit (m1.route n) 25 = false ∧ fld (m1.route n) 32 16 ≠ (m1.core c).cmpid)) :
    exec (.esig c a) s = ends s m1 c [] (.trap (.plain .capPerm 0 0)) := by
  simp only [exec_esig, esig, instr_begins h, hp, hn, Bool.false_eq_true, if_false, Bool.not_eq_true', if_pos hr, ends]

/-- ESIG that begins raises a soft event whose route admits the core's compartment. -/
theorem exec_esig_raises (hsoft : n < 256) (hr : bit (m1.route n) 25 = true ∨ fld (m1.route n) 32 16 = (m1.core c).cmpid) :
    exec (.esig c a) s = ends s m1 c [] (.ok ((m1.drainAll c).raiseEvent n)) := by
  have admitted : ¬ (255 < n ∨ (bit (m1.route n) 25 = false ∧ fld (m1.route n) 32 16 ≠ (m1.core c).cmpid)) := by
    rintro (hbig | ⟨hany, hcmp⟩)
    · omega
    · simp [hany, hcmp] at hr
  simp only [exec_esig, esig, instr_begins h, hp, hn, Bool.false_eq_true, if_false, Bool.not_eq_true', if_neg admitted, ends]

end

/-! ### The delivery of an NMI (R207, R208) -/

section
variable (m : Mach) (c : Nat)

/-- What the delivery of an NMI to a core can do: nothing to a core that is OFF; a core that is stopped discards and counts it; a core that
holds one already merges and counts it; any other holds it. -/
theorem deliverNmi_cases :
    ((m.core c).st = .off ∧ m.deliverNmi c = m) ∨
    (((m.core c).st = .stopped ∨ (m.core c).st = .stopping ∨ (m.core c).st = .fatal) ∧
      m.deliverNmi c = m.setCore c { m.core c with nmiLost := min ((m.core c).nmiLost + 1) 0xFFFF }) ∨
    ((m.core c).nmi = true ∧ m.deliverNmi c = m.countReg 0 0 0x658 16 16 1) ∨
    m.deliverNmi c = m.setCore c { m.core c with nmi := true } := by
  cases hst : (m.core c).st with
  | off => exact .inl ⟨rfl, by simp [Mach.deliverNmi, hst]⟩
  | stopped | stopping | fatal => exact .inr (.inl ⟨by simp, by simp [Mach.deliverNmi, hst]⟩)
  | running | waiting | halted =>
    cases hn : (m.core c).nmi with
    | true => exact .inr (.inr (.inl ⟨rfl, by simp [Mach.deliverNmi, hst, hn]⟩))
    | false => exact .inr (.inr (.inr (by simp [Mach.deliverNmi, hst, hn])))

/-- A core that is stopped or FATAL discards an NMI and counts it. -/
theorem deliverNmi_discards (h : (m.core c).st = .stopped ∨ (m.core c).st = .fatal) :
    m.deliverNmi c = m.setCore c { m.core c with nmiLost := min ((m.core c).nmiLost + 1) 0xFFFF } := by
  rcases h with h | h <;> simp [Mach.deliverNmi, h]

variable {c}

/-- An NMI to one core leaves the others. -/
theorem deliverNmi_core_ne {c' : Nat} (h : c' ≠ c) : (m.deliverNmi c).core c' = m.core c' := by
  rcases deliverNmi_cases m c with ⟨-, e⟩ | ⟨-, e⟩ | ⟨-, e⟩ | e <;> simp [e, core_setCore, h]

variable {m}

/-- A core that runs holds the NMI that it is sent. -/
theorem deliverNmi_running (h : (m.core c).st = .running) : ((m.deliverNmi c).core c).nmi = true := by
  rcases deliverNmi_cases m c with ⟨hoff, -⟩ | ⟨hst, -⟩ | ⟨hnmi, e⟩ | e
  · simp [h] at hoff
  · simp [h] at hst
  · rw [e, countReg_core, hnmi]
  · rw [e, core_setCore_self]

/-- A core that holds an NMI holds it after any delivery. -/
theorem deliverNmi_keeps_nmi {c' : Nat} (h : (m.core c').nmi = true) : ((m.deliverNmi c).core c').nmi = true := by
  by_cases hc : c' = c
  · subst hc
    rcases deliverNmi_cases m c' with ⟨-, e⟩ | ⟨-, e⟩ | ⟨-, e⟩ | e <;> simp [e, h]
  · rw [deliverNmi_core_ne m hc, h]

/-- The level that the input last had stays, as only the count of merged NMIs may change in its register. -/
theorem deliverNmi_level : bit ((m.deliverNmi c).reg 0 0 0x658) 32 = bit (m.reg 0 0 0x658) 32 := by
  rcases deliverNmi_cases m c with ⟨-, e⟩ | ⟨-, e⟩ | ⟨-, e⟩ | e <;> rw [e]
  · rw [setCore_reg]
  · exact bit_countReg_outside m (by omega) (by omega)
  · rw [setCore_reg]

end

/-! ### An NMI to every selected core (R207, R341) -/

section
variable {m : Mach} (l : List Nat)

theorem foldl_deliverNmi_level : bit ((l.foldl Mach.deliverNmi m).reg 0 0 0x658) 32 = bit (m.reg 0 0 0x658) 32 := by
  induction l generalizing m with
  | nil => rfl
  | cons x t ih => rw [List.foldl_cons, ih, deliverNmi_level]

variable {l} {c : Nat}

theorem foldl_deliverNmi_keeps_nmi (h : (m.core c).nmi = true) : ((l.foldl Mach.deliverNmi m).core c).nmi = true := by
  induction l generalizing m with
  | nil => exact h
  | cons x t ih => exact ih (deliverNmi_keeps_nmi h)

/-- Every core of the list that runs holds the NMI. -/
theorem foldl_deliverNmi_running (hc : c ∈ l) (hst : (m.core c).st = .running) :
    ((l.foldl Mach.deliverNmi m).core c).nmi = true := by
  induction l generalizing m with
  | nil => exact absurd hc List.not_mem_nil
  | cons x t ih =>
    rw [List.foldl_cons]
    by_cases hx : c = x
    · subst hx
      exact foldl_deliverNmi_keeps_nmi (deliverNmi_running hst)
    · exact ih ((List.mem_cons.mp hc).resolve_left hx) (by rw [deliverNmi_core_ne m hx, hst])

/-- In the running state an NMI goes to the selected V-cores in turn. -/
theorem nmiAll_run (h : m.phase = .run) : m.nmiAll = ((List.range 144).filter m.nmiTarget).foldl Mach.deliverNmi m := by
  rw [List.foldl_filter, Mach.nmiAll, if_neg (by simp [h])]

theorem nmiAll_level : bit (m.nmiAll.reg 0 0 0x658) 32 = bit (m.reg 0 0 0x658) 32 := by
  by_cases h : m.phase = .run
  · rw [nmiAll_run h, foldl_deliverNmi_level]
  · rw [Mach.nmiAll, if_pos h]

/-- A selected V-core that runs holds the NMI. -/
theorem nmiAll_running (h : m.phase = .run) (hc : c < 144) (ht : m.nmiTarget c = true) (hst : (m.core c).st = .running) :
    (m.nmiAll.core c).nmi = true := by
  rw [nmiAll_run h]
  exact foldl_deliverNmi_running (List.mem_filter.mpr ⟨List.mem_range.mpr hc, ht⟩) hst

end

/-! ### The NMI input -/

section
variable {m : Mach}

/-- The machine once the input has gone low: its register counts one more assertion and holds the level. -/
def Mach.nmiLow (m : Mach) : Mach := (m.countReg 0 0 0x658 0 16 1).setRegBit 0 0 0x658 32 true

/-- An input that has not gone high since sends no NMI. -/
theorem nmiAssert_low (h : bit (m.reg 0 0 0x658) 32 = true) : m.nmiAssert = m := if_pos h

/-- An input that was high sends one NMI. -/
theorem nmiAssert_high (h : bit (m.reg 0 0 0x658) 32 = false) : m.nmiAssert = m.nmiLow.nmiAll := by
  rw [Mach.nmiAssert, if_neg (by simp [h]), Mach.nmiLow]

theorem nmiLow_level : bit (m.nmiLow.reg 0 0 0x658) 32 = true := bit_setRegBit_self _ _ (by omega)
@[simp] theorem nmiLow_phase : m.nmiLow.phase = m.phase := rfl
@[simp] theorem nmiLow_core (c : Nat) : m.nmiLow.core c = m.core c := rfl

/-- The selection of the V-cores lies in other registers than the level. -/
theorem nmiLow_nmiTarget {c : Nat} (hc : c < 144) : m.nmiLow.nmiTarget c = m.nmiTarget c := by
  have other : cellKey 0 0 (0x640 + 8 * (c / 64)) ≠ cellKey 0 0 0x658 := by
    unfold cellKey
    omega
  rw [Mach.nmiTarget, Mach.nmiLow, reg_setRegBit_ne _ other, reg_countReg_ne _ other, Mach.nmiTarget]

end

/-! ### The obligation -/

/-- Settles O20: the router's equations, one equation of EWAIT and ESIG per case of what they collect or raise, and the delivery of an NMI
core by core. -/
theorem events : Obligations.Events := by
  refine ⟨⟨?raise, mem_insNat, ?route, ?fire, ?deliver, ?timer⟩, ?instructions, ?low, ?high, ?release, deliverNmi_discards⟩
  case raise =>
    exact fun m n hn => ⟨fun hen hp => by rw [raiseEvent_enabled hn hen hp], raiseEvent_pending hn, raiseEvent_disabled hn⟩
  case route =>
    intro s mst v hcc hv hsec h790
    refine ⟨_, exec_sytEvrRouteWrite s mst v, ?_⟩
    rw [writeRoute_taken hcc hv hsec h790]
    exact ⟨Tab.get_set_self _ _ _ _, fun n hn => Tab.get_set_ne _ _ _ hn, rfl⟩
  case fire => exact fun s mst v h790 hn => by rw [exec_sytEvrFire, fireEvent_raises h790 hn]
  case deliver => exact fun s n hp hen => by rw [exec_eventDelivery, deliverEvent_wakes hp hen]
  case timer => exact fun s c hc => by rw [exec_timerExpires, timerExpires_wakes hc]
  case instructions =>
    exact fun s c d a m1 h hp => ⟨fun e j hc => exec_ewait_collects h d a hp (collect_event hc),
      fun hc hsel ht => exec_ewait_collects h d a hp (collect_timer hc hsel ht),
      fun hc hsel hpoll => exec_ewait_collects h d a hp (collect_poll hc hsel hpoll),
      fun hc hsel hpoll hsome => exec_ewait_waits h d a hp (collect_nothing hc hsel hpoll hsome),
      exec_esig_raises h a hp rfl,
      fun _ hany hcmp => exec_esig_refused h a hp rfl (.inr ⟨hany, hcmp⟩),
      fun hn => exec_esig_refused h a hp rfl (.inl hn)⟩
  case low => exact fun s hlow => by rw [exec_nmiNAssert, nmiAssert_low hlow, withM_self]
  case high =>
    intro s hhigh
    refine ⟨_, exec_nmiNAssert s, ?_⟩
    rw [nmiAssert_high hhigh, nmiAll_level]
    exact ⟨nmiLow_level, fun hrun c hc ht hst => nmiAll_running hrun hc ((nmiLow_nmiTarget hc).trans ht) hst⟩
  case release => exact fun s => ⟨_, exec_nmiNRelease s, bit_setRegBit_self _ _ (by omega), rfl⟩

end Sys2Proof.Machine

/-!
SUPPORT. The fault collector's registers (R335 to R339, R344, R345, R347): what a walk over the sources leaves in each of them, one equation
of each command on an open window, and the fields that an injected value keeps under its two command bits.
-/

namespace Sys2Proof.Machine

/-! ### What the commands do to the machine -/

section
variable (s : State) {mst : Master}

theorem exec_fcPendClear {n : Nat} (v : W64) (hn : n < 8) (h : s.m.Opens mst 0 2 (0x80 + 8 * n)) :
    exec (.fcPendClear mst n v) s = .next (s.withM (s.m.pendClear n v)) := by
  rw [← window_open h fun m => m.pendClear n v]
  exact congrArg (fun t => Host.Outcome.next (s.withM t)) (if_neg (by omega))

theorem exec_fcFeClear (h : s.m.Opens mst 0 2 0x100) : exec (.fcFeClear mst) s = .next (s.withM s.m.feClear) := by
  rw [← window_open h Mach.feClear]
  rfl

theorem exec_fcCaldForce (key : Nat) (h : s.m.Opens mst 0 2 0x1A0) :
    exec (.fcCaldForce mst key) s = .next (s.withM (if key = 0xCA1D then s.m.caldera 3 0 false false else s.m)) := by
  rw [← window_open h fun m => if key = 0xCA1D then m.caldera 3 0 false false else m]
  rfl

theorem exec_fcCfglock (h : s.m.Opens mst 0 2 0x40) : exec (.fcCfglock mst) s = .next (s.withM (s.m.cfgLock true)) := by
  rw [← window_open h fun m => m.cfgLock true]
  rfl

theorem exec_fcInjGo (v : W64) (known : List (Nat × List W64)) (h : s.m.Opens mst 0 2 0x800) :
    exec (.fcInjGo mst v known) s = .next (s.withM (s.m.inject (setBit (setBit v 63 true) 62 false) known)) := by
  rw [← window_open h fun m => m.inject (setBit (setBit v 63 true) 62 false) known]
  rfl

theorem exec_fcInjSelf (v : W64) (h : s.m.Opens mst 0 2 0x800) :
    exec (.fcInjSelf mst v) s = .next (s.withM (s.m.inject (setBit (setBit v 63 true) 62 true) [])) := by
  rw [← window_open h fun m => m.inject (setBit (setBit v 63 true) 62 true) []]
  rfl

theorem exec_collectorSelfFault (kind off : Nat) :
    exec (.collectorSelfFault kind off) s = .next (s.withM (s.m.selfFault kind off false)) := rfl

theorem exec_shadowEnd (st : Nat) :
    exec (.shadowEnd st) s = .next (s.withM { s.m with shadows := s.m.shadows.erase st }) := rfl

end

/-! ### Fields and bits beside a set bit -/

section
variable (v : W64) {lo n i j : Nat} (b : Bool)

/-- Bit `k` of a field. -/
theorem testBit_fld (k : Nat) : (fld v lo n).testBit k = (decide (k < n) && v.getLsbD (lo + k)) := by
  rw [fld, Nat.testBit_mod_two_pow, Nat.testBit_shiftRight, BitVec.testBit_toNat]

/-- A set bit leaves the fields below it. -/
theorem fld_setBit_below (hi : i < 64) (h : lo + n ≤ i) : fld (setBit v i b) lo n = fld v lo n := by
  apply Nat.eq_of_testBit_eq
  intro k
  rw [testBit_fld, testBit_fld]
  by_cases hk : k < n
  · rw [setBit, getLsbD_setFld _ _ _ _ _ (by omega), if_neg (by omega)]
  · simp [hk]

/-- A set bit leaves the other bits. -/
theorem bit_setBit_ne (hj : j < 64) (h : j ≠ i) : bit (setBit v i b) j = bit v j :=
  bit_setFld_outside v _ hj (by omega)

end

/-! ### Walks over the sources -/

/-- A walk over `0` to `n - 1` whose step at `i` changes what `get` reads at `i` by `g i`, and nowhere else, changes it so at each place
below `n`. -/
theorem get_foldl_range {σ α : Type} {step : σ → Nat → σ} {get : σ → Nat → α} {g : Nat → α → α}
    (h : ∀ m i j, get (step m i) j = if j = i then g i (get m i) else get m j) (m : σ) (n j : Nat) :
    get ((List.range n).foldl step m) j = if j < n then g j (get m j) else get m j := by
  induction n generalizing j with
  | zero => simp
  | succ n ih =>
    rw [List.range_succ, List.foldl_append, List.foldl_cons, List.foldl_nil, h, ih n, ih j]
    by_cases hj : j = n
    · simp [hj]
    · simp [hj, show j < n + 1 ↔ j < n by omega]

section
variable (m : Mach) {src : Nat}

/-- A report changes no source's record. -/
@[simp] theorem report_fc (r : Report) (k : Nat) : (m.report r).fc k = m.fc k := rfl

/-- The source is not pending any more; a condition that persists reports it again (R336). -/
def Mach.unpend (m : Mach) (src : Nat) : Mach :=
  let m1 := m.setFc src { m.fc src with pend := false }
  match m1.level src with
  | some r => m1.report r
  | none => m1

/-- A new report waits for its cycle, so a cleared source is not pending even where its condition persists. -/
theorem unpend_fc (k : Nat) : (m.unpend src).fc k = if k = src then { m.fc src with pend := false } else m.fc k := by
  rw [← fc_setFc, Mach.unpend]
  split
  · exact report_fc _ _ _
  · rfl

/-- What bit `i` of a write of FC_PENDn does: a 1 clears a source that is pending. -/
def Mach.pendBit (m : Mach) (n : Nat) (v : W64) (i : Nat) : Mach :=
  if bit v i && (m.fc (64 * n + i)).pend then m.unpend (64 * n + i) else m

theorem pendBit_pend (n : Nat) (v : W64) (i j : Nat) : ((m.pendBit n v i).fc (64 * n + j)).pend =
    if j = i then (m.fc (64 * n + i)).pend && ! bit v i else (m.fc (64 * n + j)).pend := by
  unfold Mach.pendBit
  by_cases hj : j = i
  · subst hj
    cases hv : bit v j <;> cases hp : (m.fc (64 * n + j)).pend <;> simp [hp, unpend_fc]
  · split <;> simp [hj, unpend_fc]

/-- A write of FC_PENDn walks over the sources of its register. -/
theorem pendClear_eq (n : Nat) (v : W64) : m.pendClear n v = (List.range 64).foldl (fun t i => t.pendBit n v i) m := rfl

/-- A source of the register is pending after a write of FC_PENDn when it was and its bit is 0. -/
theorem pendClear_pend (n : Nat) (v : W64) {i : Nat} (hi : i < 64) :
    ((m.pendClear n v).fc (64 * n + i)).pend = ((m.fc (64 * n + i)).pend && ! bit v i) := by
  rw [pendClear_eq, get_foldl_range (get := fun (t : Mach) i => (t.fc (64 * n + i)).pend) (g := fun i p => p && ! bit v i)
    (fun t i j => pendBit_pend t n v i j), if_pos hi]

/-- The source is not marked in ALSO any more. -/
def Mach.unmark (m : Mach) (src : Nat) : Mach :=
  if (m.fc src).also then m.setFc src { m.fc src with also := false } else m

theorem unmark_also (k : Nat) : ((m.unmark src).fc k).also = if k = src then false else (m.fc k).also := by
  unfold Mach.unmark
  split
  · rw [fc_setFc]
    split <;> rfl
  · split <;> simp_all

@[simp] theorem unmark_reg (st k off : Nat) : (m.unmark src).reg st k off = m.reg st k off := by
  unfold Mach.unmark
  split <;> rfl

/-- The first-error record and the ALSO register once they are empty (R335). -/
def Mach.feEmpty (m : Mach) : Mach :=
  ((((m.setReg 0 2 0x100 0).setReg 0 2 0x108 0).setReg 0 2 0x110 0).setReg 0 2 0x118 0).setReg 0 2 0x180 0

theorem feEmpty_reg {off : Nat} (h : off ∈ [0x100, 0x108, 0x110, 0x118, 0x180]) : m.feEmpty.reg 0 2 off = 0 := by
  fin_cases h <;> simp [Mach.feEmpty, reg_setReg_ne, cellKey]

/-- A clear of the record empties its registers and walks over the sources. -/
theorem feClear_eq : m.feClear = (List.range 512).foldl Mach.unmark m.feEmpty := rfl

theorem feClear_reg {off : Nat} (h : off ∈ [0x100, 0x108, 0x110, 0x118, 0x180]) : m.feClear.reg 0 2 off = 0 :=
  foldl_keeps (P := fun t => t.reg 0 2 off = 0) _ _ (feEmpty_reg m h) fun t ht _ => (unmark_reg t 0 2 off).trans ht

theorem feClear_also (h : src < 512) : (m.feClear.fc src).also = false := by
  rw [feClear_eq, get_foldl_range (get := fun (m : Mach) k => (m.fc k).also) (g := fun _ _ => false) (fun t i k => unmark_also t k),
    if_pos h]

end

/-! ### The lock of the reactions (R345) -/

section
variable {m : Mach}

/-- The first write of FC_CTRL since reset holds the lock that it names. -/
theorem cfgLock_first (h : bit (m.reg 0 2 0x40) 1 = false) (v : Bool) : bit ((m.cfgLock v).reg 0 2 0x40) 0 = v := by
  rw [Mach.cfgLock, if_neg (by simp [h]), reg_setReg_self, bit_setBit_ne _ _ (by omega) (by omega), bit_setBit_self _ _ (by omega)]

/-- Under the lock a write of FC_SRC_CFG changes nothing. -/
theorem srcCfgWrite_locked (h : bit (m.reg 0 2 0x40) 0 = true) (v : W64) : m.srcCfgWrite v = m := if_pos (.inl h)

end

/-! ### Injection and the collector's own fault (R339, R347) -/

section
variable {m : Mach} (v : W64) (known : List (Nat × List W64))

/-- Without the expert page a write of FC_INJ is ignored. -/
theorem inject_closed (h : (m.blk 0 2).lock ≠ 2) : m.inject v known = m := if_pos h

variable (h : (m.blk 0 2).lock = 2)
include h

/-- A write of FC_INJ with GO and SELF injects the collector's own fault. -/
theorem inject_self (hgo : bit v 63 = true) (hself : bit v 62 = true) :
    m.inject v known = (m.setReg 0 2 0x800 (v &&& injMask)).selfFault 0 0x800 true := by
  simp [Mach.inject, h, hgo, hself]

/-- A write of FC_INJ with GO alone is a collector cycle of the occurrence that the value and FC_INJ_ADDR describe. -/
theorem inject_cycle (hgo : bit v 63 = true) (hself : bit v 62 = false) :
    m.inject v known =
      let a := m.reg 0 2 0x808
      (m.setReg 0 2 0x800 (v &&& injMask)).cycle
        [⟨⟨fld v 0 9, if bit a 63 then some (fld a 0 52) else none, fld v 16 6, fld v 24 6, some (fld v 32 4)⟩, true, bit v 36⟩] known := by
  simp [Mach.inject, h, hgo, hself]

end

/-- A mismatch or an uncorrectable copy is recorded and enters the Caldera state with cause 2. -/
theorem selfFault_caldera {m : Mach} {kind : Nat} (hk : kind < 2) (h : m.phase ≠ .caldera) (off : Nat) (inj : Bool) :
    m.selfFault kind off inj = (m.setReg 0 2 0x1A8 (setFld (setBit (setBit (setBit (m.reg 0 2 0x1A8) 0 (decide (kind = 0)))
      1 (decide (kind = 1))) 2 inj) 16 12 off)).caldera 2 0 false inj := by
  rw [Mach.selfFault, if_neg (by omega), if_neg h]

/-- A corrected copy is counted. -/
theorem selfFault_corrected {kind : Nat} (hk : 2 ≤ kind) (m : Mach) (off : Nat) (inj : Bool) :
    m.selfFault kind off inj = m.countReg 0 2 0x1A8 32 16 1 := if_pos hk

/-! ### The obligation -/

/-- Settles O38: each command reaches its register through the open window, and the register's own lemma says what it leaves. -/
theorem collectorCommands : Obligations.CollectorCommands := by
  refine ⟨?pend, ?record, ?force, ?lock, ?injection, ?own, exec_shadowEnd⟩
  case pend => exact fun s mst n v hn h => ⟨_, exec_fcPendClear s v hn h, fun i => pendClear_pend s.m n v⟩
  case record =>
    exact fun s mst h => ⟨_, exec_fcFeClear s h, feClear_reg _ (by simp), feClear_reg _ (by simp), feClear_reg _ (by simp),
      feClear_reg _ (by simp), feClear_reg _ (by simp), fun src => feClear_also s.m⟩
  case force =>
    intro s mst key h
    rw [exec_fcCaldForce s key h]
    exact ⟨fun hkey => by rw [if_pos hkey], fun hkey => by rw [if_neg hkey, withM_self]⟩
  case lock =>
    intro s mst h hfirst
    have locked := cfgLock_first hfirst true
    exact ⟨_, exec_fcCfglock s h, locked, srcCfgWrite_locked locked⟩
  case injection =>
    intro s mst v known h m1 m2 a addr
    refine ⟨fun hx => ?go, fun hx => ?self, fun hx => ⟨?goClosed, ?selfClosed⟩⟩
    case go =>
      have address : a = s.m.reg 0 2 0x808 := reg_setReg_ne _ _ (by decide)
      rw [exec_fcInjGo s v known h, inject_cycle _ _ hx (by simp [bit_setBit_ne, bit_setBit_self]) (bit_setBit_self _ _ (by omega))]
      simp [address, addr, m1, fld_setBit_below, bit_setBit_ne]
    case self =>
      rw [exec_fcInjSelf s v h, inject_self _ _ hx (by simp [bit_setBit_ne, bit_setBit_self]) (bit_setBit_self _ _ (by omega))]
    case goClosed => rw [exec_fcInjGo s v known h, inject_closed _ _ hx, withM_self]
    case selfClosed => rw [exec_fcInjSelf s v h, inject_closed _ _ hx, withM_self]
  case own =>
    exact fun s kind off => ⟨fun hk hp => by rw [exec_collectorSelfFault, selfFault_caldera hk hp],
      fun hk => by rw [exec_collectorSelfFault, selfFault_corrected hk]⟩

end Sys2Proof.Machine

/-!
SUPPORT. The queue and the state after reset: what a step takes from the queue, that every command answers a next state with the same
queue, and what a power-on reset leaves.
-/

namespace Sys2Proof.Machine

/-- Settles O1: a step looks at the front of the queue alone. -/
theorem commandsRun : Obligations.CommandsRun :=
  ⟨fun _ _ _ => rfl, fun s h => by rw [step, h]⟩

/-- Settles O2: every arm of the dispatch is an update of the machine. -/
theorem everyCommandCompletes : Obligations.EveryCommandCompletes := by
  intro c s
  cases c
  all_goals exact ⟨_, rfl⟩

/-- Every general register reads zero after reset. -/
theorem g_reset (c r : Nat) : Mach.reset.g c r = .zero := by
  unfold Mach.g
  split <;> rfl

/-- Settles O4: each clause reads a cell that reset leaves at its initial value. -/
theorem resetMachine : Obligations.ResetMachine :=
  ⟨⟨rfl, rfl, rfl, rfl, fun _ => rfl, fun _ => rfl, g_reset, fun _ => rfl, fun _ _ => ⟨rfl, rfl⟩, fun _ => rfl, rfl, rfl, rfl,
    fun _ => ⟨rfl, rfl⟩, fun _ => rfl⟩, reset_canon⟩

end Sys2Proof.Machine

/-!
SUPPORT. The results of the integer instructions of one register source, of CSEL and of the immediate forms (R77, R79).
-/

namespace Sys2Proof.Machine

/-- The next state of a command that is an update of the machine. -/
theorem exec_of_upd {i : Instr} {s : State} {f : Mach → Mach} {t : Mach} (hi : exec i s = s.upd f) (hf : f s.m = t) :
    exec i s = .next (s.withM t) := by
  rw [hi, upd_eq, hf]

/-! ### Sign and zero extension -/

/-- A bit of a sign-extended field of `n` bits. -/
theorem getLsbD_sextN {n j : Nat} (v : W64) (h0 : 0 < n) (hn : n ≤ 64) (hj : j < 64) :
    (sextN n v).getLsbD j = v.getLsbD (min j (n - 1)) := by
  simp only [sextN, BitVec.getLsbD_sshiftRight, BitVec.getLsbD_shiftLeft, BitVec.msb_eq_getLsbD_last]
  by_cases h : j < n
  · have : 64 - n + j < 64 ∧ min j (n - 1) = j := by omega
    simp [this, hj]
  · have : ¬ 64 - n + j < 64 ∧ min j (n - 1) = 63 - (64 - n) ∧ ¬ 63 < 64 - n := by omega
    simp [this, show ¬ 64 ≤ j by omega]

/-- A bit of a zero-extended field of `n` bits. -/
theorem getLsbD_zextN {n j : Nat} (v : W64) (hn : n ≤ 64) :
    (zextN n v).getLsbD j = (decide (j < n) && v.getLsbD j) := by
  simp only [zextN, BitVec.getLsbD_ushiftRight, BitVec.getLsbD_shiftLeft]
  by_cases h : j < n
  · simp [h, show 64 - n + j < 64 by omega]
  · simp [h, show ¬ 64 - n + j < 64 by omega]

/-- Sign extension by shifts is sign extension of the truncated word. -/
theorem sextN_eq {n : Nat} (v : W64) (h0 : 0 < n) (hn : n < 64) : sextN n v = (v.setWidth n).signExtend 64 := by
  apply BitVec.eq_of_getLsbD_eq
  intro j hj
  rw [getLsbD_sextN v h0 hn.le hj, BitVec.getLsbD_signExtend, BitVec.msb_eq_getLsbD_last]
  by_cases h : j < n
  · simp [h, hj, show min j (n - 1) = j by omega]
  · simp [h, hj, show min j (n - 1) = n - 1 by omega, h0]

/-- Zero extension by shifts is zero extension of the truncated word. -/
theorem zextN_eq {n : Nat} (v : W64) (hn : n ≤ 64) : zextN n v = (v.setWidth n).setWidth 64 := by
  apply BitVec.eq_of_getLsbD_eq
  intro j hj
  simp only [getLsbD_zextN v hn, BitVec.getLsbD_setWidth, hj, decide_true, Bool.true_and]

/-! ### One register source -/

/-- The instruction `i` is the operation `f` on one register source. -/
def IsAlu1 (i : Nat → BitVec 6 → BitVec 6 → Instr) (f : W64 → W64) : Prop :=
  ∀ c d a s, exec (i c d a) s = s.upd (alu1 c d a f)

theorem IsAlu1.congr {i : Nat → BitVec 6 → BitVec 6 → Instr} {f g : W64 → W64} (h : IsAlu1 i f) (hfg : ∀ x, f x = g x) :
    IsAlu1 i g := by
  obtain rfl : f = g := funext hfg
  exact h

/-- An instruction of one register source that begins has one next state. -/
theorem IsAlu1.exec_begins {i : Nat → BitVec 6 → BitVec 6 → Instr} {f : W64 → W64} (hi : IsAlu1 i f) {s : State} {c : Nat} {m1 : Mach}
    (h : s.m.Begins c m1) (d a : BitVec 6) :
    exec (i c d a) s = .next (s.withM (m1.finish c [] (.ok (m1.setG c d.toNat
      ⟨f (m1.g c a.toNat).data, false, (m1.g c a.toNat).poison, 0⟩)))) := by
  rw [hi, upd_eq, alu1_begins h]

/-- Every instruction of the table computes the payload that the table gives it. -/
theorem oneSourceTable_isAlu1 : ∀ p ∈ oneSourceTable, IsAlu1 p.1 p.2 := by
  simp only [oneSourceTable, List.forall_mem_cons, List.not_mem_nil, false_imp_iff, implies_true, and_true]
  refine ⟨?clz, ?ctz, ?popc, ?bswap, ?sextb, ?sexth, ?sextw, ?zextw⟩
  case sextb => exact IsAlu1.congr (fun _ _ _ _ => rfl) fun x => sextN_eq x (by decide) (by decide)
  case sexth => exact IsAlu1.congr (fun _ _ _ _ => rfl) fun x => sextN_eq x (by decide) (by decide)
  case sextw => exact IsAlu1.congr (fun _ _ _ _ => rfl) fun x => sextN_eq x (by decide) (by decide)
  case zextw => exact IsAlu1.congr (fun _ _ _ _ => rfl) fun x => zextN_eq x (by decide)
  all_goals exact fun _ _ _ _ => rfl

/-! ### Immediate forms -/

/-- A signed comparison with a sign-extended immediate is one with the immediate. -/
theorem opSlt_imm64 (x : W64) (i : BitVec 14) : opSlt x (imm64 i) = if x.toInt < i.toInt then 1 else 0 := by
  rw [opSlt_eq, imm64, BitVec.toInt_signExtend_of_le (by decide)]

/-- Every immediate form computes the payload that the table gives it. -/
theorem immediateTable_isAlu1 : ∀ p ∈ immediateTable, ∀ i, IsAlu1 (fun c d a => p.1 c d a i) (p.2 i) := by
  simp only [immediateTable, List.forall_mem_cons, List.not_mem_nil, false_imp_iff, implies_true, and_true]
  refine ⟨?addi, ?andi, ?ori, ?xori, ?slti, ?sltiu, ?oris⟩
  case slti => exact fun i => IsAlu1.congr (fun _ _ _ _ => rfl) fun x => opSlt_imm64 x i
  case sltiu => exact fun i => IsAlu1.congr (fun _ _ _ _ => rfl) fun x => opSltu_eq x (imm64 i)
  all_goals exact fun _ _ _ _ _ => rfl

/-- One register source in a form that may be ILLEGAL (R75). -/
theorem alu1If_begins {m m1 : Mach} {c : Nat} (h : m.Begins c m1) (legal : Bool) (d a : BitVec 6) (f : W64 → W64) :
    alu1If legal c d a f m = m1.finish c [] (if legal then .ok (m1.setG c d.toNat
      ⟨f (m1.g c a.toNat).data, false, (m1.g c a.toNat).poison, 0⟩) else .trap (m1.illegal c 0)) := by
  rw [alu1If, instr_begins h]
  cases legal <;> rfl

/-- A field of an immediate as a number. -/
theorem extractLsb'_eq_iff {n k : Nat} (i : BitVec 14) (lo : Nat) (hk : k < 2 ^ n) :
    i.extractLsb' lo n = BitVec.ofNat n k ↔ i.toNat / 2 ^ lo % 2 ^ n = k := by
  rw [BitVec.toNat_eq, BitVec.extractLsb'_toNat, Nat.shiftRight_eq_div_pow, BitVec.toNat_ofNat, Nat.mod_eq_of_lt hk]

/-- The bits of SHIFTI that must be 0. -/
theorem shifti_legal (i : BitVec 14) : i.toNat / 64 % 64 = 0 ↔ i.extractLsb' 6 6 = 0 :=
  (extractLsb'_eq_iff (n := 6) i 6 (by decide)).symm

/-- SHIFTI as its selector and its amount give it. -/
theorem opShifti_eq (i : BitVec 14) (x : W64) :
    opShifti i x = (let n := (i.extractLsb' 0 6).toNat
      if i.extractLsb' 12 2 = 0 then x <<< n else if i.extractLsb' 12 2 = 1 then x >>> n
      else if i.extractLsb' 12 2 = 2 then x.sshiftRight n else x.rotateRight n) := by
  have amount : sh6 (BitVec.ofNat 64 (i.toNat % 64)) = (i.extractLsb' 0 6).toNat := by
    rw [sh6_eq, BitVec.extractLsb'_toNat, BitVec.toNat_ofNat]
    simp only [Nat.shiftRight_zero]
    omega
  have sel : i.toNat / 4096 < 4 := by have := i.isLt; omega
  have is (k : Nat) (hk : k < 4) : i.extractLsb' 12 2 = BitVec.ofNat 2 k ↔ i.toNat / 4096 = k := by
    rw [extractLsb'_eq_iff i 12 hk]
    omega
  simp only [opShifti, opShl, opShr, opSra, opRor, amount]
  have is0 := is 0 (by decide)
  have is1 := is 1 (by decide)
  have is2 := is 2 (by decide)
  generalize i.toNat / 4096 = k at sel is0 is1 is2
  simp only [BitVec.ofNat_eq_ofNat, is0, is1, is2]
  interval_cases k <;> rfl

/-- A bit of the result of BFX. -/
theorem getLsbD_opBfx (i : BitVec 14) (x : W64) {j : Nat} (hj : j < 64) :
    (opBfx i x).getLsbD j =
      (let lo := (i.extractLsb' 6 6).toNat
       let w := min ((i.extractLsb' 0 6).toNat + 1) (64 - lo)
       if j < w then x.getLsbD (lo + j) else i.getLsbD 12 && x.getLsbD (lo + w - 1)) := by
  have hlo : (i.extractLsb' 6 6).toNat = i.toNat / 64 % 64 := by simp [Nat.shiftRight_eq_div_pow]
  have hw : (i.extractLsb' 0 6).toNat = i.toNat % 64 := by simp
  simp only [opBfx, hlo, hw]
  have hlo64 : i.toNat / 64 % 64 < 64 := Nat.mod_lt _ (by decide)
  generalize i.toNat / 64 % 64 = lo at hlo64
  have hw64 : 0 < min (i.toNat % 64 + 1) (64 - lo) ∧ lo + min (i.toNat % 64 + 1) (64 - lo) ≤ 64 := by omega
  generalize min (i.toNat % 64 + 1) (64 - lo) = w at hw64
  have field (k : Nat) (hk : k < 64) : (BitVec.ofNat 64 (fld x lo w)).getLsbD k = (decide (k < w) && x.getLsbD (lo + k)) := by
    simp only [fld, BitVec.getLsbD_ofNat, hk, decide_true, Bool.true_and, Nat.testBit_mod_two_pow, Nat.testBit_shiftRight,
      BitVec.testBit_toNat]
  cases i.getLsbD 12 with
  | false =>
    rw [if_neg Bool.false_ne_true, field j hj]
    by_cases h : j < w <;> simp [h]
  | true =>
    rw [if_pos rfl, getLsbD_sextN _ (by omega) (by omega) hj, field _ (by omega)]
    by_cases h : j < w
    · simp [h, show min j (w - 1) = j by omega]
    · simp [h, show min j (w - 1) = w - 1 by omega, show lo + (w - 1) = lo + w - 1 by omega, hw64.1]

/-! ### The obligation -/

/-- Settles O7: an instruction of a table is its operation on one register source, which retires with its payload when it begins. -/
theorem integerOneSourceResults : Obligations.IntegerOneSourceResults := by
  refine ⟨⟨fun p hp s c d a m1 h => (oneSourceTable_isAlu1 p hp).exec_begins h d a,
    fun p hp s c d a i m1 h => (immediateTable_isAlu1 p hp i).exec_begins h d a,
    fun s c d a b m1 h => ?csel, fun s c d a i m1 h => ?shifti, fun s c d a i m1 h => ?bfx⟩,
    fun i x j hj => getLsbD_opBfx i x hj⟩
  case csel => exact exec_of_upd rfl (alu3_begins h d a b (fun z x y => if z ≠ 0 then x else y))
  case shifti =>
    refine exec_of_upd rfl ((alu1If_begins h _ d a (opShifti i)).trans ?_)
    simp only [shifti_legal, opShifti_eq, decide_eq_true_eq, ne_eq, ite_not]
  case bfx =>
    refine exec_of_upd rfl ((alu1If_begins h _ d a (opBfx i)).trans ?_)
    cases i.getLsbD 13 <;> rfl

end Sys2Proof.Machine

/-!
SUPPORT. The results of the floating-point conversions and the fields of FCSR (R72, R92).
-/

namespace Sys2Proof.Machine

/-! ### Instructions that begin -/

section
variable {m m1 : Mach} {c : Nat} (h : m.Begins c m1) (d a : BitVec 6)
include h

/-- A conversion. -/
theorem fpFrom_begins (op : Nat → W64 → Nat × Flags) :
    fpFrom c d a op m = fpEnd m1 c d (op (fcsrRm (m1.core c).fcsr) (m1.g c a.toNat).data) (m1.g c a.toNat).poison :=
  instr_begins h _ _

end

section
variable {s : State} {c : Nat} {m1 : Mach} (h : s.m.Begins c m1) (d a : BitVec 6)
include h

/-- Every conversion to a pattern completes with the operation that the table gives it. -/
theorem fpConvertTable_exec : ∀ p ∈ fpConvertTable,
    exec (p.1 c d a) s = .next (s.withM (fpEnd m1 c d (p.2 (fcsrRm (m1.core c).fcsr) (m1.g c a.toNat).data)
      (m1.g c a.toNat).poison)) := by
  simp only [fpConvertTable, List.forall_mem_cons, List.not_mem_nil, false_imp_iff, implies_true, and_true]
  refine ⟨?dl, ?dlu, ?sl, ?slu, ?sd, ?ds, ?hs, ?sh, ?bs, ?sb⟩
  all_goals exact exec_of_upd rfl (fpFrom_begins h d a _)

/-- Every conversion to an integer completes with the number that lies in the range of the table. -/
theorem fpToIntTable_exec : ∀ p ∈ fpToIntTable,
    let r := Fp.toInt (fcsrRm (m1.core c).fcsr) p.2.2.1 p.2.2.2 (Fp.unpack p.2.1 (fld (m1.g c a.toNat).data 0 p.2.1.width))
    exec (p.1 c d a) s = .next (s.withM (fpEnd m1 c d ((BitVec.ofInt 64 r.1).toNat, r.2) (m1.g c a.toNat).poison)) := by
  simp only [fpToIntTable, List.forall_mem_cons, List.not_mem_nil, false_imp_iff, implies_true, and_true]
  refine ⟨?ld, ?lud, ?ls, ?lus⟩
  all_goals exact exec_of_upd rfl (fpFrom_begins h d a _)

end

/-! ### Conversions to an integer (R92) -/

/-- A conversion to an integer saturates to its range. -/
theorem fpToInt_range (rm : Nat) {lo hi : Int} (h : lo ≤ hi) (v : Fp.Val) :
    lo ≤ (Fp.toInt rm lo hi v).1 ∧ (Fp.toInt rm lo hi v).1 ≤ hi := by
  cases v with
  | nan q => exact ⟨h, le_rfl⟩
  | inf s => cases s <;> simp [Fp.toInt, h]
  | fin s m e =>
    simp only [Fp.toInt]
    generalize (if s then -((Fp.cut rm s m e 0).1 : Int) else (Fp.cut rm s m e 0).1) = v
    by_cases h1 : v < lo
    · simp [h1, h]
    · by_cases h2 : hi < v
      · simp [h1, h2, h]
      · simp [h1, h2, Int.not_lt.mp h1, Int.not_lt.mp h2]

/-- No range of the table is empty. -/
theorem fpToIntTable_range : ∀ p ∈ fpToIntTable, p.2.2.1 ≤ p.2.2.2 := by
  simp [fpToIntTable]

/-! ### FCSR (R72) -/

/-- The flags lie above the rounding mode. -/
theorem flags_bits_low (x : Flags) : fld x.bits 0 3 = 0 := by
  simp [Flags.bits, fld_setBit_below]
  rfl

/-- Flags are sticky. -/
theorem accrue_sticky (old : W64) (x : Flags) : accrue old x &&& old = old := by
  apply BitVec.eq_of_getLsbD_eq
  intro i hi
  simp only [accrue, BitVec.getLsbD_and, BitVec.getLsbD_or]
  cases old.getLsbD i <;> simp

/-- Flags leave the rounding mode. -/
theorem fcsrRm_accrue (old : W64) (x : Flags) : fcsrRm (accrue old x) = fcsrRm old := by
  apply Nat.eq_of_testBit_eq
  intro k
  have low : (fld x.bits 0 3).testBit k = false := by rw [flags_bits_low]; exact Nat.zero_testBit k
  simp only [fcsrRm, testBit_fld, accrue, BitVec.getLsbD_or] at low ⊢
  rw [Bool.and_or_distrib_left, low, Bool.or_false]

/-- A bit of FCSR after a write: RM keeps its value where the written one is no rounding mode, and the bits above the flags are 0. -/
theorem getLsbD_writeFcsr (old v : W64) {i : Nat} (hi : i < 64) :
    (writeFcsr old v).getLsbD i = if fld v 0 3 ≤ 4 ∨ 3 ≤ i then decide (i < 8) && v.getLsbD i else old.getLsbD i := by
  have written : (setFld 0 0 8 (fld v 0 8)).getLsbD i = (decide (i < 8) && v.getLsbD i) := by
    rw [getLsbD_setFld _ _ _ _ _ hi, testBit_fld]
    by_cases h : i < 8
    · simp only [Nat.zero_le, h, Nat.sub_zero, decide_true, Bool.true_and, Nat.zero_add, and_self, if_true]
    · simp only [h, Nat.zero_add, and_false, if_false, decide_false, Bool.false_and, BitVec.ofNat_eq_ofNat, BitVec.getLsbD_zero]
  simp only [writeFcsr]
  by_cases h : fld v 0 3 ≤ 4
  · rw [if_pos h, if_pos (.inl h), written]
  · rw [if_neg h, getLsbD_setFld _ _ _ _ _ hi, fcsrRm, testBit_fld, written]
    by_cases h3 : i < 3
    · rw [if_pos (by omega), if_neg (by omega), decide_eq_true (by omega : i - 0 < 3), Bool.true_and, Nat.zero_add, Nat.sub_zero]
    · rw [if_neg (by omega), if_pos (by omega)]

/-- RM after a write. -/
theorem fcsrRm_writeFcsr (old v : W64) :
    fcsrRm (writeFcsr old v) = if fld v 0 3 ≤ 4 then fld v 0 3 else fcsrRm old := by
  apply Nat.eq_of_testBit_eq
  intro k
  rw [apply_ite (Nat.testBit · k)]
  simp only [fcsrRm, testBit_fld, Nat.zero_add]
  by_cases hk : k < 3
  · rw [getLsbD_writeFcsr _ _ (by omega)]
    by_cases h : fld v 0 3 ≤ 4
    · simp only [h, true_or, if_true, decide_eq_true (show k < 8 by omega), Bool.true_and]
    · simp only [h, show ¬ 3 ≤ k by omega, or_self, if_false]
  · simp [hk]

/-- Bits above the flags stay 0. -/
theorem writeFcsr_reserved (old v : W64) {i : Nat} (h : 8 ≤ i) : bit (writeFcsr old v) i = false := by
  by_cases hi : i < 64
  · rw [bit, getLsbD_writeFcsr _ _ hi, if_pos (.inr (by omega)), decide_eq_false (by omega), Bool.false_and]
  · exact BitVec.getLsbD_of_ge _ _ (by omega)

/-! ### The obligation -/

/-- Settles O10: every conversion completes with its operation, one to an integer lies in its range, and FCSR is read field by field. -/
theorem floatConversions : Obligations.FloatConversions := by
  refine ⟨fun s c d a m1 h => ⟨fpConvertTable_exec h d a, fun p hp => ⟨fpToIntTable_exec h d a p hp,
    fpToInt_range _ (fpToIntTable_range p hp) _⟩⟩, fun old v x => ⟨accrue_sticky old x, fcsrRm_accrue old x, fun hv => ?_, fun hv => ?_,
      fun i hi => writeFcsr_reserved old v hi⟩⟩
  · rw [fcsrRm_writeFcsr, if_pos hv]
  · rw [fcsrRm_writeFcsr, if_neg (by omega)]

end Sys2Proof.Machine

/-!
SUPPORT. Properties of a machine that operations keep: what it means for a result that carries a machine.
-/

namespace Sys2Proof.Machine

/-- A property of what an operation answers, where it answers. -/
def OkAll {ε α : Type} (Q : α → Prop) : Except ε α → Prop
  | .ok a => Q a
  | .error _ => True

/-- A property of what a partial operation gives, where it gives something. -/
def SomeAll {α : Type} (Q : α → Prop) : Option α → Prop
  | some a => Q a
  | none => True

/-- What follows from the property of an answer holds where the operation answers. -/
theorem OkAll.elim {ε α : Type} {Q : α → Prop} {R : Prop} {e : Except ε α} {a : α} (he : e = .ok a) (h : OkAll Q e) (hR : Q a → R) : R := by
  subst he
  exact hR h

theorem SomeAll.elim {α : Type} {Q : α → Prop} {R : Prop} {o : Option α} {a : α} (ho : o = some a) (h : SomeAll Q o) (hR : Q a → R) :
    R := by
  subst ho
  exact hR h

/-- The machine that the end of an instruction carries is canonical. -/
def ResCanon : Res → Prop
  | .ok m => m.MemCanon
  | .jump m _ _ => m.MemCanon
  | .wait m => m.MemCanon
  | .trap _ => True

/-- A machine with the memory and the metadata of a canonical one. -/
theorem of_parts_canon {m t : Mach} (h : m.MemCanon) (hmem : t.mem = m.mem) (hmeta : t.mmeta = m.mmeta) : t.MemCanon := by
  obtain ⟨h1, h2⟩ := h
  exact ⟨hmem ▸ h1, hmeta ▸ h2⟩

theorem of_snd_canon {α : Type} {p : α × Mach} {a : α} {t : Mach} (he : p = (a, t)) (h : p.2.MemCanon) : t.MemCanon := by
  subst he
  exact h

theorem of_fst_canon {α : Type} {p : Mach × α} {a : α} {t : Mach} (he : p = (t, a)) (h : p.1.MemCanon) : t.MemCanon := by
  subst he
  exact h

theorem of_snd_snd_canon {α β : Type} {p : α × β × Mach} {a : α} {b : β} {t : Mach} (he : p = (a, b, t)) (h : p.2.2.MemCanon) :
    t.MemCanon := by
  subst he
  exact h

theorem ite_canon {p : Prop} [Decidable p] {m t : Mach} (hm : m.MemCanon) (ht : t.MemCanon) : (if p then m else t).MemCanon := by
  split
  · exact hm
  · exact ht

theorem Res.ok_canon {m : Mach} (h : m.MemCanon) : ResCanon (.ok m) := h
theorem Res.wait_canon {m : Mach} (h : m.MemCanon) : ResCanon (.wait m) := h
theorem Res.jump_canon {m : Mach} {p : Word} {l : Bool} (h : m.MemCanon) : ResCanon (.jump m p l) := h

end Sys2Proof.Machine

/-!
SUPPORT. Operations keep memory and its metadata in canonical form: memory and its metadata, the state that blocks share, caches and directory, translation, checked accesses, upsets and their correction, the course of an instruction, flags, gates, system instructions.
-/

namespace Sys2Proof.Machine

/-! ### Canonical memory: memory and its metadata -/

theorem setReg_canon {m : Mach} (st k off : Nat) (v : W64) (h : m.MemCanon) : (m.setReg st k off v).MemCanon := of_parts_canon h rfl rfl

theorem setRegFld_canon {m : Mach} (st k off lo n x : Nat) (h : m.MemCanon) : (m.setRegFld st k off lo n x).MemCanon :=
  setReg_canon _ _ _ _ h

theorem setRegBit_canon {m : Mach} (st k off i : Nat) (b : Bool) (h : m.MemCanon) : (m.setRegBit st k off i b).MemCanon :=
  setReg_canon _ _ _ _ h

theorem countReg_canon {m : Mach} (st k off lo n by_ : Nat) (h : m.MemCanon) : (m.countReg st k off lo n by_).MemCanon :=
  setRegFld_canon _ _ _ _ _ _ h

theorem setBlk_canon {m : Mach} (st k : Nat) (b : BlkState) (h : m.MemCanon) : (m.setBlk st k b).MemCanon := of_parts_canon h rfl rfl

theorem setCore_canon {m : Mach} (c : Nat) (x : Core) (h : m.MemCanon) : (m.setCore c x).MemCanon := of_parts_canon h rfl rfl

theorem initRegion_canon {m : Mach} (c ca : Nat) (h : m.MemCanon) : (m.initRegion c ca).MemCanon := ite_canon h (of_parts_canon h rfl rfl)

theorem touchDram_canon {m : Mach} (a : Nat) (h : m.MemCanon) : (m.touchDram a).MemCanon := by
  dsimp only [Mach.touchDram]
  split
  · exact initRegion_canon _ _ h
  · exact foldl_keeps (P := Mach.MemCanon) _ _ (initRegion_canon _ _ h) (fun _ hb _ => initRegion_canon _ _ hb)
  · exact h

theorem putWordsAt_canon (ws : List Word) (a : Nat) {m : Mach} (h : m.MemCanon) : (putWordsAt ws a m).MemCanon := by
  induction ws generalizing a m with
  | nil => exact h
  | cons w ws ih => exact ih _ (putWord_canon _ _ _ _ h)

theorem drawn_canon {m : Mach} (h : m.MemCanon) : m.drawn.MemCanon := of_parts_canon h rfl rfl

/-! ### Canonical memory: the state that blocks share -/

theorem report_canon {m : Mach} (r : Report) (h : m.MemCanon) : (m.report r).MemCanon := of_parts_canon h rfl rfl

theorem raiseSrc_canon {m : Mach} (st off : Nat) (addr : Option Nat) (mstop munit : Nat) (acc : Option Acc) (h : m.MemCanon) :
    (m.raiseSrc st off addr mstop munit acc).MemCanon :=
  report_canon _ h

theorem raiseOwn_canon {m : Mach} (st off : Nat) (addr : Option Nat) (h : m.MemCanon) : (m.raiseOwn st off addr).MemCanon :=
  raiseSrc_canon _ _ _ _ _ _ h

theorem logViol_canon {m : Mach} (st k : Nat) (v : Viol) (h : m.MemCanon) : (m.logViol st k v).MemCanon :=
  raiseSrc_canon _ _ _ _ _ _ (setBlk_canon _ _ _ h)

theorem raiseEvent_canon {m : Mach} (n : Nat) (h : m.MemCanon) : (m.raiseEvent n).MemCanon := by
  dsimp only [Mach.raiseEvent]
  split
  · exact h
  · split
    · exact countReg_canon _ _ _ _ _ _ h
    · exact ite_canon (countReg_canon _ _ _ _ _ _ h) (of_parts_canon h rfl rfl)

theorem raiseAssigned_canon {m : Mach} (n : Nat) (h : m.MemCanon) : (m.raiseAssigned n).MemCanon := ite_canon (raiseEvent_canon _ h) h

theorem bumpCount_canon {m : Mach} (st k ctrl ovf cnt i by_ : Nat) (h : m.MemCanon) : (m.bumpCount st k ctrl ovf cnt i by_).MemCanon := by
  dsimp only [Mach.bumpCount]
  split
  · exact setRegFld_canon _ _ _ _ _ _ h
  · split
    · refine raiseAssigned_canon _ (ite_canon (setRegBit_canon _ _ _ _ _ (setRegBit_canon _ _ _ _ _ (setRegFld_canon _ _ _ _ _ _ h)))
        (setRegBit_canon _ _ _ _ _ (setRegFld_canon _ _ _ _ _ _ h)))
    · exact ite_canon (setRegBit_canon _ _ _ _ _ (setRegBit_canon _ _ _ _ _ (setRegFld_canon _ _ _ _ _ _ h)))
        (setRegBit_canon _ _ _ _ _ (setRegFld_canon _ _ _ _ _ _ h))

theorem countAs_canon {m : Mach} (c : Nat) (wd : World) (cmpid e by_ : Nat) (h : m.MemCanon) : (m.countAs c wd cmpid e by_).MemCanon := by
  dsimp only [Mach.countAs]
  split
  · exact h
  · exact foldl_keeps (P := Mach.MemCanon) _ _ h (fun _ hb _ => ite_canon (bumpCount_canon _ _ _ _ _ _ _ hb) hb)

theorem countCore_canon {m : Mach} (c e by_ : Nat) (h : m.MemCanon) : (m.countCore c e by_).MemCanon := countAs_canon _ _ _ _ _ h

theorem countEvents_canon {m : Mach} (c : Nat) (wd : World) (cmpid : Nat) (es : List Nat) (h : m.MemCanon) :
    (m.countEvents c wd cmpid es).MemCanon :=
  foldl_keeps (P := Mach.MemCanon) _ _ h (fun _ hb _ => countAs_canon _ _ _ _ _ hb)

theorem countUncore_canon {m : Mach} (st : Nat) (u : UncoreEv) (by_ : Nat) (h : m.MemCanon) : (m.countUncore st u by_).MemCanon := by
  dsimp only [Mach.countUncore]
  split
  · exact h
  · exact foldl_keeps (P := Mach.MemCanon) _ _ h (fun _ hb _ => ite_canon (bumpCount_canon _ _ _ _ _ _ _ hb) hb)

theorem clearBank_canon {m : Mach} (st : Nat) (h : m.MemCanon) : (m.clearBank st).MemCanon :=
  ite_canon h (foldl_keeps (P := Mach.MemCanon) _ _ (setRegBit_canon _ _ _ _ _ (setReg_canon _ _ _ _ h))
    (fun _ hb _ => setReg_canon _ _ _ _ hb))

/-! ### Canonical memory: caches and directory -/

theorem setLine_canon {m : Mach} (c line : Nat) (st : LineSt) (h : m.MemCanon) : (m.setLine c line st).MemCanon := setCore_canon _ _ h

theorem dropLines_canon {m : Mach} (keep : Option Nat) (line : Nat) (h : m.MemCanon) : (m.dropLines keep line).MemCanon :=
  of_parts_canon h rfl rfl

theorem armedWrite_canon {m : Mach} (st k cls a : Nat) (h : m.MemCanon) : (m.armedWrite st k cls a).MemCanon := by
  dsimp only [Mach.armedWrite]
  split
  · exact of_parts_canon (ite_canon (drawn_canon (setReg_canon _ _ _ _ h)) (setReg_canon _ _ _ _ h)) rfl rfl
  · exact of_parts_canon h rfl rfl

theorem dramStored_canon {m : Mach} (a : Nat) (h : m.MemCanon) : (m.dramStored a).MemCanon := by
  dsimp only [Mach.dramStored]
  refine foldl_keeps (P := Mach.MemCanon) _ _ h fun _ hb1 _ => ?_
  split
  · exact armedWrite_canon _ _ _ _ hb1
  · refine armedWrite_canon _ _ _ _ (armedWrite_canon _ _ _ _ hb1)

theorem noteStale_canon {m : Mach} (line : Nat) (h : m.MemCanon) : (m.noteStale line).MemCanon := ite_canon h (of_parts_canon h rfl rfl)

theorem unstale_canon {m : Mach} (line : Nat) (h : m.MemCanon) : (m.unstale line).MemCanon :=
  ite_canon (dramStored_canon _ (touchDram_canon _ (of_parts_canon h rfl rfl))) h

theorem setSlotsL3_canon {m : Mach} (p : Nat) (l : List L3Line) (h : m.MemCanon) : (m.setSlotsL3 p l).MemCanon := of_parts_canon h rfl rfl

theorem modL3_canon {m : Mach} (line : Nat) (f : L3Line → L3Line) (h : m.MemCanon) : (m.modL3 line f).MemCanon := setSlotsL3_canon _ _ h

theorem dropL3_canon {m : Mach} (line : Nat) (h : m.MemCanon) : (m.dropL3 line).MemCanon := setSlotsL3_canon _ _ h

theorem l3ToMemory_canon {m : Mach} (e : L3Line) (h : m.MemCanon) : (m.l3ToMemory e).MemCanon := by
  dsimp only [Mach.l3ToMemory]
  split
  · exact h
  · split
    · exact of_parts_canon h rfl rfl
    · exact unstale_canon _ h

theorem allocWay_canon {m : Mach} (p line stop : Nat) (h : m.MemCanon) : (m.allocWay p line stop).2.MemCanon := by
  dsimp only [Mach.allocWay]
  split
  · exact h
  · split
    · split
      · exact h
      · exact h
    · split
      · exact h
      · exact h
      · exact drawn_canon h

theorem countSlice_canon {m : Mach} (p ev : Nat) (h : m.MemCanon) : (m.countSlice p ev).MemCanon := countUncore_canon _ _ _ h

theorem allocL3_canon {m : Mach} (line stop : Nat) (dirty : Bool) (h : m.MemCanon) : (m.allocL3 line stop dirty).2.MemCanon := by
  dsimp only [Mach.allocL3]
  split
  · exact h
  · split
    · next _ t he =>
        have hk : t.MemCanon := of_snd_canon he (allocWay_canon _ _ _ h)
        exact hk
    · next _ _ t he =>
        have hk : t.MemCanon := of_snd_canon he (allocWay_canon _ _ _ h)
        refine countSlice_canon _ _ ?_
        refine setSlotsL3_canon _ _ (takeLost_canon _ (foldl_keeps (P := Mach.MemCanon) _ _ hk
          (fun _ hb _ => ite_canon (countSlice_canon _ _ (l3ToMemory_canon _ hb)) (l3ToMemory_canon _ hb))))

theorem l3Return_canon {m : Mach} (line stop : Nat) (h : m.MemCanon) : (m.l3Return line stop).MemCanon := by
  dsimp only [Mach.l3Return]
  split
  · exact noteStale_canon _ (modL3_canon _ _ h)
  · split
    · next _ t he =>
        have hk : t.MemCanon := of_snd_canon he (allocL3_canon _ _ _ h)
        exact hk
    · next _ t he =>
        have hk : t.MemCanon := of_snd_canon he (allocL3_canon _ _ _ h)
        exact unstale_canon _ hk

theorem homeRead_canon {m : Mach} (line stop : Nat) (h : m.MemCanon) : (m.homeRead line stop).MemCanon := by
  dsimp only [Mach.homeRead]
  split
  · exact countSlice_canon _ _ h
  · exact ite_canon (allocL3_canon _ _ _ h) h

theorem leaveL2_canon {m : Mach} (c : Nat) (p : Nat × LineSt) (h : m.MemCanon) : (m.leaveL2 c p).MemCanon := by
  dsimp only [Mach.leaveL2]
  split
  · exact countCore_canon _ _ _ (setDir_canon _ _ (l3Return_canon _ _ h))
  · exact setDir_canon _ _ h
  · exact setDir_canon _ _ h
  · exact h

theorem emptyL2_canon {m : Mach} (c : Nat) (h : m.MemCanon) : (m.emptyL2 c).MemCanon :=
  foldl_keeps (P := Mach.MemCanon) _ _ (setCore_canon _ _ h) (fun _ hb _ => leaveL2_canon _ _ hb)

theorem becomeM_canon {m : Mach} (c line : Nat) (h : m.MemCanon) : (m.becomeM c line).MemCanon := by
  dsimp only [Mach.becomeM]
  split
  · exact h
  · refine foldl_keeps (P := Mach.MemCanon) _ _ (setDir_canon _ _
      (setLine_canon _ _ _ (dropLines_canon _ _ (ite_canon h (modL3_canon _ _ (noteStale_canon _ h)))))) fun _ hb1 _ => ?_
    exact armedWrite_canon _ _ _ _ hb1

theorem stored_canon {m : Mach} (a : Nat) (h : m.MemCanon) : (m.stored a).MemCanon := by
  dsimp only [Mach.stored]
  split
  · exact armedWrite_canon _ _ _ _ h
  · exact armedWrite_canon _ _ _ _ h
  · split
    · exact armedWrite_canon _ _ _ _ h
    · split
      · exact armedWrite_canon _ _ _ _ h
      · refine armedWrite_canon _ _ _ _ (armedWrite_canon _ _ _ _ h)
  · exact h

theorem homeWrite_canon {m : Mach} (writer : Option Nat) (line : Nat) (h : m.MemCanon) : (m.homeWrite writer line).MemCanon := by
  dsimp only [Mach.homeWrite]
  split
  · split
    · split
      · split
        · split
          · exact modL3_canon _ _ (noteStale_canon _ (setDir_canon _ _ (dropLines_canon _ _ (l3Return_canon _ _ h))))
          · exact setDir_canon _ _ (dropLines_canon _ _ (l3Return_canon _ _ h))
        · split
          · exact modL3_canon _ _ (noteStale_canon _ (setDir_canon _ _ (dropLines_canon _ _ (l3Return_canon _ _ h))))
          · exact setDir_canon _ _ (dropLines_canon _ _ (l3Return_canon _ _ h))
      · split
        · exact modL3_canon _ _ (noteStale_canon _ (setDir_canon _ _ (dropLines_canon _ _ (l3Return_canon _ _ h))))
        · exact setDir_canon _ _ (dropLines_canon _ _ (l3Return_canon _ _ h))
    · split
      · split
        · exact modL3_canon _ _ (noteStale_canon _ (setDir_canon _ _ (dropLines_canon _ _ (l3Return_canon _ _ h))))
        · exact setDir_canon _ _ (dropLines_canon _ _ (l3Return_canon _ _ h))
      · split
        · exact modL3_canon _ _ (noteStale_canon _ (setDir_canon _ _ (dropLines_canon _ _ (l3Return_canon _ _ h))))
        · exact setDir_canon _ _ (dropLines_canon _ _ (l3Return_canon _ _ h))
  · exact ite_canon (modL3_canon _ _ (noteStale_canon _ (setDir_canon _ _ (dropLines_canon _ _ h))))
      (setDir_canon _ _ (dropLines_canon _ _ h))

/-! ### Canonical memory: translation -/

theorem tlbFill_canon {m : Mach} (c : Nat) (e : TlbEntry) (h : m.MemCanon) : (m.tlbFill c e).MemCanon := ite_canon h (setCore_canon _ _ h)

theorem translate_canon {m : Mach} (c : Nat) (nd : Need) (gtOk : Bool) (va : Nat) (h : m.MemCanon) :
    OkAll (fun r => r.2.2.MemCanon) (m.translate c nd gtOk va) := by
  dsimp only [Mach.translate]
  split
  · split
    · exact trivial
    · exact trivial
    · exact h
  · split
    · exact trivial
    · dsimp only [OkAll, SomeAll]
      split
      · refine setByte_canon _ _ ?_
        split
        · exact homeWrite_canon _ _ (countCore_canon _ _ _ (tlbFill_canon _ _ (drawn_canon h)))
        · exact countCore_canon _ _ _ (tlbFill_canon _ _ (drawn_canon h))
      · exact countCore_canon _ _ _ (tlbFill_canon _ _ (drawn_canon h))

theorem tlbInvalidate_canon {m : Mach} (scope : Nat) (wd : World) (vmid asid page : Nat) (h : m.MemCanon) :
    (m.tlbInvalidate scope wd vmid asid page).MemCanon :=
  of_parts_canon h rfl rfl

/-! ### Canonical memory: checked accesses -/

theorem putGrant_canon {m : Mach} (pa : Nat) (g : Grant) (h : m.MemCanon) : (m.putGrant pa g).MemCanon := putWords_canon _ _ h

theorem entryPa_canon {m : Mach} (c : Nat) (tsel : Bool) (idx : Nat) (h : m.MemCanon) :
    OkAll (fun r => r.2.MemCanon) (m.entryPa c tsel idx) := by
  dsimp only [Mach.entryPa]
  split
  · exact trivial
  · next _ _ _ t he =>
      have hke : t.MemCanon := OkAll.elim he (translate_canon _ _ _ _ h) id
      split
      · exact trivial
      · split
        · split
          · exact hke
          · exact trivial
        · exact hke

theorem gcFill_canon {m : Mach} (c : Nat) (l : GrantLine) (h : m.MemCanon) : (m.gcFill c l).MemCanon := ite_canon h (setCore_canon _ _ h)

theorem entry_canon {m : Mach} (c : Nat) (tsel : Bool) (idx : Nat) (h : m.MemCanon) :
    OkAll (fun r => r.2.2.MemCanon) (m.entry c tsel idx) := by
  dsimp only [Mach.entry]
  split
  · exact trivial
  · next _ _ t he =>
      have hke : t.MemCanon := OkAll.elim he (entryPa_canon _ _ _ h) id
      split
      · exact hke
      · split
        · exact countCore_canon _ _ _ hke
        · split
          · exact gcFill_canon _ _ (countCore_canon _ _ _ hke)
          · exact countCore_canon _ _ _ hke

theorem live_canon {m : Mach} (c : Nat) (cap : Word) (a : Acc) (w2 : W64) (vaddr : Nat) (h : m.MemCanon) :
    OkAll (fun r => r.2.2.MemCanon) (m.live c cap a w2 vaddr) := by
  dsimp only [Mach.live]
  split
  · exact trivial
  · split
    · exact trivial
    · exact trivial
    · next _ _ _ t he =>
        have hke : t.MemCanon := OkAll.elim he (entry_canon _ _ _ h) id
        split
        · exact hke
        · exact trivial

theorem checkHalf_canon {m : Mach} (c colour : Nat) (rq : Req) (va n : Nat) (h : m.MemCanon) :
    OkAll (fun r => r.2.MemCanon) (m.checkHalf c colour rq va n) := by
  dsimp only [Mach.checkHalf]
  split
  · exact trivial
  · next _ _ _ t he =>
      have hke : t.MemCanon := OkAll.elim he (translate_canon _ _ _ _ h) id
      split
      · exact trivial
      · split
        · split
          · exact trivial
          · exact hke
        · split
          · exact trivial
          · exact hke
        · split
          · exact trivial
          · exact hke
        · split
          · exact trivial
          · exact hke
        · split
          · exact trivial
          · exact hke

theorem checkHalves_canon {m : Mach} (c colour : Nat) (rq : Req) (l : List (Nat × Nat)) (h : m.MemCanon) :
    OkAll (fun r => r.2.MemCanon) (m.checkHalves c colour rq l) := by
  induction l generalizing m with
  | nil => exact h
  | cons p t ih =>
    dsimp only [Mach.checkHalves]
    split
    · exact trivial
    · next he =>
      have h1 := OkAll.elim he (checkHalf_canon _ _ _ _ _ h) id
      split
      · exact trivial
      · next he2 => exact OkAll.elim he2 (ih h1) id

theorem checkParts_canon {m : Mach} (c : Nat) (cap : Word) (ea : Int) (rq : Req) (parts : List (Nat × Nat)) (h : m.MemCanon) :
    OkAll (fun r => r.2.2.MemCanon) (m.checkParts c cap ea rq parts) := by
  dsimp only [Mach.checkParts]
  split
  · exact trivial
  · next _ _ _ t he =>
      have hke : t.MemCanon := OkAll.elim he (live_canon _ _ _ _ _ h) id
      split
      · exact trivial
      · split
        · exact trivial
        · split
          · exact trivial
          · split
            · exact trivial
            · split
              · exact trivial
              · split
                · exact trivial
                · next _ _ t1 he1 =>
                    have hke1 : t1.MemCanon := OkAll.elim he1 (checkHalves_canon _ _ _ _ hke) id
                    exact hke1

theorem check_canon {m : Mach} (c : Nat) (cap : Word) (ea : Int) (rq : Req) (h : m.MemCanon) :
    OkAll (fun r => r.2.2.MemCanon) (m.check c cap ea rq) :=
  checkParts_canon _ _ _ _ _ h

theorem logSite_canon {m : Mach} (c st k pa : Nat) (a : Acc) (r : Rule) (h : m.MemCanon) : (m.logSite c st k pa a r).MemCanon :=
  ite_canon (countReg_canon _ _ _ _ _ _ (logViol_canon _ _ _ h)) (logViol_canon _ _ _ h)

theorem holdRefused_canon {m : Mach} (c : Nat) (r : Refused) (h : m.MemCanon) : (m.holdRefused c r).MemCanon := setCore_canon _ _ h

theorem epnSend_canon {m : Mach} (l : Nat) (h : m.MemCanon) : (m.epnSend l).MemCanon := of_parts_canon h rfl rfl

theorem mirrorWrite_canon {m : Mach} (st unit a mask : Nat) (h : m.MemCanon) : (m.mirrorWrite st unit a mask).MemCanon := by
  dsimp only [Mach.mirrorWrite]
  split
  · exact h
  · split
    · exact h
    · split
      · split
        · exact setCore_canon _ _ h
        · exact h
      · split
        · split
          · exact setCore_canon _ _ (countUncore_canon _ _ _ (epnSend_canon _ (of_parts_canon h rfl rfl)))
          · exact countUncore_canon _ _ _ (epnSend_canon _ (of_parts_canon h rfl rfl))
        · exact h

theorem coreMirror_canon {m : Mach} (c a n : Nat) (h : m.MemCanon) : (m.coreMirror c a n).MemCanon := mirrorWrite_canon _ _ _ _ h

theorem drainWord_canon {m : Mach} (line : Nat) (p : Nat × MbWord) (h : m.MemCanon) : (m.drainWord line p).MemCanon :=
  setMeta_canon _ _ (writeN_canon _ _ _ h)

theorem l1Inval_canon {m : Mach} (c line : Nat) (h : m.MemCanon) : (m.l1Inval c line).MemCanon := of_parts_canon h rfl rfl

theorem ownFor_canon {m : Mach} (c pt a : Nat) (h : m.MemCanon) : (m.ownFor c pt a).MemCanon := by
  dsimp only [Mach.ownFor]
  split
  · exact h
  · split
    · exact becomeM_canon _ _ h
    · exact homeWrite_canon _ _ h

theorem ownAtHome_canon {m : Mach} (a : Nat) (h : m.MemCanon) : (m.ownAtHome a).MemCanon := by
  dsimp only [Mach.ownAtHome]
  split
  · exact homeWrite_canon _ _ h
  · exact h

theorem drainEntry_canon {m : Mach} (c : Nat) (e : MbEntry) (h : m.MemCanon) : (m.drainEntry c e).MemCanon :=
  l1Inval_canon _ _ (foldl_keeps (P := Mach.MemCanon) _ _ (ownFor_canon _ _ _ h)
    (fun _ hb _ => mirrorWrite_canon _ _ _ _ (stored_canon _ (drainWord_canon _ _ hb))))

theorem drainOldest_canon {m : Mach} (c k : Nat) (h : m.MemCanon) : (m.drainOldest c k).MemCanon := by
  induction k generalizing m with
  | zero => exact h
  | succ k ih =>
    dsimp only [Mach.drainOldest]
    split
    · exact h
    · exact ih (setCore_canon _ _ (drainEntry_canon _ _ h))

theorem drainAll_canon {m : Mach} (c : Nat) (h : m.MemCanon) : (m.drainAll c).MemCanon := drainOldest_canon _ _ h

theorem drainLine_canon {m : Mach} (c line : Nat) (h : m.MemCanon) : (m.drainLine c line).MemCanon := by
  dsimp only [Mach.drainLine]
  split
  · exact h
  · exact drainOldest_canon _ _ h

theorem mbStore_canon {m : Mach} (c a n v : Nat) (tag poison : Bool) (h : m.MemCanon) : (m.mbStore c a n v tag poison).MemCanon := by
  dsimp only [Mach.mbStore]
  split
  · exact ite_canon (drainAll_canon _ (setCore_canon _ _ h)) (setCore_canon _ _ h)
  · exact ite_canon (drainAll_canon _ (setCore_canon _ _ h)) (drainOldest_canon _ _ (setCore_canon _ _ h))

theorem l1Access_canon {m : Mach} (c pa : Nat) (fetch : Bool) (h : m.MemCanon) : (m.l1Access c pa fetch).MemCanon := by
  dsimp only [Mach.l1Access]
  split
  · exact h
  · split
    · exact drainLine_canon _ _ h
    · split
      · exact setCore_canon _ _ h
      · split
        · exact countCore_canon _ _ _ (setCore_canon _ _ (countCore_canon _ _ _ (ite_canon h (drainLine_canon _ _ h))))
        · refine foldl_keeps (P := Mach.MemCanon) _ _ (setCore_canon _ _ (countCore_canon _ _ _ (ite_canon h (drainLine_canon _ _ h))))
            fun _ hb1 _ => ?_
          exact armedWrite_canon _ _ _ _ hb1

theorem orderDevice_canon {m : Mach} (c pt : Nat) (h : m.MemCanon) : (m.orderDevice c pt).MemCanon := ite_canon (drainAll_canon _ h) h

theorem countMesh_canon {m : Mach} (pa stop unit : Nat) (wd : World) (h : m.MemCanon) : (m.countMesh pa stop unit wd).MemCanon := by
  dsimp only [Mach.countMesh]
  split
  · exact countUncore_canon _ _ _ h
  · exact h

theorem coreMesh_canon {m : Mach} (c pa : Nat) (h : m.MemCanon) : (m.coreMesh c pa).MemCanon := countMesh_canon _ _ _ _ h

theorem loadSide_canon {m : Mach} (c : Nat) (p : Piece) (h : m.MemCanon) : (m.loadSide c p).MemCanon := by
  dsimp only [Mach.loadSide]
  split
  · exact h
  · exact ite_canon (coreMesh_canon _ _ (orderDevice_canon _ _ h)) (l1Access_canon _ _ _ h)

theorem storeWord_canon {m : Mach} (c pt a n v : Nat) (tag poison : Bool) (h : m.MemCanon) :
    (m.storeWord c pt a n v tag poison).MemCanon := by
  dsimp only [Mach.storeWord]
  split
  · exact mbStore_canon _ _ _ _ _ _ h
  · refine l1Inval_canon _ _ ?_
    refine coreMirror_canon _ _ _ ?_
    refine stored_canon _ ?_
    split
    · exact putWord_canon _ _ _ _ (ownFor_canon _ _ _ (ite_canon h (coreMesh_canon _ _ (orderDevice_canon _ _ h))))
    · exact storePart_canon _ _ _ _ (ownFor_canon _ _ _ (ite_canon h (coreMesh_canon _ _ (orderDevice_canon _ _ h))))

theorem storePiece_canon {m : Mach} (c : Nat) (p : Piece) (v : Nat) (poison : Bool) (h : m.MemCanon) :
    (m.storePiece c p v poison).MemCanon := by
  dsimp only [Mach.storePiece]
  split
  · exact h
  · exact ite_canon (storeWord_canon _ _ _ _ _ _ _ h) (storeWord_canon _ _ _ _ _ _ _ (storeWord_canon _ _ _ _ _ _ _ h))

/-! ### Canonical memory: upsets and their correction -/

theorem setProtLog_canon {m : Mach} (st k : Nat) (l : List LogEnt) (h : m.MemCanon) : (m.setProtLog st k l).MemCanon :=
  of_parts_canon h rfl rfl

theorem raiseOpt_canon {m : Mach} (st : Nat) (src : Option Nat) (pa : Nat) (h : m.MemCanon) : (m.raiseOpt st src pa).MemCanon := by
  dsimp only [Mach.raiseOpt]
  split
  · exact raiseOwn_canon _ _ _ h
  · exact h

theorem logCorrection_canon {m : Mach} (st k cls pa loc : Nat) (subch ch : Bool) (h : m.MemCanon) :
    (m.logCorrection st k cls pa loc subch ch).MemCanon := by
  dsimp only [Mach.logCorrection]
  split
  · exact ite_canon (raiseOpt_canon _ _ _ (setProtLog_canon _ _ _ h)) (setProtLog_canon _ _ _ h)
  · split
    · exact ite_canon (raiseOpt_canon _ _ _ (setProtLog_canon _ _ _ h)) (setProtLog_canon _ _ _ h)
    · split
      · exact ite_canon (raiseOpt_canon _ _ _ (setProtLog_canon _ _ _ h)) (setProtLog_canon _ _ _ h)
      · split
        · exact ite_canon (raiseOpt_canon _ _ _ (setProtLog_canon _ _ _ h)) (setProtLog_canon _ _ _ h)
        · exact countReg_canon _ _ _ _ _ _ h

theorem correctable_canon {m : Mach} (u : Upset) (loc : Nat) (h : m.MemCanon) : (m.correctable u loc).MemCanon :=
  logCorrection_canon _ _ _ _ _ _ _ (raiseOpt_canon _ _ _ (countReg_canon _ _ _ _ _ _ h))

theorem uncorrectable_canon {m : Mach} (u : Upset) (dirty : Bool) (h : m.MemCanon) : (m.uncorrectable u dirty).MemCanon := by
  dsimp only [Mach.uncorrectable]
  split
  · exact ite_canon (of_parts_canon (m := m.countReg u.st u.k 776 48 16 1) (countReg_canon _ _ _ _ _ _ h) rfl rfl)
      (countReg_canon _ _ _ _ _ _ h)
  · split
    · exact of_parts_canon (raiseOpt_canon _ _ _ (countReg_canon _ _ _ _ _ _ h)) rfl rfl
    · split
      · exact loseMeta_canon _ (raiseOpt_canon _ _ _ (countReg_canon _ _ _ _ _ _ h))
      · exact ite_canon (poisonDram_canon _ (raiseOpt_canon _ _ _ (countReg_canon _ _ _ _ _ _ h)))
          (poisonWord_canon _ (raiseOpt_canon _ _ _ (countReg_canon _ _ _ _ _ _ h)))

theorem meetUpset_canon {m : Mach} (u : Upset) (h : m.MemCanon) : (m.meetUpset u).MemCanon := by
  dsimp only [Mach.meetUpset]
  split
  · exact of_parts_canon h rfl rfl
  · exact correctable_canon _ _ (of_parts_canon h rfl rfl)
  · exact uncorrectable_canon _ _ (of_parts_canon h rfl rfl)
  · split
    · exact uncorrectable_canon _ _ (drawn_canon (of_parts_canon h rfl rfl))
    · exact ite_canon (drawn_canon (of_parts_canon h rfl rfl)) (writeN_canon _ _ _ (drawn_canon (of_parts_canon h rfl rfl)))

theorem readUpsets_canon {m : Mach} (c : Option Nat) (fetch : Bool) (pa n : Nat) (h : m.MemCanon) : (m.readUpsets c fetch pa n).MemCanon :=
  foldl_keeps (P := Mach.MemCanon) _ _ h (fun _ hb _ => meetUpset_canon _ hb)

/-! ### Canonical memory: the course of an instruction -/

theorem setG_canon {m : Mach} (c r : Nat) (w : Word) (h : m.MemCanon) : (m.setG c r w).MemCanon := ite_canon h (setCore_canon _ _ h)

theorem serialise_canon {m : Mach} (c : Nat) (h : m.MemCanon) : (m.serialise c).MemCanon := ite_canon h (setCore_canon _ _ h)

theorem clearPage_canon {m : Mach} (pa : Nat) (h : m.MemCanon) : (m.clearPage pa).MemCanon :=
  foldl_keeps (P := Mach.MemCanon) _ _ h (fun _ hb _ => l1Inval_canon _ _ (stored_canon _ (putWord_canon _ _ _ _ (ownAtHome_canon _ hb))))

theorem secTrigger_canon {m : Mach} (reason : Nat) (h : m.MemCanon) : (m.secTrigger reason).MemCanon := by
  dsimp only [Mach.secTrigger]
  split
  · exact countReg_canon _ _ _ _ _ _ h
  · exact ite_canon h (raiseOwn_canon _ _ _ (clearPage_canon _ (setReg_canon _ _ _ _ (of_parts_canon h rfl rfl))))

theorem fatal_canon {m : Mach} (c : Nat) (e : EntryRec) (reason : Nat) (h : m.MemCanon) : (m.fatal c e reason).MemCanon :=
  ite_canon (secTrigger_canon _ (raiseSrc_canon _ _ _ _ _ _ (setCore_canon _ _ h))) (raiseSrc_canon _ _ _ _ _ _ (setCore_canon _ _ h))

theorem storeFrame_canon {m : Mach} (c pt pa : Nat) (ws : List Word) (h : m.MemCanon) : (m.storeFrame c pt pa ws).MemCanon := by
  induction ws generalizing m pa with
  | nil => exact h
  | cons w ws ih => exact ih _ (storeWord_canon _ _ _ _ _ _ _ h)

theorem enter_canon {m : Mach} (c : Nat) (e : EntryRec) (h : m.MemCanon) : (m.enter c e).MemCanon := by
  dsimp only [Mach.enter]
  split
  · exact fatal_canon _ _ _ (countCore_canon _ _ _ (serialise_canon _ h))
  · split
    · exact fatal_canon _ _ _ (countCore_canon _ _ _ (serialise_canon _ h))
    · split
      · refine fatal_canon _ _ _ ?_
        split
        · exact logSite_canon _ _ _ _ _ _ (countCore_canon _ _ _ (serialise_canon _ h))
        · exact countCore_canon _ _ _ (serialise_canon _ h)
      · next _ _ _ t he =>
          have hke : t.MemCanon := OkAll.elim he (check_canon _ _ _ _ (countCore_canon _ _ _ (serialise_canon _ h))) id
          split
          · refine fatal_canon _ _ _ ?_
            split
            · exact logSite_canon _ _ _ _ _ _ hke
            · exact hke
          · exact fatal_canon _ _ _ hke
          · exact ite_canon (fatal_canon _ _ _ (setCore_canon _ _ (storeFrame_canon _ _ _ _ hke)))
              (setCore_canon _ _ (setCore_canon _ _ (storeFrame_canon _ _ _ _ hke)))

theorem logExc_canon {m : Mach} (c : Nat) (e : Exc) (h : m.MemCanon) : (m.logExc c e).MemCanon := by
  dsimp only [Mach.logExc]
  split
  · refine setReg_canon _ _ _ _ ?_
    split
    · split
      · exact setCore_canon _ _ h
      · exact ite_canon (setCore_canon _ _ h) h
    · refine logSite_canon _ _ _ _ _ _ ?_
      split
      · exact setCore_canon _ _ h
      · exact ite_canon (setCore_canon _ _ h) h
    · split
      · split
        · exact setCore_canon _ _ h
        · exact ite_canon (setCore_canon _ _ h) h
      · refine logViol_canon _ _ _ ?_
        split
        · exact setCore_canon _ _ h
        · exact ite_canon (setCore_canon _ _ h) h
    · split
      · exact setCore_canon _ _ h
      · exact ite_canon (setCore_canon _ _ h) h
  · split
    · split
      · exact setCore_canon _ _ h
      · exact ite_canon (setCore_canon _ _ h) h
    · refine logSite_canon _ _ _ _ _ _ ?_
      split
      · exact setCore_canon _ _ h
      · exact ite_canon (setCore_canon _ _ h) h
    · split
      · split
        · exact setCore_canon _ _ h
        · exact ite_canon (setCore_canon _ _ h) h
      · refine logViol_canon _ _ _ ?_
        split
        · exact setCore_canon _ _ h
        · exact ite_canon (setCore_canon _ _ h) h
    · split
      · exact setCore_canon _ _ h
      · exact ite_canon (setCore_canon _ _ h) h

theorem trap_canon {m : Mach} (c : Nat) (e : Exc) (h : m.MemCanon) : (m.trap c e).MemCanon := enter_canon _ _ (logExc_canon _ _ h)

theorem takeRefused_canon {m : Mach} (c : Nat) (h : m.MemCanon) : (m.takeRefused c).MemCanon := by
  dsimp only [Mach.takeRefused]
  split
  · exact enter_canon _ _ (setCore_canon _ _ h)
  · exact h

theorem takeNmi_canon {m : Mach} (c : Nat) (h : m.MemCanon) : (m.takeNmi c).MemCanon := enter_canon _ _ (setCore_canon _ _ h)

theorem takeEvent_canon {m : Mach} (c : Nat) (h : m.MemCanon) : (m.takeEvent c).MemCanon := enter_canon _ _ h

theorem takeDue_canon {m : Mach} (c : Nat) (x1 : Due) (h : m.MemCanon) : (m.takeDue c x1).MemCanon := by
  dsimp only [Mach.takeDue]
  split
  · exact takeRefused_canon _ h
  · exact takeNmi_canon _ h
  · exact takeEvent_canon _ h

theorem fetch_canon {m : Mach} (c : Nat) (h : m.MemCanon) : OkAll (fun r => r.MemCanon) (m.fetch c) := by
  dsimp only [Mach.fetch]
  split
  · exact trivial
  · next _ _ _ t he =>
      have hke : t.MemCanon := OkAll.elim he (check_canon _ _ _ _ h) id
      split
      · exact trivial
      · exact hke
      · split
        · exact trivial
        · split
          · exact trivial
          · dsimp only [OkAll, SomeAll]
            split
            · exact readUpsets_canon _ _ _ _ hke
            · split
              · exact l1Access_canon _ _ _ (readUpsets_canon _ _ _ _ hke)
              · exact armedWrite_canon _ _ _ _ (readUpsets_canon _ _ _ _ hke)

theorem advance_canon {m : Mach} (c : Nat) (h : m.MemCanon) : (m.advance c).MemCanon := by
  dsimp only [Mach.advance]
  split
  · split
    · exact countCore_canon _ _ _ (setCore_canon _ _ h)
    · exact setCore_canon _ _ h
  · exact setCore_canon _ _ h

theorem transfer_canon {m : Mach} (c : Nat) (pcc : Word) (loops : Bool) (h : m.MemCanon) : (m.transfer c pcc loops).MemCanon :=
  setCore_canon _ _ h

theorem stepDone_canon {m : Mach} (c : Nat) (h : m.MemCanon) : (m.stepDone c).MemCanon := by
  dsimp only [Mach.stepDone]
  split
  · exact h
  · exact ite_canon (setCore_canon _ _ (serialise_canon _ (drainAll_canon _ h))) (setCore_canon _ _ h)

theorem finish_canon {m : Mach} (c : Nat) (evs : List Nat) (r : Res) (h : m.MemCanon) (hr : ResCanon r) : (m.finish c evs r).MemCanon := by
  cases r with
  | ok t => exact stepDone_canon _ (advance_canon _ (countEvents_canon _ _ _ _ hr))
  | jump t p l => exact stepDone_canon _ (transfer_canon _ _ _ (countEvents_canon _ _ _ _ hr))
  | wait t => exact hr
  | trap e => exact stepDone_canon _ (trap_canon _ _ h)

theorem fetch_error_canon {m t : Mach} {c : Nat} {e : Exc} (h : m.MemCanon) (he : m.fetch c = .error (e, t)) : t.MemCanon := by
  unfold Mach.fetch at he
  extract_lets p at he
  split at he
  · cases he; exact h
  · next hc =>
    have h1 := OkAll.elim hc (check_canon c _ _ fetchReq h) id
    split at he
    · cases he; exact h1
    · cases he
    · split at he
      · cases he; exact readUpsets_canon _ _ _ _ h1
      · dsimp only at he
        split at he
        · cases he; exact readUpsets_canon _ _ _ _ h1
        · cases he

theorem instr_canon {m : Mach} (c : Nat) (evs : List Nat) (body : Mach → Res) (h : m.MemCanon)
    (hbody : ∀ (a : Mach), a.MemCanon → ResCanon (body a)) : (m.instr c evs body).MemCanon := by
  have hf := fetch_canon c h
  dsimp only [Mach.instr]
  split
  · exact h
  · split
    · exact stepDone_canon _ (takeDue_canon _ _ h)
    · split
      · next he => exact stepDone_canon _ (trap_canon _ _ (fetch_error_canon h he))
      · next he => rw [he] at hf; exact finish_canon _ _ _ hf (hbody _ hf)

theorem result_canon {m : Mach} (c dst : Nat) (w : Word) (h : m.MemCanon) : ResCanon (m.result c dst w) := setG_canon _ _ _ h

/-! ### Canonical memory: flags -/

theorem accrue_canon {m : Mach} (c : Nat) (x : Flags) (h : m.MemCanon) : (m.accrue c x).MemCanon := setCore_canon _ _ h

/-! ### Canonical memory: gates -/

theorem serialPoint_canon {m : Mach} (c : Nat) (h : m.MemCanon) : (m.serialPoint c).MemCanon := serialise_canon _ (drainAll_canon _ h)

theorem shootdown_canon {m : Mach} (pa : Nat) (h : m.MemCanon) : (m.shootdown pa).MemCanon := of_parts_canon h rfl rfl

theorem writeGrant_canon {m : Mach} (st unit pa : Nat) (g : Grant) (h : m.MemCanon) : (m.writeGrant st unit pa g).MemCanon := by
  dsimp only [Mach.writeGrant]
  refine l1Inval_canon _ _ ?_
  refine mirrorWrite_canon _ _ _ _ ?_
  refine mirrorWrite_canon _ _ _ _ ?_
  refine mirrorWrite_canon _ _ _ _ (mirrorWrite_canon _ _ _ _ (putGrant_canon _ _ (ownAtHome_canon _ h)))

theorem revoke_canon {m : Mach} (st unit pa : Nat) (wraps : Bool) (h : m.MemCanon) : (m.revoke st unit pa wraps).MemCanon := by
  dsimp only [Mach.revoke]
  split
  · exact shootdown_canon _ (writeGrant_canon _ _ _ _ h)
  · exact shootdown_canon _ (shootdown_canon _ (writeGrant_canon _ _ _ _ (writeGrant_canon _ _ _ _ h)))

theorem enterDomain_canon {m : Mach} (c : Nat) (h : m.MemCanon) : (m.enterDomain c).MemCanon := by
  dsimp only [Mach.enterDomain]
  split
  · exact h
  · split
    · exact setCore_canon _ _ h
    · exact ite_canon (setCore_canon _ _ h) (countCore_canon _ _ _ (setCore_canon _ _ h))

theorem gateDesc_canon {m : Mach} (c : Nat) (g : Grant) (w2 : W64) (h : m.MemCanon) :
    OkAll (fun r => r.2.MemCanon) (m.gateDesc c g w2) := by
  dsimp only [Mach.gateDesc]
  split
  · exact trivial
  · next _ _ _ t he =>
      have hke : t.MemCanon := OkAll.elim he (translate_canon _ _ _ _ h) id
      split
      · split
        · exact hke
        · exact trivial
      · split
        · exact trivial
        · split
          · exact trivial
          · exact hke

theorem gateFlush_canon {m : Mach} (c : Nat) (h : m.MemCanon) : (m.gateFlush c).MemCanon := ite_canon (setCore_canon _ _ h) h

theorem gateEnd_canon {m : Mach} (c : Nat) (h : m.MemCanon) : (m.gateEnd c).MemCanon :=
  serialPoint_canon _ (gateFlush_canon _ (enterDomain_canon _ h))

theorem setExcCaps_canon {m : Mach} (c : Nat) (h : m.MemCanon) : (m.setExcCaps c).MemCanon := setCore_canon _ _ h

theorem firstPiece_canon {m : Mach} (c : Nat) (cap : Word) (ea : Int) (rq : Req) (h : m.MemCanon) :
    OkAll (fun r => r.2.MemCanon) (m.firstPiece c cap ea rq) := by
  dsimp only [Mach.firstPiece]
  split
  · exact trivial
  · next _ _ _ t he =>
      have hke : t.MemCanon := OkAll.elim he (check_canon _ _ _ _ h) id
      split
      · exact trivial
      · exact trivial
      · exact hke

theorem gateEnter_canon {m : Mach} (c : Nat) (d : GateDesc) (w2 : W64) (h : m.MemCanon) : ResCanon (m.gateEnter c d w2) := by
  dsimp only [Mach.gateEnter]
  split
  · exact trivial
  · next _ _ t he =>
      have hke : t.MemCanon := OkAll.elim he (firstPiece_canon _ _ _ _ h) id
      split
      · exact trivial
      · exact gateEnd_canon _ (setExcCaps_canon _ (setCore_canon _ _ (storeFrame_canon _ _ _ _ hke)))

theorem cgate_canon (c : Nat) (a : BitVec 6) {m : Mach} (h : m.MemCanon) : (cgate c a m).MemCanon := by
  dsimp only [cgate]
  refine instr_canon _ _ _ h ?_
  intro m1 h1
  split
  · exact trivial
  · split
    · exact trivial
    · next _ _ _ t he =>
        have hke : t.MemCanon := OkAll.elim he (live_canon _ _ _ _ _ h1) id
        split
        · exact trivial
        · split
          · exact trivial
          · next _ _ t1 he1 =>
              have hke1 : t1.MemCanon := OkAll.elim he1 (gateDesc_canon _ _ _ hke) id
              split
              · exact trivial
              · split
                · exact trivial
                · exact gateEnter_canon _ _ _ (readUpsets_canon _ _ _ _ hke1)

theorem excReturn_canon {m : Mach} (c : Nat) (h : m.MemCanon) : ResCanon (m.excReturn c) := by
  dsimp only [Mach.excReturn]
  split
  · exact trivial
  · next _ _ t he =>
      have hke : t.MemCanon := OkAll.elim he (firstPiece_canon _ _ _ _ h) id
      split
      · exact trivial
      · exact gateEnd_canon _ (setCore_canon _ _ (readUpsets_canon _ _ _ _ (loadSide_canon _ _ hke)))

theorem gateReturn_canon {m : Mach} (c : Nat) (h : m.MemCanon) : ResCanon (m.gateReturn c) := by
  dsimp only [Mach.gateReturn]
  split
  · exact trivial
  · next _ _ t he =>
      have hke : t.MemCanon := OkAll.elim he (firstPiece_canon _ _ _ _ h) id
      split
      · exact trivial
      · split
        · exact trivial
        · split
          · exact trivial
          · split
            · exact trivial
            · exact gateEnd_canon _ (setCore_canon _ _ (readUpsets_canon _ _ _ _ (loadSide_canon _ _ hke)))

theorem cretg_canon (c : Nat) {m : Mach} (h : m.MemCanon) : (cretg c m).MemCanon := by
  dsimp only [cretg]
  refine instr_canon _ _ _ h ?_
  intro m1 h1
  split
  · exact excReturn_canon _ h1
  · exact gateReturn_canon _ h1

/-! ### Canonical memory: system instructions -/

theorem rdsr_canon (c : Nat) (d n : BitVec 6) {m : Mach} (h : m.MemCanon) : (rdsr c d n m).MemCanon := by
  dsimp only [rdsr]
  refine instr_canon _ _ _ h ?_
  intro m1 h1
  split
  · exact result_canon _ _ _ h1
  · exact trivial

theorem wrsr_canon (c : Nat) (n a : BitVec 6) {m : Mach} (h : m.MemCanon) : (wrsr c n a m).MemCanon := by
  dsimp only [wrsr]
  refine instr_canon _ _ _ h ?_
  intro m1 h1
  split
  · exact trivial
  · split
    · exact trivial
    · exact setCore_canon _ _ (serialPoint_canon _ h1)

theorem fence_canon (c : Nat) (mask : BitVec 6) {m : Mach} (h : m.MemCanon) : (fence c mask m).MemCanon := by
  dsimp only [fence]
  refine instr_canon _ _ _ h ?_
  intro m1 h1
  split
  · exact trivial
  · split
    · exact drainAll_canon _ h1
    · exact h1

theorem settle_canon {m : Mach} (c : Nat) (h : m.MemCanon) : OkAll (fun r => r.1.MemCanon) (m.settle c) := by
  dsimp only [Mach.settle]
  split
  · exact trivial
  · exact drainAll_canon _ h

theorem mfence_canon (c : Nat) {m : Mach} (h : m.MemCanon) : (mfence c m).MemCanon := by
  dsimp only [mfence]
  refine instr_canon _ _ _ h ?_
  intro m1 h1
  split
  · exact trivial
  · next _ t _ he =>
      have hke : t.MemCanon := OkAll.elim he (settle_canon _ h1) id
      split
      · exact hke
      · exact hke

theorem isync_canon (c : Nat) {m : Mach} (h : m.MemCanon) : (isync c m).MemCanon :=
  instr_canon _ _ _ h (fun _ h1 => serialPoint_canon _ h1)

theorem halt_canon (c : Nat) {m : Mach} (h : m.MemCanon) : (halt c m).MemCanon := by
  dsimp only [halt]
  split
  · exact setCore_canon _ _ (instr_canon _ _ _ h (fun m1 h1 => setCore_canon _ _ (serialPoint_canon _ h1)))
  · exact instr_canon _ _ _ h (fun m1 h1 => setCore_canon _ _ (serialPoint_canon _ h1))

theorem clearEvent_canon {m : Mach} (n : Nat) (h : m.MemCanon) : (m.clearEvent n).MemCanon := of_parts_canon h rfl rfl

theorem collect_canon {m : Mach} (c : Nat) (sel : W64) (h : m.MemCanon) : SomeAll (fun r => r.2.MemCanon) (m.collect c sel) := by
  dsimp only [Mach.collect]
  split
  · exact clearEvent_canon _ h
  · split
    · exact setCore_canon _ _ h
    · split
      · exact h
      · exact trivial

theorem ewaitBody_canon (c : Nat) (d a : BitVec 6) {m : Mach} (h : m.MemCanon) : ResCanon (ewaitBody c d a m) := by
  dsimp only [ewaitBody]
  split
  · exact trivial
  · split
    · next _ _ t he =>
        have hke : t.MemCanon := SomeAll.elim he (collect_canon _ _ h) id
        exact setG_canon _ _ _ hke
    · exact setCore_canon _ _ h

theorem wake_canon {m : Mach} (c : Nat) (h : m.MemCanon) : (m.wake c).MemCanon := by
  unfold Mach.wake
  refine ite_canon h ?_
  extract_lets done
  have hd : SomeAll Mach.MemCanon done := by
    unfold done
    split
    · next he =>
      have hc := SomeAll.elim he (collect_canon c _ h) id
      exact advance_canon _ (countCore_canon _ _ _ (setCore_canon _ _ (setG_canon _ _ _ hc)))
    · exact trivial
  split
  · exact stepDone_canon _ (takeRefused_canon _ h)
  · exact stepDone_canon _ (takeNmi_canon _ h)
  · next he _ _ => exact stepDone_canon _ (SomeAll.elim he hd id)
  · exact stepDone_canon _ (takeEvent_canon _ h)
  · exact h

theorem ewait_canon (c : Nat) (d a : BitVec 6) {m : Mach} (h : m.MemCanon) : (ewait c d a m).MemCanon :=
  ite_canon (wake_canon _ h) (instr_canon _ _ _ h (fun _ h1 => ewaitBody_canon _ _ _ h1))

theorem esig_canon (c : Nat) (a : BitVec 6) {m : Mach} (h : m.MemCanon) : (esig c a m).MemCanon := by
  dsimp only [esig]
  refine instr_canon _ _ _ h ?_
  intro m1 h1
  split
  · exact trivial
  · split
    · exact trivial
    · exact raiseEvent_canon _ (drainAll_canon _ h1)

end Sys2Proof.Machine

/-!
SUPPORT. Operations keep memory and its metadata in canonical form: events and exceptions, queues and record pairs, the instructions of a core, coherence, capability instructions, operands, loads, stores and atomics.
-/

namespace Sys2Proof.Machine

/-! ### Canonical memory: events and exceptions -/

theorem abandon_canon {m : Mach} (c : Nat) (h : m.MemCanon) : (m.abandon c).MemCanon :=
  ite_canon h (countCore_canon _ _ _ (setCore_canon _ _ h))

theorem takeIf_canon {m : Mach} (c : Nat) (d : Due) (vec : Bool) (h : m.MemCanon) : (m.takeIf c d vec).MemCanon := by
  dsimp only [Mach.takeIf]
  split
  · exact h
  · split
    · exact wake_canon _ h
    · split
      · exact takeDue_canon _ _ (ite_canon (abandon_canon _ h) h)
      · exact h

theorem nmiAt_canon {m : Mach} (c : Nat) (vec : Bool) (h : m.MemCanon) : (m.nmiAt c vec).MemCanon :=
  ite_canon (takeNmi_canon _ h) (takeIf_canon _ _ _ h)

theorem fetchFault_canon {m : Mach} (c : Nat) (h : m.MemCanon) : (m.fetchFault c).MemCanon := by
  dsimp only [Mach.fetchFault]
  split
  · exact h
  · split
    · next he => exact trap_canon _ _ (fetch_error_canon h he)
    · exact h

theorem refusedResponse_canon {m : Mach} (c : Nat) (a : Acc) (r : Rule) (addr : Nat) (phys old : Bool) (h : m.MemCanon) :
    (m.refusedResponse c a r addr phys old).MemCanon :=
  ite_canon h (holdRefused_canon _ _ h)

theorem writeRoute_canon {m : Mach} (mst : Master) (v : W64) (h : m.MemCanon) : (m.writeRoute mst v).MemCanon :=
  ite_canon h (of_parts_canon h rfl rfl)

theorem fireEvent_canon {m : Mach} (mst : Master) (v : W64) (h : m.MemCanon) : (m.fireEvent mst v).MemCanon :=
  ite_canon h (raiseEvent_canon _ h)

theorem deliverEvent_canon {m : Mach} (n : Nat) (h : m.MemCanon) : (m.deliverEvent n).MemCanon := ite_canon (wake_canon _ h) h

theorem timerExpires_canon {m : Mach} (c : Nat) (h : m.MemCanon) : (m.timerExpires c).MemCanon :=
  ite_canon h (wake_canon _ (of_parts_canon h rfl rfl))

theorem deliverNmi_canon {m : Mach} (c : Nat) (h : m.MemCanon) : (m.deliverNmi c).MemCanon := by
  dsimp only [Mach.deliverNmi]
  split
  · exact h
  · exact setCore_canon _ _ h
  · exact setCore_canon _ _ h
  · exact setCore_canon _ _ h
  · exact ite_canon (countReg_canon _ _ _ _ _ _ h) (setCore_canon _ _ h)
  · exact ite_canon (countReg_canon _ _ _ _ _ _ h) (setCore_canon _ _ h)
  · exact ite_canon (countReg_canon _ _ _ _ _ _ h) (setCore_canon _ _ h)

theorem nmiAll_canon {m : Mach} (h : m.MemCanon) : m.nmiAll.MemCanon := by
  dsimp only [Mach.nmiAll]
  split
  · exact h
  · exact foldl_keeps (P := Mach.MemCanon) _ _ h (fun _ hb _ => ite_canon (deliverNmi_canon _ hb) hb)

theorem nmiAssert_canon {m : Mach} (h : m.MemCanon) : m.nmiAssert.MemCanon :=
  ite_canon h (nmiAll_canon (setRegBit_canon _ _ _ _ _ (countReg_canon _ _ _ _ _ _ h)))

/-! ### Canonical memory: queues and record pairs -/

theorem setQueue_canon {m : Mach} (q : Nat) (x : Queue) (h : m.MemCanon) : (m.setQueue q x).MemCanon := of_parts_canon h rfl rfl

theorem setEngine_canon {m : Mach} (e : Nat) (x : Engine) (h : m.MemCanon) : (m.setEngine e x).MemCanon := of_parts_canon h rfl rfl

theorem setVqf_canon {m : Mach} (e v : Nat) (x : Vqf) (h : m.MemCanon) : (m.setVqf e v x).MemCanon := of_parts_canon h rfl rfl

theorem modRec_canon {m : Mach} (q s : Nat) (f : LRec → LRec) (h : m.MemCanon) : (m.modRec q s f).MemCanon := setQueue_canon _ _ h

theorem enginePa_canon {m : Mach} (q a : Nat) (h : m.MemCanon) : SomeAll (fun r => r.2.MemCanon) (m.enginePa q a) := by
  dsimp only [Mach.enginePa]
  split
  · exact h
  · split
    · exact trivial
    · split
      · exact trivial
      · dsimp only [OkAll, SomeAll]
        split
        · refine setByte_canon _ _ ?_
          split
          · exact homeWrite_canon _ _ h
          · exact h
        · exact h

theorem haltDelivery_canon {m : Mach} (q a : Nat) (h : m.MemCanon) : (m.haltDelivery q a).MemCanon :=
  ite_canon h (raiseOwn_canon _ _ _ (setVqf_canon _ _ _ (setQueue_canon _ _ h)))

theorem pairPa_canon {m : Mach} (q i : Nat) (h : m.MemCanon) : SomeAll (fun r => r.2.MemCanon) (m.pairPa q i) := by
  have hp := enginePa_canon q (m.queue q).rgPage h
  dsimp only [Mach.pairPa]
  cases he : m.enginePa q (m.queue q).rgPage with
  | none => exact trivial
  | some p => exact SomeAll.elim he hp id

theorem revokePair_canon {m : Mach} (q i : Nat) (h : m.MemCanon) : (m.revokePair q i).MemCanon := by
  dsimp only [Mach.revokePair]
  split
  · exact haltDelivery_canon _ _ h
  · next _ _ t he =>
      have hke : t.MemCanon := SomeAll.elim he (pairPa_canon _ _ h) id
      exact revoke_canon _ _ _ _ hke

theorem freeBufs_canon {m : Mach} (e : Nat) (bs : List Nat) (h : m.MemCanon) : (m.freeBufs e bs).MemCanon :=
  ite_canon h (setEngine_canon _ _ h)

theorem handBack_canon {m : Mach} (q s : Nat) (revoke : Bool) (h : m.MemCanon) : (m.handBack q s revoke).MemCanon := by
  dsimp only [Mach.handBack]
  split
  · exact h
  · split
    · exact h
    · refine modRec_canon _ _ _ ?_
      refine freeBufs_canon _ _ ?_
      split
      · exact ite_canon (revokePair_canon _ _ h) h
      · exact h

theorem handBackTaker_canon {m : Mach} (st : Nat) (h : m.MemCanon) : (m.handBackTaker st).MemCanon :=
  foldl_keeps (P := Mach.MemCanon) _ _ h (fun _ hb _ => foldl_keeps (P := Mach.MemCanon) _ _ hb
    (fun _ hb1 _ => ite_canon (handBack_canon _ _ _ hb1) hb1))

/-! ### Canonical memory: the instructions of a core -/

theorem window_canon {m : Mach} (mst : Master) (st k off : Nat) (f : Mach → Mach) (h : m.MemCanon)
    (hf : ∀ (a : Mach), a.MemCanon → (f a).MemCanon) : (m.window mst st k off f).MemCanon := by
  dsimp only [Mach.window]
  split
  · exact h
  · split
    · exact logViol_canon _ _ _ h
    · exact ite_canon (logViol_canon _ _ _ h) (hf _ h)

theorem windowRead_canon {m : Mach} (mst : Master) (st k off : Nat) (f : Mach → Mach) (h : m.MemCanon)
    (hf : ∀ (a : Mach), a.MemCanon → (f a).MemCanon) : (m.windowRead mst st k off f).MemCanon := by
  dsimp only [Mach.windowRead]
  split
  · exact h
  · exact ite_canon (hf _ h) (logViol_canon _ _ _ h)

theorem coreWindow_canon {m : Mach} (mst : Master) (c off : Nat) (f : Mach → Mach) (h : m.MemCanon)
    (hf : ∀ (a : Mach), a.MemCanon → (f a).MemCanon) : (m.coreWindow mst c off f).MemCanon :=
  ite_canon h (window_canon _ _ _ _ _ h hf)

theorem cign_canon {m : Mach} (c : Nat) (h : m.MemCanon) : (m.cign c).MemCanon := setCore_canon _ _ h

theorem stopCmd_canon {m : Mach} (mst : Master) (c : Nat) (vec : Bool) (h : m.MemCanon) : (m.stopCmd mst c vec).MemCanon := by
  dsimp only [Mach.stopCmd]
  split
  · exact cign_canon _ h
  · split
    · exact setCore_canon _ _ (ite_canon (abandon_canon _ h) h)
    · exact setCore_canon _ _ h
    · exact setCore_canon _ _ h
    · exact cign_canon _ h

theorem stopComplete_canon {m : Mach} (c : Nat) (h : m.MemCanon) : (m.stopComplete c).MemCanon := by
  dsimp only [Mach.stopComplete]
  split
  · exact h
  · split
    · exact ite_canon (takeDue_canon _ _ h) (setCore_canon _ _ (serialPoint_canon _ (takeDue_canon _ _ h)))
    · exact ite_canon h (setCore_canon _ _ (serialPoint_canon _ h))

theorem resumeCmd_canon {m : Mach} (mst : Master) (c : Nat) (h : m.MemCanon) : (m.resumeCmd mst c).MemCanon :=
  ite_canon (cign_canon _ h) (setCore_canon _ _ h)

theorem restart_canon {m : Mach} (c : Nat) (h : m.MemCanon) : (m.restart c).MemCanon := enterDomain_canon _ (setCore_canon _ _ h)

theorem restartCmd_canon {m : Mach} (mst : Master) (c : Nat) (h : m.MemCanon) : (m.restartCmd mst c).MemCanon :=
  ite_canon (cign_canon _ h) (restart_canon _ h)

theorem ctxWrite_canon {m : Mach} (c off : Nat) (w : Word) (h : m.MemCanon) : (m.ctxWrite c off w).MemCanon := by
  dsimp only [Mach.ctxWrite]
  split
  · exact h
  · split
    · exact setCore_canon _ _ h
    · exact setCore_canon _ _ h

theorem unlock_canon {m : Mach} (st k : Nat) (v : W64) (h : m.MemCanon) : (m.unlock st k v).MemCanon := setBlk_canon _ _ _ h

theorem violClear_canon {m : Mach} (st k : Nat) (v : W64) (arrivals : List Viol) (h : m.MemCanon) :
    (m.violClear st k v arrivals).MemCanon :=
  foldl_keeps (P := Mach.MemCanon) _ _ (ite_canon (setBlk_canon _ _ _ h) h) (fun _ hb _ => logViol_canon _ _ _ hb)

theorem openShadow_canon {m : Mach} (st : Nat) (h : m.MemCanon) : (m.openShadow st).MemCanon := of_parts_canon h rfl rfl

theorem clearCoreBank_canon {m : Mach} (st k : Nat) (h : m.MemCanon) : (m.clearCoreBank st k).MemCanon :=
  foldl_keeps (P := Mach.MemCanon) _ _ (setRegBit_canon _ _ _ _ _ (setReg_canon _ _ _ _ h)) (fun _ hb _ => setReg_canon _ _ _ _ hb)

theorem resetWindow_canon {m : Mach} (st k : Nat) (h : m.MemCanon) : (m.resetWindow st k).MemCanon :=
  ite_canon (setRegBit_canon _ _ _ _ _ (setBlk_canon _ _ _ h)) (setBlk_canon _ _ _ h)

theorem resetCore_canon {m : Mach} (c : Nat) (h : m.MemCanon) : (m.resetCore c).MemCanon :=
  resetWindow_canon _ _ (clearCoreBank_canon _ _ (setCore_canon _ _ h))

theorem lostLine_canon {m : Mach} (p : Nat × List W64) (h : m.MemCanon) : (m.lostLine p).MemCanon := by
  dsimp only [Mach.lostLine]
  refine raiseOpt_canon _ _ _ (foldl_keeps (P := Mach.MemCanon) _ _
    (unstale_canon _ (setDir_canon _ _ (dropL3_canon _ (dropLines_canon _ _ h)))) (fun _ hb _ => putWord_canon _ _ _ _ hb))

theorem podReset_canon {m : Mach} (p : Nat) (lost : List (Nat × List W64)) (h : m.MemCanon) : (m.podReset p lost).MemCanon := by
  dsimp only [Mach.podReset]
  refine foldl_keeps (P := Mach.MemCanon) _ _ ?_ fun _ hb1 _ => ?_
  · refine foldl_keeps (P := Mach.MemCanon) _ _ (foldl_keeps (P := Mach.MemCanon) _ _
      (handBackTaker_canon _ (resetWindow_canon _ _ (openShadow_canon _ h))) (fun _ hb _ => lostLine_canon _ hb)) fun _ hb1 _ => ?_
    exact emptyL2_canon _ hb1
  · exact resetCore_canon _ hb1

theorem drainKept_canon {m : Mach} (c : Nat) (lost : List Nat) (h : m.MemCanon) : (m.drainKept c lost).MemCanon :=
  drainAll_canon _ (setCore_canon _ _ h)

theorem ccReset_canon {m : Mach} (k : Nat) (lost : List (Nat × List W64)) (h : m.MemCanon) : (m.ccReset k lost).MemCanon := by
  dsimp only [Mach.ccReset]
  refine clearBank_canon _ ?_
  refine resetWindow_canon _ _ ?_
  refine foldl_keeps (P := Mach.MemCanon) _ _ ?_ fun _ hb1 _ => ?_
  · refine foldl_keeps (P := Mach.MemCanon) _ _ (handBackTaker_canon _
      (resetWindow_canon _ _ (openShadow_canon _ (foldl_keeps (P := Mach.MemCanon) _ _ h (fun _ hb _ => drainKept_canon _ _ hb))))) fun _
        hb1 _ => ?_
    exact lostLine_canon _ hb1
  · exact resetCore_canon _ hb1

theorem l1Disable_canon {m : Mach} (c : Nat) (h : m.MemCanon) : (m.l1Disable c).MemCanon :=
  ite_canon h (setReg_canon _ _ _ _ (setCore_canon _ _ (drainAll_canon _ h)))

/-! ### Canonical memory: coherence -/

theorem trackStat_canon {m : Mach} (p : Nat) (h : m.MemCanon) : (m.trackStat p).MemCanon := setReg_canon _ _ _ _ h

theorem countReq_canon {m : Mach} (t : Txn) (ev n : Nat) (h : m.MemCanon) : (m.countReq t ev n).MemCanon := countUncore_canon _ _ _ h

theorem modActive_canon {m : Mach} (line : Nat) (f : Txn → Txn) (h : m.MemCanon) : (m.modActive line f).MemCanon :=
  of_parts_canon h rfl rfl

theorem orderReq_canon {m : Mach} (t : Txn) (h : m.MemCanon) : (m.orderReq t).MemCanon :=
  countReq_canon _ _ _ (countReq_canon _ _ _ (of_parts_canon h rfl rfl))

theorem mergeWord_canon {m : Mach} (a mask : Nat) (d : W64) (poison : Bool) (h : m.MemCanon) : (m.mergeWord a mask d poison).MemCanon :=
  ite_canon h (setMeta_canon _ _ (writeN_canon _ _ _ h))

theorem homeBytes_canon {m : Mach} (stop unit : Nat) (writer : Option Nat) (line mask : Nat) (data : List W64) (poison : Nat)
    (h : m.MemCanon) : (m.homeBytes stop unit writer line mask data poison).MemCanon := by
  dsimp only [Mach.homeBytes]
  refine foldl_keeps (P := Mach.MemCanon) _ _ ?_ fun _ hb1 _ => ?_
  · refine l1Inval_canon _ _ ?_
    split
    · exact openLine_canon _ (homeWrite_canon _ _ h)
    · exact homeWrite_canon _ _ h
  · split
    · exact hb1
    · exact mirrorWrite_canon _ _ _ _ (stored_canon _ (mergeWord_canon _ _ _ _ hb1))

theorem homeAtom_canon {m : Mach} (t : Txn) (h : m.MemCanon) : (m.homeAtom t).1.MemCanon := by
  dsimp only [Mach.homeAtom]
  split
  · exact l1Inval_canon _ _ (homeWrite_canon _ _ h)
  · refine mirrorWrite_canon _ _ _ _ (stored_canon _ (putWord_canon _ _ _ _ (l1Inval_canon _ _ (homeWrite_canon _ _ h))))

theorem complete_canon {m : Mach} (t : Txn) (h : m.MemCanon) : (m.complete t).MemCanon := by
  dsimp only [Mach.complete]
  split
  · exact modActive_canon _ _ (setDir_canon _ _ (ite_canon h (homeRead_canon _ _ h)))
  · exact modActive_canon _ _ (setDir_canon _ _ (ite_canon h (homeRead_canon _ _ h)))
  · exact modActive_canon _ _ (setDir_canon _ _ (ite_canon h (homeRead_canon _ _ h)))
  · exact of_parts_canon (homeBytes_canon _ _ _ _ _ _ _ h) rfl rfl
  · exact of_parts_canon (homeBytes_canon _ _ _ _ _ _ _ h) rfl rfl
  · exact of_parts_canon (homeAtom_canon _ h) rfl rfl
  · exact of_parts_canon (homeRead_canon _ _ h) rfl rfl

theorem pump_canon {m : Mach} (line n : Nat) (h : m.MemCanon) : (m.pump line n).MemCanon := by
  induction n generalizing m with
  | zero => exact h
  | succ n ih =>
    dsimp only [Mach.pump]
    split
    · split
      · exact ih (complete_canon _ h)
      · exact h
    · split
      · exact ih (orderReq_canon _ h)
      · exact h

theorem run_canon {m : Mach} (line : Nat) (h : m.MemCanon) : (m.run line).MemCanon := trackStat_canon _ (pump_canon _ _ h)

theorem unpin_canon {m : Mach} (p : Nat) (h : m.MemCanon) : (m.unpin p).MemCanon := by
  dsimp only [Mach.unpin]
  split
  · exact run_canon _ (of_parts_canon h rfl rfl)
  · exact h

theorem runEnd_canon {m : Mach} (line : Nat) (h : m.MemCanon) : (m.runEnd line).MemCanon :=
  ite_canon (unpin_canon _ (run_canon _ h)) (run_canon _ h)

theorem backInvalidate_canon {m : Mach} (p v : Nat) (h : m.MemCanon) : (m.backInvalidate p v).MemCanon := by
  dsimp only [Mach.backInvalidate]
  split
  · exact h
  · refine countUncore_canon _ _ _ ?_
    refine countSlice_canon _ _ ?_
    refine countReg_canon _ _ _ _ _ _ ?_
    refine setDir_canon _ _ ?_
    refine l1Inval_canon _ _ ?_
    refine dropLines_canon _ _ ?_
    split
    · exact l3Return_canon _ _ h
    · exact h

theorem submit_canon {m : Mach} (t : Txn) (h : m.MemCanon) : (m.submit t).MemCanon := by
  dsimp only [Mach.submit]
  split
  · exact h
  · split
    · exact of_parts_canon h rfl rfl
    · split
      · exact countReg_canon _ _ _ _ _ _ (logViol_canon _ _ _ h)
      · split
        · split
          · exact h
          · exact ite_canon (run_canon _ (of_parts_canon h rfl rfl))
              (countReq_canon _ _ _ (countReg_canon _ _ _ _ _ _ (of_parts_canon h rfl rfl)))
        · exact ite_canon (run_canon _ (of_parts_canon h rfl rfl))
            (countReq_canon _ _ _ (countReg_canon _ _ _ _ _ _ (of_parts_canon h rfl rfl)))

theorem cacheReq_canon {m : Mach} (k : ReqKind) (a line tc : Nat) (victim : Option Nat) (pinned : Bool) (h : m.MemCanon) :
    (m.cacheReq k a line tc victim pinned).MemCanon := by
  dsimp only [Mach.cacheReq]
  split
  · exact h
  · split
    · exact submit_canon _ h
    · split
      · exact countReg_canon _ _ _ _ _ _ (submit_canon _ h)
      · split
        · exact submit_canon _ (backInvalidate_canon _ _ h)
        · exact submit_canon _ h

theorem loseLine_canon {m : Mach} (a line : Nat) (h : m.MemCanon) : (m.loseLine a line).MemCanon :=
  ite_canon (setCore_canon _ _ h) (setLine_canon _ _ _ h)

theorem snoop_canon {m : Mach} (a line : Nat) (k : Snp) (wb : Bool) (h : m.MemCanon) : (m.snoop a line k wb).MemCanon := by
  dsimp only [Mach.snoop]
  split
  · exact h
  · split
    · exact h
    · refine modActive_canon _ _ ?_
      split
      · exact loseLine_canon _ _ h
      · split
        · exact h
        · split
          · exact ite_canon h (setLine_canon _ _ _ h)
          · exact loseLine_canon _ _ h
          · exact loseLine_canon _ _ h
          · exact ite_canon (setLine_canon _ _ _ h) h

theorem answer_canon {m : Mach} (a line : Nat) (r : Rsp) (h : m.MemCanon) : (m.answer a line r).MemCanon := by
  dsimp only [Mach.answer]
  split
  · exact h
  · split
    · exact h
    · refine runEnd_canon _ ?_
      split
      · exact setDir_canon _ _ (ite_canon (l3Return_canon _ _ (modActive_canon _ _ h)) (modActive_canon _ _ h))
      · exact setDir_canon _ _ (ite_canon (l3Return_canon _ _ (modActive_canon _ _ h)) (modActive_canon _ _ h))
      · split
        · exact modActive_canon _ _ (setDir_canon _ _ (l3Return_canon _ _
            (ite_canon (l3Return_canon _ _ (modActive_canon _ _ h)) (modActive_canon _ _ h))))
        · exact modActive_canon _ _ (ite_canon (l3Return_canon _ _ (modActive_canon _ _ h)) (modActive_canon _ _ h))

theorem installLine_canon {m : Mach} (t : Txn) (h : m.MemCanon) : (m.installLine t).MemCanon := by
  dsimp only [Mach.installLine]
  split
  · exact h
  · split
    · exact l1Access_canon _ _ _ h
    · exact ite_canon (becomeM_canon _ _ h) (setLine_canon _ _ _ h)

theorem arrive_canon {m : Mach} (stop unit line : Nat) (go : Bool) (h : m.MemCanon) : (m.arrive stop unit line go).MemCanon := by
  dsimp only [Mach.arrive]
  split
  · split
    · exact ite_canon (installLine_canon _ (modActive_canon _ _ h)) (modActive_canon _ _ h)
    · exact h
  · split
    · exact ite_canon (of_parts_canon h rfl rfl) (of_parts_canon h rfl rfl)
    · exact h

theorem cmp_canon {m : Mach} (stop unit line : Nat) (h : m.MemCanon) : (m.cmp stop unit line).MemCanon := by
  dsimp only [Mach.cmp]
  split
  · exact ite_canon (unpin_canon _ (run_canon _ (of_parts_canon h rfl rfl))) h
  · exact h

theorem writeback_canon {m : Mach} (a line : Nat) (h : m.MemCanon) : (m.writeback a line).MemCanon := by
  unfold Mach.writeback
  extract_lets inTxn awaited m1 m2 src m3
  have h2 : m2.MemCanon := modActive_canon _ _ (setDir_canon _ _ (l3Return_canon _ _ h))
  clear_value m2
  have h3 : m3.MemCanon := countCore_canon _ _ _ (of_parts_canon (m := src) (setLine_canon _ _ _ h) rfl rfl)
  refine ite_canon h (ite_canon (runEnd_canon _ (countCore_canon _ _ _ (of_parts_canon h2 rfl rfl))) (ite_canon h ?_))
  cases inTxn with
  | some _ => exact modActive_canon _ _ h3
  | none => exact setDir_canon _ _ (l3Return_canon _ _ h3)

theorem evict_canon {m : Mach} (a line : Nat) (h : m.MemCanon) : (m.evict a line).MemCanon := by
  dsimp only [Mach.evict]
  split
  · exact h
  · exact ite_canon (of_parts_canon (m := m.setLine a line LineSt.I) (setLine_canon _ _ _ h) rfl rfl)
      (setDir_canon _ _ (of_parts_canon (m := m.setLine a line LineSt.I) (setLine_canon _ _ _ h) rfl rfl))

theorem retryTold_canon {m : Mach} (stop unit line : Nat) (h : m.MemCanon) : (m.retryTold stop unit line).MemCanon :=
  of_parts_canon h rfl rfl

theorem credit_canon {m : Mach} (p : Nat) (h : m.MemCanon) : (m.credit p).MemCanon := by
  dsimp only [Mach.credit]
  split
  · exact of_parts_canon h rfl rfl
  · exact h

theorem prefetch_canon {m : Mach} (c w trained va : Nat) (h : m.MemCanon) : (m.prefetch c w trained va).MemCanon := by
  dsimp only [Mach.prefetch]
  split
  · exact h
  · split
    · split
      · exact h
      · exact ite_canon h (submit_canon _ h)
    · exact h

theorem cleanL2_canon {m : Mach} (c : Nat) (h : m.MemCanon) : (m.cleanL2 c).MemCanon :=
  ite_canon h (setReg_canon _ _ _ _ (emptyL2_canon _ h))

theorem disableL3_canon {m : Mach} (p : Nat) (h : m.MemCanon) : (m.disableL3 p).MemCanon :=
  ite_canon h (setReg_canon _ _ _ _ (setSlotsL3_canon _ _ (foldl_keeps (P := Mach.MemCanon) _ _ h (fun _ hb _ => l3ToMemory_canon _ hb))))

theorem moveBucket_canon {m : Mach} (v : W64) (h : m.MemCanon) : (m.moveBucket v).MemCanon := by
  dsimp only [Mach.moveBucket]
  exact ite_canon (setRegBit_canon _ _ _ _ _ h) (of_parts_canon (m := m.setRegBit 0 0 1680 0 true) (setRegBit_canon _ _ _ _ _ h) rfl rfl)

theorem recallBucket_canon {m : Mach} (h : Nat) (h1 : m.MemCanon) : (m.recallBucket h).MemCanon :=
  setSlotsL3_canon _ _ (foldl_keeps (P := Mach.MemCanon) _ _ (of_parts_canon h1 rfl rfl) (fun _ hb _ => unstale_canon _ hb))

theorem moveDone_canon {m : Mach} (h : m.MemCanon) : m.moveDone.MemCanon := by
  dsimp only [Mach.moveDone]
  split
  · exact h
  · split
    · exact h
    · refine foldl_keeps (P := Mach.MemCanon) _ _ (countReg_canon _ _ _ _ _ _
        (setRegBit_canon _ _ _ _ _ (of_parts_canon (recallBucket_canon _ h) rfl rfl))) fun _ hb1 _ => ?_
      exact submit_canon _ hb1

theorem settleTokens_canon {m : Mach} (st : Nat) (h : m.MemCanon) : (m.settleTokens st).MemCanon := of_parts_canon h rfl rfl

theorem meterTc0_canon {m : Mach} (st : Nat) (h : m.MemCanon) : (m.meterTc0 st).MemCanon :=
  ite_canon (countReg_canon _ _ _ _ _ _ (settleTokens_canon _ h)) (countReg_canon _ _ _ _ _ _ (of_parts_canon h rfl rfl))

theorem flit_canon {m : Mach} (st : Nat) (tc0 : Bool) (ce : Nat) (bad : List Nat) (header : Bool) (h : m.MemCanon) :
    (m.flit st tc0 ce bad header).MemCanon := by
  dsimp only [Mach.flit]
  split
  · exact h
  · split
    · exact raiseOwn_canon _ _ _ (setRegBit_canon _ _ _ _ _ (countReg_canon _ _ _ _ _ _ (ite_canon (meterTc0_canon _ h) h)))
    · exact foldl_keeps (P := Mach.MemCanon) _ _ (countReg_canon _ _ _ _ _ _ (ite_canon (meterTc0_canon _ h) h))
        (fun _ hb _ => poisonWord_canon _ hb)

/-! ### Canonical memory: capability instructions -/

theorem liveOp_canon {m : Mach} (c : Nat) (w : Word) (h : m.MemCanon) : OkAll (fun r => r.2.2.MemCanon) (m.liveOp c w) := by
  dsimp only [Mach.liveOp]
  split
  · exact trivial
  · exact live_canon _ _ _ _ _ h

theorem mintSeal_canon {m : Mach} (c : Nat) (q : MintReq) (request : Word) (h : m.MemCanon) :
    OkAll (fun r => r.MemCanon) (m.mintSeal c q request) := by
  dsimp only [Mach.mintSeal]
  split
  · exact trivial
  · next _ _ _ t he =>
      have hke : t.MemCanon := OkAll.elim he (liveOp_canon _ _ h) id
      split
      · exact trivial
      · split
        · exact trivial
        · split
          · exact trivial
          · exact hke

theorem mintWrite_canon {m : Mach} (c : Nat) (q : MintReq) (pa : Nat) (h : m.MemCanon) : (m.mintWrite c q pa).2.MemCanon := by
  dsimp only [Mach.mintWrite]
  split
  · exact h
  · split
    · exact h
    · split
      · exact writeGrant_canon _ _ _ _ (writeGrant_canon _ _ _ _ h)
      · exact writeGrant_canon _ _ _ _ h

theorem mintChecked_canon {m : Mach} (c d : Nat) (q : MintReq) (p : Grant) (parent request : Word) (h : m.MemCanon) :
    ResCanon (m.mintChecked c d q p parent request) := by
  dsimp only [Mach.mintChecked]
  split
  · exact trivial
  · split
    · exact trivial
    · next t he =>
      have h1 : t.MemCanon := by
        split at he
        · exact OkAll.elim he (mintSeal_canon _ _ _ h) id
        · exact Except.ok.inj he ▸ h
      split
      · exact trivial
      · next he2 => exact setG_canon _ _ _ (mintWrite_canon _ _ _ (OkAll.elim he2 (entryPa_canon _ _ _ h1) id))

theorem gmint_canon (c : Nat) (d a b : BitVec 6) {m : Mach} (h : m.MemCanon) : (gmint c d a b m).MemCanon := by
  dsimp only [gmint]
  refine instr_canon _ _ _ h ?_
  intro m1 h1
  split
  · exact trivial
  · next _ _ _ t he =>
      have hke : t.MemCanon := OkAll.elim he (liveOp_canon _ _ h1) id
      split
      · exact trivial
      · split
        · exact trivial
        · split
          · exact trivial
          · next _ _ t1 he1 =>
              have hke1 : t1.MemCanon := OkAll.elim he1 (firstPiece_canon _ _ _ _ hke) id
              split
              · exact trivial
              · exact mintChecked_canon _ _ _ _ _ _ (readUpsets_canon _ _ _ _ (loadSide_canon _ _ hke1))

theorem grevoke_canon (c : Nat) (d a b : BitVec 6) {m : Mach} (h : m.MemCanon) : (grevoke c d a b m).MemCanon := by
  dsimp only [grevoke]
  refine instr_canon _ _ _ h ?_
  intro m1 h1
  split
  · exact trivial
  · split
    · exact trivial
    · split
      · exact trivial
      · next _ _ _ t he =>
          have hke : t.MemCanon := OkAll.elim he (entry_canon _ _ _ h1) id
          split
          · exact setG_canon _ _ _ hke
          · split
            · exact trivial
            · next _ _ _ t1 he1 =>
                have hke1 : t1.MemCanon := OkAll.elim he1 (live_canon _ _ _ _ _ hke) id
                split
                · exact setG_canon _ _ _ (revoke_canon _ _ _ _ hke1)
                · exact trivial

theorem csetc_canon (c : Nat) (d a b : BitVec 6) (absolute : Bool) {m : Mach} (h : m.MemCanon) : (csetc c d a b absolute m).MemCanon := by
  dsimp only [csetc]
  refine instr_canon _ _ _ h ?_
  intro m1 h1
  split
  · exact trivial
  · exact result_canon _ _ _ h1

theorem csetcSr_canon (c : Nat) (n a b : BitVec 6) {m : Mach} (h : m.MemCanon) : (csetcSr c n a b m).MemCanon := by
  dsimp only [csetcSr]
  refine instr_canon _ _ _ h ?_
  intro m1 h1
  split
  · exact trivial
  · split
    · exact trivial
    · exact setCore_canon _ _ h1

theorem sealMove_canon {m : Mach} (c d : Nat) (up : Bool) (x y : Word) (g s : Grant) (pa : Nat) (h : m.MemCanon) :
    ResCanon (m.sealMove c d up x y g s pa) := by
  dsimp only [Mach.sealMove]
  split
  · exact trivial
  · split
    · split
      · exact trivial
      · split
        · exact trivial
        · exact setG_canon _ _ _ h
    · split
      · exact trivial
      · split
        · exact trivial
        · exact setG_canon _ _ _ h

theorem sealInstr_canon (c : Nat) (d a b : BitVec 6) (up : Bool) {m : Mach} (h : m.MemCanon) : (sealInstr c d a b up m).MemCanon := by
  dsimp only [sealInstr]
  refine instr_canon _ _ _ h ?_
  intro m1 h1
  split
  · exact trivial
  · next _ _ _ t he =>
      have hke : t.MemCanon := OkAll.elim he (liveOp_canon _ _ h1) id
      split
      · exact trivial
      · next _ _ _ t1 he1 =>
          have hke1 : t1.MemCanon := OkAll.elim he1 (liveOp_canon _ _ hke) id
          exact sealMove_canon _ _ _ _ _ _ _ _ hke1

theorem ctest_canon (c : Nat) (d a : BitVec 6) {m : Mach} (h : m.MemCanon) : (ctest c d a m).MemCanon :=
  instr_canon _ _ _ h (fun _ h1 => result_canon _ _ _ h1)

/-! ### Canonical memory: operands -/

theorem alu2_canon (c : Nat) (d a b : BitVec 6) (f : W64 → W64 → W64) {m : Mach} (h : m.MemCanon) : (alu2 c d a b f m).MemCanon :=
  instr_canon _ _ _ h (fun _ h1 => result_canon _ _ _ h1)

theorem alu1_canon (c : Nat) (d a : BitVec 6) (f : W64 → W64) {m : Mach} (h : m.MemCanon) : (alu1 c d a f m).MemCanon :=
  instr_canon _ _ _ h (fun _ h1 => result_canon _ _ _ h1)

theorem alu3_canon (c : Nat) (d a b : BitVec 6) (f : W64 → W64 → W64 → W64) {m : Mach} (h : m.MemCanon) : (alu3 c d a b f m).MemCanon :=
  instr_canon _ _ _ h (fun _ h1 => result_canon _ _ _ h1)

theorem alu1If_canon (legal : Bool) (c : Nat) (d a : BitVec 6) (f : W64 → W64) {m : Mach} (h : m.MemCanon) :
    (alu1If legal c d a f m).MemCanon := by
  dsimp only [alu1If]
  refine instr_canon _ _ _ h ?_
  intro m1 h1
  split
  · exact trivial
  · exact result_canon _ _ _ h1

theorem alu2If_canon (legal : Bool) (c : Nat) (d a b : BitVec 6) (f : W64 → W64 → W64) {m : Mach} (h : m.MemCanon) :
    (alu2If legal c d a b f m).MemCanon := by
  dsimp only [alu2If]
  refine instr_canon _ _ _ h ?_
  intro m1 h1
  split
  · exact trivial
  · exact result_canon _ _ _ h1

/-! ### Canonical memory: loads, stores and atomics -/

theorem countRp_canon {m : Mach} (c r pa : Nat) (h : m.MemCanon) : (m.countRp c r pa).MemCanon := countUncore_canon _ _ _ h

theorem rpLoad_canon {m : Mach} (c d r : Nat) (p : Piece) (n : Nat) (signed : Bool) (h : m.MemCanon) :
    ResCanon (m.rpLoad c d r p n signed) := by
  dsimp only [Mach.rpLoad]
  split
  · exact setCore_canon _ _ (countRp_canon _ _ _ h)
  · exact setG_canon _ _ _ (countReg_canon _ _ _ _ _ _ (countRp_canon _ _ _ h))

theorem loadSides_canon {m : Mach} (c : Nat) (ps : List Piece) (h : m.MemCanon) : (m.loadSides c ps).MemCanon :=
  foldl_keeps (P := Mach.MemCanon) _ _ h (fun _ hb _ => readUpsets_canon _ _ _ _ (loadSide_canon _ _ hb))

theorem loadChecked_canon {m : Mach} (c d : Nat) (ps : List Piece) (n : Nat) (signed cap : Bool) (h : m.MemCanon) :
    ResCanon (m.loadChecked c d ps n signed cap) := by
  dsimp only [Mach.loadChecked]
  split
  · exact h
  · split
    · exact rpLoad_canon _ _ _ _ _ _ h
    · split
      · exact setG_canon _ _ _ (drawn_canon h)
      · exact setG_canon _ _ _ (loadSides_canon _ _ h)

theorem loadBody_canon (c : Nat) (d : BitVec 6) (cap : Word) (idxPoison : Bool) (ea : Int) (n : Nat) (signed : Bool) {m : Mach}
    (h : m.MemCanon) : ResCanon (loadBody c d cap idxPoison ea n signed m) := by
  dsimp only [loadBody]
  split
  · exact trivial
  · split
    · exact trivial
    · next _ _ _ t he =>
        have hke : t.MemCanon := OkAll.elim he (check_canon _ _ _ _ h) id
        split
        · exact trivial
        · exact loadChecked_canon _ _ _ _ _ _ hke

theorem loadImm_canon (c : Nat) (d a : BitVec 6) (off : Int) (n : Nat) (signed : Bool) {m : Mach} (h : m.MemCanon) :
    (loadImm c d a off n signed m).MemCanon :=
  instr_canon _ _ _ h (fun _ h1 => loadBody_canon _ _ _ _ _ _ _ h1)

theorem loadIdx_canon (c : Nat) (d a b : BitVec 6) (n : Nat) (signed : Bool) {m : Mach} (h : m.MemCanon) :
    (loadIdx c d a b n signed m).MemCanon :=
  instr_canon _ _ _ h (fun _ h1 => loadBody_canon _ _ _ _ _ _ _ h1)

theorem storePieces_canon {m : Mach} (c : Nat) (g : Grant) (a : Acc) (v : Nat) (poison : Bool) (ps : List Piece) (h : m.MemCanon) :
    (m.storePieces c g a v poison ps).MemCanon := by
  induction ps generalizing m v with
  | nil => exact h
  | cons p ps ih =>
    dsimp only [Mach.storePieces]
    split
    · exact ih _ (holdRefused_canon _ _ (logSite_canon _ _ _ _ _ _ h))
    · refine ih _ ?_
      split
      · exact countRp_canon _ _ _ h
      · exact storePiece_canon _ _ _ _ h

theorem storeBody_canon (c : Nat) (src cap : Word) (idxPoison : Bool) (ea : Int) (n : Nat) {m : Mach} (h : m.MemCanon) :
    ResCanon (storeBody c src cap idxPoison ea n m) := by
  dsimp only [storeBody]
  split
  · exact trivial
  · split
    · exact trivial
    · next _ _ _ t he =>
        have hke : t.MemCanon := OkAll.elim he (check_canon _ _ _ _ h) id
        split
        · exact hke
        · exact storePieces_canon _ _ _ _ _ _ hke

theorem storeImm_canon (c : Nat) (src a : BitVec 6) (off : Int) (n : Nat) {m : Mach} (h : m.MemCanon) :
    (storeImm c src a off n m).MemCanon :=
  instr_canon _ _ _ h (fun _ h1 => storeBody_canon _ _ _ _ _ _ h1)

theorem storeIdx_canon (c : Nat) (src a b : BitVec 6) (n : Nat) {m : Mach} (h : m.MemCanon) : (storeIdx c src a b n m).MemCanon :=
  instr_canon _ _ _ h (fun _ h1 => storeBody_canon _ _ _ _ _ _ h1)

theorem atomicReady_canon {m : Mach} (c : Nat) (p : Piece) (h : m.MemCanon) : (m.atomicReady c p).MemCanon :=
  readUpsets_canon _ _ _ _ (ite_canon h (drainAll_canon _ h))

theorem atomicWrite_canon {m : Mach} (c pt pa : Nat) (v : W64) (poison : Bool) (h : m.MemCanon) :
    (m.atomicWrite c pt pa v poison).MemCanon :=
  l1Inval_canon _ _ (coreMirror_canon _ _ _ (stored_canon _ (putWord_canon _ _ _ _ (ownFor_canon _ _ _ h))))

theorem amo_canon (c : Nat) (d a b : BitVec 6) (f : W64 → W64 → W64) {m : Mach} (h : m.MemCanon) : (amo c d a b f m).MemCanon := by
  dsimp only [amo]
  refine instr_canon _ _ _ h ?_
  intro m1 h1
  split
  · exact trivial
  · split
    · exact trivial
    · next _ _ _ t he =>
        have hke : t.MemCanon := OkAll.elim he (check_canon _ _ _ _ h1) id
        split
        · exact trivial
        · exact hke
        · split
          · exact hke
          · exact setG_canon _ _ _ (atomicWrite_canon _ _ _ _ _ (atomicReady_canon _ _ hke))

theorem casBody_canon (c : Nat) (d a b : BitVec 6) {m : Mach} (h : m.MemCanon) : (casBody c d a b m).MemCanon := by
  dsimp only [casBody]
  refine instr_canon _ _ _ h ?_
  intro m1 h1
  split
  · exact trivial
  · split
    · exact trivial
    · next _ _ _ t he =>
        have hke : t.MemCanon := OkAll.elim he (check_canon _ _ _ _ h1) id
        split
        · exact trivial
        · exact hke
        · split
          · exact hke
          · split
            · exact trivial
            · refine Res.ok_canon ?_
              refine setG_canon _ _ _ ?_
              split
              · exact atomicWrite_canon _ _ _ _ _ (atomicReady_canon _ _ hke)
              · exact atomicReady_canon _ _ hke

theorem ldcBody_canon (c : Nat) (d a : BitVec 6) (imm : BitVec 14) {m : Mach} (h : m.MemCanon) : (ldcBody c d a imm m).MemCanon := by
  dsimp only [ldcBody]
  refine instr_canon _ _ _ h ?_
  intro m1 h1
  split
  · exact trivial
  · split
    · exact trivial
    · next _ _ _ t he =>
        have hke : t.MemCanon := OkAll.elim he (check_canon _ _ _ _ h1) id
        split
        · exact trivial
        · exact loadChecked_canon _ _ _ _ _ _ hke

theorem stcBody_canon (c : Nat) (src a : BitVec 6) (imm : BitVec 14) {m : Mach} (h : m.MemCanon) : (stcBody c src a imm m).MemCanon := by
  dsimp only [stcBody]
  refine instr_canon _ _ _ h ?_
  intro m1 h1
  split
  · exact trivial
  · split
    · exact trivial
    · split
      · exact trivial
      · next _ _ _ t he =>
          have hke : t.MemCanon := OkAll.elim he (check_canon _ _ _ _ h1) id
          split
          · exact hke
          · split
            · exact hke
            · split
              · exact storeWord_canon _ _ _ _ _ _ _ hke
              · exact storePieces_canon _ _ _ _ _ _ hke

end Sys2Proof.Machine

/-!
SUPPORT. Operations keep memory and its metadata in canonical form: the maintenance engine, memory controllers, the Caldera state, ports and ingress, egress.
-/

namespace Sys2Proof.Machine

/-! ### Canonical memory: the maintenance engine -/

theorem setSlot_canon {m : Mach} (n : Nat) (x : Slot) (h : m.MemCanon) : (m.setSlot n x).MemCanon := of_parts_canon h rfl rfl

theorem endSlot_canon {m : Mach} (n status : Nat) (h : m.MemCanon) : (m.endSlot n status).MemCanon := by
  unfold Mach.endSlot
  extract_lets x src m1 m2
  have h1 : m1.MemCanon := of_parts_canon (m := m.setSlot n { x with state := 2, status := status, ending := none }) (setSlot_canon _ _ h)
    rfl rfl
  have h2 : m2.MemCanon := ite_canon (raiseOwn_canon _ _ _ h1) h1
  exact ite_canon (raiseEvent_canon _ h2) h2

theorem mntReset_canon {m : Mach} (h : m.MemCanon) : m.mntReset.MemCanon := by
  dsimp only [Mach.mntReset]
  refine foldl_keeps (P := Mach.MemCanon) _ _ (clearBank_canon _ (resetWindow_canon _ _ (resetWindow_canon _ _ (openShadow_canon _ h))))
    fun _ hb1 _ => ?_
  exact ite_canon (endSlot_canon _ _ hb1) hb1

theorem mntVirt_canon {m : Mach} (c : Nat) (cap : Word) (q : MntReq) (h : m.MemCanon) :
    OkAll (fun r => r.2.MemCanon) (m.mntVirt c cap q) := by
  dsimp only [Mach.mntVirt]
  split
  · exact trivial
  · next _ _ _ t he =>
      have hke : t.MemCanon := OkAll.elim he (live_canon _ _ _ _ _ h) id
      split
      · exact trivial
      · split
        · split
          · exact trivial
          · split
            · exact trivial
            · split
              · exact trivial
              · exact hke
        · split
          · exact trivial
          · split
            · exact trivial
            · split
              · exact trivial
              · exact hke

theorem mntPhys_canon {m : Mach} (c : Nat) (cap : Word) (h : m.MemCanon) : OkAll (fun r => r.2.MemCanon) (m.mntPhys c cap) := by
  dsimp only [Mach.mntPhys]
  split
  · exact trivial
  · next _ _ _ t he =>
      have hke : t.MemCanon := OkAll.elim he (check_canon _ _ _ _ h) id
      split
      · split
        · exact trivial
        · split
          · exact trivial
          · next _ _ t1 he1 =>
              have hke1 : t1.MemCanon := OkAll.elim he1 (entryPa_canon _ _ _ hke) id
              exact hke1
      · split
        · exact trivial
        · split
          · exact trivial
          · next _ _ t1 he1 =>
              have hke1 : t1.MemCanon := OkAll.elim he1 (entryPa_canon _ _ _ hke) id
              exact hke1

theorem mntSweep_canon {m : Mach} (c : Nat) (cap : Word) (q : MntReq) (h : m.MemCanon) :
    OkAll (fun r => r.2.MemCanon) (m.mntSweep c cap q) := by
  dsimp only [Mach.mntSweep]
  split
  · exact trivial
  · split
    · split
      · exact trivial
      · exact h
    · next _ _ t he =>
        have hke : t.MemCanon := OkAll.elim he (entryPa_canon _ _ _ h) id
        split
        · exact hke
        · split
          · exact hke
          · split
            · exact hke
            · split
              · exact trivial
              · next _ _ _ t1 he1 =>
                  have hke1 : t1.MemCanon := OkAll.elim he1 (live_canon _ _ _ _ _ hke) id
                  split
                  · exact hke1
                  · exact trivial

theorem sendSweep_canon {m : Mach} (q : SweepReq) (h : m.MemCanon) : (m.sendSweep q).MemCanon := of_parts_canon h rfl rfl

theorem mntTake_canon {m : Mach} (c d : Nat) (q : MntReq) (cap : Option (Nat × Nat)) (need : Nat) (sw : SweepReq) (h : m.MemCanon) :
    ResCanon (m.mntTake c d q cap need sw) := by
  unfold Mach.mntTake
  split
  · exact result_canon _ _ _ h
  · split
    · exact result_canon _ _ _ h
    · next n _ =>
      extract_lets x g t rs slot src m1 m2
      have h1 : m1.MemCanon := of_parts_canon (m := m.setSlot n slot) (setSlot_canon _ _ h) rfl rfl
      have h2 : m2.MemCanon := ite_canon (sendSweep_canon _ h1) h1
      exact result_canon _ _ _ h2

theorem mntqSlot_canon {m : Mach} (c d : Nat) (x : Word) (q : MntReq) (h : m.MemCanon) :
    ResCanon (match (if q.virt then m.mntVirt c x q else m.mntPhys c x) with
      | .error e => .trap e
      | .ok ((pa, gen, need), m1) => m1.mntTake c d q (some (pa, gen)) need ⟨false, 0, 0, 0⟩) := by
  split
  · exact trivial
  · next he =>
    refine mntTake_canon _ _ _ _ _ _ ?_
    split at he
    · exact OkAll.elim he (mntVirt_canon _ _ _ h) id
    · exact OkAll.elim he (mntPhys_canon _ _ h) id

theorem mntq_canon (c : Nat) (d a b : BitVec 6) {m : Mach} (h : m.MemCanon) : (mntq c d a b m).MemCanon := by
  refine instr_canon _ _ _ h fun m h => ?_
  dsimp only
  split
  · exact trivial
  · split
    · exact trivial
    · next he =>
      have h1 := OkAll.elim he (firstPiece_canon _ _ _ _ (drainAll_canon _ h)) id
      have h2 := fun p pa => readUpsets_canon (some c) false pa 64 (loadSide_canon c p h1)
      split
      · exact trivial
      · split
        · exact result_canon _ _ _ (h2 _ _)
        · split
          · split
            · exact trivial
            · next he2 => exact result_canon _ _ _ (OkAll.elim he2 (mntSweep_canon _ _ _ (h2 _ _)) id)
            · next he2 => exact mntTake_canon _ _ _ _ _ _ (OkAll.elim he2 (mntSweep_canon _ _ _ (h2 _ _)) id)
          · exact mntqSlot_canon _ _ _ _ (h2 _ _)

theorem mntt_canon (c : Nat) (d a : BitVec 6) (wait : Bool) {m : Mach} (h : m.MemCanon) : (mntt c d a wait m).MemCanon := by
  dsimp only [mntt]
  refine instr_canon _ _ _ h ?_
  intro m1 h1
  split
  · exact h1
  · exact result_canon _ _ _ h1

theorem failSlot_canon {m : Mach} (n status : Nat) (h : m.MemCanon) : (m.failSlot n status).MemCanon := setSlot_canon _ _ h

theorem slotPa_canon {m : Mach} (x : Slot) (h : m.MemCanon) : SomeAll (fun r => r.2.MemCanon) (m.slotPa x) := by
  dsimp only [Mach.slotPa]
  split
  · exact h
  · split
    · exact trivial
    · split
      · exact setByte_canon _ _ (ownAtHome_canon _ h)
      · exact h

theorem removeLine_canon {m : Mach} (line : Nat) (lose : Bool) (h : m.MemCanon) : (m.removeLine line lose).MemCanon :=
  dropL3_canon _ (setDir_canon _ _ (l1Inval_canon _ _ (dropLines_canon _ _ (ite_canon (revertLine_canon _ h) (unstale_canon _ h)))))

theorem sweepLine_canon {m : Mach} (line : Nat) (q : SweepReq) (h : m.MemCanon) : (m.sweepLine line q).MemCanon := by
  dsimp only [Mach.sweepLine]
  split
  · split
    · exact setLine_canon _ _ _ (l3Return_canon _ _ h)
    · exact h
  · refine countUncore_canon _ _ _ ?_
    refine untag_canon _ ?_
    split
    · split
      · exact modL3_canon _ _ (noteStale_canon _ (setDir_canon _ _
          (l1Inval_canon _ _ (dropLines_canon _ _ (setLine_canon _ _ _ (l3Return_canon _ _ h))))))
      · exact unstale_canon _ (setDir_canon _ _ (l1Inval_canon _ _ (dropLines_canon _ _ (setLine_canon _ _ _ (l3Return_canon _ _ h)))))
    · split
      · exact modL3_canon _ _ (noteStale_canon _ (setDir_canon _ _ (l1Inval_canon _ _ (dropLines_canon _ _ h))))
      · exact unstale_canon _ (setDir_canon _ _ (l1Inval_canon _ _ (dropLines_canon _ _ h)))

theorem zeroWords_canon {m : Mach} (pa colour : Nat) (h : m.MemCanon) : (m.zeroWords pa colour).MemCanon :=
  foldl_keeps (P := Mach.MemCanon) _ _ (openLine_canon _ h) (fun _ hb _ => mirrorWrite_canon _ _ _ _
    (stored_canon _ (setMeta_canon _ _ (writeN_canon _ _ _ hb))))

theorem cleanLine_canon {m : Mach} (line : Nat) (h : m.MemCanon) : (m.cleanLine line).MemCanon := by
  dsimp only [Mach.cleanLine]
  refine unstale_canon _ ?_
  refine modL3_canon _ _ ?_
  split
  · exact setLine_canon _ _ _ h
  · exact h

theorem lineOp_canon {m : Mach} (x : Slot) (pa : Nat) (h : m.MemCanon) : (m.lineOp x pa).MemCanon := by
  dsimp only [Mach.lineOp]
  split
  · exact cleanLine_canon _ h
  · split
    · exact removeLine_canon _ _ h
    · split
      · exact removeLine_canon _ _ h
      · split
        · exact zeroWords_canon _ _ (removeLine_canon _ _ h)
        · exact ite_canon (sweepLine_canon _ _ h) h

theorem bankOp_canon {m : Mach} (x : Slot) (pa : Nat) (h : m.MemCanon) : (m.bankOp x pa).MemCanon := by
  dsimp only [Mach.bankOp]
  split
  · exact zeroWords_canon _ _ h
  · exact ite_canon (countUncore_canon _ _ _ (untag_canon _ h)) h

theorem refuseLine_canon {m : Mach} (n st k pa : Nat) (r : Rule) (h : m.MemCanon) : (m.refuseLine n st k pa r).MemCanon :=
  failSlot_canon _ _ (ite_canon (countReg_canon _ _ _ _ _ _ (logViol_canon _ _ _ h)) (logViol_canon _ _ _ h))

theorem carryOut_canon {m : Mach} (n pa : Nat) (h : m.MemCanon) : (m.carryOut n pa).MemCanon := by
  dsimp only [Mach.carryOut]
  split
  · exact failSlot_canon _ _ (foldl_keeps (P := Mach.MemCanon) _ _ h (fun _ hb _ => meetUpset_canon _ hb))
  · refine setSlot_canon _ _ ?_
    refine countUncore_canon _ _ _ ?_
    split
    · exact lineOp_canon _ _ (foldl_keeps (P := Mach.MemCanon) _ _ h (fun _ hb _ => meetUpset_canon _ hb))
    · split
      · exact bankOp_canon _ _ (foldl_keeps (P := Mach.MemCanon) _ _ h (fun _ hb _ => meetUpset_canon _ hb))
      · exact foldl_keeps (P := Mach.MemCanon) _ _ h (fun _ hb _ => meetUpset_canon _ hb)

theorem lineCommand_canon {m : Mach} (n : Nat) (h : m.MemCanon) : (m.lineCommand n).MemCanon := by
  dsimp only [Mach.lineCommand]
  split
  · exact h
  · split
    · next _ _ _ he =>
        split
        · exact failSlot_canon _ _ h
        · split
          · exact failSlot_canon _ _ h
          · next _ _ t he1 =>
              have hke1 : t.MemCanon := SomeAll.elim he1 (slotPa_canon _ h) id
              split
              · exact h
              · split
                · exact refuseLine_canon _ _ _ _ _ hke1
                · split
                  · exact ite_canon (refuseLine_canon _ _ _ _ _ hke1) (refuseLine_canon _ _ _ _ _ hke1)
                  · exact refuseLine_canon _ _ _ _ _ hke1
                  · exact refuseLine_canon _ _ _ _ _ hke1
                  · exact refuseLine_canon _ _ _ _ _ hke1
                  · exact ite_canon (carryOut_canon _ _ hke1) (refuseLine_canon _ _ _ _ _ hke1)
                  · exact ite_canon (carryOut_canon _ _ hke1) (refuseLine_canon _ _ _ _ _ hke1)
                  · exact ite_canon (failSlot_canon _ _ (logViol_canon _ _ _ hke1)) (carryOut_canon _ _ hke1)
    · next _ he =>
        split
        · exact failSlot_canon _ _ h
        · split
          · exact failSlot_canon _ _ h
          · next _ _ t he1 =>
              have hke1 : t.MemCanon := SomeAll.elim he1 (slotPa_canon _ h) id
              split
              · exact h
              · split
                · exact refuseLine_canon _ _ _ _ _ hke1
                · split
                  · exact ite_canon (refuseLine_canon _ _ _ _ _ hke1) (refuseLine_canon _ _ _ _ _ hke1)
                  · exact refuseLine_canon _ _ _ _ _ hke1
                  · exact refuseLine_canon _ _ _ _ _ hke1
                  · exact refuseLine_canon _ _ _ _ _ hke1
                  · exact ite_canon (carryOut_canon _ _ hke1) (refuseLine_canon _ _ _ _ _ hke1)
                  · exact ite_canon (carryOut_canon _ _ hke1) (refuseLine_canon _ _ _ _ _ hke1)
                  · exact ite_canon (failSlot_canon _ _ (logViol_canon _ _ _ hke1)) (carryOut_canon _ _ hke1)

theorem finalRevoke_canon {m : Mach} (pa : Nat) (h : m.MemCanon) : (m.finalRevoke pa).MemCanon := by
  dsimp only [Mach.finalRevoke]
  exact shootdown_canon _ (writeGrant_canon _ _ _ _ h)

theorem slotDone_canon {m : Mach} (n : Nat) (h : m.MemCanon) : (m.slotDone n).MemCanon := by
  dsimp only [Mach.slotDone]
  split
  · exact h
  · split
    · exact endSlot_canon _ _ h
    · split
      · exact h
      · split
        · exact endSlot_canon _ _ (setSlot_canon _ _ h)
        · exact endSlot_canon _ _ (ite_canon (finalRevoke_canon _ h) h)

theorem mntAbort_canon {m : Mach} (v : W64) (h : m.MemCanon) : (m.mntAbort v).MemCanon :=
  foldl_keeps (P := Mach.MemCanon) _ _ h (fun _ hb _ => ite_canon (endSlot_canon _ _ hb) hb)

/-! ### Canonical memory: memory controllers -/

theorem closeRow_canon {m : Mach} (key : Nat) (h : m.MemCanon) : (m.closeRow key).MemCanon := of_parts_canon h rfl rfl

theorem closeSub_canon {m : Mach} (ch sub : Nat) (h : m.MemCanon) : (m.closeSub ch sub).MemCanon := of_parts_canon h rfl rfl

theorem positionStat_canon {m : Mach} (mc : Nat) (h : m.MemCanon) : (m.positionStat mc).MemCanon := setReg_canon _ _ _ _ h

theorem countMc_canon {m : Mach} (q : McReq) (ev : Nat) (h : m.MemCanon) : (m.countMc q ev).MemCanon := countUncore_canon _ _ _ h

theorem mcCredit_canon {m : Mach} (ch : Nat) (h : m.MemCanon) : (m.mcCredit ch).MemCanon := by
  dsimp only [Mach.mcCredit]
  split
  · exact of_parts_canon h rfl rfl
  · exact h

theorem readDram_canon {m : Mach} (ch ca : Nat) (h : m.MemCanon) : (m.readDram ch ca).MemCanon :=
  foldl_keeps (P := Mach.MemCanon) _ _ h (fun _ hb _ => meetUpset_canon _ hb)

theorem serveReq_canon {m : Mach} (q : McReq) (h : m.MemCanon) : (m.serveReq q).MemCanon := by
  unfold Mach.serveReq
  extract_lets key row m1 m2 drain ws batch m3 stored m5 m4
  have h1 : m1.MemCanon := countMc_canon _ _ h
  clear_value m1
  have h2 : m2.MemCanon := ite_canon (closeRow_canon _ h1) (of_parts_canon (m := m1) h1 rfl rfl)
  clear_value m2
  have h3 : m3.MemCanon := of_parts_canon (m := m2) h2 rfl rfl
  clear_value m3
  have h5 : m5.MemCanon := readDram_canon _ _ (countMc_canon _ _ h3)
  have h4 : m4.MemCanon := ite_canon h3 (ite_canon (countMc_canon _ _ h5) h5)
  exact positionStat_canon _ (mcCredit_canon _ h4)

theorem commandSlot_canon {m : Mach} (ch sub : Nat) (h : m.MemCanon) : (m.commandSlot ch sub).MemCanon := by
  unfold Mach.commandSlot
  split
  · next key _ => exact of_parts_canon (m := m.closeRow key) (closeRow_canon _ h) rfl rfl
  · split
    · exact serveReq_canon _ h
    · exact h

theorem commandSlots_canon {m : Mach} (ch sub n : Nat) (h : m.MemCanon) : (m.commandSlots ch sub n).MemCanon := by
  induction n generalizing m with
  | zero => exact h
  | succ n ih => exact ih (commandSlot_canon _ _ h)

theorem dramWrite_canon {m : Mach} (line mask : Nat) (data : List W64) (poison : Nat) (h : m.MemCanon) :
    (m.dramWrite line mask data poison).MemCanon := by
  dsimp only [Mach.dramWrite]
  split
  · exact dramStored_canon _ (touchDram_canon _ (of_parts_canon h rfl rfl))
  · exact dramStored_canon _ (foldl_keeps (P := Mach.MemCanon) _ _ (ite_canon (openLine_canon _ h) h)
      (fun _ hb _ => mergeWord_canon _ _ _ _ hb))

theorem dramAtomic_canon {m : Mach} (line i op : Nat) (a b : Word) (h : m.MemCanon) : (m.dramAtomic line i op a b).MemCanon :=
  ite_canon h (stored_canon _ (putWord_canon _ _ _ _ h))

theorem accept_canon {m : Mach} (q : McReq) (op : McOp) (h : m.MemCanon) : (m.accept q op).MemCanon := by
  dsimp only [Mach.accept]
  split
  · exact h
  · exact countMc_canon _ _ (dramWrite_canon _ _ _ _ h)
  · exact countMc_canon _ _ (dramAtomic_canon _ _ _ _ _ (readDram_canon _ _ h))

theorem mcRequest_canon {m : Mach} (mst : Master) (line tc : Nat) (op : McOp) (summMiss : Bool) (slots : Nat) (h : m.MemCanon) :
    (m.mcRequest mst line tc op summMiss slots).MemCanon := by
  dsimp only [Mach.mcRequest]
  split
  · split
    · exact h
    · split
      · exact countReg_canon _ _ _ _ _ _ (logViol_canon _ _ _ h)
      · split
        · exact raiseOpt_canon _ _ _ h
        · split
          · exact h
          · split
            · split
              · exact h
              · split
                · exact countMc_canon _ _ (countReg_canon _ _ _ _ _ _ (of_parts_canon h rfl rfl))
                · refine commandSlots_canon _ _ _ ?_
                  split
                  · exact countMc_canon _ _ (foldl_keeps (P := Mach.MemCanon) _ _
                      (accept_canon _ _ (positionStat_canon _ (of_parts_canon h rfl rfl))) (fun _ hb _ => countMc_canon _ _ hb))
                  · exact foldl_keeps (P := Mach.MemCanon) _ _ (accept_canon _ _ (positionStat_canon _ (of_parts_canon h rfl rfl)))
                      (fun _ hb _ => countMc_canon _ _ hb)
            · split
              · exact h
              · split
                · exact countMc_canon _ _ (countReg_canon _ _ _ _ _ _ (of_parts_canon h rfl rfl))
                · refine commandSlots_canon _ _ _ ?_
                  split
                  · exact countMc_canon _ _ (foldl_keeps (P := Mach.MemCanon) _ _
                      (accept_canon _ _ (positionStat_canon _ (of_parts_canon h rfl rfl))) (fun _ hb _ => countMc_canon _ _ hb))
                  · exact foldl_keeps (P := Mach.MemCanon) _ _ (accept_canon _ _ (positionStat_canon _ (of_parts_canon h rfl rfl)))
                      (fun _ hb _ => countMc_canon _ _ hb)
  · split
    · exact h
    · split
      · exact countReg_canon _ _ _ _ _ _ (logViol_canon _ _ _ h)
      · split
        · exact raiseOpt_canon _ _ _ h
        · split
          · exact h
          · split
            · split
              · exact h
              · split
                · exact countMc_canon _ _ (countReg_canon _ _ _ _ _ _ (of_parts_canon h rfl rfl))
                · refine commandSlots_canon _ _ _ ?_
                  split
                  · exact countMc_canon _ _ (foldl_keeps (P := Mach.MemCanon) _ _
                      (accept_canon _ _ (positionStat_canon _ (of_parts_canon h rfl rfl))) (fun _ hb _ => countMc_canon _ _ hb))
                  · exact foldl_keeps (P := Mach.MemCanon) _ _ (accept_canon _ _ (positionStat_canon _ (of_parts_canon h rfl rfl)))
                      (fun _ hb _ => countMc_canon _ _ hb)
            · split
              · exact h
              · split
                · exact countMc_canon _ _ (countReg_canon _ _ _ _ _ _ (of_parts_canon h rfl rfl))
                · refine commandSlots_canon _ _ _ ?_
                  split
                  · exact countMc_canon _ _ (foldl_keeps (P := Mach.MemCanon) _ _
                      (accept_canon _ _ (positionStat_canon _ (of_parts_canon h rfl rfl))) (fun _ hb _ => countMc_canon _ _ hb))
                  · exact foldl_keeps (P := Mach.MemCanon) _ _ (accept_canon _ _ (positionStat_canon _ (of_parts_canon h rfl rfl)))
                      (fun _ hb _ => countMc_canon _ _ hb)
  · split
    · exact h
    · split
      · exact countReg_canon _ _ _ _ _ _ (logViol_canon _ _ _ h)
      · split
        · exact raiseOpt_canon _ _ _ h
        · split
          · exact h
          · split
            · split
              · exact h
              · split
                · exact countMc_canon _ _ (countReg_canon _ _ _ _ _ _ (of_parts_canon h rfl rfl))
                · refine commandSlots_canon _ _ _ ?_
                  split
                  · exact countMc_canon _ _ (foldl_keeps (P := Mach.MemCanon) _ _
                      (accept_canon _ _ (positionStat_canon _ (of_parts_canon h rfl rfl))) (fun _ hb _ => countMc_canon _ _ hb))
                  · exact foldl_keeps (P := Mach.MemCanon) _ _ (accept_canon _ _ (positionStat_canon _ (of_parts_canon h rfl rfl)))
                      (fun _ hb _ => countMc_canon _ _ hb)
            · split
              · exact h
              · split
                · exact countMc_canon _ _ (countReg_canon _ _ _ _ _ _ (of_parts_canon h rfl rfl))
                · refine commandSlots_canon _ _ _ ?_
                  split
                  · exact countMc_canon _ _ (foldl_keeps (P := Mach.MemCanon) _ _
                      (accept_canon _ _ (positionStat_canon _ (of_parts_canon h rfl rfl))) (fun _ hb _ => countMc_canon _ _ hb))
                  · exact foldl_keeps (P := Mach.MemCanon) _ _ (accept_canon _ _ (positionStat_canon _ (of_parts_canon h rfl rfl)))
                      (fun _ hb _ => countMc_canon _ _ hb)

theorem refresh_canon {m : Mach} (ch sub rank bank : Nat) (postpone : Bool) (h : m.MemCanon) :
    (m.refresh ch sub rank bank postpone).MemCanon := by
  dsimp only [Mach.refresh]
  split
  · exact h
  · exact ite_canon (of_parts_canon h rfl rfl) (of_parts_canon (m := m.closeRow (bankKey ch sub rank bank)) (closeRow_canon _ h) rfl rfl)

theorem calibrate_canon {m : Mach} (ch sub : Nat) (h : m.MemCanon) : (m.calibrate ch sub).MemCanon := by
  dsimp only [Mach.calibrate]
  exact ite_canon h (of_parts_canon (m := m.closeSub ch sub) (closeSub_canon _ _ h) rfl rfl)

theorem retrain_canon {m : Mach} (ch : Nat) (h : m.MemCanon) : (m.retrain ch).MemCanon := ite_canon h (of_parts_canon h rfl rfl)

theorem failChannel_canon {m : Mach} (ch why : Nat) (h : m.MemCanon) : (m.failChannel ch why).MemCanon := by
  dsimp only [Mach.failChannel]
  exact ite_canon h (raiseOwn_canon _ _ _ (positionStat_canon _ (of_parts_canon
    (m := m.setReg (chanStop ch) (dphyWin ch) 64 (setFld (setFld (m.dphy ch 64) 0 3 4) 16 4 why)) (setReg_canon _ _ _ _ h) rfl rfl)))

theorem bankMask_canon {m : Mach} (ch j : Nat) (v : W64) (h : m.MemCanon) : (m.bankMask ch j v).MemCanon := by
  dsimp only [Mach.bankMask]
  split
  · exact h
  · exact ite_canon (setRegBit_canon _ _ _ _ _ h) (setReg_canon _ _ _ _ h)

theorem orderWrite_canon {m : Mach} (mc : Nat) (compat : Bool) (h : m.MemCanon) : (m.orderWrite mc compat).MemCanon :=
  ite_canon (setRegBit_canon _ _ _ _ _ h) (setRegBit_canon _ _ _ _ _ h)

theorem sppr_canon {m : Mach} (mc : Nat) (v : W64) (result : Nat) (h : m.MemCanon) : (m.sppr mc v result).MemCanon := by
  dsimp only [Mach.sppr]
  split
  · exact h
  · exact ite_canon (setReg_canon _ _ _ _ (closeRow_canon _ h)) (setReg_canon _ _ _ _ h)

theorem patrol_canon {m : Mach} (mc : Nat) (h : m.MemCanon) : (m.patrol mc).MemCanon := by
  dsimp only [Mach.patrol]
  split
  · split
    · exact h
    · exact setReg_canon _ _ _ _ (of_parts_canon (ite_canon (readDram_canon _ _ h) h) rfl rfl)
  · split
    · exact h
    · exact setReg_canon _ _ _ _ (of_parts_canon (ite_canon (readDram_canon _ _ h) h) rfl rfl)

theorem innerPatrol_canon {m : Mach} (st k : Nat) (h : m.MemCanon) : (m.innerPatrol st k).MemCanon :=
  foldl_keeps (P := Mach.MemCanon) _ _ h (fun _ hb _ => meetUpset_canon _ hb)

theorem walkRegion_canon {m : Mach} (ch : Nat) (h : m.MemCanon) : (m.walkRegion ch).MemCanon := ite_canon h (of_parts_canon h rfl rfl)

theorem copyLocation_canon {m : Mach} (st k : Nat) (v : W64) (h : m.MemCanon) : (m.copyLocation st k v).MemCanon := by
  dsimp only [Mach.copyLocation]
  split
  · exact readDram_canon _ _ h
  · exact foldl_keeps (P := Mach.MemCanon) _ _ h (fun _ hb _ => meetUpset_canon _ hb)
  · exact h

theorem remapWrite_canon {m : Mach} (st k : Nat) (v : W64) (h : m.MemCanon) : (m.remapWrite st k v).MemCanon := by
  unfold Mach.remapWrite
  extract_lets i mc w n taken has old m1 m2
  have h1 : m1.MemCanon := ite_canon (copyLocation_canon _ _ _ h) h
  clear_value m1
  have h2 : m2.MemCanon := ite_canon (copyLocation_canon _ _ _ h1) h1
  clear_value m2
  exact ite_canon h (of_parts_canon (m := m2) h2 rfl rfl)

theorem logSelWrite_canon {m : Mach} (st k : Nat) (v : W64) (h : m.MemCanon) : (m.logSelWrite st k v).MemCanon := by
  dsimp only [Mach.logSelWrite]
  split
  · split
    · exact h
    · exact ite_canon (setProtLog_canon _ _ _ (setReg_canon _ _ _ _ h)) (setReg_canon _ _ _ _ h)
  · split
    · exact h
    · exact ite_canon (setProtLog_canon _ _ _ (setReg_canon _ _ _ _ h)) (setReg_canon _ _ _ _ h)

/-! ### Canonical memory: the Caldera state -/

theorem setFc_canon {m : Mach} (src : Nat) (x : FcSrc) (h : m.MemCanon) : (m.setFc src x).MemCanon := of_parts_canon h rfl rfl

theorem srcCfgWrite_canon {m : Mach} (v : W64) (h : m.MemCanon) : (m.srcCfgWrite v).MemCanon := ite_canon h (setFc_canon _ _ h)

theorem selfRefresh_canon {m : Mach} (h : m.MemCanon) : m.selfRefresh.MemCanon := by
  dsimp only [Mach.selfRefresh]
  refine foldl_keeps (P := Mach.MemCanon) _ _ (foldl_keeps (P := Mach.MemCanon) _ _ (of_parts_canon h rfl rfl)
    (fun _ hb _ => ite_canon (setRegFld_canon _ _ _ _ _ _ hb) hb)) fun _ hb1 _ => ?_
  exact positionStat_canon _ hb1

theorem settleHomes_canon {m : Mach} (h : m.MemCanon) : m.settleHomes.MemCanon := by
  unfold Mach.settleHomes
  extract_lets held m1
  have h1 : m1.MemCanon := foldl_keeps (P := Mach.MemCanon) _ _ (of_parts_canon h rfl rfl) fun _ hb _ => complete_canon _ hb
  clear_value m1
  exact of_parts_canon (m := m1) h1 rfl rfl

theorem loseCaches_canon {m : Mach} (h : m.MemCanon) : m.loseCaches.MemCanon :=
  of_parts_canon (foldl_keeps (P := Mach.MemCanon) _ _ h (fun _ hb _ => revertLine_canon _ hb)) rfl rfl

theorem caldera_canon {m : Mach} (cause src : Nat) (shadow inj : Bool) (h : m.MemCanon) : (m.caldera cause src shadow inj).MemCanon := by
  unfold Mach.caldera
  split
  · exact h
  · extract_lets old v m1 m2
    have h2 : m2.MemCanon := selfRefresh_canon (loseCaches_canon (settleHomes_canon (setReg_canon _ _ _ _ (setReg_canon _ _ _ _ h))))
    clear_value m2
    exact of_parts_canon h2 rfl rfl

theorem beginWarm_canon {m : Mach} (h : m.MemCanon) : m.beginWarm.MemCanon := ite_canon h (of_parts_canon h rfl rfl)

/-! ### Canonical memory: ports and ingress -/

theorem setPort_canon {m : Mach} (q : Nat) (x : PortRt) (h : m.MemCanon) : (m.setPort q x).MemCanon := of_parts_canon h rfl rfl

theorem countPort_canon {m : Mach} (q off lo n : Nat) (h : m.MemCanon) : (m.countPort q off lo n).MemCanon := countReg_canon _ _ _ _ _ _ h

theorem countPx_canon {m : Mach} (px ev : Nat) (h : m.MemCanon) : (m.countPx px ev).MemCanon := countUncore_canon _ _ _ h

theorem setSf_canon {m : Mach} (px table idx : Nat) (ws : List W64) (h : m.MemCanon) : (m.setSf px table idx ws).MemCanon :=
  of_parts_canon h rfl rfl

theorem modSf_canon {m : Mach} (px table idx i : Nat) (f : W64 → W64) (h : m.MemCanon) : (m.modSf px table idx i f).MemCanon :=
  setSf_canon _ _ _ _ h

theorem countSf_canon {m : Mach} (px table idx i lo n : Nat) (h : m.MemCanon) : (m.countSf px table idx i lo n).MemCanon :=
  modSf_canon _ _ _ _ _ h

theorem fumCount_canon {m : Mach} (q pri len : Nat) (sent last : Bool) (h : m.MemCanon) : (m.fumCount q pri len sent last).MemCanon :=
  ite_canon h (setPort_canon _ _ h)

theorem pfcUpdate_canon {m : Mach} (q : Nat) (h : m.MemCanon) : (m.pfcUpdate q).MemCanon := by
  dsimp only [Mach.pfcUpdate]
  split
  · exact setPort_canon _ _ h
  · exact ite_canon (setPort_canon _ _ h) h

theorem pauseFrame_canon {m : Mach} (q : Nat) (pfc : Bool) (enable : Nat) (times : List Nat) (h : m.MemCanon) :
    (m.pauseFrame q pfc enable times).MemCanon := by
  dsimp only [Mach.pauseFrame]
  split
  · exact setPort_canon _ _ h
  · exact ite_canon (setPort_canon _ _ h) h

theorem gateOpen_canon {m : Mach} (px g t : Nat) (h : m.MemCanon) : (m.gateOpen px g t).2.MemCanon := by
  dsimp only [Mach.gateOpen]
  split
  · exact drawn_canon h
  · exact h

theorem meterFrame_canon {m : Mach} (px i n t : Nat) (h : m.MemCanon) : (m.meterFrame px i n t).2.MemCanon := by
  dsimp only [Mach.meterFrame]
  split
  · exact of_parts_canon h rfl rfl
  · split
    · split
      · exact of_parts_canon h rfl rfl
      · exact of_parts_canon h rfl rfl
    · split
      · exact of_parts_canon h rfl rfl
      · exact of_parts_canon h rfl rfl

theorem refuseBuf_canon {m : Mach} (q : Nat) (h : m.MemCanon) : (m.refuseBuf q).MemCanon := countPx_canon _ _ (countPort_canon _ _ _ _ h)

theorem refEvent_canon {m : Mach} (px h : Nat) (h1 : m.MemCanon) : (m.refEvent px h).MemCanon := ite_canon (raiseAssigned_canon _ h1) h1

theorem refuseFilter_canon {m : Mach} (px h lo : Nat) (h1 : m.MemCanon) : (m.refuseFilter px h lo).MemCanon :=
  refEvent_canon _ _ (countPx_canon _ _ (countSf_canon _ _ _ _ _ _ h1))

theorem steer_canon {m : Mach} (q queue : Nat) (handle : Option Nat) (bs : List (BitVec 8)) (pri ts : Nat) (tc0 : Bool) (h : m.MemCanon) :
    (m.steer q queue handle bs pri ts tc0).MemCanon := by
  dsimp only [Mach.steer]
  split
  · exact pfcUpdate_canon _ (of_parts_canon (countPx_canon _ _ h) rfl rfl)
  · split
    · exact refEvent_canon _ _ (countSf_canon _ _ _ _ _ _ (countPx_canon _ _ (countPx_canon _ _ h)))
    · exact countPort_canon _ _ _ _ (countPx_canon _ _ (countPx_canon _ _ h))

theorem streamSteps_canon {m : Mach} (q h : Nat) (bs : List (BitVec 8)) (pri ts : Nat) (tc0 : Bool) (hm : m.MemCanon) :
    (m.streamSteps q h bs pri ts tc0).MemCanon := by
  unfold Mach.streamSteps
  extract_lets px w0 m1 g gw i queue
  have h1 : m1.MemCanon := countSf_canon _ _ _ _ _ _ hm
  clear_value m1
  refine ite_canon (refuseBuf_canon _ hm) (ite_canon (refuseFilter_canon _ _ _ h1)
    (ite_canon (refuseFilter_canon _ _ _ (ite_canon (modSf_canon _ _ _ _ _ h1) h1)) ?_))
  split
  next m2 he =>
  have h2 : m2.MemCanon := of_snd_canon he (by
    split
    · exact h1
    · split
      · exact h1
      · exact gateOpen_canon _ _ _ h1)
  refine ite_canon (refuseFilter_canon _ _ _ (ite_canon (modSf_canon _ _ _ _ _ h2) h2)) ?_
  extract_lets mw
  split
  next col m3 he3 =>
  have h3 : m3.MemCanon := of_snd_canon he3 (by
    split
    · exact h2
    · split
      · exact h2
      · exact meterFrame_canon _ _ _ _ h2)
  extract_lets m4 r rw
  have h4 : m4.MemCanon := countSf_canon _ _ _ _ _ _ h3
  clear_value m4
  have hcount : (((m4.countSf px 5 r 2 0 32).countPx px 0x281).refEvent px h).MemCanon :=
    refEvent_canon _ _ (countPx_canon _ _ (countSf_canon _ _ _ _ _ _ h4))
  refine ite_canon (refuseFilter_canon _ _ _ (ite_canon (modSf_canon _ _ _ _ _ h3) h3))
    (ite_canon (refuseFilter_canon _ _ _ h3) (ite_canon (steer_canon _ _ _ _ _ _ _ h4) (ite_canon hcount ?_)))
  split
  · exact ite_canon (steer_canon _ _ _ _ _ _ _ h4) hcount
  · split
    have h5 : ∀ hist, Mach.MemCanon { m4 with hists := Tab.ins m4.hists (px * 1024 + r) hist } := fun _ => of_parts_canon h4 rfl rfl
    exact ite_canon (steer_canon _ _ _ _ _ _ _ (countSf_canon _ _ _ _ _ _ (h5 _))) (countSf_canon _ _ _ _ _ _ (h5 _))

theorem ingress_canon {m : Mach} (q : Nat) (f : RxFrame) (h : m.MemCanon) : (m.ingress q f).MemCanon := by
  dsimp only [Mach.ingress]
  split
  · exact refuseBuf_canon _ h
  · split
    · exact refuseBuf_canon _ h
    · split
      · exact streamSteps_canon _ _ _ _ _ _ h
      · exact ite_canon (steer_canon _ _ _ _ _ _ _ h) (refuseBuf_canon _ h)

theorem frameReceive_canon {m : Mach} (q : Nat) (f : RxFrame) (h : m.MemCanon) : (m.frameReceive q f).MemCanon := by
  dsimp only [Mach.frameReceive]
  split
  · exact h
  · split
    · exact countPort_canon _ _ _ _ h
    · split
      · exact countPort_canon _ _ _ _ (fumCount_canon _ _ _ _ _ h)
      · split
        · split
          · exact pauseFrame_canon _ _ _ _ (fumCount_canon _ _ _ _ _ h)
          · exact ite_canon (pauseFrame_canon _ _ _ _ (fumCount_canon _ _ _ _ _ h)) (fumCount_canon _ _ _ _ _ h)
        · exact ingress_canon _ _ (fumCount_canon _ _ _ _ _ h)

theorem linkChanged_canon {m : Mach} (q : Nat) (h : m.MemCanon) : (m.linkChanged q).MemCanon :=
  ite_canon (raiseAssigned_canon _ (raiseSrc_canon _ _ _ _ _ _ (countPort_canon _ _ _ _ h)))
    (raiseSrc_canon _ _ _ _ _ _ (countPort_canon _ _ _ _ h))

theorem portUp_canon {m : Mach} (q : Nat) (h : m.MemCanon) : (m.portUp q).MemCanon :=
  ite_canon h (linkChanged_canon _ (setPort_canon _ _ (setRegBit_canon _ _ _ _ _ h)))

theorem relock_canon {m : Mach} (q : Nat) (h : m.MemCanon) : (m.relock q).MemCanon := by
  dsimp only [Mach.relock]
  split
  · exact linkChanged_canon _ (setPort_canon _ _ (setReg_canon _ _ _ _ (ite_canon (countPort_canon _ _ _ _ h) h)))
  · exact setPort_canon _ _ (setReg_canon _ _ _ _ (ite_canon (countPort_canon _ _ _ _ h) h))

theorem portDown_canon {m : Mach} (q why : Nat) (h : m.MemCanon) : (m.portDown q why).MemCanon := by
  dsimp only [Mach.portDown]
  split
  · exact h
  · split
    · exact ite_canon (setRegBit_canon _ _ _ _ _ h) (setRegBit_canon _ _ _ _ _ h)
    · refine linkChanged_canon _ ?_
      refine setPort_canon _ _ ?_
      refine setRegBit_canon _ _ _ _ _ ?_
      split
      · exact ite_canon (countPort_canon _ _ _ _ (setRegBit_canon _ _ _ _ _ h)) (setRegBit_canon _ _ _ _ _ h)
      · exact ite_canon (countPort_canon _ _ _ _ (setRegBit_canon _ _ _ _ _ h)) (setRegBit_canon _ _ _ _ _ h)

theorem blockLock_canon {m : Mach} (q : Nat) (h : m.MemCanon) : (m.blockLock q).MemCanon := ite_canon h (setReg_canon _ _ _ _ h)

theorem portCfg_canon {m : Mach} (q : Nat) (v : W64) (h : m.MemCanon) : (m.portCfg q v).MemCanon := by
  unfold Mach.portCfg
  extract_lets st k old frm badPre w0 w m1 m2 m4 m3
  have h1 : m1.MemCanon := setReg_canon _ _ _ _ h
  have h2 : m2.MemCanon := ite_canon (setRegBit_canon _ _ _ _ _ h1) h1
  have h4 : m4.MemCanon := setReg_canon _ _ _ _ h2
  have h3 : m3.MemCanon := ite_canon (ite_canon (relock_canon _ h4) h4) h2
  refine ite_canon (setRegBit_canon _ _ _ _ _ h) (ite_canon h ?_)
  exact ite_canon (setRegFld_canon _ _ _ _ _ _ h3)
    (ite_canon (setRegFld_canon _ _ _ _ _ _ h3) (ite_canon (setRegFld_canon _ _ _ _ _ _ h3) h3))

theorem preemptVerify_canon {m : Mach} (q : Nat) (ok : Bool) (h : m.MemCanon) : (m.preemptVerify q ok).MemCanon :=
  ite_canon (setRegFld_canon _ _ _ _ _ _ h) h

theorem pairWrite_canon {m : Mach} (px n : Nat) (v : W64) (h : m.MemCanon) : (m.pairWrite px n v).MemCanon :=
  ite_canon h (setReg_canon _ _ _ _ h)

theorem portHalt_canon {m : Mach} (q pa : Nat) (egress : Bool) (h : m.MemCanon) : (m.portHalt q pa egress).MemCanon :=
  ite_canon h (raiseSrc_canon _ _ _ _ _ _ (setReg_canon _ _ _ _ h))

theorem portDma_canon {m : Mach} (q : Nat) (v : W64) (h : m.MemCanon) : (m.portDma q v).MemCanon := setReg_canon _ _ _ _ h

theorem sfCommand_canon {m : Mach} (px : Nat) (wr : Bool) (h : m.MemCanon) : (m.sfCommand px wr).MemCanon := by
  dsimp only [Mach.sfCommand]
  split
  · exact h
  · split
    · exact setReg_canon _ _ _ _ h
    · split
      · exact foldl_keeps (P := Mach.MemCanon) _ _ (setReg_canon _ _ _ _ h) (fun _ hb _ => setReg_canon _ _ _ _ hb)
      · split
        · exact setReg_canon _ _ _ _ h
        · split
          · exact of_parts_canon (m := (m.setSf px (fld (m.reg (pxStop px) 33 64) 0 3) (fld (m.reg (pxStop px) 33 64) 16 12)
              (List.map (fun i => m.reg (pxStop px) 33 (128 + 8 * i) &&& sfMask (fld (m.reg (pxStop px) 33 64) 0 3) i)
                (List.range 4))).setReg (pxStop px) 33 72 0) (setReg_canon _ _ _ _ (setSf_canon _ _ _ _ h)) rfl rfl
          · exact ite_canon (of_parts_canon (m := (m.setSf px (fld (m.reg (pxStop px) 33 64) 0 3) (fld (m.reg (pxStop px) 33 64) 16 12)
              (List.map (fun i => m.reg (pxStop px) 33 (128 + 8 * i) &&& sfMask (fld (m.reg (pxStop px) 33 64) 0 3) i)
                (List.range 4))).setReg (pxStop px) 33 72 0) (setReg_canon _ _ _ _ (setSf_canon _ _ _ _ h)) rfl rfl)
                  (setReg_canon _ _ _ _ (setSf_canon _ _ _ _ h))

theorem rcvTimeout_canon {m : Mach} (px i : Nat) (h : m.MemCanon) : (m.rcvTimeout px i).MemCanon := ite_canon h (of_parts_canon h rfl rfl)

theorem gateInterval_canon {m : Mach} (px g : Nat) (h : m.MemCanon) : (m.gateInterval px g).MemCanon := by
  dsimp only [Mach.gateInterval]
  split
  · exact h
  · exact ite_canon (of_parts_canon h rfl rfl) (of_parts_canon h rfl rfl)

/-! ### Canonical memory: egress -/

theorem setEg_canon {m : Mach} (q table idx : Nat) (ws : List W64) (h : m.MemCanon) : (m.setEg q table idx ws).MemCanon :=
  of_parts_canon h rfl rfl

theorem countEq_canon {m : Mach} (q e : Nat) (sent : Bool) (h : m.MemCanon) : (m.countEq q e sent).MemCanon := setEg_canon _ _ _ _ h

theorem outDone_canon {m : Mach} (f : EgFrame) (h : m.MemCanon) : (m.outDone f).MemCanon := modRec_canon _ _ _ h

theorem dropDown_canon {m : Mach} (q : Nat) (f : EgFrame) (h : m.MemCanon) : (m.dropDown q f).MemCanon :=
  outDone_canon _ (countPort_canon _ _ _ _ h)

theorem creditTick_canon {m : Mach} (q : Nat) (h : m.MemCanon) : (m.creditTick q).MemCanon :=
  foldl_keeps (P := Mach.MemCanon) _ _ h (fun _ hb _ => ite_canon (setPort_canon _ _ hb) hb)

theorem spendCredit_canon {m : Mach} (q e n : Nat) (h : m.MemCanon) : (m.spendCredit q e n).MemCanon := ite_canon h (setPort_canon _ _ h)

theorem dropLong_canon {m : Mach} (q e k : Nat) (h : m.MemCanon) : (m.dropLong q e k).MemCanon := by
  induction k generalizing m with
  | zero => exact h
  | succ k ih =>
    dsimp only [Mach.dropLong]
    split
    · exact ite_canon (ih (outDone_canon _ (countEq_canon _ _ _ (setPort_canon _ _ h)))) h
    · exact h

theorem markWait_canon {m : Mach} (q e : Nat) (h : m.MemCanon) : (m.markWait q e).MemCanon := by
  dsimp only [Mach.markWait]
  split
  · exact ite_canon h (countPx_canon _ _ (setPort_canon _ _ h))
  · exact h

theorem txStamp_canon {m : Mach} (q : Nat) (f : EgFrame) (h : m.MemCanon) : (m.txStamp q f).MemCanon := by
  dsimp only [Mach.txStamp]
  split
  · exact h
  · exact ite_canon (setPort_canon _ _ h) (setPort_canon _ _ h)

theorem fetchOut_canon {m : Mach} (f : EgFrame) (h : m.MemCanon) : (m.fetchOut f).2.MemCanon := readUpsets_canon _ _ _ _ h

theorem lastFragment_canon {m : Mach} (q e : Nat) (f : EgFrame) (n : Nat) (h : m.MemCanon) : (m.lastFragment q e f n).MemCanon :=
  spendCredit_canon _ _ _ (fumCount_canon _ _ _ _ _ (countPx_canon _ _ (countEq_canon _ _ _ h)))

theorem fragment_canon {m : Mach} (q e : Nat) (f : EgFrame) (sent : Nat) (part : Option Nat) (h : m.MemCanon) :
    (m.fragment q e f sent part).MemCanon := by
  dsimp only [Mach.fragment]
  split
  · exact spendCredit_canon _ _ _ (fumCount_canon _ _ _ _ _ (countPx_canon _ _ (setPort_canon _ _ h)))
  · exact lastFragment_canon _ _ _ _ (setPort_canon _ _ h)

theorem sendHead_canon {m : Mach} (q e : Nat) (part : Option Nat) (late : Bool) (h : m.MemCanon) : (m.sendHead q e part late).MemCanon := by
  dsimp only [Mach.sendHead]
  split
  · exact h
  · next _ _ _ he =>
      split
      · next _ t he1 =>
          have hk1 : t.MemCanon := of_snd_canon he1 (fetchOut_canon _ (setPort_canon _ _ (creditTick_canon _ h)))
          exact fragment_canon _ _ _ _ _ (txStamp_canon _ _ (outDone_canon _ hk1))
      · next _ _ t he1 =>
          have hk1 : t.MemCanon := of_snd_canon he1 (fetchOut_canon _ (setPort_canon _ _ (creditTick_canon _ h)))
          exact ite_canon (lastFragment_canon _ _ _ _ (txStamp_canon _ _ (outDone_canon _ (portHalt_canon _ _ _ hk1))))
            (countEq_canon _ _ _ (outDone_canon _ (portHalt_canon _ _ _ hk1)))

theorem transmit_canon {m : Mach} (q : Nat) (part : Option Nat) (late : Bool) (h : m.MemCanon) : (m.transmit q part late).MemCanon := by
  dsimp only [Mach.transmit]
  split
  · exact h
  · split
    · split
      · exact sendHead_canon _ _ _ _ (foldl_keeps (P := Mach.MemCanon) _ _ (creditTick_canon _ h)
          (fun _ hb _ => markWait_canon _ _ (dropLong_canon _ _ _ hb)))
      · split
        · exact fragment_canon _ _ _ _ _ (foldl_keeps (P := Mach.MemCanon) _ _ (creditTick_canon _ h)
            (fun _ hb _ => markWait_canon _ _ (dropLong_canon _ _ _ hb)))
        · exact foldl_keeps (P := Mach.MemCanon) _ _ (creditTick_canon _ h) (fun _ hb _ => markWait_canon _ _ (dropLong_canon _ _ _ hb))
    · split
      · exact sendHead_canon _ _ _ _ (foldl_keeps (P := Mach.MemCanon) _ _ (creditTick_canon _ h)
          (fun _ hb _ => markWait_canon _ _ (dropLong_canon _ _ _ hb)))
      · exact foldl_keeps (P := Mach.MemCanon) _ _ (creditTick_canon _ h) (fun _ hb _ => markWait_canon _ _ (dropLong_canon _ _ _ hb))

theorem enqueue_canon {m : Mach} (q : Nat) (f : EgFrame) (h : m.MemCanon) : (m.enqueue q f).MemCanon := by
  dsimp only [Mach.enqueue]
  split
  · exact outDone_canon _ h
  · exact ite_canon (dropDown_canon _ _ h) (setPort_canon _ _ (creditTick_canon _ h))

theorem takeRtag_canon {m : Mach} (px i : Nat) (h : m.MemCanon) : (m.takeRtag px i).2.MemCanon := modSf_canon _ _ _ _ _ h

theorem copiesOf_canon {m : Mach} (o : OutRec) (h : m.MemCanon) : (m.copiesOf o).2.2.MemCanon := by
  dsimp only [Mach.copiesOf]
  split
  · exact h
  · split
    · exact takeRtag_canon _ _ h
    · split
      · exact takeRtag_canon _ _ h
      · exact h

theorem releaseOut_canon {m : Mach} (queue s k : Nat) (o : OutRec) (h : m.MemCanon) : (m.releaseOut queue s k o).MemCanon :=
  foldl_keeps (P := Mach.MemCanon) _ _ (modRec_canon _ _ _ (copiesOf_canon _ h)) (fun _ hb _ => enqueue_canon _ _ hb)

theorem downHoldEnd_canon {m : Mach} (q : Nat) (h : m.MemCanon) : (m.downHoldEnd q).MemCanon :=
  ite_canon h (foldl_keeps (P := Mach.MemCanon) _ _ (setPort_canon _ _ h) (fun _ hb _ => dropDown_canon _ _ hb))

theorem gclChange_canon {m : Mach} (q : Nat) (h : m.MemCanon) : (m.gclChange q).MemCanon :=
  ite_canon h (setPort_canon _ _ (creditTick_canon _ (of_parts_canon h rfl rfl)))

theorem gclInterval_canon {m : Mach} (q : Nat) (h : m.MemCanon) : (m.gclInterval q).MemCanon :=
  ite_canon h (of_parts_canon (creditTick_canon _ h) rfl rfl)

theorem readTxts_canon {m : Mach} (q : Nat) (h : m.MemCanon) : (m.readTxts q).2.MemCanon := by
  dsimp only [Mach.readTxts]
  split
  · exact setPort_canon _ _ h
  · exact setReg_canon _ _ _ _ (setPort_canon _ _ h)

theorem pschedWrite_canon {m : Mach} (q : Nat) (w : Nat → W64) (h : m.MemCanon) : SomeAll (fun r => r.MemCanon) (m.pschedWrite q w) := by
  dsimp only [Mach.pschedWrite]
  split
  · exact setEg_canon _ _ _ _ h
  · split
    · exact trivial
    · split
      · exact trivial
      · exact setPort_canon _ _ (setEg_canon _ _ _ _ h)

theorem eqWrite_canon {m : Mach} (q e : Nat) (w : W64) (h : m.MemCanon) : SomeAll (fun r => r.MemCanon) (m.eqWrite q e w) := by
  dsimp only [Mach.eqWrite]
  split
  · exact trivial
  · exact setEg_canon _ _ _ _ (ite_canon (creditTick_canon _ h) (setPort_canon _ _ (creditTick_canon _ h)))

theorem egCommand_canon {m : Mach} (px : Nat) (wr : Bool) (h : m.MemCanon) : (m.egCommand px wr).MemCanon := by
  have hp := fun q w => pschedWrite_canon (m := m) q w h
  have he := fun q i w => eqWrite_canon (m := m) q i w h
  unfold Mach.egCommand
  extract_lets st sel t q idx w err good
  have herr : err.MemCanon := setReg_canon _ _ _ _ h
  have hgood : ∀ {x : Mach}, x.MemCanon → (good x).MemCanon := fun hx => setReg_canon _ _ _ _ hx
  have hd : ∀ {o : Option Mach}, SomeAll Mach.MemCanon o → ((o.map good).getD err).MemCanon := by
    intro o ho
    cases o with
    | none => exact herr
    | some x => exact hgood ho
  refine ite_canon herr (ite_canon ?_ (ite_canon (hd (hp _ _)) (ite_canon (ite_canon herr ?_) (ite_canon herr (hd (he _ _ _))))))
  · exact hgood (foldl_keeps (P := Mach.MemCanon) _ _ h fun _ hb _ => setReg_canon _ _ _ _ hb)
  · exact hgood (setEg_canon _ _ _ _ h)

end Sys2Proof.Machine

/-!
SUPPORT. Operations keep memory and its metadata in canonical form: records, the ledger instructions, queue functions.
-/

namespace Sys2Proof.Machine

/-! ### Canonical memory: records -/

theorem engWord_canon {m : Mach} (st a : Nat) (d : W64) (poison : Bool) (h : m.MemCanon) : (m.engWord st a d poison).MemCanon := by
  dsimp only [Mach.engWord]
  split
  · refine mirrorWrite_canon _ _ _ _ (stored_canon _ (putWord_canon _ _ _ _ (l1Inval_canon _ _ (homeWrite_canon _ _ h))))
  · exact countMesh_canon _ _ _ _ (stored_canon _ (putWord_canon _ _ _ _ h))

theorem engWords_canon {m : Mach} (st a : Nat) (ws : List Word) (h : m.MemCanon) : (m.engWords st a ws).MemCanon := by
  induction ws generalizing m a with
  | nil => exact h
  | cons w ws ih => exact ih _ (engWord_canon _ _ _ _ h)

theorem putBytes_canon {m : Mach} (a : Nat) (bs : List (BitVec 8)) (n : Nat) (h : m.MemCanon) : (m.putBytes a bs n).MemCanon := by
  induction n generalizing m a bs with
  | zero => exact h
  | succ n ih =>
    unfold Mach.putBytes
    refine ite_canon h ?_
    extract_lets m1
    have h1 : m1.MemCanon := ite_canon (openLine_canon _ h) h
    exact ite_canon (storePart_canon _ _ _ _ h1) (ih _ _ (putWord_canon _ _ _ _ h1))

theorem putEntry_canon {m : Mach} (e pos : Nat) (ws : List Word) (cs : List Bool) (h : m.MemCanon) : (m.putEntry e pos ws cs).MemCanon :=
  foldl_keeps (P := Mach.MemCanon) _ _ h (fun _ hb _ => putWords_canon _ _
    (foldl_keeps (P := Mach.MemCanon) _ _ hb (fun _ hb1 _ => openLine_canon _ hb1)))

theorem copyForward_canon {m : Mach} (e : Nat) (h : m.MemCanon) : (m.copyForward e).MemCanon := by
  dsimp only [Mach.copyForward]
  split
  · exact ite_canon (setEngine_canon _ _ (putEntry_canon _ _ _ _ h)) h
  · exact h

theorem appendEntry_canon {m : Mach} (e kind : Nat) (recs : List (Nat × Nat)) (ws : List Word) (cs : List Bool) (h : m.MemCanon) :
    (m.appendEntry e kind recs ws cs).MemCanon :=
  copyForward_canon _ (setEngine_canon _ _ (putEntry_canon _ _ _ _ h))

theorem freeWords_canon {m : Mach} (h : m.MemCanon) : m.freeWords.2.MemCanon := of_parts_canon h rfl rfl

theorem freeEntries_canon {m : Mach} (e : Nat) (h : m.MemCanon) : (m.freeEntries e).MemCanon := ite_canon h (setEngine_canon _ _ h)

theorem countRefusal_canon {m : Mach} (q cause : Nat) (h : m.MemCanon) : (m.countRefusal q cause).MemCanon := by
  dsimp only [Mach.countRefusal]
  split
  · exact setVqf_canon _ _ _ (countUncore_canon _ _ _ (setRegFld_canon _ _ _ _ _ _ (countReg_canon _ _ _ _ _ _ h)))
  · exact countUncore_canon _ _ _ (setRegFld_canon _ _ _ _ _ _ (countReg_canon _ _ _ _ _ _ h))

theorem putPayload_canon {m : Mach} (e i : Nat) (bs : List (BitVec 8)) (port : Option Nat) (cs : List Bool) (h : m.MemCanon) :
    (m.putPayload e i bs port cs).MemCanon := by
  dsimp only [Mach.putPayload]
  refine foldl_keeps (P := Mach.MemCanon) _ _ h fun _ hb1 _ => ?_
  refine putBytes_canon _ _ _ ?_
  split
  · split
    · exact ite_canon (portHalt_canon _ _ _ hb1) hb1
    · exact ite_canon (portHalt_canon _ _ _ (readUpsets_canon _ _ _ _ hb1)) (readUpsets_canon _ _ _ _ hb1)
  · exact ite_canon hb1 (readUpsets_canon _ _ _ _ hb1)

theorem admitRec_canon {m : Mach} (q : Nat) (r0 : LRec) (h : m.MemCanon) : (m.admitRec q r0).MemCanon := by
  dsimp only [Mach.admitRec]
  split
  · refine appendEntry_canon _ _ _ _ _ ?_
    split
    · refine putPayload_canon _ _ _ _ _ ?_
      refine setEngine_canon _ _ (drawn_canon (countUncore_canon _ _ _
        (countUncore_canon _ _ _ (setVqf_canon _ _ _ (ite_canon (epnSend_canon _ (setQueue_canon _ _ h)) (setQueue_canon _ _ h))))))
    · exact countUncore_canon _ _ _ (countUncore_canon _ _ _ (setVqf_canon _ _ _
        (ite_canon (epnSend_canon _ (setQueue_canon _ _ h)) (setQueue_canon _ _ h))))
  · split
    · refine putPayload_canon _ _ _ _ _ (setEngine_canon _ _ (drawn_canon
        (countUncore_canon _ _ _ (setVqf_canon _ _ _ (ite_canon (epnSend_canon _ (setQueue_canon _ _ h)) (setQueue_canon _ _ h))))))
    · exact countUncore_canon _ _ _ (setVqf_canon _ _ _ (ite_canon (epnSend_canon _ (setQueue_canon _ _ h)) (setQueue_canon _ _ h)))

theorem refuseFrame_canon {m : Mach} (h : Handover) (cause : Nat) (h1 : m.MemCanon) : (m.refuseFrame h cause).MemCanon := by
  dsimp only [Mach.refuseFrame]
  split
  · exact refEvent_canon _ _ (countSf_canon _ _ _ _ _ _ (countRefusal_canon _ _ h1))
  · exact countPort_canon _ _ _ _ (countRefusal_canon _ _ h1)

theorem recordAdmit_canon {m : Mach} (px : Nat) (h : m.MemCanon) : (m.recordAdmit px).MemCanon := by
  dsimp only [Mach.recordAdmit]
  split
  · exact h
  · split
    · exact h
    · refine pfcUpdate_canon _ ?_
      split
      · exact refuseFrame_canon _ _ (of_parts_canon h rfl rfl)
      · exact admitRec_canon _ _ (of_parts_canon h rfl rfl)

theorem stopCheck_canon {m : Mach} (q : Nat) (h : m.MemCanon) : (m.stopCheck q).MemCanon := ite_canon (setQueue_canon _ _ h) h

theorem vqfEvent_canon {m : Mach} (e v : Nat) (h : m.MemCanon) : (m.vqfEvent e v).MemCanon := ite_canon (raiseAssigned_canon _ h) h

theorem freezeCheck_canon {m : Mach} (e v : Nat) (h : m.MemCanon) : (m.freezeCheck e v).MemCanon := by
  dsimp only [Mach.freezeCheck]
  split
  · exact h
  · exact vqfEvent_canon _ _ (setVqf_canon _ _ _ (foldl_keeps (P := Mach.MemCanon) _ _ h
      (fun _ hb _ => ite_canon hb (setQueue_canon _ _ hb))))

theorem queueTick_canon {m : Mach} (q : Nat) (h : m.MemCanon) : (m.queueTick q).MemCanon := freezeCheck_canon _ _ (stopCheck_canon _ h)

theorem recordAccept_canon {m : Mach} (q s : Nat) (h : m.MemCanon) : (m.recordAccept q s).MemCanon := by
  dsimp only [Mach.recordAccept]
  split
  · exact ite_canon (queueTick_canon _ (modRec_canon _ _ _ h)) h
  · exact h

theorem poisonBuf_canon {m : Mach} (e : Nat) (r : LRec) (h : m.MemCanon) : (m.poisonBuf e r).MemCanon := by
  dsimp only [Mach.poisonBuf]
  split
  · exact h
  · exact foldl_keeps (P := Mach.MemCanon) _ _ h (fun _ hb _ => putWord_canon _ _ _ _ hb)

theorem writeSlot_canon {m : Mach} (st ring slots s : Nat) (ws : List Word) (h : m.MemCanon) : (m.writeSlot st ring slots s ws).MemCanon :=
  engWord_canon _ _ _ _ (engWords_canon _ _ _ h)

theorem recordDeliver_canon {m : Mach} (q bad : Nat) (partnerBad : Bool) (h : m.MemCanon) :
    (m.recordDeliver q bad partnerBad).MemCanon := by
  dsimp only [Mach.recordDeliver]
  split
  · exact h
  · split
    · exact h
    · next _ _ he =>
        split
        · exact haltDelivery_canon _ _ h
        · next _ _ t he1 =>
            have hke1 : t.MemCanon := SomeAll.elim he1 (enginePa_canon _ _ h) id
            split
            · exact haltDelivery_canon _ _ (countReg_canon _ _ _ _ _ _ (logViol_canon _ _ _ hke1))
            · refine queueTick_canon _ ?_
              split
              · refine copyForward_canon _ ?_
                split
                · refine raiseAssigned_canon _ ?_
                  refine countUncore_canon _ _ _ ?_
                  refine modRec_canon _ _ _ ?_
                  refine writeSlot_canon _ _ _ _ _ ?_
                  split
                  · split
                    · exact poisonBuf_canon _ _ (ite_canon hke1 (raiseOwn_canon _ _ _ hke1))
                    · exact ite_canon hke1 (raiseOwn_canon _ _ _ hke1)
                  · split
                    · exact poisonBuf_canon _ _ (ite_canon hke1 (raiseOwn_canon _ _ _ hke1))
                    · exact ite_canon hke1 (raiseOwn_canon _ _ _ hke1)
                · refine countUncore_canon _ _ _ ?_
                  refine modRec_canon _ _ _ ?_
                  refine writeSlot_canon _ _ _ _ _ ?_
                  split
                  · split
                    · exact poisonBuf_canon _ _ (ite_canon hke1 (raiseOwn_canon _ _ _ hke1))
                    · exact ite_canon hke1 (raiseOwn_canon _ _ _ hke1)
                  · split
                    · exact poisonBuf_canon _ _ (ite_canon hke1 (raiseOwn_canon _ _ _ hke1))
                    · exact ite_canon hke1 (raiseOwn_canon _ _ _ hke1)
              · split
                · refine raiseAssigned_canon _ ?_
                  refine countUncore_canon _ _ _ ?_
                  refine modRec_canon _ _ _ ?_
                  refine writeSlot_canon _ _ _ _ _ ?_
                  split
                  · split
                    · exact poisonBuf_canon _ _ (ite_canon hke1 (raiseOwn_canon _ _ _ hke1))
                    · exact ite_canon hke1 (raiseOwn_canon _ _ _ hke1)
                  · split
                    · exact poisonBuf_canon _ _ (ite_canon hke1 (raiseOwn_canon _ _ _ hke1))
                    · exact ite_canon hke1 (raiseOwn_canon _ _ _ hke1)
                · refine countUncore_canon _ _ _ ?_
                  refine modRec_canon _ _ _ ?_
                  refine writeSlot_canon _ _ _ _ _ ?_
                  split
                  · split
                    · exact poisonBuf_canon _ _ (ite_canon hke1 (raiseOwn_canon _ _ _ hke1))
                    · exact ite_canon hke1 (raiseOwn_canon _ _ _ hke1)
                  · split
                    · exact poisonBuf_canon _ _ (ite_canon hke1 (raiseOwn_canon _ _ _ hke1))
                    · exact ite_canon hke1 (raiseOwn_canon _ _ _ hke1)

theorem sendMarker_canon {m : Mach} (q : Nat) (h : m.MemCanon) : (m.sendMarker q).MemCanon := by
  dsimp only [Mach.sendMarker]
  split
  · exact ite_canon (epnSend_canon _ (modRec_canon _ _ _ h)) h
  · exact h

theorem cleanOut_canon {m : Mach} (o : OutRec) (h : m.MemCanon) : (m.cleanOut o).MemCanon :=
  foldl_keeps (P := Mach.MemCanon) _ _ h (fun _ hb _ => ite_canon (cleanLine_canon _ hb) hb)

theorem recordSent_canon {m : Mach} (q s : Nat) (h : m.MemCanon) : (m.recordSent q s).MemCanon := by
  dsimp only [Mach.recordSent]
  split
  · exact h
  · exact ite_canon h (queueTick_canon _ (freeEntries_canon _ (setQueue_canon _ _ (freeBufs_canon _ _ h))))

theorem recordRelease_canon {m : Mach} (q : Nat) (h : m.MemCanon) : (m.recordRelease q).MemCanon := by
  dsimp only [Mach.recordRelease]
  split
  · exact h
  · split
    · exact sendMarker_canon _ h
    · refine sendMarker_canon _ ?_
      refine queueTick_canon _ ?_
      split
      · refine recordSent_canon _ _ ?_
        refine foldl_keeps (P := Mach.MemCanon) _ _ ?_ fun _ hb1 _ => ?_
        · refine countUncore_canon _ _ _ (modRec_canon _ _ _ (ite_canon
            (appendEntry_canon _ _ _ _ _ (freeWords_canon (foldl_keeps (P := Mach.MemCanon) _ _ h (fun _ hb _ => cleanOut_canon _ hb)))) h))
        · exact releaseOut_canon _ _ _ _ hb1
      · refine foldl_keeps (P := Mach.MemCanon) _ _ ?_ fun _ hb1 _ => ?_
        · refine countUncore_canon _ _ _ (modRec_canon _ _ _ (ite_canon
            (appendEntry_canon _ _ _ _ _ (freeWords_canon (foldl_keeps (P := Mach.MemCanon) _ _ h (fun _ hb _ => cleanOut_canon _ hb)))) h))
        · exact releaseOut_canon _ _ _ _ hb1

theorem loseRing_canon {m : Mach} (q : Nat) (h : m.MemCanon) : (m.loseRing q).MemCanon := by
  dsimp only [Mach.loseRing]
  refine foldl_keeps (P := Mach.MemCanon) _ _ h fun _ hb1 _ => ?_
  split
  · refine modRec_canon _ _ _ ?_
    refine freeBufs_canon _ _ ?_
    split
    · exact revokePair_canon _ _ hb1
    · exact hb1
  · exact hb1

theorem ringLoss_canon {m : Mach} (k : Nat) (h : m.MemCanon) : (m.ringLoss k).MemCanon :=
  foldl_keeps (P := Mach.MemCanon) _ _ h (fun _ hb _ => ite_canon (loseRing_canon _ hb) hb)

theorem stateEntries_canon {m : Mach} (e : Nat) (rs : List (Nat × Nat)) (n : Nat) (h : m.MemCanon) : (m.stateEntries e rs n).MemCanon := by
  induction n generalizing m rs with
  | zero => cases rs <;> exact h
  | succ n ih =>
    cases rs with
    | nil => exact h
    | cons r rs => exact ite_canon h (ih _ (appendEntry_canon _ _ _ _ _ (freeWords_canon h)))

theorem revokeAll_canon {m : Mach} (e : Nat) (h : m.MemCanon) : (m.revokeAll e).MemCanon := by
  dsimp only [Mach.revokeAll]
  refine foldl_keeps (P := Mach.MemCanon) _ _ h fun _ hb1 _ => ?_
  refine foldl_keeps (P := Mach.MemCanon) _ _ hb1 fun _ hb2 _ => ?_
  split
  · exact revokePair_canon _ _ hb2
  · exact hb2

theorem replayQueues_canon {m : Mach} (e : Nat) (h : m.MemCanon) : (m.replayQueues e).MemCanon := of_parts_canon h rfl rfl

theorem ledgerReset_canon {m : Mach} (e : Nat) (h : m.MemCanon) : (m.ledgerReset e).MemCanon := by
  dsimp only [Mach.ledgerReset]
  refine clearBank_canon _ ?_
  refine freeEntries_canon _ ?_
  refine setEngine_canon _ _ (foldl_keeps (P := Mach.MemCanon) _ _
    (replayQueues_canon _ (revokeAll_canon _ (stateEntries_canon _ _ _ (openShadow_canon _ h)))) (fun _ hb _ => resetWindow_canon _ _ hb))

theorem releaseAgain_canon {m : Mach} (q : Nat) (r : LRec) (h : m.MemCanon) : (m.releaseAgain q r).MemCanon := by
  dsimp only [Mach.releaseAgain]
  split
  · exact h
  · exact foldl_keeps (P := Mach.MemCanon) _ _ h (fun _ hb _ => ite_canon hb (releaseOut_canon _ _ _ _ hb))

theorem rebuilt_canon {m : Mach} (e : Nat) (h : m.MemCanon) : (m.rebuilt e).MemCanon := by
  dsimp only [Mach.rebuilt]
  split
  · exact h
  · exact foldl_keeps (P := Mach.MemCanon) _ _ (setEngine_canon _ _ h)
      (fun _ hb _ => foldl_keeps (P := Mach.MemCanon) _ _ hb (fun _ hb1 _ => releaseAgain_canon _ _ hb1))

theorem queueStopAt_canon {m : Mach} (q : Nat) (h : m.MemCanon) : (m.queueStopAt q).MemCanon :=
  ite_canon (stopCheck_canon _ (setQueue_canon _ _ h)) h

theorem queueWrite_canon {m : Mach} (q : Nat) (w : Nat → W64) (h : m.MemCanon) : SomeAll (fun r => r.MemCanon) (m.queueWrite q w) := by
  dsimp only [Mach.queueWrite]
  split
  · split
    · exact setQueue_canon _ _ h
    · split
      · split
        · exact trivial
        · exact setQueue_canon _ _ h
      · split
        · exact trivial
        · exact setQueue_canon _ _ h
  · split
    · split
      · exact setQueue_canon _ _ h
      · exact trivial
    · split
      · exact queueStopAt_canon _ (setQueue_canon _ _ h)
      · exact setQueue_canon _ _ h

theorem queueCommand_canon {m : Mach} (e : Nat) (wr : Bool) (h : m.MemCanon) : (m.queueCommand e wr).MemCanon := by
  dsimp only [Mach.queueCommand]
  split
  · next he =>
      split
      · next _ t he1 =>
          have hke1 : t.MemCanon := SomeAll.elim he1 (queueWrite_canon _ _ h) id
          exact setReg_canon _ _ _ _ hke1
      · exact setReg_canon _ _ _ _ h
  · exact foldl_keeps (P := Mach.MemCanon) _ _ (setReg_canon _ _ _ _ h) (fun _ hb _ => setReg_canon _ _ _ _ hb)

/-! ### Canonical memory: the ledger instructions -/

theorem doorbell_canon {m : Mach} (c : Nat) (a : Word) (h : m.MemCanon) : OkAll (fun r => r.2.MemCanon) (m.doorbell c a) := by
  dsimp only [Mach.doorbell]
  split
  · exact trivial
  · next _ _ _ t he =>
      have hke : t.MemCanon := OkAll.elim he (live_canon _ _ _ _ _ h) id
      split
      · exact trivial
      · split
        · exact trivial
        · split
          · exact trivial
          · split
            · exact trivial
            · next _ _ _ t1 he1 =>
                have hke1 : t1.MemCanon := OkAll.elim he1 (translate_canon _ _ _ _ hke) id
                split
                · split
                  · exact hke1
                  · exact trivial
                · exact trivial

theorem recordCap_canon {m : Mach} (c : Nat) (a : Word) (h : m.MemCanon) : OkAll (fun r => r.2.MemCanon) (m.recordCap c a) := by
  dsimp only [Mach.recordCap]
  split
  · exact trivial
  · split
    · exact trivial
    · exact trivial
    · next _ _ _ t he =>
        have hke : t.MemCanon := OkAll.elim he (entry_canon _ _ _ h) id
        split
        · exact hke
        · exact trivial
        · split
          · exact trivial
          · split
            · exact trivial
            · exact hke
        · split
          · exact trivial
          · split
            · exact trivial
            · exact trivial

theorem checkRange_canon {m : Mach} (c : Nat) (cap : Word) (len : Nat) (perms : List Perm) (h : m.MemCanon) :
    OkAll (fun r => r.2.MemCanon) (m.checkRange c cap len perms) := by
  dsimp only [Mach.checkRange]
  split
  · exact trivial
  · next _ _ _ t he =>
      have hke : t.MemCanon := OkAll.elim he (checkParts_canon _ _ _ _ _ h) id
      exact hke

theorem mintPair_canon {m : Mach} (q pa s : Nat) (h : m.MemCanon) : (m.mintPair q pa s).2.MemCanon :=
  writeGrant_canon _ _ _ _ (writeGrant_canon _ _ _ _ h)

theorem takeAt_canon {m : Mach} (c q base : Nat) (h : m.MemCanon) : (m.takeAt c q base).2.MemCanon := by
  dsimp only [Mach.takeAt]
  split
  · exact h
  · split
    · exact h
    · split
      · exact h
      · exact modRec_canon _ _ _ (mintPair_canon _ _ _ (drawn_canon h))

theorem ltake_canon (c : Nat) (d a : BitVec 6) {m : Mach} (h : m.MemCanon) : (ltake c d a m).MemCanon := by
  dsimp only [ltake]
  refine instr_canon _ _ _ h ?_
  intro m1 h1
  split
  · exact trivial
  · split
    · exact trivial
    · next _ _ t he =>
        have hke : t.MemCanon := OkAll.elim he (doorbell_canon _ _ (drainAll_canon _ h1)) id
        split
        · exact trivial
        · next _ _ _ t1 he1 =>
            have hke1 : t1.MemCanon := OkAll.elim he1 (translate_canon _ _ _ _ hke) id
            split
            · exact trivial
            · next _ _ t2 he2 =>
                have hke2 : t2.MemCanon := SomeAll.elim he2 (pairPa_canon _ _ hke1) id
                split
                · exact trivial
                · exact result_canon _ _ _ (takeAt_canon _ _ _ hke2)

theorem readOut_canon {m : Mach} (c : Nat) (g3 : Bool) (y : Word) (h : m.MemCanon) : OkAll (fun r => r.2.MemCanon) (m.readOut c g3 y) := by
  dsimp only [Mach.readOut]
  split
  · exact trivial
  · next _ _ t he =>
      have hke : t.MemCanon := OkAll.elim he (firstPiece_canon _ _ _ _ h) id
      split
      · split
        · exact trivial
        · exact readUpsets_canon _ _ _ _ (loadSide_canon _ _ hke)
      · split
        · exact trivial
        · exact readUpsets_canon _ _ _ _ (loadSide_canon _ _ hke)

theorem outData_canon {m : Mach} (c : Nat) (a : Word) (d : OutDesc) (h : m.MemCanon) : OkAll (fun r => r.2.MemCanon) (m.outData c a d) := by
  dsimp only [Mach.outData]
  split
  · exact trivial
  · next _ _ t he =>
      have hke : t.MemCanon := OkAll.elim he (checkRange_canon _ _ _ _ h) id
      split
      · exact hke
      · split
        · exact trivial
        · exact hke

theorem outAt_canon {m : Mach} (r : RecCap) (a : Word) (d : OutDesc) (pa : Nat) (h : m.MemCanon) :
    OkAll (fun r => r.2.MemCanon) (m.outAt r a d pa) := by
  dsimp only [Mach.outAt]
  split
  · exact trivial
  · split
    · exact trivial
    · split
      · exact trivial
      · split
        · exact h
        · exact modRec_canon _ _ _ h

theorem lout_canon (c : Nat) (d a b : BitVec 6) {m : Mach} (h : m.MemCanon) : (lout c d a b m).MemCanon := by
  dsimp only [lout]
  refine instr_canon _ _ _ h ?_
  intro m1 h1
  split
  · exact trivial
  · split
    · exact trivial
    · next _ _ t he =>
        have hke : t.MemCanon := OkAll.elim he (recordCap_canon _ _ (drainAll_canon _ h1)) id
        split
        · exact trivial
        · next _ _ t1 he1 =>
            have hke1 : t1.MemCanon := OkAll.elim he1 (readOut_canon _ _ _ hke) id
            split
            · exact trivial
            · next _ _ t2 he2 =>
                have hke2 : t2.MemCanon := OkAll.elim he2 (outData_canon _ _ _ hke1) id
                split
                · exact trivial
                · next _ _ t3 he3 =>
                    have hke3 : t3.MemCanon := OkAll.elim he3 (outAt_canon _ _ _ _ hke2) id
                    exact result_canon _ _ _ hke3

theorem retireAt_canon {m : Mach} (r : RecCap) (a : Word) (h : m.MemCanon) : OkAll (fun r => r.2.MemCanon) (m.retireAt r a) := by
  dsimp only [Mach.retireAt]
  split
  · exact trivial
  · exact queueTick_canon _ (sendMarker_canon _ (countUncore_canon _ _ _ (revokePair_canon _ _ (modRec_canon _ _ _ h))))

theorem lretSettled_canon {m : Mach} (c : Nat) (mir : Bool) (h : m.MemCanon) :
    OkAll (fun r => r.1.MemCanon) (if mir then m.settle c else .ok (m.drainAll c, true)) := by
  split
  · exact settle_canon _ h
  · exact drainAll_canon _ h

theorem lret_canon (c : Nat) (d a : BitVec 6) {m : Mach} (h : m.MemCanon) : (lret c d a m).MemCanon := by
  refine instr_canon _ _ _ h fun m h => ?_
  dsimp only
  split
  · exact trivial
  · split
    · exact trivial
    · next he =>
      have h1 := OkAll.elim he (recordCap_canon _ _ h) id
      split
      · exact trivial
      · next he2 => exact OkAll.elim he2 (lretSettled_canon _ _ h1) id
      · next he2 =>
        have h2 := OkAll.elim he2 (lretSettled_canon _ _ h1) id
        split
        · exact trivial
        · next he3 => exact result_canon _ _ _ (OkAll.elim he3 (retireAt_canon _ _ h2) id)

theorem lhand_canon (c : Nat) (d a : BitVec 6) {m : Mach} (h : m.MemCanon) : (lhand c d a m).MemCanon := by
  dsimp only [lhand]
  refine instr_canon _ _ _ h ?_
  intro m1 h1
  split
  · exact trivial
  · split
    · exact trivial
    · next _ _ t he =>
        have hke : t.MemCanon := OkAll.elim he (recordCap_canon _ _ (drainAll_canon _ h1)) id
        split
        · exact trivial
        · exact result_canon _ _ _ (queueTick_canon _ (handBack_canon _ _ _ hke))

theorem tryPut_canon {m : Mach} (c : Nat) (w : PutWait) (h : m.MemCanon) : (m.tryPut c w).MemCanon := by
  dsimp only [Mach.tryPut]
  split
  · exact setCore_canon _ _ h
  · split
    · exact setCore_canon _ _ (admitRec_canon _ _ h)
    · exact ite_canon (setCore_canon _ _ h) (setCore_canon _ _ (countRefusal_canon _ _ h))

theorem putDone_canon (c d : Nat) (w : PutWait) {m : Mach} (h : m.MemCanon) : ResCanon (putDone c d w m) := by
  dsimp only [putDone]
  split
  · exact result_canon _ _ _ (setCore_canon _ _ h)
  · split
    · split
      · exact h
      · exact result_canon _ _ _ (setCore_canon _ _ h)
    · exact result_canon _ _ _ (setCore_canon _ _ h)
  · exact h

theorem lputBody_canon (c : Nat) (d a b : BitVec 6) {m : Mach} (h : m.MemCanon) : ResCanon (lputBody c d a b m) := by
  dsimp only [lputBody]
  split
  · exact trivial
  · split
    · exact trivial
    · next _ _ t he =>
        have hke : t.MemCanon := OkAll.elim he (doorbell_canon _ _ (drainAll_canon _ h)) id
        split
        · exact trivial
        · next _ _ t1 he1 =>
            have hke1 : t1.MemCanon := OkAll.elim he1 (checkRange_canon _ _ _ _ hke) id
            split
            · exact trivial
            · split
              · exact trivial
              · split
                · exact putDone_canon _ _ _ (tryPut_canon _ _ (foldl_keeps (P := Mach.MemCanon) _ _ hke1
                    (fun _ hb _ => readUpsets_canon _ _ _ _ hb)))
                · exact tryPut_canon _ _ (foldl_keeps (P := Mach.MemCanon) _ _ hke1 (fun _ hb _ => readUpsets_canon _ _ _ _ hb))

theorem lput_canon (c : Nat) (d a b : BitVec 6) {m : Mach} (h : m.MemCanon) : (lput c d a b m).MemCanon := by
  dsimp only [lput]
  split
  · exact ite_canon (finish_canon _ _ _ h (putDone_canon _ _ _ h)) h
  · exact instr_canon _ _ _ h (fun m1 h1 => lputBody_canon _ _ _ _ h1)

theorem lstat_canon (c : Nat) (d a : BitVec 6) {m : Mach} (h : m.MemCanon) : (lstat c d a m).MemCanon := by
  dsimp only [lstat]
  refine instr_canon _ _ _ h ?_
  intro m1 h1
  split
  · exact trivial
  · split
    · exact trivial
    · next _ _ t he =>
        have hke : t.MemCanon := OkAll.elim he (doorbell_canon _ _ (drainAll_canon _ h1)) id
        exact result_canon _ _ _ hke

/-! ### Canonical memory: queue functions -/

theorem retryPuts_canon {m : Mach} (e : Nat) (round : Bool) (h : m.MemCanon) : (m.retryPuts e round).MemCanon := by
  dsimp only [Mach.retryPuts]
  refine foldl_keeps (P := Mach.MemCanon) _ _ h fun _ hb1 _ => ?_
  split
  · split
    · exact tryPut_canon _ _ hb1
    · exact hb1
  · exact hb1

theorem roundStart_canon {m : Mach} (e : Nat) (h : m.MemCanon) : (m.roundStart e).MemCanon :=
  retryPuts_canon _ _ (setEngine_canon _ _ (of_parts_canon h rfl rfl))

theorem roundsStart_canon {m : Mach} (h : m.MemCanon) : m.roundsStart.MemCanon := roundStart_canon _ (roundStart_canon _ h)

theorem vqfResult_canon {m : Mach} (e v r : Nat) (h : m.MemCanon) : (m.vqfResult e v r).MemCanon := setVqf_canon _ _ _ h

theorem vqfDone_canon {m : Mach} (e v r : Nat) (h : m.MemCanon) : (m.vqfDone e v r).MemCanon := vqfEvent_canon _ _ (setVqf_canon _ _ _ h)

theorem vqfEnable_canon {m : Mach} (e v : Nat) (h : m.MemCanon) : (m.vqfEnable e v).MemCanon :=
  ite_canon (setVqf_canon _ _ _ h) (vqfResult_canon _ _ _ h)

theorem vqfDisable_canon {m : Mach} (e v : Nat) (h : m.MemCanon) : (m.vqfDisable e v).MemCanon :=
  ite_canon (vqfResult_canon _ _ _ h) (foldl_keeps (P := Mach.MemCanon) _ _ (setVqf_canon _ _ _ h) (fun _ hb _ => queueStopAt_canon _ hb))

theorem returnTaken_canon {m : Mach} (q : Nat) (h : m.MemCanon) : (m.returnTaken q).MemCanon :=
  foldl_keeps (P := Mach.MemCanon) _ _ h (fun _ hb _ => ite_canon (handBack_canon _ _ _ hb) hb)

theorem vqfFreeze_canon {m : Mach} (e v : Nat) (h : m.MemCanon) : (m.vqfFreeze e v).MemCanon :=
  ite_canon (freezeCheck_canon _ _ (foldl_keeps (P := Mach.MemCanon) _ _ (setVqf_canon _ _ _ h) (fun _ hb _ => returnTaken_canon _ hb)))
    (vqfResult_canon _ _ _ h)

theorem vqfThaw_canon {m : Mach} (e v : Nat) (h : m.MemCanon) : (m.vqfThaw e v).MemCanon := by
  dsimp only [Mach.vqfThaw]
  split
  · exact vqfResult_canon _ _ _ h
  · exact setVqf_canon _ _ _ (foldl_keeps (P := Mach.MemCanon) _ _ h
      (fun _ hb _ => ite_canon (stopCheck_canon _ (setQueue_canon _ _ hb)) hb))

theorem vqfResume_canon {m : Mach} (e v : Nat) (h : m.MemCanon) : (m.vqfResume e v).MemCanon :=
  ite_canon (vqfResult_canon _ _ _ h) (foldl_keeps (P := Mach.MemCanon) _ _ (setVqf_canon _ _ _ h) (fun _ hb _ => setQueue_canon _ _ hb))

theorem vqfStopped_canon {m : Mach} (e v : Nat) (h : m.MemCanon) : (m.vqfStopped e v).MemCanon :=
  ite_canon (vqfEvent_canon _ _ (setVqf_canon _ _ _ h)) h

theorem vqfSave_canon {m : Mach} (e v : Nat) (h : m.MemCanon) : (m.vqfSave e v).MemCanon := by
  dsimp only [Mach.vqfSave]
  split
  · exact vqfResult_canon _ _ _ h
  · split
    · exact vqfDone_canon _ _ _ h
    · split
      · exact vqfDone_canon _ _ _ h
      · split
        · exact vqfDone_canon _ _ _ (setVqf_canon _ _ _ h)
        · exact vqfDone_canon _ _ _ (setVqf_canon _ _ _ (engWord_canon _ _ _ _
            (engWords_canon _ _ _ (engWords_canon _ _ _ (setVqf_canon _ _ _ h)))))

theorem dropQueue_canon {m : Mach} (q : Nat) (h : m.MemCanon) : (m.dropQueue q).MemCanon :=
  freeEntries_canon _ (setQueue_canon _ _ (freeBufs_canon _ _ h))

theorem vqfDrop_canon {m : Mach} (e v : Nat) (force : Bool) (h : m.MemCanon) : (m.vqfDrop e v force).MemCanon := by
  dsimp only [Mach.vqfDrop]
  split
  · exact vqfResult_canon _ _ _ h
  · split
    · exact vqfDone_canon _ _ _ h
    · split
      · split
        · refine vqfDone_canon _ _ _ (setVqf_canon _ _ _ (foldl_keeps (P := Mach.MemCanon) _ _
            (foldl_keeps (P := Mach.MemCanon) _ _ h (fun _ hb _ => dropQueue_canon _ hb)) (fun _ hb _ => epnSend_canon _ hb)))
        · exact setVqf_canon _ _ _ (foldl_keeps (P := Mach.MemCanon) _ _
            (foldl_keeps (P := Mach.MemCanon) _ _ h (fun _ hb _ => dropQueue_canon _ hb)) (fun _ hb _ => epnSend_canon _ hb))
      · split
        · refine vqfDone_canon _ _ _ (setVqf_canon _ _ _ (foldl_keeps (P := Mach.MemCanon) _ _
            (foldl_keeps (P := Mach.MemCanon) _ _ h (fun _ hb _ => dropQueue_canon _ hb)) (fun _ hb _ => epnSend_canon _ hb)))
        · exact setVqf_canon _ _ _ (foldl_keeps (P := Mach.MemCanon) _ _
            (foldl_keeps (P := Mach.MemCanon) _ _ h (fun _ hb _ => dropQueue_canon _ hb)) (fun _ hb _ => epnSend_canon _ hb))

theorem dropAcked_canon {m : Mach} (e v q : Nat) (h : m.MemCanon) : (m.dropAcked e v q).MemCanon := by
  dsimp only [Mach.dropAcked]
  split
  · exact h
  · exact ite_canon (vqfDone_canon _ _ _ (setVqf_canon _ _ _ (setVqf_canon _ _ _ h))) (setVqf_canon _ _ _ h)

theorem storeOuts_canon {m : Mach} (e : Nat) (l : List (OutRec × List Word)) (h : m.MemCanon) : (m.storeOuts e l).2.MemCanon := by
  induction l generalizing m with
  | nil => exact h
  | cons p t ih =>
    dsimp only [Mach.storeOuts]
    split
    · exact h
    · exact ih (foldl_keeps (P := Mach.MemCanon) _ _ (setEngine_canon _ _ (drawn_canon h)) fun _ hb _ => engWords_canon _ _ _ hb)

theorem admitImage_canon {m : Mach} (q : Nat) (i : Image) (h : m.MemCanon) : (m.admitImage q i).MemCanon := by
  dsimp only [Mach.admitImage]
  split
  · refine epnSend_canon _ ?_
    split
    · refine appendEntry_canon _ _ _ _ _ ?_
      split
      · exact putPayload_canon _ _ _ _ _ (setEngine_canon _ _ (drawn_canon (setQueue_canon _ _ (storeOuts_canon _ _ h))))
      · exact setQueue_canon _ _ (storeOuts_canon _ _ h)
    · split
      · exact putPayload_canon _ _ _ _ _ (setEngine_canon _ _ (drawn_canon (setQueue_canon _ _ (storeOuts_canon _ _ h))))
      · exact setQueue_canon _ _ (storeOuts_canon _ _ h)
  · split
    · refine appendEntry_canon _ _ _ _ _ ?_
      split
      · exact putPayload_canon _ _ _ _ _ (setEngine_canon _ _ (drawn_canon (setQueue_canon _ _ (storeOuts_canon _ _ h))))
      · exact setQueue_canon _ _ (storeOuts_canon _ _ h)
    · split
      · exact putPayload_canon _ _ _ _ _ (setEngine_canon _ _ (drawn_canon (setQueue_canon _ _ (storeOuts_canon _ _ h))))
      · exact setQueue_canon _ _ (storeOuts_canon _ _ h)

theorem vqfRestore_canon {m : Mach} (e v : Nat) (partner : List Nat) (h : m.MemCanon) : (m.vqfRestore e v partner).MemCanon := by
  dsimp only [Mach.vqfRestore]
  split
  · exact vqfResult_canon _ _ _ h
  · split
    · exact vqfDone_canon _ _ _ h
    · split
      · exact vqfDone_canon _ _ _ h
      · split
        · exact vqfDone_canon _ _ _ h
        · refine freezeCheck_canon _ _ ?_
          refine foldl_keeps (P := Mach.MemCanon) _ _ (setVqf_canon _ _ _
            (foldl_keeps (P := Mach.MemCanon) _ _ h (fun _ hb _ => setQueue_canon _ _ hb))) fun _ hb1 _ => ?_
          exact admitImage_canon _ _ hb1

theorem vqfCommand_canon {m : Mach} (e : Nat) (stops : Bool) (f : Mach → Nat → Mach) (h : m.MemCanon)
    (hf : ∀ (a : Mach), a.MemCanon → ∀ (a_1 : Nat), (f a a_1).MemCanon) : (m.vqfCommand e stops f).MemCanon :=
  ite_canon (vqfResult_canon _ _ _ h) (hf _ h _)

theorem vqfWrite_canon {m : Mach} (e off : Nat) (w : W64) (h : m.MemCanon) : (m.vqfWrite e off w).MemCanon := by
  unfold Mach.vqfWrite
  extract_lets v x put
  have hp : ∀ y, (put y).MemCanon := fun y => setVqf_canon _ _ _ h
  exact ite_canon (hp _) (ite_canon (hp _) (ite_canon (hp _) (ite_canon (hp _) (ite_canon (hp _) (ite_canon (hp _)
    (ite_canon (hp _) (ite_canon (hp _) (ite_canon (hp _) (ite_canon (ite_canon (hp _) h) h)))))))))

end Sys2Proof.Machine

/-!
SUPPORT. Operations keep memory and its metadata in canonical form: pairing, resets of blocks, device requests and root ports, power, clocks and device time, the fault collector.
-/

namespace Sys2Proof.Machine

/-! ### Canonical memory: pairing -/

theorem setPairFld_canon {m : Mach} (lo n x : Nat) (h : m.MemCanon) : (m.setPairFld lo n x).MemCanon := setRegFld_canon _ _ _ _ _ _ h

theorem modPair_canon {m : Mach} (f : PairRt → PairRt) (h : m.MemCanon) : (m.modPair f).MemCanon := of_parts_canon h rfl rfl

theorem pairIgn_canon {m : Mach} (h : m.MemCanon) : m.pairIgn.MemCanon := setPairFld_canon _ _ _ h

theorem linkSrc_canon {m : Mach} (l : Nat) (h : m.MemCanon) : (m.linkSrc l).MemCanon := raiseOwn_canon _ _ _ h

theorem heldTick_canon {m : Mach} (h : m.MemCanon) : m.heldTick.MemCanon := setPairFld_canon _ _ _ h

theorem completeLocal_canon {m : Mach} (q : Nat) (r : LRec) (h : m.MemCanon) : (m.completeLocal q r).MemCanon := by
  dsimp only [Mach.completeLocal]
  split
  · exact modRec_canon _ _ _ h
  · split
    · refine putPayload_canon _ _ _ _ _ ?_
      split
      · exact putEntry_canon _ _ _ _ (modRec_canon _ _ _ h)
      · exact modRec_canon _ _ _ h
    · split
      · exact putEntry_canon _ _ _ _ (modRec_canon _ _ _ h)
      · exact modRec_canon _ _ _ h

theorem completeQueue_canon {m : Mach} (q : Nat) (h : m.MemCanon) : (m.completeQueue q).MemCanon :=
  foldl_keeps (P := Mach.MemCanon) _ _ h (fun _ hb _ => ite_canon (completeLocal_canon _ _ hb) hb)

theorem completeDrops_canon {m : Mach} (h : m.MemCanon) : m.completeDrops.MemCanon :=
  foldl_keeps (P := Mach.MemCanon) _ _ h (fun _ hb _ => foldl_keeps (P := Mach.MemCanon) _ _ hb (fun _ hb1 _ => dropAcked_canon _ _ _ hb1))

theorem raiseEnd_canon {m : Mach} (h : m.MemCanon) : m.raiseEnd.MemCanon :=
  ite_canon h (retryPuts_canon _ _ (retryPuts_canon _ _ (setPairFld_canon _ _ _ (modPair_canon _ h))))

theorem mirrorStop_canon {m : Mach} (takeover : Bool) (h : m.MemCanon) : (m.mirrorStop takeover).MemCanon := by
  dsimp only [Mach.mirrorStop]
  refine raiseEnd_canon ?_
  refine modPair_canon _ ?_
  split
  · exact of_parts_canon (completeDrops_canon (foldl_keeps (P := Mach.MemCanon) _ _ h (fun _ hb _ => completeQueue_canon _ hb))) rfl rfl
  · exact of_parts_canon (completeDrops_canon (foldl_keeps (P := Mach.MemCanon) _ _ h (fun _ hb _ => completeQueue_canon _ hb))) rfl rfl

theorem setPair_canon {m : Mach} (s : Nat) (fault : Bool) (h : m.MemCanon) : (m.setPair s fault).MemCanon := by
  dsimp only [Mach.setPair]
  split
  · exact h
  · split
    · exact mirrorStop_canon _ (ite_canon (raiseOwn_canon _ _ _ (raiseEvent_canon _ (setPairFld_canon _ _ _ h)))
        (raiseEvent_canon _ (setPairFld_canon _ _ _ h)))
    · exact ite_canon (raiseOwn_canon _ _ _ (raiseEvent_canon _ (setPairFld_canon _ _ _ h))) (raiseEvent_canon _ (setPairFld_canon _ _ _ h))

theorem joinFail_canon {m : Mach} (why : Nat) (h : m.MemCanon) : (m.joinFail why).MemCanon := setPair_canon _ _ (setPairFld_canon _ _ _ h)

theorem joinBegin_canon {m : Mach} (h : m.MemCanon) : m.joinBegin.MemCanon := setPair_canon _ _ (modPair_canon _ h)

theorem autoJoin_canon {m : Mach} (h : m.MemCanon) : m.autoJoin.MemCanon := ite_canon (joinBegin_canon h) h

theorem takeoverBegin_canon {m : Mach} (why : Nat) (fault : Bool) (h : m.MemCanon) : (m.takeoverBegin why fault).MemCanon :=
  setPair_canon _ _ (countReg_canon _ _ _ _ _ _ (setPairFld_canon _ _ _ h))

theorem sendOnLinks_canon {m : Mach} (h : m.MemCanon) : m.sendOnLinks.MemCanon :=
  foldl_keeps (P := Mach.MemCanon) _ _ h (fun _ hb _ => ite_canon (epnSend_canon _ hb) hb)

theorem partnerLost_canon {m : Mach} (why : Nat) (h : m.MemCanon) : (m.partnerLost why).MemCanon := by
  dsimp only [Mach.partnerLost]
  split
  · exact takeoverBegin_canon _ _ (sendOnLinks_canon h)
  · split
    · exact joinFail_canon _ h
    · exact ite_canon (setPair_canon _ _ (setPairFld_canon _ _ _ h)) h

theorem moveFrames_canon {m : Mach} (l : Nat) (h : m.MemCanon) : (m.moveFrames l).MemCanon := ite_canon h (modPair_canon _ h)

theorem linkTick_canon {m : Mach} (h : m.MemCanon) : m.linkTick.MemCanon := by
  dsimp only [Mach.linkTick]
  split
  · exact setPair_canon _ _ h
  · split
    · exact setPair_canon _ _ h
    · split
      · exact setPair_canon _ _ h
      · exact ite_canon (joinFail_canon _ h) h

theorem linkLost_canon {m : Mach} (l : Nat) (h : m.MemCanon) : (m.linkLost l).MemCanon := by
  dsimp only [Mach.linkLost]
  split
  · exact h
  · exact linkTick_canon (linkSrc_canon _ (ite_canon (moveFrames_canon _ (setReg_canon _ _ _ _ h)) (setReg_canon _ _ _ _ h)))

theorem relink_canon {m : Mach} (h : m.MemCanon) : m.relink.MemCanon := by
  dsimp only [Mach.relink]
  split
  · exact h
  · exact setPair_canon _ _ (linkSrc_canon _ (setRegFld_canon _ _ _ _ _ _ h))

theorem linkGained_canon {m : Mach} (l : Nat) (h : m.MemCanon) : (m.linkGained l).MemCanon := by
  dsimp only [Mach.linkGained]
  split
  · exact h
  · split
    · split
      · exact relink_canon (modPair_canon _ (autoJoin_canon (linkTick_canon
          (linkSrc_canon _ (setRegFld_canon _ _ _ _ _ _ (setRegFld_canon _ _ _ _ _ _ h))))))
      · exact autoJoin_canon (linkTick_canon (linkSrc_canon _ (setRegFld_canon _ _ _ _ _ _ (setRegFld_canon _ _ _ _ _ _ h))))
    · split
      · exact relink_canon (modPair_canon _ (autoJoin_canon (linkTick_canon
          (linkSrc_canon _ (moveFrames_canon _ (setRegFld_canon _ _ _ _ _ _ (setRegFld_canon _ _ _ _ _ _ h)))))))
      · exact autoJoin_canon (linkTick_canon (linkSrc_canon _ (moveFrames_canon _
          (setRegFld_canon _ _ _ _ _ _ (setRegFld_canon _ _ _ _ _ _ h)))))

theorem raiseTick_canon {m : Mach} (h : m.MemCanon) : m.raiseTick.MemCanon :=
  ite_canon (relink_canon (retryPuts_canon _ _ (retryPuts_canon _ _ (setPairFld_canon _ _ _ (modPair_canon _ h))))) h

theorem heardOn_canon {m : Mach} (i : Nat) (h : Heartbeat) (h1 : m.MemCanon) : (m.heardOn i h).MemCanon := modPair_canon _ h1

theorem psupTick_canon {m : Mach} (l : Nat) (h : m.MemCanon) : (m.psupTick l).MemCanon := by
  dsimp only [Mach.psupTick]
  split
  · exact h
  · split
    · exact autoJoin_canon (linkTick_canon (ite_canon (linkSrc_canon _ (setPairFld_canon _ _ _ h)) (setPairFld_canon _ _ _ h)))
    · exact ite_canon (linkSrc_canon _ (setPairFld_canon _ _ _ h)) (setPairFld_canon _ _ _ h)

theorem psHeard_canon {m : Mach} (p : Nat) (h : Heartbeat) (h1 : m.MemCanon) : (m.psHeard p h).MemCanon :=
  psupTick_canon _ (setRegFld_canon _ _ _ _ _ _ (setRegFld_canon _ _ _ _ _ _ (heardOn_canon _ _ h1)))

theorem fenceCommand_canon {m : Mach} (l : Nat) (id : Bool) (h : m.MemCanon) : (m.fenceCommand l id).MemCanon :=
  ite_canon (countReg_canon _ _ _ _ _ _ h) (caldera_canon _ _ _ _ h)

theorem missOn_canon {m : Mach} (l : Nat) (h : m.MemCanon) : (m.missOn l).MemCanon := by
  dsimp only [Mach.missOn]
  split
  · split
    · split
      · exact psupTick_canon _ (setRegFld_canon _ _ _ _ _ _ (setRegFld_canon _ _ _ _ _ _ (setRegFld_canon _ _ _ _ _ _ h)))
      · exact setRegFld_canon _ _ _ _ _ _ (setRegFld_canon _ _ _ _ _ _ h)
    · split
      · exact psupTick_canon _ (setRegFld_canon _ _ _ _ _ _ (setRegFld_canon _ _ _ _ _ _ (countReg_canon _ _ _ _ _ _ h)))
      · exact setRegFld_canon _ _ _ _ _ _ (countReg_canon _ _ _ _ _ _ h)
  · split
    · split
      · exact psupTick_canon _ (setRegFld_canon _ _ _ _ _ _ (countReg_canon _ _ _ _ _ _ (setRegFld_canon _ _ _ _ _ _ h)))
      · exact countReg_canon _ _ _ _ _ _ (setRegFld_canon _ _ _ _ _ _ h)
    · split
      · exact psupTick_canon _ (setRegFld_canon _ _ _ _ _ _ (countReg_canon _ _ _ _ _ _ (countReg_canon _ _ _ _ _ _ h)))
      · exact countReg_canon _ _ _ _ _ _ (countReg_canon _ _ _ _ _ _ h)

theorem periodEnd_canon {m : Mach} (h : m.MemCanon) : m.periodEnd.MemCanon := by
  dsimp only [Mach.periodEnd]
  split
  · exact h
  · split
    · split
      · split
        · exact caldera_canon _ _ _ _ (modPair_canon _ (missOn_canon _ (missOn_canon _ (of_parts_canon h rfl rfl))))
        · split
          · exact partnerLost_canon _ (modPair_canon _ (missOn_canon _ (missOn_canon _ (of_parts_canon h rfl rfl))))
          · exact autoJoin_canon (modPair_canon _ (missOn_canon _ (missOn_canon _ (of_parts_canon h rfl rfl))))
      · split
        · exact caldera_canon _ _ _ _ (modPair_canon _ (missOn_canon _ (missOn_canon _ (of_parts_canon h rfl rfl))))
        · split
          · exact partnerLost_canon _ (modPair_canon _ (missOn_canon _ (missOn_canon _ (of_parts_canon h rfl rfl))))
          · exact autoJoin_canon (modPair_canon _ (missOn_canon _ (missOn_canon _ (of_parts_canon h rfl rfl))))
    · split
      · split
        · exact caldera_canon _ _ _ _ (modPair_canon _ (missOn_canon _ (missOn_canon _ (of_parts_canon h rfl rfl))))
        · split
          · exact partnerLost_canon _ (modPair_canon _ (missOn_canon _ (missOn_canon _ (of_parts_canon h rfl rfl))))
          · exact autoJoin_canon (modPair_canon _ (missOn_canon _ (missOn_canon _ (of_parts_canon h rfl rfl))))
      · split
        · exact caldera_canon _ _ _ _ (modPair_canon _ (missOn_canon _ (missOn_canon _ (of_parts_canon h rfl rfl))))
        · split
          · exact partnerLost_canon _ (modPair_canon _ (missOn_canon _ (missOn_canon _ (of_parts_canon h rfl rfl))))
          · exact autoJoin_canon (modPair_canon _ (missOn_canon _ (missOn_canon _ (of_parts_canon h rfl rfl))))

theorem heartbeatSend_canon {m : Mach} (h : m.MemCanon) : m.heartbeatSend.MemCanon := ite_canon h (sendOnLinks_canon h)

theorem sendLeaving_canon {m : Mach} (h : m.MemCanon) : m.sendLeaving.MemCanon := modPair_canon _ (heartbeatSend_canon h)

theorem setRole_canon {m : Mach} (q : Nat) (primary : Bool) (h : m.MemCanon) : (m.setRole q primary).MemCanon :=
  setRegBit_canon _ _ _ _ _ h

theorem settleHeld_canon {m : Mach} (q : Nat) (took : Bool) (h : m.MemCanon) : (m.settleHeld q took).MemCanon := by
  dsimp only [Mach.settleHeld]
  split
  · exact h
  · exact ite_canon (setRole_canon _ _ (freeEntries_canon _ (setQueue_canon _ _ (freeBufs_canon _ _ h)))) (setQueue_canon _ _ h)

theorem resyncQueue_canon {m : Mach} (q : Nat) (h : m.MemCanon) : (m.resyncQueue q).MemCanon :=
  foldl_keeps (P := Mach.MemCanon) _ _ h (fun _ hb _ => epnSend_canon _ hb)

theorem joinWith_canon {m : Mach} (p : JoinInfo) (ml : Bool) (h : m.MemCanon) : (m.joinWith p ml).MemCanon := by
  unfold Mach.joinWith
  extract_lets b m1 m2 pairs m3 own theirs m4 m5
  have h1 : m1.MemCanon := modPair_canon _ (setPairFld_canon _ _ _ (setPairFld_canon _ _ _ (setPairFld_canon _ _ _ h)))
  clear_value m1
  have h2 : m2.MemCanon := heldTick_canon (foldl_keeps (P := Mach.MemCanon) _ _ h1 fun _ hb _ => settleHeld_canon _ _ hb)
  clear_value m2
  have h3 : m3.MemCanon := foldl_keeps (P := Mach.MemCanon) _ _ h2 fun _ hb _ => setQueue_canon _ _ hb
  clear_value m3
  have h4 : m4.MemCanon := setPairFld_canon _ _ _ h3
  clear_value m4
  have h5 : m5.MemCanon := of_parts_canon (m := m4) h4 rfl rfl
  exact foldl_keeps (P := Mach.MemCanon) _ _ h5 fun _ hb _ => ite_canon (resyncQueue_canon _ hb) hb

theorem joinShake_canon {m : Mach} (p : JoinInfo) (h : m.MemCanon) : (m.joinShake p).MemCanon := by
  dsimp only [Mach.joinShake]
  split
  · exact h
  · split
    · exact joinFail_canon _ h
    · split
      · exact joinFail_canon _ h
      · exact ite_canon (joinFail_canon _ h) (joinWith_canon _ _ h)

theorem resyncDone_canon {m : Mach} (h : m.MemCanon) : m.resyncDone.MemCanon := by
  dsimp only [Mach.resyncDone]
  split
  · exact of_parts_canon h rfl rfl
  · split
    · split
      · exact setPair_canon _ _ (of_parts_canon h rfl rfl)
      · exact ite_canon (setPair_canon _ _ (of_parts_canon h rfl rfl)) h
    · exact h

theorem takeQueue_canon {m : Mach} (q : Nat) (h : m.MemCanon) : (m.takeQueue q).MemCanon := setRole_canon _ _ (setQueue_canon _ _ h)

theorem takeover_canon {m : Mach} (h : m.MemCanon) : m.takeover.MemCanon := by
  unfold Mach.takeover
  refine ite_canon h ?_
  extract_lets forced m1 a m2
  have h1 : m1.MemCanon := foldl_keeps (P := Mach.MemCanon) _ _ h fun _ hb _ => ite_canon (takeQueue_canon _ hb) hb
  clear_value m1
  have ha : a.MemCanon := foldl_keeps (P := Mach.MemCanon) _ _ h1 fun _ hb _ => setReg_canon _ _ _ _ hb
  clear_value a
  have h2 : m2.MemCanon := ite_canon (heldTick_canon (of_parts_canon ha rfl rfl)) h1
  exact setPair_canon _ _ h2

theorem dropCopies_canon {m : Mach} (q : Nat) (h : m.MemCanon) : (m.dropCopies q).MemCanon :=
  freeEntries_canon _ (setQueue_canon _ _ (freeBufs_canon _ _ h))

theorem mirrorIn_canon {m : Mach} (q s0 : Nat) (p : MirRec) (first : Bool) (h : m.MemCanon) : (m.mirrorIn q s0 p first).MemCanon := by
  dsimp only [Mach.mirrorIn]
  split
  · split
    · split
      · exact h
      · refine epnSend_canon _ ?_
        refine appendEntry_canon _ _ _ _ _ ?_
        split
        · exact putPayload_canon _ _ _ _ _ (setEngine_canon _ _ (drawn_canon (setQueue_canon _ _ (dropCopies_canon _ h))))
        · exact setQueue_canon _ _ (dropCopies_canon _ h)
    · split
      · exact h
      · refine epnSend_canon _ ?_
        refine appendEntry_canon _ _ _ _ _ ?_
        split
        · exact putPayload_canon _ _ _ _ _ (setEngine_canon _ _ (drawn_canon (setQueue_canon _ _ (dropCopies_canon _ h))))
        · exact setQueue_canon _ _ (dropCopies_canon _ h)
  · split
    · split
      · exact h
      · refine epnSend_canon _ ?_
        refine appendEntry_canon _ _ _ _ _ ?_
        split
        · exact putPayload_canon _ _ _ _ _ (setEngine_canon _ _ (drawn_canon (setQueue_canon _ _ h)))
        · exact setQueue_canon _ _ h
    · split
      · exact h
      · refine epnSend_canon _ ?_
        refine appendEntry_canon _ _ _ _ _ ?_
        split
        · exact putPayload_canon _ _ _ _ _ (setEngine_canon _ _ (drawn_canon (setQueue_canon _ _ h)))
        · exact setQueue_canon _ _ h

theorem markerIn_canon {m : Mach} (q s0 : Nat) (h : m.MemCanon) : (m.markerIn q s0).MemCanon :=
  ite_canon h (epnSend_canon _ (freeEntries_canon _ (setQueue_canon _ _ (freeBufs_canon _ _ h))))

theorem dropIn_canon {m : Mach} (q : Nat) (h : m.MemCanon) : (m.dropIn q).MemCanon :=
  ite_canon h (epnSend_canon _ (setQueue_canon _ _ (dropCopies_canon _ h)))

theorem writeAcked_canon {m : Mach} (stop unit seq : Nat) (refused : Bool) (h : m.MemCanon) :
    (m.writeAcked stop unit seq refused).MemCanon := by
  dsimp only [Mach.writeAcked]
  split
  · exact h
  · split
    · exact setCore_canon _ _ (ite_canon (of_parts_canon h rfl rfl) (of_parts_canon h rfl rfl))
    · exact ite_canon (of_parts_canon h rfl rfl) (of_parts_canon h rfl rfl)

theorem partnerAck_canon {m : Mach} (a : MirAck) (h : m.MemCanon) : (m.partnerAck a).MemCanon := by
  dsimp only [Mach.partnerAck]
  split
  · exact h
  · split
    · split
      · exact ite_canon (countUncore_canon _ _ _ (modRec_canon _ _ _ h)) h
      · exact h
    · split
      · exact ite_canon (countUncore_canon _ _ _ (modRec_canon _ _ _ h)) h
      · exact h
    · exact writeAcked_canon _ _ _ _ h
    · exact dropAcked_canon _ _ _ h
    · exact ite_canon (modPair_canon _ h) h

theorem downgrade_canon {m : Mach} (line : Nat) (h : m.MemCanon) : (m.downgrade line).MemCanon := by
  dsimp only [Mach.downgrade]
  split
  · exact h
  · refine setDir_canon _ _ ?_
    refine setLine_canon _ _ _ ?_
    split
    · exact l3Return_canon _ _ h
    · exact h

theorem mwWrite_canon {m : Mach} (mir : Bool) (h : m.MemCanon) : (m.mwWrite mir).MemCanon := by
  dsimp only [Mach.mwWrite]
  split
  · exact setReg_canon _ _ _ _ h
  · split
    · exact of_parts_canon (m := m.setReg (leStop 0) 1 520 0) (setReg_canon _ _ _ _ h) rfl rfl
    · split
      · exact drawn_canon (of_parts_canon (m := m.setReg (leStop 0) 1 520 0) (setReg_canon _ _ _ _ h) rfl rfl)
      · exact of_parts_canon (foldl_keeps (P := Mach.MemCanon) _ _ (setReg_canon _ _ _ _ h) (fun _ hb _ => downgrade_canon _ hb)) rfl rfl

theorem mwRead_canon {m : Mach} (mir : Bool) (h : m.MemCanon) : (m.mwRead mir).MemCanon :=
  ite_canon (setReg_canon _ _ _ _ h) (foldl_keeps (P := Mach.MemCanon) _ _ (setReg_canon _ _ _ _ h) (fun _ hb _ => setReg_canon _ _ _ _ hb))

theorem forwardIn_canon {m : Mach} (l line mask : Nat) (data : List W64) (poison : Nat) (h : m.MemCanon) :
    (m.forwardIn l line mask data poison).MemCanon := by
  dsimp only [Mach.forwardIn]
  split
  · exact h
  · exact epnSend_canon _ (ite_canon (homeBytes_canon _ _ _ _ _ _ _ h) h)

theorem roleWrite_canon {m : Mach} (e n : Nat) (v : W64) (h : m.MemCanon) : (m.roleWrite e n v).MemCanon :=
  ite_canon (pairIgn_canon h) (setReg_canon _ _ _ _ h)

theorem pairJoin_canon {m : Mach} (h : m.MemCanon) : m.pairJoin.MemCanon := ite_canon (joinBegin_canon h) (pairIgn_canon h)

theorem pairFence_canon {m : Mach} (h : m.MemCanon) : m.pairFence.MemCanon :=
  ite_canon (setPair_canon _ _ (epnSend_canon _ h)) (pairIgn_canon h)

theorem raiseBegin_canon {m : Mach} (h : m.MemCanon) : m.raiseBegin.MemCanon := modPair_canon _ h

theorem pairRaise_canon {m : Mach} (h : m.MemCanon) : m.pairRaise.MemCanon :=
  ite_canon (raiseTick_canon (epnSend_canon _ (raiseBegin_canon h))) (pairIgn_canon h)

theorem pairTakeover_canon {m : Mach} (key : Nat) (h : m.MemCanon) : (m.pairTakeover key).MemCanon :=
  ite_canon (takeoverBegin_canon _ _ h) (pairIgn_canon h)

theorem pairCtrl_canon {m : Mach} (v : W64) (h : m.MemCanon) : (m.pairCtrl v).MemCanon := by
  dsimp only [Mach.pairCtrl]
  split
  · exact h
  · split
    · exact pairJoin_canon h
    · split
      · exact pairFence_canon h
      · split
        · exact pairRaise_canon h
        · exact ite_canon (pairTakeover_canon _ h) (pairIgn_canon h)

theorem epnisIn_canon {m : Mach} (l num corr : Nat) (bad : Bool) (ack nak : Option Nat) (b : EpBody) (h : m.MemCanon) :
    (m.epnisIn l num corr bad ack nak b).MemCanon := by
  dsimp only [Mach.epnisIn]
  split
  · exact h
  · split
    · exact countReg_canon _ _ _ _ _ _ h
    · split
      · split
        · split
          · exact modPair_canon _ (countReg_canon _ _ _ _ _ _ h)
          · exact countReg_canon _ _ _ _ _ _ h
        · split
          · refine modPair_canon _ ?_
            split
            · exact modPair_canon _ (countReg_canon _ _ _ _ _ _ h)
            · exact countReg_canon _ _ _ _ _ _ h
          · refine heardOn_canon _ _ ?_
            refine modPair_canon _ ?_
            split
            · exact modPair_canon _ (countReg_canon _ _ _ _ _ _ h)
            · exact countReg_canon _ _ _ _ _ _ h
          · split
            · exact ite_canon (setPair_canon _ _ (modPair_canon _ (modPair_canon _ (countReg_canon _ _ _ _ _ _ h))))
                (modPair_canon _ (modPair_canon _ (countReg_canon _ _ _ _ _ _ h)))
            · exact ite_canon (setPair_canon _ _ (modPair_canon _ (countReg_canon _ _ _ _ _ _ h)))
                (modPair_canon _ (countReg_canon _ _ _ _ _ _ h))
          · split
            · split
              · exact raiseTick_canon (raiseBegin_canon (modPair_canon _ (modPair_canon _ (countReg_canon _ _ _ _ _ _ h))))
              · exact modPair_canon _ (modPair_canon _ (countReg_canon _ _ _ _ _ _ h))
            · exact ite_canon (raiseTick_canon (raiseBegin_canon (modPair_canon _ (countReg_canon _ _ _ _ _ _ h))))
                (modPair_canon _ (countReg_canon _ _ _ _ _ _ h))
      · split
        · split
          · split
            · exact modPair_canon _ (countReg_canon _ _ _ _ _ _ h)
            · split
              · exact linkLost_canon _ (modPair_canon _ (countReg_canon _ _ _ _ _ _ h))
              · exact modPair_canon _ (countReg_canon _ _ _ _ _ _ (modPair_canon _ (countReg_canon _ _ _ _ _ _ h)))
          · split
            · exact countReg_canon _ _ _ _ _ _ h
            · exact ite_canon (linkLost_canon _ (countReg_canon _ _ _ _ _ _ h))
                (modPair_canon _ (countReg_canon _ _ _ _ _ _ (countReg_canon _ _ _ _ _ _ h)))
        · split
          · split
            · split
              · exact modPair_canon _ (modPair_canon _ (countReg_canon _ _ _ _ _ _ h))
              · split
                · exact linkLost_canon _ (modPair_canon _ (modPair_canon _ (countReg_canon _ _ _ _ _ _ h)))
                · exact modPair_canon _ (countReg_canon _ _ _ _ _ _ (modPair_canon _ (modPair_canon _ (countReg_canon _ _ _ _ _ _ h))))
            · split
              · exact modPair_canon _ (countReg_canon _ _ _ _ _ _ h)
              · split
                · exact linkLost_canon _ (modPair_canon _ (countReg_canon _ _ _ _ _ _ h))
                · exact modPair_canon _ (countReg_canon _ _ _ _ _ _ (modPair_canon _ (countReg_canon _ _ _ _ _ _ h)))
          · split
            · split
              · next he =>
                  exact heardOn_canon _ _ (modPair_canon _ (modPair_canon _ (countReg_canon _ _ _ _ _ _ h)))
              · split
                · exact linkLost_canon _ (heardOn_canon _ _ (modPair_canon _ (modPair_canon _ (countReg_canon _ _ _ _ _ _ h))))
                · exact modPair_canon _ (countReg_canon _ _ _ _ _ _
                    (heardOn_canon _ _ (modPair_canon _ (modPair_canon _ (countReg_canon _ _ _ _ _ _ h)))))
            · split
              · next he =>
                  exact heardOn_canon _ _ (modPair_canon _ (countReg_canon _ _ _ _ _ _ h))
              · split
                · exact linkLost_canon _ (heardOn_canon _ _ (modPair_canon _ (countReg_canon _ _ _ _ _ _ h)))
                · exact modPair_canon _ (countReg_canon _ _ _ _ _ _ (heardOn_canon _ _ (modPair_canon _ (countReg_canon _ _ _ _ _ _ h))))
          · split
            · split
              · split
                · exact setPair_canon _ _ (modPair_canon _ (modPair_canon _ (countReg_canon _ _ _ _ _ _ h)))
                · split
                  · exact linkLost_canon _ (setPair_canon _ _ (modPair_canon _ (modPair_canon _ (countReg_canon _ _ _ _ _ _ h))))
                  · exact modPair_canon _ (countReg_canon _ _ _ _ _ _
                      (setPair_canon _ _ (modPair_canon _ (modPair_canon _ (countReg_canon _ _ _ _ _ _ h)))))
              · split
                · exact modPair_canon _ (modPair_canon _ (countReg_canon _ _ _ _ _ _ h))
                · split
                  · exact linkLost_canon _ (modPair_canon _ (modPair_canon _ (countReg_canon _ _ _ _ _ _ h)))
                  · exact modPair_canon _ (countReg_canon _ _ _ _ _ _ (modPair_canon _ (modPair_canon _ (countReg_canon _ _ _ _ _ _ h))))
            · split
              · split
                · exact setPair_canon _ _ (modPair_canon _ (countReg_canon _ _ _ _ _ _ h))
                · split
                  · exact linkLost_canon _ (setPair_canon _ _ (modPair_canon _ (countReg_canon _ _ _ _ _ _ h)))
                  · exact modPair_canon _ (countReg_canon _ _ _ _ _ _ (setPair_canon _ _ (modPair_canon _ (countReg_canon _ _ _ _ _ _ h))))
              · split
                · exact modPair_canon _ (countReg_canon _ _ _ _ _ _ h)
                · split
                  · exact linkLost_canon _ (modPair_canon _ (countReg_canon _ _ _ _ _ _ h))
                  · exact modPair_canon _ (countReg_canon _ _ _ _ _ _ (modPair_canon _ (countReg_canon _ _ _ _ _ _ h)))
          · split
            · split
              · split
                · exact raiseTick_canon (raiseBegin_canon (modPair_canon _ (modPair_canon _ (countReg_canon _ _ _ _ _ _ h))))
                · split
                  · exact linkLost_canon _ (raiseTick_canon (raiseBegin_canon
                      (modPair_canon _ (modPair_canon _ (countReg_canon _ _ _ _ _ _ h)))))
                  · exact modPair_canon _ (countReg_canon _ _ _ _ _ _
                      (raiseTick_canon (raiseBegin_canon (modPair_canon _ (modPair_canon _ (countReg_canon _ _ _ _ _ _ h))))))
              · split
                · exact modPair_canon _ (modPair_canon _ (countReg_canon _ _ _ _ _ _ h))
                · split
                  · exact linkLost_canon _ (modPair_canon _ (modPair_canon _ (countReg_canon _ _ _ _ _ _ h)))
                  · exact modPair_canon _ (countReg_canon _ _ _ _ _ _ (modPair_canon _ (modPair_canon _ (countReg_canon _ _ _ _ _ _ h))))
            · split
              · split
                · exact raiseTick_canon (raiseBegin_canon (modPair_canon _ (countReg_canon _ _ _ _ _ _ h)))
                · split
                  · exact linkLost_canon _ (raiseTick_canon (raiseBegin_canon (modPair_canon _ (countReg_canon _ _ _ _ _ _ h))))
                  · exact modPair_canon _ (countReg_canon _ _ _ _ _ _
                      (raiseTick_canon (raiseBegin_canon (modPair_canon _ (countReg_canon _ _ _ _ _ _ h)))))
              · split
                · exact modPair_canon _ (countReg_canon _ _ _ _ _ _ h)
                · split
                  · exact linkLost_canon _ (modPair_canon _ (countReg_canon _ _ _ _ _ _ h))
                  · exact modPair_canon _ (countReg_canon _ _ _ _ _ _ (modPair_canon _ (countReg_canon _ _ _ _ _ _ h)))

/-! ### Canonical memory: resets of blocks -/

theorem handOver_canon {m : Mach} (px n : Nat) (h : m.MemCanon) : (m.handOver px n).MemCanon := by
  induction n generalizing m with
  | zero => exact h
  | succ n ih =>
    dsimp only [Mach.handOver]
    split
    · exact h
    · exact ite_canon (ih (refuseFrame_canon _ _ (of_parts_canon h rfl rfl))) (ih (recordAdmit_canon _ h))

theorem emptyPort_canon {m : Mach} (q : Nat) (h : m.MemCanon) : (m.emptyPort q).MemCanon := by
  dsimp only [Mach.emptyPort]
  refine foldl_keeps (P := Mach.MemCanon) _ _ ?_ fun _ hb1 _ => ?_
  · split
    · exact outDone_canon _ h
    · exact h
  · exact foldl_keeps (P := Mach.MemCanon) _ _ hb1 (fun _ hb _ => outDone_canon _ hb)

theorem restartPort_canon {m : Mach} (q : Nat) (h : m.MemCanon) : (m.restartPort q).MemCanon :=
  setReg_canon _ _ _ _ (setReg_canon _ _ _ _ (setReg_canon _ _ _ _ (setReg_canon _ _ _ _ (relock_canon _ h))))

theorem clearFum_canon {m : Mach} (px : Nat) (h : m.MemCanon) : (m.clearFum px).MemCanon :=
  foldl_keeps (P := Mach.MemCanon) _ _ h (fun _ hb _ => setReg_canon _ _ _ _ (setReg_canon _ _ _ _ (setReg_canon _ _ _ _ hb)))

theorem pxReset_canon {m : Mach} (px : Nat) (h : m.MemCanon) : (m.pxReset px).MemCanon := by
  unfold Mach.pxReset
  extract_lets st ports m1 m2 src m3 m4 m5
  have h1 : m1.MemCanon := handOver_canon _ _ h
  clear_value m1
  have h2 : m2.MemCanon := foldl_keeps (P := Mach.MemCanon) _ _ h1 fun _ hb _ => emptyPort_canon _ hb
  clear_value m2
  have h3 : m3.MemCanon := of_parts_canon (m := m2.openShadow st) (openShadow_canon _ h2) rfl rfl
  clear_value m3
  have h4 : m4.MemCanon := foldl_keeps (P := Mach.MemCanon) _ _ h3 fun _ hb _ => restartPort_canon _ hb
  clear_value m4
  have h5 : m5.MemCanon := foldl_keeps (P := Mach.MemCanon) _ _ h4 fun _ hb _ => resetWindow_canon _ _ hb
  exact clearBank_canon _ (clearFum_canon _ h5)

theorem leReset_canon {m : Mach} (e : Nat) (h : m.MemCanon) : (m.leReset e).MemCanon := ledgerReset_canon _ (linkLost_canon _ h)

/-! ### Canonical memory: device requests and root ports -/

theorem setHio_canon {m : Mach} (h : Nat) (x : HioRt) (h1 : m.MemCanon) : (m.setHio h x).MemCanon := of_parts_canon h1 rfl rfl

theorem dmaList_canon {m : Mach} (h rid : Nat) (ws : List Word) (h1 : m.MemCanon) : (m.dmaList h rid ws).2.MemCanon := by
  dsimp only [Mach.dmaList]
  split
  · exact h1
  · exact setHio_canon _ _ h1

theorem dmaWalk_canon {m : Mach} (g : Regime) (nd : Need) (l : List (Nat × Nat)) (h : m.MemCanon) :
    SomeAll (fun r => r.2.MemCanon) (m.dmaWalk g nd l) := by
  induction l generalizing m with
  | nil => exact h
  | cons p t ih =>
    unfold Mach.dmaWalk
    split
    · exact trivial
    · extract_lets m1
      have h1 : m1.MemCanon := by
        unfold m1
        split
        · exact setByte_canon _ _ (ownAtHome_canon _ h)
        · exact h
      split
      · exact trivial
      · next he => exact SomeAll.elim he (ih h1) id

theorem dmaCount_canon {m : Mach} (h : Nat) (q : DmaReq) (wd : World) (h1 : m.MemCanon) : (m.dmaCount h q wd).MemCanon :=
  countUncore_canon _ _ _ h1

theorem dmaRefuse_canon {m : Mach} (h : Nat) (q : DmaReq) (wd : World) (rule : Rule) (h1 : m.MemCanon) :
    (m.dmaRefuse h q wd rule).MemCanon :=
  dmaCount_canon _ _ _ (logViol_canon _ _ _ h1)

theorem dmaHalt_canon {m : Mach} (h : Nat) (q : DmaReq) (pa : Nat) (poison : Bool) (h1 : m.MemCanon) :
    (m.dmaHalt h q pa poison).MemCanon := by
  dsimp only [Mach.dmaHalt]
  split
  · exact h1
  · refine raiseSrc_canon _ _ _ _ _ _ ?_
    split
    · exact setHio_canon _ _ h1
    · exact countReg_canon _ _ _ _ _ _ (setHio_canon _ _ h1)

theorem devWrite_canon {m : Mach} (st unit : Nat) (wd : World) (a : Nat) (data : List (BitVec 8)) (ep : Bool) (h : m.MemCanon) :
    (m.devWrite st unit wd a data ep).MemCanon := by
  dsimp only [Mach.devWrite]
  refine foldl_keeps (P := Mach.MemCanon) _ _ h fun _ hb1 _ => ?_
  split
  · exact homeBytes_canon _ _ _ _ _ _ _ hb1
  · refine countMesh_canon _ _ _ _ ?_
    refine foldl_keeps (P := Mach.MemCanon) _ _ (ite_canon (openLine_canon _ hb1) hb1) fun _ hb2 _ => ?_
    exact ite_canon hb2 (stored_canon _ (mergeWord_canon _ _ _ _ hb2))

theorem devRead_canon {m : Mach} (h : Nat) (q : DmaReq) (wd : World) (p : Nat × Nat) (h1 : m.MemCanon) : (m.devRead h q wd p).MemCanon := by
  dsimp only [Mach.devRead]
  split
  · exact dmaHalt_canon _ _ _ _ (foldl_keeps (P := Mach.MemCanon) _ _ (readUpsets_canon _ _ _ _ h1)
      (fun _ hb _ => countMesh_canon _ _ _ _ hb))
  · exact dmaHalt_canon _ _ _ _ (foldl_keeps (P := Mach.MemCanon) _ _ (readUpsets_canon _ _ _ _ h1)
      (fun _ hb _ => countMesh_canon _ _ _ _ hb))
  · exact foldl_keeps (P := Mach.MemCanon) _ _ (readUpsets_canon _ _ _ _ h1) (fun _ hb _ => countMesh_canon _ _ _ _ hb)

theorem dmaGo_canon {m : Mach} (h : Nat) (q : DmaReq) (wd : World) (ps : List (Nat × Nat)) (h1 : m.MemCanon) :
    (m.dmaGo h q wd ps).MemCanon := by
  dsimp only [Mach.dmaGo]
  split
  · exact dmaCount_canon _ _ _ (countReg_canon _ _ _ _ _ _ (logViol_canon _ _ _ h1))
  · refine ite_canon (dmaRefuse_canon _ _ _ _ h1) ?_
    split
    · exact logViol_canon _ _ _ h1
    · refine ite_canon ?_ (foldl_keeps (P := Mach.MemCanon) _ _ (countUncore_canon _ _ _ h1) fun _ hb _ => devRead_canon _ _ _ _ hb)
      exact foldl_keeps (P := fun (p : Mach × List (BitVec 8)) => p.1.MemCanon) _ _ (countUncore_canon _ _ _ h1) fun _ hb _ =>
        devWrite_canon _ _ _ _ _ _ hb

theorem msi_canon {m : Mach} (h : Nat) (q : DmaReq) (h1 : m.MemCanon) : (m.msi h q).MemCanon :=
  ite_canon (raiseAssigned_canon _ h1) (countReg_canon _ _ _ _ _ _ h1)

theorem dmaRequest_canon {m : Mach} (h : Nat) (q : DmaReq) (h1 : m.MemCanon) : (m.dmaRequest h q).MemCanon := by
  dsimp only [Mach.dmaRequest]
  split
  · exact h1
  · split
    · exact dmaCount_canon _ _ _ h1
    · split
      · exact msi_canon _ _ h1
      · split
        · exact dmaRefuse_canon _ _ _ _ h1
        · split
          · exact dmaRefuse_canon _ _ _ _ (dmaList_canon _ _ _ h1)
          · next _ _ he =>
              split
              · exact dmaRefuse_canon _ _ _ _ (dmaList_canon _ _ _ h1)
              · split
                · exact dmaRefuse_canon _ _ _ _ (dmaList_canon _ _ _ h1)
                · next _ _ t he1 =>
                    have hke1 : t.MemCanon := SomeAll.elim he1 (dmaWalk_canon _ _ _ (dmaList_canon _ _ _ h1)) id
                    exact dmaGo_canon _ _ _ _ hke1

theorem dmatInv_canon {m : Mach} (h : Nat) (v : W64) (h1 : m.MemCanon) : (m.dmatInv h v).MemCanon := setHio_canon _ _ h1

theorem dmatResume_canon {m : Mach} (h rid : Nat) (h1 : m.MemCanon) : (m.dmatResume h rid).MemCanon := ite_canon h1 (setHio_canon _ _ h1)

theorem hinfoWrite_canon {m : Mach} (h : Nat) (v : W64) (h1 : m.MemCanon) : (m.hinfoWrite h v).MemCanon :=
  ite_canon (setHio_canon _ _ h1) h1

theorem rpFinish_canon {m : Mach} (c : Nat) (v : W64) (poison : Bool) (h : m.MemCanon) : (m.rpFinish c v poison).MemCanon := by
  dsimp only [Mach.rpFinish]
  split
  · exact h
  · refine finish_canon _ _ _ h ?_
    refine Res.ok_canon ?_
    split
    · exact setG_canon _ _ _ (setCore_canon _ _ h)
    · exact setCore_canon _ _ h

theorem rpLost_canon {m : Mach} (c : Nat) (h : m.MemCanon) : (m.rpLost c).MemCanon := by
  dsimp only [Mach.rpLost]
  split
  · exact ite_canon (rpFinish_canon _ _ _ h) (rpFinish_canon _ _ _ (countReg_canon _ _ _ _ _ _ h))
  · exact h

theorem cfgAnswer_canon {m : Mach} (q : CfgReq) (data : Nat) (h : m.MemCanon) : (m.cfgAnswer q data).MemCanon := by
  dsimp only [Mach.cfgAnswer]
  split
  · split
    · exact rpFinish_canon _ _ _ (of_parts_canon h rfl rfl)
    · exact ite_canon (of_parts_canon h rfl rfl) (setReg_canon _ _ _ _ (of_parts_canon h rfl rfl))
  · exact ite_canon (of_parts_canon h rfl rfl) (setReg_canon _ _ _ _ (of_parts_canon h rfl rfl))

theorem cfgIssue_canon {m : Mach} (mst : Master) (r : Nat) (write : Bool) (data : Nat) (h : m.MemCanon) :
    (m.cfgIssue mst r write data).2.MemCanon := by
  dsimp only [Mach.cfgIssue]
  split
  · exact ite_canon h (setReg_canon _ _ _ _ h)
  · exact of_parts_canon h rfl rfl

theorem rpComplete_canon {m : Mach} (r : Nat) (a : RpAnswer) (h : m.MemCanon) : (m.rpComplete r a).MemCanon := by
  dsimp only [Mach.rpComplete]
  split
  · split
    · exact h
    · exact ite_canon h (cfgAnswer_canon _ _ h)
  · exact ite_canon (rpFinish_canon _ _ _ h) h
  · exact ite_canon (rpLost_canon _ h) h

theorem rpDrop_canon {m : Mach} (r : Nat) (h : m.MemCanon) : (m.rpDrop r).MemCanon :=
  foldl_keeps (P := Mach.MemCanon) _ _ (foldl_keeps (P := Mach.MemCanon) _ _ h (fun _ hb _ => cfgAnswer_canon _ _ hb))
    (fun _ hb _ => ite_canon (rpLost_canon _ hb) hb)

theorem rpLink_canon {m : Mach} (r : Nat) (t : Option RpTrain) (h : m.MemCanon) : (m.rpLink r t).MemCanon := by
  dsimp only [Mach.rpLink]
  split
  · exact h
  · split
    · exact ite_canon h (raiseSrc_canon _ _ _ _ _ _ (setReg_canon _ _ _ _ h))
    · exact ite_canon h (raiseSrc_canon _ _ _ _ _ _ (rpDrop_canon _ (setReg_canon _ _ _ _ h)))

theorem hioLinksDown_canon {m : Mach} (h : Nat) (h1 : m.MemCanon) : (m.hioLinksDown h).MemCanon :=
  foldl_keeps (P := Mach.MemCanon) _ _ h1 (fun _ hb _ => rpLink_canon _ _ hb)

theorem hioReset_canon {m : Mach} (h : Nat) (h1 : m.MemCanon) : (m.hioReset h).MemCanon :=
  clearBank_canon _ (foldl_keeps (P := Mach.MemCanon) _ _ (setHio_canon _ _ (openShadow_canon _ (hioLinksDown_canon _ h1)))
    (fun _ hb _ => resetWindow_canon _ _ hb))

/-! ### Canonical memory: power, clocks and device time -/

theorem loseRegs_canon {m : Mach} (d : Nat) (h : m.MemCanon) : (m.loseRegs d).MemCanon := of_parts_canon h rfl rfl

theorem ledgerLost_canon {m : Mach} (e : Nat) (h : m.MemCanon) : (m.ledgerLost e).MemCanon :=
  freeEntries_canon _ (setEngine_canon _ _ (of_parts_canon (revokeAll_canon _ h) rfl rfl))

theorem losePx_canon {m : Mach} (px : Nat) (h : m.MemCanon) : (m.losePx px).MemCanon := by
  unfold Mach.losePx
  extract_lets ports m1
  have h1 : m1.MemCanon := foldl_keeps (P := Mach.MemCanon) _ _ (of_parts_canon h rfl rfl) fun _ hb _ => emptyPort_canon _ hb
  clear_value m1
  exact of_parts_canon h1 rfl rfl

theorem loseDomain_canon {m : Mach} (d : Nat) (sudden : Bool) (known : List (Nat × List W64)) (h : m.MemCanon) :
    (m.loseDomain d sudden known).MemCanon := by
  unfold Mach.loseDomain
  extract_lets k src m1
  have h6 : Mach.MemCanon { src with slots := [], slotNext := 0 } := by
    have hs : src.MemCanon := mntReset_canon h
    clear_value src
    exact of_parts_canon hs rfl rfl
  have h3 : ((if sudden then m.openShadow (domStop d) else m.pxReset (d - 40))).MemCanon :=
    ite_canon (openShadow_canon _ h) (pxReset_canon _ h)
  have h1 : m1.MemCanon := by
    refine ite_canon (ite_canon (podReset_canon _ _ h) (podReset_canon _ _ h))
      (ite_canon ?_ (ite_canon (losePx_canon _ h3) (ite_canon ?_ (ite_canon ?_ h6))))
    · exact loseCm_canon _ (ringLoss_canon _ (ite_canon (ccReset_canon _ _ h) (ccReset_canon _ _ h)))
    · exact setHio_canon _ _ (hioReset_canon _ h)
    · exact ite_canon (ledgerLost_canon _ (linkLost_canon _ (openShadow_canon _ h))) (leReset_canon _ h)
  exact loseRegs_canon _ h1

theorem setDom_canon {m : Mach} (d s : Nat) (h : m.MemCanon) : (m.setDom d s).MemCanon := setRegFld_canon _ _ _ _ _ _ h

theorem domCores_canon {m : Mach} (d : Nat) (h : m.MemCanon) : (m.domCores d).MemCanon :=
  foldl_keeps (P := Mach.MemCanon) _ _ h (fun _ hb _ => resetCore_canon _ hb)

theorem domOff_canon {m : Mach} (d s : Nat) (sudden : Bool) (known : List (Nat × List W64)) (h : m.MemCanon) :
    (m.domOff d s sudden known).MemCanon :=
  domCores_canon _ (setDom_canon _ _ (loseDomain_canon _ _ _ h))

theorem domOn_canon {m : Mach} (d : Nat) (h : m.MemCanon) : (m.domOn d).MemCanon :=
  domCores_canon _ (setDom_canon _ _ (openShadow_canon _ h))

theorem pmAnswer_canon {m : Mach} (status : Nat) (h : m.MemCanon) : (m.pmAnswer status).MemCanon := setReg_canon _ _ _ _ h

theorem pmRequest_canon {m : Mach} (mst : Master) (op dom mhz : Nat) (h : m.MemCanon) : (m.pmRequest mst op dom mhz).MemCanon := by
  unfold Mach.pmRequest
  extract_lets q src s1 m1 m2 src1 src2
  have h1 : m1.MemCanon := of_parts_canon (m := src) (pmAnswer_canon _ h) rfl rfl
  have h2 : m2.MemCanon := setRegBit_canon _ _ _ _ _ h1
  refine ite_canon (pmAnswer_canon _ h) (ite_canon (ite_canon h2 ?_) (ite_canon (pmAnswer_canon _ h) ?_))
  · exact of_parts_canon (m := src1) (raiseEvent_canon _ h2) rfl rfl
  · exact of_parts_canon (m := src2) (pmAnswer_canon _ h) rfl rfl

theorem releaseDeferred_canon {m : Mach} (go : Nat → Bool) (h : m.MemCanon) : (m.releaseDeferred go).MemCanon :=
  foldl_keeps (P := Mach.MemCanon) _ _ (of_parts_canon h rfl rfl) (fun _ hb _ => setRegBit_canon _ _ _ _ _ hb)

theorem pmDone_canon {m : Mach} (q : PmReq) (result : Nat) (h : m.MemCanon) : (m.pmDone q result).MemCanon :=
  ite_canon (raiseAssigned_canon _ (setReg_canon _ _ _ _ (of_parts_canon h rfl rfl))) (setReg_canon _ _ _ _ (of_parts_canon h rfl rfl))

theorem pmExecute_canon {m : Mach} (d : Nat) (known : List (Nat × List W64)) (h : m.MemCanon) : (m.pmExecute d known).MemCanon := by
  dsimp only [Mach.pmExecute]
  split
  · exact h
  · split
    · exact h
    · split
      · exact pmDone_canon _ _ (setRegFld_canon _ _ _ _ _ _ h)
      · split
        · exact pmDone_canon _ _ (ite_canon h (domOn_canon _ h))
        · split
          · exact ite_canon (pmDone_canon _ _ h) (pmDone_canon _ _ (domOff_canon _ _ _ _ h))
          · exact pmDone_canon _ _ h

theorem supplyFails_canon {m : Mach} (d : Nat) (known : List (Nat × List W64)) (h : m.MemCanon) : (m.supplyFails d known).MemCanon := by
  dsimp only [Mach.supplyFails]
  split
  · exact h
  · split
    · exact raiseOwn_canon _ _ _ (domOff_canon _ _ _ _ h)
    · split
      · exact ite_canon (raiseOwn_canon _ _ _ (pmDone_canon _ _ (setDom_canon _ _ h))) h
      · exact h

theorem freqChange_canon {m : Mach} (p : Nat) (h : m.MemCanon) : (m.freqChange p).MemCanon := ite_canon h (setReg_canon _ _ _ _ h)

theorem capTick_canon {m : Mach} (mw : Nat) (h : m.MemCanon) : (m.capTick mw).MemCanon :=
  ite_canon h (setRegBit_canon _ _ _ _ _ (setReg_canon _ _ _ _ (of_parts_canon h rfl rfl)))

theorem plimit_canon {m : Mach} (w : Nat) (h : m.MemCanon) : (m.plimit w).MemCanon := by
  dsimp only [Mach.plimit]
  exact ite_canon (of_parts_canon (m := m.setRegFld 0 1 64 0 10 w) (setRegFld_canon _ _ _ _ _ _ h) rfl rfl) (setRegBit_canon _ _ _ _ _ h)

theorem thermSample_canon {m : Mach} (ts : List (Nat × Int)) (h : m.MemCanon) : (m.thermSample ts).MemCanon := by
  dsimp only [Mach.thermSample]
  split
  · exact raiseOwn_canon _ _ _ (ite_canon (raiseEvent_canon _ (setReg_canon _ _ _ _ (of_parts_canon h rfl rfl)))
      (setReg_canon _ _ _ _ (of_parts_canon h rfl rfl)))
  · exact ite_canon (raiseEvent_canon _ (setReg_canon _ _ _ _ (of_parts_canon h rfl rfl))) (setReg_canon _ _ _ _ (of_parts_canon h rfl rfl))

theorem trip_canon {m : Mach} (h : m.MemCanon) : m.trip.MemCanon := raiseOwn_canon _ _ _ (setRegBit_canon _ _ _ _ _ h)

theorem regulatorsOff_canon {m : Mach} (h : m.MemCanon) : m.regulatorsOff.MemCanon := ite_canon (of_parts_canon h rfl rfl) h

theorem keepIntervals_canon {m : Mach} (old new : Nat) (h : m.MemCanon) : (m.keepIntervals old new).MemCanon := of_parts_canon h rfl rfl

theorem dtChange_canon {m : Mach} (t : Nat) (h : m.MemCanon) : (m.dtChange t).MemCanon := by
  dsimp only [Mach.dtChange]
  exact roundsStart_canon (of_parts_canon (m := m.keepIntervals m.dt (t % 2 ^ 64)) (keepIntervals_canon _ _ h) rfl rfl)

theorem gptpServed_canon {m : Mach} (h : m.MemCanon) : m.gptpServed.MemCanon := ite_canon (setRegBit_canon _ _ _ _ _ h) h

theorem dtStep_canon {m : Mach} (v : W64) (h : m.MemCanon) : (m.dtStep v).MemCanon := gptpServed_canon (dtChange_canon _ h)

theorem dtSet_canon {m : Mach} (v : W64) (h : m.MemCanon) : (m.dtSet v).MemCanon := gptpServed_canon (dtChange_canon _ h)

theorem dtRateWrite_canon {m : Mach} (v : W64) (h : m.MemCanon) : (m.dtRateWrite v).MemCanon :=
  ite_canon (setRegBit_canon _ _ _ _ _ h) (gptpServed_canon (setReg_canon _ _ _ _ h))

theorem ppsEdge_canon {m : Mach} (t : Nat) (h : m.MemCanon) : (m.ppsEdge t).MemCanon := by
  dsimp only [Mach.ppsEdge]
  split
  · exact of_parts_canon h rfl rfl
  · split
    · split
      · exact countReg_canon _ _ _ _ _ _ (of_parts_canon h rfl rfl)
      · split
        · exact dtChange_canon _ (setReg_canon _ _ _ _ (setReg_canon _ _ _ _ (of_parts_canon h rfl rfl)))
        · exact setReg_canon _ _ _ _ (setReg_canon _ _ _ _ (setReg_canon _ _ _ _ (of_parts_canon h rfl rfl)))
    · split
      · exact countReg_canon _ _ _ _ _ _ (of_parts_canon h rfl rfl)
      · split
        · exact dtChange_canon _ (setReg_canon _ _ _ _ (setReg_canon _ _ _ _ (of_parts_canon h rfl rfl)))
        · exact setReg_canon _ _ _ _ (setReg_canon _ _ _ _ (setReg_canon _ _ _ _ (of_parts_canon h rfl rfl)))

theorem holdover_canon {m : Mach} (h : m.MemCanon) : m.holdover.MemCanon :=
  ite_canon h (raiseOwn_canon _ _ _ (setRegBit_canon _ _ _ _ _ (setRegBit_canon _ _ _ _ _ (of_parts_canon h rfl rfl))))

theorem wholeSecond_canon {m : Mach} (h : m.MemCanon) : m.wholeSecond.MemCanon := by
  unfold Mach.wholeSecond
  extract_lets t m1
  have h1 : m1.MemCanon := raiseEvent_canon _ (of_parts_canon (m := m) h rfl rfl)
  clear_value m1
  exact ite_canon (of_parts_canon (m := m1) h1 rfl rfl) h1

theorem pulseEnd_canon {m : Mach} (h : m.MemCanon) : m.pulseEnd.MemCanon := by
  dsimp only [Mach.pulseEnd]
  split
  · exact h
  · exact of_parts_canon h rfl rfl

theorem dtCfgWrite_canon {m : Mach} (v : W64) (h : m.MemCanon) : (m.dtCfgWrite v).MemCanon := by
  unfold Mach.dtCfgWrite
  extract_lets old src w w1 w2 w3 m1
  have h1 : m1.MemCanon := setReg_canon _ _ _ _ h
  clear_value m1
  exact ite_canon h1 (of_parts_canon (m := (m1.setRegBit 0 4 0x48 1 false).setRegBit 0 4 0x48 0 false)
    (setRegBit_canon _ _ _ _ _ (setRegBit_canon _ _ _ _ _ h1)) rfl rfl)

/-! ### Canonical memory: the fault collector -/

theorem countOcc_canon {m : Mach} (o : Occ) (h : m.MemCanon) : (m.countOcc o).MemCanon := countReg_canon _ _ _ _ _ _ (setFc_canon _ _ h)

theorem capture_canon {m : Mach} (o : Occ) (react : Nat) (h : m.MemCanon) : (m.capture o react).MemCanon :=
  setReg_canon _ _ _ _ (setReg_canon _ _ _ _ (setReg_canon _ _ _ _ (setReg_canon _ _ _ _ h)))

theorem markAlso_canon {m : Mach} (o : Occ) (h : m.MemCanon) : (m.markAlso o).MemCanon := setReg_canon _ _ _ _ (setFc_canon _ _ h)

theorem recordCycle_canon {m : Mach} (os : List Occ) (react : Nat) (h : m.MemCanon) : (m.recordCycle os react).MemCanon := by
  dsimp only [Mach.recordCycle]
  split
  · exact h
  · split
    · exact foldl_keeps (P := Mach.MemCanon) _ _ h (fun _ hb _ => markAlso_canon _ hb)
    · exact foldl_keeps (P := Mach.MemCanon) _ _ (capture_canon _ _ h) (fun _ hb _ => markAlso_canon _ hb)

theorem blockReset_canon {m : Mach} (st : Nat) (known : List (Nat × List W64)) (h : m.MemCanon) : (m.blockReset st known).MemCanon := by
  dsimp only [Mach.blockReset]
  split
  · split
    · exact h
    · split
      · exact podReset_canon _ _ h
      · exact ccReset_canon _ _ h
      · exact pxReset_canon _ h
      · exact leReset_canon _ h
      · exact hioReset_canon _ h
      · exact mntReset_canon h
      · exact h
  · split
    · exact ite_canon (podReset_canon _ _ h) h
    · exact h

theorem react_canon {m : Mach} (os : List Occ) (react : Nat) (known : List (Nat × List W64)) (h : m.MemCanon) :
    (m.react os react known).MemCanon := by
  unfold Mach.react
  split
  · split
    · exact caldera_canon _ _ _ _ h
    · exact h
  · extract_lets m1 m2 stops m3
    have h1 : m1.MemCanon := foldl_keeps (P := Mach.MemCanon) _ _ h fun _ hb _ => ite_canon (raiseEvent_canon _ hb) hb
    clear_value m1
    have h2 : m2.MemCanon := ite_canon (nmiAll_canon h1) h1
    clear_value m2
    have h3 : m3.MemCanon := ite_canon (foldl_keeps (P := Mach.MemCanon) _ _ h2 fun _ hb _ => blockReset_canon _ _ hb) h2
    clear_value m3
    exact ite_canon (of_parts_canon (m := m3.beginWarm) (beginWarm_canon h3) rfl rfl) h3

theorem cycle_canon {m : Mach} (all : List Occ) (known : List (Nat × List W64)) (h : m.MemCanon) : (m.cycle all known).MemCanon :=
  react_canon _ _ _ (recordCycle_canon _ _ (foldl_keeps (P := Mach.MemCanon) _ _ h (fun _ hb _ => countOcc_canon _ hb)))

theorem arrived_canon {m : Mach} (rs : List Report) (h : m.MemCanon) : (m.arrived rs).MemCanon := of_parts_canon h rfl rfl

theorem pendClear_canon {m : Mach} (n : Nat) (v : W64) (h : m.MemCanon) : (m.pendClear n v).MemCanon := by
  dsimp only [Mach.pendClear]
  refine foldl_keeps (P := Mach.MemCanon) _ _ h fun _ hb1 _ => ?_
  split
  · split
    · exact report_canon _ (setFc_canon _ _ hb1)
    · exact setFc_canon _ _ hb1
  · exact hb1

theorem feClear_canon {m : Mach} (h : m.MemCanon) : m.feClear.MemCanon := by
  dsimp only [Mach.feClear]
  refine foldl_keeps (P := Mach.MemCanon) _ _ (setReg_canon _ _ _ _
    (setReg_canon _ _ _ _ (setReg_canon _ _ _ _ (setReg_canon _ _ _ _ (setReg_canon _ _ _ _ h))))) fun _ hb1 _ => ?_
  exact ite_canon (setFc_canon _ _ hb1) hb1

theorem selfFault_canon {m : Mach} (kind off : Nat) (inj : Bool) (h : m.MemCanon) : (m.selfFault kind off inj).MemCanon := by
  dsimp only [Mach.selfFault]
  split
  · exact countReg_canon _ _ _ _ _ _ h
  · exact ite_canon h (caldera_canon _ _ _ _ (setReg_canon _ _ _ _ h))

theorem inject_canon {m : Mach} (v : W64) (known : List (Nat × List W64)) (h : m.MemCanon) : (m.inject v known).MemCanon := by
  dsimp only [Mach.inject]
  split
  · exact h
  · split
    · exact setReg_canon _ _ _ _ h
    · exact ite_canon (selfFault_canon _ _ _ (setReg_canon _ _ _ _ h)) (cycle_canon _ _ (setReg_canon _ _ _ _ h))

theorem cfgLock_canon {m : Mach} (v : Bool) (h : m.MemCanon) : (m.cfgLock v).MemCanon := ite_canon h (setReg_canon _ _ _ _ h)

end Sys2Proof.Machine

/-!
SUPPORT. Operations keep memory and its metadata in canonical form: the secure world, control reads, management and debug, counters and windows, start-up and resets, the course of an instruction, branches and loops.
-/

namespace Sys2Proof.Machine

/-! ### Canonical memory: the secure world -/

theorem xlInv_canon {m : Mach} (mst : Master) (c : Nat) (v : W64) (h : m.MemCanon) : (m.xlInv mst c v).MemCanon := by
  dsimp only [Mach.xlInv]
  split
  · exact tlbInvalidate_canon _ _ _ _ _ h
  · split
    · exact h
    · exact tlbInvalidate_canon _ _ _ _ _ h

theorem homeWord_canon {m : Mach} (st unit a : Nat) (w : Word) (h : m.MemCanon) : (m.homeWord st unit a w).MemCanon :=
  l1Inval_canon _ _ (mirrorWrite_canon _ _ _ _ (stored_canon _ (putWord_canon _ _ _ _ (ownAtHome_canon _ h))))

theorem xlGS1_canon {m : Mach} (c : Nat) (v : W64) (h : m.MemCanon) : (m.xlGS1 c v).MemCanon := by
  dsimp only [Mach.xlGS1]
  split
  · exact h
  · exact ite_canon (homeWord_canon _ _ _ _ (setCore_canon _ _ h)) (setCore_canon _ _ h)

theorem holdWrite_canon {m : Mach} (mst : Master) (v : W64) (h : m.MemCanon) : (m.holdWrite mst v).MemCanon :=
  ite_canon h (releaseDeferred_canon _ (setReg_canon _ _ _ _ h))

theorem holdTimeout_canon {m : Mach} (d : Nat) (h : m.MemCanon) : (m.holdTimeout d).MemCanon := by
  dsimp only [Mach.holdTimeout]
  split
  · exact h
  · exact ite_canon (releaseDeferred_canon _ (of_parts_canon h rfl rfl)) (secTrigger_canon _ (of_parts_canon h rfl rfl))

theorem forceOut_canon {m : Mach} (c : Nat) (h : m.MemCanon) : (m.forceOut c).MemCanon := by
  have h1 : (m.serialPoint c).MemCanon := serialPoint_canon _ h
  unfold Mach.forceOut
  extract_lets x m1 src y stopped
  have hs : ∀ {t : Mach}, t.MemCanon → (stopped t).MemCanon := fun ht => setCore_canon _ _ ht
  refine ite_canon h ?_
  split
  · exact h
  · split
    · exact hs (setCore_canon _ _ h1)
    · extract_lets a
      split
      · exact hs (setCore_canon _ _ h1)
      · extract_lets z
        split
        · next he =>
          have hg := gateReturn_canon c (setCore_canon c z h1)
          rw [he] at hg
          exact setCore_canon _ _ (setG_canon _ _ _ (transfer_canon _ _ _ hg))
        · exact hs (setCore_canon _ _ h1)

theorem forceAllOut_canon {m : Mach} (h : m.MemCanon) : m.forceAllOut.MemCanon := by
  unfold Mach.forceAllOut
  extract_lets m1
  have h1 : m1.MemCanon := foldl_keeps (P := Mach.MemCanon) _ _ h fun _ hb _ => forceOut_canon _ hb
  clear_value m1
  exact of_parts_canon (m := m1) h1 rfl rfl

theorem initRegions_canon {m : Mach} (c lo hi : Nat) (h : m.MemCanon) : (m.initRegions c lo hi).MemCanon :=
  foldl_keeps (P := Mach.MemCanon) _ _ h (fun _ hb _ => initRegion_canon _ _ hb)

theorem touchRange_canon {m : Mach} (r : Nat × Nat) (h : m.MemCanon) : (m.touchRange r).MemCanon :=
  ite_canon h (foldl_keeps (P := Mach.MemCanon) _ _ h (fun _ hb _ => initRegions_canon _ _ _
    (initRegions_canon _ _ _ (initRegions_canon _ _ _ hb))))

theorem scrub_canon {m : Mach} (h : m.MemCanon) : m.scrub.MemCanon := by
  unfold Mach.scrub
  extract_lets rs line m1
  have h1 : m1.MemCanon := ⟨Tab.wf_filter _ h.1, Tab.wf_filter _ h.2⟩
  exact foldl_keeps (P := Mach.MemCanon) _ _ h1 fun _ hb _ => touchRange_canon _ hb

theorem measure_canon {m : Mach} (h : BitVec 384) (h1 : m.MemCanon) : (m.measure h).MemCanon :=
  foldl_keeps (P := Mach.MemCanon) _ _ h1 (fun _ hb _ => setReg_canon _ _ _ _ hb)

theorem sytumWords_canon {m : Mach} (a : Nat) (ws : List Word) (h : m.MemCanon) : (m.sytumWords a ws).MemCanon :=
  foldl_keeps (P := Mach.MemCanon) _ _ h (fun _ hb _ => homeWord_canon _ _ _ _ hb)

theorem publish_canon {m : Mach} (g : Nat) (desc : List Word) (h : m.MemCanon) : (m.publish g desc).MemCanon :=
  ite_canon (sytumWords_canon _ _ h) (homeWord_canon _ _ _ _ (drawn_canon
    (writeGrant_canon _ _ _ _ (writeGrant_canon _ _ _ _ (sytumWords_canon _ _ h)))))

theorem secureStart_canon {m : Mach} (c : Nat) (img : SecIn) (h : m.MemCanon) : (m.secureStart c img).MemCanon :=
  ite_canon h (enterDomain_canon _ (setCore_canon _ _ h))

theorem secState_canon {m : Mach} (s : Nat) (h : m.MemCanon) : (m.secState s).MemCanon := setRegFld_canon _ _ _ _ _ _ h

theorem secFail_canon {m : Mach} (h : m.MemCanon) : m.secFail.MemCanon := raiseOwn_canon _ _ _ (secState_canon _ h)

theorem secBring_canon {m : Mach} (img : SecIn) (h : m.MemCanon) : (m.secBring img).MemCanon := by
  unfold Mach.secBring
  refine ite_canon (secFail_canon h) ?_
  extract_lets hold m1 m2 m3
  have h1 : m1.MemCanon := setReg_canon _ _ _ _ (measure_canon _ (of_parts_canon h rfl rfl))
  clear_value m1
  split
  · exact secFail_canon h1
  · next c _ =>
    refine ite_canon (secFail_canon h1) ?_
    have h2 : m2.MemCanon := foldl_keeps (P := Mach.MemCanon) _ _ (sytumWords_canon _ _ h1)
      fun _ hb _ => setReg_canon _ _ _ _ (setReg_canon _ _ _ _ hb)
    clear_value m2
    have h3 : m3.MemCanon := foldl_keeps (P := Mach.MemCanon) _ _ h2 fun _ hb _ => publish_canon _ _ hb
    clear_value m3
    extract_lets src
    have h4 : src.MemCanon := secState_canon _ (secureStart_canon _ _ h3)
    clear_value src
    exact of_parts_canon h4 rfl rfl

theorem secRestart_canon {m : Mach} (img : SecIn) (h : m.MemCanon) : (m.secRestart img).MemCanon := by
  unfold Mach.secRestart
  refine ite_canon h ?_
  extract_lets src m1 m2
  have hs : src.MemCanon := forceAllOut_canon h
  clear_value src
  have h1 : m1.MemCanon := secBring_canon _ (scrub_canon (of_parts_canon hs rfl rfl))
  clear_value m1
  have h2 : m2.MemCanon := ite_canon h1 (raiseOwn_canon _ _ _ h1)
  exact releaseDeferred_canon _ h2

/-! ### Canonical memory: control reads -/

theorem ctlRead_canon {m : Mach} (mst : Master) (st k off : Nat) (h : m.MemCanon) : (m.ctlRead mst st k off).2.MemCanon := by
  dsimp only [Mach.ctlRead]
  split
  · exact h
  · split
    · exact h
    · split
      · split
        · exact readTxts_canon _ h
        · exact h
      · split
        · split
          · exact h
          · exact drawn_canon h
        · exact h
      · split
        · exact drawn_canon h
        · exact h

/-! ### Canonical memory: management and debug -/

theorem freeBytes_canon {m : Mach} (n : Nat) (h : m.MemCanon) : (m.freeBytes n).2.MemCanon := of_parts_canon h rfl rfl

theorem flashPut_canon {m : Mach} (a : Nat) (bs : List (BitVec 8)) (h : m.MemCanon) : (m.flashPut a bs).MemCanon :=
  of_parts_canon h rfl rfl

theorem xspi_canon {m : Mach} (op len : Nat) (err : Bool) (h : m.MemCanon) : (m.xspi op len err).MemCanon := by
  dsimp only [Mach.xspi]
  split
  · exact setReg_canon _ _ _ _ h
  · split
    · refine raiseOwn_canon _ _ _ ?_
      refine setReg_canon _ _ _ _ ?_
      split
      · exact devWrite_canon _ _ _ _ _ _ (freeBytes_canon _ h)
      · exact flashPut_canon _ _ (freeBytes_canon _ h)
    · split
      · exact devWrite_canon _ _ _ _ _ _ (setReg_canon _ _ _ _ h)
      · exact ite_canon (of_parts_canon (m := (m.setReg 0 5 72 0).flashPut m.flashAddr
          (m.programmed m.flashAddr m.flashBuf (flashLen op len))) (flashPut_canon _ _ (setReg_canon _ _ _ _ h)) rfl rfl)
            (flashPut_canon _ _ (setReg_canon _ _ _ _ h))

theorem mbxDone_canon {m : Mach} (result : Nat) (rsp : List (BitVec 8)) (h : m.MemCanon) : (m.mbxDone result rsp).MemCanon :=
  of_parts_canon h rfl rfl

theorem mbxBad_canon {m : Mach} (result : Nat) (h : m.MemCanon) : (m.mbxBad result).MemCanon := raiseOwn_canon _ _ _ (mbxDone_canon _ _ h)

theorem mbxPut_canon {m : Mach} (b : BitVec 8) (h : m.MemCanon) : (m.mbxPut b).MemCanon := by
  dsimp only [Mach.mbxPut]
  split
  · split
    · exact of_parts_canon h rfl rfl
    · exact ite_canon (of_parts_canon h rfl rfl) (mbxBad_canon _ (of_parts_canon h rfl rfl))
  · split
    · exact of_parts_canon h rfl rfl
    · exact ite_canon (of_parts_canon h rfl rfl) (of_parts_canon h rfl rfl)

theorem mbxWrite_canon {m : Mach} (off : Nat) (bs : List (BitVec 8)) (h : m.MemCanon) : (m.mbxWrite off bs).MemCanon :=
  ite_canon h (foldl_keeps (P := Mach.MemCanon) _ _ (of_parts_canon h rfl rfl) (fun _ hb _ => mbxPut_canon _ hb))

theorem mbxRead_canon {m : Mach} (n : Nat) (h : m.MemCanon) : (m.mbxRead n).MemCanon := by
  dsimp only [Mach.mbxRead]
  exact ite_canon h (of_parts_canon (m := (m.freeBytes n).2) (freeBytes_canon _ h) rfl rfl)

theorem mbxServe_canon {m : Mach} (code n : Nat) (f : Mach → Mach) (h : m.MemCanon) (hf : ∀ (a : Mach), a.MemCanon → (f a).MemCanon) :
    (m.mbxServe code n f).MemCanon := by
  dsimp only [Mach.mbxServe]
  split
  · exact h
  · split
    · exact mbxDone_canon _ _ h
    · split
      · exact mbxDone_canon _ _ h
      · exact ite_canon (mbxBad_canon _ h) (hf _ h)

theorem mbxGetStatus_canon {m : Mach} (h : m.MemCanon) : m.mbxGetStatus.MemCanon := mbxDone_canon _ _ (drawn_canon h)

theorem mbxGetFe_canon {m : Mach} (h : m.MemCanon) : m.mbxGetFe.MemCanon := mbxDone_canon _ _ h

theorem mbxGetPend_canon {m : Mach} (h : m.MemCanon) : m.mbxGetPend.MemCanon := mbxDone_canon _ _ h

theorem mbxBootLog_canon {m : Mach} (h : m.MemCanon) : m.mbxBootLog.MemCanon := mbxDone_canon _ _ h

theorem mbxReadReg_canon {m : Mach} (h : m.MemCanon) : m.mbxReadReg.MemCanon := by
  dsimp only [Mach.mbxReadReg]
  split
  · split
    · exact mbxDone_canon _ _ h
    · split
      · exact mbxDone_canon _ _ h
      · exact ite_canon (mbxDone_canon _ _ h) (mbxDone_canon _ _ (ctlRead_canon _ _ _ _ h))
  · exact mbxDone_canon _ _ h

theorem mbxClearFe_canon {m : Mach} (h : m.MemCanon) : m.mbxClearFe.MemCanon := mbxDone_canon _ _ (feClear_canon h)

theorem mbxPlimit_canon {m : Mach} (h : m.MemCanon) : m.mbxPlimit.MemCanon :=
  ite_canon (mbxDone_canon _ _ (plimit_canon _ h)) (mbxBad_canon _ (plimit_canon _ h))

theorem startWarm_canon {m : Mach} (why : Nat) (h : m.MemCanon) : (m.startWarm why).MemCanon := ite_canon h (of_parts_canon h rfl rfl)

theorem mbxChipReset_canon {m : Mach} (h : m.MemCanon) : m.mbxChipReset.MemCanon := by
  dsimp only [Mach.mbxChipReset]
  exact ite_canon (mbxDone_canon _ _ h) (startWarm_canon _ (of_parts_canon (m := m.mbxDone 0 []) (mbxDone_canon _ _ h) rfl rfl))

theorem mbxCaldera_canon {m : Mach} (h : m.MemCanon) : m.mbxCaldera.MemCanon :=
  ite_canon (mbxDone_canon _ _ h) (caldera_canon _ _ _ _ (mbxDone_canon _ _ h))

theorem i3cReply_canon {m : Mach} (n : Nat) (h : m.MemCanon) : (m.i3cReply n).MemCanon := by
  dsimp only [Mach.i3cReply]
  exact of_parts_canon (m := (m.freeBytes n).2) (freeBytes_canon _ h) rfl rfl

theorem i3cAssign_canon {m : Mach} (a : Nat) (h : m.MemCanon) : (m.i3cAssign a).MemCanon := ite_canon h (of_parts_canon h rfl rfl)

theorem dbgOpen_canon {m : Mach} (c : Nat) (cap : Word) (h : m.MemCanon) : (m.dbgOpen c cap).MemCanon := by
  dsimp only [Mach.dbgOpen]
  split
  · next _ _ _ t he =>
      have hke : t.MemCanon := OkAll.elim he (live_canon _ _ _ _ _ h) id
      exact ite_canon (of_parts_canon hke rfl rfl) (raiseOwn_canon _ _ _ hke)
  · exact raiseOwn_canon _ _ _ h

theorem dbgAct_canon {m : Mach} (c : Nat) (f : Mach → Mach) (h : m.MemCanon) (hf : ∀ (a : Mach), a.MemCanon → (f a).MemCanon) :
    (m.dbgAct c f).MemCanon := by
  dsimp only [Mach.dbgAct]
  split
  · exact h
  · exact ite_canon h (hf _ h)

theorem dbgStep_canon {m : Mach} (c : Nat) (h : m.MemCanon) : (m.dbgStep c).MemCanon := ite_canon h (setCore_canon _ _ h)

theorem dbgRead_canon {m : Mach} (c : Nat) (h : m.MemCanon) : (m.dbgRead c).MemCanon := ite_canon h (of_parts_canon h rfl rfl)

theorem dbgWrite_canon {m : Mach} (c : Nat) (state : Bool) (n : Nat) (v : W64) (h : m.MemCanon) : (m.dbgWrite c state n v).MemCanon := by
  dsimp only [Mach.dbgWrite]
  split
  · exact h
  · split
    · exact setG_canon _ _ _ h
    · split
      · split
        · exact setCore_canon _ _ h
        · exact h
      · exact ite_canon (setCore_canon _ _ h) h

/-! ### Canonical memory: counters and windows -/

theorem ovfClear_canon {m : Mach} (st k : Nat) (v : W64) (h : m.MemCanon) : (m.ovfClear st k v).MemCanon := by
  dsimp only [Mach.ovfClear]
  split
  · exact h
  · exact ite_canon (setRegBit_canon _ _ _ _ _ (setReg_canon _ _ _ _ h)) (setReg_canon _ _ _ _ h)

theorem fumCfgWrite_canon {m : Mach} (px : Nat) (v : W64) (h : m.MemCanon) : (m.fumCfgWrite px v).MemCanon := by
  dsimp only [Mach.fumCfgWrite]
  exact ite_canon h (of_parts_canon (m := m.setReg (pxStop px) 35 896
    (setBit (setFld (setFld 0 0 32 (fld v 0 32)) 32 8 (fld v 32 8)) 63 (bit v 63))) (setReg_canon _ _ _ _ h) rfl rfl)

theorem fumLatch_canon {m : Mach} (px j : Nat) (h : m.MemCanon) : (m.fumLatch px j).MemCanon :=
  setReg_canon _ _ _ _ (setReg_canon _ _ _ _ (setReg_canon _ _ _ _ h))

theorem fumZero_canon {m : Mach} (px j : Nat) (h : m.MemCanon) : (m.fumZero px j).MemCanon := setPort_canon _ _ h

theorem fumBoundary_canon {m : Mach} (px : Nat) (h : m.MemCanon) : (m.fumBoundary px).MemCanon := by
  dsimp only [Mach.fumBoundary]
  split
  · exact h
  · refine foldl_keeps (P := Mach.MemCanon) _ _ (ite_canon (of_parts_canon h rfl rfl)
      (setReg_canon _ _ _ _ (foldl_keeps (P := Mach.MemCanon) _ _ (of_parts_canon h rfl rfl) (fun _ hb _ => fumLatch_canon _ _ hb)))) fun _
        hb1 _ => ?_
    exact fumZero_canon _ _ hb1

theorem fumClrPeak_canon {m : Mach} (px : Nat) (v : W64) (h : m.MemCanon) : (m.fumClrPeak px v).MemCanon :=
  foldl_keeps (P := Mach.MemCanon) _ _ h (fun _ hb _ => ite_canon (setReg_canon _ _ _ _ hb) hb)

/-! ### Canonical memory: start-up and resets -/

theorem bootFld_canon {m : Mach} (lo n x : Nat) (h : m.MemCanon) : (m.bootFld lo n x).MemCanon := setRegFld_canon _ _ _ _ _ _ h

theorem bootStop_canon {m : Mach} (why : Nat) (h : m.MemCanon) : (m.bootStop why).MemCanon :=
  bootFld_canon _ _ _ (bootFld_canon _ _ _ (of_parts_canon h rfl rfl))

theorem readFuses_canon {m : Mach} (b : BootIn) (h : m.MemCanon) : (m.readFuses b).MemCanon :=
  foldl_keeps (P := Mach.MemCanon) _ _ (of_parts_canon h rfl rfl) (fun _ hb _ => raiseOwn_canon _ _ _ hb)

theorem imageReact_canon {m : Mach} (p : Nat × Nat) (h : m.MemCanon) : (m.imageReact p).MemCanon := ite_canon h (setFc_canon _ _ h)

theorem applyReg_canon {m : Mach} (p : Nat × W64) (h : m.MemCanon) : (m.applyReg p).MemCanon := by
  dsimp only [Mach.applyReg]
  split
  · split
    · exact h
    · split
      · exact setBlk_canon _ _ _ h
      · split
        · split
          · exact setVqf_canon _ _ _ h
          · split
            · exact setVqf_canon _ _ _ h
            · exact ite_canon (setVqf_canon _ _ _ h) (setVqf_canon _ _ _ h)
        · exact imageReact_canon _ h
        · split
          · exact of_parts_canon h rfl rfl
          · exact ite_canon (of_parts_canon h rfl rfl) (setReg_canon _ _ _ _ h)
  · exact h

theorem imageDefaults_canon {m : Mach} (h : m.MemCanon) : m.imageDefaults.MemCanon := by
  dsimp only [Mach.imageDefaults]
  refine foldl_keeps (P := Mach.MemCanon) _ _ ?_ fun _ hb1 _ => ?_
  · refine foldl_keeps (P := Mach.MemCanon) _ _ (setRegFld_canon _ _ _ _ _ _
      (setRegFld_canon _ _ _ _ _ _ (setRegFld_canon _ _ _ _ _ _ (setRegFld_canon _ _ _ _ _ _ h)))) fun _ hb1 _ => ?_
    exact setRegFld_canon _ _ _ _ _ _ hb1
  · exact setReg_canon _ _ _ _ hb1

theorem applyImage_canon {m : Mach} (s : SlotIn) (h : m.MemCanon) : (m.applyImage s).MemCanon := by
  unfold Mach.applyImage
  extract_lets m0 m1
  have h0 : m0.MemCanon := of_parts_canon (m := m) h rfl rfl
  clear_value m0
  have h1 : m1.MemCanon := foldl_keeps (P := Mach.MemCanon) _ _
    (foldl_keeps (P := Mach.MemCanon) _ _ (imageDefaults_canon h0) fun _ hb _ => applyReg_canon _ hb) fun _ hb _ => imageReact_canon _ hb
  clear_value m1
  exact of_parts_canon (m := m1) h1 rfl rfl

theorem startDomains_canon {m : Mach} (h : m.MemCanon) : m.startDomains.MemCanon := by
  dsimp only [Mach.startDomains]
  refine foldl_keeps (P := Mach.MemCanon) _ _ (foldl_keeps (P := Mach.MemCanon) _ _
    (foldl_keeps (P := Mach.MemCanon) _ _ h (fun _ hb _ => setDom_canon _ _ hb)) (fun _ hb _ => ite_canon hb (loseCm_canon _ hb))) fun _
      hb1 _ => ?_
  exact resetCore_canon _ hb1

theorem startLinks_canon {m : Mach} (h : m.MemCanon) : m.startLinks.MemCanon := by
  dsimp only [Mach.startLinks]
  refine foldl_keeps (P := Mach.MemCanon) _ _ (foldl_keeps (P := Mach.MemCanon) _ _ h (fun _ hb _ => setRegFld_canon _ _ _ _ _ _ hb)) fun _
    hb1 _ => ?_
  exact ite_canon (relock_canon _ hb1) hb1

theorem trained_canon {m : Mach} (ch state path why mods : Nat) (h : m.MemCanon) : (m.trained ch state path why mods).MemCanon :=
  setReg_canon _ _ _ _ h

theorem trainOne_canon {m : Mach} (b : BootIn) (ch : Nat) (h : m.MemCanon) : (m.trainOne b ch).MemCanon := by
  dsimp only [Mach.trainOne]
  split
  · exact trained_canon _ _ _ _ _ h
  · split
    · exact trained_canon _ _ _ _ _ h
    · split
      · exact trained_canon _ _ _ _ _ h
      · split
        · exact trained_canon _ _ _ _ _ h
        · split
          · exact raiseOwn_canon _ _ _ (trained_canon _ _ _ _ _ (setRegFld_canon _ _ _ _ _ _ (loseChannel_canon _ h)))
          · exact trained_canon _ _ _ _ _ (setRegFld_canon _ _ _ _ _ _ (loseChannel_canon _ h))

theorem trainAll_canon {m : Mach} (b : BootIn) (h : m.MemCanon) : (m.trainAll b).MemCanon := by
  dsimp only [Mach.trainAll]
  refine foldl_keeps (P := Mach.MemCanon) _ _ (foldl_keeps (P := Mach.MemCanon) _ _ h (fun _ hb _ => trainOne_canon _ _ hb)) fun _ hb1 _ =>
    ?_
  exact setRegBit_canon _ _ _ _ _ (setRegFld_canon _ _ _ _ _ _ (setRegFld_canon _ _ _ _ _ _ (setRegFld_canon _ _ _ _ _ _ hb1)))

theorem layOut_canon {m : Mach} (h : m.MemCanon) : m.layOut.MemCanon := by
  dsimp only [Mach.layOut]
  refine foldl_keeps (P := Mach.MemCanon) _ _ (foldl_keeps (P := Mach.MemCanon) _ _ (of_parts_canon h rfl rfl)
    (fun _ hb _ => setRegFld_canon _ _ _ _ _ _ (setRegFld_canon _ _ _ _ _ _ hb))) fun _ hb1 _ => ?_
  exact setRegFld_canon _ _ _ _ _ _ hb1

theorem releaseFirst_canon {m : Mach} (c : Nat) (d : BootDesc) (h : m.MemCanon) : (m.releaseFirst c d).MemCanon :=
  restart_canon _ (setCore_canon _ _ (setCore_canon _ _ (setReg_canon _ _ _ _ (setReg_canon _ _ _ _ (sytumWords_canon _ _ h)))))

theorem keepTraining_canon {old new : Mach} (_ : old.MemCanon) (hnew : new.MemCanon) : (old.keepTraining new).MemCanon :=
  foldl_keeps (P := Mach.MemCanon) _ _ (of_parts_canon hnew rfl rfl) (fun _ hb _ => setReg_canon _ _ _ _ (setReg_canon _ _ _ _ hb))

theorem bootRecord_canon {m : Mach} (b : BootIn) (cause : Nat) (rejects : List (Nat × Nat)) (h : m.MemCanon) :
    (m.bootRecord b cause rejects).MemCanon :=
  of_parts_canon h rfl rfl

theorem writeTrainRec_canon {m : Mach} (b : BootIn) (h : m.MemCanon) : (m.writeTrainRec b).MemCanon :=
  ite_canon (flashPut_canon _ _ (freeBytes_canon _ h)) h

theorem started_canon {m : Mach} (b : BootIn) (h : m.MemCanon) : (m.started b).MemCanon :=
  writeTrainRec_canon _ (bootFld_canon _ _ _ (bootFld_canon _ _ _ (bootFld_canon _ _ _ (of_parts_canon h rfl rfl))))

/-- The machine that an attempt to start up leaves is canonical. -/
def Tried.Canon : Tried → Prop
  | .up m => m.MemCanon
  | .rejected _ m => m.MemCanon
  | .stopped _ m => m.MemCanon

/-! ### Canonical memory: the course of an instruction -/

theorem Tried_finish_canon (t : Tried) (b : BootIn) (cause : Nat) (rejects : List (Nat × Nat)) (first : Option Nat) (h : t.Canon) :
    (t.finish b cause rejects first).MemCanon := by
  have note : ∀ {m : Mach}, m.MemCanon → (((m.bootRecord b cause rejects).bootFld 7 1 (if first.isSome then 1 else 0)).bootFld 8 4
    (first.getD 0)).MemCanon :=
    fun hm => bootFld_canon _ _ _ (bootFld_canon _ _ _ (bootRecord_canon _ _ _ hm))
  cases t with
  | up m => exact started_canon _ (note h)
  | rejected why m => exact bootStop_canon _ (note h)
  | stopped why m => exact bootStop_canon _ (note h)

/-! ### Canonical memory: start-up and resets -/

theorem readFlashTable_canon {m : Mach} (b : BootIn) (h : m.MemCanon) : (m.readFlashTable b).MemCanon := setReg_canon _ _ _ _ h

theorem bringUp_canon {m : Mach} (b : BootIn) (d : BootDesc) (h : m.MemCanon) : (m.bringUp b d).Canon := by
  unfold Mach.bringUp
  extract_lets m1
  have h1 : m1.MemCanon := secBring_canon _ (scrub_canon (of_parts_canon h rfl rfl))
  split
  · exact h1
  · exact releaseFirst_canon _ _ h1

theorem tagonly_canon {m : Mach} (x : Bool) (h : m.MemCanon) : Mach.MemCanon { m with tagonly := x } := of_parts_canon h rfl rfl

theorem trySlot_canon {m : Mach} (b : BootIn) (second : Bool) (h : m.MemCanon) : (m.trySlot b second).Canon := by
  unfold Mach.trySlot
  extract_lets s m0 m1 m2 m3 m4
  have h0 : m0.MemCanon := bootFld_canon _ _ _ h
  clear_value m0
  have h2 : m2.MemCanon := startDomains_canon (applyImage_canon _ h0)
  clear_value m2
  have h3 : m3.MemCanon := trainAll_canon _ (tagonly_canon _ h2)
  clear_value m3
  have h4 : m4.MemCanon := layOut_canon h3
  clear_value m4
  split
  · exact h0
  · split
    · exact h0
    · split
      · exact h3
      · split
        · exact h3
        · split
          · exact h4
          · exact bringUp_canon _ _ (startLinks_canon h4)

theorem startUp_canon {m : Mach} (b : BootIn) (h : m.MemCanon) : (m.startUp b).MemCanon := by
  unfold Mach.startUp
  extract_lets cause src m0 m1 bFirst slot
  have h0 : m0.MemCanon := of_parts_canon (m := src) (readFuses_canon _ h) rfl rfl
  have h1 : m1.MemCanon := readFlashTable_canon _ h0
  refine ite_canon (bootStop_canon _ (bootRecord_canon _ _ _ h0)) (ite_canon (bootStop_canon _ (bootRecord_canon _ _ _ h1)) ?_)
  have ht := trySlot_canon b bFirst h1
  split
  · next why m2 he =>
    rw [he] at ht
    have ht2 := trySlot_canon b (! bFirst) (keepTraining_canon h1 ht)
    split
    · split
      · next he2 => exact Tried_finish_canon _ _ _ _ _ (he2 ▸ ht2)
      · exact Tried_finish_canon _ _ _ _ _ ht2
    · exact Tried_finish_canon _ _ _ _ _ ht
  · exact Tried_finish_canon _ _ _ _ _ ht

theorem flushEngine_canon {m : Mach} (e : Nat) (h : m.MemCanon) : (m.flushEngine e).MemCanon := stateEntries_canon _ _ _ h

theorem quiet_canon {m : Mach} (h : m.MemCanon) : m.quiet.MemCanon := by
  dsimp only [Mach.quiet]
  refine selfRefresh_canon ?_
  refine loseCaches_canon ?_
  refine settleHomes_canon ?_
  refine foldl_keeps (P := Mach.MemCanon) _ _ (foldl_keeps (P := Mach.MemCanon) _ _ (mntReset_canon (sendLeaving_canon h))
    (fun _ hb _ => drainAll_canon _ hb)) fun _ hb1 _ => ?_
  exact ite_canon (flushEngine_canon _ hb1) hb1

theorem warmState_canon {m : Mach} (kept flushed : Bool) (h : m.MemCanon) : (m.warmState kept flushed).MemCanon := by
  unfold Mach.warmState
  extract_lets paired stays qs eng src s1 s2 m1
  have h1 : m1.MemCanon := ⟨Tab.wf_filter _ h.1, Tab.wf_filter _ h.2⟩
  clear_value m1
  exact heldTick_canon (foldl_keeps (P := Mach.MemCanon) _ _ h1 fun _ hb _ => freeEntries_canon _ (setEngine_canon _ _ hb))

theorem warmReset_canon {m : Mach} (h : m.MemCanon) : m.warmReset.MemCanon := by
  dsimp only [Mach.warmReset]
  split
  · exact h
  · refine bootFld_canon _ _ _ ?_
    refine countReg_canon _ _ _ _ _ _ ?_
    refine bootFld_canon _ _ _ ?_
    refine bootFld_canon _ _ _ ?_
    refine warmState_canon _ _ ?_
    split
    · exact quiet_canon h
    · exact ite_canon (selfRefresh_canon h) h

theorem powerOn_canon {m : Mach} (_ : m.MemCanon) : m.powerOn.MemCanon :=
  setPairFld_canon _ _ _ (setRegBit_canon _ _ _ _ _ (of_parts_canon reset_canon rfl rfl))

/-! ### Canonical memory: branches and loops -/

theorem branchTarget_canon {m : Mach} (c t : Nat) (h : m.MemCanon) : OkAll (fun r => r.MemCanon) (m.branchTarget c t) := by
  dsimp only [Mach.branchTarget]
  split
  · exact trivial
  · next _ _ _ t1 he =>
      have hke : t1.MemCanon := OkAll.elim he (live_canon _ _ _ _ _ h) id
      split
      · exact trivial
      · exact hke

theorem predict_canon {m : Mach} (c pc : Nat) (hint taken : Bool) (t : Nat) (h : m.MemCanon) : (m.predict c pc hint taken t).MemCanon := by
  dsimp only [Mach.predict]
  split
  · split
    · exact setCore_canon _ _ (ite_canon (countCore_canon _ _ _ h) h)
    · exact ite_canon (countCore_canon _ _ _ h) h
  · exact drawn_canon (ite_canon (countCore_canon _ _ _ h) h)

theorem branch_canon (c : Nat) (a b : BitVec 6) (h : Bool) (off : BitVec 13) (cond : W64 → W64 → Bool) {m : Mach} (h1 : m.MemCanon) :
    (branch c a b h off cond m).MemCanon := by
  dsimp only [branch]
  refine instr_canon _ _ _ h1 ?_
  intro m1 h2
  split
  · exact trivial
  · split
    · exact predict_canon _ _ _ _ _ h2
    · split
      · exact trivial
      · next _ t he =>
          have hke : t.MemCanon := OkAll.elim he (branchTarget_canon _ _ h2) id
          exact predict_canon _ _ _ _ _ hke

theorem jal_canon (c : Nat) (d : BitVec 6) (off : BitVec 19) {m : Mach} (h : m.MemCanon) : (jal c d off m).MemCanon := by
  dsimp only [jal]
  refine instr_canon _ _ _ h ?_
  intro m1 h1
  split
  · exact trivial
  · next _ t he =>
      have hke : t.MemCanon := OkAll.elim he (branchTarget_canon _ _ h1) id
      exact setG_canon _ _ _ (predict_canon _ _ _ _ _ hke)

theorem jalr_canon (c : Nat) (d a : BitVec 6) (off : BitVec 13) {m : Mach} (h : m.MemCanon) : (jalr c d a off m).MemCanon := by
  dsimp only [jalr]
  refine instr_canon _ _ _ h ?_
  intro m1 h1
  split
  · exact trivial
  · split
    · exact trivial
    · next _ _ _ t he =>
        have hke : t.MemCanon := OkAll.elim he (live_canon _ _ _ _ _ h1) id
        split
        · exact trivial
        · split
          · exact trivial
          · exact setG_canon _ _ _ (predict_canon _ _ _ _ _ hke)

theorem loopStart_canon {m : Mach} (c : Nat) (lv : Bool) (count : W64) (n : Nat) (h : m.MemCanon) :
    ResCanon (m.loopStart c lv count n) := by
  dsimp only [Mach.loopStart]
  split
  · exact h
  · exact setCore_canon _ _ h

theorem loopInstr_canon (c : Nat) (lv : Bool) (count : Mach → Word) (len : BitVec 13) {m : Mach} (h : m.MemCanon) :
    (loopInstr c lv count len m).MemCanon := by
  dsimp only [loopInstr]
  refine instr_canon _ _ _ h ?_
  intro m1 h1
  split
  · exact trivial
  · split
    · exact trivial
    · exact loopStart_canon _ _ _ _ h1

end Sys2Proof.Machine

/-!
SUPPORT. Operations keep memory and its metadata in canonical form: control writes, floating point, packed instructions, vector operations.
-/

namespace Sys2Proof.Machine

/-! ### Canonical memory: control writes -/

theorem plainWrite_canon {m : Mach} (b : Blk) (st k off : Nat) (v : W64) (h : m.MemCanon) : (m.plainWrite b st k off v).MemCanon := by
  dsimp only [Mach.plainWrite]
  split
  · exact h
  · exact setReg_canon _ _ _ _ h

theorem setEnable_canon {m : Mach} (st k : Nat) (e : Bool) (h : m.MemCanon) : (m.setEnable st k e).MemCanon := by
  dsimp only [Mach.setEnable]
  split
  · exact ite_canon (relock_canon _ (setBlk_canon _ _ _ h)) (portDown_canon _ _ (setBlk_canon _ _ _ h))
  · exact setBlk_canon _ _ _ h

theorem blkCtrl_canon {m : Mach} (st k : Nat) (v : W64) (h : m.MemCanon) : (m.blkCtrl st k v).MemCanon := by
  dsimp only [Mach.blkCtrl]
  split
  · exact setBlk_canon _ _ _ h
  · split
    · exact setEnable_canon _ _ _ (setBlk_canon _ _ _ h)
    · exact ite_canon (setBlk_canon _ _ _ (setBlk_canon _ _ _ h)) (setEnable_canon _ _ _ (setBlk_canon _ _ _ h))

theorem disabledState_canon {m : Mach} (st k : Nat) (h : m.MemCanon) : (m.disabled_ st k).MemCanon := ite_canon (setEnable_canon _ _ _ h) h

theorem coreCmd_canon {m : Mach} (mst : Master) (c : Nat) (v : W64) (vec : Bool) (h : m.MemCanon) : (m.coreCmd mst c v vec).MemCanon := by
  dsimp only [Mach.coreCmd]
  split
  · exact h
  · exact stopCmd_canon _ _ _ h
  · exact resumeCmd_canon _ _ h
  · exact restartCmd_canon _ _ h
  · exact cign_canon _ h

theorem l2Write_canon {m : Mach} (c : Nat) (v : W64) (h : m.MemCanon) : (m.l2Write c v).MemCanon := by
  dsimp only [Mach.l2Write]
  split
  · exact cleanL2_canon _ h
  · split
    · exact setRegBit_canon _ _ _ _ _ h
    · split
      · exact h
      · exact plainWrite_canon _ _ _ _ _ h

theorem l1Write_canon {m : Mach} (c : Nat) (v : W64) (h : m.MemCanon) : (m.l1Write c v).MemCanon := by
  dsimp only [Mach.l1Write]
  split
  · exact l1Disable_canon _ h
  · split
    · exact setRegBit_canon _ _ _ _ _ h
    · exact plainWrite_canon _ _ _ _ _ h

theorem bankCtrl_canon {m : Mach} (st k off : Nat) (v : W64) (h : m.MemCanon) : (m.bankCtrl st k off v).MemCanon := setReg_canon _ _ _ _ h

theorem coreWrite_canon {m : Mach} (mst : Master) (c off : Nat) (w : Word) (vec : Bool) (h : m.MemCanon) :
    (m.coreWrite mst c off w vec).MemCanon := by
  unfold Mach.coreWrite
  extract_lets v st k b x
  refine ite_canon (coreCmd_canon _ _ _ _ h) (ite_canon (setCore_canon _ _ h) (ite_canon (ctxWrite_canon _ _ _ h) (ite_canon ?_
    (ite_canon ?_ (ite_canon (plainWrite_canon _ _ _ _ _ h) (ite_canon (xlGS1_canon _ _ h) (ite_canon ?_ (ite_canon (xlInv_canon _ _ _ h)
    (ite_canon (bankCtrl_canon _ _ _ _ h) (ite_canon (ovfClear_canon _ _ _ h) (ite_canon (setReg_canon _ _ _ _ h)
    (plainWrite_canon _ _ _ _ _ h))))))))))))
  · exact ite_canon (l1Write_canon _ _ h) (l2Write_canon _ _ h)
  · exact plainWrite_canon _ _ _ _ _ (ite_canon (setCore_canon _ _ h) h)
  · exact ite_canon (plainWrite_canon _ _ _ _ _ h) h

theorem chkCtrl_canon {m : Mach} (b : Blk) (st k : Nat) (v : W64) (h : m.MemCanon) : (m.chkCtrl b st k v).MemCanon :=
  ite_canon h (setReg_canon _ _ _ _ h)

theorem protWrite_canon {m : Mach} (mst : Master) (b : Blk) (st k off : Nat) (v : W64) (result : Nat) (h : m.MemCanon) :
    SomeAll (fun r => r.MemCanon) (m.protWrite mst b st k off v result) := by
  dsimp only [Mach.protWrite]
  split
  · exact trivial
  · split
    · exact logSelWrite_canon _ _ _ h
    · split
      · exact remapWrite_canon _ _ _ h
      · split
        · exact plainWrite_canon _ _ _ _ _ h
        · split
          · split
            · exact sppr_canon _ _ _ h
            · exact trivial
          · split
            · exact chkCtrl_canon _ _ _ _ h
            · split
              · dsimp only [OkAll, SomeAll]
                split
                · exact h
                · exact plainWrite_canon _ _ _ _ _ h
              · exact trivial

theorem leIgnored_canon {m : Mach} (e : Nat) (h : m.MemCanon) : (m.leIgnored e).MemCanon := setRegBit_canon _ _ _ _ _ h

theorem leCfg_canon {m : Mach} (e : Nat) (v : W64) (h : m.MemCanon) : (m.leCfg e v).MemCanon := by
  dsimp only [Mach.leCfg]
  split
  · exact leIgnored_canon _ h
  · exact ite_canon (setReg_canon _ _ _ _ h) (leIgnored_canon _ (setReg_canon _ _ _ _ h))

theorem linkCfg_canon {m : Mach} (l : Nat) (v : W64) (h : m.MemCanon) : (m.linkCfg l v).MemCanon := by
  dsimp only [Mach.linkCfg]
  split
  · split
    · exact setRegFld_canon _ _ _ _ _ _ (plainWrite_canon _ _ _ _ _ h)
    · exact plainWrite_canon _ _ _ _ _ h
  · split
    · exact linkLost_canon _ (plainWrite_canon _ _ _ _ _ h)
    · exact setRegFld_canon _ _ _ _ _ _ (plainWrite_canon _ _ _ _ _ h)

theorem epnWrite_canon {m : Mach} (e off : Nat) (v : W64) (mir : Bool) (h : m.MemCanon) : (m.epnWrite e off v mir).MemCanon := by
  dsimp only [Mach.epnWrite]
  split
  · exact linkCfg_canon _ _ h
  · split
    · exact autoJoin_canon (plainWrite_canon _ _ _ _ _ h)
    · split
      · exact pairCtrl_canon _ h
      · split
        · exact roleWrite_canon _ _ _ h
        · split
          · split
            · exact mwRead_canon _ h
            · split
              · exact mwWrite_canon _ h
              · exact h
          · split
            · exact plainWrite_canon _ _ _ _ _ h
            · exact plainWrite_canon _ _ _ _ _ h

theorem vqfOp_canon {m : Mach} (e : Nat) (v : W64) (partner : List Nat) (h : m.MemCanon) : (m.vqfOp e v partner).MemCanon := by
  dsimp only [Mach.vqfOp]
  split
  · exact vqfCommand_canon _ _ _ h (fun m1 h1 a => vqfEnable_canon _ _ h1)
  · exact vqfCommand_canon _ _ _ h (fun m1 h1 a => vqfDisable_canon _ _ h1)
  · exact vqfCommand_canon _ _ _ h (fun m1 h1 a => vqfFreeze_canon _ _ h1)
  · exact vqfCommand_canon _ _ _ h (fun m1 h1 a => vqfThaw_canon _ _ h1)
  · exact vqfCommand_canon _ _ _ h (fun m1 h1 a => vqfSave_canon _ _ h1)
  · exact vqfCommand_canon _ _ _ h (fun m1 h1 a => vqfRestore_canon _ _ _ h1)
  · exact vqfCommand_canon _ _ _ h (fun m1 h1 a => vqfDrop_canon _ _ _ h1)
  · exact vqfCommand_canon _ _ _ h (fun m1 h1 a => vqfResume_canon _ _ h1)
  · exact h

theorem sytWrite_canon {m : Mach} (mst : Master) (off : Nat) (v : W64) (h : m.MemCanon) : (m.sytWrite mst off v).MemCanon := by
  dsimp only [Mach.sytWrite]
  split
  · exact ite_canon (startWarm_canon _ h) h
  · split
    · exact writeRoute_canon _ _ h
    · split
      · exact fireEvent_canon _ _ h
      · split
        · exact moveBucket_canon _ h
        · split
          · split
            · exact h
            · split
              · exact secTrigger_canon _ (ite_canon (of_parts_canon h rfl rfl) h)
              · exact ite_canon (of_parts_canon h rfl rfl) h
          · split
            · split
              · exact h
              · exact plainWrite_canon _ _ _ _ _ h
            · split
              · exact holdWrite_canon _ _ h
              · exact plainWrite_canon _ _ _ _ _ h

theorem shadowClear_canon {m : Mach} (n : Nat) (v : W64) (h : m.MemCanon) : (m.shadowClear n v).MemCanon :=
  foldl_keeps (P := Mach.MemCanon) _ _ h (fun _ hb _ => ite_canon (setFc_canon _ _ hb) hb)

theorem fcWrite_canon {m : Mach} (off : Nat) (v : W64) (known : List (Nat × List W64)) (h : m.MemCanon) :
    (m.fcWrite off v known).MemCanon := by
  dsimp only [Mach.fcWrite]
  split
  · exact cfgLock_canon _ h
  · split
    · exact srcCfgWrite_canon _ h
    · split
      · exact ite_canon (setFc_canon _ _ h) h
      · split
        · exact pendClear_canon _ _ h
        · split
          · exact shadowClear_canon _ _ h
          · split
            · exact ite_canon (feClear_canon h) h
            · split
              · exact ite_canon (caldera_canon _ _ _ _ h) h
              · split
                · exact inject_canon _ _ h
                · exact plainWrite_canon _ _ _ _ _ h

theorem pmWrite_canon {m : Mach} (mst : Master) (off : Nat) (v : W64) (h : m.MemCanon) : (m.pmWrite mst off v).MemCanon := by
  dsimp only [Mach.pmWrite]
  split
  · exact plimit_canon _ h
  · split
    · exact pmRequest_canon _ _ _ _ h
    · split
      · exact plainWrite_canon _ _ _ _ _ h
      · exact plainWrite_canon _ _ _ _ _ h

theorem thermCfg_canon {m : Mach} (v : W64) (h : m.MemCanon) : (m.thermCfg v).MemCanon := by
  dsimp only [Mach.thermCfg]
  split
  · exact setRegBit_canon _ _ _ _ _ h
  · exact plainWrite_canon _ _ _ _ _ h

theorem carveWrite_canon {m : Mach} (mst : Master) (off : Nat) (v : W64) (h : m.MemCanon) : (m.carveWrite mst off v).MemCanon := by
  dsimp only [Mach.carveWrite]
  split
  · exact plainWrite_canon _ _ _ _ _ h
  · exact ite_canon (countReg_canon _ _ _ _ _ _ h) h

theorem xspiOp_canon {m : Mach} (v : W64) (err : Bool) (h : m.MemCanon) : (m.xspiOp v err).MemCanon := ite_canon h (xspi_canon _ _ _ h)

theorem l3Write_canon {m : Mach} (p : Nat) (v : W64) (h : m.MemCanon) : (m.l3Write p v).MemCanon := by
  dsimp only [Mach.l3Write]
  split
  · exact disableL3_canon _ (plainWrite_canon _ _ _ _ _ h)
  · exact plainWrite_canon _ _ _ _ _ h

theorem resWrite_canon {m : Mach} (b : Blk) (st k off : Nat) (v : W64) (h : m.MemCanon) : (m.resWrite b st k off v).MemCanon := by
  dsimp only [Mach.resWrite]
  split
  · exact h
  · exact plainWrite_canon _ _ _ _ _ h

theorem mcCfg_canon {m : Mach} (i : Nat) (v : W64) (h : m.MemCanon) : (m.mcCfg i v).MemCanon := by
  dsimp only [Mach.mcCfg]
  refine orderWrite_canon _ _ (plainWrite_canon _ _ _ _ _ h)

theorem dphyCtrl_canon {m : Mach} (ch : Nat) (v : W64) (h : m.MemCanon) : (m.dphyCtrl ch v).MemCanon := by
  dsimp only [Mach.dphyCtrl]
  split
  · exact retrain_canon _ (ite_canon (failChannel_canon _ _ h) h)
  · exact ite_canon (failChannel_canon _ _ h) h

theorem pmuWrite_canon {m : Mach} (st k off : Nat) (v : W64) (h : m.MemCanon) : (m.pmuWrite st k off v).MemCanon := by
  dsimp only [Mach.pmuWrite]
  split
  · exact bankCtrl_canon _ _ _ _ h
  · split
    · exact ovfClear_canon _ _ _ h
    · split
      · exact setReg_canon _ _ _ _ h
      · split
        · exact setReg_canon _ _ _ _ h
        · split
          · split
            · exact fumCfgWrite_canon _ _ h
            · exact ite_canon (fumClrPeak_canon _ _ h) h
          · exact h

theorem rpWrite_canon {m : Mach} (mst : Master) (r off : Nat) (v : W64) (h : m.MemCanon) : (m.rpWrite mst r off v).MemCanon := by
  dsimp only [Mach.rpWrite]
  split
  · exact plainWrite_canon _ _ _ _ _ h
  · split
    · exact plainWrite_canon _ _ _ _ _ h
    · split
      · exact cfgIssue_canon _ _ _ _ h
      · split
        · split
          · exact plainWrite_canon _ _ _ _ _ h
          · exact h
        · exact plainWrite_canon _ _ _ _ _ h

theorem blockWrite_canon {m : Mach} (c : Nat) (cap : Word) (g : Grant) (b : Blk) (i st k off : Nat) (v : W64) (x : CtlIn) (h : m.MemCanon) :
    (m.blockWrite c cap g b i st k off v x).MemCanon := by
  dsimp only [Mach.blockWrite]
  split
  · split
    · exact ite_canon (podReset_canon _ _ h) h
    · exact plainWrite_canon _ _ _ _ _ h
  · split
    · exact ite_canon (ccReset_canon _ _ h) h
    · exact plainWrite_canon _ _ _ _ _ h
  · split
    · exact plainWrite_canon _ _ _ _ _ (settleTokens_canon _ h)
    · exact plainWrite_canon _ _ _ _ _ h
  · split
    · exact resWrite_canon _ _ _ _ _ h
    · split
      · exact l3Write_canon _ _ h
      · exact plainWrite_canon _ _ _ _ _ h
  · split
    · exact mcCfg_canon _ _ h
    · split
      · exact resWrite_canon _ _ _ _ _ h
      · exact plainWrite_canon _ _ _ _ _ h
  · split
    · exact dphyCtrl_canon _ _ h
    · split
      · exact bankMask_canon _ _ _ h
      · exact plainWrite_canon _ _ _ _ _ h
  · split
    · exact plainWrite_canon _ _ _ _ _ h
    · split
      · exact ite_canon (pxReset_canon _ h) h
      · split
        · exact pairWrite_canon _ _ _ h
        · exact plainWrite_canon _ _ _ _ _ h
  · split
    · exact portCfg_canon _ _ h
    · split
      · exact plainWrite_canon _ _ _ _ _ h
      · split
        · exact portDma_canon _ _ h
        · exact plainWrite_canon _ _ _ _ _ h
  · split
    · split
      · exact sfCommand_canon _ _ h
      · exact ite_canon (sfCommand_canon _ _ h) h
    · exact plainWrite_canon _ _ _ _ _ h
  · split
    · split
      · exact egCommand_canon _ _ h
      · exact ite_canon (egCommand_canon _ _ h) h
    · exact plainWrite_canon _ _ _ _ _ h
  · exact pmuWrite_canon _ _ _ _ h
  · split
    · exact leCfg_canon _ _ h
    · split
      · split
        · exact plainWrite_canon _ _ _ _ _ h
        · exact leIgnored_canon _ h
      · split
        · exact ite_canon (leReset_canon _ h) h
        · split
          · split
            · exact queueCommand_canon _ _ h
            · exact ite_canon (queueCommand_canon _ _ h) h
          · exact plainWrite_canon _ _ _ _ _ h
  · exact epnWrite_canon _ _ _ _ h
  · split
    · exact vqfOp_canon _ _ _ h
    · split
      · exact vqfWrite_canon _ _ _ h
      · exact plainWrite_canon _ _ _ _ _ h
  · split
    · exact ite_canon (hioReset_canon _ h) h
    · exact plainWrite_canon _ _ _ _ _ h
  · exact rpWrite_canon _ _ _ _ h
  · split
    · exact dmatInv_canon _ _ h
    · split
      · exact hinfoWrite_canon _ _ h
      · split
        · exact dmatResume_canon _ _ h
        · exact plainWrite_canon _ _ _ _ _ h
  · split
    · exact plainWrite_canon _ _ _ _ _ h
    · split
      · exact mntAbort_canon _ h
      · exact plainWrite_canon _ _ _ _ _ h
  · exact sytWrite_canon _ _ _ h
  · exact pmWrite_canon _ _ _ h
  · exact fcWrite_canon _ _ _ h
  · split
    · exact dtCfgWrite_canon _ h
    · split
      · exact dtRateWrite_canon _ h
      · split
        · exact dtStep_canon _ h
        · split
          · exact dtSet_canon _ h
          · exact plainWrite_canon _ _ _ _ _ h
  · split
    · exact xspiOp_canon _ _ h
    · split
      · exact h
      · exact plainWrite_canon _ _ _ _ _ h
  · split
    · exact h
    · split
      · exact of_parts_canon (ite_canon (dbgOpen_canon _ _ h) h) rfl rfl
      · exact ite_canon (dbgOpen_canon _ _ h) h
  · split
    · next he =>
        exact thermCfg_canon _ h
    · exact plainWrite_canon _ _ _ _ _ h
  · exact carveWrite_canon _ _ _ h
  · exact plainWrite_canon _ _ _ _ _ h
  · exact plainWrite_canon _ _ _ _ _ h
  · exact plainWrite_canon _ _ _ _ _ h
  · exact plainWrite_canon _ _ _ _ _ h
  · exact plainWrite_canon _ _ _ _ _ h

theorem ctlWrite_canon {m : Mach} (c : Nat) (cap : Word) (g : Grant) (st k off : Nat) (w : Word) (x : CtlIn) (h : m.MemCanon) :
    (m.ctlWrite c cap g st k off w x).MemCanon := by
  dsimp only [Mach.ctlWrite]
  split
  · exact h
  · next _ _ _ he =>
      split
      · exact blkCtrl_canon _ _ _ h
      · split
        · exact unlock_canon _ _ _ h
        · split
          · exact violClear_canon _ _ _ _ h
          · split
            · exact h
            · split
              · next _ t he1 =>
                  have hke1 : t.MemCanon := SomeAll.elim he1 (protWrite_canon _ _ _ _ _ _ _ h) id
                  exact hke1
              · split
                · exact coreWrite_canon _ _ _ _ _ h
                · exact blockWrite_canon _ _ _ _ _ _ _ _ _ _ h

theorem cfgRead_canon {m : Mach} (c d r : Nat) (p : Piece) (h : m.MemCanon) : ResCanon (m.cfgRead c d r p) := by
  dsimp only [Mach.cfgRead]
  split
  · next _ t he =>
      have hk : t.MemCanon := of_snd_canon he (cfgIssue_canon _ _ _ _ h)
      exact setCore_canon _ _ hk
  · next _ t he =>
      have hk : t.MemCanon := of_snd_canon he (cfgIssue_canon _ _ _ _ h)
      exact setG_canon _ _ _ hk

theorem ctlrAt_canon {m : Mach} (c d : Nat) (p : Piece) (h : m.MemCanon) : ResCanon (m.ctlrAt c d p) := by
  dsimp only [Mach.ctlrAt]
  split
  · split
    · split
      · exact cfgRead_canon _ _ _ _ h
      · exact setG_canon _ _ _ (ctlRead_canon _ _ _ _ h)
    · exact setG_canon _ _ _ (ctlRead_canon _ _ _ _ h)
  · exact h

theorem ctlrBody_canon (c : Nat) (d a b : BitVec 6) {m : Mach} (h : m.MemCanon) : ResCanon (ctlrBody c d a b m) := by
  dsimp only [ctlrBody]
  split
  · exact trivial
  · split
    · exact trivial
    · next _ _ t he =>
        have hke : t.MemCanon := OkAll.elim he (check_canon _ _ _ _ h) id
        exact hke
    · next _ _ _ _ t he =>
        have hke : t.MemCanon := OkAll.elim he (check_canon _ _ _ _ h) id
        split
        · exact trivial
        · split
          · exact trivial
          · exact ctlrAt_canon _ _ _ hke

theorem ctlwAt_canon {m : Mach} (c : Nat) (cap : Word) (g : Grant) (w : Word) (p : Piece) (x : CtlIn) (h : m.MemCanon) :
    ResCanon (m.ctlwAt c cap g w p x) := by
  dsimp only [Mach.ctlwAt]
  split
  · next _ _ _ _ he =>
      split
      · split
        · next _ t he3 =>
            have hk3 : t.MemCanon := of_snd_canon he3 (cfgIssue_canon _ _ _ _ h)
            exact setCore_canon _ _ hk3
        · next _ t he3 =>
            have hk3 : t.MemCanon := of_snd_canon he3 (cfgIssue_canon _ _ _ _ h)
            exact hk3
      · split
        · exact ctlWrite_canon _ _ _ _ _ _ _ _ h
        · exact ctlWrite_canon _ _ _ _ _ _ _ _ h
  · exact h

theorem ctlwBody_canon (c : Nat) (src a b : BitVec 6) (x : CtlIn) {m : Mach} (h : m.MemCanon) : ResCanon (ctlwBody c src a b x m) := by
  dsimp only [ctlwBody]
  split
  · exact trivial
  · split
    · exact trivial
    · next _ _ t he =>
        have hke : t.MemCanon := OkAll.elim he (check_canon _ _ _ _ h) id
        exact hke
    · next _ _ _ _ t he =>
        have hke : t.MemCanon := OkAll.elim he (check_canon _ _ _ _ h) id
        split
        · exact trivial
        · split
          · exact trivial
          · split
            · exact holdRefused_canon _ _ (logSite_canon _ _ _ _ _ _ (serialPoint_canon _ hke))
            · exact ctlwAt_canon _ _ _ _ _ _ (serialPoint_canon _ hke)

/-! ### Canonical memory: floating point -/

theorem fpResult_canon {m : Mach} (c d : Nat) (r : Nat × Flags) (poison : Bool) (h : m.MemCanon) : ResCanon (m.fpResult c d r poison) :=
  setG_canon _ _ _ (accrue_canon _ _ h)

theorem fpBits_canon (c : Nat) (d a b : BitVec 6) (single : Bool) (op : Fp.Fmt → Nat → Nat → Nat × Flags) {m : Mach} (h : m.MemCanon) :
    (fpBits c d a b single op m).MemCanon :=
  instr_canon _ _ _ h (fun _ h1 => fpResult_canon _ _ _ _ h1)

theorem fp2_canon (c : Nat) (d a b : BitVec 6) (single : Bool) (op : Fp.Fmt → Nat → Fp.Val → Fp.Val → Nat × Flags) {m : Mach}
    (h : m.MemCanon) : (fp2 c d a b single op m).MemCanon :=
  fpBits_canon _ _ _ _ _ _ h

theorem fp1_canon (c : Nat) (d a : BitVec 6) (single : Bool) (op : Fp.Fmt → Nat → Fp.Val → Nat × Flags) {m : Mach} (h : m.MemCanon) :
    (fp1 c d a single op m).MemCanon :=
  instr_canon _ _ _ h (fun _ h1 => fpResult_canon _ _ _ _ h1)

theorem fp3_canon (c : Nat) (d a b : BitVec 6) (single : Bool) (op : Fp.Fmt → Nat → Fp.Val → Fp.Val → Fp.Val → Nat × Flags) {m : Mach}
    (h : m.MemCanon) : (fp3 c d a b single op m).MemCanon :=
  instr_canon _ _ _ h (fun _ h1 => fpResult_canon _ _ _ _ h1)

theorem fpCmp_canon (c : Nat) (d a b : BitVec 6) (single : Bool) (op : Fp.Val → Fp.Val → Bool × Flags) {m : Mach} (h : m.MemCanon) :
    (fpCmp c d a b single op m).MemCanon :=
  fpBits_canon _ _ _ _ _ _ h

theorem fpClass_canon (c : Nat) (d a : BitVec 6) (single : Bool) {m : Mach} (h : m.MemCanon) : (fpClass c d a single m).MemCanon :=
  instr_canon _ _ _ h (fun _ h1 => fpResult_canon _ _ _ _ h1)

theorem fpFrom_canon (c : Nat) (d a : BitVec 6) (op : Nat → W64 → Nat × Flags) {m : Mach} (h : m.MemCanon) : (fpFrom c d a op m).MemCanon :=
  instr_canon _ _ _ h (fun _ h1 => fpResult_canon _ _ _ _ h1)

theorem fpTo_canon (c : Nat) (d a : BitVec 6) (f : Fp.Fmt) (signed : Bool) {m : Mach} (h : m.MemCanon) : (fpTo c d a f signed m).MemCanon :=
  fpFrom_canon _ _ _ _ h

/-! ### Canonical memory: packed instructions -/

theorem pkLanes_canon (c : Nat) (d a b : BitVec 6) (w : BitVec 2) (f : Nat → W64 → W64 → W64) {m : Mach} (h : m.MemCanon) :
    (pkLanes c d a b w f m).MemCanon :=
  alu2If_canon _ _ _ _ _ _ h

/-! ### Canonical memory: vector operations -/

theorem setV_canon {m : Mach} (c r : Nat) (x : VReg) (h : m.MemCanon) : (m.setV c r x).MemCanon := setCore_canon _ _ h

theorem setMaskReg_canon {m : Mach} (c r : Nat) (x : MReg) (h : m.MemCanon) : (m.setMaskReg c r x).MemCanon := setCore_canon _ _ h

theorem vRetire_canon {m : Mach} (c : Nat) (h : m.MemCanon) : (m.vRetire c).MemCanon := setCore_canon _ _ h

theorem vinstr_canon (c : Nat) (legal : Bool) (body : Mach → Res) {m : Mach} (hbody : ∀ (a : Mach), a.MemCanon → ResCanon (body a))
    (h : m.MemCanon) : (vinstr c legal body m).MemCanon := by
  dsimp only [vinstr]
  refine instr_canon _ _ _ h ?_
  intro m1 h1
  split
  · exact trivial
  · split
    · exact trivial
    · exact hbody _ h1

theorem vWrite_canon {m : Mach} (c : Nat) (masked : Bool) (vd : Nat) (f : Nat → Option VElem) (h : m.MemCanon) :
    ResCanon (m.vWrite c masked vd f) :=
  vRetire_canon _ (accrue_canon _ _ (setV_canon _ _ _ h))

theorem vint_canon (c : Nat) (masked : Bool) (vd va : BitVec 5) (scalar : Bool) (b : BitVec 6) (acc : Bool)
    (f : Nat → Nat → Nat → Nat → Nat) {m : Mach} (h : m.MemCanon) : (vint c masked vd va scalar b acc f m).MemCanon :=
  vinstr_canon _ _ _ (fun _ h1 => vWrite_canon _ _ _ _ h1) h

theorem vfloat_canon (c : Nat) (masked : Bool) (vd va : BitVec 5) (scalar : Bool) (b : BitVec 6) (acc : Bool)
    (f : Fp.Fmt → Nat → Nat → Nat → Nat → Nat × Flags) {m : Mach} (h : m.MemCanon) : (vfloat c masked vd va scalar b acc f m).MemCanon := by
  dsimp only [vfloat]
  refine vinstr_canon _ _ _ ?_ h
  intro m1 h1
  split
  · exact trivial
  · exact vWrite_canon _ _ _ _ h1

theorem vfloat1_canon (c : Nat) (masked : Bool) (vd va : BitVec 5) (f : Fp.Fmt → Nat → Nat → Nat × Flags) {m : Mach} (h : m.MemCanon) :
    (vfloat1 c masked vd va f m).MemCanon := by
  dsimp only [vfloat1]
  refine vinstr_canon _ _ _ ?_ h
  intro m1 h1
  split
  · exact trivial
  · exact vWrite_canon _ _ _ _ h1

theorem vcmp_canon (c : Nat) (masked : Bool) (md : BitVec 3) (va : BitVec 5) (scalar : Bool) (b : BitVec 6) (fp : Bool)
    (f : Option Fp.Fmt → Nat → Nat → Nat → Bool × Flags) {m : Mach} (h : m.MemCanon) : (vcmp c masked md va scalar b fp f m).MemCanon := by
  dsimp only [vcmp]
  refine vinstr_canon _ _ _ ?_ h
  intro m1 h1
  split
  · exact trivial
  · exact vRetire_canon _ (accrue_canon _ _ (setMaskReg_canon _ _ _ h1))

theorem vmlogic_canon (c : Nat) (md ma mb : BitVec 3) (two : Bool) (f : Bool → Bool → Bool) {m : Mach} (h : m.MemCanon) :
    (vmlogic c md ma mb two f m).MemCanon :=
  vinstr_canon _ _ _ (fun _ h1 => vRetire_canon _ (setMaskReg_canon _ _ _ h1)) h

theorem vmread_canon (c : Nat) (d : BitVec 6) (ma : BitVec 3) (f : Nat → BitVec 128 → W64) {m : Mach} (h : m.MemCanon) :
    (vmread c d ma f m).MemCanon :=
  vinstr_canon _ _ _ (fun _ h1 => vRetire_canon _ (setG_canon _ _ _ h1)) h

theorem vmwrite_canon (c : Nat) (md : BitVec 3) (a : BitVec 6) (lo : Nat) {m : Mach} (h : m.MemCanon) : (vmwrite c md a lo m).MemCanon :=
  vinstr_canon _ _ _ (fun _ h1 => vRetire_canon _ (setMaskReg_canon _ _ _ h1)) h

theorem vmove_canon (c : Nat) (masked : Bool) (vd : BitVec 5) (f : Mach → Nat → Nat → Option (Nat × Bool)) {m : Mach} (h : m.MemCanon) :
    (vmove c masked vd f m).MemCanon :=
  vinstr_canon _ _ _ (fun _ h1 => vWrite_canon _ _ _ _ h1) h

theorem vreduce_canon (c : Nat) (d : BitVec 6) (va : BitVec 5) (b : BitVec 6) (f : Int → Int → Int) {m : Mach} (h : m.MemCanon) :
    (vreduce c d va b f m).MemCanon :=
  vinstr_canon _ _ _ (fun _ h1 => vRetire_canon _ (setG_canon _ _ _ h1)) h

theorem vfreduce_canon (c : Nat) (d : BitVec 6) (va : BitVec 5) (b : BitVec 6) {m : Mach} (h : m.MemCanon) :
    (vfreduce c d va b m).MemCanon := by
  dsimp only [vfreduce]
  refine vinstr_canon _ _ _ ?_ h
  intro m1 h1
  split
  · exact trivial
  · exact vRetire_canon _ (accrue_canon _ _ (setG_canon _ _ _ h1))

theorem vElemCheck_canon {m : Mach} (c : Nat) (g : Grant) (store : Bool) (i b : Nat) (ea : Int) (h : m.MemCanon) :
    OkAll (fun r => r.2.MemCanon) (m.vElemCheck c g store i b ea) := by
  dsimp only [Mach.vElemCheck]
  split
  · exact trivial
  · split
    · exact trivial
    · split
      · exact trivial
      · next _ _ t he =>
          have hke : t.MemCanon := OkAll.elim he (checkHalf_canon _ _ _ _ _ h) id
          split
          · split
            · exact hke
            · exact trivial
          · split
            · exact hke
            · exact trivial
          · split
            · exact hke
            · exact trivial
          · split
            · exact hke
            · exact trivial
          · split
            · exact hke
            · exact trivial
          · split
            · exact hke
            · exact trivial

theorem vElems_canon {m : Mach} (c : Nat) (g : Grant) (store : Bool) (b : Nat) (ea : Nat → Int) (idxPoison : Nat → Bool) (is : List Nat)
    (h : m.MemCanon) : OkAll (fun r => r.2.MemCanon) (m.vElems c g store b ea idxPoison is) := by
  induction is generalizing m with
  | nil => exact h
  | cons i is ih =>
    dsimp only [Mach.vElems]
    split
    · exact trivial
    · split
      · exact trivial
      · next he =>
        have h1 := OkAll.elim he (vElemCheck_canon _ _ _ _ _ _ h) id
        split
        · exact trivial
        · next he2 => exact OkAll.elim he2 (ih h1) id

theorem vInstrCheck_canon {m : Mach} (c : Nat) (cap : Word) (idxPoison store : Bool) (h : m.MemCanon) :
    OkAll (fun r => r.2.MemCanon) (m.vInstrCheck c cap idxPoison store) := by
  dsimp only [Mach.vInstrCheck]
  split
  · exact trivial
  · split
    · exact trivial
    · next _ _ _ t he =>
        have hke : t.MemCanon := OkAll.elim he (live_canon _ _ _ _ _ h) id
        split
        · exact trivial
        · split
          · split
            · exact trivial
            · exact hke
          · split
            · exact trivial
            · exact hke

theorem vRead_canon {m : Mach} (c b : Nat) (p : Piece) (h : m.MemCanon) : (m.vRead c b p).2.2.MemCanon := by
  dsimp only [Mach.vRead]
  split
  · split
    · exact drawn_canon (countUncore_canon _ _ _ h)
    · exact countReg_canon _ _ _ _ _ _ (countUncore_canon _ _ _ h)
  · exact readUpsets_canon _ _ _ _ h

theorem vLoadAll_canon {m : Mach} (c w : Nat) (r : VReg) (l : List VPiece) (h : m.MemCanon) : (m.vLoadAll c w r l).2.MemCanon := by
  induction l generalizing m r with
  | nil => exact h
  | cons q qs ih => exact ih _ (vRead_canon _ _ _ h)

theorem vPutWord_canon {m : Mach} (c : Nat) (q : Nat × VWord) (h : m.MemCanon) : (m.vPutWord c q).MemCanon :=
  l1Inval_canon _ _ (mirrorWrite_canon _ _ _ _ (setMeta_canon _ _ (writeN_canon _ _ _ (ownFor_canon _ _ _ h))))

theorem vHold_canon {m : Mach} (c : Nat) (g : Grant) (q : VPiece) (h : m.MemCanon) : (m.vHold c g q).MemCanon := by
  dsimp only [Mach.vHold]
  split
  · exact holdRefused_canon _ _ (logSite_canon _ _ _ _ _ _ h)
  · split
    · exact countUncore_canon _ _ _ h
    · exact h

theorem vStoreAll_canon {m : Mach} (c w : Nat) (g : Grant) (src : VReg) (qs : List VPiece) (h : m.MemCanon) :
    (m.vStoreAll c w g src qs).MemCanon :=
  foldl_keeps (P := Mach.MemCanon) _ _ (foldl_keeps (P := Mach.MemCanon) _ _ h (fun _ hb _ => vHold_canon _ _ _ hb))
    (fun _ hb _ => vPutWord_canon _ _ hb)

theorem vmem_canon (c : Nat) (legal masked store : Bool) (vd : BitVec 5) (a : BitVec 6) (idxPoison : Mach → Bool)
    (ea : Mach → Nat → Nat → Int) (elemPoison : Mach → Nat → Nat → Bool) {m : Mach} (h : m.MemCanon) :
      (vmem c legal masked store vd a idxPoison ea elemPoison m).MemCanon := by
  dsimp only [vmem]
  refine instr_canon _ _ _ h ?_
  intro m1 h1
  split
  · exact trivial
  · split
    · exact trivial
    · split
      · exact trivial
      · split
        · exact vRetire_canon _ h1
        · split
          · exact trivial
          · next _ _ t he =>
              have hke : t.MemCanon := OkAll.elim he (vInstrCheck_canon _ _ _ _ h1) id
              split
              · exact trivial
              · next _ _ t1 he1 =>
                  have hke1 : t1.MemCanon := OkAll.elim he1 (vElems_canon _ _ _ _ _ _ _ hke) id
                  split
                  · split
                    · exact hke1
                    · exact vRetire_canon _ (vStoreAll_canon _ _ _ _ _ hke1)
                  · split
                    · exact trivial
                    · exact vRetire_canon _ (setV_canon _ _ _ (vLoadAll_canon _ _ _ _ hke1))

theorem vUnit_canon (c : Nat) (masked store : Bool) (vd : BitVec 5) (a b : BitVec 6) {m : Mach} (h : m.MemCanon) :
    (vUnit c masked store vd a b m).MemCanon :=
  vmem_canon _ _ _ _ _ _ _ _ _ h

theorem vStride_canon (c : Nat) (masked store : Bool) (vd : BitVec 5) (a b : BitVec 6) {m : Mach} (h : m.MemCanon) :
    (vStride c masked store vd a b m).MemCanon :=
  vmem_canon _ _ _ _ _ _ _ _ _ h

theorem vIndexed_canon (c : Nat) (masked store : Bool) (vd : BitVec 5) (a : BitVec 6) (vb : BitVec 5) (s : BitVec 2) {m : Mach}
    (h : m.MemCanon) : (vIndexed c masked store vd a vb s m).MemCanon :=
  vmem_canon _ _ _ _ _ _ _ _ _ h

theorem setvl_canon (c : Nat) (d a : BitVec 6) (imm : BitVec 14) {m : Mach} (h : m.MemCanon) : (setvl c d a imm m).MemCanon := by
  dsimp only [setvl]
  refine instr_canon _ _ _ h ?_
  intro m1 h1
  split
  · exact trivial
  · split
    · exact trivial
    · exact setG_canon _ _ _ (setCore_canon _ _ h1)

end Sys2Proof.Machine

/-!
Every step keeps memory and its metadata in canonical form (O3): the lemmas of each operation put together, command by command.
-/

namespace Sys2Proof.Machine

/-- What a command answers holds a canonical machine. -/
def OutCanon (o : Out) : Prop := ∀ t : State, o = .next t → t.m.MemCanon

theorem out_canon {o : Out} {s : State} {t : Mach} (ho : o = .next (s.withM t)) (h : t.MemCanon) : OutCanon o := by
  subst ho
  intro u hu
  cases hu
  exact h

theorem recordPairRevoked_canon {s : State} (q i : Nat) (h : s.m.MemCanon) : OutCanon (exec (.recordPairRevoked q i) s) := by
  refine out_canon (s := s) rfl ?_
  dsimp only
  split
  · exact queueTick_canon _ (handBack_canon _ _ _ h)
  · exact h

theorem psenseFrameReceive_canon {s : State} (p : Nat) (f : PsFrame) (h : s.m.MemCanon) :
    OutCanon (exec (.psenseFrameReceive p f) s) := by
  refine out_canon (s := s) rfl (ite_canon h ?_)
  cases f with
  | badCrc => exact countReg_canon _ _ _ _ _ _ h
  | heartbeat b => exact psHeard_canon _ _ h
  | leave => exact setRegFld_canon _ _ _ _ _ _ (modPair_canon _ h)
  | fence id => exact fenceCommand_canon _ _ h

theorem fenceInAsserted_canon {s : State} (h : s.m.MemCanon) : OutCanon (exec .fenceInAsserted s) := by
  refine out_canon (s := s) rfl ?_
  dsimp only
  split
  · exact ite_canon h (partnerLost_canon _ (of_parts_canon h rfl rfl))
  · exact h

theorem pmcOvfClear_canon {s : State} (mst : Master) (st k : Nat) (v : W64) (h : s.m.MemCanon) :
    OutCanon (exec (.pmcOvfClear mst st k v) s) := by
  refine out_canon (s := s) rfl ?_
  dsimp only
  split
  · exact h
  · exact window_canon _ _ _ _ _ h fun _ h1 => ovfClear_canon _ _ _ h1

/-- Every command keeps memory and its metadata in canonical form. -/
theorem exec_canon (i : Instr) {s : State} (hs : s.m.MemCanon) : OutCanon (exec i s) := by
  cases i with
  | add c d a b => exact out_canon rfl (alu2_canon _ _ _ _ _ hs)
  | sub c d a b => exact out_canon rfl (alu2_canon _ _ _ _ _ hs)
  | and c d a b => exact out_canon rfl (alu2_canon _ _ _ _ _ hs)
  | or c d a b => exact out_canon rfl (alu2_canon _ _ _ _ _ hs)
  | xor c d a b => exact out_canon rfl (alu2_canon _ _ _ _ _ hs)
  | andn c d a b => exact out_canon rfl (alu2_canon _ _ _ _ _ hs)
  | orn c d a b => exact out_canon rfl (alu2_canon _ _ _ _ _ hs)
  | xnor c d a b => exact out_canon rfl (alu2_canon _ _ _ _ _ hs)
  | shl c d a b => exact out_canon rfl (alu2_canon _ _ _ _ _ hs)
  | shr c d a b => exact out_canon rfl (alu2_canon _ _ _ _ _ hs)
  | sra c d a b => exact out_canon rfl (alu2_canon _ _ _ _ _ hs)
  | ror c d a b => exact out_canon rfl (alu2_canon _ _ _ _ _ hs)
  | slt c d a b => exact out_canon rfl (alu2_canon _ _ _ _ _ hs)
  | sltu c d a b => exact out_canon rfl (alu2_canon _ _ _ _ _ hs)
  | seq c d a b => exact out_canon rfl (alu2_canon _ _ _ _ _ hs)
  | min c d a b => exact out_canon rfl (alu2_canon _ _ _ _ _ hs)
  | max c d a b => exact out_canon rfl (alu2_canon _ _ _ _ _ hs)
  | minu c d a b => exact out_canon rfl (alu2_canon _ _ _ _ _ hs)
  | maxu c d a b => exact out_canon rfl (alu2_canon _ _ _ _ _ hs)
  | clz c d a => exact out_canon rfl (alu1_canon _ _ _ _ hs)
  | ctz c d a => exact out_canon rfl (alu1_canon _ _ _ _ hs)
  | popc c d a => exact out_canon rfl (alu1_canon _ _ _ _ hs)
  | bswap c d a => exact out_canon rfl (alu1_canon _ _ _ _ hs)
  | sextb c d a => exact out_canon rfl (alu1_canon _ _ _ _ hs)
  | sexth c d a => exact out_canon rfl (alu1_canon _ _ _ _ hs)
  | sextw c d a => exact out_canon rfl (alu1_canon _ _ _ _ hs)
  | zextw c d a => exact out_canon rfl (alu1_canon _ _ _ _ hs)
  | csel c d a b => exact out_canon rfl (alu3_canon _ _ _ _ _ hs)
  | mul c d a b => exact out_canon rfl (alu2_canon _ _ _ _ _ hs)
  | mulh c d a b => exact out_canon rfl (alu2_canon _ _ _ _ _ hs)
  | mulhu c d a b => exact out_canon rfl (alu2_canon _ _ _ _ _ hs)
  | mulhsu c d a b => exact out_canon rfl (alu2_canon _ _ _ _ _ hs)
  | div c d a b => exact out_canon rfl (alu2_canon _ _ _ _ _ hs)
  | divu c d a b => exact out_canon rfl (alu2_canon _ _ _ _ _ hs)
  | rem c d a b => exact out_canon rfl (alu2_canon _ _ _ _ _ hs)
  | remu c d a b => exact out_canon rfl (alu2_canon _ _ _ _ _ hs)
  | addi c d a imm => exact out_canon rfl (alu1_canon _ _ _ _ hs)
  | andi c d a imm => exact out_canon rfl (alu1_canon _ _ _ _ hs)
  | ori c d a imm => exact out_canon rfl (alu1_canon _ _ _ _ hs)
  | xori c d a imm => exact out_canon rfl (alu1_canon _ _ _ _ hs)
  | slti c d a imm => exact out_canon rfl (alu1_canon _ _ _ _ hs)
  | sltiu c d a imm => exact out_canon rfl (alu1_canon _ _ _ _ hs)
  | shifti c d a imm => exact out_canon rfl (alu1If_canon _ _ _ _ _ hs)
  | oris c d a imm => exact out_canon rfl (alu1_canon _ _ _ _ hs)
  | bfx c d a imm => exact out_canon rfl (alu1If_canon _ _ _ _ _ hs)
  | ld c d a imm => exact out_canon rfl (loadImm_canon _ _ _ _ _ _ hs)
  | lw c d a imm => exact out_canon rfl (loadImm_canon _ _ _ _ _ _ hs)
  | lwu c d a imm => exact out_canon rfl (loadImm_canon _ _ _ _ _ _ hs)
  | sd c src a imm => exact out_canon rfl (storeImm_canon _ _ _ _ _ hs)
  | sw c src a imm => exact out_canon rfl (storeImm_canon _ _ _ _ _ hs)
  | lb c d a imm => exact out_canon rfl (loadImm_canon _ _ _ _ _ _ hs)
  | lbu c d a imm => exact out_canon rfl (loadImm_canon _ _ _ _ _ _ hs)
  | lh c d a imm => exact out_canon rfl (loadImm_canon _ _ _ _ _ _ hs)
  | lhu c d a imm => exact out_canon rfl (loadImm_canon _ _ _ _ _ _ hs)
  | sb c src a imm => exact out_canon rfl (storeImm_canon _ _ _ _ _ hs)
  | sh c src a imm => exact out_canon rfl (storeImm_canon _ _ _ _ _ hs)
  | lbx c d a b => exact out_canon rfl (loadIdx_canon _ _ _ _ _ _ hs)
  | lbux c d a b => exact out_canon rfl (loadIdx_canon _ _ _ _ _ _ hs)
  | lhx c d a b => exact out_canon rfl (loadIdx_canon _ _ _ _ _ _ hs)
  | lhux c d a b => exact out_canon rfl (loadIdx_canon _ _ _ _ _ _ hs)
  | lwx c d a b => exact out_canon rfl (loadIdx_canon _ _ _ _ _ _ hs)
  | lwux c d a b => exact out_canon rfl (loadIdx_canon _ _ _ _ _ _ hs)
  | ldx c d a b => exact out_canon rfl (loadIdx_canon _ _ _ _ _ _ hs)
  | sbx c src a b => exact out_canon rfl (storeIdx_canon _ _ _ _ _ hs)
  | shx c src a b => exact out_canon rfl (storeIdx_canon _ _ _ _ _ hs)
  | swx c src a b => exact out_canon rfl (storeIdx_canon _ _ _ _ _ hs)
  | sdx c src a b => exact out_canon rfl (storeIdx_canon _ _ _ _ _ hs)
  | amoswap c d a b order => exact out_canon rfl (amo_canon _ _ _ _ _ hs)
  | amoadd c d a b order => exact out_canon rfl (amo_canon _ _ _ _ _ hs)
  | amoand c d a b order => exact out_canon rfl (amo_canon _ _ _ _ _ hs)
  | amoor c d a b order => exact out_canon rfl (amo_canon _ _ _ _ _ hs)
  | amoxor c d a b order => exact out_canon rfl (amo_canon _ _ _ _ _ hs)
  | amomin c d a b order => exact out_canon rfl (amo_canon _ _ _ _ _ hs)
  | amomax c d a b order => exact out_canon rfl (amo_canon _ _ _ _ _ hs)
  | amominu c d a b order => exact out_canon rfl (amo_canon _ _ _ _ _ hs)
  | amomaxu c d a b order => exact out_canon rfl (amo_canon _ _ _ _ _ hs)
  | cas c d a b order => exact out_canon rfl (casBody_canon _ _ _ _ hs)
  | beq c a b h off => exact out_canon rfl (branch_canon _ _ _ _ _ _ hs)
  | bne c a b h off => exact out_canon rfl (branch_canon _ _ _ _ _ _ hs)
  | blt c a b h off => exact out_canon rfl (branch_canon _ _ _ _ _ _ hs)
  | jal c d off => exact out_canon rfl (jal_canon _ _ _ hs)
  | jalr c d a off => exact out_canon rfl (jalr_canon _ _ _ _ hs)
  | gmint c d a b => exact out_canon rfl (gmint_canon _ _ _ _ hs)
  | grevoke c d a b => exact out_canon rfl (grevoke_canon _ _ _ _ hs)
  | csetc c d a b => exact out_canon rfl (csetc_canon _ _ _ _ _ hs)
  | csetcA c d a b => exact out_canon rfl (csetc_canon _ _ _ _ _ hs)
  | csetcSr c n a b => exact out_canon rfl (csetcSr_canon _ _ _ _ hs)
  | cseal c d a b => exact out_canon rfl (sealInstr_canon _ _ _ _ _ hs)
  | cunseal c d a b => exact out_canon rfl (sealInstr_canon _ _ _ _ _ hs)
  | cgate c a => exact out_canon rfl (cgate_canon _ _ hs)
  | cretg c => exact out_canon rfl (cretg_canon _ hs)
  | ctest c d a => exact out_canon rfl (ctest_canon _ _ _ hs)
  | ldc c d a imm => exact out_canon rfl (ldcBody_canon _ _ _ _ hs)
  | stc c src a imm => exact out_canon rfl (stcBody_canon _ _ _ _ hs)
  | fadd c d a b single => exact out_canon rfl (fp2_canon _ _ _ _ _ _ hs)
  | fsub c d a b single => exact out_canon rfl (fp2_canon _ _ _ _ _ _ hs)
  | fmul c d a b single => exact out_canon rfl (fp2_canon _ _ _ _ _ _ hs)
  | fdiv c d a b single => exact out_canon rfl (fp2_canon _ _ _ _ _ _ hs)
  | fsqrt c d a single => exact out_canon rfl (fp1_canon _ _ _ _ _ hs)
  | fmin c d a b single => exact out_canon rfl (fpBits_canon _ _ _ _ _ _ hs)
  | fmax c d a b single => exact out_canon rfl (fpBits_canon _ _ _ _ _ _ hs)
  | fsgnj c d a b single => exact out_canon rfl (fpBits_canon _ _ _ _ _ _ hs)
  | fsgnjn c d a b single => exact out_canon rfl (fpBits_canon _ _ _ _ _ _ hs)
  | fsgnjx c d a b single => exact out_canon rfl (fpBits_canon _ _ _ _ _ _ hs)
  | feq c d a b single => exact out_canon rfl (fpCmp_canon _ _ _ _ _ _ hs)
  | flt c d a b single => exact out_canon rfl (fpCmp_canon _ _ _ _ _ _ hs)
  | fle c d a b single => exact out_canon rfl (fpCmp_canon _ _ _ _ _ _ hs)
  | fclass c d a single => exact out_canon rfl (fpClass_canon _ _ _ _ hs)
  | fmadd c d a b single => exact out_canon rfl (fp3_canon _ _ _ _ _ _ hs)
  | fmsub c d a b single => exact out_canon rfl (fp3_canon _ _ _ _ _ _ hs)
  | fnmadd c d a b single => exact out_canon rfl (fp3_canon _ _ _ _ _ _ hs)
  | fnmsub c d a b single => exact out_canon rfl (fp3_canon _ _ _ _ _ _ hs)
  | fcvtDL c d a => exact out_canon rfl (fpFrom_canon _ _ _ _ hs)
  | fcvtDLu c d a => exact out_canon rfl (fpFrom_canon _ _ _ _ hs)
  | fcvtLD c d a => exact out_canon rfl (fpTo_canon _ _ _ _ _ hs)
  | fcvtLuD c d a => exact out_canon rfl (fpTo_canon _ _ _ _ _ hs)
  | fcvtSL c d a => exact out_canon rfl (fpFrom_canon _ _ _ _ hs)
  | fcvtSLu c d a => exact out_canon rfl (fpFrom_canon _ _ _ _ hs)
  | fcvtLS c d a => exact out_canon rfl (fpTo_canon _ _ _ _ _ hs)
  | fcvtLuS c d a => exact out_canon rfl (fpTo_canon _ _ _ _ _ hs)
  | fcvtSD c d a => exact out_canon rfl (fpFrom_canon _ _ _ _ hs)
  | fcvtDS c d a => exact out_canon rfl (fpFrom_canon _ _ _ _ hs)
  | fcvtHS c d a => exact out_canon rfl (fpFrom_canon _ _ _ _ hs)
  | fcvtSH c d a => exact out_canon rfl (fpFrom_canon _ _ _ _ hs)
  | fcvtBS c d a => exact out_canon rfl (fpFrom_canon _ _ _ _ hs)
  | fcvtSB c d a => exact out_canon rfl (fpFrom_canon _ _ _ _ hs)
  | pkadd c d a b w => exact out_canon rfl (pkLanes_canon _ _ _ _ _ _ hs)
  | pksub c d a b w => exact out_canon rfl (pkLanes_canon _ _ _ _ _ _ hs)
  | pkaddss c d a b w => exact out_canon rfl (pkLanes_canon _ _ _ _ _ _ hs)
  | pkaddus c d a b w => exact out_canon rfl (pkLanes_canon _ _ _ _ _ _ hs)
  | pksubss c d a b w => exact out_canon rfl (pkLanes_canon _ _ _ _ _ _ hs)
  | pksubus c d a b w => exact out_canon rfl (pkLanes_canon _ _ _ _ _ _ hs)
  | pkmin c d a b w => exact out_canon rfl (pkLanes_canon _ _ _ _ _ _ hs)
  | pkmax c d a b w => exact out_canon rfl (pkLanes_canon _ _ _ _ _ _ hs)
  | pkminu c d a b w => exact out_canon rfl (pkLanes_canon _ _ _ _ _ _ hs)
  | pkmaxu c d a b w => exact out_canon rfl (pkLanes_canon _ _ _ _ _ _ hs)
  | pkmeanu c d a b w => exact out_canon rfl (pkLanes_canon _ _ _ _ _ _ hs)
  | pkdifu c d a b w => exact out_canon rfl (pkLanes_canon _ _ _ _ _ _ hs)
  | pkeq c d a b w => exact out_canon rfl (pkLanes_canon _ _ _ _ _ _ hs)
  | pkgt c d a b w => exact out_canon rfl (pkLanes_canon _ _ _ _ _ _ hs)
  | pkgtu c d a b w => exact out_canon rfl (pkLanes_canon _ _ _ _ _ _ hs)
  | pkmul c d a b w => exact out_canon rfl (pkLanes_canon _ _ _ _ _ _ hs)
  | pkshl c d a b w => exact out_canon rfl (pkLanes_canon _ _ _ _ _ _ hs)
  | pkshr c d a b w => exact out_canon rfl (pkLanes_canon _ _ _ _ _ _ hs)
  | pksra c d a b w => exact out_canon rfl (pkLanes_canon _ _ _ _ _ _ hs)
  | pksel c d a b => exact out_canon rfl (alu3_canon _ _ _ _ _ hs)
  | pknrw16s c d a b => exact out_canon rfl (alu2_canon _ _ _ _ _ hs)
  | pknrw16u c d a b => exact out_canon rfl (alu2_canon _ _ _ _ _ hs)
  | pknrw32s c d a b => exact out_canon rfl (alu2_canon _ _ _ _ _ hs)
  | pkzipl8 c d a b => exact out_canon rfl (alu2_canon _ _ _ _ _ hs)
  | pkziph8 c d a b => exact out_canon rfl (alu2_canon _ _ _ _ _ hs)
  | pkzipl16 c d a b => exact out_canon rfl (alu2_canon _ _ _ _ _ hs)
  | pkziph16 c d a b => exact out_canon rfl (alu2_canon _ _ _ _ _ hs)
  | pkdot16 c d a b => exact out_canon rfl (alu2_canon _ _ _ _ _ hs)
  | pkdotu8 c d a b => exact out_canon rfl (alu2_canon _ _ _ _ _ hs)
  | pkdifsum8 c d a b => exact out_canon rfl (alu2_canon _ _ _ _ _ hs)
  | pksumu8 c d a => exact out_canon rfl (alu1_canon _ _ _ _ hs)
  | pksums16 c d a => exact out_canon rfl (alu1_canon _ _ _ _ hs)
  | ctlr c d a b => exact out_canon rfl (instr_canon _ _ _ hs (fun _ h1 => ctlrBody_canon _ _ _ _ h1))
  | ctlw c src a b x => exact out_canon rfl (instr_canon _ _ _ hs (fun _ h1 => ctlwBody_canon _ _ _ _ _ h1))
  | fence c mask => exact out_canon rfl (fence_canon _ _ hs)
  | mfence c => exact out_canon rfl (mfence_canon _ hs)
  | isync c => exact out_canon rfl (isync_canon _ hs)
  | halt c => exact out_canon rfl (halt_canon _ hs)
  | rdsr c d n => exact out_canon rfl (rdsr_canon _ _ _ hs)
  | wrsr c n a => exact out_canon rfl (wrsr_canon _ _ _ hs)
  | ltake c d a => exact out_canon rfl (ltake_canon _ _ _ hs)
  | lout c d a b => exact out_canon rfl (lout_canon _ _ _ _ hs)
  | lret c d a => exact out_canon rfl (lret_canon _ _ _ hs)
  | lput c d a b => exact out_canon rfl (lput_canon _ _ _ _ hs)
  | lstat c d a => exact out_canon rfl (lstat_canon _ _ _ hs)
  | lhand c d a => exact out_canon rfl (lhand_canon _ _ _ hs)
  | mntq c d a b => exact out_canon rfl (mntq_canon _ _ _ _ hs)
  | mntt c d a => exact out_canon rfl (mntt_canon _ _ _ _ hs)
  | mnttW c d a => exact out_canon rfl (mntt_canon _ _ _ _ hs)
  | ewait c d a => exact out_canon rfl (ewait_canon _ _ _ hs)
  | esig c a => exact out_canon rfl (esig_canon _ _ hs)
  | loop c lv a len => exact out_canon rfl (loopInstr_canon _ _ _ _ hs)
  | loopi c lv count len => exact out_canon rfl (loopInstr_canon _ _ _ _ hs)
  | setvl c d a imm => exact out_canon rfl (setvl_canon _ _ _ _ hs)
  | vld c k vd a b => exact out_canon rfl (vUnit_canon _ _ _ _ _ _ hs)
  | vst c k vd a b => exact out_canon rfl (vUnit_canon _ _ _ _ _ _ hs)
  | vlds c k vd a b => exact out_canon rfl (vStride_canon _ _ _ _ _ _ hs)
  | vsts c k vd a b => exact out_canon rfl (vStride_canon _ _ _ _ _ _ hs)
  | vgather c k vd a vb sc => exact out_canon rfl (vIndexed_canon _ _ _ _ _ _ _ hs)
  | vscatter c k vd a vb sc => exact out_canon rfl (vIndexed_canon _ _ _ _ _ _ _ hs)
  | vadd c k vd va scalar b => exact out_canon rfl (vint_canon _ _ _ _ _ _ _ _ hs)
  | vsub c k vd va scalar b => exact out_canon rfl (vint_canon _ _ _ _ _ _ _ _ hs)
  | vand c k vd va scalar b => exact out_canon rfl (vint_canon _ _ _ _ _ _ _ _ hs)
  | vor c k vd va scalar b => exact out_canon rfl (vint_canon _ _ _ _ _ _ _ _ hs)
  | vxor c k vd va scalar b => exact out_canon rfl (vint_canon _ _ _ _ _ _ _ _ hs)
  | vshl c k vd va scalar b => exact out_canon rfl (vint_canon _ _ _ _ _ _ _ _ hs)
  | vshr c k vd va scalar b => exact out_canon rfl (vint_canon _ _ _ _ _ _ _ _ hs)
  | vsra c k vd va scalar b => exact out_canon rfl (vint_canon _ _ _ _ _ _ _ _ hs)
  | vmin c k vd va scalar b => exact out_canon rfl (vint_canon _ _ _ _ _ _ _ _ hs)
  | vmax c k vd va scalar b => exact out_canon rfl (vint_canon _ _ _ _ _ _ _ _ hs)
  | vminu c k vd va scalar b => exact out_canon rfl (vint_canon _ _ _ _ _ _ _ _ hs)
  | vmaxu c k vd va scalar b => exact out_canon rfl (vint_canon _ _ _ _ _ _ _ _ hs)
  | vmul c k vd va scalar b => exact out_canon rfl (vint_canon _ _ _ _ _ _ _ _ hs)
  | vmulh c k vd va scalar b => exact out_canon rfl (vint_canon _ _ _ _ _ _ _ _ hs)
  | vmulhu c k vd va scalar b => exact out_canon rfl (vint_canon _ _ _ _ _ _ _ _ hs)
  | vmacc c k vd va scalar b => exact out_canon rfl (vint_canon _ _ _ _ _ _ _ _ hs)
  | vadds c k vd va scalar b => exact out_canon rfl (vint_canon _ _ _ _ _ _ _ _ hs)
  | vaddus c k vd va scalar b => exact out_canon rfl (vint_canon _ _ _ _ _ _ _ _ hs)
  | vsubs c k vd va scalar b => exact out_canon rfl (vint_canon _ _ _ _ _ _ _ _ hs)
  | vsubus c k vd va scalar b => exact out_canon rfl (vint_canon _ _ _ _ _ _ _ _ hs)
  | vfadd c k vd va scalar b => exact out_canon rfl (vfloat_canon _ _ _ _ _ _ _ _ hs)
  | vfsub c k vd va scalar b => exact out_canon rfl (vfloat_canon _ _ _ _ _ _ _ _ hs)
  | vfmul c k vd va scalar b => exact out_canon rfl (vfloat_canon _ _ _ _ _ _ _ _ hs)
  | vfdiv c k vd va scalar b => exact out_canon rfl (vfloat_canon _ _ _ _ _ _ _ _ hs)
  | vfsqrt c k vd va => exact out_canon rfl (vfloat1_canon _ _ _ _ _ hs)
  | vfmin c k vd va scalar b => exact out_canon rfl (vfloat_canon _ _ _ _ _ _ _ _ hs)
  | vfmax c k vd va scalar b => exact out_canon rfl (vfloat_canon _ _ _ _ _ _ _ _ hs)
  | vfmacc c k vd va scalar b => exact out_canon rfl (vfloat_canon _ _ _ _ _ _ _ _ hs)
  | vfnmsac c k vd va scalar b => exact out_canon rfl (vfloat_canon _ _ _ _ _ _ _ _ hs)
  | vfcvtFX c k vd va => exact out_canon rfl (vfloat1_canon _ _ _ _ _ hs)
  | vfcvtXF c k vd va => exact out_canon rfl (vfloat1_canon _ _ _ _ _ hs)
  | vmseq c k md va scalar b => exact out_canon rfl (vcmp_canon _ _ _ _ _ _ _ _ hs)
  | vmsne c k md va scalar b => exact out_canon rfl (vcmp_canon _ _ _ _ _ _ _ _ hs)
  | vmslt c k md va scalar b => exact out_canon rfl (vcmp_canon _ _ _ _ _ _ _ _ hs)
  | vmsltu c k md va scalar b => exact out_canon rfl (vcmp_canon _ _ _ _ _ _ _ _ hs)
  | vmfeq c k md va scalar b => exact out_canon rfl (vcmp_canon _ _ _ _ _ _ _ _ hs)
  | vmflt c k md va scalar b => exact out_canon rfl (vcmp_canon _ _ _ _ _ _ _ _ hs)
  | vmfle c k md va scalar b => exact out_canon rfl (vcmp_canon _ _ _ _ _ _ _ _ hs)
  | vmand c md ma mb => exact out_canon rfl (vmlogic_canon _ _ _ _ _ _ hs)
  | vmor c md ma mb => exact out_canon rfl (vmlogic_canon _ _ _ _ _ _ hs)
  | vmxor c md ma mb => exact out_canon rfl (vmlogic_canon _ _ _ _ _ _ hs)
  | vmandn c md ma mb => exact out_canon rfl (vmlogic_canon _ _ _ _ _ _ hs)
  | vmnot c md ma => exact out_canon rfl (vmlogic_canon _ _ _ _ _ _ hs)
  | vmpopc c d ma => exact out_canon rfl (vmread_canon _ _ _ _ hs)
  | vmfirst c d ma => exact out_canon rfl (vmread_canon _ _ _ _ hs)
  | vmrdl c d ma => exact out_canon rfl (vmread_canon _ _ _ _ hs)
  | vmrdh c d ma => exact out_canon rfl (vmread_canon _ _ _ _ hs)
  | vmwrl c md a => exact out_canon rfl (vmwrite_canon _ _ _ _ hs)
  | vmwrh c md a => exact out_canon rfl (vmwrite_canon _ _ _ _ hs)
  | vmvVX c k vd a => exact out_canon rfl (vmove_canon _ _ _ _ hs)
  | vmvXS c d va => exact out_canon rfl (vinstr_canon _ _ _ (fun _ h1 => vRetire_canon _ (setG_canon _ _ _ h1)) hs)
  | vmvVV c k vd va => exact out_canon rfl (vmove_canon _ _ _ _ hs)
  | vid c k vd => exact out_canon rfl (vmove_canon _ _ _ _ hs)
  | vrgather c k vd va vb => exact out_canon rfl (vmove_canon _ _ _ _ hs)
  | vslidedn c k vd va b => exact out_canon rfl (vmove_canon _ _ _ _ hs)
  | vslideup c k vd va b => exact out_canon rfl (vmove_canon _ _ _ _ hs)
  | vredsum c d va b => exact out_canon rfl (vreduce_canon _ _ _ _ _ hs)
  | vredmax c d va b => exact out_canon rfl (vreduce_canon _ _ _ _ _ hs)
  | vredmin c d va b => exact out_canon rfl (vreduce_canon _ _ _ _ _ hs)
  | vfredsum c d va b => exact out_canon rfl (vfreduce_canon _ _ _ _ hs)
  | takeEventException c vec => exact out_canon rfl (takeIf_canon _ _ _ hs)
  | takeNmi c vec => exact out_canon rfl (nmiAt_canon _ _ hs)
  | refusedStoreResponse c a r addr phys old => exact out_canon rfl (refusedResponse_canon _ _ _ _ _ _ hs)
  | takeRefusedStore c => exact out_canon rfl (takeIf_canon _ _ _ hs)
  | timerExpires c => exact out_canon rfl (timerExpires_canon _ hs)
  | eventDelivery n => exact out_canon rfl (deliverEvent_canon _ hs)
  | sytEvrRouteWrite mst v => exact out_canon rfl (writeRoute_canon _ _ hs)
  | sytEvrFire mst v => exact out_canon rfl (fireEvent_canon _ _ hs)
  | nmiNAssert => exact out_canon rfl (nmiAssert_canon hs)
  | stop mst c vec => exact out_canon rfl (coreWindow_canon _ _ _ _ hs (fun _ h1 => stopCmd_canon _ _ _ h1))
  | stopComplete c => exact out_canon rfl (stopComplete_canon _ hs)
  | resume mst c => exact out_canon rfl (coreWindow_canon _ _ _ _ hs (fun _ h1 => resumeCmd_canon _ _ h1))
  | restart mst c => exact out_canon rfl (coreWindow_canon _ _ _ _ hs (fun _ h1 => restartCmd_canon _ _ h1))
  | ctxRegisterWrite mst c off w => exact out_canon rfl (coreWindow_canon _ _ _ _ hs (fun _ h1 => ctxWrite_canon _ _ _ h1))
  | expertUnlockWrite mst st k v => exact out_canon rfl (window_canon _ _ _ _ _ hs (fun _ h1 => unlock_canon _ _ _ h1))
  | blkCtrlWrite mst st k v => exact out_canon rfl (window_canon _ _ _ _ _ hs (fun _ h1 => blkCtrl_canon _ _ _ h1))
  | disableComplete st k => exact out_canon rfl (disabledState_canon _ _ hs)
  | violAddrClear mst st k v arrivals => exact out_canon rfl (window_canon _ _ _ _ _ hs (fun _ h1 => violClear_canon _ _ _ _ h1))
  | serialiseTimeout c => exact out_canon rfl (serialise_canon _ hs)
  | podReset mst p lost => exact out_canon rfl (ite_canon hs (window_canon _ _ _ _ _ hs (fun _ h1 => ite_canon (podReset_canon _ _ h1) h1)))
  | ccReset mst k lost => exact out_canon rfl (ite_canon hs (window_canon _ _ _ _ _ hs (fun _ h1 => ite_canon (ccReset_canon _ _ h1) h1)))
  | ccoreL1Disable mst c => exact out_canon rfl (ite_canon (coreWindow_canon _ _ _ _ hs (fun _ h1 => l1Disable_canon _ h1)) hs)
  | ccoreBtbFlush mst c => exact out_canon rfl (ite_canon (coreWindow_canon _ _ _ _ hs (fun _ h1 => setCore_canon _ _ h1)) hs)
  | mbIdleDrain c i => exact out_canon rfl (drainOldest_canon _ _ hs)
  | prefetchIssue c w trained va => exact out_canon rfl (prefetch_canon _ _ _ _ hs)
  | l2HardwareClean mst c => exact out_canon rfl (ite_canon hs (coreWindow_canon _ _ _ _ hs (fun _ h1 => cleanL2_canon _ h1)))
  | l3Disable mst p => exact out_canon rfl (ite_canon hs (window_canon _ _ _ _ _ hs (fun _ h1 => disableL3_canon _ h1)))
  | rds a line tc victim pinned => exact out_canon rfl (cacheReq_canon _ _ _ _ _ _ hs)
  | rdx a line tc victim pinned => exact out_canon rfl (cacheReq_canon _ _ _ _ _ _ hs)
  | upg a line tc victim pinned => exact out_canon rfl (cacheReq_canon _ _ _ _ _ _ hs)
  | rdu mst line tc => exact out_canon rfl (submit_canon _ hs)
  | wru mst line tc mask data poison => exact out_canon rfl (submit_canon _ hs)
  | wrm mst line tc mask data poison => exact out_canon rfl (ite_canon hs (submit_canon _ hs))
  | atomf mst line tc i op a b => exact out_canon rfl (submit_canon _ hs)
  | wbd a line => exact out_canon rfl (writeback_canon _ _ hs)
  | evc a line => exact out_canon rfl (evict_canon _ _ hs)
  | snpk a line wb => exact out_canon rfl (snoop_canon _ _ _ _ hs)
  | snpx a line wb => exact out_canon rfl (snoop_canon _ _ _ _ hs)
  | snpi a line => exact out_canon rfl (snoop_canon _ _ _ _ hs)
  | snpc a line wb => exact out_canon rfl (snoop_canon _ _ _ _ hs)
  | data stop unit line => exact out_canon rfl (arrive_canon _ _ _ _ hs)
  | go stop unit line => exact out_canon rfl (arrive_canon _ _ _ _ hs)
  | rsps a line => exact out_canon rfl (answer_canon _ _ _ hs)
  | rspi a line => exact out_canon rfl (answer_canon _ _ _ hs)
  | rspwbf a line => exact out_canon rfl (answer_canon _ _ _ hs)
  | cmp stop unit line => exact out_canon rfl (cmp_canon _ _ _ hs)
  | wback a line => exact out_canon rfl (of_parts_canon hs rfl rfl)
  | retry stop unit line => exact out_canon rfl (retryTold_canon _ _ _ hs)
  | credit p => exact out_canon rfl (credit_canon _ hs)
  | sliceTableWrite v => exact out_canon rfl (moveBucket_canon _ hs)
  | bucketMoveComplete => exact out_canon rfl (moveDone_canon hs)
  | flitReceive st tc0 ce bad header => exact out_canon rfl (flit_canon _ _ _ _ _ hs)
  | maintenanceCommand n => exact out_canon rfl (lineCommand_canon _ hs)
  | slotDone n => exact out_canon rfl (slotDone_canon _ hs)
  | mntAbort mst v => exact out_canon rfl (window_canon _ _ _ _ _ hs (fun _ h1 => mntAbort_canon _ h1))
  | mcRequest mst line tc op summMiss slots => exact out_canon rfl (mcRequest_canon _ _ _ _ _ _ hs)
  | mcOrderWrite mst mc compat => exact out_canon rfl (ite_canon hs (window_canon _ _ _ _ _ hs (fun _ h1 => orderWrite_canon _ _ h1)))
  | refresh ch sub rank bank postpone => exact out_canon rfl (refresh_canon _ _ _ _ _ hs)
  | calibration ch sub => exact out_canon rfl (calibrate_canon _ _ hs)
  | dphyFail mst ch => exact out_canon rfl (ite_canon hs (window_canon _ _ _ _ _ hs (fun _ h1 => failChannel_canon _ _ h1)))
  | dphyRetrain mst ch => exact out_canon rfl (ite_canon hs (window_canon _ _ _ _ _ hs (fun _ h1 => retrain_canon _ h1)))
  | parityRetryFail ch => exact out_canon rfl (ite_canon (failChannel_canon _ _ hs) hs)
  | bankmaskWrite mst ch j v => exact out_canon rfl (ite_canon hs (window_canon _ _ _ _ _ hs (fun _ h1 => bankMask_canon _ _ _ h1)))
  | spprStart mst mc v result => exact out_canon rfl (ite_canon hs (window_canon _ _ _ _ _ hs (fun _ h1 => sppr_canon _ _ _ h1)))
  | patrolScrub mc => exact out_canon rfl (patrol_canon _ hs)
  | internalPatrol st k => exact out_canon rfl (innerPatrol_canon _ _ hs)
  | regionInitWalk ch => exact out_canon rfl (ite_canon hs (walkRegion_canon _ hs))
  | protRemapWrite mst st k v => exact out_canon rfl (window_canon _ _ _ _ _ hs (fun _ h1 => remapWrite_canon _ _ _ h1))
  | protLogselWrite mst st k v => exact out_canon rfl (window_canon _ _ _ _ _ hs (fun _ h1 => logSelWrite_canon _ _ _ h1))
  | faultOccurrence rs known => exact out_canon rfl (cycle_canon _ _ (arrived_canon _ hs))
  | collectorSelfFault kind off => exact out_canon rfl (selfFault_canon _ _ _ hs)
  | fcPendClear mst n v => exact out_canon rfl (ite_canon hs (window_canon _ _ _ _ _ hs (fun _ h1 => pendClear_canon _ _ h1)))
  | fcFeClear mst => exact out_canon rfl (window_canon _ _ _ _ _ hs (fun _ h1 => feClear_canon h1))
  | fcCaldForce mst key => exact out_canon rfl (window_canon _ _ _ _ _ hs (fun _ h1 => ite_canon (caldera_canon _ _ _ _ h1) h1))
  | fcInjGo mst v known => exact out_canon rfl (window_canon _ _ _ _ _ hs (fun _ h1 => inject_canon _ _ h1))
  | fcInjSelf mst v => exact out_canon rfl (window_canon _ _ _ _ _ hs (fun _ h1 => inject_canon _ _ h1))
  | fcCfglock mst => exact out_canon rfl (window_canon _ _ _ _ _ hs (fun _ h1 => cfgLock_canon _ h1))
  | shadowEnd st => exact out_canon rfl (of_parts_canon hs rfl rfl)
  | frameReceive q f => exact out_canon rfl (frameReceive_canon _ _ hs)
  | pauseReceive q pfc enable times => exact out_canon rfl (ite_canon hs (pauseFrame_canon _ _ _ _ hs))
  | linkUp q => exact out_canon rfl (portUp_canon _ hs)
  | linkDown q why => exact out_canon rfl (portDown_canon _ _ hs)
  | downholdExpiry q => exact out_canon rfl (downHoldEnd_canon _ hs)
  | frameTransmit q part late => exact out_canon rfl (transmit_canon _ _ _ hs)
  | gclChange q => exact out_canon rfl (gclChange_canon _ hs)
  | gclIntervalEnd q => exact out_canon rfl (gclInterval_canon _ hs)
  | streamGateIntervalEnd px g => exact out_canon rfl (gateInterval_canon _ _ hs)
  | recoveryResetTimeout px i => exact out_canon rfl (rcvTimeout_canon _ _ hs)
  | preemptVerify q ok => exact out_canon rfl (preemptVerify_canon _ _ hs)
  | txtsInfoRead mst q => exact out_canon rfl (ite_canon hs (windowRead_canon _ _ _ _ _ hs (fun _ h1 => readTxts_canon _ h1)))
  | pxSfRead mst px => exact out_canon rfl (ite_canon hs (window_canon _ _ _ _ _ hs (fun _ h1 => sfCommand_canon _ _ h1)))
  | pxSfWrite mst px => exact out_canon rfl (ite_canon hs (window_canon _ _ _ _ _ hs (fun _ h1 => sfCommand_canon _ _ h1)))
  | pxEgRead mst px => exact out_canon rfl (ite_canon hs (window_canon _ _ _ _ _ hs (fun _ h1 => egCommand_canon _ _ h1)))
  | pxEgWrite mst px => exact out_canon rfl (ite_canon hs (window_canon _ _ _ _ _ hs (fun _ h1 => egCommand_canon _ _ h1)))
  | pxReset mst px => exact out_canon rfl (ite_canon hs (window_canon _ _ _ _ _ hs (fun _ h1 => ite_canon (pxReset_canon _ h1) h1)))
  | pxPortCfgWrite mst q v => exact out_canon rfl (ite_canon hs (window_canon _ _ _ _ _ hs (fun _ h1 => portCfg_canon _ _ h1)))
  | pxPairWrite mst px n v => exact out_canon rfl (ite_canon hs (window_canon _ _ _ _ _ hs (fun _ h1 => pairWrite_canon _ _ _ h1)))
  | iresume mst q v => exact out_canon rfl (ite_canon hs (window_canon _ _ _ _ _ hs (fun _ h1 => portDma_canon _ _ h1)))
  | eresume mst q v => exact out_canon rfl (ite_canon hs (window_canon _ _ _ _ _ hs (fun _ h1 => portDma_canon _ _ h1)))
  | recordAdmit px => exact out_canon rfl (recordAdmit_canon _ hs)
  | recordAccept q n => exact out_canon rfl (raiseTick_canon (recordAccept_canon _ _ hs))
  | recordDeliver q bad partnerBad => exact out_canon rfl (recordDeliver_canon _ _ _ hs)
  | recordRelease q => exact out_canon rfl (recordRelease_canon _ hs)
  | recordSent q n => exact out_canon rfl (recordSent_canon _ _ hs)
  | recordPairRevoked q i => exact recordPairRevoked_canon q i hs
  | leQRead mst e => exact out_canon rfl (ite_canon hs (window_canon _ _ _ _ _ hs (fun _ h1 => queueCommand_canon _ _ h1)))
  | leQWrite mst e => exact out_canon rfl (ite_canon hs (window_canon _ _ _ _ _ hs (fun _ h1 => queueCommand_canon _ _ h1)))
  | leReset mst e => exact out_canon rfl (ite_canon hs (window_canon _ _ _ _ _ hs (fun _ h1 => ite_canon (leReset_canon _ h1) h1)))
  | ledgerRebuildComplete e => exact out_canon rfl (rebuilt_canon _ hs)
  | epnisFrameReceive l num corr bad ack nak b => exact out_canon rfl (ite_canon hs (epnisIn_canon _ _ _ _ _ _ _ hs))
  | epnisLinkDown l => exact out_canon rfl (ite_canon hs (linkLost_canon _ hs))
  | epnisLinkUp l => exact out_canon rfl (ite_canon hs (linkGained_canon _ hs))
  | psenseFrameReceive p f => exact psenseFrameReceive_canon p f hs
  | heartbeatSend => exact out_canon rfl (heartbeatSend_canon hs)
  | heartbeatPeriodEnd => exact out_canon rfl (periodEnd_canon hs)
  | fenceInAsserted => exact fenceInAsserted_canon hs
  | fenceCommandReceive path id => exact out_canon rfl (ite_canon hs (fenceCommand_canon _ _ hs))
  | takeover => exact out_canon rfl (takeover_canon hs)
  | pairJoin mst e => exact out_canon rfl (ite_canon hs (window_canon _ _ _ _ _ hs (fun _ h1 => pairJoin_canon h1)))
  | pairFence mst e => exact out_canon rfl (ite_canon hs (window_canon _ _ _ _ _ hs (fun _ h1 => pairFence_canon h1)))
  | pairRaise mst e => exact out_canon rfl (ite_canon hs (window_canon _ _ _ _ _ hs (fun _ h1 => pairRaise_canon h1)))
  | raiseTimeout => exact out_canon rfl (raiseEnd_canon hs)
  | pairTakeoverCmd mst e key => exact out_canon rfl (ite_canon hs (window_canon _ _ _ _ _ hs (fun _ h1 => pairTakeover_canon _ h1)))
  | joinHandshake p => exact out_canon rfl (joinShake_canon _ hs)
  | resyncComplete => exact out_canon rfl (resyncDone_canon hs)
  | mirroredRecordReceive q n r first => exact out_canon rfl (mirrorIn_canon _ _ _ _ hs)
  | releaseMarkerReceive q n => exact out_canon rfl (markerIn_canon _ _ hs)
  | mirrorAckReceive a => exact out_canon rfl (raiseTick_canon (partnerAck_canon _ hs))
  | forwardedWriteReceive l line mask data poison => exact out_canon rfl (ite_canon hs (forwardIn_canon _ _ _ _ _ hs))
  | dropMarkerReceive q => exact out_canon rfl (dropIn_canon _ hs)
  | partnerCopyRead q n => exact out_canon rfl (ite_canon (epnSend_canon _ hs) hs)
  | epnMwRead mst e mir => exact out_canon rfl (ite_canon hs (window_canon _ _ _ _ _ hs (fun _ h1 => mwRead_canon _ h1)))
  | epnMwWrite mst e mir => exact out_canon rfl (ite_canon hs (window_canon _ _ _ _ _ hs (fun _ h1 => mwWrite_canon _ h1)))
  | epnRoleWrite mst e n v => exact out_canon rfl (ite_canon hs (window_canon _ _ _ _ _ hs (fun _ h1 => roleWrite_canon _ _ _ h1)))
  | vqfEnable mst e =>
    exact out_canon rfl (ite_canon hs (window_canon _ _ _ _ _ hs (fun _ h1 => vqfCommand_canon _ _ _ h1
      (fun _ h2 _ => vqfEnable_canon _ _ h2))))
  | vqfDisable mst e =>
    exact out_canon rfl (ite_canon hs (window_canon _ _ _ _ _ hs (fun _ h1 => vqfCommand_canon _ _ _ h1
      (fun _ h2 _ => vqfDisable_canon _ _ h2))))
  | vqfFreeze mst e =>
    exact out_canon rfl (ite_canon hs (window_canon _ _ _ _ _ hs (fun _ h1 => vqfCommand_canon _ _ _ h1
      (fun _ h2 _ => vqfFreeze_canon _ _ h2))))
  | vqfThaw mst e =>
    exact out_canon rfl (ite_canon hs (window_canon _ _ _ _ _ hs (fun _ h1 => vqfCommand_canon _ _ _ h1
      (fun _ h2 _ => vqfThaw_canon _ _ h2))))
  | vqfSave mst e =>
    exact out_canon rfl (ite_canon hs (window_canon _ _ _ _ _ hs (fun _ h1 => vqfCommand_canon _ _ _ h1
      (fun _ h2 _ => vqfSave_canon _ _ h2))))
  | vqfRestore mst e partner =>
    exact out_canon rfl (ite_canon hs (window_canon _ _ _ _ _ hs (fun _ h1 => vqfCommand_canon _ _ _ h1
      (fun _ h2 _ => vqfRestore_canon _ _ _ h2))))
  | vqfDrop mst e force =>
    exact out_canon rfl (ite_canon hs (window_canon _ _ _ _ _ hs (fun _ h1 => vqfCommand_canon _ _ _ h1
      (fun _ h2 _ => vqfDrop_canon _ _ _ h2))))
  | vqfResume mst e =>
    exact out_canon rfl (ite_canon hs (window_canon _ _ _ _ _ hs (fun _ h1 => vqfCommand_canon _ _ _ h1
      (fun _ h2 _ => vqfResume_canon _ _ h2))))
  | vqfRoundStart => exact out_canon rfl (roundsStart_canon (of_parts_canon hs rfl rfl))
  | vqfStopComplete e v => exact out_canon rfl (vqfStopped_canon _ _ hs)
  | xlInvWrite mst c v => exact out_canon rfl (coreWindow_canon _ _ _ _ hs (fun _ h1 => xlInv_canon _ _ _ h1))
  | xlGS1Write mst c v => exact out_canon rfl (coreWindow_canon _ _ _ _ hs (fun _ h1 => xlGS1_canon _ _ h1))
  | secWatchdogExpire => exact out_canon rfl (ite_canon hs (secTrigger_canon _ (of_parts_canon hs rfl rfl)))
  | kick mst => exact out_canon rfl (window_canon _ _ _ _ _ hs (fun _ h1 => ite_canon (of_parts_canon h1 rfl rfl) h1))
  | secRestartRequest mst => exact out_canon rfl (window_canon _ _ _ _ _ hs (fun _ h1 => ite_canon (secTrigger_canon _ h1) h1))
  | secHoldTimeout d => exact out_canon rfl (holdTimeout_canon _ hs)
  | secHoldWrite mst v => exact out_canon rfl (window_canon _ _ _ _ _ hs (fun _ h1 => holdWrite_canon _ _ h1))
  | secureRestart img => exact out_canon rfl (secRestart_canon _ hs)
  | pmOn mst dom => exact out_canon rfl (window_canon _ _ _ _ _ hs (fun _ h1 => pmRequest_canon _ _ _ _ h1))
  | pmOff mst dom => exact out_canon rfl (window_canon _ _ _ _ _ hs (fun _ h1 => pmRequest_canon _ _ _ _ h1))
  | pmFreq mst dom mhz => exact out_canon rfl (window_canon _ _ _ _ _ hs (fun _ h1 => pmRequest_canon _ _ _ _ h1))
  | powerRequestExecute d known => exact out_canon rfl (pmExecute_canon _ _ hs)
  | supplyFailure d known => exact out_canon rfl (supplyFails_canon _ _ hs)
  | powerCapTick mw => exact out_canon rfl (capTick_canon _ hs)
  | pmPlimitWrite mst w => exact out_canon rfl (window_canon _ _ _ _ _ hs (fun _ h1 => plimit_canon _ h1))
  | freqChangeComplete p => exact out_canon rfl (freqChange_canon _ hs)
  | thermalSample ts => exact out_canon rfl (thermSample_canon _ hs)
  | thermalTrip => exact out_canon rfl (trip_canon hs)
  | dtStep mst v => exact out_canon rfl (window_canon _ _ _ _ _ hs (fun _ h1 => dtStep_canon _ h1))
  | dtSet mst v => exact out_canon rfl (window_canon _ _ _ _ _ hs (fun _ h1 => dtSet_canon _ h1))
  | dtRateWrite mst v => exact out_canon rfl (window_canon _ _ _ _ _ hs (fun _ h1 => dtRateWrite_canon _ h1))
  | ppsInEdge t => exact out_canon rfl (ppsEdge_canon _ hs)
  | dtPps => exact out_canon rfl (wholeSecond_canon hs)
  | dtHoldover => exact out_canon rfl (holdover_canon hs)
  | dmaRequest h q => exact out_canon rfl (ite_canon hs (dmaRequest_canon _ _ hs))
  | rpCfgAccess mst r write data =>
    exact out_canon rfl (ite_canon hs (ite_canon (window_canon _ _ _ _ _ hs (fun _ h1 => cfgIssue_canon _ _ _ _ h1))
      (windowRead_canon _ _ _ _ _ hs (fun _ h1 => cfgIssue_canon _ _ _ _ h1))))
  | hotrst mst r => exact out_canon rfl (ite_canon hs (window_canon _ _ _ _ _ hs (fun _ h1 => h1)))
  | rpLinkChange r t => exact out_canon rfl (rpLink_canon _ _ hs)
  | completionTimeout c => exact out_canon rfl (rpLost_canon _ hs)
  | dmatInv mst h v => exact out_canon rfl (ite_canon hs (window_canon _ _ _ _ _ hs (fun _ h1 => dmatInv_canon _ _ h1)))
  | dmatResume mst h rid => exact out_canon rfl (ite_canon hs (window_canon _ _ _ _ _ hs (fun _ h1 => dmatResume_canon _ _ h1)))
  | hioReset mst h => exact out_canon rfl (ite_canon hs (window_canon _ _ _ _ _ hs (fun _ h1 => ite_canon (hioReset_canon _ h1) h1)))
  | xspiRead mst len err => exact out_canon rfl (window_canon _ _ _ _ _ hs (fun _ h1 => xspi_canon _ _ _ h1))
  | xspiProgram mst len err => exact out_canon rfl (window_canon _ _ _ _ _ hs (fun _ h1 => xspi_canon _ _ _ h1))
  | xspiErase4k mst err => exact out_canon rfl (window_canon _ _ _ _ _ hs (fun _ h1 => xspi_canon _ _ _ h1))
  | xspiErase64k mst err => exact out_canon rfl (window_canon _ _ _ _ _ hs (fun _ h1 => xspi_canon _ _ _ h1))
  | getStatus => exact out_canon rfl (mbxServe_canon _ _ _ hs (fun _ h1 => mbxGetStatus_canon h1))
  | getFe => exact out_canon rfl (mbxServe_canon _ _ _ hs (fun _ h1 => mbxGetFe_canon h1))
  | getPend => exact out_canon rfl (mbxServe_canon _ _ _ hs (fun _ h1 => mbxGetPend_canon h1))
  | getBootlog => exact out_canon rfl (mbxServe_canon _ _ _ hs (fun _ h1 => mbxBootLog_canon h1))
  | readReg => exact out_canon rfl (mbxServe_canon _ _ _ hs (fun _ h1 => mbxReadReg_canon h1))
  | clearFe => exact out_canon rfl (mbxServe_canon _ _ _ hs (fun _ h1 => mbxClearFe_canon h1))
  | setPlimit => exact out_canon rfl (mbxServe_canon _ _ _ hs (fun _ h1 => mbxPlimit_canon h1))
  | chipReset => exact out_canon rfl (mbxServe_canon _ _ _ hs (fun _ h1 => mbxChipReset_canon h1))
  | caldera => exact out_canon rfl (mbxServe_canon _ _ _ hs (fun _ h1 => mbxCaldera_canon h1))
  | entdaa a => exact out_canon rfl (i3cAssign_canon _ hs)
  | setdasa sa a => exact out_canon rfl (ite_canon (i3cAssign_canon _ hs) hs)
  | rstdaa => exact out_canon rfl (of_parts_canon hs rfl rfl)
  | getpid => exact out_canon rfl (i3cReply_canon _ hs)
  | getbcr => exact out_canon rfl (i3cReply_canon _ hs)
  | getdcr => exact out_canon rfl (i3cReply_canon _ hs)
  | i3cGetstatus => exact out_canon rfl (i3cReply_canon _ hs)
  | mailboxWrite off bs => exact out_canon rfl (mbxWrite_canon _ _ hs)
  | dbgSessOpen c cap => exact out_canon rfl (window_canon _ _ _ _ _ hs (fun _ h1 => dbgOpen_canon _ _ h1))
  | dbgSessClose mst => exact out_canon rfl (window_canon _ _ _ _ _ hs (fun _ h1 => of_parts_canon h1 rfl rfl))
  | dbgStop c vec => exact out_canon rfl (dbgAct_canon _ _ hs (fun _ h1 => stopCmd_canon _ _ _ h1))
  | dbgResume c => exact out_canon rfl (dbgAct_canon _ _ hs (fun _ h1 => resumeCmd_canon _ _ h1))
  | dbgStep c => exact out_canon rfl (dbgAct_canon _ _ hs (fun _ h1 => dbgStep_canon _ h1))
  | dbgReadRegs c => exact out_canon rfl (dbgAct_canon _ _ hs (fun _ h1 => dbgRead_canon _ h1))
  | dbgWriteRegs c state n v => exact out_canon rfl (dbgAct_canon _ _ hs (fun _ h1 => dbgWrite_canon _ _ _ _ h1))
  | extest => exact out_canon rfl (of_parts_canon hs rfl rfl)
  | idcode => exact out_canon rfl (of_parts_canon hs rfl rfl)
  | sample => exact out_canon rfl (of_parts_canon hs rfl rfl)
  | highz => exact out_canon rfl (of_parts_canon hs rfl rfl)
  | clamp => exact out_canon rfl (of_parts_canon hs rfl rfl)
  | extestPulse => exact out_canon rfl (of_parts_canon hs rfl rfl)
  | extestTrain => exact out_canon rfl (of_parts_canon hs rfl rfl)
  | dbgacc => exact out_canon rfl (of_parts_canon hs rfl rfl)
  | bypass => exact out_canon rfl (of_parts_canon hs rfl rfl)
  | pmcOvfClear mst st k v => exact pmcOvfClear_canon mst st k v hs
  | fumaroleBoundary px => exact out_canon rfl (fumBoundary_canon _ hs)
  | fumCfgWrite mst px v => exact out_canon rfl (ite_canon hs (window_canon _ _ _ _ _ hs (fun _ h1 => fumCfgWrite_canon _ _ h1)))
  | fumClrpeak mst px v => exact out_canon rfl (ite_canon hs (window_canon _ _ _ _ _ hs (fun _ h1 => fumClrPeak_canon _ _ h1)))
  | powerOnReset => exact out_canon rfl (powerOn_canon hs)
  | coldBoot b => exact out_canon rfl (ite_canon hs (startUp_canon _ (setPairFld_canon _ _ _ hs)))
  | resetNAssert => exact out_canon rfl (startWarm_canon _ hs)
  | sytReset mst key => exact out_canon rfl (window_canon _ _ _ _ _ hs (fun _ h1 => ite_canon (startWarm_canon _ h1) h1))
  | chipWarmReset => exact out_canon rfl (warmReset_canon hs)
  | resetRelease b => exact out_canon rfl (ite_canon hs (startUp_canon _ hs))
  | illegalEncoding c word => exact out_canon rfl (instr_canon _ _ _ hs (fun _ h1 => trivial))
  | instructionFetchFault c => exact out_canon rfl (fetchFault_canon _ hs)
  | rootPortCompletion r a => exact out_canon rfl (ite_canon hs (rpComplete_canon _ _ hs))
  | mailboxRead n => exact out_canon rfl (mbxRead_canon _ hs)
  | ppsOutPulseEnd => exact out_canon rfl (pulseEnd_canon hs)
  | integratedRegulatorsOff => exact out_canon rfl (regulatorsOff_canon hs)
  | rowIdleClose ch sub rank bank => exact out_canon rfl (closeRow_canon _ hs)
  | pauseTimeExpiry q p => exact out_canon rfl (setPort_canon _ _ hs)
  | pcsBlockLock q => exact out_canon rfl (blockLock_canon _ hs)
  | fenceInNEdge asserted => exact out_canon rfl (modPair_canon _ (setPairFld_canon _ _ _ hs))
  | nmiNRelease => exact out_canon rfl (setRegBit_canon _ _ _ _ _ hs)

/-- Settles O3, command by command: each operation of the model keeps the canonical form (`exec_canon`), and an empty queue idles. -/
theorem stepKeepsMemoryCanonical : Obligations.StepKeepsMemoryCanonical := by
  intro s t h ht
  cases hp : s.pending with
  | nil =>
    simp only [step, hp] at ht
    cases ht
    exact h
  | cons i rest =>
    simp only [step, hp] at ht
    exact exec_canon i (s := { s with pending := rest }) h t ht

end Sys2Proof.Machine

/-!
SUPPORT. Loads (R73, R80, R81): what the bytes of memory say of a word and of a part of it, and what a load of one part that passes its
checks leaves.
-/

namespace Sys2Proof.Machine

/-! ### Little-endian reads -/

section
variable (m : Mach)

theorem readN_lt (a n : Nat) : m.readN a n < 256 ^ n := by
  induction n generalizing a with
  | zero => exact Nat.one_pos
  | succ n ih =>
    have h1 := (m.byte a).isLt
    have h2 := ih (a + 1)
    simp only [Mach.readN, Nat.pow_succ]
    omega

theorem readN_add (a n k : Nat) : m.readN a (n + k) = m.readN a n + 256 ^ n * m.readN (a + n) k := by
  induction n generalizing a with
  | zero => simp [Mach.readN]
  | succ n ih =>
    have h := ih (a + 1)
    rw [Nat.add_right_comm n 1 k]
    simp only [Mach.readN, h, Nat.pow_succ, show a + 1 + n = a + (n + 1) by omega]
    ring

/-- The byte `k` of what is read is the byte of memory at `k` above. -/
theorem readN_byte (a n : Nat) {k : Nat} (hk : k < n) : m.readN a n / 256 ^ k % 256 = (m.byte (a + k)).toNat := by
  obtain ⟨j, rfl⟩ := Nat.exists_eq_add_of_lt hk
  have hb := (m.byte (a + k)).isLt
  have hlt := readN_lt m a k
  rw [Nat.add_assoc, readN_add, Nat.add_mul_div_left _ _ (by positivity), Nat.div_eq_of_lt hlt, Nat.zero_add, Mach.readN]
  omega

/-- A field of whole bytes within what is read is read at its own place. -/
theorem readN_field (a : Nat) {n j k : Nat} (h : j + k ≤ n) : m.readN a n / 256 ^ j % 256 ^ k = m.readN (a + j) k := by
  obtain ⟨i, rfl⟩ := Nat.exists_eq_add_of_le h
  rw [Nat.add_assoc, readN_add, Nat.add_mul_div_left _ _ (by positivity), Nat.div_eq_of_lt (readN_lt m a j), Nat.zero_add, readN_add,
    Nat.add_mul_mod_self_left, Nat.mod_eq_of_lt (readN_lt m _ k)]

theorem word_data (a : Nat) : (m.word a).data.toNat = m.readN a 8 :=
  Nat.mod_eq_of_lt (Nat.lt_of_lt_of_le (readN_lt m a 8) (by norm_num))

theorem fld_word (a : Nat) {j k : Nat} (h : j + k ≤ 8) : fld (m.word a).data (8 * j) (8 * k) = m.readN (a + j) k := by
  rw [fld, word_data, Nat.shiftRight_eq_div_pow, Nat.pow_mul, Nat.pow_mul]
  exact readN_field m a h

/-- A core whose merging buffer is empty sees the words of memory. -/
theorem coreWord_of_empty {c : Nat} (h : (m.core c).mb = []) (a : Nat) : m.coreWord c a = m.word a := by
  rw [Mach.coreWord, h]
  rfl

/-- A core whose merging buffer is empty sees the bytes of memory, whether or not they cross a word. -/
theorem coreLoad_of_empty {c : Nat} (h : (m.core c).mb = []) (a : Nat) {n : Nat} (hn : n ≤ 8) :
    (m.coreLoad c a n).1 = m.readN a n := by
  have ha : a / 8 * 8 + a % 8 = a := by omega
  unfold Mach.coreLoad
  simp only [coreWord_of_empty m h]
  split
  · next hk => rw [fld_word m _ (by omega), ha]
  · next hk =>
    have hz := fld_word m ((a / 8 + 1) * 8) (j := 0) (k := n - (8 - a % 8)) (by omega)
    have hx := fld_word m (a / 8 * 8) (j := a % 8) (k := 8 - a % 8) (by omega)
    rw [Nat.mul_zero] at hz
    rw [ha] at hx
    have hsum := readN_add m a (8 - a % 8) (n - (8 - a % 8))
    rw [show 8 - a % 8 + (n - (8 - a % 8)) = n by omega, show a + (8 - a % 8) = (a / 8 + 1) * 8 by omega] at hsum
    simp only [hx, hz, hsum, Nat.add_zero, Nat.pow_mul, show (2 : Nat) ^ 8 = 256 by norm_num]

end

/-! ### A load of one part -/

/-- The widths of a load: whole bytes of a word, and a load that extends the sign is shorter than a word. -/
def LoadWidth (n : Nat) (signed : Bool) : Prop := 0 < n ∧ n ≤ 8 ∧ (signed = true → n < 8)

theorem signExtend_load {n x : Nat} {signed : Bool} (h : LoadWidth n signed) :
    (if signed then sextN (8 * n) (BitVec.ofNat 64 x) else BitVec.ofNat 64 x) =
      if signed then (BitVec.ofNat (8 * n) x).signExtend 64 else BitVec.ofNat 64 x := by
  obtain ⟨h0, h8, hs⟩ := h
  cases signed with
  | false => rfl
  | true =>
    have hn := hs rfl
    have hw : (BitVec.ofNat 64 x).setWidth (8 * n) = BitVec.ofNat (8 * n) x := BitVec.setWidth_ofNat_of_le (by omega) x
    simp only [if_true]
    rw [sextN_eq _ (by omega) (by omega), hw]

theorem loadChecked_mem {m : Mach} {c d : Nat} {p : Piece} {n : Nat} {signed : Bool} (hp : m.isMem p.pa = true) (hw : LoadWidth n signed) :
    m.loadChecked c d [p] n signed false = .ok ((m.loadSides c [p]).setG c d (loaded (m.loadSides c [p]) c p n signed)) := by
  obtain ⟨hr, hb⟩ := mem_noRp hp
  simp only [Mach.loadChecked, hr, hb, Bool.false_eq_true, if_false, Bool.false_and, Mach.readPieces]
  rw [untagSwept_untagged _ _ _ rfl, loaded, signExtend_load hw]

theorem loadBody_passes {m m2 : Mach} {c n : Nat} {cap : Word} {ea : Int} {p : Piece} {signed : Bool} (d : BitVec 6)
    (h : LoadPasses m c cap ea n p m2) (hw : LoadWidth n signed) :
    loadBody c d cap false ea n signed m = .ok ((m2.loadSides c [p]).setG c d.toNat (loaded (m2.loadSides c [p]) c p n signed)) := by
  obtain ⟨hcap, hmem, g, hcheck, href⟩ := h
  simp only [loadBody, hcap, Bool.or_self, Bool.false_eq_true, if_false, hcheck, href]
  exact loadChecked_mem hmem hw

theorem loadBody_poison (c : Nat) (d : BitVec 6) {cap : Word} (h : cap.poison = true) (i : Bool) (ea : Int) (n : Nat) (signed : Bool)
    (m : Mach) : loadBody c d cap i ea n signed m = .trap (.plain .poison 1 0) := by
  simp only [loadBody, h, Bool.true_or, if_true]
  rfl

/-! ### The loads by their tables -/

theorem loadTable_exec : ∀ q ∈ loadTable, LoadWidth q.2.1 q.2.2 ∧ ∀ (c : Nat) (d a : BitVec 6) (i : BitVec 14) (s : State),
    exec (q.1 c d a i) s = s.upd (loadImm c d a i.toInt q.2.1 q.2.2) := by
  simp only [loadTable, List.forall_mem_cons, List.not_mem_nil, false_imp_iff, implies_true, and_true]
  exact ⟨⟨by unfold LoadWidth; decide, fun _ _ _ _ _ => rfl⟩, ⟨by unfold LoadWidth; decide, fun _ _ _ _ _ => rfl⟩,
    by unfold LoadWidth; decide, fun _ _ _ _ _ => rfl⟩

theorem loadShortTable_exec : ∀ q ∈ loadShortTable, LoadWidth q.2.1 q.2.2 ∧ ∀ (c : Nat) (d a : BitVec 6) (i : BitVec 11) (s : State),
    exec (q.1 c d a i) s = s.upd (loadImm c d a i.toInt q.2.1 q.2.2) := by
  simp only [loadShortTable, List.forall_mem_cons, List.not_mem_nil, false_imp_iff, implies_true, and_true]
  exact ⟨⟨by unfold LoadWidth; decide, fun _ _ _ _ _ => rfl⟩, ⟨by unfold LoadWidth; decide, fun _ _ _ _ _ => rfl⟩,
    ⟨by unfold LoadWidth; decide, fun _ _ _ _ _ => rfl⟩, by unfold LoadWidth; decide, fun _ _ _ _ _ => rfl⟩

theorem loadIndexTable_exec : ∀ q ∈ loadIndexTable, LoadWidth q.2.1 q.2.2 ∧ ∀ (c : Nat) (d a b : BitVec 6) (s : State),
    exec (q.1 c d a b) s = s.upd (loadIdx c d a b q.2.1 q.2.2) := by
  simp only [loadIndexTable, List.forall_mem_cons, List.not_mem_nil, false_imp_iff, implies_true, and_true]
  exact ⟨⟨by unfold LoadWidth; decide, fun _ _ _ _ _ => rfl⟩, ⟨by unfold LoadWidth; decide, fun _ _ _ _ _ => rfl⟩,
    ⟨by unfold LoadWidth; decide, fun _ _ _ _ _ => rfl⟩, ⟨by unfold LoadWidth; decide, fun _ _ _ _ _ => rfl⟩,
    ⟨by unfold LoadWidth; decide, fun _ _ _ _ _ => rfl⟩, ⟨by unfold LoadWidth; decide, fun _ _ _ _ _ => rfl⟩,
    by unfold LoadWidth; decide, fun _ _ _ _ _ => rfl⟩

section
variable {m m1 m2 : Mach} {c n : Nat} {p : Piece} {signed : Bool}

theorem loadImm_passes (h : m.Begins c m1) (d a : BitVec 6) (off : Int) (hw : LoadWidth n signed)
    (hp : LoadPasses m1 c (m1.g c a.toNat) ((m1.g c a.toNat).cursor + off) n p m2) :
    loadImm c d a off n signed m =
      m1.finish c [0x005] (.ok ((m2.loadSides c [p]).setG c d.toNat (loaded (m2.loadSides c [p]) c p n signed))) := by
  rw [loadImm, instr_begins h]
  exact congrArg _ (loadBody_passes d hp hw)

theorem loadIdx_passes (h : m.Begins c m1) (d a b : BitVec 6) (hw : LoadWidth n signed) (hy : (m1.g c b.toNat).poison = false)
    (hp : LoadPasses m1 c (m1.g c a.toNat) ((m1.g c a.toNat).cursor + (m1.g c b.toNat).data.toInt) n p m2) :
    loadIdx c d a b n signed m =
      m1.finish c [0x005] (.ok ((m2.loadSides c [p]).setG c d.toNat (loaded (m2.loadSides c [p]) c p n signed))) := by
  rw [loadIdx, instr_begins h]
  dsimp only
  rw [hy]
  exact congrArg _ (loadBody_passes d hp hw)

theorem loadImm_poison (h : m.Begins c m1) (d a : BitVec 6) (off : Int) (n : Nat) (signed : Bool)
    (hx : (m1.g c a.toNat).poison = true) :
    loadImm c d a off n signed m = m1.finish c [0x005] (.trap (.plain .poison 1 0)) := by
  rw [loadImm, instr_begins h]
  exact congrArg _ (loadBody_poison c d hx _ _ _ _ _)

theorem storeImm_poison (h : m.Begins c m1) (src a : BitVec 6) (off : Int) (n : Nat) (hx : (m1.g c a.toNat).poison = true) :
    storeImm c src a off n m = m1.finish c [0x006] (.trap (.plain .poison 1 0)) := by
  rw [storeImm, instr_begins h]
  simp only [storeBody, hx, Bool.true_or, if_true]
  rfl

theorem ldcBody_poison (h : m.Begins c m1) (d a : BitVec 6) (i : BitVec 14) (hx : (m1.g c a.toNat).poison = true) :
    ldcBody c d a i m = m1.finish c [0x005] (.trap (.plain .poison 1 0)) := by
  rw [ldcBody, instr_begins h]
  simp only [hx, if_true]
  rfl

end

/-- Settles O11: by the three tables of loads for one part that passes, by the poisoned operand that every address goes through first, and
by the bytes of a number read from memory. -/
theorem loadResults : Obligations.LoadResults := by
  refine ⟨fun s c d a b m1 m2 p h => ⟨fun q hq i hp hn => ?_, fun q hq i hp hn => ?_, fun q hq hy hp hn => ?_⟩,
    fun s c d a m1 h hx => ⟨fun q hq i => ?_, fun i => ?_, fun i => ?_⟩,
    fun m c a n _ hn h => ⟨coreLoad_of_empty m h a hn, fun k hk => readN_byte m a n hk⟩⟩
  · obtain ⟨hw, he⟩ := loadTable_exec q hq
    exact exec_of_upd (he c d a i s) (loadImm_passes h d a _ hw hp)
  · obtain ⟨hw, he⟩ := loadShortTable_exec q hq
    exact exec_of_upd (he c d a i s) (loadImm_passes h d a _ hw hp)
  · obtain ⟨hw, he⟩ := loadIndexTable_exec q hq
    exact exec_of_upd (he c d a b s) (loadIdx_passes h d a b hw hy hp)
  · exact exec_of_upd ((loadTable_exec q hq).2 c d a i s) (loadImm_poison h d a _ _ _ hx)
  · exact exec_of_upd (i := .sd c d a i) rfl (storeImm_poison h d a _ _ hx)
  · exact exec_of_upd (i := .ldc c d a i) rfl (ldcBody_poison h d a i hx)

end Sys2Proof.Machine

/-!
SUPPORT. The stores (O12) refuted: a table of cores that lists a core twice.
-/

namespace Sys2Proof.Machine

section
variable {m : Mach} {a : Nat}

/-- A device without DRAM has no address in DRAM. -/
theorem locate_of_dram_none (h : m.dram = ⟨[], 0, []⟩) : m.locate a ≠ .dram ∧ ∀ c, m.locate a ≠ .pinned c := by
  unfold Mach.locate
  simp only [h, List.length_nil, Nat.zero_mul, Nat.not_lt_zero, if_false, Tab.get]
  repeat' split
  all_goals exact ⟨by simp, by simp⟩

/-- A device without DRAM has no byte in a FAILED channel. -/
theorem lost_of_dram_none (h : m.dram = ⟨[], 0, []⟩) (a : Nat) : m.lost a = false := by
  obtain ⟨hd, hp⟩ := locate_of_dram_none h (a := a)
  unfold Mach.lost
  split
  · next hl => exact absurd hl hd
  · next c hl => exact absurd hl (hp c)
  · rfl

end

/-- Core 7 twice in the table of the cores: as after reset, and with a register that the first entry hides. -/
def doubledCore : Mach := { Mach.reset with cores := [(7, Core.reset), (7, { Core.reset with g := [(1, .plain 5)] })] }

/-- A word of cluster memory. -/
def clusterPiece : Piece := ⟨ctlBase + ccStop 0 * 0x1000000 + 0x100000, 8, 0, 0x2000⟩

theorem doubledCore_hidden : doubledCore.g 7 1 = .zero := by decide

/-- The store drops the first entry, which is as after reset, so the register of the second one shows. -/
theorem doubledCore_stored : (doubledCore.storePiece 0 clusterPiece 0 false).g 7 1 = .plain 5 := by decide

/-- Refutes O12: the last clause speaks of every state, and a state whose table of cores lists core 7 twice shows another register of core 7
after a store to cluster memory, because the pass over the cores that drops the line leaves out an entry that is as after reset. -/
theorem not_storeResults : ¬ Obligations.StoreResults := by
  rintro ⟨_, h⟩
  obtain ⟨_, _, hg⟩ := h doubledCore 0 clusterPiece 0 false (by decide) (by decide) (by decide) (by decide) (lost_of_dram_none rfl)
    (lost_of_dram_none (by decide))
  have h1 := hg 7 1
  rw [doubledCore_hidden, doubledCore_stored] at h1
  exact absurd h1 (by decide)

end Sys2Proof.Machine

/-!
SUPPORT. What the fetch of an instruction leaves of the core that fetches: everything but its caches, its buffers and what it awaits of the
mirror. The fetch reads through the translation and the grant cache, meets upsets and counts events, and none of it reaches a register.
-/

namespace Sys2Proof.Machine

/-- A core without what an access fills or drains: its translations, grants, lines, buffered stores and mirrored writes. -/
def Core.outside (x : Core) : Core :=
  { x with tlb := [], gcache := [], lines := [], mb := [], l1 := [], mirrorSent := 0, mirrorLost := false }

/-- Core `d` is RUNNING and is `x` but for what an access fills or drains. -/
def Mach.RunsAs (m : Mach) (d : Nat) (x : Core) : Prop := (m.core d).st = .running ∧ (m.core d).outside = x

section
variable {d₀ : Nat} {x₀ : Core}

theorem setCore_runs {m : Mach} (c : Nat) (x : Core) (h : m.RunsAs d₀ x₀) (hx : x.outside = (m.core c).outside) :
    (m.setCore c x).RunsAs d₀ x₀ := by
  unfold Mach.RunsAs
  rw [core_setCore]
  split
  · next hd =>
    subst hd
    exact ⟨(congrArg Core.st hx).trans h.1, hx.trans h.2⟩
  · exact h

/-- A pass over the cores keeps a RUNNING core that it changes only inside: such a core is not as after reset. -/
theorem get_mapV_runs {f : Nat → Core → Core} (hf : ∀ i x, (f i x).outside = x.outside) {t : List (Nat × Core)}
    (h : (Tab.get Core.reset t d₀).st = .running) :
    Tab.get Core.reset (Tab.mapV Core.reset f t) d₀ = f d₀ (Tab.get Core.reset t d₀) := by
  induction t with
  | nil => cases h
  | cons p t ih =>
    obtain ⟨j, v⟩ := p
    simp only [Tab.get] at h ⊢
    simp only [Tab.mapV]
    by_cases hj : j = d₀
    · subst hj
      rw [if_pos rfl] at h ⊢
      have hst : (f j v).st = .running := (congrArg Core.st (hf j v)).trans h
      have hne : f j v ≠ Core.reset := by
        intro he
        rw [he] at hst
        exact absurd hst (by decide)
      rw [if_neg hne, Tab.get, if_pos rfl]
    · rw [if_neg hj] at h ⊢
      split
      · exact ih h
      · rw [Tab.get, if_neg hj]
        exact ih h

theorem mapV_runs {m t : Mach} {f : Nat → Core → Core} (h : m.RunsAs d₀ x₀) (hf : ∀ i x, (f i x).outside = x.outside)
    (ht : t.cores = Tab.mapV Core.reset f m.cores) : t.RunsAs d₀ x₀ := by
  have hc : t.core d₀ = f d₀ (m.core d₀) := by
    unfold Mach.core
    rw [ht]
    exact get_mapV_runs hf h.1
  unfold Mach.RunsAs
  rw [hc]
  exact ⟨(congrArg Core.st (hf d₀ _)).trans h.1, (hf d₀ _).trans h.2⟩

theorem dropLines_runs {m : Mach} (keep : Option Nat) (line : Nat) (h : m.RunsAs d₀ x₀) : (m.dropLines keep line).RunsAs d₀ x₀ := by
  refine mapV_runs h (fun i x => ?_) rfl
  split <;> rfl

theorem l1Inval_runs {m : Mach} (c line : Nat) (h : m.RunsAs d₀ x₀) : (m.l1Inval c line).RunsAs d₀ x₀ := by
  refine mapV_runs h (fun i x => ?_) rfl
  split <;> rfl

theorem of_cores_runs {m t : Mach} (h : m.RunsAs d₀ x₀) (hc : t.cores = m.cores) : t.RunsAs d₀ x₀ := by
  unfold Mach.RunsAs Mach.core at h ⊢
  rw [hc]
  exact h

theorem ite_runs {p : Prop} [Decidable p] {m t : Mach} (hm : m.RunsAs d₀ x₀) (ht : t.RunsAs d₀ x₀) :
    (if p then m else t).RunsAs d₀ x₀ := by
  split
  · exact hm
  · exact ht

theorem of_snd_runs {α : Type} {p : α × Mach} {a : α} {t : Mach} (he : p = (a, t)) (h : p.2.RunsAs d₀ x₀) : t.RunsAs d₀ x₀ := by
  subst he
  exact h

theorem of_fst_runs {α : Type} {p : Mach × α} {a : α} {t : Mach} (he : p = (t, a)) (h : p.1.RunsAs d₀ x₀) : t.RunsAs d₀ x₀ := by
  subst he
  exact h

theorem setReg_runs {m : Mach} (st k off : Nat) (v : W64) (h : m.RunsAs d₀ x₀) : (m.setReg st k off v).RunsAs d₀ x₀ := of_cores_runs h rfl

theorem setRegFld_runs {m : Mach} (st k off lo n x : Nat) (h : m.RunsAs d₀ x₀) :
    (m.setRegFld st k off lo n x).RunsAs d₀ x₀ := setReg_runs _ _ _ _ h

theorem setRegBit_runs {m : Mach} (st k off i : Nat) (b : Bool) (h : m.RunsAs d₀ x₀) :
    (m.setRegBit st k off i b).RunsAs d₀ x₀ := setReg_runs _ _ _ _ h

theorem countReg_runs {m : Mach} (st k off lo n by_ : Nat) (h : m.RunsAs d₀ x₀) : (m.countReg st k off lo n by_).RunsAs d₀ x₀ :=
  setRegFld_runs _ _ _ _ _ _ h

theorem initRegion_runs {m : Mach} (c ca : Nat) (h : m.RunsAs d₀ x₀) : (m.initRegion c ca).RunsAs d₀ x₀ := ite_runs h (of_cores_runs h rfl)

theorem touchDram_runs {m : Mach} (a : Nat) (h : m.RunsAs d₀ x₀) : (m.touchDram a).RunsAs d₀ x₀ := by
  dsimp only [Mach.touchDram]
  split
  · exact initRegion_runs _ _ h
  · exact foldl_keeps (P := fun (t : Mach) => t.RunsAs d₀ x₀) _ _ (initRegion_runs _ _ h) (fun _ hb _ => initRegion_runs _ _ hb)
  · exact h

theorem setByte_runs {m : Mach} (a : Nat) (v : BitVec 8) (h : m.RunsAs d₀ x₀) : (m.setByte a v).RunsAs d₀ x₀ := by
  dsimp only [Mach.setByte]
  split
  · exact h
  · exact of_cores_runs (ite_runs h (touchDram_runs _ h)) rfl

theorem writeN_runs {m : Mach} (a n v : Nat) (h : m.RunsAs d₀ x₀) : (m.writeN a n v).RunsAs d₀ x₀ := by
  induction n generalizing m a v with
  | zero => exact h
  | succ n ih => exact ih _ _ (setByte_runs _ _ h)

theorem setMeta_runs {m : Mach} (a : Nat) (x : Meta) (h : m.RunsAs d₀ x₀) : (m.setMeta a x).RunsAs d₀ x₀ := by
  dsimp only [Mach.setMeta]
  split
  · exact h
  · split
    · exact ite_runs (of_cores_runs h rfl) (of_cores_runs h rfl)
    · exact ite_runs (of_cores_runs h rfl) h

theorem drawn_runs {m : Mach} (h : m.RunsAs d₀ x₀) : m.drawn.RunsAs d₀ x₀ := of_cores_runs h rfl

theorem report_runs {m : Mach} (r : Report) (h : m.RunsAs d₀ x₀) : (m.report r).RunsAs d₀ x₀ := of_cores_runs h rfl

theorem raiseSrc_runs {m : Mach} (st off : Nat) (addr : Option Nat) (mstop munit : Nat) (acc : Option Acc) (h : m.RunsAs d₀ x₀) :
    (m.raiseSrc st off addr mstop munit acc).RunsAs d₀ x₀ :=
  report_runs _ h

theorem raiseOwn_runs {m : Mach} (st off : Nat) (addr : Option Nat) (h : m.RunsAs d₀ x₀) : (m.raiseOwn st off addr).RunsAs d₀ x₀ :=
  raiseSrc_runs _ _ _ _ _ _ h

theorem raiseEvent_runs {m : Mach} (n : Nat) (h : m.RunsAs d₀ x₀) : (m.raiseEvent n).RunsAs d₀ x₀ := by
  dsimp only [Mach.raiseEvent]
  split
  · exact h
  · split
    · exact countReg_runs _ _ _ _ _ _ h
    · exact ite_runs (countReg_runs _ _ _ _ _ _ h) (of_cores_runs h rfl)

theorem raiseAssigned_runs {m : Mach} (n : Nat) (h : m.RunsAs d₀ x₀) : (m.raiseAssigned n).RunsAs d₀ x₀ := ite_runs (raiseEvent_runs _ h) h

theorem bumpCount_runs {m : Mach} (st k ctrl ovf cnt i by_ : Nat) (h : m.RunsAs d₀ x₀) :
    (m.bumpCount st k ctrl ovf cnt i by_).RunsAs d₀ x₀ := by
  dsimp only [Mach.bumpCount]
  split
  · exact setRegFld_runs _ _ _ _ _ _ h
  · split
    · refine raiseAssigned_runs _ (ite_runs (setRegBit_runs _ _ _ _ _ (setRegBit_runs _ _ _ _ _ (setRegFld_runs _ _ _ _ _ _ h)))
        (setRegBit_runs _ _ _ _ _ (setRegFld_runs _ _ _ _ _ _ h)))
    · exact ite_runs (setRegBit_runs _ _ _ _ _ (setRegBit_runs _ _ _ _ _ (setRegFld_runs _ _ _ _ _ _ h)))
        (setRegBit_runs _ _ _ _ _ (setRegFld_runs _ _ _ _ _ _ h))

theorem countAs_runs {m : Mach} (c : Nat) (wd : World) (cmpid e by_ : Nat) (h : m.RunsAs d₀ x₀) :
    (m.countAs c wd cmpid e by_).RunsAs d₀ x₀ := by
  dsimp only [Mach.countAs]
  split
  · exact h
  · exact foldl_keeps (P := fun (t : Mach) => t.RunsAs d₀ x₀) _ _ h (fun _ hb _ => ite_runs (bumpCount_runs _ _ _ _ _ _ _ hb) hb)

theorem countCore_runs {m : Mach} (c e by_ : Nat) (h : m.RunsAs d₀ x₀) : (m.countCore c e by_).RunsAs d₀ x₀ := countAs_runs _ _ _ _ _ h

theorem countUncore_runs {m : Mach} (st : Nat) (u : UncoreEv) (by_ : Nat) (h : m.RunsAs d₀ x₀) : (m.countUncore st u by_).RunsAs d₀ x₀ := by
  dsimp only [Mach.countUncore]
  split
  · exact h
  · exact foldl_keeps (P := fun (t : Mach) => t.RunsAs d₀ x₀) _ _ h (fun _ hb _ => ite_runs (bumpCount_runs _ _ _ _ _ _ _ hb) hb)

theorem setLine_runs {m : Mach} (c line : Nat) (st : LineSt) (h : m.RunsAs d₀ x₀) :
    (m.setLine c line st).RunsAs d₀ x₀ := setCore_runs _ _ h rfl

theorem takeLost_runs {m : Mach} (line : Nat) (h : m.RunsAs d₀ x₀) : (m.takeLost line).RunsAs d₀ x₀ := ite_runs h (of_cores_runs h rfl)

theorem setDir_runs {m : Mach} (line : Nat) (e : DirEnt) (h : m.RunsAs d₀ x₀) : (m.setDir line e).RunsAs d₀ x₀ :=
  of_cores_runs (ite_runs h (takeLost_runs _ h)) rfl

theorem armedWrite_runs {m : Mach} (st k cls a : Nat) (h : m.RunsAs d₀ x₀) : (m.armedWrite st k cls a).RunsAs d₀ x₀ := by
  dsimp only [Mach.armedWrite]
  split
  · exact of_cores_runs (ite_runs (drawn_runs (setReg_runs _ _ _ _ h)) (setReg_runs _ _ _ _ h)) rfl
  · exact of_cores_runs h rfl

theorem dramStored_runs {m : Mach} (a : Nat) (h : m.RunsAs d₀ x₀) : (m.dramStored a).RunsAs d₀ x₀ := by
  dsimp only [Mach.dramStored]
  refine foldl_keeps (P := fun (t : Mach) => t.RunsAs d₀ x₀) _ _ h fun _ hb1 _ => ?_
  split
  · exact armedWrite_runs _ _ _ _ hb1
  · refine armedWrite_runs _ _ _ _ (armedWrite_runs _ _ _ _ hb1)

theorem noteStale_runs {m : Mach} (line : Nat) (h : m.RunsAs d₀ x₀) : (m.noteStale line).RunsAs d₀ x₀ := ite_runs h (of_cores_runs h rfl)

theorem unstale_runs {m : Mach} (line : Nat) (h : m.RunsAs d₀ x₀) : (m.unstale line).RunsAs d₀ x₀ :=
  ite_runs (dramStored_runs _ (touchDram_runs _ (of_cores_runs h rfl))) h

theorem setSlotsL3_runs {m : Mach} (p : Nat) (l : List L3Line) (h : m.RunsAs d₀ x₀) : (m.setSlotsL3 p l).RunsAs d₀ x₀ := of_cores_runs h rfl

theorem modL3_runs {m : Mach} (line : Nat) (f : L3Line → L3Line) (h : m.RunsAs d₀ x₀) :
    (m.modL3 line f).RunsAs d₀ x₀ := setSlotsL3_runs _ _ h

theorem l3ToMemory_runs {m : Mach} (e : L3Line) (h : m.RunsAs d₀ x₀) : (m.l3ToMemory e).RunsAs d₀ x₀ := by
  dsimp only [Mach.l3ToMemory]
  split
  · exact h
  · split
    · exact of_cores_runs h rfl
    · exact unstale_runs _ h

theorem allocWay_runs {m : Mach} (p line stop : Nat) (h : m.RunsAs d₀ x₀) : (m.allocWay p line stop).2.RunsAs d₀ x₀ := by
  dsimp only [Mach.allocWay]
  split
  · exact h
  · split
    · split
      · exact h
      · exact h
    · split
      · exact h
      · exact h
      · exact drawn_runs h

theorem countSlice_runs {m : Mach} (p ev : Nat) (h : m.RunsAs d₀ x₀) : (m.countSlice p ev).RunsAs d₀ x₀ := countUncore_runs _ _ _ h

theorem allocL3_runs {m : Mach} (line stop : Nat) (dirty : Bool) (h : m.RunsAs d₀ x₀) : (m.allocL3 line stop dirty).2.RunsAs d₀ x₀ := by
  dsimp only [Mach.allocL3]
  split
  · exact h
  · split
    · next _ t he =>
        have hk : t.RunsAs d₀ x₀ := of_snd_runs he (allocWay_runs _ _ _ h)
        exact hk
    · next _ _ t he =>
        have hk : t.RunsAs d₀ x₀ := of_snd_runs he (allocWay_runs _ _ _ h)
        refine countSlice_runs _ _ (setSlotsL3_runs _ _ (takeLost_runs _
          (foldl_keeps (P := fun (t : Mach) => t.RunsAs d₀ x₀) _ _ hk
            (fun _ hb _ => ite_runs (countSlice_runs _ _ (l3ToMemory_runs _ hb)) (l3ToMemory_runs _ hb)))))

theorem l3Return_runs {m : Mach} (line stop : Nat) (h : m.RunsAs d₀ x₀) : (m.l3Return line stop).RunsAs d₀ x₀ := by
  dsimp only [Mach.l3Return]
  split
  · exact noteStale_runs _ (modL3_runs _ _ h)
  · split
    · next _ t he =>
        have hk : t.RunsAs d₀ x₀ := of_snd_runs he (allocL3_runs _ _ _ h)
        exact hk
    · next _ t he =>
        have hk : t.RunsAs d₀ x₀ := of_snd_runs he (allocL3_runs _ _ _ h)
        exact unstale_runs _ hk

theorem becomeM_runs {m : Mach} (c line : Nat) (h : m.RunsAs d₀ x₀) : (m.becomeM c line).RunsAs d₀ x₀ := by
  dsimp only [Mach.becomeM]
  split
  · exact h
  · refine foldl_keeps (P := fun (t : Mach) => t.RunsAs d₀ x₀) _ _
      (setDir_runs _ _ (setLine_runs _ _ _ (dropLines_runs _ _ (ite_runs h (modL3_runs _ _ (noteStale_runs _ h)))))) fun _ hb1 _ => ?_
    exact armedWrite_runs _ _ _ _ hb1

theorem stored_runs {m : Mach} (a : Nat) (h : m.RunsAs d₀ x₀) : (m.stored a).RunsAs d₀ x₀ := by
  dsimp only [Mach.stored]
  split
  · exact armedWrite_runs _ _ _ _ h
  · exact armedWrite_runs _ _ _ _ h
  · split
    · exact armedWrite_runs _ _ _ _ h
    · split
      · exact armedWrite_runs _ _ _ _ h
      · refine armedWrite_runs _ _ _ _ (armedWrite_runs _ _ _ _ h)
  · exact h

theorem homeWrite_runs {m : Mach} (writer : Option Nat) (line : Nat) (h : m.RunsAs d₀ x₀) : (m.homeWrite writer line).RunsAs d₀ x₀ := by
  dsimp only [Mach.homeWrite]
  split
  · exact ite_runs (modL3_runs _ _ (noteStale_runs _ (setDir_runs _ _ (dropLines_runs _ _ (l3Return_runs _ _ h)))))
      (setDir_runs _ _ (dropLines_runs _ _ (l3Return_runs _ _ h)))
  · exact ite_runs (modL3_runs _ _ (noteStale_runs _ (setDir_runs _ _ (dropLines_runs _ _ h)))) (setDir_runs _ _ (dropLines_runs _ _ h))

theorem tlbFill_runs {m : Mach} (c : Nat) (e : TlbEntry) (h : m.RunsAs d₀ x₀) :
    (m.tlbFill c e).RunsAs d₀ x₀ := ite_runs h (setCore_runs _ _ h rfl)

theorem translate_runs {m : Mach} (c : Nat) (nd : Need) (gtOk : Bool) (va : Nat) (h : m.RunsAs d₀ x₀) :
    OkAll (fun r => r.2.2.RunsAs d₀ x₀) (m.translate c nd gtOk va) := by
  dsimp only [Mach.translate]
  split
  · split
    · exact trivial
    · exact trivial
    · exact h
  · split
    · exact trivial
    · dsimp only [OkAll, SomeAll]
      split
      · refine setByte_runs _ _ ?_
        split
        · exact homeWrite_runs _ _ (countCore_runs _ _ _ (tlbFill_runs _ _ (drawn_runs h)))
        · exact countCore_runs _ _ _ (tlbFill_runs _ _ (drawn_runs h))
      · exact countCore_runs _ _ _ (tlbFill_runs _ _ (drawn_runs h))

theorem entryPa_runs {m : Mach} (c : Nat) (tsel : Bool) (idx : Nat) (h : m.RunsAs d₀ x₀) :
    OkAll (fun r => r.2.RunsAs d₀ x₀) (m.entryPa c tsel idx) := by
  dsimp only [Mach.entryPa]
  split
  · exact trivial
  · next _ _ _ t he =>
      have hke : t.RunsAs d₀ x₀ := OkAll.elim he (translate_runs _ _ _ _ h) id
      split
      · exact trivial
      · split
        · split
          · exact hke
          · exact trivial
        · exact hke

theorem gcFill_runs {m : Mach} (c : Nat) (l : GrantLine) (h : m.RunsAs d₀ x₀) :
    (m.gcFill c l).RunsAs d₀ x₀ := ite_runs h (setCore_runs _ _ h rfl)

theorem entry_runs {m : Mach} (c : Nat) (tsel : Bool) (idx : Nat) (h : m.RunsAs d₀ x₀) :
    OkAll (fun r => r.2.2.RunsAs d₀ x₀) (m.entry c tsel idx) := by
  dsimp only [Mach.entry]
  split
  · exact trivial
  · next _ _ t he =>
      have hke : t.RunsAs d₀ x₀ := OkAll.elim he (entryPa_runs _ _ _ h) id
      split
      · exact hke
      · split
        · exact countCore_runs _ _ _ hke
        · split
          · exact gcFill_runs _ _ (countCore_runs _ _ _ hke)
          · exact countCore_runs _ _ _ hke

theorem live_runs {m : Mach} (c : Nat) (cap : Word) (a : Acc) (w2 : W64) (vaddr : Nat) (h : m.RunsAs d₀ x₀) :
    OkAll (fun r => r.2.2.RunsAs d₀ x₀) (m.live c cap a w2 vaddr) := by
  dsimp only [Mach.live]
  split
  · exact trivial
  · split
    · exact trivial
    · exact trivial
    · next _ _ _ t he =>
        have hke : t.RunsAs d₀ x₀ := OkAll.elim he (entry_runs _ _ _ h) id
        split
        · exact hke
        · exact trivial

theorem checkHalf_runs {m : Mach} (c colour : Nat) (rq : Req) (va n : Nat) (h : m.RunsAs d₀ x₀) :
    OkAll (fun r => r.2.RunsAs d₀ x₀) (m.checkHalf c colour rq va n) := by
  dsimp only [Mach.checkHalf]
  split
  · exact trivial
  · next _ _ _ t he =>
      have hke : t.RunsAs d₀ x₀ := OkAll.elim he (translate_runs _ _ _ _ h) id
      split
      · exact trivial
      · split
        · split
          · exact trivial
          · exact hke
        · split
          · exact trivial
          · exact hke
        · split
          · exact trivial
          · exact hke
        · split
          · exact trivial
          · exact hke
        · split
          · exact trivial
          · exact hke

theorem checkHalves_runs {m : Mach} (c colour : Nat) (rq : Req) (l : List (Nat × Nat)) (h : m.RunsAs d₀ x₀) :
    OkAll (fun r => r.2.RunsAs d₀ x₀) (m.checkHalves c colour rq l) := by
  induction l generalizing m with
  | nil => exact h
  | cons p t ih =>
    dsimp only [Mach.checkHalves]
    split
    · exact trivial
    · next he =>
      have h1 := OkAll.elim he (checkHalf_runs _ _ _ _ _ h) id
      split
      · exact trivial
      · next he2 => exact OkAll.elim he2 (ih h1) id

theorem checkParts_runs {m : Mach} (c : Nat) (cap : Word) (ea : Int) (rq : Req) (parts : List (Nat × Nat)) (h : m.RunsAs d₀ x₀) :
    OkAll (fun r => r.2.2.RunsAs d₀ x₀) (m.checkParts c cap ea rq parts) := by
  dsimp only [Mach.checkParts]
  split
  · exact trivial
  · next _ _ _ t he =>
      have hke : t.RunsAs d₀ x₀ := OkAll.elim he (live_runs _ _ _ _ _ h) id
      split
      · exact trivial
      · split
        · exact trivial
        · split
          · exact trivial
          · split
            · exact trivial
            · split
              · exact trivial
              · split
                · exact trivial
                · next _ _ t1 he1 =>
                    have hke1 : t1.RunsAs d₀ x₀ := OkAll.elim he1 (checkHalves_runs _ _ _ _ hke) id
                    exact hke1

theorem check_runs {m : Mach} (c : Nat) (cap : Word) (ea : Int) (rq : Req) (h : m.RunsAs d₀ x₀) :
    OkAll (fun r => r.2.2.RunsAs d₀ x₀) (m.check c cap ea rq) :=
  checkParts_runs _ _ _ _ _ h

theorem epnSend_runs {m : Mach} (l : Nat) (h : m.RunsAs d₀ x₀) : (m.epnSend l).RunsAs d₀ x₀ := of_cores_runs h rfl

theorem mirrorWrite_runs {m : Mach} (st unit a mask : Nat) (h : m.RunsAs d₀ x₀) : (m.mirrorWrite st unit a mask).RunsAs d₀ x₀ := by
  dsimp only [Mach.mirrorWrite]
  split
  · exact h
  · split
    · exact h
    · split
      · split
        · exact setCore_runs _ _ h rfl
        · exact h
      · split
        · split
          · exact setCore_runs _ _ (countUncore_runs _ _ _ (epnSend_runs _ (of_cores_runs h rfl))) rfl
          · exact countUncore_runs _ _ _ (epnSend_runs _ (of_cores_runs h rfl))
        · exact h

theorem drainWord_runs {m : Mach} (line : Nat) (p : Nat × MbWord) (h : m.RunsAs d₀ x₀) : (m.drainWord line p).RunsAs d₀ x₀ :=
  setMeta_runs _ _ (writeN_runs _ _ _ h)

theorem ownFor_runs {m : Mach} (c pt a : Nat) (h : m.RunsAs d₀ x₀) : (m.ownFor c pt a).RunsAs d₀ x₀ := by
  dsimp only [Mach.ownFor]
  split
  · exact h
  · split
    · exact becomeM_runs _ _ h
    · exact homeWrite_runs _ _ h

theorem drainEntry_runs {m : Mach} (c : Nat) (e : MbEntry) (h : m.RunsAs d₀ x₀) : (m.drainEntry c e).RunsAs d₀ x₀ :=
  l1Inval_runs _ _ (foldl_keeps (P := fun (t : Mach) => t.RunsAs d₀ x₀) _ _ (ownFor_runs _ _ _ h)
    (fun _ hb _ => mirrorWrite_runs _ _ _ _ (stored_runs _ (drainWord_runs _ _ hb))))

theorem drainOldest_runs {m : Mach} (c k : Nat) (h : m.RunsAs d₀ x₀) : (m.drainOldest c k).RunsAs d₀ x₀ := by
  induction k generalizing m with
  | zero => exact h
  | succ k ih =>
    dsimp only [Mach.drainOldest]
    split
    · exact h
    · exact ih (setCore_runs _ _ (drainEntry_runs _ _ h) rfl)

theorem drainLine_runs {m : Mach} (c line : Nat) (h : m.RunsAs d₀ x₀) : (m.drainLine c line).RunsAs d₀ x₀ := by
  dsimp only [Mach.drainLine]
  split
  · exact h
  · exact drainOldest_runs _ _ h

theorem l1Access_runs {m : Mach} (c pa : Nat) (fetch : Bool) (h : m.RunsAs d₀ x₀) : (m.l1Access c pa fetch).RunsAs d₀ x₀ := by
  dsimp only [Mach.l1Access]
  split
  · exact h
  · split
    · exact drainLine_runs _ _ h
    · split
      · exact setCore_runs _ _ h rfl
      · split
        · exact countCore_runs _ _ _ (setCore_runs _ _ (countCore_runs _ _ _ (ite_runs h (drainLine_runs _ _ h))) rfl)
        · refine foldl_keeps (P := fun (t : Mach) => t.RunsAs d₀ x₀) _ _
            (setCore_runs _ _ (countCore_runs _ _ _ (ite_runs h (drainLine_runs _ _ h))) rfl) fun _ hb1 _ => ?_
          exact armedWrite_runs _ _ _ _ hb1

theorem setProtLog_runs {m : Mach} (st k : Nat) (l : List LogEnt) (h : m.RunsAs d₀ x₀) :
    (m.setProtLog st k l).RunsAs d₀ x₀ := of_cores_runs h rfl

theorem raiseOpt_runs {m : Mach} (st : Nat) (src : Option Nat) (pa : Nat) (h : m.RunsAs d₀ x₀) : (m.raiseOpt st src pa).RunsAs d₀ x₀ := by
  dsimp only [Mach.raiseOpt]
  split
  · exact raiseOwn_runs _ _ _ h
  · exact h

theorem logCorrection_runs {m : Mach} (st k cls pa loc : Nat) (subch ch : Bool) (h : m.RunsAs d₀ x₀) :
    (m.logCorrection st k cls pa loc subch ch).RunsAs d₀ x₀ := by
  dsimp only [Mach.logCorrection]
  split
  · exact ite_runs (raiseOpt_runs _ _ _ (setProtLog_runs _ _ _ h)) (setProtLog_runs _ _ _ h)
  · split
    · exact ite_runs (raiseOpt_runs _ _ _ (setProtLog_runs _ _ _ h)) (setProtLog_runs _ _ _ h)
    · split
      · exact ite_runs (raiseOpt_runs _ _ _ (setProtLog_runs _ _ _ h)) (setProtLog_runs _ _ _ h)
      · split
        · exact ite_runs (raiseOpt_runs _ _ _ (setProtLog_runs _ _ _ h)) (setProtLog_runs _ _ _ h)
        · exact countReg_runs _ _ _ _ _ _ h

theorem correctable_runs {m : Mach} (u : Upset) (loc : Nat) (h : m.RunsAs d₀ x₀) : (m.correctable u loc).RunsAs d₀ x₀ :=
  logCorrection_runs _ _ _ _ _ _ _ (raiseOpt_runs _ _ _ (countReg_runs _ _ _ _ _ _ h))

theorem poisonWord_runs {m : Mach} (a : Nat) (h : m.RunsAs d₀ x₀) : (m.poisonWord a).RunsAs d₀ x₀ :=
  ite_runs (of_cores_runs h rfl) (of_cores_runs h rfl)

theorem poisonLine_runs {m : Mach} (pa : Nat) (h : m.RunsAs d₀ x₀) : (m.poisonLine pa).RunsAs d₀ x₀ :=
  foldl_keeps (P := fun (t : Mach) => t.RunsAs d₀ x₀) _ _ h (fun _ hb _ => poisonWord_runs _ hb)

theorem poisonDram_runs {m : Mach} (pa : Nat) (h : m.RunsAs d₀ x₀) : (m.poisonDram pa).RunsAs d₀ x₀ := by
  dsimp only [Mach.poisonDram]
  split
  · exact of_cores_runs h rfl
  · exact poisonLine_runs _ h

theorem loseStored_runs {m : Mach} (pa : Nat) (h : m.RunsAs d₀ x₀) : (m.loseStored pa).RunsAs d₀ x₀ := by
  dsimp only [Mach.loseStored]
  split
  · exact of_cores_runs h rfl
  · exact of_cores_runs h rfl

theorem loseMeta_runs {m : Mach} (pa : Nat) (h : m.RunsAs d₀ x₀) : (m.loseMeta pa).RunsAs d₀ x₀ :=
  foldl_keeps (P := fun (t : Mach) => t.RunsAs d₀ x₀) _ _ h (fun _ hb _ => loseStored_runs _ hb)

theorem uncorrectable_runs {m : Mach} (u : Upset) (dirty : Bool) (h : m.RunsAs d₀ x₀) : (m.uncorrectable u dirty).RunsAs d₀ x₀ := by
  dsimp only [Mach.uncorrectable]
  split
  · exact ite_runs (of_cores_runs (m := m.countReg u.st u.k 776 48 16 1) (countReg_runs _ _ _ _ _ _ h) rfl) (countReg_runs _ _ _ _ _ _ h)
  · split
    · exact of_cores_runs (raiseOpt_runs _ _ _ (countReg_runs _ _ _ _ _ _ h)) rfl
    · split
      · exact loseMeta_runs _ (raiseOpt_runs _ _ _ (countReg_runs _ _ _ _ _ _ h))
      · exact ite_runs (poisonDram_runs _ (raiseOpt_runs _ _ _ (countReg_runs _ _ _ _ _ _ h)))
          (poisonWord_runs _ (raiseOpt_runs _ _ _ (countReg_runs _ _ _ _ _ _ h)))

theorem meetUpset_runs {m : Mach} (u : Upset) (h : m.RunsAs d₀ x₀) : (m.meetUpset u).RunsAs d₀ x₀ := by
  dsimp only [Mach.meetUpset]
  split
  · exact of_cores_runs h rfl
  · exact correctable_runs _ _ (of_cores_runs h rfl)
  · exact uncorrectable_runs _ _ (of_cores_runs h rfl)
  · split
    · exact uncorrectable_runs _ _ (drawn_runs (of_cores_runs h rfl))
    · exact ite_runs (drawn_runs (of_cores_runs h rfl)) (writeN_runs _ _ _ (drawn_runs (of_cores_runs h rfl)))

theorem readUpsets_runs {m : Mach} (c : Option Nat) (fetch : Bool) (pa n : Nat) (h : m.RunsAs d₀ x₀) :
    (m.readUpsets c fetch pa n).RunsAs d₀ x₀ :=
  foldl_keeps (P := fun (t : Mach) => t.RunsAs d₀ x₀) _ _ h (fun _ hb _ => meetUpset_runs _ hb)

theorem fetch_runs {m : Mach} (c : Nat) (h : m.RunsAs d₀ x₀) : OkAll (fun r => r.RunsAs d₀ x₀) (m.fetch c) := by
  dsimp only [Mach.fetch]
  split
  · exact trivial
  · next _ _ _ t he =>
      have hke : t.RunsAs d₀ x₀ := OkAll.elim he (check_runs _ _ _ _ h) id
      split
      · exact trivial
      · exact hke
      · split
        · exact trivial
        · split
          · exact trivial
          · dsimp only [OkAll, SomeAll]
            split
            · exact readUpsets_runs _ _ _ _ hke
            · split
              · exact l1Access_runs _ _ _ (readUpsets_runs _ _ _ _ hke)
              · exact armedWrite_runs _ _ _ _ (readUpsets_runs _ _ _ _ hke)

end

/-- The core that begins an instruction is, at its operands, as before the fetch. -/
theorem begins_outside {m m1 : Mach} {c : Nat} (h : m.Begins c m1) : (m1.core c).outside = (m.core c).outside := by
  obtain ⟨_, _, hst, _⟩ := begins_running h
  have hr : m.RunsAs c (m.core c).outside := ⟨hst, rfl⟩
  obtain ⟨_, _, hf⟩ := h
  exact OkAll.elim hf (fetch_runs c hr) And.right

end Sys2Proof.Machine

/-!
SUPPORT. The floating-point operations (R90, R91): an instruction that begins ends with its operation on the numbers that its sources hold,
under the rounding mode of FCSR, and every invalid operation is the canonical NaN.
-/

namespace Sys2Proof.Machine

section
variable {m m1 : Mach} {c : Nat}

/-- The fetch leaves FCSR alone. -/
theorem fcsr_of_begins (h : m.Begins c m1) : (m1.core c).fcsr = (m.core c).fcsr := by
  have ho := congrArg Core.fcsr (begins_outside h)
  exact ho

/-- The fetch leaves the rounding mode alone. -/
theorem rm_of_begins (h : m.Begins c m1) : m.rm c = fcsrRm (m1.core c).fcsr := by
  rw [fcsr_of_begins h]
  rfl

variable (h : m.Begins c m1) (d a b : BitVec 6) (single : Bool)
include h

/-- An operation on two patterns. -/
theorem fpBits_begins (op : Fp.Fmt → Nat → Nat → Nat × Flags) :
    fpBits c d a b single op m = fpEnd m1 c d (op (fmtOf single) (fld (m1.g c a.toNat).data 0 (fmtOf single).width)
      (fld (m1.g c b.toNat).data 0 (fmtOf single).width)) ((m1.g c a.toNat).poison || (m1.g c b.toNat).poison) :=
  instr_begins h _ _

/-- An operation on two numbers. -/
theorem fp2_begins (op : Fp.Fmt → Nat → Fp.Val → Fp.Val → Nat × Flags) :
    fp2 c d a b single op m = fpEnd m1 c d (op (fmtOf single) (fcsrRm (m1.core c).fcsr)
      (Fp.unpack (fmtOf single) (fld (m1.g c a.toNat).data 0 (fmtOf single).width))
      (Fp.unpack (fmtOf single) (fld (m1.g c b.toNat).data 0 (fmtOf single).width)))
      ((m1.g c a.toNat).poison || (m1.g c b.toNat).poison) := by
  rw [← rm_of_begins h]
  exact fpBits_begins h d a b single _

/-- An operation on one number. -/
theorem fp1_begins (op : Fp.Fmt → Nat → Fp.Val → Nat × Flags) :
    fp1 c d a single op m = fpEnd m1 c d (op (fmtOf single) (fcsrRm (m1.core c).fcsr)
      (Fp.unpack (fmtOf single) (fld (m1.g c a.toNat).data 0 (fmtOf single).width))) (m1.g c a.toNat).poison :=
  instr_begins h _ _

/-- A fused operation. -/
theorem fp3_begins (op : Fp.Fmt → Nat → Fp.Val → Fp.Val → Fp.Val → Nat × Flags) :
    fp3 c d a b single op m = fpEnd m1 c d (op (fmtOf single) (fcsrRm (m1.core c).fcsr)
      (Fp.unpack (fmtOf single) (fld (m1.g c a.toNat).data 0 (fmtOf single).width))
      (Fp.unpack (fmtOf single) (fld (m1.g c b.toNat).data 0 (fmtOf single).width))
      (Fp.unpack (fmtOf single) (fld (m1.g c d.toNat).data 0 (fmtOf single).width)))
      ((m1.g c a.toNat).poison || (m1.g c b.toNat).poison || (m1.g c d.toNat).poison) :=
  instr_begins h _ _

/-- A classification. -/
theorem fpClass_begins : fpClass c d a single m = fpEnd m1 c d
    (2 ^ Fp.classBit (fmtOf single) (fld (m1.g c a.toNat).data 0 (fmtOf single).width), .none) (m1.g c a.toNat).poison :=
  instr_begins h _ _

end

section
variable {s : State} {c : Nat} {m1 : Mach} (h : s.m.Begins c m1) (d a b : BitVec 6) (single : Bool)
include h

/-- Every instruction of the table completes with the operation that the table gives it. -/
theorem fpTwoTable_exec : ∀ p ∈ fpTwoTable,
    let f := fmtOf single
    exec (p.1 c d a b single) s = .next (s.withM (fpEnd m1 c d
      (p.2 f (fcsrRm (m1.core c).fcsr) (fld (m1.g c a.toNat).data 0 f.width) (fld (m1.g c b.toNat).data 0 f.width))
      ((m1.g c a.toNat).poison || (m1.g c b.toNat).poison))) := by
  simp only [fpTwoTable, List.forall_mem_cons, List.not_mem_nil, false_imp_iff, implies_true, and_true]
  refine ⟨?add, ?sub, ?mul, ?div, ?min, ?max, ?sgnj, ?sgnjn, ?sgnjx, ?eq, ?lt, ?le⟩
  case add => exact exec_of_upd rfl (fp2_begins h d a b single Fp.add)
  case sub => exact exec_of_upd rfl (fp2_begins h d a b single fpSub)
  case mul => exact exec_of_upd rfl (fp2_begins h d a b single Fp.mul)
  case div => exact exec_of_upd rfl (fp2_begins h d a b single Fp.div)
  all_goals exact exec_of_upd rfl (fpBits_begins h d a b single _)

/-- Every fused form completes with the operation that the table gives it. -/
theorem fpFusedTable_exec : ∀ p ∈ fpFusedTable,
    let f := fmtOf single
    let val := fun (w : Word) => Fp.unpack f (fld w.data 0 f.width)
    exec (p.1 c d a b single) s = .next (s.withM (fpEnd m1 c d
      (p.2 f (fcsrRm (m1.core c).fcsr) (val (m1.g c a.toNat)) (val (m1.g c b.toNat)) (val (m1.g c d.toNat)))
      ((m1.g c a.toNat).poison || (m1.g c b.toNat).poison || (m1.g c d.toNat).poison))) := by
  simp only [fpFusedTable, List.forall_mem_cons, List.not_mem_nil, false_imp_iff, implies_true, and_true]
  refine ⟨?madd, ?msub, ?nmadd, ?nmsub⟩
  all_goals exact exec_of_upd rfl (fp3_begins h d a b single _)

end

/-! ### NaN results (R90) -/

theorem fpAdd_nan (f : Fp.Fmt) (rm : Nat) (q : Bool) (b : Fp.Val) : Fp.add f rm (.nan q) b = Fp.nanOf f (q || b.isSnan) := rfl

theorem fpMul_nan (f : Fp.Fmt) (rm : Nat) (a : Fp.Val) (q : Bool) : Fp.mul f rm a (.nan q) = Fp.nanOf f (a.isSnan || q) := by
  cases a <;> rfl

theorem fpDiv_nan (f : Fp.Fmt) (rm : Nat) (q : Bool) (b : Fp.Val) : Fp.div f rm (.nan q) b = Fp.nanOf f (q || b.isSnan) := rfl

/-- The difference of two infinities. -/
theorem fpAdd_inf_opposite (f : Fp.Fmt) (rm : Nat) (q : Bool) : Fp.add f rm (.inf q) (.inf (! q)) = Fp.nanOf f true := by
  cases q <;> rfl

/-- A number divided by zero is an infinity, with DZ. -/
theorem fpDiv_zero (f : Fp.Fmt) (rm : Nat) (q : Bool) :
    Fp.div f rm (.fin false 1 0) (.fin q 0 0) = (f.inf q, ⟨false, true, false, false, false⟩) := by
  cases q <;> rfl

/-- Settles O9: every instruction completes with its operation on the operands, and each invalid operation is the canonical NaN. -/
theorem floatResults : Obligations.FloatResults := by
  refine ⟨fun s c d a b single m1 h => ⟨fpTwoTable_exec h d a b single, fpFusedTable_exec h d a b single, ?sqrt, ?clas⟩,
    fun f rm a b q => ⟨fpAdd_nan f rm q b, fpMul_nan f rm a q, fpDiv_nan f rm q b, rfl, fpAdd_inf_opposite f rm q, rfl, rfl, rfl,
      fpDiv_zero f rm q, rfl, rfl⟩, by decide⟩
  case sqrt => exact exec_of_upd rfl (fp1_begins h d a single Fp.sqrt)
  case clas => exact exec_of_upd rfl (fpClass_begins h d a single)


end Sys2Proof.Machine

/-!
SUPPORT. Machines for counterexamples: a running device with one running core, and the case that an access passes in one part.
-/

namespace Sys2Proof.Machine

/-- What an operation answers, or the default where it fails. -/
def okOr {ε α : Type} (d : α) : Except ε α → α
  | .ok a => a
  | .error _ => d

theorem eq_okOr {ε α : Type} {d : α} {e : Except ε α} (h : e.isOk = true) : e = .ok (okOr d e) := by
  cases e with
  | ok a => rfl
  | error _ => cases h

/-- The machine after the fetch of core `c`. -/
def Mach.afterFetch (m : Mach) (c : Nat) : Mach := okOr m (m.fetch c)

/-- An instruction begins where the core runs, nothing is due and the fetch passes. -/
theorem begins_afterFetch {m : Mach} {c : Nat} (h : (m.canRun c && (m.due c).isNone && (m.fetch c).isOk) = true) :
    m.Begins c (m.afterFetch c) := by
  simp only [Bool.and_eq_true, Option.isNone_iff_eq_none] at h
  obtain ⟨⟨hrun, hdue⟩, hfetch⟩ := h
  exact ⟨hrun, hdue, eq_okOr hfetch⟩

/-- Whether an access passes in one part with which `q` holds. -/
def onePart {ε : Type} (e : Except ε (List Piece × Grant × Mach)) (q : Piece → Grant → Mach → Bool) : Bool :=
  match e with
  | .ok ([p], g, t) => q p g t
  | _ => false

theorem exists_of_onePart {ε : Type} {e : Except ε (List Piece × Grant × Mach)} {q : Piece → Grant → Mach → Bool}
    (h : onePart e q = true) : ∃ p g t, e = .ok ([p], g, t) ∧ q p g t = true := by
  unfold onePart at h
  split at h
  · next p g t => exact ⟨p, g, t, rfl, h⟩
  · cases h

/-- A translation of `2 ^ lg` bytes at `v` to the addresses at `pa`, with every right; `ptype` 1 is of a grant table. -/
def xlTo (v lg pa ptype : Nat) : TlbEntry := ⟨.host, 0, 0, true, lg, v, 0, pa, true, true, true, true, true, true, false, ptype⟩

/-- A capability of the cached grant 1 of `refCore`, which covers the low 2⁴⁰ bytes with every permission. -/
def refCap (cursor : Nat) : Word := .cap cursor 1 false 0

/-- A running core that caches a grant table, its grant 1 and the translation of the low 2⁴⁷ bytes to themselves. -/
def refCore : Core := { Core.reset with
  st := .running
  pcc := refCap 0x1000
  gtab := 0x10000
  s1 := 1
  tlb := [xlTo 0x10000 16 0x10000 1, xlTo 0 47 0 0]
  gcache := [⟨0x10020, 0, BitVec.ofNat 64 (2 ^ 40), setBit (setFld 0 0 16 0xFFFF) 63 true, 0⟩]
  vtype := 3
  vl := 2 }

/-- A running device with every power domain ON, one memory channel and `x` as core 0. -/
def refDev (x : Core) : Mach := { Mach.reset with
  phase := .run, ctl := (List.range 49).map (fun d => (544 + d, 1)), cores := [(0, x)], dram := ⟨[0], 2 ^ 30, []⟩ }

end Sys2Proof.Machine

/-!
SUPPORT. STC (O14) refuted: a tagged word that is stored to cluster memory without power is refused, and not stored.
-/

namespace Sys2Proof.Machine

/-- A core with a translation to the memory of cluster 0, a capability to it and another to store. -/
def clusterCore : Core := { refCore with
  tlb := [xlTo 0x10000 16 0x10000 1, xlTo 0x200000 12 (ctlBase + ccStop 0 * 0x1000000 + 0x100000) 0, xlTo 0 47 0 0]
  g := [(2, refCap 0x200000), (3, refCap 0x2000)] }

/-- The device with the power domain of cluster 0 not ON. -/
def clusterOff : Mach := { refDev clusterCore with ctl := ((List.range 49).filter (· ≠ 36)).map (fun d => (544 + d, 1)) }

/-- Whether core 0 holds a refused store. -/
def Mach.holdsRefused (m : Mach) : Bool := (m.core 0).refused.isSome

theorem exec_stc (c : Nat) (d a : BitVec 6) (i : BitVec 14) (s : State) :
    exec (.stc c d a i) s = .next (s.withM (stcBody c d a i s.m)) := rfl

/-- Steps to the same state leave the same machine. -/
theorem m_eq_of_next {s : State} {m t : Mach} (h : (.next (s.withM m) : Out) = .next (s.withM t)) : m = t := by
  injection h with h
  exact congrArg State.m h

theorem clusterOff_stc_refused : (stcBody 0 3 2 0 clusterOff).holdsRefused = true := by decide

set_option maxRecDepth 20000 in
/-- Refutes O14: the clause on STC does not ask that the target answers. A store of a tagged word through a capability to cluster memory
passes every check and its part is memory, but the power domain of the cluster is not ON: the core holds the refused store, where the
clause stores the word. -/
theorem not_capabilityLoadsAndStores : ¬ Obligations.CapabilityLoadsAndStores := by
  intro h
  obtain ⟨p, g, m2, hcheck, hq⟩ := exists_of_onePart
    (e := (clusterOff.afterFetch 0).check 0 ((clusterOff.afterFetch 0).g 0 2) (((clusterOff.afterFetch 0).g 0 2).cursor + (0 : Int) * 8)
      (stcReq ((clusterOff.afterFetch 0).g 0 3).tag))
    (q := fun p _ t => t.isMem p.pa && t.sweepsRun.isEmpty && ! t.mirrorFull 0 [p] &&
      ! ((clusterOff.afterFetch 0).finish 0 [0x006]
        (.ok (t.storeWord 0 p.pt p.pa 8 ((clusterOff.afterFetch 0).g 0 3).data.toNat true false))).holdsRefused) (by decide)
  simp only [Bool.and_eq_true, Bool.not_eq_true', List.isEmpty_iff] at hq
  obtain ⟨⟨⟨hmem, hsweeps⟩, hfull⟩, hstored⟩ := hq
  obtain ⟨_, hstc⟩ := h ⟨[], clusterOff⟩ 0 3 2 0 (clusterOff.afterFetch 0) m2 p g (begins_afterFetch (by decide)) (by decide) hmem hsweeps
  have he := hstc hcheck hfull (by decide) (by decide)
  rw [exec_stc] at he
  have hm := clusterOff_stc_refused
  rw [m_eq_of_next he] at hm
  exact Bool.noConfusion (hm.symm.trans hstored)

end Sys2Proof.Machine

/-!
SUPPORT. The fields of a payload beside a field or a bit that is written.
-/

namespace Sys2Proof.Machine

section
variable (v : W64) {lo n : Nat} (x : Nat)

/-- A field reads as it was written. -/
theorem fld_setFld_same (h : lo + n ≤ 64) : fld (setFld v lo n x) lo n = x % 2 ^ n := by
  apply Nat.eq_of_testBit_eq
  intro k
  rw [testBit_fld, Nat.testBit_mod_two_pow]
  by_cases hk : k < n
  · rw [getLsbD_setFld _ _ _ _ _ (by omega)]
    simp [hk]
  · simp [hk]

/-- A written field leaves the fields beside it. -/
theorem fld_setFld_ne {lo' n' : Nat} (h' : lo' + n' ≤ 64) (h : lo' + n' ≤ lo ∨ lo + n ≤ lo') :
    fld (setFld v lo n x) lo' n' = fld v lo' n' := by
  apply Nat.eq_of_testBit_eq
  intro k
  rw [testBit_fld, testBit_fld]
  by_cases hk : k < n'
  · rw [getLsbD_setFld _ _ _ _ _ (by omega), if_neg (by omega)]
  · simp [hk]

/-- A set bit leaves the fields beside it. -/
theorem fld_setBit_ne {i lo' n' : Nat} (b : Bool) (h' : lo' + n' ≤ 64) (h : lo' + n' ≤ i ∨ i < lo') :
    fld (setBit v i b) lo' n' = fld v lo' n' :=
  fld_setFld_ne v _ h' (by omega)

theorem fld_zero (lo n : Nat) : fld 0 lo n = 0 := by simp [fld]

theorem fld_lt (lo n : Nat) : fld v lo n < 2 ^ n := Nat.mod_lt _ (by positivity)

theorem bit_zero (i : Nat) : bit 0 i = false := by simp [bit]

end

end Sys2Proof.Machine

/-!
SUPPORT. The capability instructions (R55 to R58, R64): the end of each under the checks that it needs, and the fields of the word that CTEST
answers.
-/

namespace Sys2Proof.Machine

/-! ### Another CURSOR (R58) -/

section
variable {s : State} {m1 : Mach} {c : Nat} (h : s.m.Begins c m1) (d a b : BitVec 6)
include h

theorem exec_csetc_begins : exec (.csetc c d a b) s = ends s m1 c []
    (match csetOf (m1.g c a.toNat) (m1.g c b.toNat) false with
      | .error e => .trap e
      | .ok w => m1.result c d.toNat w) :=
  exec_of_upd (i := .csetc c d a b) rfl (instr_begins h _ _)

theorem exec_csetcA_begins : exec (.csetcA c d a b) s = ends s m1 c []
    (match csetOf (m1.g c a.toNat) (m1.g c b.toNat) true with
      | .error e => .trap e
      | .ok w => m1.result c d.toNat w) :=
  exec_of_upd (i := .csetcA c d a b) rfl (instr_begins h _ _)

theorem exec_csetcSr_begins : exec (.csetcSr c d a b) s = ends s m1 c []
    (if d ≠ 3 ∧ d ≠ 4 then .trap (m1.illegal c 0)
    else match csetOf (m1.g c a.toNat) (m1.g c b.toNat) false with
    | .error e => .trap e
    | .ok w => .ok (m1.setCore c (if d = 3 then { m1.core c with savecap := w } else { m1.core c with evcap := w }))) :=
  exec_of_upd (i := .csetcSr c d a b) rfl (instr_begins h _ _)

theorem exec_ctest_begins : exec (.ctest c d a) s = ends s m1 c [] (.ok (m1.setG c d.toNat (.plain (m1.ctestWord c (m1.g c a.toNat))))) :=
  exec_of_upd (i := .ctest c d a) rfl (instr_begins h _ _)

end

section
variable {x y : Word} (absolute : Bool)

theorem csetOf_tagged (hx : x.poison = false) (hy : y.poison = false) (ht : x.tag = true) :
    csetOf x y absolute = .ok (x.withCursor (if absolute then fld y.data 0 48 else x.cursor + fld y.data 0 48)) := by
  simp [csetOf, hx, hy, ht]

theorem csetOf_untagged (hx : x.poison = false) (hy : y.poison = false) (ht : x.tag = false) :
    csetOf x y absolute = .error (.viol .capTag 2 .noacc .cap 0 x.cursor) := by
  simp [csetOf, hx, hy, ht]

theorem csetOf_poisoned (h : x.poison = true ∨ y.poison = true) : csetOf x y absolute = .error (.plain .poison 1 0) := by
  rcases h with h | h <;> simp [csetOf, h]

end

/-! ### CTEST (R58) -/

/-- What CTEST answers of the word alone. -/
def ctestBase (x : Word) : W64 := setFld (setBit (setBit 0 0 x.tag) 1 x.poison) 2 6 x.colour.toNat

/-- What CTEST answers of a live grant. -/
def ctestLive (x : Word) (g : Grant) : W64 :=
  setFld (setFld (setBit (setBit (setBit (ctestBase x) 10 g.exh) 8 true) 9 (decide (g.otype ≠ 0))) 16 16 (fld g.perms 0 16)) 32 16 g.otype

section
variable (m : Mach) (c : Nat) (x : Word)

theorem ctestWord_cases : m.ctestWord c x = ctestBase x ∨ (∃ g : Grant, m.ctestWord c x = setBit (ctestBase x) 10 g.exh) ∨
    (x.tag = true ∧ ∃ g : Grant, m.ctestWord c x = ctestLive x g) := by
  unfold Mach.ctestWord
  split
  · exact .inl rfl
  · next g _ _ _ =>
    dsimp only
    split
    · next hl =>
      simp only [Bool.and_eq_true] at hl
      exact .inr (.inr ⟨hl.1.1, g, rfl⟩)
    · exact .inr (.inl ⟨g, rfl⟩)

theorem ctestWord_live {g : Grant} {pa : Nat} {m2 : Mach} (he : m.entry c x.tsel x.index = .ok (g, pa, m2)) (ht : x.tag = true)
    (hv : g.valid = true) (hg : g.gen = x.gen) : m.ctestWord c x = ctestLive x g := by
  simp only [Mach.ctestWord, he, hv, hg, decide_true]
  rw [if_pos (by rw [ht]; rfl)]
  rfl

theorem ctestBase_fields : bit (ctestBase x) 0 = x.tag ∧ bit (ctestBase x) 1 = x.poison ∧ fld (ctestBase x) 2 6 = x.colour.toNat ∧
    bit (ctestBase x) 8 = false := by
  have hc : x.colour.toNat % 2 ^ 6 = x.colour.toNat := Nat.mod_eq_of_lt x.colour.isLt
  unfold ctestBase
  simp (disch := omega) only [bit_setFld_outside, bit_setBit_ne, bit_setBit_self, fld_setFld_same, bit_zero, hc, and_self]

theorem ctestLive_fields (g : Grant) : bit (ctestLive x g) 0 = x.tag ∧ bit (ctestLive x g) 1 = x.poison ∧
    fld (ctestLive x g) 2 6 = x.colour.toNat ∧ bit (ctestLive x g) 8 = true ∧ fld (ctestLive x g) 16 16 = fld g.perms 0 16 ∧
    fld (ctestLive x g) 32 16 = g.otype % 2 ^ 16 := by
  obtain ⟨h0, h1, h2, _⟩ := ctestBase_fields x
  have hp : fld g.perms 0 16 % 2 ^ 16 = fld g.perms 0 16 := Nat.mod_eq_of_lt (fld_lt _ _ _)
  unfold ctestLive
  simp (disch := omega) only [bit_setFld_outside, bit_setBit_ne, bit_setBit_self, fld_setFld_same, fld_setFld_ne, fld_setBit_ne, h0, h1, h2,
    hp, and_self]

/-- TAG, POISON and COLOUR of the word, and no live grant where it has no TAG. -/
theorem ctestWord_fields : bit (m.ctestWord c x) 0 = x.tag ∧ bit (m.ctestWord c x) 1 = x.poison ∧
    fld (m.ctestWord c x) 2 6 = x.colour.toNat ∧ (x.tag = false → bit (m.ctestWord c x) 8 = false) := by
  obtain ⟨h0, h1, h2, h8⟩ := ctestBase_fields x
  rcases ctestWord_cases m c x with h | ⟨g, h⟩ | ⟨ht, g, h⟩
  · rw [h]
    exact ⟨h0, h1, h2, fun _ => h8⟩
  · rw [h]
    simp (disch := omega) only [bit_setBit_ne, fld_setBit_ne]
    exact ⟨h0, h1, h2, fun _ => h8⟩
  · obtain ⟨l0, l1, l2, _⟩ := ctestLive_fields x g
    rw [h]
    exact ⟨l0, l1, l2, fun hf => absurd (ht.symm.trans hf) (by decide)⟩

end

/-! ### CSEAL and CUNSEAL (R57) -/

section
variable {m m2 m3 : Mach} {c : Nat} {g k : Grant} {pa pk : Nat} {x y : Word} (d : Nat)

theorem sealMove_up (hk : k.otype = 0) (hbase : k.base ≤ y.cursor) (hlimit : y.cursor < k.limit) (hx : x.index % 2 = 0) (hg : g.otype = 0)
    (hse : k.has .SE = true) (hv : (m.readGrant (pa + 32)).valid = true) (ho : (m.readGrant (pa + 32)).otype = y.cursor)
    (ht : g.twin (m.readGrant (pa + 32)) = true) :
    m.sealMove c d true x y g k pa = .ok (m.setG c d (x.withIndex (x.index + 1))) := by
  simp [Mach.sealMove, hk, hbase, hlimit, hx, hg, hse, hv, ho, ht]

theorem sealMove_down (hk : k.otype = 0) (hbase : k.base ≤ y.cursor) (hlimit : y.cursor < k.limit) (hx : x.index % 2 = 1)
    (hg : g.otype ≠ 0) (hus : k.has .US = true) (hy : g.otype = y.cursor) (hv : (m.readGrant (pa - 32)).valid = true)
    (ho : (m.readGrant (pa - 32)).otype = 0) (ht : g.twin (m.readGrant (pa - 32)) = true) :
    m.sealMove c d false x y g k pa = .ok (m.setG c d (x.withIndex (x.index - 1))) := by
  have h0 : y.cursor ≠ 0 := hy ▸ hg
  simp [Mach.sealMove, hk, hbase, hlimit, hx, hus, hy, hv, ho, ht, h0]

end

section
variable {s : State} {m1 m2 m3 : Mach} {c : Nat} {g k : Grant} {pa pk : Nat} (h : s.m.Begins c m1) (d a b : BitVec 6)
  (hx : m1.liveOp c (m1.g c a.toNat) = .ok (g, pa, m2)) (hy : m2.liveOp c (m1.g c b.toNat) = .ok (k, pk, m3))
include h hx hy

theorem sealInstr_begins (up : Bool) : sealInstr c d a b up s.m =
    m1.finish c [] (m3.sealMove c d.toNat up (m1.g c a.toNat) (m1.g c b.toNat) g k pa) := by
  rw [sealInstr, instr_begins h]
  simp only [hx, hy]

theorem exec_cseal_begins : exec (.cseal c d a b) s =
    ends s m1 c [] (m3.sealMove c d.toNat true (m1.g c a.toNat) (m1.g c b.toNat) g k pa) :=
  exec_of_upd (i := .cseal c d a b) rfl (sealInstr_begins h d a b hx hy true)

theorem exec_cunseal_begins : exec (.cunseal c d a b) s =
    ends s m1 c [] (m3.sealMove c d.toNat false (m1.g c a.toNat) (m1.g c b.toNat) g k pa) :=
  exec_of_upd (i := .cunseal c d a b) rfl (sealInstr_begins h d a b hx hy false)

end

/-! ### GMINT (R55, R56) -/

section
variable {m m5 : Mach} {c d : Nat} {q : MintReq} {p : Grant} {x y : Word} {pa : Nat}

/-- What passes the checks of a request lies within the parent. -/
theorem mintReq_within (h : q.bad p x y = none) : p.base ≤ q.base ∧ q.base < q.limit ∧ q.limit ≤ p.limit ∧ q.perms &&& ~~~p.perms = 0 ∧
    (p.colour = 0 ∨ q.colour = p.colour) ∧ (q.tsel = true → x.tsel = true) := by
  unfold MintReq.bad at h
  split at h
  · cases h
  · split at h
    · cases h
    · next hr =>
      simp only [Bool.not_eq_true', Bool.and_eq_false_iff, decide_eq_false_iff_not, not_or, not_not] at hr
      obtain ⟨⟨hb, hl⟩, hu⟩ := hr
      split at h
      · cases h
      · next hp =>
        split at h
        · cases h
        · next hc =>
          split at h
          · cases h
          · next ht =>
            refine ⟨hb, hl, hu, not_not.mp hp, ?_, fun hq => ?_⟩
            · by_contra hn
              exact hc (not_or.mp hn)
            · by_contra hn
              exact ht ⟨hq, by simpa using hn⟩

theorem mintChecked_single (hb : q.bad p x y = none) (ho : q.otype = 0) (he : m.entryPa c q.tsel q.index = .ok (pa, m5)) :
    m.mintChecked c d q p x y = .ok ((m5.mintWrite c q pa).2.setG c d (m5.mintWrite c q pa).1) := by
  simp only [Mach.mintChecked, hb, ho, ne_eq, not_true_eq_false, if_false, he]

theorem mintWrite_valid (hv : (m.readGrant pa).valid = true) : m.mintWrite c q pa = (.plain 1, m) := by
  simp [Mach.mintWrite, hv]

theorem mintWrite_exhausted (ho : q.otype = 0) (hv : (m.readGrant pa).valid = false) (he : (m.readGrant pa).exh = true) :
    m.mintWrite c q pa = (.plain 2, m) := by
  simp [Mach.mintWrite, ho, hv, he]

theorem mintWrite_free (ho : q.otype = 0) (hv : (m.readGrant pa).valid = false) (he : (m.readGrant pa).exh = false) :
    m.mintWrite c q pa = (.cap q.base q.index q.tsel (m.readGrant pa).gen, m.writeGrant (coreStop c) (coreUnit c) pa
      ⟨q.base, q.limit, q.perms, 0, q.colour, (m.readGrant pa).gen, false, true, (m.core c).cmpid⟩) := by
  simp [Mach.mintWrite, ho, hv, he]

end

section
variable {s : State} {m1 m2 m3 : Mach} {c : Nat} {p : Grant} {pp : Nat} {pc : Piece} (h : s.m.Begins c m1) (d a b : BitVec 6)

/-- The machine that has read the request of a GMINT. -/
def Mach.readRequest (m : Mach) (c : Nat) (pc : Piece) : Mach := (m.loadSide c pc).readUpsets (some c) false pc.pa 32

/-- A request that is read. -/
def Mach.mintReq (m : Mach) (c : Nat) (pc : Piece) : MintReq :=
  .ofWords (m.coreWord c pc.pa) (m.coreWord c (pc.pa + 8)) (m.coreWord c (pc.pa + 16)) (m.coreWord c (pc.pa + 24))

include h in
theorem exec_gmint_read {m4 : Mach} (hx : m1.liveOp c (m1.g c a.toNat) = .ok (p, pp, m2)) (ho : p.otype = 0) (hp : p.has .GM = true)
    (hy : (m1.g c b.toNat).poison = false)
    (hr : m2.firstPiece c (m1.g c b.toNat) (m1.g c b.toNat).cursor mintReadReq = .ok (pc, m3)) (hm : m4 = m3.readRequest c pc)
    (h0 : (m4.coreWord c (pc.pa + 8 * 0)).poison = false) (h1 : (m4.coreWord c (pc.pa + 8 * 1)).poison = false)
    (h2 : (m4.coreWord c (pc.pa + 8 * 2)).poison = false) :
    exec (.gmint c d a b) s = ends s m1 c [] (m4.mintChecked c d.toNat (m4.mintReq c pc) p (m1.g c a.toNat) (m1.g c b.toNat)) := by
  refine exec_of_upd (i := .gmint c d a b) (f := gmint c d a b) rfl ?_
  subst hm
  rw [gmint, instr_begins h]
  unfold Mach.readRequest at h0 h1 h2
  simp only [hx, ho, hp, hy, hr, h0, h1, h2, ne_eq, not_true_eq_false, Bool.not_true, Bool.false_eq_true, or_self, if_false, Bool.or_self]
  rfl

end

/-! ### GREVOKE (R64) -/

section
variable {s : State} {m1 m2 m3 : Mach} {c : Nat} {t r : Grant} {pa pr : Nat} (h : s.m.Begins c m1) (d a b : BitVec 6)
  (hx : (m1.g c a.toNat).poison = false) (hy : (m1.g c b.toNat).poison = false) (htag : (m1.g c a.toNat).tag = true)
  (he : m1.entry c (m1.g c a.toNat).tsel (m1.g c a.toNat).index = .ok (t, pa, m2))
include h hx hy htag he

theorem exec_grevoke_dead (ht : t.valid = false ∨ t.gen ≠ (m1.g c a.toNat).gen) :
    exec (.grevoke c d a b) s = ends s m1 c [] (.ok (m2.setG c d.toNat (.plain 1))) := by
  refine exec_of_upd (i := .grevoke c d a b) (f := grevoke c d a b) rfl ?_
  rw [grevoke, instr_begins h]
  simp only [hx, hy, htag, he, Bool.or_self, Bool.false_eq_true, if_false, Bool.not_true]
  rw [if_pos (ht.imp (by simp) id)]

theorem exec_grevoke_live (hv : t.valid = true) (hg : t.gen = (m1.g c a.toNat).gen)
    (hr : m2.live c (m1.g c b.toNat) .noacc 0 (m1.g c b.toNat).cursor = .ok (r, pr, m3)) (ho : r.otype = 0)
    (hauth : (r.has .RV = true ∧ r.base ≤ t.base ∧ t.limit ≤ r.limit) ∨ t.owner = (m3.core c).cmpid) :
    exec (.grevoke c d a b) s = ends s m1 c [] (.ok ((m3.revoke (coreStop c) (coreUnit c) pa false).setG c d.toNat (.plain 0))) := by
  refine exec_of_upd (i := .grevoke c d a b) (f := grevoke c d a b) rfl ?_
  rw [grevoke, instr_begins h]
  simp only [hx, hy, htag, he, hv, hg, hr, ho, hauth, Bool.or_self, Bool.false_eq_true, if_false, Bool.not_true, ne_eq, not_true_eq_false,
    and_self, if_true]
  rfl

end

theorem revoked_gen (g : Grant) (wraps : Bool) : (g.revoked wraps).valid = false ∧ (g.gen < 15 → (g.revoked wraps).gen = g.gen + 1) ∧
    (15 ≤ g.gen → (g.revoked false).exh = true) := by
  unfold Grant.revoked
  refine ⟨?_, fun h => by rw [if_pos h], fun h => by rw [if_neg (by omega)]; rfl⟩
  split
  · rfl
  · split <;> rfl

/-- Settles O16: CSETC, CTEST and the seals by their one body, GMINT by the read of its request and the write of its entry, GREVOKE by the
state of its target. -/
theorem capabilityInstructionResults : Obligations.CapabilityInstructionResults := by
  refine ⟨fun s c d a b m1 h => ⟨fun hx hy ht => ⟨?_, ?_, ?_, ?_⟩, fun hx hy ht => ?_, fun hp => ?_, fun h3 h4 => ?_, ?_, ?_⟩,
    fun s c d a b m1 m2 m3 g k pa pk h hx hy hk hb hl => ⟨fun hi hg hse hv ho htw => ?_, fun hi hg hus hc hv ho htw => ?_⟩,
    ⟨fun s c d a b m1 m2 m3 m4 m5 p pp pc pa q h hx ho hp hy hr hm h0 h1 h2 hq hb hs he => ?_, fun q p x y => mintReq_within⟩,
    ⟨fun s c d a b m1 m2 m3 t r pa pr h hx hy ht he =>
      ⟨exec_grevoke_dead h d a b hx hy ht he, fun hv hg => exec_grevoke_live h d a b hx hy ht he hv hg⟩, revoked_gen⟩⟩
  · rw [exec_csetc_begins h, csetOf_tagged _ hx hy ht]
    rfl
  · rw [exec_csetcA_begins h, csetOf_tagged _ hx hy ht]
    rfl
  · rw [exec_csetcSr_begins h, csetOf_tagged _ hx hy ht]
    rfl
  · rw [exec_csetcSr_begins h, csetOf_tagged _ hx hy ht]
    rfl
  · rw [exec_csetc_begins h, csetOf_untagged _ hx hy ht]
  · rw [exec_csetc_begins h, csetOf_poisoned _ hp]
  · rw [exec_csetcSr_begins h, if_pos ⟨h3, h4⟩]
  · exact exec_ctest_begins h d a
  · obtain ⟨f0, f1, f2, f8⟩ := ctestWord_fields m1 c (m1.g c a.toNat)
    refine ⟨f0, f1, f2, f8, fun g pa m2 he ht hv hg => ?_⟩
    obtain ⟨_, _, _, l8, lp, lo⟩ := ctestLive_fields (m1.g c a.toNat) g
    rw [ctestWord_live m1 c _ he ht hv hg]
    exact ⟨l8, lp, lo⟩
  · rw [exec_cseal_begins h d a b hx hy, sealMove_up _ hk hb hl hi hg hse hv ho htw]
  · rw [exec_cunseal_begins h d a b hx hy, sealMove_down _ hk hb hl hi hg hus hc hv ho htw]
  · have hg := exec_gmint_read h d a b hx ho hp hy hr hm h0 h1 h2
    have hread : m4.mintReq c pc = q := hq.symm
    rw [hread] at hg
    refine ⟨fun hv => ?_, fun hv hex => ?_, fun hv hex => ?_⟩
    · rw [hg, mintChecked_single hb hs he, mintWrite_valid hv]
    · rw [hg, mintChecked_single hb hs he, mintWrite_exhausted hs hv hex]
    · rw [hg, mintChecked_single hb hs he, mintWrite_free hs hv hex]

end Sys2Proof.Machine

/-! SUPPORT. The translation commands (R212, R221, R222): what a table holds after every entry of it was replaced, what an invalidation leaves in
a core's translations, and what XL_INV and XL_G_S1 do from an open window. -/

namespace Sys2Proof.Machine

/-! ### A table whose entries were all replaced -/

/-- What a replaced table answers at a key is the default, or the replacement of something. -/
theorem get_mapV {β : Type} [DecidableEq β] (d : β) (f : Nat → β → β) (t : List (Nat × β)) (k : Nat) :
    Tab.get d (Tab.mapV d f t) k = d ∨ ∃ v, Tab.get d (Tab.mapV d f t) k = f k v := by
  induction t with
  | nil => exact .inl rfl
  | cons p t ih =>
    obtain ⟨i, w⟩ := p
    by_cases hd : f i w = d
    · simpa [Tab.mapV, hd] using ih
    · by_cases hk : i = k
      · subst hk
        exact .inr ⟨w, by simp [Tab.mapV, Tab.get, hd]⟩
      · simpa [Tab.mapV, Tab.get, hd, hk] using ih

/-! ### Translations -/

/-- An invalidation leaves no selected translation in any core (R222). -/
theorem tlbInvalidate_unselected (m : Mach) (scope vmid asid page : Nat) (w : World) (c : Nat) :
    ∀ e ∈ ((m.tlbInvalidate scope w vmid asid page).core c).tlb, e.selected scope w vmid asid page = false := by
  intro e he
  have hget := get_mapV Core.reset (fun _ x : _ => { x with tlb := x.tlb.filter (fun e => ! e.selected scope w vmid asid page) }) m.cores c
  unfold Mach.core Mach.tlbInvalidate at he
  rcases hget with h | ⟨x, h⟩
  · rw [h] at he
    exact absurd he (List.not_mem_nil)
  · rw [h] at he
    simpa using (List.mem_filter.mp he).2

/-- A guest's XL_INV acts on its own VMID's guest translations, the whole world's being its whole VMID's (R222). -/
theorem xlInv_guest {m : Mach} {mst : Master} (h : mst.world = .guest) (c : Nat) (v : W64) : m.xlInv mst c v =
    m.tlbInvalidate (if fld v 0 3 = 0 then 1 else fld v 0 3) .guest mst.vmid (fld v 15 16) (fld (m.coreReg c 0x1B0) 12 36 * 4096) := by
  unfold Mach.xlInv
  rw [if_pos h]

/-- Another world's XL_INV acts on the world that it names, where it may name it (R222). -/
theorem xlInv_other {m : Mach} {mst : Master} {v : W64} {w : World} (h : mst.world ≠ .guest) (hw : World.ofCode (fld v 3 2) = some w)
    (hs : w ≠ .secure ∨ mst.world = .secure ∨ mst.sytum = true) (c : Nat) : m.xlInv mst c v =
    m.tlbInvalidate (fld v 0 3) w (fld v 5 10) (fld v 15 16) (fld (m.coreReg c 0x1B0) 12 36 * 4096) := by
  have hnot : ¬ (w = .secure ∧ mst.world ≠ .secure ∧ (! mst.sytum) = true) := by
    rintro ⟨h1, h2, h3⟩
    rcases hs with hs | hs | hs
    · exact hs h1
    · exact h2 hs
    · simp [hs] at h3
  unfold Mach.xlInv
  rw [if_neg h, hw]
  simp only [if_neg hnot]

/-- A write of XL_INV that reaches its window acts there. -/
theorem exec_xlInvWrite {s : State} {mst : Master} {c : Nat} (v : W64) (h : CoreOpens s.m mst c 0x1B8) :
    exec (.xlInvWrite mst c v) s = .next (s.withM (s.m.xlInv mst c v)) := by
  change s.upd (fun m => m.coreWindow mst c 0x1B8 (fun m => m.xlInv mst c v)) = _
  rw [upd_eq, coreWindow_open h.1 h.2]

/-- A write of XL_G_S1 that reaches its window acts there. -/
theorem exec_xlGS1Write {s : State} {mst : Master} {c : Nat} (v : W64) (h : CoreOpens s.m mst c 0x198) :
    exec (.xlGS1Write mst c v) s = .next (s.withM (s.m.xlGS1 c v)) := by
  change s.upd (fun m => m.coreWindow mst c 0x198 (fun m => m.xlGS1 c v)) = _
  rw [upd_eq, coreWindow_open h.1 h.2]

/-- Settles O49: each write reaches its window, and an invalidation filters every core's translations. -/
theorem translationCommands : Obligations.TranslationCommands := by
  refine ⟨fun s mst c v hop => ⟨fun hg => ?_, fun w hg hw hs => ?_⟩, fun m scope vmid asid page w c => ?_,
    fun s mst c v hop => ⟨fun hg => ?_, fun hg hoff => ?_⟩⟩
  · rw [exec_xlInvWrite v hop, xlInv_guest hg]
  · rw [exec_xlInvWrite v hop, xlInv_other hg hw hs]
  · exact tlbInvalidate_unselected m scope vmid asid page w c
  · rw [exec_xlGS1Write v hop]
    simp [Mach.xlGS1, hg]
  · rw [exec_xlGS1Write v hop]
    simp [Mach.xlGS1, hg, hoff]

end Sys2Proof.Machine

/-! SUPPORT. Counter banks and Fumarole windows (R504 to R507): what a clear of overflow bits, a write of FUM_CFG or FUM_CLRPEAK and the end of
a window leave in the registers and in the ports' counts. -/

namespace Sys2Proof.Machine

/-! ### Overflow bits -/

section
variable (m : Mach) {st k ctrl ovf : Nat} (v : W64)

/-- The overflow bits that a clear leaves. -/
def Mach.ovfLeft (m : Mach) (st k ovf : Nat) (v : W64) : Nat := m.regFld st k ovf 0 8 &&& (255 - fld v 0 8)

theorem ovfLeft_lt : m.ovfLeft st k ovf v < 256 := lt_of_le_of_lt Nat.and_le_left (fld_lt _ 0 8)

theorem ovfClear_bank (h : counterBank st k = some (ctrl, ovf)) : m.ovfClear st k v =
    if m.ovfLeft st k ovf v = 0 then (m.setReg st k ovf (setFld 0 0 8 (m.ovfLeft st k ovf v))).setRegBit st k ctrl 2 false
    else m.setReg st k ovf (setFld 0 0 8 (m.ovfLeft st k ovf v)) := by
  unfold Mach.ovfClear
  rw [h]
  rfl

/-- The two registers of a bank are two cells. -/
theorem counterBank_ne (h : counterBank st k = some (ctrl, ovf)) : cellKey st k ovf ≠ cellKey st k ctrl := by
  unfold counterBank at h
  split_ifs at h <;> cases h <;> simp [cellKey]

theorem ovfClear_left (h : counterBank st k = some (ctrl, ovf)) :
    fld ((m.ovfClear st k v).reg st k ovf) 0 8 = m.ovfLeft st k ovf v := by
  have hfld : fld (setFld 0 0 8 (m.ovfLeft st k ovf v)) 0 8 = m.ovfLeft st k ovf v := by
    rw [fld_setFld_same _ _ (by omega), Nat.mod_eq_of_lt (show _ < 2 ^ 8 from ovfLeft_lt m v)]
  rw [ovfClear_bank m v h]
  split
  · rw [reg_setRegBit_ne _ (counterBank_ne h), reg_setReg_self, hfld]
  · rw [reg_setReg_self, hfld]

theorem ovfClear_resumes (h : counterBank st k = some (ctrl, ovf)) (h0 : m.ovfLeft st k ovf v = 0) :
    bit ((m.ovfClear st k v).reg st k ctrl) 2 = false := by
  rw [ovfClear_bank m v h, if_pos h0, bit_setRegBit_self _ _ (by omega)]

end

/-! ### Fumarole configuration -/

section
variable {m : Mach} (px : Nat) {v : W64}

theorem fumCfgWrite_ignored (h : fld v 0 32 < 1000 ∨ 1000000000 < fld v 0 32) : m.fumCfgWrite px v = m := if_pos h

/-- The value that FUM_CFG takes from a write in range. -/
def fumCfgTaken (v : W64) : W64 := setBit (setFld (setFld 0 0 32 (fld v 0 32)) 32 8 (fld v 32 8)) 63 (bit v 63)

theorem fumCfgWrite_taken (hlo : 1000 ≤ fld v 0 32) (hhi : fld v 0 32 ≤ 1000000000) :
    m.fumCfgWrite px v = { m.setReg (pxStop px) 0x23 0x380 (fumCfgTaken v) with fumSkip := insNat m.fumSkip px } :=
  if_neg (by omega)

theorem fumCfgTaken_period : fld (fumCfgTaken v) 0 32 = fld v 0 32 := by
  unfold fumCfgTaken
  simp (disch := omega) only [fld_setBit_ne, fld_setFld_ne, fld_setFld_same]
  exact Nat.mod_eq_of_lt (fld_lt v 0 32)

theorem fumCfgTaken_enable : bit (fumCfgTaken v) 63 = bit v 63 := bit_setBit_self _ _ (by omega)

end

/-! ### Peaks -/

/-- A clear of one port's peak. -/
def Mach.clrPeak (v : W64) (st : Nat) (m : Mach) (j : Nat) : Mach := if bit v j then m.setReg st 0x23 (0x410 + 0x20 * j) 0 else m

theorem clrPeak_reg (m : Mach) (v : W64) (st i j : Nat) : (m.clrPeak v st i).reg st 0x23 (0x410 + 0x20 * j) =
    if j = i then (if bit v i then 0 else m.reg st 0x23 (0x410 + 0x20 * i)) else m.reg st 0x23 (0x410 + 0x20 * j) := by
  unfold Mach.clrPeak
  by_cases hj : j = i
  · subst hj
    split <;> simp
  · have hkey : cellKey st 0x23 (0x410 + 0x20 * j) ≠ cellKey st 0x23 (0x410 + 0x20 * i) := by unfold cellKey; omega
    rw [if_neg hj]
    split
    · exact reg_setReg_ne _ _ hkey
    · rfl

/-- A port's peak after a write of FUM_CLRPEAK. -/
theorem fumClrPeak_peak (m : Mach) (px : Nat) (v : W64) {j : Nat} (hj : j < 32) :
    (m.fumClrPeak px v).reg (pxStop px) 0x23 (0x410 + 0x20 * j) =
      if bit v j then 0 else m.reg (pxStop px) 0x23 (0x410 + 0x20 * j) := by
  have h := get_foldl_range (step := Mach.clrPeak v (pxStop px)) (get := fun (t : Mach) j => t.reg (pxStop px) 0x23 (0x410 + 0x20 * j))
    (g := fun i w => if bit v i then 0 else w) (fun t i j => clrPeak_reg t v (pxStop px) i j) m 32 j
  rw [if_pos hj] at h
  exact h

/-! ### The end of a window -/

section
variable (m : Mach) (px : Nat)

/-- The ports' counts are latched. -/
def Mach.fumLatchAll (m : Mach) (px : Nat) : Mach := (List.range 32).foldl (fun acc j => acc.fumLatch px j) m

/-- The ports' counts begin anew. -/
def Mach.fumZeroAll (m : Mach) (px : Nat) : Mach := (List.range 32).foldl (fun acc j => acc.fumZero px j) m

/-- Device time at the end of the window. -/
def Mach.fumEnd (m : Mach) (px : Nat) : Nat := (m.dt / fld (m.fumCfg px) 0 32 + 1) * fld (m.fumCfg px) 0 32

/-- A window begins at its time. -/
def Mach.fumStart (m : Mach) (px : Nat) : Mach :=
  { m with dt := m.fumEnd px, fumSkip := m.fumSkip.filter (fun q => decide (q ≠ px)) }

@[simp] theorem fumStart_port (q : Nat) : (m.fumStart px).port q = m.port q := rfl
@[simp] theorem fumStart_dt : (m.fumStart px).dt = m.fumEnd px := rfl
@[simp] theorem fumStart_fumSkip : (m.fumStart px).fumSkip = m.fumSkip.filter (fun q => decide (q ≠ px)) := rfl
@[simp] theorem fumLatch_port (j q : Nat) : (m.fumLatch px j).port q = m.port q := rfl
@[simp] theorem fumLatch_dt (j : Nat) : (m.fumLatch px j).dt = m.dt := rfl
@[simp] theorem fumLatch_fumSkip (j : Nat) : (m.fumLatch px j).fumSkip = m.fumSkip := rfl

theorem fumLatchAll_dt : (m.fumLatchAll px).dt = m.dt :=
  foldl_keeps (P := fun t : Mach => t.dt = m.dt) _ _ rfl fun _ h _ => h

theorem fumLatchAll_fumSkip : (m.fumLatchAll px).fumSkip = m.fumSkip :=
  foldl_keeps (P := fun t : Mach => t.fumSkip = m.fumSkip) _ _ rfl fun _ h _ => h

theorem fumZeroAll_dt : (m.fumZeroAll px).dt = m.dt :=
  foldl_keeps (P := fun t : Mach => t.dt = m.dt) _ _ rfl fun _ h _ => h

theorem fumZeroAll_fumSkip : (m.fumZeroAll px).fumSkip = m.fumSkip :=
  foldl_keeps (P := fun t : Mach => t.fumSkip = m.fumSkip) _ _ rfl fun _ h _ => h

theorem fumZeroAll_reg (st k off : Nat) : (m.fumZeroAll px).reg st k off = m.reg st k off :=
  foldl_keeps (P := fun t : Mach => t.reg st k off = m.reg st k off) _ _ rfl fun _ h _ => h

/-- The counts of a port after its window. -/
def PortRt.fresh (x : PortRt) : PortRt := { x with rx := (0, 0), tx := (0, 0) }

theorem fumZeroAll_port {j : Nat} (hj : j < 32) : (m.fumZeroAll px).port (px * 32 + j) = (m.port (px * 32 + j)).fresh := by
  have hstep : ∀ (t : Mach) (i j : Nat), (t.fumZero px i).port (px * 32 + j) =
      if j = i then (t.port (px * 32 + i)).fresh else t.port (px * 32 + j) := by
    intro t i j
    unfold Mach.fumZero PortRt.fresh
    rw [port_setPort]
    simp
  have h := get_foldl_range (step := fun (t : Mach) i => t.fumZero px i) (get := fun (t : Mach) j => t.port (px * 32 + j))
    (g := fun _ x => x.fresh) hstep m 32 j
  rw [if_pos hj] at h
  exact h

/-- The image of a count of frames and one of octets. -/
def countsImage (p : Nat × Nat) : W64 := setFld (setFld 0 0 40 p.1) 40 24 p.2

theorem countsImage_frames (p : Nat × Nat) : fld (countsImage p) 0 40 = p.1 % 2 ^ 40 := by
  unfold countsImage
  simp (disch := omega) only [fld_setFld_ne, fld_setFld_same]

theorem fumLatch_counts (i j : Nat) : (m.fumLatch px i).reg (pxStop px) 0x23 (0x400 + 0x20 * j) =
    if j = i then countsImage (m.port (px * 32 + i)).rx else m.reg (pxStop px) 0x23 (0x400 + 0x20 * j) := by
  have hkey : ∀ n, n = 0x408 + 0x20 * i ∨ n = 0x410 + 0x20 * i →
      cellKey (pxStop px) 0x23 (0x400 + 0x20 * j) ≠ cellKey (pxStop px) 0x23 n := by
    rintro n (rfl | rfl) <;> unfold cellKey <;> omega
  unfold Mach.fumLatch
  rw [reg_setReg_ne _ _ (hkey _ (.inr (by omega))), reg_setReg_ne _ _ (hkey _ (.inl (by omega)))]
  by_cases hj : j = i
  · subst hj
    rw [reg_setReg_self, if_pos rfl]
    rfl
  · rw [if_neg hj, reg_setReg_ne _ _ (by unfold cellKey; omega)]

theorem fumLatchAll_counts {j : Nat} (hj : j < 32) :
    (m.fumLatchAll px).reg (pxStop px) 0x23 (0x400 + 0x20 * j) = countsImage (m.port (px * 32 + j)).rx := by
  have hstep : ∀ (t : Mach) (i j : Nat), (((t.fumLatch px i).reg (pxStop px) 0x23 (0x400 + 0x20 * j)), (t.fumLatch px i).port (px * 32 + j)) =
      if j = i then (countsImage (t.port (px * 32 + i)).rx, t.port (px * 32 + i))
      else (t.reg (pxStop px) 0x23 (0x400 + 0x20 * j), t.port (px * 32 + j)) := by
    intro t i j
    rw [fumLatch_counts, fumLatch_port]
    split
    · next h => rw [h]
    · rfl
  have h := get_foldl_range (step := fun (t : Mach) i => t.fumLatch px i)
    (get := fun (t : Mach) j => (t.reg (pxStop px) 0x23 (0x400 + 0x20 * j), t.port (px * 32 + j)))
    (g := fun _ w => (countsImage w.2.rx, w.2)) hstep m 32 j
  rw [if_pos hj] at h
  exact congrArg Prod.fst h

end

/-! ### The commands -/

section
variable {s : State} {mst : Master} {px : Nat} (v : W64)

theorem exec_pmcOvfClear {st k ctrl ovf : Nat} (hb : counterBank st k = some (ctrl, ovf)) (h : s.m.Opens mst st k ovf) :
    exec (.pmcOvfClear mst st k v) s = .next (s.withM (s.m.ovfClear st k v)) := by
  change s.upd (fun m => match counterBank st k with | none => m | some (_, ovf) => m.window mst st k ovf (fun m => m.ovfClear st k v)) = _
  rw [upd_eq, hb]
  exact congrArg (fun t => Host.Outcome.next (s.withM t)) (window_open h _)

theorem exec_fumCfgWrite (hpx : px < 4) (h : s.m.Opens mst (pxStop px) 0x23 0x380) :
    exec (.fumCfgWrite mst px v) s = .next (s.withM (s.m.fumCfgWrite px v)) := by
  change s.upd (fun m => if 4 ≤ px then m else m.window mst (pxStop px) 0x23 0x380 (fun m => m.fumCfgWrite px v)) = _
  rw [upd_eq, if_neg (by omega), window_open h]

theorem exec_fumClrpeak (hpx : px < 4) (h : s.m.Opens mst (pxStop px) 0x23 0x390) :
    exec (.fumClrpeak mst px v) s = .next (s.withM (s.m.fumClrPeak px v)) := by
  change s.upd (fun m => if 4 ≤ px then m else m.window mst (pxStop px) 0x23 0x390 (fun m => m.fumClrPeak px v)) = _
  rw [upd_eq, if_neg (by omega), window_open h]

theorem exec_fumaroleBoundary (px : Nat) : exec (.fumaroleBoundary px) s = .next (s.withM (s.m.fumBoundary px)) := rfl

end

section
variable {m : Mach} {px : Nat}

/-- The machine at the end of a window, before the counts begin anew. -/
def Mach.fumEnded (m : Mach) (px : Nat) : Mach :=
  if m.fumSkip.contains px then m.fumStart px
  else ((m.fumStart px).fumLatchAll px).setReg (pxStop px) 0x23 0x388 (BitVec.ofNat 64 (m.fumEnd px))

theorem fumBoundary_ends (hpx : px < 4) (hen : bit (m.fumCfg px) 63 = true) (hp : 0 < fld (m.fumCfg px) 0 32)
    (ha : m.answers (pxStop px) 0x23 = true) : m.fumBoundary px =
      (m.fumEnded px).fumZeroAll px :=
  if_neg (by simp only [hen, ha]; rintro (h | h | h | h) <;> first | omega | simp at h)

theorem fumEnded_dt : (m.fumEnded px).dt = m.fumEnd px := by
  unfold Mach.fumEnded
  rw [apply_ite Mach.dt, setReg_dt, fumLatchAll_dt, ite_self, fumStart_dt]

theorem fumEnded_fumSkip : (m.fumEnded px).fumSkip.contains px = false := by
  have h : (m.fumEnded px).fumSkip = m.fumSkip.filter (fun q => decide (q ≠ px)) := by
    unfold Mach.fumEnded
    rw [apply_ite Mach.fumSkip, setReg_fumSkip, fumLatchAll_fumSkip, ite_self, fumStart_fumSkip]
  simp [h]

theorem fumEnded_boundary (h : m.fumSkip.contains px = false) :
    (m.fumEnded px).reg (pxStop px) 0x23 0x388 = BitVec.ofNat 64 (m.fumEnd px) := by
  rw [Mach.fumEnded, h, if_neg Bool.false_ne_true, reg_setReg_self]

theorem fumEnded_counts (h : m.fumSkip.contains px = false) {j : Nat} (hj : j < 32) :
    fld ((m.fumEnded px).reg (pxStop px) 0x23 (0x400 + 0x20 * j)) 0 40 = (m.port (px * 32 + j)).rx.1 % 2 ^ 40 := by
  have hkey : cellKey (pxStop px) 0x23 (0x400 + 0x20 * j) ≠ cellKey (pxStop px) 0x23 0x388 := by unfold cellKey; omega
  rw [Mach.fumEnded, h, if_neg Bool.false_ne_true, reg_setReg_ne _ _ hkey, fumLatchAll_counts _ _ hj, countsImage_frames, fumStart_port]

end

/-- Settles O58: each write reaches its window; the walks over the ports latch and zero each port's own cells. -/
theorem countersAndWindows : Obligations.CountersAndWindows := by
  refine ⟨fun s mst st k ctrl ovf v hb hop => ⟨_, exec_pmcOvfClear v hb hop, ovfClear_left _ v hb, fun h0 => ?_⟩,
    fun s mst px v hpx => ⟨fun hop => ⟨fun hout => ?_, fun hlo hhi => ?_⟩,
      fun hop => ⟨_, exec_fumClrpeak v hpx hop, fun j hj => fumClrPeak_peak _ _ _ hj⟩⟩,
    fun s px hpx hen hp ha => ⟨_, exec_fumaroleBoundary px, ?_⟩⟩
  · rw [ovfClear_left _ v hb] at h0
    exact ovfClear_resumes _ v hb h0
  · rw [exec_fumCfgWrite v hpx hop, fumCfgWrite_ignored px hout, withM_self]
  · refine ⟨_, exec_fumCfgWrite v hpx hop, ?_⟩
    rw [fumCfgWrite_taken px hlo hhi]
    refine ⟨?_, ?_, List.contains_iff_mem.mpr ((mem_insNat _ _ _).mpr (.inl rfl))⟩
    · exact (congrArg (fld · 0 32) (reg_setReg_self _ _ _ _ _)).trans fumCfgTaken_period
    · exact (congrArg (bit · 63) (reg_setReg_self _ _ _ _ _)).trans fumCfgTaken_enable
  · rw [fumBoundary_ends hpx hen hp ha, fumZeroAll_dt, fumEnded_dt]
    refine ⟨rfl, ?_, fun j hj => ?_, fun hskip => ⟨?_, fun j hj => ?_⟩⟩
    · rw [fumZeroAll_fumSkip, fumEnded_fumSkip]
    · rw [fumZeroAll_port _ _ hj]
      exact ⟨rfl, rfl⟩
    · rw [fumZeroAll_reg, fumEnded_boundary hskip]
    · rw [fumZeroAll_reg, fumEnded_counts hskip hj]

end Sys2Proof.Machine

/-! SUPPORT. What a raised event leaves alone (R201 to R203), and power requests (R229, R518 to R521): what PM_RESP and the queue hold after a
request, what its end leaves, and that a domain which was turned on is ON. -/

namespace Sys2Proof.Machine

/-! ### What a raised event leaves alone -/

section
variable {α : Type} (f : Mach → α) (hev : ∀ (m : Mach) l, f { m with evPend := l } = f m)
  (hreg : ∀ (m : Mach) lo, f (m.countReg 0 0 0x620 lo 32 1) = f m)
include hev hreg

/-- A raise leaves what neither the pending events nor the count of lost raises is part of. -/
theorem raiseEvent_same (m : Mach) (n : Nat) : f (m.raiseEvent n) = f m := by
  rcases raiseEvent_cases m n with h | h | h | h <;> rw [h]
  · exact hreg _ _
  · exact hreg _ _
  · exact hev _ _

theorem raiseAssigned_same (m : Mach) (n : Nat) : f (m.raiseAssigned n) = f m := by
  unfold Mach.raiseAssigned
  split
  · exact raiseEvent_same f hev hreg m n
  · rfl

end

section
variable (m : Mach) (n : Nat)

@[simp] theorem raiseEvent_power : (m.raiseEvent n).power = m.power := raiseEvent_same (·.power) (fun _ _ => rfl) (fun _ _ => rfl) m n
@[simp] theorem raiseAssigned_power : (m.raiseAssigned n).power = m.power :=
  raiseAssigned_same (·.power) (fun _ _ => rfl) (fun _ _ => rfl) m n

theorem raiseEvent_reg {st k off : Nat} (h : cellKey st k off ≠ cellKey 0 0 0x620) : (m.raiseEvent n).reg st k off = m.reg st k off :=
  raiseEvent_same (·.reg st k off) (fun _ _ => rfl) (fun _ _ => reg_setReg_ne _ _ h) m n

theorem raiseAssigned_reg {st k off : Nat} (h : cellKey st k off ≠ cellKey 0 0 0x620) :
    (m.raiseAssigned n).reg st k off = m.reg st k off :=
  raiseAssigned_same (·.reg st k off) (fun _ _ => rfl) (fun _ _ => reg_setReg_ne _ _ h) m n

end

/-! ### The answer of a power request -/

section
variable (m : Mach) {mst : Master} {op dom mhz : Nat}

/-- The ticket of the next request. -/
def Mach.pmTicket (m : Mach) : Nat := (m.regFld 0 1 0x58 0 16 + 1) % 65536

/-- The next request, as the queue holds it. -/
def Mach.pmReq (m : Mach) (op dom mhz : Nat) : PmReq := ⟨m.pmTicket, op, dom, mhz⟩

theorem pmAnswer_reg (k : Nat) :
    (m.pmAnswer k).reg 0 1 0x58 = setFld (setFld 0 0 16 (m.regFld 0 1 0x58 0 16 + 1)) 16 3 k := reg_setReg_self _ _ _ _ _

theorem pmAnswer_ticket (k : Nat) : fld ((m.pmAnswer k).reg 0 1 0x58) 0 16 = m.pmTicket := by
  rw [pmAnswer_reg]
  simp (disch := omega) only [fld_setFld_ne, fld_setFld_same]
  rfl

theorem pmAnswer_status (k : Nat) : fld ((m.pmAnswer k).reg 0 1 0x58) 16 3 = k % 8 := by
  rw [pmAnswer_reg]
  exact fld_setFld_same _ _ (by omega)

theorem pmRequest_bad (h : m.badPm op dom mhz = true) : m.pmRequest mst op dom mhz = m.pmAnswer 3 := if_pos h

/-- The request takes power from a domain that the secure world holds against its master (R229). -/
def Mach.pmHeld (m : Mach) (mst : Master) (op dom : Nat) : Prop :=
  op ≠ 1 ∧ m.secHeld dom = true ∧ mst.world ≠ .secure ∧ mst.sytum = false

theorem pmHeld_iff : m.pmHeld mst op dom ↔ (op ≠ 1 ∧ m.secHeld dom ∧ mst.world ≠ .secure ∧ ! mst.sytum) := by simp [Mach.pmHeld]

theorem pmRequest_full (h : m.badPm op dom mhz = false) (hh : ¬ m.pmHeld mst op dom) (hl : 16 ≤ m.power.queue.length) :
    m.pmRequest mst op dom mhz = m.pmAnswer 2 := by
  rw [pmHeld_iff] at hh
  unfold Mach.pmRequest
  rw [if_neg (by simp [h])]
  simp only [if_neg hh, if_pos hl]

theorem pmRequest_queued (h : m.badPm op dom mhz = false) (hh : ¬ m.pmHeld mst op dom) (hl : m.power.queue.length < 16) :
    m.pmRequest mst op dom mhz =
      { m.pmAnswer 0 with power := { m.power with queue := m.power.queue ++ [m.pmReq op dom mhz] } } := by
  rw [pmHeld_iff] at hh
  unfold Mach.pmRequest
  rw [if_neg (by simp [h])]
  simp only [if_neg hh, if_neg (Nat.not_le.mpr hl)]
  rfl

/-- The machine that remembers a request which waits for the secure world. -/
def Mach.pmDefer (m : Mach) (op dom mhz : Nat) : Mach :=
  ({ m.pmAnswer 1 with power := { m.power with deferred := m.power.deferred ++ [m.pmReq op dom mhz] } }).setRegBit 0 1 (0x100 + 8 * dom) 3 true

theorem pmRequest_deferred (h : m.badPm op dom mhz = false) (hh : m.pmHeld mst op dom) : m.pmRequest mst op dom mhz =
    if m.power.deferred.any (fun r => decide (r.dom = dom)) then m.pmDefer op dom mhz
    else { (m.pmDefer op dom mhz).raiseEvent 790 with holdAt := Tab.ins (m.pmDefer op dom mhz).holdAt dom m.dt } := by
  rw [pmHeld_iff] at hh
  unfold Mach.pmRequest
  rw [if_neg (by simp [h])]
  simp only [if_pos hh]
  rfl

theorem badPm_dom (h : m.badPm op dom mhz = false) : dom ≤ 48 := by
  unfold Mach.badPm at h
  simp only [Bool.or_eq_false_iff, decide_eq_false_iff_not] at h
  omega

theorem pmDefer_resp (hd : dom ≤ 48) : (m.pmDefer op dom mhz).reg 0 1 0x58 = (m.pmAnswer 1).reg 0 1 0x58 :=
  reg_setRegBit_ne _ (by unfold cellKey; omega)

theorem pmRequest_deferred_power (h : m.badPm op dom mhz = false) (hh : m.pmHeld mst op dom) :
    (m.pmRequest mst op dom mhz).power = { m.power with deferred := m.power.deferred ++ [m.pmReq op dom mhz] } := by
  rw [pmRequest_deferred m h hh]
  split
  · rfl
  · exact raiseEvent_power _ _

theorem pmRequest_deferred_status (h : m.badPm op dom mhz = false) (hh : m.pmHeld mst op dom) :
    fld ((m.pmRequest mst op dom mhz).reg 0 1 0x58) 16 3 = 1 := by
  have hresp := pmDefer_resp m (op := op) (mhz := mhz) (badPm_dom m h)
  rw [pmRequest_deferred m h hh]
  split
  · rw [hresp, pmAnswer_status]
  · have hreg : ((m.pmDefer op dom mhz).raiseEvent 790).reg 0 1 0x58 = (m.pmDefer op dom mhz).reg 0 1 0x58 :=
      raiseEvent_reg _ _ (by decide)
    exact (congrArg (fld · 16 3) (hreg.trans hresp)).trans (pmAnswer_status m 1)

end

/-! ### The request that the controller carries out -/

section
variable (m : Mach) (q : PmReq) (k d : Nat) (known : List (Nat × List W64))

theorem pmExecute_none (hr : m.phase = .run) (h : m.pmNext d = none) : m.pmExecute d known = m := by
  unfold Mach.pmExecute
  rw [if_neg (by simp [hr]), h]

variable {m q d}

theorem pmExecute_freq (hr : m.phase = .run) (h : m.pmNext d = some q) (ho : q.op = 3) :
    m.pmExecute d known = (m.setRegFld 0 1 (0x100 + 8 * d) 32 12 q.mhz).pmDone q 5 := by
  unfold Mach.pmExecute
  rw [if_neg (by simp [hr]), h]
  simp [ho]

theorem pmExecute_on (hr : m.phase = .run) (h : m.pmNext d = some q) (ho : q.op = 1) :
    m.pmExecute d known = (if m.domState d = 1 then m else m.domOn d).pmDone q 5 := by
  unfold Mach.pmExecute
  rw [if_neg (by simp [hr]), h]
  simp [ho]

theorem pmExecute_off (hr : m.phase = .run) (h : m.pmNext d = some q) (ho : q.op = 2) (hs : m.domState d = 1) :
    m.pmExecute d known = if (m.blk (domStop d) 0).quiesce then (m.domOff d 0 false known).pmDone q 5 else m.pmDone q 4 := by
  unfold Mach.pmExecute
  rw [if_neg (by simp [hr]), h]
  cases hq : (m.blk (domStop d) 0).quiesce <;> simp [ho, hs]

variable (m q)

/-- PM_DOMn of the domain of a request that ended. -/
theorem pmDone_domReg : (m.pmDone q k).domReg q.dom = setFld (setFld (m.domReg q.dom) 4 3 k) 16 16 q.ticket := by
  have hkey : cellKey 0 1 (0x100 + 8 * q.dom) ≠ cellKey 0 0 0x620 := by unfold cellKey; omega
  unfold Mach.pmDone
  simp only []
  split
  · exact (raiseAssigned_reg _ _ hkey).trans (reg_setReg_self _ _ _ _ _)
  · exact reg_setReg_self _ _ _ _ _

theorem pmDone_queue : (m.pmDone q k).power.queue = m.power.queue.filter (fun r => decide (r ≠ q)) := by
  unfold Mach.pmDone
  simp only []
  split
  · rw [raiseAssigned_power]
    rfl
  · rfl

end

/-! ### A domain that is turned on -/

theorem coreStop_pos (c : Nat) : 3 ≤ coreStop c := by
  unfold coreStop podStop ccStop
  split_ifs <;> omega

/-- The cells of stop 0's first two windows are not those of another stop. -/
theorem cellKey_ne_pm {st k off off' : Nat} (hst : 3 ≤ st) (ho : off < 4096) : cellKey 0 1 off ≠ cellKey st k off' := by
  unfold cellKey
  omega

section
variable (m : Mach) {st off : Nat} (k : Nat)

/-- A core's window that is reset leaves the power manager's registers. -/
theorem clearCoreBank_pm (hst : 3 ≤ st) (ho : off < 4096) : (m.clearCoreBank st k).reg 0 1 off = m.reg 0 1 off := by
  unfold Mach.clearCoreBank
  refine foldl_keeps (P := fun t : Mach => t.reg 0 1 off = m.reg 0 1 off) _ _ ?_ fun t h i => ?_
  · rw [reg_setRegBit_ne _ (cellKey_ne_pm hst ho), reg_setReg_ne _ _ (cellKey_ne_pm hst ho)]
  · rw [reg_setReg_ne _ _ (cellKey_ne_pm hst ho), h]

theorem resetWindow_pm (hst : 3 ≤ st) (ho : off < 4096) : (m.resetWindow st k).reg 0 1 off = m.reg 0 1 off := by
  unfold Mach.resetWindow
  simp only []
  split
  · exact reg_setRegBit_ne _ (cellKey_ne_pm hst ho)
  · rfl

theorem resetCore_pm (c : Nat) (ho : off < 4096) : (m.resetCore c).reg 0 1 off = m.reg 0 1 off := by
  unfold Mach.resetCore
  rw [resetWindow_pm _ _ (coreStop_pos c) ho, clearCoreBank_pm _ _ (coreStop_pos c) ho, setCore_reg]

theorem domCores_pm (d : Nat) (ho : off < 4096) : (m.domCores d).reg 0 1 off = m.reg 0 1 off :=
  foldl_keeps (P := fun t : Mach => t.reg 0 1 off = m.reg 0 1 off) _ _ rfl fun t h c => (resetCore_pm t c ho).trans h

theorem domOn_domState {d : Nat} (hd : d < 49) : (m.domOn d).domState d = 1 := by
  unfold Mach.domOn Mach.domState Mach.regFld
  rw [domCores_pm _ _ (by omega)]
  unfold Mach.setDom Mach.setRegFld
  rw [reg_setReg_self]
  exact fld_setFld_same _ _ (by omega)

end

/-! ### The commands -/

section
variable {s : State} {mst : Master} {dom mhz : Nat}

/-- The three requests reach PM_REQ with their operation. -/
theorem exec_pmRequest (h : s.m.Opens mst 0 1 0x50) :
    ∀ p ∈ [(Instr.pmOn mst dom, 1, 0), (.pmOff mst dom, 2, 0), (.pmFreq mst dom mhz, 3, mhz)],
      exec p.1 s = .next (s.withM (s.m.pmRequest mst p.2.1 dom p.2.2)) := by
  have hw : ∀ f, s.upd (fun m => m.window mst 0 1 0x50 f) = .next (s.withM (f s.m)) := fun f => by rw [upd_eq, window_open h]
  intro p hp
  fin_cases hp
  · exact hw _
  · exact hw _
  · exact hw _

theorem exec_powerRequestExecute (d : Nat) (known : List (Nat × List W64)) :
    exec (.powerRequestExecute d known) s = .next (s.withM (s.m.pmExecute d known)) := rfl

theorem exec_supplyFailure (d : Nat) (known : List (Nat × List W64)) :
    exec (.supplyFailure d known) s = .next (s.withM (s.m.supplyFails d known)) := rfl

end

/-- Settles O51: each request, each execution and each failure by the branch that it takes. -/
theorem powerRequests : Obligations.PowerRequests := by
  refine ⟨fun s mst dom mhz hop p hp => ?_, fun s d known hr => ⟨fun hn => ?_, fun q hq => ⟨fun ho => ?_, fun ho hs => ?_, fun ho hs => ?_,
    fun ho hs hquiet => ?_, fun ho hs hquiet => ?_⟩⟩, fun m q k => ⟨?_, ?_, ?_⟩, fun m d hd => domOn_domState m hd,
    fun s d known hd hr => ⟨fun hs => ?_, fun hs => ?_⟩⟩
  · rw [exec_pmRequest hop p hp]
    refine ⟨fun hb => by rw [pmRequest_bad _ hb], fun hb hfree => ?_, fun hb h1 h2 h3 h4 => ?_⟩
    · have hh : ¬ s.m.pmHeld mst p.2.1 dom := by
        rintro ⟨h1, h2, h3, h4⟩
        rcases hfree with h | h | h | h <;> simp_all
      refine ⟨fun hl => by rw [pmRequest_full _ hb hh hl], fun hl => ⟨_, rfl, ?_⟩⟩
      rw [pmRequest_queued _ hb hh hl]
      exact ⟨rfl, pmAnswer_ticket _ _, pmAnswer_status _ _⟩
    · have hh : s.m.pmHeld mst p.2.1 dom := ⟨h1, h2, h3, h4⟩
      have hpow := pmRequest_deferred_power s.m hb hh
      exact ⟨_, rfl, congrArg PowRt.deferred hpow, (congrArg PowRt.queue hpow).trans rfl, pmRequest_deferred_status _ hb hh⟩
  · rw [exec_powerRequestExecute, pmExecute_none _ _ _ hr hn, withM_self]
  · rw [exec_powerRequestExecute, pmExecute_freq _ hr hq ho]
  · rw [exec_powerRequestExecute, pmExecute_on _ hr hq ho, if_pos hs]
  · rw [exec_powerRequestExecute, pmExecute_on _ hr hq ho, if_neg hs]
  · rw [exec_powerRequestExecute, pmExecute_off _ hr hq ho hs, hquiet, if_neg Bool.false_ne_true]
  · rw [exec_powerRequestExecute, pmExecute_off _ hr hq ho hs, if_pos hquiet]
  · simp [pmDone_queue]
  · rw [pmDone_domReg, fld_setFld_ne _ _ (by omega) (by omega)]
    exact fld_setFld_same _ _ (by omega)
  · rw [pmDone_domReg]
    exact fld_setFld_same _ _ (by omega)
  · rw [exec_supplyFailure, Mach.supplyFails, if_pos (.inr (.inl hs)), withM_self]
  · rw [exec_supplyFailure, Mach.supplyFails, if_neg (by rw [hs]; simp [hr]; omega), if_pos hs]

end Sys2Proof.Machine

/-!
SUPPORT. What the accesses to memory leave of the machine: everything but memory and its metadata, the caches and directories above it, the
cores, the upsets that were met, the registers and reports that count them, and the mirrored writes under way.
-/

namespace Sys2Proof.Machine

/-- A machine without what accesses to memory change. -/
def Mach.rest (m : Mach) : Mach :=
  { m with
    cores := [], mirSeqs := [], fwds := [], evPend := [], upsets := [], l3 := [], protLogs := [], reports := [], free := 0, dir := []
    ctl := [], pair := .reset, stale := [], mmeta := [], mem := [], sramPoison := [], regions := [] }

/-- The rest of `m` is `x`. -/
def Mach.RestIs (m : Mach) (x : Mach) : Prop := m.rest = x

section
variable {x₀ : Mach}

theorem of_rest {m t : Mach} (h : m.RestIs x₀) (ht : t.rest = m.rest) : t.RestIs x₀ := ht.trans h

theorem ite_rest {p : Prop} [Decidable p] {m t : Mach} (hm : m.RestIs x₀) (ht : t.RestIs x₀) :
    (if p then m else t).RestIs x₀ := by
  split
  · exact hm
  · exact ht

theorem of_snd_rest {α : Type} {p : α × Mach} {a : α} {t : Mach} (he : p = (a, t)) (h : p.2.RestIs x₀) : t.RestIs x₀ := by
  subst he
  exact h

theorem of_fst_rest {α : Type} {p : Mach × α} {a : α} {t : Mach} (he : p = (t, a)) (h : p.1.RestIs x₀) : t.RestIs x₀ := by
  subst he
  exact h

theorem setReg_rest {m : Mach} (st k off : Nat) (v : W64) (h : m.RestIs x₀) : (m.setReg st k off v).RestIs x₀ := of_rest h rfl

theorem setRegFld_rest {m : Mach} (st k off lo n x : Nat) (h : m.RestIs x₀) :
    (m.setRegFld st k off lo n x).RestIs x₀ := setReg_rest _ _ _ _ h

theorem setRegBit_rest {m : Mach} (st k off i : Nat) (b : Bool) (h : m.RestIs x₀) :
    (m.setRegBit st k off i b).RestIs x₀ := setReg_rest _ _ _ _ h

theorem countReg_rest {m : Mach} (st k off lo n by_ : Nat) (h : m.RestIs x₀) : (m.countReg st k off lo n by_).RestIs x₀ :=
  setRegFld_rest _ _ _ _ _ _ h

theorem setCore_rest {m : Mach} (c : Nat) (x : Core) (h : m.RestIs x₀) : (m.setCore c x).RestIs x₀ := of_rest h rfl

theorem initRegion_rest {m : Mach} (c ca : Nat) (h : m.RestIs x₀) : (m.initRegion c ca).RestIs x₀ := ite_rest h (of_rest h rfl)

theorem touchDram_rest {m : Mach} (a : Nat) (h : m.RestIs x₀) : (m.touchDram a).RestIs x₀ := by
  dsimp only [Mach.touchDram]
  split
  · exact initRegion_rest _ _ h
  · exact foldl_keeps (P := fun (t : Mach) => t.RestIs x₀) _ _ (initRegion_rest _ _ h) (fun _ hb _ => initRegion_rest _ _ hb)
  · exact h

theorem setByte_rest {m : Mach} (a : Nat) (v : BitVec 8) (h : m.RestIs x₀) : (m.setByte a v).RestIs x₀ := by
  dsimp only [Mach.setByte]
  split
  · exact h
  · exact of_rest (ite_rest h (touchDram_rest _ h)) rfl

theorem writeN_rest {m : Mach} (a n v : Nat) (h : m.RestIs x₀) : (m.writeN a n v).RestIs x₀ := by
  induction n generalizing m a v with
  | zero => exact h
  | succ n ih => exact ih _ _ (setByte_rest _ _ h)

theorem openLine_rest {m : Mach} (a : Nat) (h : m.RestIs x₀) : (m.openLine a).RestIs x₀ := ite_rest (of_rest h rfl) h

theorem setMeta_rest {m : Mach} (a : Nat) (x : Meta) (h : m.RestIs x₀) : (m.setMeta a x).RestIs x₀ := by
  dsimp only [Mach.setMeta]
  split
  · exact h
  · split
    · exact ite_rest (of_rest h rfl) (of_rest h rfl)
    · exact ite_rest (of_rest h rfl) h

theorem putWord_rest {m : Mach} (a : Nat) (d : W64) (tag poison : Bool) (h : m.RestIs x₀) : (m.putWord a d tag poison).RestIs x₀ :=
  setMeta_rest _ _ (writeN_rest _ _ _ h)

theorem storePart_rest {m : Mach} (a n v : Nat) (poison : Bool) (h : m.RestIs x₀) : (m.storePart a n v poison).RestIs x₀ :=
  setMeta_rest _ _ (writeN_rest _ _ _ h)

theorem putWordsAt_rest (ws : List Word) (a : Nat) {m : Mach} (h : m.RestIs x₀) : (putWordsAt ws a m).RestIs x₀ := by
  induction ws generalizing m a with
  | nil => exact h
  | cons w ws ih => exact ih _ (putWord_rest _ _ _ _ h)

theorem putWords_rest {m : Mach} (a : Nat) (ws : List Word) (h : m.RestIs x₀) : (m.putWords a ws).RestIs x₀ := putWordsAt_rest _ _ h

theorem drawn_rest {m : Mach} (h : m.RestIs x₀) : m.drawn.RestIs x₀ := of_rest h rfl

theorem report_rest {m : Mach} (r : Report) (h : m.RestIs x₀) : (m.report r).RestIs x₀ := of_rest h rfl

theorem raiseSrc_rest {m : Mach} (st off : Nat) (addr : Option Nat) (mstop munit : Nat) (acc : Option Acc) (h : m.RestIs x₀) :
    (m.raiseSrc st off addr mstop munit acc).RestIs x₀ :=
  report_rest _ h

theorem raiseOwn_rest {m : Mach} (st off : Nat) (addr : Option Nat) (h : m.RestIs x₀) : (m.raiseOwn st off addr).RestIs x₀ :=
  raiseSrc_rest _ _ _ _ _ _ h

theorem raiseEvent_rest {m : Mach} (n : Nat) (h : m.RestIs x₀) : (m.raiseEvent n).RestIs x₀ := by
  dsimp only [Mach.raiseEvent]
  split
  · exact h
  · split
    · exact countReg_rest _ _ _ _ _ _ h
    · exact ite_rest (countReg_rest _ _ _ _ _ _ h) (of_rest h rfl)

theorem raiseAssigned_rest {m : Mach} (n : Nat) (h : m.RestIs x₀) : (m.raiseAssigned n).RestIs x₀ := ite_rest (raiseEvent_rest _ h) h

theorem bumpCount_rest {m : Mach} (st k ctrl ovf cnt i by_ : Nat) (h : m.RestIs x₀) : (m.bumpCount st k ctrl ovf cnt i by_).RestIs x₀ := by
  dsimp only [Mach.bumpCount]
  split
  · exact setRegFld_rest _ _ _ _ _ _ h
  · split
    · refine raiseAssigned_rest _ (ite_rest (setRegBit_rest _ _ _ _ _ (setRegBit_rest _ _ _ _ _ (setRegFld_rest _ _ _ _ _ _ h)))
        (setRegBit_rest _ _ _ _ _ (setRegFld_rest _ _ _ _ _ _ h)))
    · exact ite_rest (setRegBit_rest _ _ _ _ _ (setRegBit_rest _ _ _ _ _ (setRegFld_rest _ _ _ _ _ _ h)))
        (setRegBit_rest _ _ _ _ _ (setRegFld_rest _ _ _ _ _ _ h))

theorem countAs_rest {m : Mach} (c : Nat) (wd : World) (cmpid e by_ : Nat) (h : m.RestIs x₀) : (m.countAs c wd cmpid e by_).RestIs x₀ := by
  dsimp only [Mach.countAs]
  split
  · exact h
  · exact foldl_keeps (P := fun (t : Mach) => t.RestIs x₀) _ _ h (fun _ hb _ => ite_rest (bumpCount_rest _ _ _ _ _ _ _ hb) hb)

theorem countCore_rest {m : Mach} (c e by_ : Nat) (h : m.RestIs x₀) : (m.countCore c e by_).RestIs x₀ := countAs_rest _ _ _ _ _ h

theorem countUncore_rest {m : Mach} (st : Nat) (u : UncoreEv) (by_ : Nat) (h : m.RestIs x₀) : (m.countUncore st u by_).RestIs x₀ := by
  dsimp only [Mach.countUncore]
  split
  · exact h
  · exact foldl_keeps (P := fun (t : Mach) => t.RestIs x₀) _ _ h (fun _ hb _ => ite_rest (bumpCount_rest _ _ _ _ _ _ _ hb) hb)

theorem setLine_rest {m : Mach} (c line : Nat) (st : LineSt) (h : m.RestIs x₀) : (m.setLine c line st).RestIs x₀ := setCore_rest _ _ h

theorem takeLost_rest {m : Mach} (line : Nat) (h : m.RestIs x₀) : (m.takeLost line).RestIs x₀ := by
  unfold Mach.takeLost
  split
  · exact h
  · exact of_rest h (by dsimp only [Mach.rest])

theorem setDir_rest {m : Mach} (line : Nat) (e : DirEnt) (h : m.RestIs x₀) : (m.setDir line e).RestIs x₀ :=
  of_rest (ite_rest h (takeLost_rest _ h)) rfl

theorem dropLines_rest {m : Mach} (keep : Option Nat) (line : Nat) (h : m.RestIs x₀) : (m.dropLines keep line).RestIs x₀ := of_rest h rfl

theorem armedWrite_rest {m : Mach} (st k cls a : Nat) (h : m.RestIs x₀) : (m.armedWrite st k cls a).RestIs x₀ := by
  dsimp only [Mach.armedWrite]
  split
  · exact of_rest (ite_rest (drawn_rest (setReg_rest _ _ _ _ h)) (setReg_rest _ _ _ _ h)) rfl
  · exact of_rest h rfl

theorem dramStored_rest {m : Mach} (a : Nat) (h : m.RestIs x₀) : (m.dramStored a).RestIs x₀ := by
  dsimp only [Mach.dramStored]
  refine foldl_keeps (P := fun (t : Mach) => t.RestIs x₀) _ _ h fun _ hb1 _ => ?_
  split
  · exact armedWrite_rest _ _ _ _ hb1
  · refine armedWrite_rest _ _ _ _ (armedWrite_rest _ _ _ _ hb1)

theorem noteStale_rest {m : Mach} (line : Nat) (h : m.RestIs x₀) : (m.noteStale line).RestIs x₀ := ite_rest h (of_rest h rfl)

theorem unstale_rest {m : Mach} (line : Nat) (h : m.RestIs x₀) : (m.unstale line).RestIs x₀ :=
  ite_rest (dramStored_rest _ (touchDram_rest _ (of_rest h rfl))) h

theorem setSlotsL3_rest {m : Mach} (p : Nat) (l : List L3Line) (h : m.RestIs x₀) : (m.setSlotsL3 p l).RestIs x₀ := of_rest h rfl

theorem modL3_rest {m : Mach} (line : Nat) (f : L3Line → L3Line) (h : m.RestIs x₀) : (m.modL3 line f).RestIs x₀ := setSlotsL3_rest _ _ h

theorem l3ToMemory_rest {m : Mach} (e : L3Line) (h : m.RestIs x₀) : (m.l3ToMemory e).RestIs x₀ := by
  dsimp only [Mach.l3ToMemory]
  split
  · exact h
  · split
    · exact of_rest h rfl
    · exact unstale_rest _ h

theorem allocWay_rest {m : Mach} (p line stop : Nat) (h : m.RestIs x₀) : (m.allocWay p line stop).2.RestIs x₀ := by
  dsimp only [Mach.allocWay]
  split
  · exact h
  · split
    · split
      · exact h
      · exact h
    · split
      · exact h
      · exact h
      · exact drawn_rest h

theorem countSlice_rest {m : Mach} (p ev : Nat) (h : m.RestIs x₀) : (m.countSlice p ev).RestIs x₀ := countUncore_rest _ _ _ h

theorem allocL3_rest {m : Mach} (line stop : Nat) (dirty : Bool) (h : m.RestIs x₀) : (m.allocL3 line stop dirty).2.RestIs x₀ := by
  dsimp only [Mach.allocL3]
  split
  · exact h
  · split
    · next _ t he =>
        have hk : t.RestIs x₀ := of_snd_rest he (allocWay_rest _ _ _ h)
        exact hk
    · next _ _ t he =>
        have hk : t.RestIs x₀ := of_snd_rest he (allocWay_rest _ _ _ h)
        refine countSlice_rest _ _ (setSlotsL3_rest _ _ (takeLost_rest _
          (foldl_keeps (P := fun (t : Mach) => t.RestIs x₀) _ _ hk
            (fun _ hb _ => ite_rest (countSlice_rest _ _ (l3ToMemory_rest _ hb)) (l3ToMemory_rest _ hb)))))

theorem l3Return_rest {m : Mach} (line stop : Nat) (h : m.RestIs x₀) : (m.l3Return line stop).RestIs x₀ := by
  dsimp only [Mach.l3Return]
  split
  · exact noteStale_rest _ (modL3_rest _ _ h)
  · split
    · next _ t he =>
        have hk : t.RestIs x₀ := of_snd_rest he (allocL3_rest _ _ _ h)
        exact hk
    · next _ t he =>
        have hk : t.RestIs x₀ := of_snd_rest he (allocL3_rest _ _ _ h)
        exact unstale_rest _ hk

theorem becomeM_rest {m : Mach} (c line : Nat) (h : m.RestIs x₀) : (m.becomeM c line).RestIs x₀ := by
  dsimp only [Mach.becomeM]
  split
  · exact h
  · refine foldl_keeps (P := fun (t : Mach) => t.RestIs x₀) _ _ (setDir_rest _ _
      (setLine_rest _ _ _ (dropLines_rest _ _ (ite_rest h (modL3_rest _ _ (noteStale_rest _ h)))))) fun _ hb1 _ => ?_
    exact armedWrite_rest _ _ _ _ hb1

theorem stored_rest {m : Mach} (a : Nat) (h : m.RestIs x₀) : (m.stored a).RestIs x₀ := by
  dsimp only [Mach.stored]
  split
  · exact armedWrite_rest _ _ _ _ h
  · exact armedWrite_rest _ _ _ _ h
  · split
    · exact armedWrite_rest _ _ _ _ h
    · split
      · exact armedWrite_rest _ _ _ _ h
      · refine armedWrite_rest _ _ _ _ (armedWrite_rest _ _ _ _ h)
  · exact h

theorem homeWrite_rest {m : Mach} (writer : Option Nat) (line : Nat) (h : m.RestIs x₀) : (m.homeWrite writer line).RestIs x₀ := by
  dsimp only [Mach.homeWrite]
  split
  · exact ite_rest (modL3_rest _ _ (noteStale_rest _ (setDir_rest _ _ (dropLines_rest _ _ (l3Return_rest _ _ h)))))
      (setDir_rest _ _ (dropLines_rest _ _ (l3Return_rest _ _ h)))
  · exact ite_rest (modL3_rest _ _ (noteStale_rest _ (setDir_rest _ _ (dropLines_rest _ _ h)))) (setDir_rest _ _ (dropLines_rest _ _ h))

theorem tlbFill_rest {m : Mach} (c : Nat) (e : TlbEntry) (h : m.RestIs x₀) : (m.tlbFill c e).RestIs x₀ := ite_rest h (setCore_rest _ _ h)

theorem translate_rest {m : Mach} (c : Nat) (nd : Need) (gtOk : Bool) (va : Nat) (h : m.RestIs x₀) :
    OkAll (fun r => r.2.2.RestIs x₀) (m.translate c nd gtOk va) := by
  dsimp only [Mach.translate]
  split
  · split
    · exact trivial
    · exact trivial
    · exact h
  · split
    · exact trivial
    · dsimp only [OkAll, SomeAll]
      split
      · refine setByte_rest _ _ ?_
        split
        · exact homeWrite_rest _ _ (countCore_rest _ _ _ (tlbFill_rest _ _ (drawn_rest h)))
        · exact countCore_rest _ _ _ (tlbFill_rest _ _ (drawn_rest h))
      · exact countCore_rest _ _ _ (tlbFill_rest _ _ (drawn_rest h))

theorem putGrant_rest {m : Mach} (pa : Nat) (g : Grant) (h : m.RestIs x₀) : (m.putGrant pa g).RestIs x₀ := putWords_rest _ _ h

theorem entryPa_rest {m : Mach} (c : Nat) (tsel : Bool) (idx : Nat) (h : m.RestIs x₀) :
    OkAll (fun r => r.2.RestIs x₀) (m.entryPa c tsel idx) := by
  dsimp only [Mach.entryPa]
  split
  · exact trivial
  · next _ _ _ t he =>
      have hke : t.RestIs x₀ := OkAll.elim he (translate_rest _ _ _ _ h) id
      split
      · exact trivial
      · split
        · split
          · exact hke
          · exact trivial
        · exact hke

theorem gcFill_rest {m : Mach} (c : Nat) (l : GrantLine) (h : m.RestIs x₀) : (m.gcFill c l).RestIs x₀ := ite_rest h (setCore_rest _ _ h)

theorem entry_rest {m : Mach} (c : Nat) (tsel : Bool) (idx : Nat) (h : m.RestIs x₀) :
    OkAll (fun r => r.2.2.RestIs x₀) (m.entry c tsel idx) := by
  dsimp only [Mach.entry]
  split
  · exact trivial
  · next _ _ t he =>
      have hke : t.RestIs x₀ := OkAll.elim he (entryPa_rest _ _ _ h) id
      split
      · exact hke
      · split
        · exact countCore_rest _ _ _ hke
        · split
          · exact gcFill_rest _ _ (countCore_rest _ _ _ hke)
          · exact countCore_rest _ _ _ hke

theorem live_rest {m : Mach} (c : Nat) (cap : Word) (a : Acc) (w2 : W64) (vaddr : Nat) (h : m.RestIs x₀) :
    OkAll (fun r => r.2.2.RestIs x₀) (m.live c cap a w2 vaddr) := by
  dsimp only [Mach.live]
  split
  · exact trivial
  · split
    · exact trivial
    · exact trivial
    · next _ _ _ t he =>
        have hke : t.RestIs x₀ := OkAll.elim he (entry_rest _ _ _ h) id
        split
        · exact hke
        · exact trivial

theorem checkHalf_rest {m : Mach} (c colour : Nat) (rq : Req) (va n : Nat) (h : m.RestIs x₀) :
    OkAll (fun r => r.2.RestIs x₀) (m.checkHalf c colour rq va n) := by
  dsimp only [Mach.checkHalf]
  split
  · exact trivial
  · next _ _ _ t he =>
      have hke : t.RestIs x₀ := OkAll.elim he (translate_rest _ _ _ _ h) id
      split
      · exact trivial
      · split
        · split
          · exact trivial
          · exact hke
        · split
          · exact trivial
          · exact hke
        · split
          · exact trivial
          · exact hke
        · split
          · exact trivial
          · exact hke
        · split
          · exact trivial
          · exact hke

theorem checkHalves_rest {m : Mach} (c colour : Nat) (rq : Req) (l : List (Nat × Nat)) (h : m.RestIs x₀) :
    OkAll (fun r => r.2.RestIs x₀) (m.checkHalves c colour rq l) := by
  induction l generalizing m with
  | nil => exact h
  | cons p t ih =>
    dsimp only [Mach.checkHalves]
    split
    · exact trivial
    · next he =>
      have h1 := OkAll.elim he (checkHalf_rest _ _ _ _ _ h) id
      split
      · exact trivial
      · next he2 => exact OkAll.elim he2 (ih h1) id

theorem checkParts_rest {m : Mach} (c : Nat) (cap : Word) (ea : Int) (rq : Req) (parts : List (Nat × Nat)) (h : m.RestIs x₀) :
    OkAll (fun r => r.2.2.RestIs x₀) (m.checkParts c cap ea rq parts) := by
  dsimp only [Mach.checkParts]
  split
  · exact trivial
  · next _ _ _ t he =>
      have hke : t.RestIs x₀ := OkAll.elim he (live_rest _ _ _ _ _ h) id
      split
      · exact trivial
      · split
        · exact trivial
        · split
          · exact trivial
          · split
            · exact trivial
            · split
              · exact trivial
              · split
                · exact trivial
                · next _ _ t1 he1 =>
                    have hke1 : t1.RestIs x₀ := OkAll.elim he1 (checkHalves_rest _ _ _ _ hke) id
                    exact hke1

theorem check_rest {m : Mach} (c : Nat) (cap : Word) (ea : Int) (rq : Req) (h : m.RestIs x₀) :
    OkAll (fun r => r.2.2.RestIs x₀) (m.check c cap ea rq) :=
  checkParts_rest _ _ _ _ _ h

theorem epnSend_rest {m : Mach} (l : Nat) (h : m.RestIs x₀) : (m.epnSend l).RestIs x₀ := of_rest h rfl

theorem mirrorWrite_rest {m : Mach} (st unit a mask : Nat) (h : m.RestIs x₀) : (m.mirrorWrite st unit a mask).RestIs x₀ := by
  dsimp only [Mach.mirrorWrite]
  split
  · exact h
  · split
    · exact h
    · split
      · split
        · exact setCore_rest _ _ h
        · exact h
      · split
        · split
          · exact setCore_rest _ _ (countUncore_rest _ _ _ (epnSend_rest _ (of_rest h rfl)))
          · exact countUncore_rest _ _ _ (epnSend_rest _ (of_rest h rfl))
        · exact h

theorem drainWord_rest {m : Mach} (line : Nat) (p : Nat × MbWord) (h : m.RestIs x₀) : (m.drainWord line p).RestIs x₀ :=
  setMeta_rest _ _ (writeN_rest _ _ _ h)

theorem l1Inval_rest {m : Mach} (c line : Nat) (h : m.RestIs x₀) : (m.l1Inval c line).RestIs x₀ := of_rest h rfl

theorem ownFor_rest {m : Mach} (c pt a : Nat) (h : m.RestIs x₀) : (m.ownFor c pt a).RestIs x₀ := by
  dsimp only [Mach.ownFor]
  split
  · exact h
  · split
    · exact becomeM_rest _ _ h
    · exact homeWrite_rest _ _ h

theorem ownAtHome_rest {m : Mach} (a : Nat) (h : m.RestIs x₀) : (m.ownAtHome a).RestIs x₀ := by
  dsimp only [Mach.ownAtHome]
  split
  · exact homeWrite_rest _ _ h
  · exact h

theorem drainEntry_rest {m : Mach} (c : Nat) (e : MbEntry) (h : m.RestIs x₀) : (m.drainEntry c e).RestIs x₀ :=
  l1Inval_rest _ _ (foldl_keeps (P := fun (t : Mach) => t.RestIs x₀) _ _ (ownFor_rest _ _ _ h)
    (fun _ hb _ => mirrorWrite_rest _ _ _ _ (stored_rest _ (drainWord_rest _ _ hb))))

theorem drainOldest_rest {m : Mach} (c k : Nat) (h : m.RestIs x₀) : (m.drainOldest c k).RestIs x₀ := by
  induction k generalizing m with
  | zero => exact h
  | succ k ih =>
    dsimp only [Mach.drainOldest]
    split
    · exact h
    · exact ih (setCore_rest _ _ (drainEntry_rest _ _ h))

theorem drainAll_rest {m : Mach} (c : Nat) (h : m.RestIs x₀) : (m.drainAll c).RestIs x₀ := drainOldest_rest _ _ h

theorem drainLine_rest {m : Mach} (c line : Nat) (h : m.RestIs x₀) : (m.drainLine c line).RestIs x₀ := by
  dsimp only [Mach.drainLine]
  split
  · exact h
  · exact drainOldest_rest _ _ h

theorem l1Access_rest {m : Mach} (c pa : Nat) (fetch : Bool) (h : m.RestIs x₀) : (m.l1Access c pa fetch).RestIs x₀ := by
  dsimp only [Mach.l1Access]
  split
  · exact h
  · split
    · exact drainLine_rest _ _ h
    · split
      · exact setCore_rest _ _ h
      · split
        · exact countCore_rest _ _ _ (setCore_rest _ _ (countCore_rest _ _ _ (ite_rest h (drainLine_rest _ _ h))))
        · refine foldl_keeps (P := fun (t : Mach) => t.RestIs x₀) _ _
            (setCore_rest _ _ (countCore_rest _ _ _ (ite_rest h (drainLine_rest _ _ h)))) fun _ hb1 _ => ?_
          exact armedWrite_rest _ _ _ _ hb1

theorem orderDevice_rest {m : Mach} (c pt : Nat) (h : m.RestIs x₀) : (m.orderDevice c pt).RestIs x₀ := ite_rest (drainAll_rest _ h) h

theorem countMesh_rest {m : Mach} (pa stop unit : Nat) (wd : World) (h : m.RestIs x₀) : (m.countMesh pa stop unit wd).RestIs x₀ := by
  dsimp only [Mach.countMesh]
  split
  · exact countUncore_rest _ _ _ h
  · exact h

theorem coreMesh_rest {m : Mach} (c pa : Nat) (h : m.RestIs x₀) : (m.coreMesh c pa).RestIs x₀ := countMesh_rest _ _ _ _ h

theorem loadSide_rest {m : Mach} (c : Nat) (p : Piece) (h : m.RestIs x₀) : (m.loadSide c p).RestIs x₀ := by
  dsimp only [Mach.loadSide]
  split
  · exact h
  · exact ite_rest (coreMesh_rest _ _ (orderDevice_rest _ _ h)) (l1Access_rest _ _ _ h)

theorem setProtLog_rest {m : Mach} (st k : Nat) (l : List LogEnt) (h : m.RestIs x₀) : (m.setProtLog st k l).RestIs x₀ := of_rest h rfl

theorem raiseOpt_rest {m : Mach} (st : Nat) (src : Option Nat) (pa : Nat) (h : m.RestIs x₀) : (m.raiseOpt st src pa).RestIs x₀ := by
  dsimp only [Mach.raiseOpt]
  split
  · exact raiseOwn_rest _ _ _ h
  · exact h

theorem logCorrection_rest {m : Mach} (st k cls pa loc : Nat) (subch ch : Bool) (h : m.RestIs x₀) :
    (m.logCorrection st k cls pa loc subch ch).RestIs x₀ := by
  dsimp only [Mach.logCorrection]
  split
  · exact ite_rest (raiseOpt_rest _ _ _ (setProtLog_rest _ _ _ h)) (setProtLog_rest _ _ _ h)
  · split
    · exact ite_rest (raiseOpt_rest _ _ _ (setProtLog_rest _ _ _ h)) (setProtLog_rest _ _ _ h)
    · split
      · exact ite_rest (raiseOpt_rest _ _ _ (setProtLog_rest _ _ _ h)) (setProtLog_rest _ _ _ h)
      · split
        · exact ite_rest (raiseOpt_rest _ _ _ (setProtLog_rest _ _ _ h)) (setProtLog_rest _ _ _ h)
        · exact countReg_rest _ _ _ _ _ _ h

theorem correctable_rest {m : Mach} (u : Upset) (loc : Nat) (h : m.RestIs x₀) : (m.correctable u loc).RestIs x₀ :=
  logCorrection_rest _ _ _ _ _ _ _ (raiseOpt_rest _ _ _ (countReg_rest _ _ _ _ _ _ h))

theorem poisonWord_rest {m : Mach} (a : Nat) (h : m.RestIs x₀) : (m.poisonWord a).RestIs x₀ :=
  ite_rest (of_rest h rfl) (of_rest h rfl)

theorem poisonLine_rest {m : Mach} (pa : Nat) (h : m.RestIs x₀) : (m.poisonLine pa).RestIs x₀ :=
  foldl_keeps (P := fun (t : Mach) => t.RestIs x₀) _ _ h (fun _ hb _ => poisonWord_rest _ hb)

theorem poisonDram_rest {m : Mach} (pa : Nat) (h : m.RestIs x₀) : (m.poisonDram pa).RestIs x₀ := by
  dsimp only [Mach.poisonDram]
  split
  · exact of_rest h rfl
  · exact poisonLine_rest _ h

theorem loseStored_rest {m : Mach} (pa : Nat) (h : m.RestIs x₀) : (m.loseStored pa).RestIs x₀ := by
  dsimp only [Mach.loseStored]
  split
  · exact of_rest h rfl
  · exact of_rest h rfl

theorem loseMeta_rest {m : Mach} (pa : Nat) (h : m.RestIs x₀) : (m.loseMeta pa).RestIs x₀ :=
  foldl_keeps (P := fun (t : Mach) => t.RestIs x₀) _ _ h (fun _ hb _ => loseStored_rest _ hb)

theorem uncorrectable_rest {m : Mach} (u : Upset) (dirty : Bool) (h : m.RestIs x₀) : (m.uncorrectable u dirty).RestIs x₀ := by
  dsimp only [Mach.uncorrectable]
  split
  · exact ite_rest (of_rest (m := m.countReg u.st u.k 776 48 16 1) (countReg_rest _ _ _ _ _ _ h) rfl) (countReg_rest _ _ _ _ _ _ h)
  · split
    · exact of_rest (raiseOpt_rest _ _ _ (countReg_rest _ _ _ _ _ _ h)) rfl
    · split
      · exact loseMeta_rest _ (raiseOpt_rest _ _ _ (countReg_rest _ _ _ _ _ _ h))
      · exact ite_rest (poisonDram_rest _ (raiseOpt_rest _ _ _ (countReg_rest _ _ _ _ _ _ h)))
          (poisonWord_rest _ (raiseOpt_rest _ _ _ (countReg_rest _ _ _ _ _ _ h)))

theorem meetUpset_rest {m : Mach} (u : Upset) (h : m.RestIs x₀) : (m.meetUpset u).RestIs x₀ := by
  dsimp only [Mach.meetUpset]
  split
  · exact of_rest h rfl
  · exact correctable_rest _ _ (of_rest h rfl)
  · exact uncorrectable_rest _ _ (of_rest h rfl)
  · split
    · exact uncorrectable_rest _ _ (drawn_rest (of_rest h rfl))
    · exact ite_rest (drawn_rest (of_rest h rfl)) (writeN_rest _ _ _ (drawn_rest (of_rest h rfl)))

theorem readUpsets_rest {m : Mach} (c : Option Nat) (fetch : Bool) (pa n : Nat) (h : m.RestIs x₀) : (m.readUpsets c fetch pa n).RestIs x₀ :=
  foldl_keeps (P := fun (t : Mach) => t.RestIs x₀) _ _ h (fun _ hb _ => meetUpset_rest _ hb)

theorem clearPage_rest {m : Mach} (pa : Nat) (h : m.RestIs x₀) : (m.clearPage pa).RestIs x₀ :=
  foldl_keeps (P := fun (t : Mach) => t.RestIs x₀) _ _ h (fun _ hb _ => l1Inval_rest _ _
    (stored_rest _ (putWord_rest _ _ _ _ (ownAtHome_rest _ hb))))

theorem writeGrant_rest {m : Mach} (st unit pa : Nat) (g : Grant) (h : m.RestIs x₀) : (m.writeGrant st unit pa g).RestIs x₀ := by
  dsimp only [Mach.writeGrant]
  refine l1Inval_rest _ _ ?_
  refine mirrorWrite_rest _ _ _ _ ?_
  refine mirrorWrite_rest _ _ _ _ ?_
  refine mirrorWrite_rest _ _ _ _ (mirrorWrite_rest _ _ _ _ (putGrant_rest _ _ (ownAtHome_rest _ h)))

theorem firstPiece_rest {m : Mach} (c : Nat) (cap : Word) (ea : Int) (rq : Req) (h : m.RestIs x₀) :
    OkAll (fun r => r.2.RestIs x₀) (m.firstPiece c cap ea rq) := by
  dsimp only [Mach.firstPiece]
  split
  · exact trivial
  · next _ _ _ t he =>
      have hke : t.RestIs x₀ := OkAll.elim he (check_rest _ _ _ _ h) id
      split
      · exact trivial
      · exact trivial
      · exact hke

theorem enginePa_rest {m : Mach} (q a : Nat) (h : m.RestIs x₀) : SomeAll (fun r => r.2.RestIs x₀) (m.enginePa q a) := by
  dsimp only [Mach.enginePa]
  split
  · exact h
  · split
    · exact trivial
    · split
      · exact trivial
      · dsimp only [OkAll, SomeAll]
        split
        · refine setByte_rest _ _ ?_
          split
          · exact homeWrite_rest _ _ h
          · exact h
        · exact h

theorem pairPa_rest {m : Mach} (q i : Nat) (h : m.RestIs x₀) : SomeAll (fun r => r.2.RestIs x₀) (m.pairPa q i) := by
  have he := enginePa_rest q (m.queue q).rgPage h
  unfold Mach.pairPa
  cases hp : m.enginePa q (m.queue q).rgPage with
  | none => trivial
  | some p =>
    rw [hp] at he
    exact he

theorem mergeWord_rest {m : Mach} (a mask : Nat) (d : W64) (poison : Bool) (h : m.RestIs x₀) : (m.mergeWord a mask d poison).RestIs x₀ :=
  ite_rest h (setMeta_rest _ _ (writeN_rest _ _ _ h))

theorem homeBytes_rest {m : Mach} (stop unit : Nat) (writer : Option Nat) (line mask : Nat) (data : List W64) (poison : Nat)
    (h : m.RestIs x₀) : (m.homeBytes stop unit writer line mask data poison).RestIs x₀ := by
  dsimp only [Mach.homeBytes]
  refine foldl_keeps (P := fun (t : Mach) => t.RestIs x₀) _ _ ?_ fun _ hb1 _ => ?_
  · refine l1Inval_rest _ _ ?_
    split
    · exact openLine_rest _ (homeWrite_rest _ _ h)
    · exact homeWrite_rest _ _ h
  · split
    · exact hb1
    · exact mirrorWrite_rest _ _ _ _ (stored_rest _ (mergeWord_rest _ _ _ _ hb1))

theorem mntVirt_rest {m : Mach} (c : Nat) (cap : Word) (q : MntReq) (h : m.RestIs x₀) :
    OkAll (fun r => r.2.RestIs x₀) (m.mntVirt c cap q) := by
  dsimp only [Mach.mntVirt]
  split
  · exact trivial
  · next _ _ _ t he =>
      have hke : t.RestIs x₀ := OkAll.elim he (live_rest _ _ _ _ _ h) id
      split
      · exact trivial
      · split
        · split
          · exact trivial
          · split
            · exact trivial
            · split
              · exact trivial
              · exact hke
        · split
          · exact trivial
          · split
            · exact trivial
            · split
              · exact trivial
              · exact hke

theorem mntPhys_rest {m : Mach} (c : Nat) (cap : Word) (h : m.RestIs x₀) : OkAll (fun r => r.2.RestIs x₀) (m.mntPhys c cap) := by
  dsimp only [Mach.mntPhys]
  split
  · exact trivial
  · next _ _ _ t he =>
      have hke : t.RestIs x₀ := OkAll.elim he (check_rest _ _ _ _ h) id
      split
      · split
        · exact trivial
        · split
          · exact trivial
          · next _ _ t1 he1 =>
              have hke1 : t1.RestIs x₀ := OkAll.elim he1 (entryPa_rest _ _ _ hke) id
              exact hke1
      · split
        · exact trivial
        · split
          · exact trivial
          · next _ _ t1 he1 =>
              have hke1 : t1.RestIs x₀ := OkAll.elim he1 (entryPa_rest _ _ _ hke) id
              exact hke1

theorem countMc_rest {m : Mach} (q : McReq) (ev : Nat) (h : m.RestIs x₀) : (m.countMc q ev).RestIs x₀ := countUncore_rest _ _ _ h

theorem readDram_rest {m : Mach} (ch ca : Nat) (h : m.RestIs x₀) : (m.readDram ch ca).RestIs x₀ :=
  foldl_keeps (P := fun (t : Mach) => t.RestIs x₀) _ _ h (fun _ hb _ => meetUpset_rest _ hb)

theorem dramWrite_rest {m : Mach} (line mask : Nat) (data : List W64) (poison : Nat) (h : m.RestIs x₀) :
    (m.dramWrite line mask data poison).RestIs x₀ := by
  dsimp only [Mach.dramWrite]
  split
  · exact dramStored_rest _ (touchDram_rest _ (of_rest h rfl))
  · exact dramStored_rest _ (foldl_keeps (P := fun (t : Mach) => t.RestIs x₀) _ _ (ite_rest (openLine_rest _ h) h)
      (fun _ hb _ => mergeWord_rest _ _ _ _ hb))

theorem dramAtomic_rest {m : Mach} (line i op : Nat) (a b : Word) (h : m.RestIs x₀) : (m.dramAtomic line i op a b).RestIs x₀ :=
  ite_rest h (stored_rest _ (putWord_rest _ _ _ _ h))

theorem accept_rest {m : Mach} (q : McReq) (op : McOp) (h : m.RestIs x₀) : (m.accept q op).RestIs x₀ := by
  dsimp only [Mach.accept]
  split
  · exact h
  · exact countMc_rest _ _ (dramWrite_rest _ _ _ _ h)
  · exact countMc_rest _ _ (dramAtomic_rest _ _ _ _ _ (readDram_rest _ _ h))

theorem gateOpen_rest {m : Mach} (px g t : Nat) (h : m.RestIs x₀) : (m.gateOpen px g t).2.RestIs x₀ := by
  dsimp only [Mach.gateOpen]
  split
  · exact drawn_rest h
  · exact h

theorem portHalt_rest {m : Mach} (q pa : Nat) (egress : Bool) (h : m.RestIs x₀) : (m.portHalt q pa egress).RestIs x₀ :=
  ite_rest h (raiseSrc_rest _ _ _ _ _ _ (setReg_rest _ _ _ _ h))

theorem engWord_rest {m : Mach} (st a : Nat) (d : W64) (poison : Bool) (h : m.RestIs x₀) : (m.engWord st a d poison).RestIs x₀ := by
  dsimp only [Mach.engWord]
  split
  · refine mirrorWrite_rest _ _ _ _ (stored_rest _ (putWord_rest _ _ _ _ (l1Inval_rest _ _ (homeWrite_rest _ _ h))))
  · exact countMesh_rest _ _ _ _ (stored_rest _ (putWord_rest _ _ _ _ h))

theorem engWords_rest {m : Mach} (st a : Nat) (ws : List Word) (h : m.RestIs x₀) : (m.engWords st a ws).RestIs x₀ := by
  induction ws generalizing m a with
  | nil => exact h
  | cons w ws ih => exact ih _ (engWord_rest _ _ _ _ h)

theorem putBytes_rest {m : Mach} (a : Nat) (bs : List (BitVec 8)) (n : Nat) (h : m.RestIs x₀) : (m.putBytes a bs n).RestIs x₀ := by
  induction n generalizing m a bs with
  | zero => exact h
  | succ n ih =>
    have ho : (if a % 64 = 0 ∧ 64 ≤ bs.length then m.openLine a else m).RestIs x₀ := ite_rest (openLine_rest _ h) h
    dsimp only [Mach.putBytes]
    split
    · exact h
    · split
      · exact storePart_rest _ _ _ _ ho
      · exact ih _ _ (putWord_rest _ _ _ _ ho)

theorem putPayload_rest {m : Mach} (e i : Nat) (bs : List (BitVec 8)) (port : Option Nat) (cs : List Bool) (h : m.RestIs x₀) :
    (m.putPayload e i bs port cs).RestIs x₀ := by
  dsimp only [Mach.putPayload]
  refine foldl_keeps (P := fun (t : Mach) => t.RestIs x₀) _ _ h fun _ hb1 _ => ?_
  refine putBytes_rest _ _ _ ?_
  split
  · split
    · exact ite_rest (portHalt_rest _ _ _ hb1) hb1
    · exact ite_rest (portHalt_rest _ _ _ (readUpsets_rest _ _ _ _ hb1)) (readUpsets_rest _ _ _ _ hb1)
  · exact ite_rest hb1 (readUpsets_rest _ _ _ _ hb1)

theorem vqfEvent_rest {m : Mach} (e v : Nat) (h : m.RestIs x₀) : (m.vqfEvent e v).RestIs x₀ := ite_rest (raiseAssigned_rest _ h) h

theorem writeSlot_rest {m : Mach} (st ring slots s : Nat) (ws : List Word) (h : m.RestIs x₀) : (m.writeSlot st ring slots s ws).RestIs x₀ :=
  engWord_rest _ _ _ _ (engWords_rest _ _ _ h)

theorem doorbell_rest {m : Mach} (c : Nat) (a : Word) (h : m.RestIs x₀) : OkAll (fun r => r.2.RestIs x₀) (m.doorbell c a) := by
  dsimp only [Mach.doorbell]
  split
  · exact trivial
  · next _ _ _ t he =>
      have hke : t.RestIs x₀ := OkAll.elim he (live_rest _ _ _ _ _ h) id
      split
      · exact trivial
      · split
        · exact trivial
        · split
          · exact trivial
          · split
            · exact trivial
            · next _ _ _ t1 he1 =>
                have hke1 : t1.RestIs x₀ := OkAll.elim he1 (translate_rest _ _ _ _ hke) id
                split
                · split
                  · exact hke1
                  · exact trivial
                · exact trivial

theorem recordCap_rest {m : Mach} (c : Nat) (a : Word) (h : m.RestIs x₀) : OkAll (fun r => r.2.RestIs x₀) (m.recordCap c a) := by
  dsimp only [Mach.recordCap]
  split
  · exact trivial
  · split
    · exact trivial
    · exact trivial
    · next _ _ _ t he =>
        have hke : t.RestIs x₀ := OkAll.elim he (entry_rest _ _ _ h) id
        split
        · exact hke
        · exact trivial
        · split
          · exact trivial
          · split
            · exact trivial
            · exact hke
        · split
          · exact trivial
          · split
            · exact trivial
            · exact trivial

theorem checkRange_rest {m : Mach} (c : Nat) (cap : Word) (len : Nat) (perms : List Perm) (h : m.RestIs x₀) :
    OkAll (fun r => r.2.RestIs x₀) (m.checkRange c cap len perms) := by
  dsimp only [Mach.checkRange]
  split
  · exact trivial
  · next _ _ _ t he =>
      have hke : t.RestIs x₀ := OkAll.elim he (checkParts_rest _ _ _ _ _ h) id
      exact hke

theorem mintPair_rest {m : Mach} (q pa s : Nat) (h : m.RestIs x₀) : (m.mintPair q pa s).2.RestIs x₀ :=
  writeGrant_rest _ _ _ _ (writeGrant_rest _ _ _ _ h)

theorem readOut_rest {m : Mach} (c : Nat) (g3 : Bool) (y : Word) (h : m.RestIs x₀) : OkAll (fun r => r.2.RestIs x₀) (m.readOut c g3 y) := by
  dsimp only [Mach.readOut]
  split
  · exact trivial
  · next _ _ t he =>
      have hke : t.RestIs x₀ := OkAll.elim he (firstPiece_rest _ _ _ _ h) id
      split
      · split
        · exact trivial
        · exact readUpsets_rest _ _ _ _ (loadSide_rest _ _ hke)
      · split
        · exact trivial
        · exact readUpsets_rest _ _ _ _ (loadSide_rest _ _ hke)

theorem outData_rest {m : Mach} (c : Nat) (a : Word) (d : OutDesc) (h : m.RestIs x₀) :
    OkAll (fun r => r.2.RestIs x₀) (m.outData c a d) := by
  dsimp only [Mach.outData]
  split
  · exact trivial
  · next _ _ t he =>
      have hke : t.RestIs x₀ := OkAll.elim he (checkRange_rest _ _ _ _ h) id
      split
      · exact hke
      · split
        · exact trivial
        · exact hke

theorem devWrite_rest {m : Mach} (st unit : Nat) (wd : World) (a : Nat) (data : List (BitVec 8)) (ep : Bool) (h : m.RestIs x₀) :
    (m.devWrite st unit wd a data ep).RestIs x₀ := by
  dsimp only [Mach.devWrite]
  refine foldl_keeps (P := fun (t : Mach) => t.RestIs x₀) _ _ h fun _ hb1 _ => ?_
  split
  · exact homeBytes_rest _ _ _ _ _ _ _ hb1
  · refine countMesh_rest _ _ _ _ ?_
    refine foldl_keeps (P := fun (t : Mach) => t.RestIs x₀) _ _ (ite_rest (openLine_rest _ hb1) hb1) fun _ hb2 _ => ?_
    exact ite_rest hb2 (stored_rest _ (mergeWord_rest _ _ _ _ hb2))

end

end Sys2Proof.Machine

/-! SUPPORT. The secure world (R225, R229 to R231): what a trigger, a write of the hold set, a hold time that ends and a restart leave, and that
a scrub leaves zeros in the carve-outs. -/

namespace Sys2Proof.Machine

/-! ### Triggers -/

/-- Accesses to memory leave what triggered a restart. -/
theorem Mach.RestIs.secTrig {m x : Mach} (h : m.RestIs x) : m.secTrig = x.secTrig := by
  obtain rfl : m.rest = x := h
  rfl

section
variable (m : Mach) (k : Nat)

theorem secTrigger_again (h : m.secTrig.isSome = true) : m.secTrigger k = m.countReg 0 0 0x700 32 16 1 := if_pos h

/-- A trigger counts while the secure world runs or starts (R230). -/
def Mach.secRuns (m : Mach) : Prop := m.regFld 0 0 0x700 0 3 = 1 ∨ m.regFld 0 0 0x700 0 3 = 2

theorem secTrigger_idle (h : m.secTrig = none) (hs : ¬ m.secRuns) : m.secTrigger k = m := by
  unfold Mach.secTrigger
  rw [if_neg (by simp [h])]
  exact if_pos (not_or.mp hs)

/-- A trigger is remembered: clearing the scratch page and raising the source leave it. -/
theorem secTrigger_first (h : m.secTrig = none) (hs : m.secRuns) : (m.secTrigger k).secTrig = some k := by
  have hn : ¬ (fld (m.reg 0 0 0x700) 0 3 ≠ 1 ∧ fld (m.reg 0 0 0x700) 0 3 ≠ 2) := fun hn => not_or.mpr hn hs
  unfold Mach.secTrigger
  rw [if_neg (by simp [h])]
  simp only []
  rw [if_neg hn]
  have hrest : Mach.RestIs { m with secTrig := some k } (Mach.rest { m with secTrig := some k }) := rfl
  exact (raiseOwn_rest 0 9 none (clearPage_rest _ (setReg_rest 0 0 0x700 _ hrest))).secTrig

end

/-! ### Deferred requests -/

/-- A released request is in the queue, with those that were there. -/
theorem mem_queueIn (q x : PmReq) (l : List PmReq) : x ∈ queueIn q l ↔ x = q ∨ x ∈ l := by
  induction l with
  | nil => simp [queueIn]
  | cons y t ih =>
    unfold queueIn
    split
    · simp
    · simp only [List.mem_cons, ih, or_left_comm]

theorem mem_foldl_queueIn (rs l : List PmReq) (x : PmReq) : x ∈ rs.foldl (fun l q => queueIn q l) l ↔ x ∈ rs ∨ x ∈ l := by
  induction rs generalizing l with
  | nil => simp
  | cons q rs ih => simp only [List.foldl_cons, ih, mem_queueIn, List.mem_cons, or_assoc, or_left_comm]

section
variable (m : Mach) (go : Nat → Bool)

/-- The power manager's state once the requests that `go` names were let go. -/
theorem releaseDeferred_power : (m.releaseDeferred go).power =
    { m.power with
      queue := (m.power.deferred.filter (fun q => go q.dom)).foldl (fun l q => queueIn q l) m.power.queue
      deferred := m.power.deferred.filter (fun q => ! go q.dom) } :=
  foldl_keeps (P := fun t : Mach => t.power = _) _ _ rfl fun _ h _ => h

theorem releaseDeferred_deferred {q : PmReq} (h : q ∈ (m.releaseDeferred go).power.deferred) : go q.dom = false := by
  rw [releaseDeferred_power] at h
  simpa using (List.mem_filter.mp h).2

theorem releaseDeferred_queue {q : PmReq} (hq : q ∈ m.power.deferred) (hg : go q.dom = true) :
    q ∈ (m.releaseDeferred go).power.queue := by
  rw [releaseDeferred_power]
  exact (mem_foldl_queueIn _ _ _).mpr (.inl (List.mem_filter.mpr ⟨hq, hg⟩))

/-- Letting requests go leaves the registers of the Sytum's first window. -/
theorem releaseDeferred_reg {off : Nat} (ho : off < 4096) : (m.releaseDeferred go).reg 0 0 off = m.reg 0 0 off :=
  foldl_keeps (P := fun t : Mach => t.reg 0 0 off = m.reg 0 0 off) _ _ rfl fun _ h _ =>
    (reg_setRegBit_ne _ (by unfold cellKey; omega)).trans h

end

/-! ### The hold set -/

section
variable (m : Mach) {mst : Master} (v : W64)

/-- The hold set that a write gives (R229). -/
def holdSet (v : W64) : W64 := setFld 0 0 49 (fld v 0 49)

theorem bit_holdSet {d : Nat} (h : bit (holdSet v) d = true) : bit v d = true := by
  by_cases hd : d < 64
  · unfold holdSet bit at h
    rw [getLsbD_setFld _ _ _ _ _ hd] at h
    split at h
    · next hr =>
      rw [testBit_fld] at h
      simpa [bit] using (Bool.and_eq_true_iff.mp h).2
    · simp at h
  · simp [bit, BitVec.getLsbD_of_ge _ _ (Nat.not_lt.mp hd)] at h

theorem holdWrite_barred (h : mst.world ≠ .secure) (hs : mst.sytum = false) : m.holdWrite mst v = m := if_pos ⟨h, by simp [hs]⟩

theorem holdWrite_secure (h : mst.world = .secure) :
    m.holdWrite mst v = (m.setReg 0 0 0x718 (holdSet v)).releaseDeferred (fun d => ! bit (holdSet v) d) :=
  if_neg fun hn => hn.1 h

variable {m} {d : Nat}

theorem holdTimeout_free (h : m.secHeld d = false) : m.holdTimeout d = m := if_pos (.inl (by simp [h]))

/-- The machine at the end of the hold time of domain `d`. -/
def Mach.holdEnd (m : Mach) (d : Nat) : Mach := { m with dt := max m.dt (Tab.get 0 m.holdAt d + m.regFld 0 0 0x710 0 10 * 1000000) }

theorem holdTimeout_held (h : m.secHeld d = true) (hq : ∃ q ∈ m.power.deferred, q.dom = d) : m.holdTimeout d =
    if m.regFld 0 0 0x700 0 3 = 0 ∨ m.regFld 0 0 0x700 0 3 = 4 then (m.holdEnd d).releaseDeferred (fun _ => true)
    else (m.holdEnd d).secTrigger 3 := by
  have hany : m.power.deferred.any (fun q => decide (q.dom = d)) = true := by simpa using hq
  exact if_neg (by simp [h, hany])

end

/-! ### The scrub -/

section
variable (m : Mach)

/-- Memory is `x`. -/
def Mach.MemIs (m : Mach) (x : List Host.Cell) : Prop := m.mem = x

section
variable {m : Mach} {x : List Host.Cell}

theorem initRegion_memIs (c ca : Nat) (h : m.MemIs x) : (m.initRegion c ca).MemIs x := (initRegion_frame m c ca).1.trans h

theorem initRegions_memIs (c lo hi : Nat) (h : m.MemIs x) : (m.initRegions c lo hi).MemIs x :=
  foldl_keeps (P := fun t : Mach => t.MemIs x) _ _ h fun _ ht _ => initRegion_memIs _ _ ht

theorem touchRange_memIs (r : Nat × Nat) (h : m.MemIs x) : (m.touchRange r).MemIs x := by
  unfold Mach.touchRange
  simp only []
  split
  · exact h
  · exact foldl_keeps (P := fun t : Mach => t.MemIs x) _ _ h fun _ ht _ =>
      initRegions_memIs _ _ _ (initRegions_memIs _ _ _ (initRegions_memIs _ _ _ ht))

end

theorem scrub_mem : m.scrub.mem = m.mem.filter (fun p => ! inRanges m.carveOuts p.1) :=
  foldl_keeps (P := fun t : Mach => t.MemIs _) _ _ rfl fun _ h r => touchRange_memIs r h

/-- A key that a filter removes reads as unlisted. -/
theorem get_filter_removed {β : Type} (d : β) (keep : Nat → Bool) (t : List (Nat × β)) {k : Nat} (h : keep k = false) :
    Tab.get d (t.filter (fun p => keep p.1)) k = d := by
  induction t with
  | nil => rfl
  | cons p t ih =>
    rw [List.filter_cons]
    split
    · next hp =>
      have hne : p.1 ≠ k := by
        rintro rfl
        rw [h] at hp
        cases hp
      rw [Tab.get, if_neg hne, ih]
    · exact ih

theorem scrub_byte {a : Nat} (h : inRanges m.carveOuts a = true) : m.scrub.byte a = 0 := by
  unfold Mach.byte
  split
  · rfl
  · rw [scrub_mem]
    exact get_filter_removed 0 (fun k => ! inRanges m.carveOuts k) m.mem (by simp [h])

end

/-! ### The restart -/

section
variable {m : Mach} (img : SecIn)

theorem secRestart_untriggered (h : m.secTrig = none) : m.secRestart img = m := if_pos (.inl (by simp [h]))

theorem secRestart_runs (h : m.secTrig.isSome = true) (hr : m.phase = .run) : m.secRestart img =
    (if img.sigOk then (Mach.scrub { m.forceAllOut with secTrig := none }).secBring img
      else ((Mach.scrub { m.forceAllOut with secTrig := none }).secBring img).raiseOwn 0 8 none).releaseDeferred (fun _ => true) :=
  if_neg (by simp [hr, Option.isNone_eq_false_iff.mpr h])

theorem secBring_unsigned (h : img.sigOk = false) : m.secBring img = m.secFail := if_pos (by simp [h])

end

/-! ### The commands -/

section
variable {s : State} {mst : Master}

theorem exec_kick (h : s.m.Opens mst 0 0 0x708) :
    exec (.kick mst) s = .next (s.withM (if mst.world = .secure then { s.m with kickAt := s.m.dt } else s.m)) := by
  change s.upd (fun m => m.window mst 0 0 0x708 (fun m => if mst.world = .secure then { m with kickAt := m.dt } else m)) = _
  rw [upd_eq, window_open h]

theorem exec_secRestartRequest (h : s.m.Opens mst 0 0 0x708) :
    exec (.secRestartRequest mst) s = .next (s.withM (if mst.world = .secure then s.m.secTrigger 4 else s.m)) := by
  change s.upd (fun m => m.window mst 0 0 0x708 (fun m => if mst.world = .secure then m.secTrigger 4 else m)) = _
  rw [upd_eq, window_open h]

theorem exec_secHoldWrite (v : W64) (h : s.m.Opens mst 0 0 0x718) :
    exec (.secHoldWrite mst v) s = .next (s.withM (s.m.holdWrite mst v)) := by
  change s.upd (fun m => m.window mst 0 0 0x718 (fun m => m.holdWrite mst v)) = _
  rw [upd_eq, window_open h]

theorem exec_secHoldTimeout (d : Nat) : exec (.secHoldTimeout d) s = .next (s.withM (s.m.holdTimeout d)) := rfl

theorem exec_secureRestart (img : SecIn) : exec (.secureRestart img) s = .next (s.withM (s.m.secRestart img)) := rfl

/-- SEC_WATCHDOG_EXPIRE with the watchdog's period `w` (R230). -/
theorem exec_secWatchdogExpire : exec .secWatchdogExpire s = .next (s.withM
    (if s.m.regFld 0 0 0x710 16 10 = 0 ∨ s.m.regFld 0 0 0x700 0 3 ≠ 2 then s.m
      else Mach.secTrigger { s.m with dt := max s.m.dt (s.m.kickAt + s.m.regFld 0 0 0x710 16 10 * 1000000) } 1)) := rfl

end

/-- Settles O50: each command by the branch that its condition chooses; the scrub by what a filter of memory leaves. -/
theorem secureWorld : Obligations.SecureWorld := by
  refine ⟨fun s => ⟨fun hl => ?_, fun hl => ?_⟩, fun s mst hop => ⟨fun hw => ⟨?_, ?_⟩, fun hw => ⟨?_, ?_⟩⟩,
    fun m k => ⟨fun h => secTrigger_again m k h, fun h hs => secTrigger_first m k h hs,
      fun h h1 h2 => secTrigger_idle m k h (not_or.mpr ⟨h1, h2⟩)⟩,
    fun s mst v hop => ⟨fun hw hs => ?_, fun hw => ⟨_, exec_secHoldWrite v hop, ?_⟩⟩,
    fun s d => ⟨fun hh => ?_, fun hh hq => ⟨fun hs => ?_, fun hs => ?_⟩⟩,
    fun s img => ⟨fun ht => ?_, fun ht hr => ⟨fun hok => ?_, fun hok => ?_⟩⟩, fun m a ha => scrub_byte m ha⟩
  · rw [exec_secWatchdogExpire, if_neg (not_or.mpr ⟨hl.1, not_not.mpr hl.2⟩)]
  · rw [exec_secWatchdogExpire, if_pos (not_and_or.mp hl |>.imp not_not.mp id), withM_self]
  · rw [exec_kick hop, if_pos hw]
  · rw [exec_secRestartRequest hop, if_pos hw]
  · rw [exec_kick hop, if_neg hw, withM_self]
  · rw [exec_secRestartRequest hop, if_neg hw, withM_self]
  · rw [exec_secHoldWrite v hop, holdWrite_barred _ v hw hs, withM_self]
  · rw [holdWrite_secure _ v hw]
    refine ⟨?_, fun q hq => ?_, fun q hq hv => ?_⟩
    · rw [releaseDeferred_reg _ _ (by omega), reg_setReg_self]
      rfl
    · have h := releaseDeferred_deferred _ _ hq
      exact bit_holdSet v (by simpa using h)
    · refine releaseDeferred_queue _ _ hq ?_
      cases hb : bit (holdSet v) q.dom with
      | false => rfl
      | true => rw [bit_holdSet v hb] at hv; cases hv
  · rw [exec_secHoldTimeout, holdTimeout_free hh, withM_self]
  · rw [exec_secHoldTimeout, holdTimeout_held hh hq, if_pos hs]
    rfl
  · rw [exec_secHoldTimeout, holdTimeout_held hh hq, if_neg (by omega)]
    rfl
  · rw [exec_secureRestart, secRestart_untriggered img ht, withM_self]
  · rw [exec_secureRestart, secRestart_runs img ht hr, if_pos hok]
  · rw [exec_secureRestart, secRestart_runs img ht hr, if_neg (by simp [hok]), secBring_unsigned img hok]

end Sys2Proof.Machine

/-! SUPPORT. Block headers (R19, R22, R23, R25, R28): the branches of an unlock, of a write of BLK_CTRL and of the end of a disabling, and the
fields of a recorded violation. -/

namespace Sys2Proof.Machine

/-! ### The unlock sequence -/

section
variable (n : Nat) (v : W64)

theorem unlockNext_first : unlockNext 0 0x4C47 = 1 := by decide

theorem unlockNext_second : unlockNext 1 0xB3B8 = 2 := by decide

theorem unlockNext_other {n : Nat} {v : W64} (h1 : ¬ (n = 0 ∧ v = 0x4C47)) (h2 : ¬ (n = 1 ∧ v = 0xB3B8)) : unlockNext n v = 0 := by
  unfold unlockNext
  rw [if_neg h1, if_neg h2]

end

/-! ### BLK_CTRL -/

section
variable {m : Mach} {st k : Nat}

/-- ENABLE of a block that is no port takes its value, and the block is not being disabled any more. -/
theorem setEnable_blk (e : Bool) (h : ∀ q, winBlk st k ≠ some (.port, q)) :
    (m.setEnable st k e).blk st k = { m.blk st k with enable := e, disabling := false } := by
  unfold Mach.setEnable
  split
  · next q hq => exact absurd hq (h q)
  · exact blk_setBlk_self _ _ _ _

/-- The header of a block with the QUIESCE that a write of BLK_CTRL gives. -/
def Mach.quiesced (m : Mach) (st k : Nat) (v : W64) : BlkState := { m.blk st k with quiesce := bit v 1 }

variable (v : W64)

theorem blkCtrl_same (h : bit v 0 = (m.quiesced st k v).enable) : m.blkCtrl st k v = m.setBlk st k (m.quiesced st k v) :=
  if_pos (.inr (.inl h))

theorem blkCtrl_enables (hd : (m.quiesced st k v).disabling = false) (hv : bit v 0 = true) (he : (m.quiesced st k v).enable = false) :
    m.blkCtrl st k v = (m.setBlk st k (m.quiesced st k v)).setEnable st k true := by
  change (m.blk st k).disabling = false at hd
  change (m.blk st k).enable = false at he
  simp [Mach.blkCtrl, Mach.quiesced, hd, hv, he]

theorem blkCtrl_disables (hd : (m.quiesced st k v).disabling = false) (hv : bit v 0 = false) (he : (m.quiesced st k v).enable = true)
    (hn : neverOff st k = false) : m.blkCtrl st k v =
      if (m.setBlk st k (m.quiesced st k v)).work st k
      then (m.setBlk st k (m.quiesced st k v)).setBlk st k { m.quiesced st k v with disabling := true }
      else (m.setBlk st k (m.quiesced st k v)).setEnable st k false := by
  change (m.blk st k).disabling = false at hd
  change (m.blk st k).enable = true at he
  simp [Mach.blkCtrl, Mach.quiesced, hd, hv, he, hn]

theorem disabled_ends (hd : (m.blk st k).disabling = true) (hw : m.work st k = false) : m.disabled_ st k = m.setEnable st k false :=
  if_pos ⟨hd, by simp [hw]⟩

end

/-! ### Violations -/

section
variable (v : Viol)

theorem violAddrOf_fields (ha : v.addr < 2 ^ 52) : bit (violAddrOf v) 63 = true ∧ fld (violAddrOf v) 0 52 = v.addr := by
  unfold violAddrOf
  refine ⟨bit_setBit_self _ _ (by omega), ?_⟩
  simp (disch := omega) only [fld_setBit_ne, fld_setFld_same]
  exact Nat.mod_eq_of_lt ha

theorem accCode_lt (a : Acc) : a.code < 2 ^ 4 := by cases a <;> decide

theorem ruleCode_lt (r : Rule) : r.code < 2 ^ 4 := by cases r <;> decide

theorem violInfoOf_fields (hs : v.mstop < 64) (hu : v.munit < 64) : fld (violInfoOf v 1) 0 6 = v.mstop ∧ fld (violInfoOf v 1) 8 6 = v.munit ∧
    fld (violInfoOf v 1) 16 4 = v.acc.code ∧ fld (violInfoOf v 1) 20 4 = v.rule.code ∧ fld (violInfoOf v 1) 32 16 = 1 := by
  unfold violInfoOf
  simp (disch := omega) only [fld_setFld_ne, fld_setFld_same]
  exact ⟨Nat.mod_eq_of_lt hs, Nat.mod_eq_of_lt hu, Nat.mod_eq_of_lt (accCode_lt _), Nat.mod_eq_of_lt (ruleCode_lt _), rfl⟩

variable (m : Mach) {st k : Nat}

/-- The header of a window after a violation there. -/
theorem logViol_blk : (m.logViol st k v).blk st k = if bit (m.blk st k).violAddr 63
    then { m.blk st k with violInfo := setFld (m.blk st k).violInfo 32 16 (min (fld (m.blk st k).violInfo 32 16 + 1) 0xFFFF) }
    else { m.blk st k with violAddr := violAddrOf v, violInfo := violInfoOf v 1 } :=
  blk_setBlk_self _ _ _ _

theorem logViol_blk_ne {st' k' : Nat} (h : st * 256 + k ≠ st' * 256 + k') : (m.logViol st k v).blk st' k' = m.blk st' k' :=
  blk_setBlk_ne m _ h.symm

theorem logViol_reports : (m.logViol st k v).reports.length = m.reports.length + 1 := List.length_append

end

/-! ### The commands -/

section
variable {s : State} {mst : Master} {st k : Nat} (v : W64)

theorem exec_expertUnlockWrite (h : s.m.Opens mst st k 0x18) :
    exec (.expertUnlockWrite mst st k v) s = .next (s.withM (s.m.unlock st k v)) := by
  change s.upd (fun m => m.window mst st k 0x18 (fun m => m.unlock st k v)) = _
  rw [upd_eq, window_open h]

theorem exec_expertUnlockWrite_unpowered (hw : (winBlk st k).isSome = true) (ha : s.m.answers st k = false) :
    exec (.expertUnlockWrite mst st k v) s =
      .next (s.withM (s.m.logViol st 0xFE ⟨winPa st k 0x18, false, mst.stop, mst.unit, .ctlwr, .ctlUnpowered⟩)) := by
  change s.upd (fun m => m.window mst st k 0x18 (fun m => m.unlock st k v)) = _
  rw [upd_eq, Mach.window, if_neg (by rw [Option.isNone_eq_false_iff.mpr hw]; exact Bool.false_ne_true), if_pos (by simp [ha])]

theorem exec_blkCtrlWrite (h : s.m.Opens mst st k 0x08) :
    exec (.blkCtrlWrite mst st k v) s = .next (s.withM (s.m.blkCtrl st k v)) := by
  change s.upd (fun m => m.window mst st k 0x08 (fun m => m.blkCtrl st k v)) = _
  rw [upd_eq, window_open h]

theorem exec_violAddrClear (arrivals : List Viol) (h : s.m.Opens mst st k 0x20) :
    exec (.violAddrClear mst st k v arrivals) s = .next (s.withM (s.m.violClear st k v arrivals)) := by
  change s.upd (fun m => m.window mst st k 0x20 (fun m => m.violClear st k v arrivals)) = _
  rw [upd_eq, window_open h]

theorem exec_disableComplete : exec (.disableComplete st k) s = .next (s.withM (s.m.disabled_ st k)) := rfl

end

/-- Settles O30: each write by the branch that its condition chooses, each violation by whether its window holds one already. -/
theorem blockHeaders : Obligations.BlockHeaders := by
  refine ⟨⟨fun s mst st k v hop => ⟨fun hl hv => ?_, fun hl hv => ?_, fun h1 h2 => ?_⟩, fun s mst st k v hw ha => ?_,
    fun s mst st k v hop hd hport => ⟨fun he => ?_, fun hv he => ⟨_, exec_blkCtrlWrite v hop, ?_⟩, fun hv he hn hw => ?_,
      fun hv he hn hw => ⟨_, exec_blkCtrlWrite v hop, ?_⟩⟩,
    fun s st k hd hw hport => ⟨_, exec_disableComplete, ?_⟩, fun s mst st k v hop hv => ?_⟩,
    fun m st k v ha hs hu => ⟨fun hfree => ?_, fun hheld => ?_, logViol_reports v m, fun st' k' hne => logViol_blk_ne v m hne⟩⟩
  · rw [exec_expertUnlockWrite v hop, Mach.unlock, hl, hv, unlockNext_first]
  · rw [exec_expertUnlockWrite v hop, Mach.unlock, hl, hv, unlockNext_second]
  · rw [exec_expertUnlockWrite v hop, Mach.unlock, unlockNext_other h1 h2]
  · exact exec_expertUnlockWrite_unpowered v hw ha
  · rw [exec_blkCtrlWrite v hop, blkCtrl_same v he]
    rfl
  · rw [blkCtrl_enables v hd hv he, setEnable_blk _ hport, blk_setBlk_self]
    simp only [Mach.quiesced]
    rw [show (s.m.blk st k).disabling = false from hd]
  · rw [exec_blkCtrlWrite v hop, blkCtrl_disables v hd hv he hn]
    exact congrArg (fun t => Host.Outcome.next (s.withM t)) (if_pos hw)
  · rw [blkCtrl_disables v hd hv he hn, if_neg (by rw [Bool.not_eq_true]; exact hw), setEnable_blk _ hport, blk_setBlk_self]
    simp only [Mach.quiesced]
    rw [show (s.m.blk st k).disabling = false from hd]
  · rw [disabled_ends hd hw, setEnable_blk _ hport]
  · rw [exec_violAddrClear v [] hop, Mach.violClear, if_pos hv, List.mergeSort_nil, List.foldl_nil]
  · rw [logViol_blk, hfree, if_neg Bool.false_ne_true]
    obtain ⟨h1, h2⟩ := violAddrOf_fields v ha
    exact ⟨h1, h2, violInfoOf_fields v hs hu⟩
  · rw [logViol_blk, if_pos hheld]
    refine ⟨rfl, (fld_setFld_same _ _ (by omega)).trans (Nat.mod_eq_of_lt ?_)⟩
    omega

end Sys2Proof.Machine

/-! SUPPORT. Requests of devices (R481 to R485, R487): one lemma for each way that a request ends, and the commands of the DMA translation. -/

namespace Sys2Proof.Machine

/-! ### The ways that a request ends -/

section
variable {m : Mach} {h : Nat} {q : DmaReq}

/-- Group `h` takes the request: it runs, the port is one of its own, and the request has bytes. -/
def Mach.dmaTakes (m : Mach) (h : Nat) (q : DmaReq) : Prop := m.hioTakes h = true ∧ q.port < 16 ∧ q.len ≠ 0

theorem dmaTakes_not (ht : m.dmaTakes h q) : ¬ (! m.hioTakes h ∨ 16 ≤ q.port ∨ q.len = 0) := by
  obtain ⟨h1, h2, h3⟩ := ht
  rw [h1]
  rintro (h | h | h)
  · cases h
  · omega
  · exact h3 h

theorem dmaRequest_halted (ht : m.dmaTakes h q) (hh : (m.hio h).halted.contains q.rid = true) :
    m.dmaRequest h q = m.dmaCount h q .host := by
  unfold Mach.dmaRequest
  rw [if_neg (dmaTakes_not ht), if_pos hh]

/-- Its group takes the request, whose requester is not halted. -/
def Mach.dmaServes (m : Mach) (h : Nat) (q : DmaReq) : Prop := m.dmaTakes h q ∧ (m.hio h).halted.contains q.rid = false

theorem dmaRequest_msi (hs : m.dmaServes h q) (hm : m.isMsi h q = true) : m.dmaRequest h q = m.msi h q := by
  unfold Mach.dmaRequest
  rw [if_neg (dmaTakes_not hs.1), hs.2, if_neg Bool.false_ne_true, if_pos hm]

theorem dmaRequest_noContext (hs : m.dmaServes h q) (hm : m.isMsi h q = false) (hc : m.ctxOk h q.rid = false) :
    m.dmaRequest h q = m.dmaRefuse h q .host .cap := by
  unfold Mach.dmaRequest
  rw [if_neg (dmaTakes_not hs.1), hs.2, if_neg Bool.false_ne_true, hm, if_neg Bool.false_ne_true, hc]
  rfl

/-- The pieces of the request's range within pages. -/
def DmaReq.pieces (q : DmaReq) : List (Nat × Nat) := pagePieces q.addr q.len (q.len / 4096 + 2)

/-- What becomes of a request whose context is usable, with the words `l` of its list. -/
def Mach.dmaListed (m : Mach) (h : Nat) (q : DmaReq) (ws l : List Word) : Mach :=
  match l.findSome? (fun c => m.listWord ws q c) with
  | none => m.dmaRefuse h q (ctxRegime ws).world .cap
  | some g =>
    if m.dmaColour (ctxRegime ws) g.colour q.pieces then m.dmaRefuse h q (ctxRegime ws).world .cap
    else match m.dmaWalk (ctxRegime ws) ⟨! q.write, q.write, false⟩ q.pieces with
    | none => m.dmaRefuse h q (ctxRegime ws).world .xlate
    | some (qs, m2) => m2.dmaGo h q (ctxRegime ws).world qs

theorem dmaRequest_listed (hs : m.dmaServes h q) (hm : m.isMsi h q = false) (hc : m.ctxOk h q.rid = true) :
    m.dmaRequest h q = (m.dmaList h q.rid (m.dmaCtx h q.rid)).2.dmaListed h q (m.dmaCtx h q.rid)
      (m.dmaList h q.rid (m.dmaCtx h q.rid)).1 := by
  unfold Mach.dmaRequest
  rw [if_neg (dmaTakes_not hs.1), hs.2, if_neg Bool.false_ne_true, hm, if_neg Bool.false_ne_true, hc]
  rfl

variable {ws l : List Word} {g : Grant}

theorem dmaListed_none (hl : ∀ x ∈ l, m.listWord ws q x = none) : m.dmaListed h q ws l = m.dmaRefuse h q (ctxRegime ws).world .cap := by
  unfold Mach.dmaListed
  rw [List.findSome?_eq_none_iff.mpr hl]

theorem dmaListed_colour (hl : l.findSome? (fun x => m.listWord ws q x) = some g)
    (hc : m.dmaColour (ctxRegime ws) g.colour q.pieces = true) : m.dmaListed h q ws l = m.dmaRefuse h q (ctxRegime ws).world .cap := by
  unfold Mach.dmaListed
  rw [hl]
  exact if_pos hc

theorem dmaListed_walk (hl : l.findSome? (fun x => m.listWord ws q x) = some g)
    (hc : m.dmaColour (ctxRegime ws) g.colour q.pieces = false) : m.dmaListed h q ws l =
      match m.dmaWalk (ctxRegime ws) ⟨! q.write, q.write, false⟩ q.pieces with
      | none => m.dmaRefuse h q (ctxRegime ws).world .xlate
      | some (qs, m2) => m2.dmaGo h q (ctxRegime ws).world qs := by
  unfold Mach.dmaListed
  rw [hl]
  exact if_neg (by rw [hc]; exact Bool.false_ne_true)

/-- DRAM without a carve-out takes a piece (R483 items 6 and 7). -/
theorem dmaGo_dram {pa n : Nat} (wd : World) (hc : m.carveOf pa = none) (hl : m.locate pa = .dram) : m.dmaGo h q wd [(pa, n)] =
    let m1 := m.countUncore (hioStop h) ⟨if q.write then 0x2A1 else 0x2A0, wd, some 2, some (hioStop h, q.port), some pa⟩ 1
    if q.write then m1.devWrite (hioStop h) q.port wd pa (q.data.take n) q.ep else m1.devRead h q wd (pa, n) := by
  have ht : m.dmaTarget pa = true := by simp [Mach.dmaTarget, hl]
  have ho : m.dmaOff pa = none := by simp [Mach.dmaOff, hl]
  simp [Mach.dmaGo, hc, ht, ho]

end

/-! ### The commands -/

section
variable {s : State} {mst : Master} {h : Nat}

theorem exec_dmaRequest (hh : h < 2) (q : DmaReq) : exec (.dmaRequest h q) s = .next (s.withM (s.m.dmaRequest h q)) := by
  change s.upd (fun m => if 2 ≤ h then m else m.dmaRequest h q) = _
  rw [upd_eq, if_neg (by omega)]

theorem exec_dmatInv (hh : h < 2) (v : W64) (hop : s.m.Opens mst (hioStop h) 0x11 0x48) :
    exec (.dmatInv mst h v) s = .next (s.withM (s.m.dmatInv h v)) := by
  change s.upd (fun m => if 2 ≤ h then m else m.window mst (hioStop h) 0x11 0x48 (fun m => m.dmatInv h v)) = _
  rw [upd_eq, if_neg (by omega), window_open hop]

theorem exec_dmatResume (hh : h < 2) (rid : Nat) (hop : s.m.Opens mst (hioStop h) 0x11 0x68) :
    exec (.dmatResume mst h rid) s = .next (s.withM (s.m.dmatResume h rid)) := by
  change s.upd (fun m => if 2 ≤ h then m else m.window mst (hioStop h) 0x11 0x68 (fun m => m.dmatResume h rid)) = _
  rw [upd_eq, if_neg (by omega), window_open hop]

theorem exec_hioReset (hh : h < 2) (hop : s.m.Opens mst (hioStop h) 0 0x48) : exec (.hioReset mst h) s =
    .next (s.withM (if (s.m.blk (hioStop h) 0).quiesce then s.m.hioReset h else s.m)) := by
  change s.upd (fun m => if 2 ≤ h then m else m.window mst (hioStop h) 0 0x48 (fun m =>
    if (m.blk (hioStop h) 0).quiesce then m.hioReset h else m)) = _
  rw [upd_eq, if_neg (by omega), window_open hop]

end

theorem hio_setHio_self (m : Mach) (h : Nat) (x : HioRt) : (m.setHio h x).hio h = x := by rw [hio_setHio, if_pos rfl]

section
variable {m : Mach} {h rid : Nat}

theorem dmatResume_caused (hc : ∃ p ∈ (m.hio h).recs, p.2.rid = rid ∧ p.2.cause = true) : m.dmatResume h rid = m := if_pos (by simpa using hc)

theorem dmatResume_clear (hc : ∀ p ∈ (m.hio h).recs, p.2.rid = rid → p.2.cause = false) :
    rid ∉ ((m.dmatResume h rid).hio h).halted ∧ ∀ p ∈ ((m.dmatResume h rid).hio h).recs, p.2.rid ≠ rid := by
  have hnone : ¬ (m.hio h).recs.any (fun p => decide (p.2.rid = rid) && p.2.cause) = true := by simpa using hc
  have hio : (m.dmatResume h rid).hio h = { m.hio h with
      recs := (m.hio h).recs.filter (fun p => decide (p.2.rid ≠ rid)), halted := (m.hio h).halted.filter (fun r => decide (r ≠ rid)) } := by
    rw [Mach.dmatResume, if_neg hnone, hio_setHio_self]
  rw [hio]
  exact ⟨by simp, fun p hp => by simpa using (List.mem_filter.mp hp).2⟩

end

/-- Settles O53: each request by the first of the seven steps that ends it. -/
theorem deviceRequests : Obligations.DeviceRequests := by
  refine ⟨fun s h q hh htk hport hlen => ?_, fun s mst h hh => ⟨fun v hop => ⟨_, exec_dmatInv hh v hop, ?_⟩,
    fun rid hop => ⟨fun hc => ?_, fun hc => ⟨_, exec_dmatResume hh rid hop, dmatResume_clear hc⟩⟩,
    fun hop => ⟨fun hq => ?_, fun hq => ?_⟩⟩⟩
  · have ht : s.m.dmaTakes h q := ⟨htk, hport, hlen⟩
    rw [exec_dmaRequest hh]
    refine ⟨fun hha => by rw [dmaRequest_halted ht hha], fun hha hm => ?_, fun hha hm hc => ?_, fun hha hm hc => ?_⟩
    · rw [dmaRequest_msi ⟨ht, hha⟩ hm]
      exact ⟨fun hd => by rw [Mach.msi, if_pos hd], fun hd => by rw [Mach.msi, if_neg (Nat.not_lt.mpr hd)]⟩
    · rw [dmaRequest_noContext ⟨ht, hha⟩ hm hc]
    · rw [dmaRequest_listed ⟨ht, hha⟩ hm hc]
      refine ⟨fun hl => by rw [dmaListed_none hl], fun g hl => ⟨fun hcol => by rw [dmaListed_colour hl hcol], fun hcol => ?_⟩⟩
      rw [dmaListed_walk hl hcol]
      refine ⟨fun hw => ?_, fun pa n m2 hw hcv hloc => ⟨fun hwr => ?_, fun hwr => ?_⟩⟩
      · rw [DmaReq.pieces, hw]
      · rw [DmaReq.pieces, hw]
        simp only []
        rw [dmaGo_dram _ hcv hloc, if_pos hwr]
      · rw [DmaReq.pieces, hw]
        simp only []
        rw [dmaGo_dram _ hcv hloc, if_neg (by rw [hwr]; exact Bool.false_ne_true)]
  · rw [Mach.dmatInv, hio_setHio_self]
    exact ⟨rfl, rfl⟩
  · rw [exec_dmatResume hh rid hop, dmatResume_caused hc, withM_self]
  · rw [exec_hioReset hh hop, hq, if_neg Bool.false_ne_true, withM_self]
  · rw [exec_hioReset hh hop, if_pos hq]

end Sys2Proof.Machine

/-! SUPPORT. Root ports (R474 to R479): what a link that comes up or goes down shows, where a configuration request goes, and what ends the
wait of a core. -/

namespace Sys2Proof.Machine

/-! ### Links -/

section
variable {m : Mach} {r : Nat} (hr : r < 32) (ha : m.answers (rpStop r) (rpWin r) = true)

/-- RP_STATUS of a link that came up with `x`. -/
def Mach.rpUpStatus (m : Mach) (r : Nat) (x : RpTrain) : W64 :=
  let v := m.rpReg r 0x48
  let cxl := x.cxl && bit (m.rpReg r 0x40) 2 && decide (8 ≤ m.rpLanes r)
  setFld (setBit (setFld (setBit (setBit (setFld (setBit v 0 true) 1 2 x.rate) 3 x.low) 4 x.flit) 5 5 x.width) 10 cxl) 11 1 (fld v 11 1)

theorem rpUpStatus_fields (m : Mach) (r : Nat) (x : RpTrain) : bit (m.rpUpStatus r x) 0 = true ∧ fld (m.rpUpStatus r x) 1 2 = x.rate % 4 ∧
    fld (m.rpUpStatus r x) 5 5 = x.width % 32 := by
  unfold Mach.rpUpStatus
  simp (disch := omega) only [fld_setBit_ne, fld_setFld_ne, fld_setFld_same, bit_setFld_outside, bit_setBit_ne, bit_setBit_self]
  exact ⟨trivial, rfl, rfl⟩

/-- RP_STATUS of a link that went down. -/
def rpDownStatus (v : W64) : W64 := setBit (setFld v 0 11 0) 11 true

theorem rpDownStatus_bits (v : W64) : bit (rpDownStatus v) 0 = false ∧ bit (rpDownStatus v) 11 = true := by
  unfold rpDownStatus
  simp (disch := omega) only [bit_setBit_ne, bit_setBit_self, and_true]
  unfold bit
  rw [getLsbD_setFld _ _ _ _ _ (by omega), if_pos (by omega)]
  rfl

include hr ha

theorem rpLink_unmoved (t : Option RpTrain) (h : bit (m.rpReg r 0x48) 0 = t.isSome) : m.rpLink r t = m := by
  unfold Mach.rpLink
  rw [if_neg (by rw [ha]; simp; omega)]
  cases t <;> simp [h]

theorem rpLink_up (x : RpTrain) (h : bit (m.rpReg r 0x48) 0 = false) : m.rpLink r (some x) =
    (m.setReg (rpStop r) (rpWin r) 0x48 (m.rpUpStatus r x)).raiseSrc (rpStop r) 1 none (rpStop r) (r % 16) none := by
  unfold Mach.rpLink
  rw [if_neg (by rw [ha]; simp; omega)]
  simp only [h, Bool.false_eq_true, if_false]
  rfl

theorem rpLink_down (h : bit (m.rpReg r 0x48) 0 = true) : m.rpLink r none =
    ((m.setReg (rpStop r) (rpWin r) 0x48 (rpDownStatus (m.rpReg r 0x48))).rpDrop r).raiseSrc (rpStop r) 1 none (rpStop r) (r % 16) none := by
  unfold Mach.rpLink
  rw [if_neg (by rw [ha]; simp; omega)]
  simp only [h, Bool.not_true, Bool.false_eq_true, if_false]
  rfl

end

section
variable {m : Mach} {r c : Nat} {w : RpWait}

theorem rpOf_none (h : (m.core c).rpWait = none) : m.rpOf c = none := by
  unfold Mach.rpOf
  rw [h]

/-- With nothing waiting for a port, nothing is lost with its link. -/
theorem rpDrop_idle (hq : m.cfgReqs = []) (hc : ∀ c, (m.core c).rpWait = none) (r : Nat) : m.rpDrop r = m := by
  unfold Mach.rpDrop
  rw [hq]
  simp only [List.filter_nil, List.foldl_nil]
  refine foldl_keeps (P := fun t : Mach => t = m) _ _ rfl fun t ht p => ?_
  rw [ht, if_neg (by rw [rpOf_none (hc p.1)]; exact (Option.some_ne_none r).symm)]

/-! ### Lost and answered reads -/

theorem rpLost_idle (h : (m.core c).rpWait = none) : m.rpLost c = m := by
  unfold Mach.rpLost
  rw [h]

theorem rpLost_read (h : (m.core c).rpWait = some w) (hr : m.rpOf c = some r) (hw : w.cfg = false) :
    m.rpLost c = (m.countReg (rpStop r) (rpWin r) 0x48 32 16 1).rpFinish c (BitVec.allOnes 64) true := by
  unfold Mach.rpLost
  rw [h, hr]
  exact if_neg (by rw [hw]; exact Bool.false_ne_true)

/-- Core `c` waits for a read at root port `r`. -/
theorem readWait (h : (m.core c).rpWait = some w) (hr : m.rpOf c = some r) (hw : w.cfg = false) :
    m.rpOf c = some r ∧ (! (m.core c).rpWait.any (fun w => w.cfg)) = true := ⟨hr, by rw [h]; simp [hw]⟩

variable {q : CfgReq} {status data : Nat}

theorem rpComplete_config (hq : m.cfgReqs.find? (fun q => decide (q.rp = r)) = some q) : m.rpComplete r (.config status data) =
    if status = 1 ∧ m.dt < q.issued + 1000000000 then m else m.cfgAnswer q (if status = 0 then data % 2 ^ 32 else 0xFFFFFFFF) := by
  unfold Mach.rpComplete
  simp only [hq]

end

/-! ### Configuration requests -/

section
variable (m : Mach) (mst : Master) (r : Nat)

/-- The bus that RP_CFG_ADDR names, and the port's secondary bus. -/
def Mach.cfgBus (m : Mach) (r : Nat) : Nat := fld (m.rpReg r 0x58) 20 8
def Mach.secBus (m : Mach) (r : Nat) : Nat := fld (m.rpReg r 0x40) 32 8

/-- The bus lies behind the port (R476). -/
def Mach.busBehind (m : Mach) (r : Nat) : Prop :=
  m.cfgBus r = m.secBus r ∨ (m.secBus r < m.cfgBus r ∧ m.cfgBus r ≤ fld (m.rpReg r 0x40) 40 8)

/-- The request that goes out. -/
def Mach.cfgReq (m : Mach) (mst : Master) (r : Nat) (write : Bool) (data : Nat) : CfgReq :=
  ⟨r, mst.stop, mst.unit, write, decide (m.cfgBus r ≠ m.secBus r), fld (m.rpReg r 0x58) 2 26, data, m.dt⟩

variable {m r} (write : Bool) (data : Nat)

theorem cfgIssue_sent (hb : m.busBehind r) (hl : bit (m.rpReg r 0x48) 0 = true) : (m.cfgIssue mst r write data).2 =
    { m with cfgReqs := m.cfgReqs ++ [m.cfgReq mst r write (if write then data % 2 ^ 32 else 0)] } := by
  have hw : (decide (m.cfgBus r = m.secBus r) ||
      (decide (m.secBus r < m.cfgBus r) && decide (m.cfgBus r ≤ fld (m.rpReg r 0x40) 40 8))) = true := by simpa [Mach.busBehind] using hb
  unfold Mach.cfgBus Mach.secBus at hw
  unfold Mach.cfgIssue
  simp only [hw, hl, Bool.not_true, Bool.false_eq_true, or_self, if_false]
  rfl

theorem cfgIssue_unsent (h : ¬ m.busBehind r ∨ bit (m.rpReg r 0x48) 0 = false) : (m.cfgIssue mst r write data).2 =
    if write then m else m.setReg (rpStop r) (rpWin r) 0x60 0xFFFFFFFF := by
  have hw : (! (decide (m.cfgBus r = m.secBus r) ||
      (decide (m.secBus r < m.cfgBus r) && decide (m.cfgBus r ≤ fld (m.rpReg r 0x40) 40 8)))) = true ∨
      (! bit (m.rpReg r 0x48) 0) = true := by
    rcases h with h | h
    · left
      by_contra hn
      exact h (by simpa [Mach.busBehind, or_iff_not_imp_left] using hn)
    · right
      rw [h]
      rfl
  unfold Mach.cfgBus Mach.secBus at hw
  unfold Mach.cfgIssue
  simp only [if_pos hw]

variable {s : State} {mst : Master}

theorem exec_rpCfgAccess (hr : r < 32) (hop : s.m.Opens mst (rpStop r) (rpWin r) 0x60) :
    exec (.rpCfgAccess mst r write data) s = .next (s.withM (s.m.cfgIssue mst r write data).2) := by
  change s.upd (fun m => if 32 ≤ r then m
    else if write then m.window mst (rpStop r) (rpWin r) 0x60 (fun m => (m.cfgIssue mst r true data).2)
    else m.windowRead mst (rpStop r) (rpWin r) 0x60 (fun m => (m.cfgIssue mst r false data).2)) = _
  rw [upd_eq, if_neg (by omega)]
  cases write with
  | true => rw [if_pos rfl, window_open hop]
  | false =>
    obtain ⟨hwin, hans, _⟩ := hop
    rw [if_neg Bool.false_ne_true, Mach.windowRead, if_neg (by rw [Option.isNone_eq_false_iff.mpr hwin]; exact Bool.false_ne_true),
      if_pos hans]

theorem exec_hotrst (hr : r < 32) (hop : s.m.Opens mst (rpStop r) (rpWin r) 0x40) : exec (.hotrst mst r) s = .next s := by
  change s.upd (fun m => if 32 ≤ r then m else m.window mst (rpStop r) (rpWin r) 0x40 (fun m => m)) = _
  rw [upd_eq, if_neg (by omega), window_open hop, withM_self]

theorem exec_rpLinkChange (t : Option RpTrain) : exec (.rpLinkChange r t) s = .next (s.withM (s.m.rpLink r t)) := rfl

theorem exec_completionTimeout (c : Nat) : exec (.completionTimeout c) s = .next (s.withM (s.m.rpLost c)) := rfl

theorem exec_rootPortCompletion (hr : r < 32) (a : RpAnswer) :
    exec (.rootPortCompletion r a) s = .next (s.withM (s.m.rpComplete r a)) := by
  change s.upd (fun m => if 32 ≤ r then m else m.rpComplete r a) = _
  rw [upd_eq, if_neg (by omega)]

end

/-- Settles O54: each command by the branch that the link, the bus or the waiting core chooses. -/
theorem rootPorts : Obligations.RootPorts := by
  refine ⟨fun s r hr ha => ⟨fun x h => ⟨_, exec_rpLinkChange _, ?_⟩, fun h => ?_, fun h hq hc => ⟨_, exec_rpLinkChange _, ?_⟩⟩,
    fun s mst r data hr hop => ⟨fun hb hl => ⟨?_, ?_⟩, fun h => ⟨?_, ?_⟩⟩, fun s mst r hr hop => exec_hotrst hr hop,
    fun s c r w hr hw hrp hcfg => ⟨?_, ?_, fun v poison => ?_⟩, fun s c h => ?_,
    fun s r status data q hr hq => ⟨fun h0 => ?_, fun h1 hdt => ?_, fun h0 h1 => ?_⟩⟩
  · rw [rpLink_up hr ha x h]
    have hreg := reg_setReg_self s.m (rpStop r) (rpWin r) 0x48 (s.m.rpUpStatus r x)
    obtain ⟨hup, hrate, hwidth⟩ := rpUpStatus_fields s.m r x
    exact ⟨(congrArg (bit · 0) hreg).trans hup, (congrArg (fld · 1 2) hreg).trans hrate, (congrArg (fld · 5 5) hreg).trans hwidth⟩
  · rw [exec_rpLinkChange, rpLink_unmoved hr ha none h, withM_self]
  · have hreg := reg_setReg_self s.m (rpStop r) (rpWin r) 0x48 (rpDownStatus (s.m.rpReg r 0x48))
    obtain ⟨hdown, hlost⟩ := rpDownStatus_bits (s.m.rpReg r 0x48)
    rw [rpLink_down hr ha h, rpDrop_idle (m := s.m.setReg (rpStop r) (rpWin r) 0x48 _) hq hc]
    exact ⟨(congrArg (bit · 0) hreg).trans hdown, (congrArg (bit · 11) hreg).trans hlost⟩
  · rw [exec_rpCfgAccess _ _ hr hop, cfgIssue_sent mst _ _ hb hl]
    rfl
  · rw [exec_rpCfgAccess _ _ hr hop, cfgIssue_sent mst _ _ hb hl]
    rfl
  · rw [exec_rpCfgAccess _ _ hr hop, cfgIssue_unsent mst _ _ h]
    rfl
  · rw [exec_rpCfgAccess _ _ hr hop, cfgIssue_unsent mst _ _ h]
    rfl
  · rw [exec_completionTimeout, rpLost_read hw hrp hcfg]
  · rw [exec_rootPortCompletion hr, Mach.rpComplete, if_pos (readWait hw hrp hcfg), rpLost_read hw hrp hcfg]
  · rw [exec_rootPortCompletion hr, Mach.rpComplete, if_pos (readWait hw hrp hcfg)]
  · rw [exec_completionTimeout, rpLost_idle h, withM_self]
  · rw [exec_rootPortCompletion hr, rpComplete_config hq, if_neg (by omega), if_pos h0]
  · rw [exec_rootPortCompletion hr, rpComplete_config hq, if_pos ⟨h1, hdt⟩, withM_self]
  · rw [exec_rootPortCompletion hr, rpComplete_config hq, if_neg (by omega), if_neg h0]

end Sys2Proof.Machine

/-! SUPPORT. The management mailbox (R491 to R493): SET_PLIMIT is a write of the package's power limit, whose change the servo follows over the
next steps (R524), and so leaves more than the new limit in its register. -/

namespace Sys2Proof.Machine

/-- The limit that a SET_PLIMIT replaces is remembered with the steps that its change takes. -/
theorem plimit_limits {m : Mach} {w : Nat} (h : m.limitOk w = true) :
    (m.plimit w).power.limits = m.power.limits ++ [(m.regFld 0 1 0x40 0 10, 10)] := by
  unfold Mach.plimit
  rw [if_pos h]

/-- A request that is under way, allowed and whole is served. -/
theorem mbxServe_asked {m : Mach} {code n : Nat} (h : MailboxAsked m code n) (f : Mach → Mach) : m.mbxServe code n f = f m := by
  obtain ⟨hbusy, hcmd, hrun, hall, hreq⟩ := h
  have hwhole : (List.range n).any (fun i => (m.mbx.req.lookup (0x10 + i)).isNone) = false := by
    rw [List.any_eq_false]
    intro i hi
    rw [Option.isNone_eq_false_iff.mpr (hreq i (List.mem_range.mp hi))]
    exact Bool.false_ne_true
  simp [Mach.mbxServe, hbusy, hcmd, hrun, hall, hwhole]

theorem exec_setPlimit {s : State} (h : MailboxAsked s.m 0x11 2) (hw : s.m.limitOk (s.m.mbxReq 2) = true) :
    exec .setPlimit s = .next (s.withM ((s.m.plimit (s.m.mbxReq 2)).mbxDone 0 [])) := by
  change s.upd (fun m => m.mbxServe 0x11 2 Mach.mbxPlimit) = _
  rw [upd_eq, mbxServe_asked h, Mach.mbxPlimit, if_pos hw]

/-- A running device whose I3C_ALLOW lets SET_PLIMIT run, asked to limit its power to 380 W. -/
def limitAsked : Mach :=
  { Mach.reset with
    phase := .run
    ctl := [(cellKey 0 6 0x40, 2)]
    mbx := { Mbx.reset with busy := true, cmd := 0x11, req := [(0x10, 0x7C), (0x11, 0x01)] } }

theorem limitAsked_asked : MailboxAsked limitAsked 0x11 2 := by
  refine ⟨rfl, rfl, rfl, by decide, fun i hi => ?_⟩
  have : i = 0 ∨ i = 1 := by omega
  rcases this with rfl | rfl <;> decide

/-- Refutes O56: on the device that is asked for 380 W, SET_PLIMIT also remembers the limit that it replaces, for the ten steps that the servo
takes to follow (R524), where the statement lets it change its register alone. -/
theorem not_mailboxCommands : ¬ Obligations.MailboxCommands := by
  intro h
  obtain ⟨_, hdata, _⟩ := h
  obtain ⟨_, _, _, _, _, _, hlimit, _⟩ := hdata ⟨[], limitAsked⟩
  have hw : limitAsked.limitOk (limitAsked.mbxReq 2) = true := by decide
  have hexec := hlimit limitAsked_asked hw
  rw [exec_setPlimit limitAsked_asked hw] at hexec
  have hpower := congrArg (fun t : Mach => t.power.limits) (m_eq_of_next hexec)
  change (limitAsked.plimit (limitAsked.mbxReq 2)).power.limits = limitAsked.power.limits at hpower
  rw [plimit_limits hw] at hpower
  simp at hpower

end Sys2Proof.Machine

/-! SUPPORT. Operating points, the power cap and the thermal ceiling (R522 to R526), and device time (R511 to R515): the registers after each of
their commands. -/

namespace Sys2Proof.Machine

/-! ### Operating points -/

section
variable (m : Mach) (p : Nat)

theorem granted_bounds : 1000 ≤ m.granted p ∧ m.granted p ≤ 3400 := by
  unfold Mach.granted
  omega

theorem granted_cap (h : 1000 ≤ m.regFld 0 1 0x48 16 12) : m.granted p ≤ m.regFld 0 1 0x48 16 12 := by
  unfold Mach.granted
  omega

variable {m p}

theorem freqChange_shown (hp : p < 36) (hd : m.domState p = 1) :
    fld ((m.freqChange p).reg (podStop p) 0 0x48) 16 16 = m.granted p := by
  unfold Mach.freqChange
  rw [if_neg (by rw [hd]; omega), reg_setReg_self]
  simp (disch := omega) only [fld_setFld_ne, fld_setFld_same]
  exact Nat.mod_eq_of_lt ((granted_bounds m p).2.trans_lt (by decide))

end

/-! ### The power cap -/

section
variable {m : Mach} {mw : Nat}

/-- The steps in a row that the average was below 95 % of the limit. -/
def Mach.stepsBelow (m : Mach) (mw : Nat) : Nat := if mw * 100 < m.powerLimit * 1000 * 95 then m.power.below + 1 else 0

/-- The cap after a tick (R523). -/
def Mach.nextCap (m : Mach) (mw : Nat) : Nat :=
  if m.powerLimit * 1000 * 98 < mw * 100 then max 1000 (m.regFld 0 1 0x48 16 12 - 100)
  else if 10 ≤ m.stepsBelow mw then min 3400 (m.regFld 0 1 0x48 16 12 + 100) else m.regFld 0 1 0x48 16 12

theorem nextCap_lt : m.nextCap mw < 2 ^ 12 := by
  have := fld_lt (m.reg 0 1 0x48) 16 12
  unfold Mach.nextCap Mach.regFld
  split_ifs <;> omega

/-- PM_STATUS after a tick, but for the bit that shows a limit which cannot be met. -/
def Mach.capStatus (m : Mach) (mw : Nat) : W64 :=
  setFld (setBit (setFld (m.reg 0 1 0x48) 0 10 (min (mw / 1000) 1023)) 10 (decide (m.nextCap mw < 3400))) 16 12 (m.nextCap mw)

theorem capTick_status (h : m.phase = .run) : ∃ b, (m.capTick mw).reg 0 1 0x48 = setBit (m.capStatus mw) 11 b := by
  unfold Mach.capTick
  rw [if_neg (by simp [h])]
  refine ⟨_, (reg_setReg_self _ _ _ _ _).trans (congrArg (setBit · 11 _) ?_)⟩
  exact reg_setReg_self _ _ _ _ _

theorem capTick_power (h : m.phase = .run) : fld ((m.capTick mw).reg 0 1 0x48) 0 10 = min (mw / 1000) 1023 := by
  obtain ⟨b, hb⟩ := capTick_status (mw := mw) h
  rw [hb, Mach.capStatus]
  simp (disch := omega) only [fld_setBit_ne, fld_setFld_ne, fld_setFld_same]
  exact Nat.mod_eq_of_lt (by omega)

theorem capTick_cap (h : m.phase = .run) : fld ((m.capTick mw).reg 0 1 0x48) 16 12 = m.nextCap mw := by
  obtain ⟨b, hb⟩ := capTick_status (mw := mw) h
  rw [hb, Mach.capStatus]
  simp (disch := omega) only [fld_setBit_ne, fld_setFld_same]
  exact Nat.mod_eq_of_lt nextCap_lt

end

/-! ### Temperature -/

section
variable (m : Mach)

/-- The last readings alone decide which stop is hottest. -/
theorem hottest_congr {m t : Mach} (h : t.power.temps = m.power.temps) : t.hottest = m.hottest := by
  have ht : t.tempOf = m.tempOf := funext fun st => by rw [Mach.tempOf, Mach.tempOf, h]
  rw [Mach.hottest, Mach.hottest, ht]

/-- The machine with a new reading of stop `st`. -/
def Mach.sampled (m : Mach) (st : Nat) (x : Int) : Mach :=
  { m with power := { m.power with temps := Tab.set 0 m.power.temps st (BitVec.ofInt 12 x).toNat } }

variable {m} {st : Nat} {x : Int}

/-- What a sample leaves: the readings, the limits of the temperatures, the hottest reading and the ceiling's fall. -/
theorem thermSample_leaves (hst : st < 56) : (m.thermSample [(st, x)]).power.temps = (m.sampled st x).power.temps ∧
    (m.thermSample [(st, x)]).reg 0 8 0x40 = m.reg 0 8 0x40 ∧
    fld ((m.thermSample [(st, x)]).reg 0 8 0x48) 0 12 = (m.sampled st x).hottest.2 % 4096 ∧
    ((m.sampled st x).tooHot = true →
      fld ((m.thermSample [(st, x)]).reg 0 8 0x48) 32 12 = max 1000 (m.regFld 0 8 0x48 32 12 - 100)) := by
  have hf : [(st, x)].filter (fun (p : Nat × Int) => decide (p.1 < 56)) = [(st, x)] := by simp [hst]
  have hceil : max 1000 (m.regFld 0 8 0x48 32 12 - 100) < 2 ^ 12 := by
    have := fld_lt (m.reg 0 8 0x48) 32 12
    unfold Mach.regFld
    omega
  unfold Mach.thermSample
  rw [hf, List.foldl_cons, List.foldl_nil]
  change _ ∧ _ ∧ fld _ 0 12 = (m.sampled st x).hottest.2 % 4096 ∧ _
  extract_lets _ m1 h warn throt cold thm rise thm' cool v _ m2 m3
  have hm2 : m2.power.temps = (m.sampled st x).power.temps ∧ m2.reg 0 8 0x40 = m.reg 0 8 0x40 ∧ m2.reg 0 8 0x48 = v :=
    ⟨rfl, reg_setReg_ne _ _ (by decide), reg_setReg_self _ _ _ _ _⟩
  have hm3 : m3.power.temps = (m.sampled st x).power.temps ∧ m3.reg 0 8 0x40 = m.reg 0 8 0x40 ∧ m3.reg 0 8 0x48 = v := by
    change (if warn && ! m.power.warned then m2.raiseEvent 791 else m2).power.temps = _ ∧
      (if warn && ! m.power.warned then m2.raiseEvent 791 else m2).reg 0 8 0x40 = _ ∧
      (if warn && ! m.power.warned then m2.raiseEvent 791 else m2).reg 0 8 0x48 = _
    split
    · rw [raiseEvent_power, raiseEvent_reg _ _ (by decide), raiseEvent_reg _ _ (by decide)]
      exact hm2
    · exact hm2
  have hlow : fld v 0 12 = h.2 % 4096 := by
    simp (disch := omega) only [v, fld_setFld_ne, fld_setBit_ne, fld_setFld_same]
    rfl
  have hthm : fld v 32 12 = thm' % 2 ^ 12 := fld_setFld_same _ _ (by omega)
  have key : ∀ t : Mach, t.power.temps = m3.power.temps → t.reg 0 8 0x40 = m3.reg 0 8 0x40 → t.reg 0 8 0x48 = m3.reg 0 8 0x48 →
      t.power.temps = (m.sampled st x).power.temps ∧ t.reg 0 8 0x40 = m.reg 0 8 0x40 ∧ fld (t.reg 0 8 0x48) 0 12 = h.2 % 4096 ∧
      (m1.tooHot = true → fld (t.reg 0 8 0x48) 32 12 = max 1000 (m.regFld 0 8 0x48 32 12 - 100)) := by
    intro t h1 h2 h3
    rw [h1, h2, h3, hm3.1, hm3.2.1, hm3.2.2]
    refine ⟨rfl, rfl, hlow, fun hot => ?_⟩
    rw [hthm, show thm' = max 1000 (thm - 100) from if_pos hot]
    exact Nat.mod_eq_of_lt hceil
  split
  · exact key _ rfl rfl rfl
  · exact key _ rfl rfl rfl

theorem thermSample_tempOf (hst : st < 56) : (m.thermSample [(st, x)]).tempOf st = (BitVec.ofInt 12 x).toNat := by
  rw [Mach.tempOf, (thermSample_leaves hst).1]
  exact Tab.get_set_self _ _ _ _

theorem thermSample_hottest (hst : st < 56) : (m.thermSample [(st, x)]).hottest = (m.sampled st x).hottest :=
  hottest_congr (thermSample_leaves hst).1

theorem thermSample_tooHot (hst : st < 56) : (m.thermSample [(st, x)]).tooHot = (m.sampled st x).tooHot := by
  have hreg : (m.thermSample [(st, x)]).regFld 0 8 0x40 8 8 = (m.sampled st x).regFld 0 8 0x40 8 8 :=
    congrArg (fld · 8 8) (thermSample_leaves hst).2.1
  rw [Mach.tooHot, Mach.tooHot, hreg, thermSample_hottest hst]

/-- Without its regulators every core is OFF. -/
theorem regulatorsOff_cores (h : bit (m.reg 0 8 0x48) 19 = true) (c : Nat) : ((m.regulatorsOff).core c).st = .off := by
  unfold Mach.regulatorsOff Mach.core
  rw [if_pos h]
  rcases get_mapV Core.reset (fun _ _ => Core.reset) m.cores c with hg | ⟨_, hg⟩
  · exact (congrArg Core.st hg).trans rfl
  · exact (congrArg Core.st hg).trans rfl

end

/-! ### Steps and sets of device time -/

section
variable {m : Mach}

/-- With no LPUT waiting, none is tested again. -/
theorem retryPuts_idle (h : ∀ p ∈ m.cores, p.2.put = none) (e : Nat) (round : Bool) : m.retryPuts e round = m := by
  unfold Mach.retryPuts
  suffices ∀ l : List (Nat × Core), (∀ p ∈ l, p.2.put = none) → ∀ t : Mach, l.foldl (fun acc p =>
      if p.2.waitsPut e then
        match p.2.put with
        | some w => acc.tryPut p.1 (if round then { w with tries := w.tries - 1 } else w)
        | none => acc
      else acc) t = t from this m.cores h m
  intro l hl
  induction l with
  | nil => exact fun _ => rfl
  | cons p l ih =>
    intro t
    have hp := hl p List.mem_cons_self
    simp only [List.foldl_cons, Core.waitsPut, hp, Bool.false_eq_true, if_false]
    exact ih (fun q hq => hl q (List.mem_cons_of_mem _ hq)) t

/-- The machine whose queue functions begin a round on engine `e`, before its LPUTs are tested again. -/
def Mach.roundBegun (m : Mach) (e : Nat) : Mach :=
  Mach.setEngine { m with vqfs := Tab.mapV Vqf.reset (fun k x => if k / 1024 = e then
      x.quotas (m.vqfActive e (k % 1024))
        (((m.vqfsOf e).filter (fun p => m.vqfActive e (p.1 % 1024))).foldl (fun (s : Nat) (p : Nat × Vqf) => s + p.2.weight) 0)
        (fld (m.leReg e 0x40) 0 8 * 2000) else x) m.vqfs } e
    { m.engine e with jb := fld (m.leReg e 0x40) 0 8 * 2000 }

theorem roundStart_eq (e : Nat) : m.roundStart e = (m.roundBegun e).retryPuts e true := rfl

theorem roundStart_idle (h : ∀ p ∈ m.cores, p.2.put = none) (e : Nat) : m.roundStart e = m.roundBegun e := by
  rw [roundStart_eq]
  exact retryPuts_idle (m := m.roundBegun e) h e true

theorem roundsStart_dt (h : ∀ p ∈ m.cores, p.2.put = none) : m.roundsStart.dt = m.dt := by
  rw [Mach.roundsStart, roundStart_idle h, roundStart_idle (m := m.roundBegun 0) h]
  rfl

theorem dtChange_dt (h : ∀ p ∈ m.cores, p.2.put = none) (t : Nat) : (m.dtChange t).dt = t % 2 ^ 64 :=
  roundsStart_dt (m := { m.keepIntervals m.dt (t % 2 ^ 64) with dt := t % 2 ^ 64, fumSkip := [0, 1, 2, 3] }) h

theorem gptpServed_dt (m : Mach) : m.gptpServed.dt = m.dt := by
  unfold Mach.gptpServed
  split <;> rfl

/-! ### The rate -/

theorem dtRateWrite_taken {v : W64} (hs : m.dtSrc = 0) (hlo : -2147484 ≤ (BitVec.ofNat 32 (fld v 0 32)).toInt)
    (hhi : (BitVec.ofNat 32 (fld v 0 32)).toInt ≤ 2147484) :
    m.dtRateWrite v = m.setReg 0 4 0x58 (setFld 0 0 32 (fld v 0 32)) := by
  have hsrc : (m.setReg 0 4 0x58 (setFld 0 0 32 (fld v 0 32))).dtSrc = 0 :=
    (congrArg (fld · 0 2) (reg_setReg_ne _ _ (by decide))).trans hs
  unfold Mach.dtRateWrite
  rw [if_neg (by rw [hs]; omega), Mach.gptpServed, if_neg (by rw [hsrc]; omega)]

theorem dtRateWrite_refused {v : W64} (h : m.dtSrc = 2 ∨ (BitVec.ofNat 32 (fld v 0 32)).toInt < -2147484 ∨
    2147484 < (BitVec.ofNat 32 (fld v 0 32)).toInt) : m.dtRateWrite v = m.setRegBit 0 4 0x48 3 true := if_pos h

/-! ### Edges of PPS_IN -/

theorem servoRate_bounds (r e : Int) : -2147484 ≤ servoRate r e ∧ servoRate r e ≤ 2147484 := by
  simp only [servoRate]
  omega

/-- The rate that the servo writes is read back. -/
theorem dtRate_written {t : Mach} {r : Int} (ht : t.reg 0 4 0x58 = setFld 0 0 32 (BitVec.ofInt 32 r).toNat) (hlo : -2147484 ≤ r)
    (hhi : r ≤ 2147484) : t.dtRate = r := by
  have hf : t.regFld 0 4 0x58 0 32 = (BitVec.ofInt 32 r).toNat := by
    rw [Mach.regFld, ht, fld_setFld_same _ _ (by omega)]
    exact Nat.mod_eq_of_lt (BitVec.isLt _)
  rw [Mach.dtRate, hf, BitVec.ofNat_toNat, BitVec.setWidth_eq, BitVec.toInt_ofInt]
  exact Int.bmod_eq_of_le (by omega) (by omega)

variable {t : Nat}

theorem ppsEdge_idle (h : m.dtSrc ≠ 2) : m.ppsEdge t = { m with dt := max m.dt t } := if_pos h

theorem ppsEdge_stray {l : Nat} (h : m.dtSrc = 2) (hl : m.ppsLast = some l) (hfar : t < l + 999000000 ∨ l + 1001000000 < t) :
    m.ppsEdge t = Mach.countReg { m with dt := max m.dt t } 0 4 0x48 16 16 1 := by
  have hbad : (! (decide (l + 999000000 ≤ t) && decide (t ≤ l + 1001000000))) = true := by
    rcases hfar with hf | hf
    · simp [Nat.not_le.mpr hf]
    · simp [Nat.not_le.mpr hf]
  unfold Mach.ppsEdge
  rw [if_neg (not_not.mpr h), hl]
  exact if_pos hbad

/-- The time that an edge captures, and its error. -/
def Mach.ppsCaptured (m : Mach) (t : Nat) : Nat := (t * 16 - fld (m.reg 0 4 0x78) 0 16) / 16

/-- The qualified edges in a row within 50 ns once an edge had error `e`. -/
def Mach.ppsRow (m : Mach) (e : Int) : Nat := if e.natAbs ≤ 50 then m.ppsGood + 1 else 0

/-- DT_STATUS after a qualified edge with error `e`. -/
def Mach.ppsStatus (m : Mach) (e : Int) : W64 :=
  setFld (setBit (setBit (m.reg 0 4 0x48) 1 false) 0 (decide (4 ≤ m.ppsRow e))) 32 32 (BitVec.ofInt 32 e).toNat

/-- The machine after a qualified edge, before its rate is corrected. -/
def Mach.ppsTaken (m : Mach) (t : Nat) (e : Int) : Mach :=
  (Mach.setReg { m with dt := max m.dt t, ppsLast := some t, ppsGood := m.ppsRow e } 0 4 0x70 (BitVec.ofNat 64 (m.ppsCaptured t))).setReg
    0 4 0x48 (m.ppsStatus e)

theorem ppsEdge_first (h : m.dtSrc = 2) (hl : m.ppsLast = none) (he : (secErr (m.ppsCaptured t)).natAbs ≤ 1000000) :
    m.ppsEdge t = (m.ppsTaken t (secErr (m.ppsCaptured t))).setReg 0 4 0x58
      (setFld 0 0 32 (BitVec.ofInt 32 (servoRate m.dtRate (secErr (m.ppsCaptured t)))).toNat) := by
  unfold Mach.ppsEdge
  rw [if_neg (not_not.mpr h), hl]
  exact if_neg (Nat.not_lt.mpr he)

theorem ppsStatus_fields (m : Mach) (e : Int) : bit (m.ppsStatus e) 1 = false ∧ fld (m.ppsStatus e) 32 32 = (BitVec.ofInt 32 e).toNat := by
  unfold Mach.ppsStatus
  simp (disch := omega) only [bit_setFld_outside, bit_setBit_ne, bit_setBit_self, fld_setFld_same, true_and]
  exact Nat.mod_eq_of_lt (BitVec.isLt _)

theorem ppsTaken_status (m : Mach) (t : Nat) (e : Int) (v : W64) :
    ((m.ppsTaken t e).setReg 0 4 0x58 v).reg 0 4 0x48 = m.ppsStatus e := by
  rw [reg_setReg_ne _ _ (by decide)]
  exact reg_setReg_self _ _ _ _ _

/-! ### Whole seconds, holdover and the output pulse -/

theorem wholeSecond_dt : m.wholeSecond.dt = (m.dt / 1000000000 + 1) * 1000000000 := by
  have hev : ∀ t : Mach, (t.raiseEvent 789).dt = t.dt := fun t => raiseEvent_same (·.dt) (fun _ _ => rfl) (fun _ _ => rfl) t 789
  unfold Mach.wholeSecond
  simp only []
  split
  · exact hev _
  · exact hev _

theorem wholeSecond_pulse (h : bit (m.reg 0 4 0x40) 2 = true) : m.wholeSecond.ppsOut = some ((m.dt / 1000000000 + 1) * 1000000000) := by
  unfold Mach.wholeSecond
  simp only [if_pos h]

theorem holdover_unmoved (h : m.dtSrc = 0 ∨ bit (m.reg 0 4 0x48) 1 = true) : m.holdover = m := if_pos h

theorem holdover_begins (hs : m.dtSrc ≠ 0) (hb : bit (m.reg 0 4 0x48) 1 = false) :
    bit (m.holdover.reg 0 4 0x48) 1 = true ∧ bit (m.holdover.reg 0 4 0x48) 0 = false := by
  have hreg : m.holdover.reg 0 4 0x48 = setBit (setBit (m.reg 0 4 0x48) 1 true) 0 false := by
    unfold Mach.holdover
    rw [if_neg (by rw [hb]; simpa using hs)]
    refine (reg_setReg_self _ _ _ _ _).trans (congrArg (setBit · 0 false) ?_)
    exact reg_setReg_self _ _ _ _ _
  rw [hreg, bit_setBit_self _ _ (by omega), bit_setBit_ne _ _ (by omega) (by omega), bit_setBit_self _ _ (by omega)]
  exact ⟨rfl, rfl⟩

end

/-! ### The commands -/

section
variable {s : State} {mst : Master}

theorem exec_freqChangeComplete (p : Nat) : exec (.freqChangeComplete p) s = .next (s.withM (s.m.freqChange p)) := rfl
theorem exec_powerCapTick (mw : Nat) : exec (.powerCapTick mw) s = .next (s.withM (s.m.capTick mw)) := rfl
theorem exec_thermalSample (ts : List (Nat × Int)) : exec (.thermalSample ts) s = .next (s.withM (s.m.thermSample ts)) := rfl
theorem exec_integratedRegulatorsOff : exec .integratedRegulatorsOff s = .next (s.withM s.m.regulatorsOff) := rfl
theorem exec_ppsInEdge (t : Nat) : exec (.ppsInEdge t) s = .next (s.withM (s.m.ppsEdge t)) := rfl
theorem exec_dtPps : exec .dtPps s = .next (s.withM s.m.wholeSecond) := rfl
theorem exec_dtHoldover : exec .dtHoldover s = .next (s.withM s.m.holdover) := rfl
theorem exec_ppsOutPulseEnd : exec .ppsOutPulseEnd s = .next (s.withM s.m.pulseEnd) := rfl

theorem exec_pmPlimitWrite {w : Nat} (hw : w < 1024) (h : s.m.Opens mst 0 1 0x40) :
    exec (.pmPlimitWrite mst w) s = .next (s.withM (s.m.plimit w)) := by
  change s.upd (fun m => m.window mst 0 1 0x40 (fun m => m.plimit (w % 1024))) = _
  rw [upd_eq, window_open h, Nat.mod_eq_of_lt hw]

theorem exec_dtStep (v : W64) (h : s.m.Opens mst 0 4 0x60) : exec (.dtStep mst v) s = .next (s.withM (s.m.dtStep v)) := by
  change s.upd (fun m => m.window mst 0 4 0x60 (fun m => m.dtStep v)) = _
  rw [upd_eq, window_open h]

theorem exec_dtSet (v : W64) (h : s.m.Opens mst 0 4 0x68) : exec (.dtSet mst v) s = .next (s.withM (s.m.dtSet v)) := by
  change s.upd (fun m => m.window mst 0 4 0x68 (fun m => m.dtSet v)) = _
  rw [upd_eq, window_open h]

theorem exec_dtRateWrite (v : W64) (h : s.m.Opens mst 0 4 0x58) :
    exec (.dtRateWrite mst v) s = .next (s.withM (s.m.dtRateWrite v)) := by
  change s.upd (fun m => m.window mst 0 4 0x58 (fun m => m.dtRateWrite v)) = _
  rw [upd_eq, window_open h]

end

/-- Settles O52: each command by its branch, the fields of its register read back from what it wrote. -/
theorem powerLimitsAndTime : Obligations.PowerLimitsAndTime := by
  refine ⟨⟨fun s p hp hd => ⟨_, exec_freqChangeComplete _, freqChange_shown hp hd⟩,
      fun m p => ⟨(granted_bounds m p).1, (granted_bounds m p).2, granted_cap m p⟩, fun s mw hr => ⟨_, exec_powerCapTick mw, capTick_power hr, ?_⟩,
      fun s mst w hw hop => ⟨fun hok => ?_, fun hok => ?_⟩, fun s st x hst => ⟨_, exec_thermalSample _, thermSample_tempOf hst, ?_, fun hot => ?_⟩,
      fun s => rfl, fun s => ⟨fun h => ?_, fun h => ⟨_, exec_integratedRegulatorsOff, ?_, ?_, regulatorsOff_cores h⟩⟩⟩,
    ⟨fun s mst v hput => ⟨fun hop => ⟨_, exec_dtStep v hop, ?_⟩, fun hop => ⟨_, exec_dtSet v hop, ?_⟩⟩,
      fun s mst v hop => ⟨fun hs hlo hhi => ?_, fun h => ?_⟩,
      fun s t0 => ⟨fun h => ?_, fun h hl => ?_, fun h hl he => ⟨_, exec_ppsInEdge t0, ?_⟩⟩,
      fun s => ⟨_, exec_dtPps, wholeSecond_dt, fun h => ?_⟩,
      fun s => ⟨fun h => ?_, fun hs hb => ⟨_, exec_dtHoldover, holdover_begins hs hb⟩⟩, fun s => ⟨fun h => ?_, fun t0 h => ?_⟩⟩⟩
  · rw [capTick_cap hr]
    unfold Mach.nextCap Mach.stepsBelow
    refine ⟨fun h => if_pos h, fun h1 h2 => ?_, fun h1 h2 => ?_⟩
    · rw [if_neg (Nat.not_lt.mpr h2), if_neg (Nat.not_lt.mpr h1), if_neg (by omega)]
    · rw [if_neg (by omega), if_pos h1, if_pos (by omega)]
  · rw [exec_pmPlimitWrite hw hop, Mach.plimit, if_pos hok]
  · rw [exec_pmPlimitWrite hw hop, Mach.plimit, if_neg (by rw [hok]; exact Bool.false_ne_true)]
  · rw [thermSample_hottest hst]
    exact (thermSample_leaves hst).2.2.1
  · rw [thermSample_tooHot hst] at hot
    exact (thermSample_leaves hst).2.2.2 hot
  · rw [exec_integratedRegulatorsOff, Mach.regulatorsOff, if_neg (by rw [h]; exact Bool.false_ne_true), withM_self]
  · rw [Mach.regulatorsOff, if_pos h]
  · rw [Mach.regulatorsOff, if_pos h]
  · rw [Mach.dtStep, gptpServed_dt, dtChange_dt hput]
  · rw [Mach.dtSet, gptpServed_dt, dtChange_dt hput]
    exact Nat.mod_eq_of_lt (BitVec.isLt v)
  · rw [exec_dtRateWrite v hop, dtRateWrite_taken hs hlo hhi]
  · rw [exec_dtRateWrite v hop, dtRateWrite_refused h]
  · rw [exec_ppsInEdge, ppsEdge_idle h]
  · obtain ⟨l, hl, hfar⟩ := hl
    rw [exec_ppsInEdge, ppsEdge_stray h hl hfar]
  · obtain ⟨hbit, herr⟩ := ppsStatus_fields s.m (secErr (s.m.ppsCaptured t0))
    obtain ⟨hlo, hhi⟩ := servoRate_bounds s.m.dtRate (secErr (s.m.ppsCaptured t0))
    rw [ppsEdge_first h hl he, ppsTaken_status]
    refine ⟨rfl, rfl, hbit, herr, ?_⟩
    rw [dtRate_written (reg_setReg_self _ _ _ _ _) hlo hhi]
    exact ⟨hlo, hhi⟩
  · rw [wholeSecond_pulse h, wholeSecond_dt]
  · rw [exec_dtHoldover, holdover_unmoved h, withM_self]
  · rw [exec_ppsOutPulseEnd, Mach.pulseEnd, h, withM_self]
  · rw [exec_ppsOutPulseEnd, Mach.pulseEnd, h]

end Sys2Proof.Machine

/-! SUPPORT. Links and registers of ports (R348 to R350, R352, R370, R377 to R379): what a change of the link, a pause, a write of the
configuration and a resumed DMA channel leave in the port's registers and record. -/

namespace Sys2Proof.Machine

/-! ### A change of the link -/

theorem portStop_pos (q : Nat) : 2 ≤ portStop q := by
  unfold portStop pxStop
  split_ifs <;> omega

/-- A port's registers are not the event router's. -/
theorem portKey_ne_router (q : Nat) {off : Nat} : cellKey (portStop q) (portWin q) off ≠ cellKey 0 0 0x620 := by
  have := portStop_pos q
  unfold cellKey
  omega

/-- Two registers of a port. -/
theorem portKey_ne {q off off' : Nat} (h : off / 8 ≠ off' / 8) :
    cellKey (portStop q) (portWin q) off ≠ cellKey (portStop q) (portWin q) off' := by
  unfold cellKey
  omega

section
variable (m : Mach) (q : Nat)

/-- The count and the report of a change, before its event. -/
theorem linkChanged_cases : m.linkChanged q = ((m.countPort q 0x48 16 16).raiseSrc (portStop q) 1 none (portStop q) (q % 32) none) ∨
    ∃ n, m.linkChanged q = ((m.countPort q 0x48 16 16).raiseSrc (portStop q) 1 none (portStop q) (q % 32) none).raiseAssigned n := by
  unfold Mach.linkChanged
  simp only []
  split
  · exact .inr ⟨_, rfl⟩
  · exact .inl rfl

@[simp] theorem linkChanged_port (k : Nat) : (m.linkChanged q).port k = m.port k := by
  rcases linkChanged_cases m q with h | ⟨n, h⟩ <;> rw [h]
  · rfl
  · exact raiseAssigned_same (·.port k) (fun _ _ => rfl) (fun _ _ => rfl) _ n

theorem linkChanged_status : (m.linkChanged q).portReg q 0x48 =
    setFld (m.portReg q 0x48) 16 16 (min (fld (m.portReg q 0x48) 16 16 + 1) 0xFFFF) := by
  rcases linkChanged_cases m q with h | ⟨n, h⟩ <;> rw [h]
  · exact reg_setReg_self _ _ _ _ _
  · exact (raiseAssigned_reg _ n (portKey_ne_router q)).trans (reg_setReg_self _ _ _ _ _)

theorem linkChanged_portReg {off : Nat} (ho : off / 8 ≠ 9) : (m.linkChanged q).portReg q off = m.portReg q off := by
  have hc : (m.countPort q 0x48 16 16).portReg q off = m.portReg q off := reg_setReg_ne _ _ (portKey_ne ho)
  rcases linkChanged_cases m q with h | ⟨n, h⟩ <;> rw [h]
  · exact hc
  · exact (raiseAssigned_reg _ n (portKey_ne_router q)).trans hc

/-- A change of the link leaves the low bits of the port's status. -/
theorem linkChanged_bit {i : Nat} (hi : i < 16) : bit ((m.linkChanged q).portReg q 0x48) i = bit (m.portReg q 0x48) i := by
  rw [linkChanged_status, bit_setFld_outside _ _ (by omega) (by omega)]

end

/-! ### Lock, link up and link down -/

section
variable {m : Mach} {q : Nat}

/-- The low four bits of a status that is locked, and not up or faulted. -/
theorem locked_bits {v : W64} (h : fld v 0 4 = 2) : bit v 0 = false ∧ bit v 1 = true ∧ bit v 2 = false ∧ bit v 3 = false := by
  have hb : ∀ k, k < 4 → bit v k = (2 : Nat).testBit k := fun k hk => by
    rw [← h, testBit_fld, Nat.zero_add]
    simp [hk, bit]
  exact ⟨hb 0 (by omega), hb 1 (by omega), hb 2 (by omega), hb 3 (by omega)⟩

theorem blockLock_locks (hq : q < 128) (ha : m.answers (portStop q) (portWin q) = true)
    (he : (m.blk (portStop q) (portWin q)).enable = true) :
    m.blockLock q = m.setReg (portStop q) (portWin q) 0x48 (setFld (m.portReg q 0x48) 1 3 1) := by
  unfold Mach.blockLock
  rw [if_neg (by rw [ha, he]; simp; omega)]

theorem portUp_up (hq : q < 128) (ha : m.answers (portStop q) (portWin q) = true)
    (he : (m.blk (portStop q) (portWin q)).enable = true) (hl : fld (m.portReg q 0x48) 0 4 = 2) : m.portUp q =
      ((m.setRegBit (portStop q) (portWin q) 0x48 0 true).setPort q { m.port q with downEnded := false }).linkChanged q := by
  obtain ⟨h0, h1, h2, h3⟩ := locked_bits hl
  unfold Mach.portUp
  rw [if_neg (by rw [ha, he, h0, h1, h2, h3]; simp; omega)]

/-- What a link that comes up leaves. -/
theorem portUp_leaves (hq : q < 128) (ha : m.answers (portStop q) (portWin q) = true)
    (he : (m.blk (portStop q) (portWin q)).enable = true) (hl : fld (m.portReg q 0x48) 0 4 = 2) : (m.portUp q).linkUp q = true ∧
      ((m.portUp q).port q).downEnded = false ∧
      fld ((m.portUp q).portReg q 0x48) 16 16 = min (fld (m.portReg q 0x48) 16 16 + 1) 0xFFFF := by
  have hreg : ((m.setRegBit (portStop q) (portWin q) 0x48 0 true).setPort q { m.port q with downEnded := false }).portReg q 0x48 =
      setBit (m.portReg q 0x48) 0 true := reg_setReg_self _ _ _ _ _
  rw [portUp_up hq ha he hl]
  refine ⟨?_, ?_, ?_⟩
  · rw [Mach.linkUp, linkChanged_bit _ _ (by omega), hreg, bit_setBit_self _ _ (by omega)]
  · rw [linkChanged_port, port_setPort_self]
  · rw [linkChanged_status, hreg]
    simp (disch := omega) only [fld_setFld_same, fld_setBit_ne]
    exact Nat.mod_eq_of_lt (by omega)

/-- The machine after a fault or the loss of lock is noted. -/
def Mach.downNoted (m : Mach) (q why : Nat) : Mach :=
  if why = 0 then m.setRegBit (portStop q) (portWin q) 0x48 1 false
  else m.setRegBit (portStop q) (portWin q) 0x48 (if why = 1 then 2 else 3) true

/-- A frame that was being sent is cut. -/
def Mach.cutCounted (m : Mach) (q : Nat) (cut : Bool) : Mach := if cut then m.countPort q 0x80 32 16 else m

theorem cutCounted_port (cut : Bool) (k : Nat) : (m.cutCounted q cut).port k = m.port k := by
  unfold Mach.cutCounted
  split <;> rfl

theorem cutCounted_portReg (cut : Bool) {off : Nat} (h : off / 8 ≠ 16) : (m.cutCounted q cut).portReg q off = m.portReg q off := by
  unfold Mach.cutCounted
  split
  · exact reg_setReg_ne _ _ (portKey_ne h)
  · rfl

theorem downNoted_port (why k : Nat) : (m.downNoted q why).port k = m.port k := by
  unfold Mach.downNoted
  split <;> rfl

theorem downNoted_status (why : Nat) : (why = 0 → bit ((m.downNoted q why).portReg q 0x48) 1 = false) ∧
    (why = 1 → bit ((m.downNoted q why).portReg q 0x48) 2 = true) := by
  unfold Mach.downNoted
  refine ⟨fun h => ?_, fun h => ?_⟩
  · rw [if_pos h]
    exact bit_setRegBit_self _ _ (by omega)
  · rw [if_neg (by omega), if_pos h]
    exact bit_setRegBit_self _ _ (by omega)

theorem portDown_down (hq : q < 128) (ha : m.answers (portStop q) (portWin q) = true) (hl : m.linkUp q = true) (why : Nat) :
    m.portDown q why = ((((m.downNoted q why).cutCounted q ((m.downNoted q why).port q).cut.isSome).setRegBit (portStop q) (portWin q)
      0x48 0 false).setPort q { (m.downNoted q why).port q with downEnded := false, cut := none }).linkChanged q := by
  unfold Mach.portDown
  rw [if_neg (by rw [ha]; simp; omega)]
  simp only [hl, Bool.not_true, Bool.false_eq_true, if_false]
  rfl

/-- What a link that goes down leaves. -/
theorem portDown_leaves (hq : q < 128) (ha : m.answers (portStop q) (portWin q) = true) (hl : m.linkUp q = true) (why : Nat) :
    (m.portDown q why).linkUp q = false ∧ ((m.portDown q why).port q).cut = none ∧
    ((m.portDown q why).port q).eqs = (m.port q).eqs ∧ (why = 0 → bit ((m.portDown q why).portReg q 0x48) 1 = false) ∧
    (why = 1 → bit ((m.portDown q why).portReg q 0x48) 2 = true) := by
  obtain ⟨h0, h1⟩ := downNoted_status (m := m) (q := q) why
  have hcut := cutCounted_portReg (m := m.downNoted q why) (q := q) ((m.downNoted q why).port q).cut.isSome (off := 0x48) (by omega)
  rw [portDown_down hq ha hl]
  generalize hc : (m.downNoted q why).cutCounted q ((m.downNoted q why).port q).cut.isSome = c at hcut ⊢
  have hreg : ((c.setRegBit (portStop q) (portWin q) 0x48 0 false).setPort q
      { (m.downNoted q why).port q with downEnded := false, cut := none }).portReg q 0x48 =
      setBit ((m.downNoted q why).portReg q 0x48) 0 false :=
    (reg_setReg_self _ _ _ _ _).trans (congrArg (setBit · 0 false) hcut)
  have hbit : ∀ i, 0 < i → i < 16 → bit (setBit ((m.downNoted q why).portReg q 0x48) 0 false) i =
      bit ((m.downNoted q why).portReg q 0x48) i := fun i hi hi' => bit_setBit_ne _ _ (by omega) (by omega)
  rw [linkChanged_port, port_setPort_self]
  refine ⟨?_, rfl, ?_, fun h => ?_, fun h => ?_⟩
  · rw [Mach.linkUp, linkChanged_bit _ _ (by omega), hreg, bit_setBit_self _ _ (by omega)]
  · simp only [downNoted_port]
  · rw [linkChanged_bit _ _ (by omega), hreg, hbit 1 (by omega) (by omega), h0 h]
  · rw [linkChanged_bit _ _ (by omega), hreg, hbit 2 (by omega) (by omega), h1 h]

/-! ### The end of a hold time -/

/-- Discarding the frames of a link that is down leaves the ports. -/
theorem dropDown_port (f : EgFrame) (k : Nat) : (m.dropDown q f).port k = m.port k := by
  unfold Mach.dropDown Mach.outDone Mach.modRec
  rfl

theorem downHoldEnd_port (h : m.linkUp q = false) : (m.downHoldEnd q).port q = { m.port q with eqs := [], downEnded := true } := by
  unfold Mach.downHoldEnd
  rw [if_neg (by rw [h]; exact Bool.false_ne_true)]
  refine foldl_keeps (P := fun t : Mach => t.port q = { m.port q with eqs := [], downEnded := true }) _ _ ?_ fun t ht f => ?_
  · exact port_setPort_self _ _ _
  · exact (dropDown_port f q).trans ht

end

/-! ### Pauses -/

/-- The mask of paused priorities with priority `i` put to a time. -/
def pausePut (mask i t : Nat) : Nat := if t = 0 then mask &&& (511 - 2 ^ i) else mask ||| 2 ^ i

/-- The bits of `511 - 2 ^ p`. -/
theorem testBit_unpaused {p : Nat} (hp : p < 9) {i : Nat} (hi : i < 9) : (511 - 2 ^ p).testBit i = decide (i ≠ p) := by
  have : ∀ p : Fin 9, ∀ i : Fin 9, (511 - 2 ^ p.val).testBit i.val = decide (i.val ≠ p.val) := by decide
  exact this ⟨p, hp⟩ ⟨i, hi⟩

theorem testBit_pausePut (mask t : Nat) {p i : Nat} (hp : p < 9) (hi : i < 9) :
    (pausePut mask p t).testBit i = if i = p then decide (t ≠ 0) else mask.testBit i := by
  unfold pausePut
  by_cases ht : t = 0
  · rw [if_pos ht, Nat.testBit_and, testBit_unpaused hp hi]
    by_cases hip : i = p <;> simp [hip, ht]
  · rw [if_neg ht, Nat.testBit_or, Nat.testBit_two_pow]
    by_cases hip : i = p
    · simp [hip, ht]
    · simp [hip, Ne.symm hip]

/-- The mask after one priority of a PFC frame. -/
def pfcStep (cfg : W64) (enable : Nat) (times : List Nat) (mask i : Nat) : Nat :=
  if enable.testBit i ∧ bit cfg (40 + i) then pausePut mask i ((times[i]?).getD 0) else mask

theorem testBit_pfc (cfg : W64) (enable : Nat) (times : List Nat) (mask : Nat) {n i : Nat} (hn : n ≤ 8) (hi : i < 8) :
    ((List.range n).foldl (pfcStep cfg enable times) mask).testBit i =
      if i < n ∧ enable.testBit i ∧ bit cfg (40 + i) then decide ((times[i]?).getD 0 ≠ 0) else mask.testBit i := by
  induction n with
  | zero => simp
  | succ n ih =>
    rw [List.range_succ, List.foldl_append, List.foldl_cons, List.foldl_nil]
    generalize hr : (List.range n).foldl (pfcStep cfg enable times) mask = r at ih
    have ih := ih (by omega)
    unfold pfcStep
    by_cases hc : enable.testBit n ∧ bit cfg (40 + n)
    · rw [if_pos hc, testBit_pausePut _ _ (by omega) (by omega), ih]
      by_cases hin : i = n
      · subst hin
        simp [hc]
      · simp [hin, show i < n + 1 ↔ i < n by omega]
    · rw [if_neg hc, ih]
      by_cases hin : i = n
      · subst hin
        simp only [Nat.lt_irrefl, hc, and_false, if_false]
      · simp only [show i < n + 1 ↔ i < n by omega]

section
variable (m : Mach) (q enable : Nat) (times : List Nat)

theorem pauseFrame_pfc : m.pauseFrame q true enable times = m.setPort q { m.port q with
    paused := (List.range 8).foldl (pfcStep (m.portReg q 0x40) enable times) (m.port q).paused } := rfl

theorem pauseFrame_global (h : bit (m.portReg q 0x40) 7 = true) : m.pauseFrame q false enable times =
    m.setPort q { m.port q with paused := pausePut (m.port q).paused 8 ((times[0]?).getD 0) } := by
  unfold Mach.pauseFrame
  simp only [Bool.false_eq_true, if_false, if_pos h]
  rfl

theorem pauseFrame_ignored (h : bit (m.portReg q 0x40) 7 = false) : m.pauseFrame q false enable times = m := by
  unfold Mach.pauseFrame
  simp only [Bool.false_eq_true, if_false, h]

end

/-! ### The configuration -/

section
variable {m : Mach} {q : Nat} {v : W64}

/-- A write of PX_PORT_CFG names no mode that R349 refuses. -/
def portModeOk (v : W64) : Prop := (bit v 0 = true ∨ fld v 1 2 ≠ 2) ∧ fld v 1 2 ≠ 3

theorem portCfg_refused (h : (bit v 0 = false ∧ fld v 1 2 = 2) ∨ fld v 1 2 = 3) :
    m.portCfg q v = m.setRegBit (portStop q) (portWin q) 0x48 8 true := if_pos h

theorem portModeOk_not (h : portModeOk v) : ¬ ((bit v 0 = false ∧ fld v 1 2 = 2) ∨ fld v 1 2 = 3) := by
  rintro (⟨h0, h2⟩ | h3)
  · rcases h.1 with h' | h'
    · rw [h0] at h'
      cases h'
    · exact h' h2
  · exact h.2 h3

theorem portCfg_size (h : portModeOk v) (hf : fld v 8 14 < 64 ∨ 9600 < fld v 8 14) : m.portCfg q v = m := by
  unfold Mach.portCfg
  simp only [if_neg (portModeOk_not h), if_pos hf]

/-- The configuration that a port takes from a write: PREEMPT stays where the rate does not allow it (R370). -/
def portCfgTaken (old v : W64) : W64 :=
  let w := setFld (setFld 0 0 22 (fld v 0 22)) 32 16 (fld v 32 16)
  if bit v 3 && ! bit v 0 then setBit w 3 (bit old 3) else w

/-- A field within a field that a register takes whole. -/
theorem fld_setFld_inside {w : W64} {n a k : Nat} (h : a + k ≤ n) (hn : n ≤ 64) : fld (setFld w 0 n (fld v 0 n)) a k = fld v a k := by
  apply Nat.eq_of_testBit_eq
  intro i
  rw [testBit_fld, testBit_fld]
  by_cases hi : i < k
  · rw [getLsbD_setFld _ _ _ _ _ (by omega), if_pos (by omega), testBit_fld]
    simp [hi, show a + i < n by omega]
  · simp [hi]

theorem portCfgTaken_fields (old v : W64) : fld (portCfgTaken old v) 0 3 = fld v 0 3 ∧ fld (portCfgTaken old v) 8 14 = fld v 8 14 ∧
    fld (portCfgTaken old v) 32 16 = fld v 32 16 := by
  have hw : ∀ w : W64, w = setFld (setFld 0 0 22 (fld v 0 22)) 32 16 (fld v 32 16) → fld w 0 3 = fld v 0 3 ∧ fld w 8 14 = fld v 8 14 ∧
      fld w 32 16 = fld v 32 16 := by
    rintro w rfl
    refine ⟨?_, ?_, ?_⟩
    · rw [fld_setFld_ne _ _ (by omega) (by omega), fld_setFld_inside (by omega) (by omega)]
    · rw [fld_setFld_ne _ _ (by omega) (by omega), fld_setFld_inside (by omega) (by omega)]
    · rw [fld_setFld_same _ _ (by omega)]
      exact Nat.mod_eq_of_lt (fld_lt v 32 16)
  unfold portCfgTaken
  simp only []
  split
  · simp (disch := omega) only [fld_setBit_ne]
    exact hw _ rfl
  · exact hw _ rfl

/-- Lock acquisition that begins leaves the configuration. -/
theorem relock_portCfg (m : Mach) (q : Nat) : (m.relock q).portReg q 0x40 = m.portReg q 0x40 := by
  have hcut := cutCounted_portReg (m := m) (q := q) (m.port q).cut.isSome (off := 0x40) (by omega)
  have hset : ∀ w x, (((m.cutCounted q (m.port q).cut.isSome).setReg (portStop q) (portWin q) 0x48 w).setPort q x).portReg q 0x40 =
      m.portReg q 0x40 := fun w x => (reg_setReg_ne _ _ (portKey_ne (by omega))).trans hcut
  unfold Mach.relock
  simp only []
  split
  · rw [linkChanged_portReg _ _ (by omega)]
    exact hset _ _
  · exact hset _ _

theorem ite_portReg {p : Prop} [Decidable p] {s t : Mach} {off : Nat} {w : W64} (hs : s.portReg q off = w) (ht : t.portReg q off = w) :
    (if p then s else t).portReg q off = w := by
  split
  · exact hs
  · exact ht

/-- A write of the status leaves the configuration. -/
theorem portStatus_portCfg {t : Mach} (w : W64) : (t.setReg (portStop q) (portWin q) 0x48 w).portReg q 0x40 = t.portReg q 0x40 :=
  reg_setReg_ne _ _ (portKey_ne (by omega))

theorem portCfg_taken (h : portModeOk v) (hlo : 64 ≤ fld v 8 14) (hhi : fld v 8 14 ≤ 9600) :
    (m.portCfg q v).portReg q 0x40 = portCfgTaken (m.portReg q 0x40) v := by
  unfold Mach.portCfg
  extract_lets st k old frm badPre w0 w m1 m2 m4 m3
  rw [if_neg (portModeOk_not h), if_neg (show ¬ (frm < 64 ∨ 9600 < frm) by omega)]
  change _ = w
  have h1 : m1.portReg q 0x40 = w := reg_setReg_self _ _ _ _ _
  have h2 : m2.portReg q 0x40 = w := ite_portReg ((portStatus_portCfg _).trans h1) h1
  have h4 : m4.portReg q 0x40 = w := (reg_setReg_ne _ _ (portKey_ne (by omega))).trans h2
  have h3 : m3.portReg q 0x40 = w := ite_portReg (ite_portReg ((relock_portCfg _ _).trans h4) h4) h2
  exact ite_portReg ((portStatus_portCfg _).trans h3) (ite_portReg ((portStatus_portCfg _).trans h3)
    (ite_portReg ((portStatus_portCfg _).trans h3) h3))

/-! ### Resumed channels -/

/-- A bit that is cleared on a condition. -/
def clearIf (w : W64) (i : Nat) (c : Bool) : W64 := if c then setBit w i false else w

theorem bit_clearIf (w : W64) {i j : Nat} (c : Bool) (hi : i < 64) (hj : j < 64) :
    bit (clearIf w j c) i = (bit w i && ! (decide (i = j) && c)) := by
  unfold clearIf
  cases c
  · simp
  · by_cases h : i = j
    · subst h
      simp [bit_setBit_self _ _ hi]
    · simp [h, bit_setBit_ne _ _ hi h]

/-- PX_PORT_DMA after a write: the causes clear, then the halts of channels whose cause reads 0. -/
def dmaCleared (old v : W64) : W64 := clearIf (clearIf old 2 (bit v 2)) 3 (bit v 3)

theorem portDma_reg (m : Mach) (q : Nat) (v : W64) : (m.portDma q v).portReg q 0x78 =
    let w := dmaCleared (m.portReg q 0x78) v
    let w0 := clearIf w 0 (bit v 4 && ! bit w 2)
    clearIf w0 1 (bit v 5 && ! bit w0 3) := by
  refine (reg_setReg_self _ _ _ _ _).trans ?_
  simp only [clearIf, dmaCleared, Bool.and_eq_true]

/-- A written ICAUSE clears; a resumed ingress channel runs where its cause then reads 0. -/
theorem portDma_ingress (m : Mach) (q : Nat) (v : W64) :
    bit ((m.portDma q v).portReg q 0x78) 2 = (bit (m.portReg q 0x78) 2 && ! bit v 2) ∧
    bit ((m.portDma q v).portReg q 0x78) 0 =
      (bit (m.portReg q 0x78) 0 && ! (bit v 4 && ! (bit (m.portReg q 0x78) 2 && ! bit v 2))) := by
  rw [portDma_reg]
  simp (disch := omega) [dmaCleared, bit_clearIf]

/-- A written ECAUSE clears; a resumed egress channel runs where its cause then reads 0. -/
theorem portDma_egress (m : Mach) (q : Nat) (v : W64) :
    bit ((m.portDma q v).portReg q 0x78) 3 = (bit (m.portReg q 0x78) 3 && ! bit v 3) ∧
    bit ((m.portDma q v).portReg q 0x78) 1 =
      (bit (m.portReg q 0x78) 1 && ! (bit v 5 && ! (bit (m.portReg q 0x78) 3 && ! bit v 3))) := by
  rw [portDma_reg]
  simp (disch := omega) [dmaCleared, bit_clearIf]

end

/-! ### The commands -/

section
variable {s : State} {mst : Master} {q : Nat}

theorem exec_pcsBlockLock : exec (.pcsBlockLock q) s = .next (s.withM (s.m.blockLock q)) := rfl
theorem exec_linkUp : exec (.linkUp q) s = .next (s.withM (s.m.portUp q)) := rfl
theorem exec_linkDown (why : Nat) : exec (.linkDown q why) s = .next (s.withM (s.m.portDown q why)) := rfl
theorem exec_preemptVerify (ok : Bool) : exec (.preemptVerify q ok) s = .next (s.withM (s.m.preemptVerify q ok)) := rfl
theorem exec_downholdExpiry : exec (.downholdExpiry q) s = .next (s.withM (s.m.downHoldEnd q)) := rfl
theorem exec_pauseTimeExpiry (p : Nat) : exec (.pauseTimeExpiry q p) s =
    .next (s.withM (s.m.setPort q { s.m.port q with paused := (s.m.port q).paused &&& (511 - 2 ^ (p % 9)) })) := rfl

theorem exec_pauseReceive (hq : q < 128) (hl : s.m.linkUp q = true) (pfc : Bool) (enable : Nat) (times : List Nat) :
    exec (.pauseReceive q pfc enable times) s = .next (s.withM (s.m.pauseFrame q pfc enable times)) := by
  change s.upd (fun m => if 128 ≤ q ∨ ! m.linkUp q then m else m.pauseFrame q pfc enable times) = _
  rw [upd_eq, if_neg (by rw [hl]; simp; omega)]

theorem exec_pxPortCfgWrite (hq : q < 128) (v : W64) (h : s.m.Opens mst (portStop q) (portWin q) 0x40) :
    exec (.pxPortCfgWrite mst q v) s = .next (s.withM (s.m.portCfg q v)) := by
  change s.upd (fun m => if 128 ≤ q then m else m.window mst (portStop q) (portWin q) 0x40 (fun m => m.portCfg q v)) = _
  rw [upd_eq, if_neg (by omega), window_open h]

theorem exec_iresume (hq : q < 128) (v : W64) (h : s.m.Opens mst (portStop q) (portWin q) 0x78) :
    exec (.iresume mst q v) s = .next (s.withM (s.m.portDma q (setBit v 4 true))) := by
  change s.upd (fun m => if 128 ≤ q then m
    else m.window mst (portStop q) (portWin q) 0x78 (fun m => m.portDma q (setBit v 4 true))) = _
  rw [upd_eq, if_neg (by omega), window_open h]

theorem exec_eresume (hq : q < 128) (v : W64) (h : s.m.Opens mst (portStop q) (portWin q) 0x78) :
    exec (.eresume mst q v) s = .next (s.withM (s.m.portDma q (setBit v 5 true))) := by
  change s.upd (fun m => if 128 ≤ q then m
    else m.window mst (portStop q) (portWin q) 0x78 (fun m => m.portDma q (setBit v 5 true))) = _
  rw [upd_eq, if_neg (by omega), window_open h]

end

/-- Settles O40: each command by its branch; a change of the link counts in the upper half of the status and leaves the lower one. -/
theorem portLinkCommands : Obligations.PortLinkCommands := by
  refine ⟨fun s q hq ha => ⟨fun he => ?_, fun he hl => ⟨_, exec_linkUp, portUp_leaves hq ha he hl⟩,
      fun why hl => ⟨_, exec_linkDown why, portDown_leaves hq ha hl why⟩⟩, fun s q ok => ⟨fun h => ?_, fun h => ?_⟩,
    fun s q hl => ⟨_, exec_downholdExpiry, ?_, ?_⟩, fun s q p hp => ⟨_, exec_pauseTimeExpiry p, fun i hi => ?_⟩,
    fun s q enable times hq hl => ⟨⟨_, exec_pauseReceive hq hl _ _ _, fun i hi => ?_⟩, fun h => ⟨_, exec_pauseReceive hq hl _ _ _, ?_⟩,
      fun h => ?_⟩,
    fun s mst q v hq hop => ⟨fun h => ?_, fun h1 h2 hf => ?_, fun h1 h2 hlo hhi => ⟨_, exec_pxPortCfgWrite hq v hop, ?_⟩⟩,
    fun s mst q v hq hop => ⟨⟨_, exec_iresume hq v hop, ?_⟩, _, exec_eresume hq v hop, ?_⟩⟩
  · rw [exec_pcsBlockLock, blockLock_locks hq ha he]
  · rw [exec_preemptVerify, Mach.preemptVerify, if_pos h]
  · rw [exec_preemptVerify, Mach.preemptVerify, if_neg h, withM_self]
  · rw [downHoldEnd_port hl]
  · rw [downHoldEnd_port hl]
  · rw [port_setPort_self, Nat.mod_eq_of_lt hp, Nat.testBit_and, testBit_unpaused hp hi]
  · rw [pauseFrame_pfc, port_setPort_self, testBit_pfc _ _ _ _ le_rfl hi]
    simp only [hi, true_and]
  · rw [pauseFrame_global _ _ _ _ h, port_setPort_self, testBit_pausePut _ _ (by omega) (by omega), if_pos rfl]
  · rw [exec_pauseReceive hq hl, pauseFrame_ignored _ _ _ _ h, withM_self]
  · rw [exec_pxPortCfgWrite hq v hop, portCfg_refused h]
  · rw [exec_pxPortCfgWrite hq v hop, portCfg_size ⟨h1, h2⟩ hf, withM_self]
  · rw [portCfg_taken ⟨h1, h2⟩ hlo hhi]
    exact portCfgTaken_fields _ v
  · obtain ⟨hc, hh⟩ := portDma_ingress s.m q (setBit v 4 true)
    rw [hc, hh, bit_setBit_ne _ _ (by omega) (by omega), bit_setBit_self _ _ (by omega)]
    simp [Bool.and_assoc]
  · obtain ⟨hc, hh⟩ := portDma_egress s.m q (setBit v 5 true)
    rw [hc, hh, bit_setBit_ne _ _ (by omega) (by omega), bit_setBit_self _ _ (by omega)]
    simp [Bool.and_assoc]

end Sys2Proof.Machine

/-! SUPPORT. Pairs and tables of a port complex (R355, R357, R363, R364, R368, R372, R382, R383): what a written pair, a table command
and a timed change of a gate list leave. -/

namespace Sys2Proof.Machine

/-! ### Entries and data registers -/

/-- An entry of zeros is not listed, and reads the same. -/
theorem getD_listed (ws : List W64) (i : Nat) :
    ((if ws.all (fun w => decide (w = 0)) then ([] : List W64) else ws)[i]?).getD 0 = (ws[i]?).getD 0 := by
  split
  case isFalse => rfl
  case isTrue h =>
    cases hi : ws[i]? with
    | none => rfl
    | some w => exact (of_decide_eq_true (List.all_eq_true.mp h w (List.mem_of_getElem? hi))).symm

theorem sf_setSf_self (m : Mach) (px t idx : Nat) (ws : List W64) (i : Nat) :
    (m.setSf px t idx ws).sf px t idx i = (ws[i]?).getD 0 := by
  unfold Mach.sf Mach.setSf
  rw [Tab.get_set_self]
  exact getD_listed ws i

theorem eg_setEg_self (m : Mach) (q t idx : Nat) (ws : List W64) (i : Nat) :
    (m.setEg q t idx ws).eg q t idx i = (ws[i]?).getD 0 := by
  unfold Mach.eg Mach.setEg
  rw [Tab.get_set_self]
  exact getD_listed ws i

/-- Two registers of one window. -/
theorem winKey_ne (st k : Nat) {off off' : Nat} (h : off / 8 ≠ off' / 8) : cellKey st k off ≠ cellKey st k off' := by
  unfold cellKey
  omega

/-- The four data registers of a table command that reads. -/
def Mach.putData (m : Mach) (st k : Nat) (f : Nat → W64) : Mach :=
  (List.range 4).foldl (fun acc i => acc.setReg st k (0x80 + 8 * i) (f i)) m

theorem putData_data (m : Mach) (st k : Nat) (f : Nat → W64) {i : Nat} (hi : i < 4) :
    (m.putData st k f).reg st k (0x80 + 8 * i) = f i := by
  unfold Mach.putData
  rw [get_foldl_range (get := fun (t : Mach) j => t.reg st k (0x80 + 8 * j)) (g := fun j _ => f j) _ m 4 i, if_pos hi]
  intro t a b
  by_cases h : b = a
  · subst h
    rw [if_pos rfl, reg_setReg_self]
  · rw [if_neg h, reg_setReg_ne _ _ (winKey_ne _ _ (by omega))]

theorem putData_reg (m : Mach) (st k : Nat) (f : Nat → W64) {off : Nat} (h : off / 8 < 0x10) :
    (m.putData st k f).reg st k off = m.reg st k off :=
  foldl_keeps (P := fun t : Mach => t.reg st k off = m.reg st k off) _ _ rfl
    fun t ht i => (reg_setReg_ne t _ (winKey_ne _ _ (by omega))).trans ht

/-! ### Pairs of ports -/

section
variable {m : Mach} {px n : Nat} {v : W64}

theorem pairWrite_same (h : fld v 0 5 = fld v 8 5) : m.pairWrite px n v = m := by
  unfold Mach.pairWrite
  exact if_pos (.inr (.inl h))

/-- Another pair that is enabled names neither port. -/
def Mach.PairFree (m : Mach) (px n : Nat) (v : W64) : Prop :=
  ∀ i, i < 16 → i ≠ n → bit (m.reg (pxStop px) 0 (0x80 + 8 * i)) 63 = true → ∀ p, p = fld v 0 5 ∨ p = fld v 8 5 →
    fld (m.reg (pxStop px) 0 (0x80 + 8 * i)) 0 5 ≠ p ∧ fld (m.reg (pxStop px) 0 (0x80 + 8 * i)) 8 5 ≠ p

theorem pairWrite_free (hn : n < 16) (hd : fld v 0 5 ≠ fld v 8 5) (hf : m.PairFree px n v) : m.pairWrite px n v =
    m.setReg (pxStop px) 0 (0x80 + 8 * n) (setFld (setFld (setFld 0 0 5 (fld v 0 5)) 8 5 (fld v 8 5)) 63 1 (fld v 63 1)) := by
  unfold Mach.pairWrite
  extract_lets a b names taken
  have ht : taken = false := by
    refine List.any_eq_false.mpr fun i hi => ?_
    rw [List.mem_range] at hi
    intro h
    simp only [names, Bool.and_eq_true, Bool.or_eq_true, decide_eq_true_eq] at h
    obtain ⟨⟨hin, hbit⟩, hp⟩ := h
    obtain ⟨h1, h2⟩ := hf i hi hin hbit a (.inl rfl)
    obtain ⟨h3, h4⟩ := hf i hi hin hbit b (.inr rfl)
    rcases hp with (h | h) | (h | h)
    exacts [h1 h, h2 h, h3 h, h4 h]
  rw [if_neg]
  rw [ht]
  rintro (h | h | h)
  · omega
  · exact hd h
  · cases h

/-- A pair's ports and its enable bit read as they are written. -/
theorem pair_fields (v : W64) : ∀ w, w = setFld (setFld (setFld 0 0 5 (fld v 0 5)) 8 5 (fld v 8 5)) 63 1 (fld v 63 1) →
    fld w 0 5 = fld v 0 5 ∧ fld w 8 5 = fld v 8 5 ∧ bit w 63 = bit v 63 := by
  rintro w rfl
  refine ⟨?_, ?_, ?_⟩
  · simp (disch := omega) only [fld_setFld_ne, fld_setFld_same]
    exact Nat.mod_eq_of_lt (fld_lt v 0 5)
  · simp (disch := omega) only [fld_setFld_ne, fld_setFld_same]
    exact Nat.mod_eq_of_lt (fld_lt v 8 5)
  · rw [bit, getLsbD_setFld _ _ _ _ _ (by omega), if_pos (by omega), testBit_fld]
    rfl

end

/-! ### The filter tables -/

section
variable {m : Mach} {px : Nat}

/-- The table, the entry and the written words that the selection names. -/
def Mach.sfTab (m : Mach) (px : Nat) : Nat := fld (m.reg (pxStop px) 0x21 0x40) 0 3
def Mach.sfIdx (m : Mach) (px : Nat) : Nat := fld (m.reg (pxStop px) 0x21 0x40) 16 12
def Mach.sfData (m : Mach) (px i : Nat) : W64 := m.reg (pxStop px) 0x21 (0x80 + 8 * i) &&& sfMask (m.sfTab px) i
/-- The error of a table command. -/
def Mach.sfErr (m : Mach) (px : Nat) : Mach := m.setReg (pxStop px) 0x21 0x48 (setBit 0 62 true)

theorem sfCommand_absent (hpx : px < 4) (hk : m.sfTab px ≠ 7) (wr : Bool) (h : sfSize (m.sfTab px) ≤ m.sfIdx px) :
    m.sfCommand px wr = m.sfErr px := by
  unfold Mach.sfTab at *
  unfold Mach.sfIdx at h
  unfold Mach.sfCommand
  simp only []
  rw [if_neg (by omega), if_pos h]
  rfl

theorem sfCommand_read (hpx : px < 4) (hk : m.sfTab px ≠ 7) (h : m.sfIdx px < sfSize (m.sfTab px)) : m.sfCommand px false =
    (m.setReg (pxStop px) 0x21 0x48 0).putData (pxStop px) 0x21 (m.sf px (m.sfTab px) (m.sfIdx px)) := by
  unfold Mach.sfTab at hk
  unfold Mach.sfTab Mach.sfIdx at h
  unfold Mach.sfCommand
  simp only []
  rw [if_neg (by omega), if_neg (by omega), if_pos (by decide)]
  rfl

theorem sfCommand_refused (hpx : px < 4) (hk : m.sfTab px ≠ 7) (h : m.sfIdx px < sfSize (m.sfTab px))
    (hr : m.sfRefused px (m.sfTab px) (m.sfIdx px) (m.sfData px) = true) : m.sfCommand px true = m.sfErr px := by
  unfold Mach.sfTab at hk
  unfold Mach.sfTab Mach.sfIdx at h
  unfold Mach.sfCommand
  simp only []
  rw [if_neg (by omega), if_neg (by omega), if_neg (by decide)]
  exact if_pos hr

/-- A write that is not refused leaves the words in the entry; the meter or the history of the entry begins anew. -/
theorem sfCommand_write (hpx : px < 4) (hk : m.sfTab px ≠ 7) (h : m.sfIdx px < sfSize (m.sfTab px))
    (hr : m.sfRefused px (m.sfTab px) (m.sfIdx px) (m.sfData px) = false) : ∃ ms hs, m.sfCommand px true =
      { (m.setSf px (m.sfTab px) (m.sfIdx px) ((List.range 4).map (m.sfData px))).setReg (pxStop px) 0x21 0x48 0 with
        meters := ms, hists := hs } := by
  unfold Mach.sfTab at hk
  unfold Mach.sfTab Mach.sfIdx at h
  unfold Mach.sfCommand
  simp only []
  rw [if_neg (by omega), if_neg (by omega), if_neg (by decide), if_neg (by
    intro hc
    exact Bool.false_ne_true (hr.symm.trans hc))]
  split
  · exact ⟨_, _, rfl⟩
  · split
    · exact ⟨_, _, rfl⟩
    · exact ⟨_, _, rfl⟩

theorem sf_words {f : Nat → W64} {i : Nat} (hi : i < 4) : (((List.range 4).map f)[i]?).getD 0 = f i := by
  simp [hi]

end

/-! ### The egress tables -/

section
variable {m : Mach} {px : Nat}

/-- The table and the port that the selection names. -/
def Mach.egTabSel (m : Mach) (px : Nat) : Nat := fld (m.reg (pxStop px) 0x22 0x40) 0 2
def Mach.egPort (m : Mach) (px : Nat) : Nat := px * 32 + fld (m.reg (pxStop px) 0x22 0x40) 8 5
def Mach.egIdx (m : Mach) (px : Nat) : Nat := fld (m.reg (pxStop px) 0x22 0x40) 16 10
def Mach.egData (m : Mach) (px i : Nat) : W64 := m.reg (pxStop px) 0x22 (0x80 + 8 * i)
/-- The error of a table command. -/
def Mach.egErr (m : Mach) (px : Nat) : Mach := m.setReg (pxStop px) 0x22 0x48 (setBit 0 62 true)

/-- A read of a gate-list entry. -/
theorem egCommand_read (h : m.egTabSel px = 1) : m.egCommand px false =
    (m.putData (pxStop px) 0x22 (m.eg (m.egPort px) 1 (m.egIdx px))).setReg (pxStop px) 0x22 0x48 0 := by
  unfold Mach.egTabSel at h
  unfold Mach.egCommand
  simp only [h]
  rw [if_neg (by omega), if_pos (by decide), if_neg (by omega)]
  rfl

/-- A write of a gate-list entry, while no change waits. -/
theorem egCommand_gate (h : m.egTabSel px = 1) (hp : (m.port (m.egPort px)).pendingChange = false) (hw : fld (m.egData px 0) 8 2 ≠ 3) :
    m.egCommand px true = (m.setEg (m.egPort px) 1 (m.egIdx px) [m.egData px 0 &&& 0xFFFFFFFF000003FF]).setReg (pxStop px) 0x22 0x48 0 := by
  unfold Mach.egTabSel at h
  unfold Mach.egPort at hp
  unfold Mach.egData at hw
  unfold Mach.egCommand
  simp only [h, hp]
  rw [if_neg (by omega), if_neg (by decide), if_neg (by omega), if_pos trivial, if_neg (by
    rintro (hc | hc)
    · exact Bool.false_ne_true hc
    · exact hw hc)]
  rfl

/-- The operating list and entries that do not exist are not written. -/
theorem egCommand_refused (h : m.egTabSel px = 2 ∨ (m.egTabSel px = 3 ∧ 8 ≤ m.egIdx px)) : m.egCommand px true = m.egErr px := by
  unfold Mach.egTabSel Mach.egIdx at h
  unfold Mach.egCommand
  simp only []
  rcases h with h | ⟨h, hi⟩
  · simp only [h]
    rw [if_neg (by omega), if_neg (by decide), if_neg (by omega), if_neg (by omega), if_pos trivial]
    rfl
  · rw [if_pos ⟨h, by rw [if_neg (by omega)]; exact hi⟩]
    rfl

theorem egCommand_sched (h : m.egTabSel px = 0) :
    m.egCommand px true = ((m.pschedWrite (m.egPort px) (m.egData px)).map (fun m => m.setReg (pxStop px) 0x22 0x48 0)).getD (m.egErr px) := by
  unfold Mach.egTabSel at h
  unfold Mach.egCommand
  simp only [h]
  rw [if_neg (by omega), if_neg (by decide), if_pos trivial]
  rfl

/-- The number of entries and the cycle survive the masks of the written words. -/
theorem psched_count (w : W64) : fld (w &&& 0x07FFFF01) 16 11 = fld w 16 11 := by
  apply Nat.eq_of_testBit_eq
  intro i
  rw [testBit_fld, testBit_fld, BitVec.getLsbD_and]
  by_cases hi : i < 11
  · have hm : ∀ i : Fin 11, (0x07FFFF01 : W64).getLsbD (16 + i.val) = true := by decide
    have := hm ⟨i, hi⟩
    simp only at this
    rw [this, Bool.and_true]
  · simp [hi]

theorem psched_cycle (w : W64) : fld (setFld 0 0 32 (fld w 0 32)) 0 32 = fld w 0 32 := by
  rw [fld_setFld_same _ _ (by omega)]
  exact Nat.mod_eq_of_lt (fld_lt w 0 32)

/-- A written CHANGE with entries of at least 32 ns and a time that can be met waits for it (R368). -/
theorem pschedWrite_change {q : Nat} {w : Nat → W64} {at_ : Nat} (hb : bit (w 0) 31 = true) (hlo : 1 ≤ fld (w 0) 16 11)
    (hhi : fld (w 0) 16 11 ≤ 1024) (hiv : ∀ i, i < fld (w 0) 16 11 → 32 ≤ fld (m.eg q 1 i 0) 32 32)
    (ht : changeTime m.dt (w 2).toNat (fld (w 1) 0 32) = some at_) : ∃ eg cyc, m.pschedWrite q w =
      some (({ m with egTab := eg }).setPort q { m.port q with
        pendingChange := true, changeAt := at_, adm := (List.range (fld (w 0) 16 11)).map (fun i => m.eg q 1 i 0), admCycle := cyc }) := by
  unfold Mach.pschedWrite
  simp only [psched_count, psched_cycle, hb, ht]
  rw [if_neg (by decide), if_neg]
  · exact ⟨_, _, rfl⟩
  · rintro (h | h | h)
    · omega
    · omega
    · obtain ⟨x, hx, hlt⟩ := List.any_eq_true.mp h
      obtain ⟨i, hi, rfl⟩ := List.mem_map.mp hx
      have := hiv i (List.mem_range.mp hi)
      have := of_decide_eq_true hlt
      omega

end

/-! ### Times -/

section
variable {m : Mach} {q : Nat}

/-- Whatever reads the same from every machine but for the credits of ports is left by the count of credits. -/
theorem creditTick_keeps {α : Type} (g : Mach → α) (hg : ∀ (t : Mach) c, g (t.setPort q { t.port q with credits := c }) = g t) :
    g (m.creditTick q) = g m := by
  unfold Mach.creditTick
  refine foldl_keeps (P := fun t : Mach => g t = g m) _ _ rfl fun t ht e => ?_
  split
  · exact (hg _ _).trans ht
  · exact ht

theorem creditTick_dt : (m.creditTick q).dt = m.dt := creditTick_keeps (·.dt) fun _ _ => rfl

theorem creditTick_oper : ((m.creditTick q).port q).oper = (m.port q).oper :=
  creditTick_keeps (fun t => (t.port q).oper) fun t c => by simp only [port_setPort_self]

theorem gclChange_taken (h : (m.port q).pendingChange = true) : m.gclChange q =
    (({ m with dt := max m.dt (m.port q).changeAt }).creditTick q).setPort q
      { (({ m with dt := max m.dt (m.port q).changeAt }).creditTick q).port q with
        oper := (m.port q).adm, operBase := (m.port q).changeAt, operCycle := (m.port q).admCycle, pendingChange := false,
        everOper := true } := by
  unfold Mach.gclChange
  exact if_neg (by rw [h]; decide)

/-- The interval that holds a time within the cycle ends after it. -/
theorem lt_schedAt (iv : Nat → Nat) (n : Nat) {cycle t : Nat} (h : t < cycle) (k start : Nat) :
    t < (schedAt iv n cycle t k start).2 := by
  induction k generalizing start with
  | zero =>
    change t < max cycle start
    omega
  | succ k ih =>
    simp only [schedAt]
    split
    · exact h
    · split
      · assumption
      · exact ih _

/-- A step to the end of an interval goes forward. -/
theorem intervalEnd_later (iv : Nat → Nat) (n k base : Nat) {cycle dt : Nat} (h : 0 < cycle) :
    dt < dt - (dt - base) % cycle + (schedAt iv n cycle ((dt - base) % cycle) k 0).2 := by
  have hlt := lt_schedAt iv n (Nat.mod_lt (dt - base) h) k 0
  have hle := Nat.mod_le (dt - base) cycle
  omega

theorem gclInterval_ends (h : (m.port q).everOper = true) (hc : 0 < (m.port q).operCycle) : ∃ dt, m.dt < dt ∧
    m.gclInterval q = { m.creditTick q with dt := dt } := by
  unfold Mach.gclInterval
  simp only []
  rw [if_neg (by rw [h]; decide)]
  exact ⟨_, intervalEnd_later _ _ _ _ hc, rfl⟩

theorem gateInterval_ends {px g : Nat} (h : bit (m.sf px 2 g 0) 63 = true) (hc : 0 < fld (m.sf px 2 g 1) 0 32) : ∃ dt, m.dt < dt ∧
    m.gateInterval px g = { m with dt := dt } := by
  unfold Mach.gateInterval
  simp only [h]
  rw [if_neg (by decide)]
  split
  · exact ⟨_, ‹_›, rfl⟩
  · exact ⟨_, intervalEnd_later _ _ _ _ hc, rfl⟩

theorem rcvTimeout_clears {px i : Nat} (h : fld (m.sf px 5 i 0) 16 16 ≠ 0) :
    m.rcvTimeout px i = { m with hists := Tab.del m.hists (px * 1024 + i) } := if_neg h

/-! ### Transmit timestamps -/

theorem readTxts_nil (h : (m.port q).txts = []) : (m.readTxts q).2 = m.setPort q { m.port q with txOvf := false } := by
  unfold Mach.readTxts
  simp only [h]

theorem readTxts_cons {tag t : Nat} {rest : List (Nat × Nat)} (h : (m.port q).txts = (tag, t) :: rest) : (m.readTxts q).2 =
    (m.setPort q { m.port q with txts := rest, txOvf := false }).setReg (portStop q) (portWin q) 0x70 (BitVec.ofNat 64 t) := by
  unfold Mach.readTxts
  simp only [h]

theorem winBlk_port (hq : q < 128) : (winBlk (portStop q) (portWin q)).isSome = true := by
  have h : ∀ a : Fin 4, ∀ b : Fin 32, (winBlk (pxStop a.val) (b.val + 1)).isSome = true := by decide +revert
  exact h ⟨q / 32, by omega⟩ ⟨q % 32, by omega⟩

end

/-! ### The commands -/

section
variable {s : State} {mst : Master} {px : Nat}

theorem exec_pxPairWrite {n : Nat} (hpx : px < 4) (h : s.m.Opens mst (pxStop px) 0 (0x80 + 8 * n)) (v : W64) :
    exec (.pxPairWrite mst px n v) s = .next (s.withM (s.m.pairWrite px n v)) := by
  change s.upd (fun m => if 4 ≤ px then m else m.window mst (pxStop px) 0 (0x80 + 8 * n) (fun m => m.pairWrite px n v)) = _
  rw [upd_eq, if_neg (by omega), window_open h]

theorem exec_pxSfRead (hpx : px < 4) (h : s.m.Opens mst (pxStop px) 0x21 0x48) :
    exec (.pxSfRead mst px) s = .next (s.withM (s.m.sfCommand px false)) := by
  change s.upd (fun m => if 4 ≤ px then m else m.window mst (pxStop px) 0x21 0x48 (fun m => m.sfCommand px false)) = _
  rw [upd_eq, if_neg (by omega), window_open h]

theorem exec_pxSfWrite (hpx : px < 4) (h : s.m.Opens mst (pxStop px) 0x21 0x48) :
    exec (.pxSfWrite mst px) s = .next (s.withM (s.m.sfCommand px true)) := by
  change s.upd (fun m => if 4 ≤ px then m else m.window mst (pxStop px) 0x21 0x48 (fun m => m.sfCommand px true)) = _
  rw [upd_eq, if_neg (by omega), window_open h]

theorem exec_pxEgRead (hpx : px < 4) (h : s.m.Opens mst (pxStop px) 0x22 0x48) :
    exec (.pxEgRead mst px) s = .next (s.withM (s.m.egCommand px false)) := by
  change s.upd (fun m => if 4 ≤ px then m else m.window mst (pxStop px) 0x22 0x48 (fun m => m.egCommand px false)) = _
  rw [upd_eq, if_neg (by omega), window_open h]

theorem exec_pxEgWrite (hpx : px < 4) (h : s.m.Opens mst (pxStop px) 0x22 0x48) :
    exec (.pxEgWrite mst px) s = .next (s.withM (s.m.egCommand px true)) := by
  change s.upd (fun m => if 4 ≤ px then m else m.window mst (pxStop px) 0x22 0x48 (fun m => m.egCommand px true)) = _
  rw [upd_eq, if_neg (by omega), window_open h]

theorem exec_pxReset (hpx : px < 4) (h : s.m.Opens mst (pxStop px) 0 0x50) : exec (.pxReset mst px) s =
    .next (s.withM (if (s.m.blk (pxStop px) 0).quiesce then s.m.pxReset px else s.m)) := by
  change s.upd (fun m => if 4 ≤ px then m else m.window mst (pxStop px) 0 0x50 (fun m =>
    if (m.blk (pxStop px) 0).quiesce then m.pxReset px else m)) = _
  rw [upd_eq, if_neg (by omega), window_open h]

theorem exec_txtsInfoRead {q : Nat} (hq : q < 128) (h : s.m.answers (portStop q) (portWin q) = true) :
    exec (.txtsInfoRead mst q) s = .next (s.withM (s.m.readTxts q).2) := by
  change s.upd (fun m => if 128 ≤ q then m else m.windowRead mst (portStop q) (portWin q) 0x68 (fun m => (m.readTxts q).2)) = _
  rw [upd_eq, if_neg (by omega), Mach.windowRead, if_neg (by rw [Option.isNone_eq_false_iff.mpr (winBlk_port hq)]; decide), if_pos h]

end

/-- Settles O41: pairs that name two free ports, the table commands by their cases, and the times of a gate list. -/
theorem portTables : Obligations.PortTables := by
  unfold Obligations.PortTables
  refine ⟨?pairs, ?sf, ?eg, ?change, ?interval, ?gate, ?rcv, ?txts, ?reset⟩
  case pairs =>
    intro s mst px n v hpx hn hop
    refine ⟨fun h => ?_, fun hd hf => ?_⟩
    · rw [exec_pxPairWrite hpx hop, pairWrite_same h, withM_self]
    · refine ⟨_, exec_pxPairWrite hpx hop v, ?_⟩
      rw [pairWrite_free hn hd hf, reg_setReg_self]
      exact pair_fields v _ rfl
  case sf =>
    intro s mst px hpx hop sel k idx w err hk
    refine ⟨fun h => ⟨?_, ?_⟩, fun h => ⟨?_, fun hr => ?_, fun hr => ?_⟩⟩
    · rw [exec_pxSfRead hpx hop, sfCommand_absent hpx hk _ h]
      rfl
    · rw [exec_pxSfWrite hpx hop, sfCommand_absent hpx hk _ h]
      rfl
    · refine ⟨_, exec_pxSfRead hpx hop, ?_⟩
      rw [sfCommand_read hpx hk h]
      refine ⟨?_, fun i hi => putData_data _ _ _ _ hi⟩
      rw [putData_reg _ _ _ _ (by omega), reg_setReg_self]
    · rw [exec_pxSfWrite hpx hop, sfCommand_refused hpx hk h hr]
      rfl
    · obtain ⟨ms, hs, hw⟩ := sfCommand_write hpx hk h hr
      refine ⟨_, exec_pxSfWrite hpx hop, ?_⟩
      rw [hw]
      exact ⟨reg_setReg_self _ _ _ _ _, fun i hi => (sf_setSf_self _ _ _ _ _ _).trans (sf_words hi)⟩
  case eg =>
    intro s mst px hpx hop sel q w
    refine ⟨fun h => ?_, fun h hp hw => ?_, fun h => ?_, fun at_ h hb hlo hhi hiv ht => ?_⟩
    · refine ⟨_, exec_pxEgRead hpx hop, fun i hi => ?_⟩
      rw [egCommand_read h, reg_setReg_ne _ _ (winKey_ne _ _ (by omega)), putData_data _ _ _ _ hi]
      rfl
    · refine ⟨_, exec_pxEgWrite hpx hop, ?_⟩
      rw [egCommand_gate h hp hw]
      exact ⟨eg_setEg_self _ _ _ _ _ 0, reg_setReg_self _ _ _ _ _⟩
    · rw [exec_pxEgWrite hpx hop, egCommand_refused h]
      rfl
    · obtain ⟨eg, cyc, hw⟩ := pschedWrite_change (m := s.m) (q := q) (w := s.m.egData px) hb hlo hhi hiv ht
      refine ⟨_, exec_pxEgWrite hpx hop, ?_⟩
      have heq : s.m.egCommand px true = (({ s.m with egTab := eg }).setPort q { s.m.port q with
          pendingChange := true, changeAt := at_, adm := (List.range (fld (w 0) 16 11)).map (fun i => s.m.eg q 1 i 0),
          admCycle := cyc }).setReg (pxStop px) 0x22 0x48 0 := by
        rw [egCommand_sched h]
        exact congrArg (fun o : Option Mach => (o.map (fun m => m.setReg (pxStop px) 0x22 0x48 0)).getD (s.m.egErr px)) hw
      have hport : (s.m.egCommand px true).port q = _ := (congrArg (·.port q) heq).trans (port_setPort_self _ _ _)
      rw [hport]
      exact ⟨rfl, rfl, rfl, rfl⟩
  case change =>
    intro s q h
    refine ⟨s.m.gclChange q, rfl, ?_⟩
    rw [gclChange_taken h, port_setPort_self]
    exact ⟨rfl, rfl, rfl, creditTick_dt⟩
  case interval =>
    intro s q h hc
    obtain ⟨dt, hdt, heq⟩ := gclInterval_ends h hc
    refine ⟨s.m.gclInterval q, rfl, ?_⟩
    rw [heq]
    exact ⟨hdt, creditTick_oper⟩
  case gate =>
    intro s px g h hc
    obtain ⟨dt, hdt, heq⟩ := gateInterval_ends h hc
    refine ⟨s.m.gateInterval px g, rfl, ?_⟩
    rw [heq]
    exact ⟨hdt, rfl⟩
  case rcv =>
    intro s px i h
    change Host.Outcome.next (s.withM (s.m.rcvTimeout px i)) = _
    rw [rcvTimeout_clears h]
  case txts =>
    intro s mst q hq ha
    refine ⟨fun h => ?_, fun tag t0 rest h => ⟨_, exec_txtsInfoRead hq ha, ?_⟩⟩
    · rw [exec_txtsInfoRead hq ha, readTxts_nil h]
    · rw [readTxts_cons h]
      have hport : ∀ (m : Mach) x v, ((m.setPort q x).setReg (portStop q) (portWin q) 0x70 v).port q = x :=
        fun m x v => port_setPort_self m q x
      rw [hport]
      exact ⟨rfl, rfl, reg_setReg_self _ _ _ _ _⟩
  case reset =>
    intro s mst px hpx hop
    refine ⟨fun h => ?_, fun h => ?_⟩
    · rw [exec_pxReset hpx hop, h, if_neg Bool.false_ne_true, withM_self]
    · rw [exec_pxReset hpx hop, h, if_pos rfl]

end Sys2Proof.Machine

/-! SUPPORT. MNTQ and MNTT (R273, R274, R277 to R279): the request that is read, and the slot that it takes. -/

namespace Sys2Proof.Machine

/-- The machine that has read a maintenance request. -/
def Mach.readMnt (m : Mach) (c : Nat) (pc : Piece) : Mach := (m.loadSide c pc).readUpsets (some c) false pc.pa 64

/-- Authority over the request. -/
def Mach.mntAuth (m : Mach) (c : Nat) (cap : Word) (q : MntReq) : Except Exc ((Nat × Nat × Nat) × Mach) :=
  if q.virt then m.mntVirt c cap q else m.mntPhys c cap

section
variable {s : State} {c : Nat} {m1 m2 : Mach} {pc : Piece} (h : s.m.Begins c m1) (d a b : BitVec 6)
  (hx : (m1.g c a.toNat).poison = false) (hy : (m1.g c b.toNat).poison = false)
  (hr : (m1.drainAll c).firstPiece c (m1.g c b.toNat) (m1.g c b.toNat).cursor mntReadReq = .ok (pc, m2))
  (hp : ∀ i, i < 8 → ((m2.readMnt c pc).coreWord c (pc.pa + 8 * i)).poison = false)
include h hx hy hr hp

/-- MNTQ from a request that is read. -/
theorem exec_mntq_read : exec (.mntq c d a b) s = ends s m1 c []
    (let m3 := m2.readMnt c pc
     let q := MntReq.ofWords (fun i => m3.coreWord c (pc.pa + 8 * i))
     if m3.mntBad q then m3.result c d.toNat (.plain (setFld 0 8 8 2))
     else if q.op = 4 then
       match m3.mntSweep c (m1.g c a.toNat) q with
       | .error e => .trap e
       | .ok (none, m4) => m4.result c d.toNat (.plain (setFld 0 8 8 2))
       | .ok (some sw, m4) => m4.mntTake c d.toNat q none 0 sw
     else match m3.mntAuth c (m1.g c a.toNat) q with
       | .error e => .trap e
       | .ok ((pa, gen, need), m4) => m4.mntTake c d.toNat q (some (pa, gen)) need ⟨false, 0, 0, 0⟩) := by
  refine exec_of_upd (i := .mntq c d a b) (f := mntq c d a b) rfl ?_
  have hany : (List.range 8).any (fun i => ((m2.readMnt c pc).coreWord c (pc.pa + 8 * i)).poison) = false :=
    List.any_eq_false.mpr fun i hi => by rw [hp i (List.mem_range.mp hi)]; decide
  rw [mntq, instr_begins h]
  simp only [hx, hy, hr, Bool.or_self, Bool.false_eq_true, if_false]
  unfold Mach.readMnt at hany ⊢
  rw [hany, if_neg Bool.false_ne_true]
  rfl

variable {q : MntReq} (hq : q = .ofWords (fun i => (m2.readMnt c pc).coreWord c (pc.pa + 8 * i)))
include hq

theorem exec_mntq_bad (hb : (m2.readMnt c pc).mntBad q = true) :
    exec (.mntq c d a b) s = ends s m1 c [] (.ok ((m2.readMnt c pc).setG c d.toNat (.plain 0x200))) := by
  rw [exec_mntq_read h d a b hx hy hr hp]
  simp only [← hq, hb, if_true]
  rfl

theorem exec_mntq_take {m4 : Mach} {pa gen need : Nat} (hb : (m2.readMnt c pc).mntBad q = false) (ho : q.op ≠ 4)
    (ha : (m2.readMnt c pc).mntAuth c (m1.g c a.toNat) q = .ok ((pa, gen, need), m4)) : exec (.mntq c d a b) s =
      ends s m1 c [] (m4.mntTake c d.toNat q (some (pa, gen)) need ⟨false, 0, 0, 0⟩) := by
  rw [exec_mntq_read h d a b hx hy hr hp]
  simp only [← hq, hb, ho, ha, if_false, Bool.false_eq_true]

end

/-! ### The slot -/

section
variable {m : Mach} (c d : Nat) (q : MntReq) (cap : Option (Nat × Nat)) (need : Nat) (sw : SweepReq) (hu : m.mntUnavail = false)
include hu

theorem mntTake_full (hf : m.freeSlot = none) : m.mntTake c d q cap need sw = .ok (m.setG c d (.plain 0x100)) := by
  unfold Mach.mntTake
  rw [hu, if_neg Bool.false_ne_true]
  simp only [hf]
  rfl

/-- A free slot is busy with the request under its next ticket, and no other slot changes. -/
theorem mntTake_slot {n : Nat} (hf : m.freeSlot = some n) (ho : q.op ≠ 4) : ∃ t : Mach, m.mntTake c d q cap need sw =
      .ok (t.setG c d (.plain (setFld (setFld 0 0 4 n) 16 16 (((m.slot n).ticket + 1) % 2 ^ 16)))) ∧
    (t.slot n).state = 1 ∧ (t.slot n).ticket = ((m.slot n).ticket + 1) % 2 ^ 16 ∧ (t.slot n).op = q.op ∧
    (t.slot n).ranges = q.ranges.filter someRange ∧ ∀ k, k ≠ n → t.slot k = m.slot k := by
  unfold Mach.mntTake
  rw [hu, if_neg Bool.false_ne_true]
  simp only [hf, if_neg ho]
  refine ⟨_, rfl, ?_⟩
  have hs : ∀ (x : Slot) i k, ({ m.setSlot n x with slotNext := i } : Mach).slot k = if k = n then x else m.slot k :=
    fun x _ k => slot_setSlot m n k x
  simp only [hs, if_true]
  exact ⟨trivial, trivial, trivial, trivial, fun k hk => if_neg hk⟩

end

/-! ### MNTT -/

section
variable {s : State} {c : Nat} {m1 : Mach} (h : s.m.Begins c m1) (d a : BitVec 6)
include h

theorem exec_mntt_begins : exec (.mntt c d a) s = ends s m1 c []
    (.ok (m1.setG c d.toNat (.plain (m1.mntStatus (m1.g c a.toNat).data)))) :=
  exec_of_upd (i := .mntt c d a) (f := mntt c d a false) rfl (by
    rw [mntt, instr_begins h]
    simp only [Bool.false_eq_true, false_and, if_false]
    rfl)

theorem exec_mnttW_begins : exec (.mnttW c d a) s = ends s m1 c []
    (if fld (m1.mntStatus (m1.g c a.toNat).data) 0 16 ≠ 0 then .wait m1
     else .ok (m1.setG c d.toNat (.plain (m1.mntStatus (m1.g c a.toNat).data)))) :=
  exec_of_upd (i := .mnttW c d a) (f := mntt c d a true) rfl (by
    rw [mntt, instr_begins h]
    simp only [true_and]
    rfl)

end

/-- Settles O28: MNTQ by the request that it reads and the slot that it takes, MNTT by the status of the masked slots. -/
theorem maintenanceInstructionResults : Obligations.MaintenanceInstructionResults := by
  unfold Obligations.MaintenanceInstructionResults
  refine ⟨?mntq, ?mntt⟩
  case mntq =>
    intro s c d a b m1 m2 m3 m4 pc q pa gen need n h x y w hx hy hr hm hp hq
    subst hm
    refine ⟨exec_mntq_bad h d a b hx hy hr hp hq, fun hb ho ha hu => ?_⟩
    rw [exec_mntq_take h d a b hx hy hr hp hq hb ho ha]
    refine ⟨fun hf => by rw [mntTake_full _ _ _ _ _ _ hu hf], fun hf => ?_⟩
    obtain ⟨t, ht, hslot⟩ := mntTake_slot c d.toNat q (some (pa, gen)) need ⟨false, 0, 0, 0⟩ hu hf ho
    exact ⟨t, by rw [ht], hslot⟩
  case mntt =>
    intro s c d a m1 h v
    refine ⟨exec_mntt_begins h d a, fun hz => ?_, fun hnz => ?_⟩
    · rw [exec_mnttW_begins h d a, if_neg (by rw [not_not]; exact hz)]
    · rw [exec_mnttW_begins h d a, if_pos hnz]

end Sys2Proof.Machine

/-! SUPPORT. The ledger instructions (R400 to R409): the end of each under the checks that it needs, and what LTAKE leaves of the queue. -/

namespace Sys2Proof.Machine

/-! ### Doorbells and record capabilities -/

section
variable {s : State} {c : Nat} {m1 : Mach} (h : s.m.Begins c m1) (d a : BitVec 6) (hx : (m1.g c a.toNat).poison = false)
include h hx

theorem exec_lstat_bell {q : Nat} {m2 : Mach} (hb : (m1.drainAll c).doorbell c (m1.g c a.toNat) = .ok (q, m2)) :
    exec (.lstat c d a) s = ends s m1 c [] (.ok (m2.setG c d.toNat (.plain (m2.lstatWord q)))) := by
  refine exec_of_upd (i := .lstat c d a) (f := lstat c d a) rfl ?_
  rw [lstat, instr_begins h]
  simp only [hx, hb, Bool.false_eq_true, if_false]
  rfl

theorem exec_ltake_bell {q pa : Nat} {m2 m3 m4 : Mach} (hb : (m1.drainAll c).doorbell c (m1.g c a.toNat) = .ok (q, m2)) {pt : Nat}
    (ht : m2.translate c ⟨true, false, false⟩ true ((m2.core c).entryAddr (m2.queue q).rgTsel (m2.queue q).rgBase) = .ok (pa, pt, m3))
    (hp : m3.pairPa q 0 = some (pa, m4)) :
    exec (.ltake c d a) s = ends s m1 c [] (.ok ((m4.takeAt c q pa).2.setG c d.toNat (m4.takeAt c q pa).1)) := by
  refine exec_of_upd (i := .ltake c d a) (f := ltake c d a) rfl ?_
  rw [ltake, instr_begins h]
  simp only [hx, hb, ht, hp, Bool.false_eq_true, if_false, ne_eq, not_true_eq_false]
  rfl

theorem exec_lret_taken {r : RecCap} {y : LRec} {m2 : Mach} (hr : m1.recordCap c (m1.g c a.toNat) = .ok (r, m2))
    (hm : (m2.queue r.q).mir = false) (ht : (m2.drainAll c).takenRec r (m1.g c a.toNat) = some y) :
    exec (.lret c d a) s = ends s m1 c [] (.ok (((((((m2.drainAll c).modRec r.q y.seq
      (fun z => { z with st := .retired, pair := none, taker := none })).revokePair r.q r.i).countUncore (queueStop r.q)
        (.plain 0x263) 1).sendMarker r.q).queueTick r.q).setG c d.toNat (statusOf 0 y.outs.length y.seq))) := by
  refine exec_of_upd (i := .lret c d a) (f := lret c d a) rfl ?_
  rw [lret, instr_begins h]
  simp only [hx, hr, hm, Bool.false_eq_true, if_false, Mach.retireAt, ht]
  rfl

theorem exec_lhand_cap {r : RecCap} {m2 : Mach} (hr : (m1.drainAll c).recordCap c (m1.g c a.toNat) = .ok (r, m2)) :
    exec (.lhand c d a) s = ends s m1 c [] (match m2.takenRec r (m1.g c a.toNat) with
      | none => .trap (r.stale (m1.g c a.toNat))
      | some y => ((m2.handBack r.q y.seq true).queueTick r.q).result c d.toNat (statusOf 0 0 y.seq)) := by
  refine exec_of_upd (i := .lhand c d a) (f := lhand c d a) rfl ?_
  rw [lhand, instr_begins h]
  simp only [hx, hr, Bool.false_eq_true, if_false] <;> rfl

end

/-! ### Pairs in no use (R404) -/

section
variable {m : Mach} {q : Nat}

theorem mem_idlePairs {x : Queue} {j : Nat} : j ∈ x.idlePairs ↔ j < x.rgPairs ∧ ∀ z ∈ x.recs, z.pair ≠ some j := by
  simp [Queue.idlePairs]

/-- The pair that a free value picks is in no use. -/
theorem freePair_mem {j : Nat} (h : m.freePair q = some j) : j ∈ (m.queue q).idlePairs := by
  unfold Mach.freePair at h
  simp only [] at h
  split at h
  · exact List.mem_of_head? h
  · exact List.mem_of_getElem? h

theorem freePair_isSome (h : (m.queue q).idlePairs ≠ []) : (m.freePair q).isSome = true := by
  unfold Mach.freePair
  simp only []
  have hlen : 0 < (m.queue q).idlePairs.length := List.length_pos_of_ne_nil h
  split
  · rw [List.isSome_head?]
    simpa using h
  · rw [List.getElem?_eq_getElem (Nat.mod_lt _ hlen)]
    rfl

theorem freePair_none (h : (m.queue q).idlePairs = []) : m.freePair q = none := by
  unfold Mach.freePair
  simp only [h]
  rfl

end

/-! ### LTAKE at its engine (R404) -/

section
variable {m : Mach} {q : Nat} (c base : Nat)

/-- A queue may be taken from. -/
def Mach.Takes (m : Mach) (q : Nat) : Prop :=
  (m.queue q).st = 1 ∧ (m.vqf (q / 2048) (m.queue q).vqf).st ≠ 3 ∧ m.primary q = true ∧ (m.queue q).held = false ∧
    (m.engine (q / 2048)).rebuilding = false

/-- The record that core `c` takes with pair `i`. -/
def LRec.takenBy (c i : Nat) (r : LRec) : LRec :=
  { r with st := .taken, pair := some i, taker := some (coreStop c, coreUnit c) }

/-- LTAKE of a queue that may be taken from. -/
theorem takeAt_takes (h : m.Takes q) : m.takeAt c q base =
    match (m.queue q).recs.find? (fun r => decide (r.st = .delivered)) with
    | none => (statusOf 1 0 0, m)
    | some r => match m.freePair q with
      | none => (statusOf 2 0 0, m)
      | some i =>
        (.cap r.seq ((m.queue q).rgBase + 2 * i + 1) (m.queue q).rgTsel (m.drawn.mintPair q (base + 64 * i) r.seq).1,
          (m.drawn.mintPair q (base + 64 * i) r.seq).2.modRec q r.seq (LRec.takenBy c i)) := by
  obtain ⟨hst, hvqf, hprim, hheld, hreb⟩ := h
  unfold Mach.takeAt
  exact if_neg (by simp [hst, hvqf, hprim, hheld, hreb])

variable {r : LRec} {i : Nat} (h : m.Takes q)
include h

theorem takeAt_empty (hd : ∀ z ∈ (m.queue q).recs, z.st ≠ .delivered) : m.takeAt c q base = (statusOf 1 0 0, m) := by
  have hf : (m.queue q).recs.find? (fun r => decide (r.st = .delivered)) = none :=
    List.find?_eq_none.mpr fun z hz => by simpa using hd z hz
  rw [takeAt_takes c base h, hf]

variable (hd : (m.queue q).recs.find? (fun z => decide (z.st = .delivered)) = some r)
include hd

theorem takeAt_noPair (hp : m.freePair q = none) : m.takeAt c q base = (statusOf 2 0 0, m) := by
  rw [takeAt_takes c base h, hd]
  simp only [hp]

theorem takeAt_pair (hp : m.freePair q = some i) : m.takeAt c q base =
    (.cap r.seq ((m.queue q).rgBase + 2 * i + 1) (m.queue q).rgTsel (m.drawn.mintPair q (base + 64 * i) r.seq).1,
      (m.drawn.mintPair q (base + 64 * i) r.seq).2.modRec q r.seq (LRec.takenBy c i)) := by
  rw [takeAt_takes c base h, hd]
  simp only [hp]

end

/-- A record of the queue after a change of the records of one number is a changed one of that number, or one of another. -/
theorem modRec_recs {m : Mach} {q n : Nat} {f : LRec → LRec} (hf : ∀ z, (f z).seq = z.seq) {z : LRec}
    (hz : z ∈ ((m.modRec q n f).queue q).recs) (hn : z.seq = n) : ∃ z', z = f z' := by
  unfold Mach.modRec at hz
  rw [queue_setQueue, if_pos rfl] at hz
  obtain ⟨z', _, rfl⟩ := List.mem_map.mp hz
  by_cases hseq : z'.seq = n
  · exact ⟨z', if_pos hseq⟩
  · exact absurd (by rwa [if_neg hseq] at hn) hseq

/-! ### LOUT (R405) -/

section
variable {m : Mach} {r : RecCap} {x : Word} {o : OutDesc} {z : LRec} (pa : Nat) (ht : m.takenRec r x = some z)
  (hb : m.outBad (m.queue r.q).g3 o = false) (hp : (m.vqf (r.q / 2048) (m.queue r.q).vqf).mayPort o.port = true)
include ht hb hp

/-- The output that LOUT appends. -/
theorem outAt_appends (hl : z.outs.length < 4) : m.outAt r x o pa = .ok (statusOf 0 0 z.seq, m.modRec r.q z.seq (fun z => { z with
    outs := z.outs ++ [⟨pa, o.len, o.port, fld o.w1 24 3, o.repl, bit o.w1 28, o.seqgen, fld o.w1 48 16, 1, none⟩] })) := by
  unfold Mach.outAt
  simp only [ht, hb, hp, Bool.false_eq_true, if_false, Bool.not_true, if_neg (show ¬ 4 ≤ z.outs.length by omega)]

theorem outAt_full (hl : 4 ≤ z.outs.length) : m.outAt r x o pa = .ok (statusOf 5 0 z.seq, m) := by
  unfold Mach.outAt
  simp only [ht, hb, hp, Bool.false_eq_true, if_false, Bool.not_true, if_pos hl]

end

section
variable {s : State} {c : Nat} {m1 : Mach} (h : s.m.Begins c m1) (d a b : BitVec 6)
include h

theorem exec_lout_read {r : RecCap} {o : OutDesc} {pa : Nat} {m2 m3 m4 : Mach} (hx : (m1.g c a.toNat).poison = false)
    (hy : (m1.g c b.toNat).poison = false) (hr : (m1.drainAll c).recordCap c (m1.g c a.toNat) = .ok (r, m2))
    (ho : m2.readOut c (m2.queue r.q).g3 (m1.g c b.toNat) = .ok (o, m3)) (hd : m3.outData c (m1.g c a.toNat) o = .ok (pa, m4)) :
    exec (.lout c d a b) s = ends s m1 c [] (match m4.outAt r (m1.g c a.toNat) o pa with
      | .error e => .trap e
      | .ok (w, m5) => m5.result c d.toNat w) := by
  refine exec_of_upd (i := .lout c d a b) (f := lout c d a b) rfl ?_
  rw [lout, instr_begins h]
  simp only [hx, hy, hr, ho, hd, Bool.or_self, Bool.false_eq_true, if_false] <;> rfl

/-! ### LPUT (R408) -/

/-- An instruction that begins has no LPUT before it. -/
theorem begins_put : (s.m.core c).put = none := by
  have hrun := h.1
  unfold Mach.canRun at hrun
  simp only [Bool.and_eq_true, Option.isNone_iff_eq_none] at hrun
  exact hrun.2

omit h in
/-- The length word of an LPUT has no bit beside LEN and PRI. -/
theorem put_bits {v : W64} (hv : v &&& 0xFFFFFFFFFFF8C000 = 0) : setFld (setFld v 0 14 0) 16 3 0 = 0 := by
  apply BitVec.eq_of_getLsbD_eq
  intro i hi
  rw [getLsbD_setFld _ _ _ _ _ (by omega), getLsbD_setFld _ _ _ _ _ (by omega)]
  have hbit : (v &&& 0xFFFFFFFFFFF8C000).getLsbD i = false := by
    rw [hv]
    simp
  rw [BitVec.getLsbD_and] at hbit
  have hm : ∀ i : Fin 64, (0xFFFFFFFFFFF8C000 : W64).getLsbD i.val = (decide (14 ≤ i.val) && ! (decide (16 ≤ i.val) && decide (i.val < 19))) := by
    decide
  have hmi := hm ⟨i, hi⟩
  simp only at hmi
  rw [hmi] at hbit
  by_cases h1 : 16 ≤ i ∧ i < 16 + 3
  · rw [if_pos h1]
    simp
  · rw [if_neg h1]
    by_cases h2 : 0 ≤ i ∧ i < 0 + 14
    · rw [if_pos h2]
      simp
    · rw [if_neg h2]
      have : (decide (14 ≤ i) && ! (decide (16 ≤ i) && decide (i < 19))) = true := by
        simp
        omega
      rw [this, Bool.and_true] at hbit
      rw [hbit]
      simp

/-- An LPUT whose source is read stands at its engine. -/
theorem exec_lput_read {q : Nat} {ps : List Piece} {w : PutWait} {m2 m3 m4 m5 : Mach} (hz : (m1.g c d.toNat).poison = false)
    (hx : (m1.g c a.toNat).poison = false) (hy : (m1.g c b.toNat).poison = false)
    (hb : (m1.drainAll c).doorbell c (m1.g c a.toNat) = .ok (q, m2))
    (hc : m2.checkRange c (m1.g c b.toNat) (fld (m1.g c d.toNat).data 0 14) [.R] = .ok (ps, m3))
    (hlo : 1 ≤ fld (m1.g c d.toNat).data 0 14) (hhi : fld (m1.g c d.toNat).data 0 14 ≤ 9600)
    (hv : (m1.g c d.toNat).data &&& 0xFFFFFFFFFFF8C000 = 0) (hm : ps.all (fun p => m3.isMem p.pa) = true)
    (h4 : m4 = ps.foldl (fun acc p => acc.readUpsets none false p.pa p.n) m3) (hs : (m4.putSource c ps).2 = false)
    (h5 : m5 = m4.tryPut c ⟨q, none, fld (m4.vqf (q / 2048) (m4.queue q).vqf).cfg 12 4, none, (m4.putSource c ps).1,
      fld (m1.g c d.toNat).data 16 3⟩)
    (hp : (m5.core c).put = some w) : exec (.lput c d a b) s = ends s m1 c [] (putDone c d.toNat w m5) := by
  refine exec_of_upd (i := .lput c d a b) (f := lput c d a b) rfl ?_
  have hmem : ps.any (fun p => ! m3.isMem p.pa) = false :=
    List.any_eq_false.mpr fun p hp => by rw [List.all_eq_true.mp hm p hp]; decide
  have hbad : ¬ (fld (m1.g c d.toNat).data 0 14 = 0 ∨ 9600 < fld (m1.g c d.toNat).data 0 14 ∨
      setFld (setFld (m1.g c d.toNat).data 0 14 0) 16 3 0 ≠ 0 ∨ ps.any (fun p => ! m3.isMem p.pa) = true) := by
    rw [hmem, put_bits hv]
    simp
    omega
  rw [lput, begins_put h]
  simp only []
  rw [instr_begins h, lputBody]
  simp only [hz, hx, hy, hb, hc, Bool.or_self, Bool.false_eq_true, if_false, if_neg hbad]
  rw [← h4]
  simp only [hs, Bool.false_eq_true, if_false]
  rw [← h5]
  simp only [hp]

end

section
variable (c d : Nat) (m : Mach) {w : PutWait}

/-- The LPUT leaves its core. -/
def Mach.clearPut (m : Mach) (c : Nat) : Mach := m.setCore c { m.core c with put := none }

theorem putDone_refused {k : Nat} (h : w.refused = some k) : putDone c d w m = .ok ((m.clearPut c).setG c d (putStatus k)) := by
  unfold putDone
  rw [h]
  rfl

theorem putDone_rec {n : Nat} {r : LRec} (h : w.refused = none) (hs : w.seq = some n) (hr : (m.queue w.queue).rec? n = some r) :
    putDone c d w m = if r.st = .admitted then .wait m else .ok ((m.clearPut c).setG c d (statusOf 0 0 n)) := by
  unfold putDone
  rw [h, hs]
  simp only [hr]
  rfl

end

theorem exec_lput_stands {s : State} {c : Nat} (d a b : BitVec 6) {w : PutWait} (hp : (s.m.core c).put = some w) (hr : s.m.phase = .run)
    (hc : (s.m.core c).st = .running) : exec (.lput c d a b) s = .next (s.withM (s.m.finish c [] (putDone c d.toNat w s.m))) := by
  refine exec_of_upd (i := .lput c d a b) (f := lput c d a b) rfl ?_
  rw [lput, hp]
  exact if_pos ⟨hr, .inl hc⟩

/-- Settles O27: LTAKE by the state of its queue and its pairs, LRET, LHAND and LOUT by the record that the capability names, LPUT by what its
engine answers. -/
theorem ledgerInstructionResults : Obligations.LedgerInstructionResults := by
  unfold Obligations.LedgerInstructionResults
  refine ⟨⟨?instrs, ?take⟩, ?lout, ?lput, ?stands⟩
  case instrs =>
    intro s c d a m1 m2 m3 m4 q pa r y h x hx
    refine ⟨exec_lstat_bell h d a hx, fun hb ⟨pt, ht⟩ hp => exec_ltake_bell h d a hx hb ht hp, exec_lret_taken h d a hx,
      fun hr ht => ?_, fun hr ht => ?_⟩
    · rw [exec_lhand_cap h d a hx hr, ht]
      rfl
    · rw [exec_lhand_cap h d a hx hr, ht]
  case take =>
    intro m c q base r i x hst hvqf hprim hheld hreb
    have h : m.Takes q := ⟨hst, hvqf, hprim, hheld, hreb⟩
    refine ⟨takeAt_empty c base h, fun ⟨j, hj, hz⟩ => ?_, fun hd hall => ?_, fun hd hi => ?_⟩
    · have hne : (m.queue q).idlePairs ≠ [] := List.ne_nil_of_mem (mem_idlePairs.mpr ⟨hj, hz⟩)
      obtain ⟨k, hk⟩ := Option.isSome_iff_exists.mp (freePair_isSome hne)
      obtain ⟨hlt, hfree⟩ := mem_idlePairs.mp (freePair_mem hk)
      exact ⟨k, hlt, hk, hfree⟩
    · refine takeAt_noPair c base h hd (freePair_none (List.eq_nil_iff_forall_not_mem.mpr fun j hj => ?_))
      obtain ⟨hlt, hfree⟩ := mem_idlePairs.mp hj
      obtain ⟨z, hz, hzj⟩ := hall j hlt
      exact hfree z hz hzj
    · rw [takeAt_pair c base h hd hi]
      refine ⟨rfl, fun z hz hn => ?_⟩
      obtain ⟨z', rfl⟩ := modRec_recs (f := LRec.takenBy c i) (fun _ => rfl) hz hn
      exact ⟨rfl, rfl, rfl⟩
  case lout =>
    intro s c d a b m1 m2 m3 m4 r o pa z h x y hx hy hr ho hd ht hb hp
    rw [exec_lout_read h d a b hx hy hr ho hd]
    refine ⟨fun hl => ?_, fun hl => ?_⟩
    · rw [outAt_appends pa ht hb hp hl]
      rfl
    · rw [outAt_full pa ht hb hp hl]
      rfl
  case lput =>
    intro s c d a b m1 m2 m3 m4 m5 q ps w h z x y len clear hz hx hy hb hc hlo hhi hv hm h4 hs h5 hp
    rw [exec_lput_read h d a b hz hx hy hb hc hlo hhi hv hm h4 hs h5 hp]
    refine ⟨fun k hk hne => ?_, fun hk => ?_, fun n r hn hseq hrec hst => ?_⟩
    · rw [putDone_refused _ _ _ hk, putStatus, if_neg hne]
      rfl
    · rw [putDone_refused _ _ _ hk]
      rfl
    · rw [putDone_rec _ _ _ hn hseq hrec, if_pos hst]
  case stands =>
    intro s c d a b w n r hp hn hseq hrun hc hrec hst
    rw [exec_lput_stands d a b hp hrun hc, putDone_rec _ _ _ hn hseq hrec, if_neg hst]
    rfl

end Sys2Proof.Machine

/-! SUPPORT. Queue descriptors (R385, R413, R414, R420, R460): what LE_Q_READ returns, what LE_Q_WRITE leaves, and the end of a rebuilding. -/

namespace Sys2Proof.Machine

/-! ### Reading -/

section
variable {m : Mach} {e : Nat}

/-- The queue that the engine's selection names. -/
def Mach.selQueue (m : Mach) (e : Nat) : Nat := e * 2048 + m.regFld (leStop e) 0 0x100 0 11
/-- The written descriptor words. -/
def Mach.queueData (m : Mach) (e i : Nat) : W64 := m.reg (leStop e) 0 (0x140 + 8 * i)

/-- Words written to registers from the data registers on are there; those before them stay. -/
theorem putWords_regs (st : Nat) (ws : List W64) (k : Nat) (m : Mach) (j : Nat) :
    ((ws.zipIdx k).foldl (fun acc p => acc.setReg st 0 (0x140 + 8 * p.2) p.1) m).reg st 0 (0x140 + 8 * j) =
      if h : k ≤ j ∧ j < k + ws.length then ws[j - k]'(by omega) else m.reg st 0 (0x140 + 8 * j) := by
  induction ws generalizing k m with
  | nil => simp
  | cons w ws ih =>
    rw [List.zipIdx_cons, List.foldl_cons, ih]
    by_cases hj : j = k
    · subst hj
      rw [dif_neg (by omega), dif_pos (by simp), reg_setReg_self]
      simp
    · by_cases hin : k + 1 ≤ j ∧ j < k + 1 + ws.length
      · rw [dif_pos hin, dif_pos (by rw [List.length_cons]; omega)]
        simp only [show j - k = (j - (k + 1)) + 1 by omega, List.getElem_cons_succ]
      · rw [dif_neg hin, dif_neg (by rw [List.length_cons]; omega), reg_setReg_ne _ _ (winKey_ne _ _ (by omega))]

theorem putWords_reg_below (st : Nat) (l : List (W64 × Nat)) (m : Mach) {off : Nat} (h : off / 8 < 0x28) :
    (l.foldl (fun acc p => acc.setReg st 0 (0x140 + 8 * p.2) p.1) m).reg st 0 off = m.reg st 0 off :=
  foldl_keeps (P := fun t : Mach => t.reg st 0 off = m.reg st 0 off) _ _ rfl
    fun t ht _ => (reg_setReg_ne t _ (winKey_ne _ _ (by omega))).trans ht

theorem words_length (x : Queue) : x.words.length = 8 := rfl

/-- A read puts the words of the selected queue in the data registers. -/
theorem queueCommand_read : (m.queueCommand e false).reg (leStop e) 0 0x108 = 0 ∧
    ∀ i, i < 8 → (m.queue (m.selQueue e)).words[i]? = some ((m.queueCommand e false).reg (leStop e) 0 (0x140 + 8 * i)) := by
  change (((m.queue (m.selQueue e)).words.zipIdx).foldl (fun acc p => acc.setReg (leStop e) 0 (0x140 + 8 * p.2) p.1)
      (m.setReg (leStop e) 0 0x108 0)).reg (leStop e) 0 0x108 = 0 ∧ ∀ i, i < 8 → _ =
    some ((((m.queue (m.selQueue e)).words.zipIdx).foldl (fun acc p => acc.setReg (leStop e) 0 (0x140 + 8 * p.2) p.1)
      (m.setReg (leStop e) 0 0x108 0)).reg (leStop e) 0 (0x140 + 8 * i))
  refine ⟨?_, fun i hi => ?_⟩
  · rw [putWords_reg_below _ _ _ (by omega), reg_setReg_self]
  · rw [putWords_regs, dif_pos (by rw [words_length]; omega), List.getElem?_eq_getElem (by rw [words_length]; exact hi)]
    rfl

end

/-! ### Writing -/

section
variable {m : Mach} {q : Nat} {w : Nat → W64}

/-- The DISABLED queue with the fields of a written descriptor. -/
def Queue.written (x : Queue) (w : Nat → W64) : Queue :=
  { x with
    w0 := w 0 &&& 0x1000001FFFFF1FFF
    w1 := w 1 &&& 0x000FFFFFFFFFFFFF
    w2 := w 2 &&& 0x000FFFFFFFFFF000
    w3 := w 3 &&& 0xFFFFFFFF017F07FF
    next := if x.recs.isEmpty then (w 4 &&& 0x0000FFFFFFFFFFFF).toNat else x.next }

/-- The next number that a descriptor names. -/
theorem next_written (v : W64) : (v &&& 0x0000FFFFFFFFFFFF).toNat = fld v 0 48 := by
  apply Nat.eq_of_testBit_eq
  intro i
  rw [testBit_fld, Nat.zero_add]
  change (v &&& 0x0000FFFFFFFFFFFF).getLsbD i = _
  rw [BitVec.getLsbD_and]
  by_cases hi : i < 64
  · have hm : ∀ i : Fin 64, (0x0000FFFFFFFFFFFF : W64).getLsbD i.val = decide (i.val < 48) := by decide
    have := hm ⟨i, hi⟩
    simp only at this
    rw [this, Bool.and_comm]
  · simp [BitVec.getLsbD_of_ge _ _ (Nat.le_of_not_lt hi)]

theorem en_written (v : W64) : bit (v &&& 0x1000001FFFFF1FFF) 60 = bit v 60 := by
  simp [bit]

/-- A write to a DISABLED queue. -/
theorem queueWrite_disabled (h : (m.queue q).st = 0) : m.queueWrite q w =
    if bit (w 0) 60 = false then some (m.setQueue q ((m.queue q).written w))
    else if m.placementOk q ((m.queue q).written w) = false ∨ (m.vqf (q / 2048) ((m.queue q).written w).vqf).st ≠ 1 then none
    else some (m.setQueue q { (m.queue q).written w with st := 1 }) := by
  refine (if_pos h).trans ?_
  change (if (! bit (w 0 &&& 0x1000001FFFFF1FFF) 60) = true then some (m.setQueue q ((m.queue q).written w))
    else if (! m.placementOk q ((m.queue q).written w)) = true ∨ (m.vqf (q / 2048) ((m.queue q).written w).vqf).st ≠ 1 then none
    else some (m.setQueue q { (m.queue q).written w with st := 1 })) = _
  simp only [en_written, Bool.not_eq_true']

theorem written_eq (x : Queue) : x.written w = { x with
    w0 := w 0 &&& 0x1000001FFFFF1FFF
    w1 := w 1 &&& 0x000FFFFFFFFFFFFF
    w2 := w 2 &&& 0x000FFFFFFFFFF000
    w3 := w 3 &&& 0xFFFFFFFF017F07FF
    next := if x.recs.isEmpty then fld (w 4) 0 48 else x.next } := by
  unfold Queue.written
  rw [next_written]

section
variable {y : Queue} (h : (m.queue q).st = 0) (hy : (m.queue q).written w = y)
include h

theorem queueWrite_off (hb : bit (w 0) 60 = false) (hy : (m.queue q).written w = y) : m.queueWrite q w = some (m.setQueue q y) := by
  rw [queueWrite_disabled h, if_pos hb, hy]

variable (hb : bit (w 0) 60 = true)
include hb hy

theorem queueWrite_enables (hp : m.placementOk q y = true) (hv : (m.vqf (q / 2048) y.vqf).st = 1) :
    m.queueWrite q w = some (m.setQueue q { y with st := 1 }) := by
  rw [queueWrite_disabled h, hy, hb, hp, if_neg (by decide), if_neg]
  simp [hv]

theorem queueWrite_refused (hr : m.placementOk q y = false ∨ (m.vqf (q / 2048) y.vqf).st ≠ 1) : m.queueWrite q w = none := by
  rw [queueWrite_disabled h, hy, hb, if_neg (by decide), if_pos hr]

end

/-- The ENABLED queue that a write with EN 0 leaves, before it stops. -/
def Queue.cleared (x : Queue) (v : W64) : Queue :=
  { x with w0 := setBit (setFld x.w0 26 11 (fld (v &&& 0x1000001FFFFF1FFF) 26 11)) 60 false }

/-- Clearing EN stops an ENABLED queue. -/
theorem queueWrite_stops (h : (m.queue q).st = 1) (hw : bit (w 0) 60 = false) :
    m.queueWrite q w = some ((m.setQueue q ((m.queue q).cleared (w 0))).queueStopAt q) := by
  unfold Mach.queueWrite Queue.cleared
  simp only [qMask, Nat.reduceEqDiff, if_true, if_false, h, en_written, hw, Bool.false_eq_true, Bool.not_false, and_self]

/-- What a stop leaves of an ENABLED queue. -/
theorem queueStopAt_stops (h : (m.queue q).st = 1) : (m.queueStopAt q).queue q =
    { m.queue q with st := if (m.queue q).recs = [] then 0 else 2 } := by
  unfold Mach.queueStopAt
  simp only [if_pos h]
  unfold Mach.stopCheck
  simp only [queue_setQueue, if_true, true_and, List.isEmpty_iff]
  split
  · rw [queue_setQueue, if_pos rfl]
  · rw [queue_setQueue, if_pos rfl]

variable {e : Nat}

theorem queueCommand_wrote {t : Mach} (h : m.queueWrite (m.selQueue e) (m.queueData e) = some t) :
    m.queueCommand e true = t.setReg (leStop e) 0 0x108 0 := by
  change (match m.queueWrite (m.selQueue e) (m.queueData e) with
    | some m1 => m1.setReg (leStop e) 0 0x108 0
    | none => m.setReg (leStop e) 0 0x108 (setBit 0 62 true)) = _
  rw [h]

theorem queueCommand_refused (h : m.queueWrite (m.selQueue e) (m.queueData e) = none) :
    m.queueCommand e true = m.setReg (leStop e) 0 0x108 (setBit 0 62 true) := by
  change (match m.queueWrite (m.selQueue e) (m.queueData e) with
    | some m1 => m1.setReg (leStop e) 0 0x108 0
    | none => m.setReg (leStop e) 0 0x108 (setBit 0 62 true)) = _
  rw [h]

end

/-! ### The end of a rebuilding (R413) -/

section
variable {m : Mach}

theorem copiesOf_engine (o : OutRec) (e : Nat) : (m.copiesOf o).2.2.engine e = m.engine e := by
  unfold Mach.copiesOf
  simp only []
  split
  · rfl
  · split
    · rfl
    · split <;> rfl

theorem enqueue_engine (q : Nat) (f : EgFrame) (e : Nat) : (m.enqueue q f).engine e = m.engine e := by
  unfold Mach.enqueue Mach.dropDown Mach.outDone Mach.modRec
  split
  · rfl
  · split
    · rfl
    · exact creditTick_keeps (·.engine e) fun _ _ => rfl

theorem releaseOut_engine (q s k : Nat) (o : OutRec) (e : Nat) : (m.releaseOut q s k o).engine e = m.engine e :=
  foldl_keeps (P := fun t : Mach => t.engine e = m.engine e) _ _ (copiesOf_engine o e) fun _ ht p => (enqueue_engine p _ e).trans ht

theorem releaseAgain_engine (q : Nat) (r : LRec) (e : Nat) : (m.releaseAgain q r).engine e = m.engine e := by
  unfold Mach.releaseAgain
  split
  · rfl
  · refine foldl_keeps (P := fun t : Mach => t.engine e = m.engine e) _ _ rfl fun t ht p => ?_
    split
    · exact ht
    · exact (releaseOut_engine _ _ _ _ e).trans ht

theorem rebuilt_same {e : Nat} (h : (m.engine e).rebuilding = false) : m.rebuilt e = m := by
  unfold Mach.rebuilt
  rw [h]
  rfl

theorem rebuilt_ends {e : Nat} (h : (m.engine e).rebuilding = true) : ((m.rebuilt e).engine e).rebuilding = false := by
  unfold Mach.rebuilt
  rw [h]
  refine foldl_keeps (P := fun t : Mach => (t.engine e).rebuilding = false) _ _ ?_ fun t ht p => ?_
  · exact congrArg Engine.rebuilding (Tab.get_set_self _ _ _ _)
  · exact foldl_keeps (P := fun t : Mach => (t.engine e).rebuilding = false) _ _ ht
      fun t ht r => (congrArg Engine.rebuilding (releaseAgain_engine _ _ e)).trans ht

end

section
variable {s : State} {mst : Master} {e : Nat} (he : e < 2)
include he

theorem exec_leQRead (h : s.m.Opens mst (leStop e) 0 0x108) : exec (.leQRead mst e) s = .next (s.withM (s.m.queueCommand e false)) := by
  change s.upd (fun m => if 2 ≤ e then m else m.window mst (leStop e) 0 0x108 (fun m => m.queueCommand e false)) = _
  rw [upd_eq, if_neg (by omega), window_open h]

theorem exec_leQWrite (h : s.m.Opens mst (leStop e) 0 0x108) : exec (.leQWrite mst e) s = .next (s.withM (s.m.queueCommand e true)) := by
  change s.upd (fun m => if 2 ≤ e then m else m.window mst (leStop e) 0 0x108 (fun m => m.queueCommand e true)) = _
  rw [upd_eq, if_neg (by omega), window_open h]

theorem exec_leReset (h : s.m.Opens mst (leStop e) 0 0x80) : exec (.leReset mst e) s =
    .next (s.withM (if (s.m.blk (leStop e) 0).quiesce then s.m.leReset e else s.m)) := by
  change s.upd (fun m => if 2 ≤ e then m else m.window mst (leStop e) 0 0x80 (fun m =>
    if (m.blk (leStop e) 0).quiesce then m.leReset e else m)) = _
  rw [upd_eq, if_neg (by omega), window_open h]

end

/-- Settles O44: the words of a read, the cases of a write by the state of the queue and EN, and the end of a rebuilding. -/
theorem queueDescriptors : Obligations.QueueDescriptors := by
  unfold Obligations.QueueDescriptors
  refine ⟨?cmd, ?reset, ?rebuilt⟩
  case cmd =>
    intro s mst e he hop q x w y err
    have hy : x.written w = y := written_eq x
    refine ⟨⟨_, exec_leQRead he hop, queueCommand_read⟩, fun hst hen => ?_, fun hst hen hp hv => ?_, fun hst hen hr => ?_,
      fun hst hen => ?_⟩
    · rw [exec_leQWrite he hop, queueCommand_wrote (queueWrite_off hst hen hy)]
      rfl
    · rw [exec_leQWrite he hop, queueCommand_wrote (queueWrite_enables hst hy hen hp hv)]
      rfl
    · rw [exec_leQWrite he hop, queueCommand_refused (queueWrite_refused hst hy hen hr)]
    · refine ⟨_, exec_leQWrite he hop, ?_⟩
      rw [queueCommand_wrote (queueWrite_stops hst hen)]
      have hc : (s.m.setQueue q (x.cleared (w 0))).queue q = x.cleared (w 0) := (queue_setQueue _ _ _ _).trans (if_pos rfl)
      have hstop := queueStopAt_stops (m := s.m.setQueue q (x.cleared (w 0))) (q := q) ((congrArg Queue.st hc).trans hst)
      have hq : (((s.m.setQueue q (x.cleared (w 0))).queueStopAt q).setReg (leStop e) 0 0x108 0).queue q =
          { x.cleared (w 0) with st := if x.recs = [] then 0 else 2 } := hstop.trans (by rw [hc]; rfl)
      refine ⟨congrArg Queue.st hq, (congrArg Queue.recs hq).trans rfl, (congrArg Queue.en hq).trans ?_⟩
      exact bit_setBit_self _ _ (by omega)
  case reset =>
    intro s mst e he hop
    refine ⟨fun h => ?_, fun h => ?_⟩
    · rw [exec_leReset he hop, h, if_neg Bool.false_ne_true, withM_self]
    · rw [exec_leReset he hop, h, if_pos rfl]
  case rebuilt =>
    intro s e
    refine ⟨fun h => ?_, fun h => ⟨s.m.rebuilt e, rfl, rebuilt_ends h⟩⟩
    change Host.Outcome.next (s.withM (s.m.rebuilt e)) = _
    rw [rebuilt_same h, withM_self]

end Sys2Proof.Machine

/-! SUPPORT. The fault collector (R334 to R336, R340, R341): one occurrence in a cycle of its own, and the entry into the Caldera state. -/

namespace Sys2Proof.Machine

/-! ### Sources -/

/-- The severities of the sources are at most 3. -/
theorem srcTable_sev (st : Nat) : ∀ p ∈ srcTable st, p.1 < 4 := by
  unfold srcTable
  split <;> decide

theorem srcSev_lt (src : Nat) : srcSev src < 4 := by
  unfold srcSev srcInfo
  cases h : (srcTable (srcStop src))[src - (faultRange (srcStop src)).1]? with
  | none => exact Nat.zero_lt_succ _
  | some p => exact srcTable_sev _ p (List.mem_of_getElem? h)

theorem srcReal_lt {src : Nat} (h : srcReal src = true) : src < 512 := by
  unfold srcReal at h
  simp only [Bool.and_eq_true, decide_eq_true_eq] at h
  exact h.1

/-! ### The record -/

section
variable (m : Mach) (o : Occ)

theorem recordCycle_one (react : Nat) :
    m.recordCycle [o] react = if bit (m.reg 0 2 0x100) 63 then m.markAlso o else m.capture o react := by
  unfold Mach.recordCycle
  simp only [worst, List.foldl_cons, List.foldl_nil, List.erase_cons_head]

/-- The record takes the occurrence where it is free. -/
theorem capture_record (react : Nat) (h : o.r.src < 512) : fld ((m.capture o react).reg 0 2 0x100) 0 9 = o.r.src ∧
    fld ((m.capture o react).reg 0 2 0x100) 10 2 = srcSev o.r.src ∧ bit ((m.capture o react).reg 0 2 0x100) 63 = true ∧
    fld ((m.capture o react).reg 0 2 0x110) 0 6 = o.r.mstop % 64 ∧ (m.capture o react).reg 0 2 0x118 = m.dtNow := by
  have h100 : (m.capture o react).reg 0 2 0x100 =
      setBit (setBit (setBit (setFld (setFld (setFld 0 0 9 o.r.src) 10 2 (srcSev o.r.src)) 16 6 react) 12 (m.shadowed o)) 13 o.inj) 63
        true := by
    unfold Mach.capture
    rw [reg_setReg_ne _ _ (winKey_ne _ _ (by omega)), reg_setReg_ne _ _ (winKey_ne _ _ (by omega)),
      reg_setReg_ne _ _ (winKey_ne _ _ (by omega)), reg_setReg_self]
  have h110 : (m.capture o react).reg 0 2 0x110 =
      setBit (setFld (setFld (setFld 0 0 6 o.r.mstop) 8 6 o.r.munit) 16 4 (o.r.acc.getD 0xB)) 24 o.mv := by
    unfold Mach.capture
    rw [reg_setReg_ne _ _ (winKey_ne _ _ (by omega)), reg_setReg_self]
  have hsev := srcSev_lt o.r.src
  rw [h100, h110]
  refine ⟨?_, ?_, bit_setBit_self _ _ (by omega), ?_, reg_setReg_self _ _ _ _ _⟩
  · simp (disch := omega) only [fld_setBit_ne, fld_setFld_ne, fld_setFld_same]
    exact Nat.mod_eq_of_lt h
  · simp (disch := omega) only [fld_setBit_ne, fld_setFld_ne, fld_setFld_same]
    exact Nat.mod_eq_of_lt hsev
  · simp (disch := omega) only [fld_setBit_ne, fld_setFld_ne, fld_setFld_same]
    rfl

/-- Marking an occurrence leaves the record. -/
theorem markAlso_reg {off : Nat} (h : off / 8 ≠ 0x30) : (m.markAlso o).reg 0 2 off = m.reg 0 2 off :=
  reg_setReg_ne _ _ (winKey_ne _ _ (by omega))

theorem markAlso_also : ((m.markAlso o).fc o.r.src).also = true ∧ bit ((m.markAlso o).reg 0 2 0x180) 18 = true := by
  refine ⟨congrArg FcSrc.also ((fc_setFc m _ _ _).trans (if_pos rfl)), ?_⟩
  unfold Mach.markAlso
  rw [reg_setReg_self, bit_setBit_self _ _ (by omega)]

/-- What the record leaves of a machine. -/
theorem recordCycle_one_frame (react : Nat) (src : Nat) : (m.recordCycle [o] react).mem = m.mem ∧
    (m.recordCycle [o] react).cores = m.cores ∧ (m.recordCycle [o] react).phase = m.phase ∧
    (m.recordCycle [o] react).shadows = m.shadows ∧ (m.recordCycle [o] react).txns = m.txns ∧
    (m.recordCycle [o] react).stale = m.stale ∧ ((m.recordCycle [o] react).fc src).count = (m.fc src).count ∧
    ((m.recordCycle [o] react).fc src).pend = (m.fc src).pend ∧ ((m.recordCycle [o] react).fc src).react = (m.fc src).react := by
  rw [recordCycle_one]
  split
  · refine ⟨rfl, rfl, rfl, rfl, rfl, rfl, ?_⟩
    have hfc : (m.markAlso o).fc src = if src = o.r.src then { m.fc o.r.src with also := true } else m.fc src := fc_setFc m _ _ _
    rw [hfc]
    split
    · next h =>
      rw [h]
      exact ⟨rfl, rfl, rfl⟩
    · exact ⟨rfl, rfl, rfl⟩
  · exact ⟨rfl, rfl, rfl, rfl, rfl, rfl, rfl, rfl, rfl⟩

end

/-! ### The count -/

section
variable {m : Mach} {o : Occ} (hs : m.shadowed o = false)

theorem countOcc_fc : (m.countOcc o).fc o.r.src = { m.fc o.r.src with
    count := min ((m.fc o.r.src).count + 1) 0xFFFF
    shcount := if m.shadowed o then min ((m.fc o.r.src).shcount + 1) 0xFFFF else (m.fc o.r.src).shcount
    pend := (m.fc o.r.src).pend || ! m.shadowed o
    shadow := (m.fc o.r.src).shadow || m.shadowed o } :=
  (fc_setFc m _ _ _).trans (if_pos rfl)

theorem countOcc_reg {off : Nat} (h : off / 8 ≠ 0x31) : (m.countOcc o).reg 0 2 off = m.reg 0 2 off :=
  reg_setReg_ne _ _ (winKey_ne _ _ (by omega))

/-- The machine after the count and the record of one occurrence. -/
def Mach.noted (m : Mach) (o : Occ) : Mach := (m.countOcc o).recordCycle [o] (m.applied [o])

theorem noted_frame : (m.noted o).mem = m.mem ∧ (m.noted o).cores = m.cores ∧ (m.noted o).phase = m.phase ∧
    (m.noted o).shadows = m.shadows ∧ (m.noted o).txns = m.txns ∧ (m.noted o).stale = m.stale :=
  let ⟨hmem, hcores, hphase, hshadows, htxns, hstale, _⟩ := recordCycle_one_frame (m.countOcc o) o (m.applied [o]) 0
  ⟨hmem, hcores, hphase, hshadows, htxns, hstale⟩

theorem noted_react : ((m.noted o).fc o.r.src).react = (m.fc o.r.src).react := by
  obtain ⟨_, _, _, _, _, _, _, _, hr⟩ := recordCycle_one_frame (m.countOcc o) o (m.applied [o]) o.r.src
  rw [Mach.noted, hr, countOcc_fc]

theorem noted_reactOf : (m.noted o).reactOf o = m.reactOf o := by
  obtain ⟨_, _, hphase, hshadows, _⟩ := noted_frame (m := m) (o := o)
  have hsh : (m.noted o).shadowed o = m.shadowed o := by
    unfold Mach.shadowed Mach.inShadow
    rw [hshadows]
  unfold Mach.reactOf
  rw [hphase, hsh, noted_react]

theorem noted_count : ((m.noted o).fc o.r.src).count = min ((m.fc o.r.src).count + 1) 0xFFFF := by
  obtain ⟨_, _, _, _, _, _, hc, _⟩ := recordCycle_one_frame (m.countOcc o) o (m.applied [o]) o.r.src
  rw [Mach.noted, hc, countOcc_fc]

include hs

theorem noted_pend : ((m.noted o).fc o.r.src).pend = true := by
  obtain ⟨_, _, _, _, _, _, _, hp, _⟩ := recordCycle_one_frame (m.countOcc o) o (m.applied [o]) o.r.src
  rw [Mach.noted, hp, countOcc_fc, hs]
  exact Bool.or_true _

/-- One occurrence that no shadow covers. -/
theorem cycle_one (hr : srcReal o.r.src = true) (known : List (Nat × List W64)) :
    m.cycle [o] known = (m.noted o).react [o] (m.applied [o]) known := by
  have hrec : m.recorded o = true := by
    unfold Mach.recorded
    rw [hs]
    rfl
  unfold Mach.cycle
  simp only [List.filter_cons, hr, hrec, if_true, List.filter_nil, List.foldl_cons, List.foldl_nil]
  rfl

end

/-! ### Reactions -/

section
variable {m : Mach} {o : Occ} (known : List (Nat × List W64))

theorem react_none (h : m.reactOf o = 0) : m.react [o] 0 known = m := by
  simp [Mach.react, h]

theorem react_cald (h : m.reactOf o = 32) : m.react [o] 32 known = m.caldera 1 o.r.src (m.shadowed o) o.inj := by
  simp only [Mach.react, List.filter_cons, List.filter_nil, h]
  rfl

theorem reactOf_zero (h : (m.fc o.r.src).react = 0) : m.reactOf o = 0 := by
  simp [Mach.reactOf, h]

theorem reactOf_cald (h : (m.fc o.r.src).react = 32) (hp : m.phase ≠ .caldera) : m.reactOf o = 32 := by
  simp [Mach.reactOf, h, hp]

theorem applied_one (h : m.reactOf o = 0 ∨ m.reactOf o = 32) : m.applied [o] = m.reactOf o := by
  rcases h with h | h <;> simp only [Mach.applied, List.foldl_cons, List.foldl_nil, h] <;> rfl

end

/-! ### The Caldera state (R340, R341) -/

section
variable (m : Mach)

/-- The controllers with no request, row or refresh on their way. -/
def Mach.mcCleared (m : Mach) : Mach :=
  { m with mcReqs := [], mcRetried := [], mcDrain := [], mcTc3 := [], rows := [], refreshDue := [] }

/-- What the controllers' entry into self-refresh leaves alone. -/
theorem selfRefresh_keeps {α : Type} (g : Mach → α)
    (hg : ∀ (t : Mach) (st k off : Nat) (v : W64), 8 ≤ st → k < 3 → off < 0x100 → g (t.setReg st k off v) = g t) :
    g m.selfRefresh = g m.mcCleared := by
  have hmc : ∀ k, 8 ≤ mcStop k := fun k => by
    unfold mcStop
    split_ifs <;> omega
  have hchan : ∀ l : List Nat, g (l.foldl (fun (acc : Mach) ch =>
      if acc.chanState ch = 2 then acc.setRegFld (chanStop ch) (dphyWin ch) 0x40 0 3 3 else acc) m.mcCleared) = g m.mcCleared := fun l =>
    foldl_keeps (P := fun t : Mach => g t = g m.mcCleared) _ _ rfl fun t ht ch => by
      split
      · exact (hg t _ _ _ _ (hmc _) (by unfold dphyWin; omega) (by omega)).trans ht
      · exact ht
  exact foldl_keeps (P := fun t : Mach => g t = g m.mcCleared) _ _ (hchan _)
    fun t ht k => (hg t _ _ _ _ (hmc k) (by omega) (by omega)).trans ht

/-- FC_CALD at an entry. -/
def caldWord (old : W64) (cause src : Nat) (shadow inj : Bool) : W64 :=
  setFld (setBit (setBit (setFld (setFld 0 0 2 cause) 16 9 src) 25 shadow) 26 inj) 32 16 (min (fld old 32 16 + 1) 0xFFFF)

theorem caldWord_fields (old : W64) {cause src : Nat} (shadow inj : Bool) (hc : cause < 4) (hs : src < 512) :
    fld (caldWord old cause src shadow inj) 0 2 = cause ∧ fld (caldWord old cause src shadow inj) 16 9 = src := by
  unfold caldWord
  simp (disch := omega) only [fld_setBit_ne, fld_setFld_ne, fld_setFld_same]
  exact ⟨Nat.mod_eq_of_lt hc, Nat.mod_eq_of_lt hs⟩

/-- The machine that logs an entry into the Caldera state. -/
def Mach.caldLogged (m : Mach) (v : W64) : Mach := (m.setReg 0 2 0x190 v).setReg 0 2 0x198 m.dtNow

/-- The machine that settles what is on its way before it halts. -/
def Mach.caldSettled (m : Mach) (v : W64) : Mach := ((m.caldLogged v).settleHomes.loseCaches).selfRefresh

variable {m} {cause src : Nat} {sh inj : Bool}

theorem caldera_again (h : m.phase = .caldera) : m.caldera cause src sh inj = m := if_pos h

/-- The device halts. -/
def Mach.haltAll (m : Mach) : Mach :=
  { m with
    phase := .caldera
    caldLow := true
    warm := false
    dbg := none
    power := { m.power with queue := [], deferred := [] }
    cores := Tab.mapV Core.reset (fun _ x => x.discarded) m.cores }

theorem caldera_enters (h : m.phase ≠ .caldera) :
    m.caldera cause src sh inj = (m.caldSettled (caldWord (m.reg 0 2 0x190) cause src sh inj)).haltAll := by
  unfold Mach.caldera
  rw [if_neg h]
  extract_lets old v m1 m2
  have hm : m2 = m.caldSettled (caldWord (m.reg 0 2 0x190) cause src sh inj) := rfl
  rw [← hm]
  rfl

theorem haltAll_reg (st k off : Nat) : m.haltAll.reg st k off = m.reg st k off := rfl

theorem haltAll_halts : m.haltAll.phase = .caldera ∧ m.haltAll.caldLow = true ∧ m.haltAll.warm = false ∧ m.haltAll.dbg = none ∧
    m.haltAll.power.queue = [] := ⟨rfl, rfl, rfl, rfl, rfl⟩

/-- A core that is discarded holds nothing. -/
theorem discarded_core (t : List (Nat × Core)) (c : Nat) : ∃ st, Tab.get Core.reset (Tab.mapV Core.reset (fun _ x => x.discarded) t) c =
    { Core.reset with st := st } := by
  rcases get_mapV Core.reset (fun _ x => Core.discarded x) t c with h | ⟨x, h⟩
  · exact ⟨.off, h⟩
  · exact ⟨x.st, h⟩

theorem rest_stale (m : Mach) (x : List (Nat × List Word)) : ({ m with stale := x } : Mach).rest = m.rest := rfl
theorem rest_mmeta (m : Mach) (x : List (Nat × Meta)) : ({ m with mmeta := x } : Mach).rest = m.rest := rfl

/-- A line that reverts leaves what memory does not name. -/
theorem revertLine_rest (line : Nat) {x : Mach} (h : m.RestIs x) : (m.revertLine line).RestIs x := by
  unfold Mach.revertLine
  split
  · refine of_rest (foldl_keeps (P := fun t : Mach => t.RestIs x) _ _ h fun t ht i => ?_) (rest_stale _ _)
    exact of_rest (writeN_rest _ _ _ ht) (rest_mmeta _ _)
  · exact h

theorem Mach.RestIs.txns {x : Mach} (h : m.RestIs x) : m.txns = x.txns := by
  obtain rfl : m.rest = x := h
  rfl

theorem loseCaches_txns (h : m.txns = []) : m.loseCaches.txns = [] := by
  have hrest : (m.stale.foldl (fun acc p => acc.revertLine p.1) m).RestIs m.rest :=
    foldl_keeps (P := fun t : Mach => t.RestIs m.rest) _ _ (Eq.refl m.rest) fun t ht p => revertLine_rest p.1 ht
  have htx : (m.stale.foldl (fun acc p => acc.revertLine p.1) m).txns = [] := hrest.txns.trans h
  exact htx

theorem loseCaches_stale : m.loseCaches.stale = [] := rfl

theorem settleHomes_txns : m.settleHomes.txns = [] := rfl

theorem caldSettled_queues (v : W64) : (m.caldSettled v).txns = [] ∧ (m.caldSettled v).stale = [] ∧ (m.caldSettled v).mcReqs = [] :=
  ⟨(selfRefresh_keeps _ (·.txns) fun _ _ _ _ _ _ _ _ => rfl).trans (loseCaches_txns (settleHomes_txns (m := m.caldLogged v))),
    (selfRefresh_keeps _ (·.stale) fun _ _ _ _ _ _ _ _ => rfl).trans (loseCaches_stale (m := (m.caldLogged v).settleHomes)),
    (selfRefresh_keeps _ (·.mcReqs) fun _ _ _ _ _ _ _ _ => rfl).trans rfl⟩

/-- With nothing on its way the homes and caches settle at once. -/
theorem caldSettled_idle (v : W64) (ht : m.txns = []) (hs : m.stale = []) : (m.caldSettled v).reg 0 2 0x190 = v := by
  have hidle : ((m.caldLogged v).settleHomes.loseCaches).reg 0 2 0x190 = v := by
    have htx : (m.caldLogged v).txns = [] := ht
    have hst : (m.caldLogged v).stale = [] := hs
    have hsettle : (m.caldLogged v).settleHomes.stale = [] ∧ (m.caldLogged v).settleHomes.ctl = (m.caldLogged v).ctl := by
      unfold Mach.settleHomes
      simp only [htx, List.filter_nil, List.foldl_nil]
      exact ⟨hst, trivial⟩
    have hctl : ((m.caldLogged v).settleHomes.loseCaches).ctl = (m.caldLogged v).ctl := by
      unfold Mach.loseCaches
      simp only [hsettle.1, List.foldl_nil]
      exact hsettle.2
    have hreg : (m.caldLogged v).reg 0 2 0x190 = v := (reg_setReg_ne _ _ (winKey_ne _ _ (by omega))).trans (reg_setReg_self _ _ _ _ _)
    unfold Mach.reg at hreg ⊢
    rw [hctl]
    exact hreg
  refine (selfRefresh_keeps _ (·.reg 0 2 0x190) fun t st k off w hst hk hoff => reg_setReg_ne t w ?_).trans hidle
  unfold cellKey
  omega

end

/-- A device that halts with nothing on its way holds nothing but the states of its cores. -/
theorem haltAll_empty {u : Mach} (htx : u.txns = []) (hst : u.stale = []) (hreq : u.mcReqs = []) :
    u.haltAll.phase = .caldera ∧ u.haltAll.caldLow = true ∧ u.haltAll.warm = false ∧ u.haltAll.dbg = none ∧ u.haltAll.txns = [] ∧
      u.haltAll.stale = [] ∧ u.haltAll.mcReqs = [] ∧ u.haltAll.power.queue = [] ∧ ∀ c, (u.haltAll.core c).g = [] ∧
        (u.haltAll.core c).pcc = .zero ∧ (u.haltAll.core c).tlb = [] ∧ (u.haltAll.core c).gcache = [] ∧ (u.haltAll.core c).mb = [] := by
  refine ⟨rfl, rfl, rfl, rfl, htx, hst, hreq, rfl, fun c => ?_⟩
  obtain ⟨st, hc⟩ := discarded_core u.cores c
  have hcore : u.haltAll.core c = { Core.reset with st := st } := hc
  rw [hcore]
  exact ⟨rfl, rfl, rfl, rfl, rfl⟩

/-- What an entry into the Caldera state leaves. -/
theorem caldera_leaves {m : Mach} {cause src : Nat} {sh inj : Bool} (h : m.phase ≠ .caldera) (t : Mach) (ht : t = m.caldera cause src sh inj) :
    t.phase = .caldera ∧ t.caldLow = true ∧ t.warm = false ∧ t.dbg = none ∧ t.txns = [] ∧ t.stale = [] ∧ t.mcReqs = [] ∧
      t.power.queue = [] ∧ ∀ c, (t.core c).g = [] ∧ (t.core c).pcc = .zero ∧ (t.core c).tlb = [] ∧ (t.core c).gcache = [] ∧
        (t.core c).mb = [] := by
  obtain ⟨htx, hst, hreq⟩ := caldSettled_queues (m := m) (caldWord (m.reg 0 2 0x190) cause src sh inj)
  rw [ht, caldera_enters h]
  exact haltAll_empty htx hst hreq

/-- An occurrence of a real source that no shadow covers. -/
theorem exec_faultOccurrence {s : State} {r : Report} (hr : srcReal r.src = true) (hs : s.m.inShadow (srcStop r.src) = false) :
    exec (.faultOccurrence [r] []) s = .next (s.withM (((s.m.arrived [r]).noted ⟨r, false, true⟩).react [⟨r, false, true⟩]
      ((s.m.arrived [r]).applied [⟨r, false, true⟩]) [])) := by
  change Host.Outcome.next (s.withM ((s.m.arrived [r]).cycle [⟨r, false, true⟩] [])) = _
  have hsh : (s.m.arrived [r]).shadowed ⟨r, false, true⟩ = false := hs
  rw [cycle_one hsh hr]

section
variable {m : Mach} {r : Report} {o : Occ} (hsrc : o.r = r)
include hsrc

/-- An occurrence without a reaction is counted, pending and recorded, and nothing else. -/
theorem occurrence_none (hs : m.shadowed o = false) (hr : r.src < 512) (hx : (m.fc r.src).react = 0) (t : Mach) (ht : t = m.noted o) :
    (t.fc r.src).count = min ((m.fc r.src).count + 1) 0xFFFF ∧ (t.fc r.src).pend = true ∧ (t.fc r.src).react = 0 ∧ t.mem = m.mem ∧
      t.cores = m.cores ∧ t.phase = m.phase ∧
      (bit (m.reg 0 2 0x100) 63 = false → fld (t.reg 0 2 0x100) 0 9 = r.src ∧ fld (t.reg 0 2 0x100) 10 2 = srcSev r.src ∧
        bit (t.reg 0 2 0x100) 63 = true ∧ fld (t.reg 0 2 0x110) 0 6 = r.mstop % 64 ∧ t.reg 0 2 0x118 = m.dtNow) ∧
      (bit (m.reg 0 2 0x100) 63 = true → t.reg 0 2 0x100 = m.reg 0 2 0x100 ∧ t.reg 0 2 0x108 = m.reg 0 2 0x108 ∧
        (t.fc r.src).also = true ∧ bit (t.reg 0 2 0x180) 18 = true) := by
  subst ht hsrc
  obtain ⟨hmem, hcores, hphase, _⟩ := noted_frame (m := m) (o := o)
  have hrec := recordCycle_one (m.countOcc o) o (m.applied [o])
  have hreg : ∀ off, off / 8 ≠ 0x31 → (m.countOcc o).reg 0 2 off = m.reg 0 2 off := fun off h => countOcc_reg h
  refine ⟨noted_count, noted_pend hs, noted_react.trans hx, hmem, hcores, hphase, fun hb => ?_, fun hb => ?_⟩
  · rw [Mach.noted, hrec, if_neg (by rw [hreg _ (by omega), hb]; decide)]
    exact capture_record (m.countOcc o) o (m.applied [o]) hr
  · rw [Mach.noted, hrec, if_pos (by rw [hreg _ (by omega), hb]), markAlso_reg _ _ (by omega), markAlso_reg _ _ (by omega),
      hreg _ (by omega), hreg _ (by omega)]
    exact ⟨rfl, rfl, markAlso_also _ _⟩

omit hsrc in
/-- One whose reaction is CALD enters the Caldera state with cause 1. -/
theorem occurrence_cald (hr : r.src < 512) (hp : m.phase ≠ .caldera) (htx : m.txns = []) (hst : m.stale = []) (sh inj : Bool) (t : Mach)
    (ht : t = m.caldera 1 r.src sh inj) : t.phase = .caldera ∧ t.caldLow = true ∧ fld (t.reg 0 2 0x190) 0 2 = 1 ∧
      fld (t.reg 0 2 0x190) 16 9 = r.src := by
  obtain ⟨hcause, hs9⟩ := caldWord_fields (m.reg 0 2 0x190) sh inj (show 1 < 4 by omega) hr
  have hreg := caldSettled_idle (caldWord (m.reg 0 2 0x190) 1 r.src sh inj) htx hst
  rw [ht, caldera_enters hp]
  generalize m.caldSettled (caldWord (m.reg 0 2 0x190) 1 r.src sh inj) = u at hreg ⊢
  obtain ⟨hph, hlow, _⟩ := haltAll_halts (m := u)
  rw [haltAll_reg, hreg]
  exact ⟨hph, hlow, hcause, hs9⟩

end

/-- Settles O39: the count and the record of one occurrence, and the entry into the Caldera state. -/
theorem collectorOccurrences : Obligations.CollectorOccurrences := by
  unfold Obligations.CollectorOccurrences
  refine ⟨?occurrence, ?caldera⟩
  case occurrence =>
    intro s r hreal hshadow x
    have hexec := exec_faultOccurrence hreal hshadow
    generalize ho : (⟨r, false, true⟩ : Occ) = o at hexec
    have hsrc : o.r = r := by rw [← ho]
    have hs : (s.m.arrived [r]).shadowed o = false := by rw [← ho]; exact hshadow
    have hlt := srcReal_lt hreal
    refine ⟨fun hx => ?_, fun hx hp htx hst => ?_⟩
    · have hz : (s.m.arrived [r]).reactOf o = 0 := reactOf_zero (by rw [hsrc]; exact hx)
      have hdone : ((s.m.arrived [r]).noted o).react [o] ((s.m.arrived [r]).applied [o]) [] = (s.m.arrived [r]).noted o := by
        rw [applied_one (.inl hz), hz]
        exact react_none [] (noted_reactOf.trans hz)
      rw [hdone] at hexec
      exact ⟨_, hexec, occurrence_none hsrc hs hlt hx _ rfl⟩
    · have h32 : (s.m.arrived [r]).reactOf o = 32 := reactOf_cald (by rw [hsrc]; exact hx) hp
      obtain ⟨_, _, hphase, _, htxns, hstale⟩ := noted_frame (m := s.m.arrived [r]) (o := o)
      rw [applied_one (.inr h32), h32, react_cald [] (noted_reactOf.trans h32), hsrc] at hexec
      exact ⟨_, hexec, occurrence_cald hlt (by rw [hphase]; exact hp) (htxns.trans htx) (hstale.trans hst) _ _ _ rfl⟩
  case caldera =>
    intro m cause src sh inj
    exact ⟨caldera_again, fun h => caldera_leaves h _ rfl⟩

end Sys2Proof.Machine

/-! SUPPORT. Records from admission to their end (R386, R390, R392, R393, R397, R398, R400): the queue that an admission leaves, and what each
step of a record asks for. -/

namespace Sys2Proof.Machine

/-! ### Queues and held frames -/

theorem Mach.RestIs.queues {m x : Mach} (h : m.RestIs x) : m.queues = x.queues := by
  obtain rfl : m.rest = x := h
  rfl

theorem Mach.RestIs.handovers {m x : Mach} (h : m.RestIs x) : m.handovers = x.handovers := by
  obtain rfl : m.rest = x := h
  rfl

/-- The queues and the held frames of a machine. -/
def Mach.Lists (m : Mach) (qs : List (Nat × Queue)) (hs : List (Nat × Handover)) : Prop := m.queues = qs ∧ m.handovers = hs

section
variable {qs : List (Nat × Queue)} {hs : List (Nat × Handover)} {m t : Mach}

theorem lists_of_rest (h : m.Lists qs hs) (ht : ∀ x, m.RestIs x → t.RestIs x) : t.Lists qs hs := by
  have hr := ht m.rest (Eq.refl m.rest)
  exact ⟨hr.queues.trans h.1, hr.handovers.trans h.2⟩

theorem ite_lists {p : Prop} [Decidable p] (hm : m.Lists qs hs) (ht : t.Lists qs hs) : (if p then m else t).Lists qs hs := by
  split
  · exact hm
  · exact ht

theorem setEngine_lists (e : Nat) (x : Engine) (h : m.Lists qs hs) : (m.setEngine e x).Lists qs hs := h
theorem setVqf_lists (e v : Nat) (x : Vqf) (h : m.Lists qs hs) : (m.setVqf e v x).Lists qs hs := h

theorem putEntry_rest {x : Mach} (e pos : Nat) (ws : List Word) (cs : List Bool) (h : m.RestIs x) : (m.putEntry e pos ws cs).RestIs x :=
  foldl_keeps (P := fun t : Mach => t.RestIs x) _ _ h fun _ ht _ =>
    putWords_rest _ _ (foldl_keeps (P := fun t : Mach => t.RestIs x) _ _ ht fun _ ht _ => openLine_rest _ ht)

theorem putEntry_lists (e pos : Nat) (ws : List Word) (cs : List Bool) (h : m.Lists qs hs) : (m.putEntry e pos ws cs).Lists qs hs :=
  lists_of_rest h fun _ hx => putEntry_rest _ _ _ _ hx

theorem copyForward_lists (e : Nat) (h : m.Lists qs hs) : (m.copyForward e).Lists qs hs := by
  unfold Mach.copyForward
  simp only []
  split
  · exact ite_lists (setEngine_lists _ _ (putEntry_lists _ _ _ _ h)) h
  · exact h

theorem appendEntry_lists (e kind : Nat) (recs : List (Nat × Nat)) (ws : List Word) (cs : List Bool) (h : m.Lists qs hs) :
    (m.appendEntry e kind recs ws cs).Lists qs hs :=
  copyForward_lists _ (setEngine_lists _ _ (putEntry_lists _ _ _ _ h))

theorem countUncore_lists (st : Nat) (u : UncoreEv) (by_ : Nat) (h : m.Lists qs hs) : (m.countUncore st u by_).Lists qs hs :=
  lists_of_rest h fun _ hx => countUncore_rest _ _ _ hx

theorem pfcUpdate_lists (q : Nat) (h : m.Lists qs hs) : (m.pfcUpdate q).Lists qs hs := by
  unfold Mach.pfcUpdate
  simp only []
  split
  · exact h
  · split
    · exact h
    · exact h

end

/-! ### Admission (R393) -/

section
variable (m : Mach) (q : Nat) (r0 : LRec)

/-- The copies that an admitted record has. -/
def Mach.admitCopies (m : Mach) (q : Nat) : List Bool :=
  if (m.queue q).j then m.copiesFor (q / 2048) (m.mirrorsNow q) else (m.copiesFor (q / 2048) false).take 1

/-- The record that an admission appends. -/
def Mach.admitted (m : Mach) (q : Nat) (r0 : LRec) : LRec :=
  { r0 with
    seq := (m.queue q).next, st := .admitted, vqf := (m.queue q).vqf
    pbuf := if 192 < r0.data.length then m.freeBuf (q / 2048) else none
    partner := if m.mirrorsNow q then Ack.awaited else Ack.none
    copyB := (m.queue q).j && decide ((m.admitCopies q).length = 2) }

/-- The queue of an admission with its record. -/
def Mach.admitQueue (m : Mach) (q : Nat) (r0 : LRec) : Queue :=
  { m.queue q with next := ((m.queue q).next + 1) % 2 ^ 48, recs := (m.queue q).recs ++ [m.admitted q r0] }

/-- An admission appends its record to its queue and leaves every other queue. -/
theorem admitRec_lists : (m.admitRec q r0).Lists (m.setQueue q (m.admitQueue q r0)).queues m.handovers := by
  have hset : (m.setQueue q (m.admitQueue q r0)).Lists (m.setQueue q (m.admitQueue q r0)).queues m.handovers := ⟨rfl, rfl⟩
  unfold Mach.admitRec
  extract_lets e x n mirrored cs buf r v m1 m2 m3 m4 _ m5
  have h2 : m2.Lists (m.setQueue q (m.admitQueue q r0)).queues m.handovers :=
    setVqf_lists _ _ _ (ite_lists (lists_of_rest hset fun _ hx => epnSend_rest _ hx) hset)
  have h3 : m3.Lists (m.setQueue q (m.admitQueue q r0)).queues m.handovers := countUncore_lists _ _ _ h2
  have h4 : m4.Lists (m.setQueue q (m.admitQueue q r0)).queues m.handovers := ite_lists (countUncore_lists _ _ _ h3) h3
  have h5 : m5.Lists (m.setQueue q (m.admitQueue q r0)).queues m.handovers := by
    rcases Option.eq_none_or_eq_some buf with hb | ⟨i, hb⟩
    · have : m5 = m4 := by simp only [m5, hb]
      rw [this]
      exact h4
    · simp only [m5, hb]
      exact lists_of_rest (setEngine_lists _ _ h4) fun _ hx => putPayload_rest _ _ _ _ _ hx
  exact ite_lists (appendEntry_lists _ _ _ _ _ h5) h5

end

/-- A queue of a machine with the queues of another. -/
theorem queue_of_queues {t u : Mach} (h : t.queues = u.queues) (q : Nat) : t.queue q = u.queue q :=
  congrArg (fun qs => Tab.get Queue.reset qs q) h

section
variable {m : Mach} {px : Nat} {h : Handover} (hh : m.firstHeld px = some h) (hr : m.raiseHolds h.queue = false)
include hh hr

theorem recordAdmit_refused {k : Nat} (hk : m.refuseCause h.queue h.bytes.length = some k) : m.recordAdmit px =
    (({ m with handovers := dropFirst px m.handovers } : Mach).refuseFrame h k).pfcUpdate h.port := by
  have hk' : ({ m with handovers := dropFirst px m.handovers } : Mach).refuseCause h.queue h.bytes.length = some k := hk
  unfold Mach.recordAdmit
  simp only [hh, hr, Bool.false_eq_true, if_false, hk']

theorem recordAdmit_admits (hk : m.refuseCause h.queue h.bytes.length = none) : m.recordAdmit px =
    (({ m with handovers := dropFirst px m.handovers } : Mach).admitRec h.queue h.record).pfcUpdate h.port := by
  have hk' : ({ m with handovers := dropFirst px m.handovers } : Mach).refuseCause h.queue h.bytes.length = none := hk
  unfold Mach.recordAdmit
  simp only [hh, hr, Bool.false_eq_true, if_false, hk']

end

/-! ### Changes of a record's state -/

section
variable (m : Mach)

theorem stopCheck_recs (q k : Nat) : ((m.stopCheck q).queue k).recs = (m.queue k).recs := by
  unfold Mach.stopCheck
  simp only []
  split
  · rw [queue_setQueue]
    split
    · next h => rw [h]
    · rfl
  · rfl

theorem vqfEvent_queue (e v k : Nat) : (m.vqfEvent e v).queue k = m.queue k := by
  unfold Mach.vqfEvent
  simp only []
  split
  · exact raiseAssigned_same (·.queue k) (fun _ _ => rfl) (fun _ _ => rfl) m _
  · rfl

theorem freezeCheck_recs (e v k : Nat) : ((m.freezeCheck e v).queue k).recs = (m.queue k).recs := by
  unfold Mach.freezeCheck
  simp only []
  split
  · rfl
  · rw [vqfEvent_queue]
    refine foldl_keeps (P := fun t : Mach => (t.queue k).recs = (m.queue k).recs) _ _ rfl fun t ht p => ?_
    split
    · exact ht
    · rw [queue_setQueue]
      split
      · next h =>
        rw [h] at ht
        rw [h]
        exact ht
      · exact ht

/-- A tick of a queue leaves the records of every queue. -/
theorem queueTick_recs (q k : Nat) : ((m.queueTick q).queue k).recs = (m.queue k).recs :=
  (freezeCheck_recs _ _ _ k).trans (stopCheck_recs m q k)

theorem vqfEvent_pair (e v : Nat) : (m.vqfEvent e v).pair = m.pair := by
  unfold Mach.vqfEvent
  simp only []
  split
  · exact raiseAssigned_same (·.pair) (fun _ _ => rfl) (fun _ _ => rfl) m _
  · rfl

theorem queueTick_pair (q : Nat) : (m.queueTick q).pair = m.pair := by
  have hstop : (m.stopCheck q).pair = m.pair := by
    unfold Mach.stopCheck
    simp only []
    split <;> rfl
  unfold Mach.queueTick Mach.freezeCheck
  simp only []
  split
  · exact hstop
  · rw [vqfEvent_pair]
    refine foldl_keeps (P := fun t : Mach => t.pair = m.pair) _ _ hstop fun t ht p => ?_
    split
    · exact ht
    · exact ht

theorem raiseTick_idle {m : Mach} (h : m.pair.raising = false) : m.raiseTick = m := by
  unfold Mach.raiseTick
  rw [h]
  rfl

theorem freeEntries_queue (e k : Nat) : (m.freeEntries e).queue k = m.queue k := by
  unfold Mach.freeEntries
  simp only []
  split <;> rfl

theorem freeBufs_queue (e : Nat) (bs : List Nat) (k : Nat) : (m.freeBufs e bs).queue k = m.queue k := by
  unfold Mach.freeBufs
  split <;> rfl

end

section
variable {m : Mach} {q n : Nat} {r : LRec} (hr : (m.queue q).rec? n = some r)
include hr

theorem recordAccept_accepts (hs : r.st = .admitted) (hp : r.partner ≠ .awaited) : m.recordAccept q n =
    (m.modRec q n (fun r => { r with st := .accepted, atime := m.dt })).queueTick q := by
  unfold Mach.recordAccept
  simp only [hr]
  exact if_pos ⟨hs, hp⟩

theorem recordAccept_waits (h : r.st ≠ .admitted ∨ r.partner = .awaited) : m.recordAccept q n = m := by
  unfold Mach.recordAccept
  simp only [hr]
  refine if_neg fun ⟨hs, hp⟩ => ?_
  rcases h with h | h
  · exact h hs
  · exact hp h

theorem recordSent_waits (h : ∃ o ∈ r.outs, 0 < o.left) : m.recordSent q n = m := by
  unfold Mach.recordSent
  simp only [hr]
  refine if_pos (.inr ?_)
  obtain ⟨o, ho, hl⟩ := h
  exact List.any_eq_true.mpr ⟨o, ho, decide_eq_true hl⟩

theorem recordSent_ends (hs : r.st = .released) (h : ∀ o ∈ r.outs, o.left = 0) : ((m.recordSent q n).queue q).rec? n = none := by
  have hany : r.outs.any (fun o => decide (0 < o.left)) = false :=
    List.any_eq_false.mpr fun o ho => by rw [h o ho]; decide
  unfold Mach.recordSent
  simp only [hr, hs, hany, ne_eq, not_true_eq_false, Bool.false_eq_true, or_self, if_false]
  unfold Queue.rec?
  rw [queueTick_recs, freeEntries_queue, queue_setQueue, if_pos rfl]
  exact List.find?_eq_none.mpr fun z hz => by simpa using (List.mem_filter.mp hz).2

/-- A record in the list of changed ones. -/
theorem rec?_modRec {f : LRec → LRec} (hf : ∀ z, (f z).seq = z.seq) : ((m.modRec q n f).queue q).rec? n = some (f r) := by
  unfold Mach.modRec Queue.modRec Queue.rec?
  rw [queue_setQueue, if_pos rfl]
  have hseq : r.seq = n := by
    have := List.find?_some hr
    exact of_decide_eq_true this
  have hcomp : ((fun z : LRec => decide (z.seq = n)) ∘ fun z => if z.seq = n then f z else z) = fun z => decide (z.seq = n) := by
    funext z
    simp only [Function.comp]
    split
    · next h => rw [hf, h]
    · rfl
  rw [List.find?_map, hcomp]
  have hfind : (m.queue q).recs.find? (fun z => decide (z.seq = n)) = some r := hr
  rw [hfind]
  simp only [Option.map_some, hseq, if_true]

/-- A record handed back is DELIVERED with H. -/
theorem handBack_rec (hs : r.st = .taken) : ((m.handBack q n false).queue q).rec? n = some r.back := by
  unfold Mach.handBack
  simp only [hr, hs, ne_eq, not_true_eq_false, if_false, Bool.false_eq_true]
  have hsame : (match r.pair with | some i => m | none => m) = m := by cases r.pair <;> rfl
  refine rec?_modRec (f := LRec.back) ?_ fun _ => rfl
  rw [freeBufs_queue]
  cases hp : r.pair <;> exact hr

end

/-! ### Delivery (R397) -/

section
variable {m : Mach} {q : Nat} {r : LRec}

theorem enginePa_plain {a : Nat} (h : bit (m.vqf (q / 2048) (m.queue q).vqf).cfg 11 = false) : m.enginePa q a = some (a, m) := by
  unfold Mach.enginePa
  simp only [h, Bool.not_false, if_true]

theorem recordDeliver_not (h : m.delivers q = false) (bad : Nat) (pb : Bool) : m.recordDeliver q bad pb = m := by
  unfold Mach.recordDeliver
  simp only [h, Bool.not_false, if_true]

theorem recordDeliver_delivers (hd : m.delivers q = true) (hn : (m.queue q).nextDeliver = some r)
    (ht : bit (m.vqf (q / 2048) (m.queue q).vqf).cfg 11 = false) (hc : m.carveOf (m.queue q).ring = none) (hj : (m.queue q).j = false)
    (hb : bit (m.queue q).w0 36 = false) (pb : Bool) : m.recordDeliver q 0 pb =
      (((m.writeSlot (queueStop q) (m.queue q).ring (m.queue q).slots r.seq (m.slotWords q r false)).modRec q r.seq
        (fun _ => { r with st := .delivered })).countUncore (queueStop q) (.plain 0x262) 1).queueTick q := by
  unfold Mach.recordDeliver
  simp only [hd, Bool.not_true, Bool.false_eq_true, if_false, hn, enginePa_plain ht, hc, true_or, if_true, hb, hj]
  rfl

/-! ### Release (R398) -/

theorem recordRelease_marker (hn : (m.queue q).nextRelease = some r) (hm : r.marker = .awaited) : m.recordRelease q = m := by
  unfold Mach.recordRelease
  simp only [hn]
  rw [if_pos (.inl hm)]
  unfold Mach.sendMarker
  simp only [hn]
  refine if_neg fun ⟨_, h⟩ => ?_
  rw [hm] at h
  cases h

/-- The machine that counts a released record. -/
def Mach.markReleased (m : Mach) (q : Nat) (r : LRec) : Mach :=
  (m.modRec q r.seq (fun r => { r with st := .released })).countUncore (queueStop q) (.plain 0x264) 1

variable (hn : (m.queue q).nextRelease = some r) (hm : r.marker = .none) (hmir : m.mirrorsNow q = false) (hheld : (m.queue q).held = false)
  (hst : (m.queue q).st ≠ 3) (hph : m.phase = .run) (hj : (m.queue q).j = false)
include hn hm hmir hheld hst hph hj

theorem recordRelease_releases : m.recordRelease q =
    ((if r.outs.isEmpty then (r.outs.zipIdx.foldl (fun acc p => acc.releaseOut q r.seq p.2 p.1) (m.markReleased q r)).recordSent q r.seq
      else r.outs.zipIdx.foldl (fun acc p => acc.releaseOut q r.seq p.2 p.1) (m.markReleased q r)).queueTick q).sendMarker q := by
  unfold Mach.recordRelease
  simp only [hn]
  rw [if_neg (by simp [hm, hmir, hheld, hst, hph, hj])]
  simp only [hj, Bool.false_eq_true, if_false]
  rfl

end

/-- Settles O43: the queue that an admission leaves, and the step of a record at acceptance, delivery, release and its end. -/
theorem ledgerRecords : Obligations.LedgerRecords := by
  unfold Obligations.LedgerRecords
  refine ⟨?admission, ⟨?accept, ?deliver, ?release, ?sent, ?revoked, ?back⟩⟩
  case admission =>
    intro s px h hh hr m1
    refine ⟨fun k hk => congrArg (fun t => Host.Outcome.next (s.withM t)) (recordAdmit_refused hh hr hk), fun hk => ?_⟩
    have hlists := pfcUpdate_lists h.port (admitRec_lists m1 h.queue h.record)
    rw [← recordAdmit_admits hh hr hk] at hlists
    obtain ⟨hq, hho⟩ := hlists
    have hqueue : ∀ q, (s.m.recordAdmit px).queue q = if q = h.queue then m1.admitQueue h.queue h.record else s.m.queue q :=
      fun q => (queue_of_queues hq q).trans (queue_setQueue m1 h.queue q _)
    have hself := (hqueue h.queue).trans (if_pos rfl)
    refine ⟨s.m.recordAdmit px, m1.admitted h.queue h.record, rfl, hho, ?_, ?_, rfl, rfl, rfl, rfl, rfl, rfl, rfl, rfl,
      fun q hne => (hqueue q).trans (if_neg hne)⟩
    · rw [hself]
      rfl
    · rw [hself]
      rfl
  case accept =>
    intro s q n r hr hraise
    have hexec : exec (.recordAccept q n) s = .next (s.withM (s.m.recordAccept q n).raiseTick) := rfl
    refine ⟨fun hs hp => ?_, fun h => ?_⟩
    · rw [hexec, recordAccept_accepts hr hs hp, raiseTick_idle]
      rw [queueTick_pair]
      exact hraise
    · rw [hexec, recordAccept_waits hr h, raiseTick_idle hraise]
      exact congrArg Host.Outcome.next (withM_self s)
  case deliver =>
    intro s q r pb x
    refine ⟨fun h => congrArg (fun t => Host.Outcome.next (s.withM t)) (recordDeliver_not h 0 pb), fun hd hn ht hc hj hb => ?_⟩
    exact congrArg (fun t => Host.Outcome.next (s.withM t)) (recordDeliver_delivers hd hn ht hc hj hb pb)
  case release =>
    intro s q r x m1 hn
    refine ⟨fun hm => congrArg (fun t => Host.Outcome.next (s.withM t)) (recordRelease_marker hn hm),
      fun hm hmir hheld hst hph hj => ⟨fun ho => ?_, fun ho => ?_⟩⟩
    · refine congrArg (fun t => Host.Outcome.next (s.withM t)) ((recordRelease_releases hn hm hmir hheld hst hph hj).trans ?_)
      rw [if_pos (by rw [ho]; rfl), ho]
      rfl
    · refine congrArg (fun t => Host.Outcome.next (s.withM t)) ((recordRelease_releases hn hm hmir hheld hst hph hj).trans ?_)
      rw [if_neg (by simpa using ho)]
      rfl
  case sent =>
    intro s q n r hr hs
    exact ⟨fun h => congrArg (fun t => Host.Outcome.next (s.withM t)) (recordSent_waits hr h),
      fun h => ⟨s.m.recordSent q n, rfl, recordSent_ends hr hs h⟩⟩
  case revoked =>
    intro s q i
    have hexec : exec (.recordPairRevoked q i) s = .next (s.withM
        (match (s.m.queue q).recs.find? (fun r => decide (r.pair = some i)) with
        | some r => (s.m.handBack q r.seq false).queueTick q
        | none => s.m)) := rfl
    refine ⟨fun r hr => ?_, fun h => ?_⟩
    · rw [hexec, hr]
    · rw [hexec, List.find?_eq_none.mpr fun r hr => by simpa using h r hr]
      exact congrArg Host.Outcome.next (withM_self s)
  case back =>
    intro m q n r hr hs
    exact handBack_rec hr hs

end Sys2Proof.Machine

/-! SUPPORT. The pair (R423, R424, R429): its registers, what a frame on a link and the entry into a state leave alone, and the links that are up. -/

namespace Sys2Proof.Machine

/-! ### Registers of the engines -/

theorem leStop_cases (l : Nat) : leStop l = 6 ∨ leStop l = 49 := by
  unfold leStop
  split
  · exact .inl rfl
  · exact .inr rfl

/-- Two registers of ledger engines that differ in window or offset. -/
theorem leKey_ne {l l' k k' off off' : Nat} (hk : k < 256) (hk' : k' < 256) (ho : off / 8 < 512) (ho' : off' / 8 < 512)
    (h : k ≠ k' ∨ off / 8 ≠ off' / 8) : cellKey (leStop l) k off ≠ cellKey (leStop l') k' off' := by
  unfold cellKey
  rcases leStop_cases l with h1 | h1 <;> rcases leStop_cases l' with h2 | h2 <;> rw [h1, h2] <;> omega

/-- A register of an engine is not the event router's. -/
theorem leKey_ne_router (l k off : Nat) : cellKey (leStop l) k off ≠ cellKey 0 0 0x620 := by
  unfold cellKey
  rcases leStop_cases l with h1 | h1 <;> rw [h1] <;> omega

/-- The two engines stand at two stops. -/
theorem leKey_other {l : Nat} (hl : l < 2) {k k' off off' : Nat} (hk : k < 256) (hk' : k' < 256) (ho : off / 8 < 512) (ho' : off' / 8 < 512) :
    cellKey (leStop (1 - l)) k off ≠ cellKey (leStop l) k' off' := by
  unfold cellKey leStop
  split <;> split <;> omega

section
variable (m : Mach)

theorem setPairFld_reg {l k off : Nat} (lo n x : Nat) (hk : k < 256) (ho : off / 8 < 512) (h : k ≠ 1 ∨ off / 8 ≠ 18) :
    (m.setPairFld lo n x).reg (leStop l) k off = m.reg (leStop l) k off :=
  reg_setReg_ne _ _ (leKey_ne hk (by omega) ho (by omega) h)

theorem setPairFld_status (lo n x : Nat) : (m.setPairFld lo n x).pairReg 0x90 = setFld (m.pairReg 0x90) lo n x := reg_setReg_self _ _ _ _ _

theorem pairState_of_reg {t : Mach} (h : t.reg (leStop 0) 1 0x90 = m.reg (leStop 0) 1 0x90) : t.pairState = m.pairState :=
  congrArg (fld · 0 3) h

theorem epnUp_of_regs {m t : Mach} {l : Nat} (h40 : t.reg (leStop l) 1 0x40 = m.reg (leStop l) 1 0x40)
    (h48 : t.reg (leStop l) 1 0x48 = m.reg (leStop l) 1 0x48) : t.epnUp l = m.epnUp l := by
  unfold Mach.epnUp Mach.regFld
  rw [h40, h48]

/-! ### Links that are up -/

variable {m}

theorem linksUp_one {l : Nat} (hl : l < 2) (hd : m.epnUp l = false) (hu : m.epnUp (1 - l) = true) : m.linksUp = 1 := by
  have h2 : l = 0 ∨ l = 1 := by omega
  unfold Mach.linksUp
  rcases h2 with rfl | rfl <;> simp_all

theorem linksUp_two {l : Nat} (hl : l < 2) (hd : m.epnUp l = true) (hu : m.epnUp (1 - l) = true) : m.linksUp = 2 := by
  have h2 : l = 0 ∨ l = 1 := by omega
  unfold Mach.linksUp
  rcases h2 with rfl | rfl <;> simp_all

/-! ### Links of the pair's record -/

theorem link_setLink_self (p : PairRt) (l : Nat) (r : LinkRt) : (p.setLink l r).link l = r := by
  unfold PairRt.setLink PairRt.link
  split <;> rfl

theorem link_setLink_other (p : PairRt) {l : Nat} (hl : l < 2) (r : LinkRt) : (p.setLink (1 - l) r).link l = p.link l := by
  have h2 : l = 0 ∨ l = 1 := by omega
  rcases h2 with rfl | rfl <;> rfl

theorem link_setLink_of_other (p : PairRt) {l : Nat} (hl : l < 2) (r : LinkRt) : (p.setLink l r).link (1 - l) = p.link (1 - l) := by
  have h2 : l = 0 ∨ l = 1 := by omega
  rcases h2 with rfl | rfl <;> rfl

theorem setLink_seen (p : PairRt) (l : Nat) (r : LinkRt) : (p.setLink l r).seen = p.seen := by
  unfold PairRt.setLink
  split <;> rfl

/-! ### Entering a state -/

/-- JOINING, PAIRED and DEGRADED, which end no mirroring. -/
def keepsMirror (s : Nat) : Prop := s = 1 ∨ s = 2 ∨ s = 3

theorem setPair_enters {s : Nat} (h : m.pairState ≠ s) (hs : keepsMirror s) (fault : Bool) : m.setPair s fault =
    if fault then ((m.setPairFld 0 3 s).raiseEvent 788).raiseOwn (leStop 0) 5 none else (m.setPairFld 0 3 s).raiseEvent 788 := by
  have h0 : ¬ (s = 0 ∨ s = 4 ∨ s = 5) := by
    rcases hs with rfl | rfl | rfl <;> decide
  unfold Mach.setPair
  rw [if_neg h]
  exact if_neg h0

/-- What the entry into such a state leaves alone. -/
theorem setPair_keeps {α : Type} (f : Mach → α) (hev : ∀ (m : Mach) l, f { m with evPend := l } = f m)
    (hreg : ∀ (m : Mach) lo, f (m.countReg 0 0 0x620 lo 32 1) = f m) (hrep : ∀ (m : Mach) r, f (m.report r) = f m)
    (hset : ∀ (m : Mach) x, f (m.setPairFld 0 3 x) = f m) {s : Nat} (hs : keepsMirror s) (fault : Bool) : f (m.setPair s fault) = f m := by
  by_cases h : m.pairState = s
  · unfold Mach.setPair
    rw [if_pos h]
  · have hbase : f ((m.setPairFld 0 3 s).raiseEvent 788) = f m := (raiseEvent_same f hev hreg _ _).trans (hset _ _)
    rw [setPair_enters h hs]
    split
    · exact (hrep _ _).trans hbase
    · exact hbase

theorem setPair_pair {s : Nat} (hs : keepsMirror s) (fault : Bool) : (m.setPair s fault).pair = m.pair :=
  setPair_keeps (·.pair) (fun _ _ => rfl) (fun _ _ => rfl) (fun _ _ => rfl) (fun _ _ => rfl) hs fault

theorem setPair_reg {s : Nat} (hs : keepsMirror s) (fault : Bool) {l k off : Nat} (hk : k < 256) (ho : off / 8 < 512)
    (h : k ≠ 1 ∨ off / 8 ≠ 18) : (m.setPair s fault).reg (leStop l) k off = m.reg (leStop l) k off :=
  setPair_keeps (·.reg (leStop l) k off) (fun _ _ => rfl) (fun _ _ => reg_setReg_ne _ _ (leKey_ne_router _ _ _)) (fun _ _ => rfl)
    (fun m x => setPairFld_reg m 0 3 x hk ho h) hs fault

theorem setPair_epnUp {s : Nat} (hs : keepsMirror s) (fault : Bool) (l : Nat) : (m.setPair s fault).epnUp l = m.epnUp l :=
  epnUp_of_regs (setPair_reg hs fault (by omega) (by omega) (.inr (by omega))) (setPair_reg hs fault (by omega) (by omega) (.inr (by omega)))

/-- The bits of the status beside the state. -/
theorem setPair_status {s : Nat} (hs : keepsMirror s) (fault : Bool) {lo n : Nat} (hlo : 3 ≤ lo) (hn : lo + n ≤ 64) :
    fld ((m.setPair s fault).pairReg 0x90) lo n = fld (m.pairReg 0x90) lo n :=
  setPair_keeps (fun t => fld (t.pairReg 0x90) lo n) (fun _ _ => rfl)
    (fun m _ => congrArg (fld · lo n) (reg_setReg_ne m _ (leKey_ne_router 0 1 0x90))) (fun _ _ => rfl)
    (fun m x => by rw [setPairFld_status, fld_setFld_ne _ _ hn (by omega)]) hs fault

theorem setPair_state {s : Nat} (hs : keepsMirror s) (fault : Bool) : (m.setPair s fault).pairState = s := by
  by_cases h : m.pairState = s
  · unfold Mach.setPair
    rw [if_pos h]
    exact h
  · have hbase : ((m.setPairFld 0 3 s).raiseEvent 788).pairState = s := by
      refine (pairState_of_reg _ (raiseEvent_reg _ _ (leKey_ne_router 0 1 0x90))).trans ?_
      have hlt : s < 8 := by
        rcases hs with rfl | rfl | rfl <;> decide
      exact (congrArg (fld · 0 3) (setPairFld_status m 0 3 s)).trans ((fld_setFld_same _ _ (by omega)).trans (Nat.mod_eq_of_lt hlt))
    rw [setPair_enters h hs]
    split
    · exact hbase
    · exact hbase

end

/-! ### Numbered frames -/

section
variable (m : Mach)

theorem epnSend_reg (l st k off : Nat) : (m.epnSend l).reg st k off = m.reg st k off := rfl
theorem epnSend_epnUp (l k : Nat) : (m.epnSend l).epnUp k = m.epnUp k := rfl
theorem epnSend_pairState (l : Nat) : (m.epnSend l).pairState = m.pairState := rfl
theorem epnSend_queue (l q : Nat) : (m.epnSend l).queue q = m.queue q := rfl

/-- A frame of a link that is up takes that link's next number. -/
theorem epnSend_up {l : Nat} (hl : l < 2) (hu : m.epnUp l = true) : (m.epnSend l).pair = m.pair.setLink l
    { m.pair.link l with txNext := (m.pair.link l).txNext + 1, unacked := (m.pair.link l).unacked ++ [(m.pair.link l).txNext] } := by
  have hmod : l % 2 = l := Nat.mod_eq_of_lt hl
  unfold Mach.epnSend
  simp only [hu, Bool.not_true, Bool.false_and, Bool.false_eq_true, if_false, hmod]

end

end Sys2Proof.Machine

/-! SUPPORT. Frames and links of Epnis, and heartbeats (R422 to R424, R429, R437 to R439): what each leaves of the pair's record and registers. -/

namespace Sys2Proof.Machine

/-! ### Frames of a link (R423) -/

section
variable {m : Mach} {l : Nat}

/-- The machine that counts the corrected codewords of a frame. -/
def Mach.corrected (m : Mach) (l corr : Nat) : Mach := m.countReg (leStop l) 1 0x50 0 32 corr

variable (hu : m.epnUp l = true) (hp : m.phase = .run) (num corr : Nat) (b : EpBody)
include hu hp

theorem epnisIn_bad (ack nak : Option Nat) : m.epnisIn l num corr true ack nak b = m.corrected l corr := by
  unfold Mach.epnisIn
  rw [if_neg (by simp [hu, hp])]
  rfl

theorem epnisIn_other_number (h : num ≠ (m.pair.link l).rxNext) : m.epnisIn l num corr false none none b = m.corrected l corr := by
  unfold Mach.epnisIn
  rw [if_neg (by simp [hu, hp])]
  exact if_pos h

theorem epnisIn_ack (n : Nat) (h : num ≠ (m.pair.link l).rxNext) : m.epnisIn l num corr false (some n) none b =
    (m.corrected l corr).modPair (fun p => p.setLink l
      { m.pair.link l with unacked := (m.pair.link l).unacked.filter (fun k => decide (n < k)), retx := 0 }) := by
  unfold Mach.epnisIn
  rw [if_neg (by simp [hu, hp])]
  exact if_pos h

/-- The machine that has taken the next frame of a link. -/
def Mach.tookFrame (m : Mach) (l corr : Nat) : Mach :=
  (m.corrected l corr).modPair (fun p => p.setLink l { m.pair.link l with rxNext := (m.pair.link l).rxNext + 1 })

theorem epnisIn_next (h : num = (m.pair.link l).rxNext) : m.epnisIn l num corr false none none .other = m.tookFrame l corr := by
  unfold Mach.epnisIn
  rw [if_neg (by simp [hu, hp])]
  exact if_neg (not_not.mpr h)

theorem epnisIn_heartbeat (h : num = (m.pair.link l).rxNext) (hb : Heartbeat) :
    m.epnisIn l num corr false none none (.heartbeat hb) = (m.tookFrame l corr).heardOn l hb := by
  unfold Mach.epnisIn
  rw [if_neg (by simp [hu, hp])]
  exact if_neg (not_not.mpr h)

end

/-- What a heartbeat leaves of the pair's record. -/
theorem heardOn_pair (m : Mach) (i : Nat) (h : Heartbeat) (hi : i < 4) : (m.heardOn i h).pair.seen[i]? = some true ∧
    (m.heardOn i h).pair.partnerId = h.id ∧ (m.heardOn i h).pair.partnerState = h.state ∧
    ∀ l, (m.heardOn i h).pair.link l = m.pair.link l := by
  refine ⟨?_, rfl, rfl, fun l => rfl⟩
  change ((List.range 4).map (fun j => decide (j = i) || (m.pair.seen[j]?).getD false))[i]? = some true
  simp [hi]

/-! ### Links that are lost and gained (R422, R423, R429) -/

section
variable {m : Mach} {l : Nat}

theorem moveFrames_reg (st k off : Nat) : (m.moveFrames l).reg st k off = m.reg st k off := by
  unfold Mach.moveFrames
  simp only []
  split <;> rfl

theorem moveFrames_unacked (hl : l < 2) : ((m.moveFrames l).pair.link l).unacked = [] := by
  unfold Mach.moveFrames
  simp only []
  split
  · next h => exact List.isEmpty_iff.mp h
  · change ((PairRt.setLink _ (1 - l) _).link l).unacked = []
    rw [link_setLink_other _ hl, link_setLink_self]

theorem linkSrc_reg (k st w off : Nat) : (m.linkSrc k).reg st w off = m.reg st w off := rfl
theorem linkSrc_pair (k : Nat) : (m.linkSrc k).pair = m.pair := rfl

/-- In SOLO a change of the links changes no state. -/
theorem linkTick_solo (h : m.pairState = 0) : m.linkTick = m := by
  unfold Mach.linkTick
  simp [h]

theorem linkTick_degrades (h : m.pairState = 2) (hn : m.linksUp = 1) : m.linkTick = m.setPair 3 true := by
  unfold Mach.linkTick
  simp [h, hn]

theorem linkTick_pairs (h : m.pairState = 3) (hn : m.linksUp = 2) : m.linkTick = m.setPair 2 false := by
  unfold Mach.linkTick
  simp [h, hn]

/-- The status of a link that leaves UP. -/
def Mach.lostStatus (m : Mach) (l : Nat) : W64 :=
  setFld (setBit (setFld (m.reg (leStop l) 1 0x48) 0 2 (m.regFld (leStop l) 1 0x40 0 1)) 3 true) 16 16
    (min (fld (m.reg (leStop l) 1 0x48) 16 16 + 1) 0xFFFF)

theorem lostStatus_fields : fld (m.lostStatus l) 0 2 = m.regFld (leStop l) 1 0x40 0 1 ∧
    fld (m.lostStatus l) 16 16 = min (m.regFld (leStop l) 1 0x48 16 16 + 1) 0xFFFF := by
  have hlt : m.regFld (leStop l) 1 0x40 0 1 < 2 := fld_lt _ 0 1
  unfold Mach.lostStatus
  simp (disch := omega) only [fld_setFld_ne, fld_setFld_same, fld_setBit_ne]
  exact ⟨Nat.mod_eq_of_lt (by omega), Nat.mod_eq_of_lt (by omega)⟩

/-- The machine with the status of a link that left UP. -/
def Mach.linkNoted (m : Mach) (l : Nat) : Mach := m.setReg (leStop l) 1 0x48 (m.lostStatus l)

/-- The frames of a link that left UP go out on the other one. -/
def Mach.linkMoved (m : Mach) (l : Nat) : Mach :=
  if (m.linkNoted l).epnUp (1 - l) then (m.linkNoted l).moveFrames l else m.linkNoted l

theorem linkLost_down (h : m.regFld (leStop l) 1 0x48 0 2 ≠ 2) : m.linkLost l = m := if_pos h

theorem linkLost_up (h : m.regFld (leStop l) 1 0x48 0 2 = 2) : m.linkLost l = ((m.linkMoved l).linkSrc l).linkTick := if_neg (not_not.mpr h)

theorem linkMoved_reg (st k off : Nat) : (m.linkMoved l).reg st k off = (m.linkNoted l).reg st k off := by
  unfold Mach.linkMoved
  split
  · exact moveFrames_reg _ _ _
  · rfl

theorem linkMoved_status : (m.linkMoved l).reg (leStop l) 1 0x48 = m.lostStatus l :=
  (linkMoved_reg _ _ _).trans (reg_setReg_self _ _ _ _ _)

theorem linkMoved_state : (m.linkMoved l).pairState = m.pairState :=
  pairState_of_reg _ ((linkMoved_reg _ _ _).trans (reg_setReg_ne _ _ (leKey_ne (by omega) (by omega) (by omega) (by omega) (.inr (by omega)))))

theorem linkMoved_srcState : ((m.linkMoved l).linkSrc l).pairState = m.pairState := linkMoved_state

theorem linkMoved_down (h40 : m.regFld (leStop l) 1 0x40 0 1 = 1) : (m.linkMoved l).epnUp l = false := by
  unfold Mach.epnUp Mach.regFld
  rw [linkMoved_status, lostStatus_fields.1, h40]
  simp

theorem linkNoted_other (hl : l < 2) : (m.linkNoted l).epnUp (1 - l) = m.epnUp (1 - l) :=
  epnUp_of_regs (reg_setReg_ne _ _ (leKey_other hl (by omega) (by omega) (by omega) (by omega)))
    (reg_setReg_ne _ _ (leKey_other hl (by omega) (by omega) (by omega) (by omega)))

theorem linkMoved_other (hl : l < 2) : (m.linkMoved l).epnUp (1 - l) = m.epnUp (1 - l) :=
  (epnUp_of_regs (linkMoved_reg _ _ _) (linkMoved_reg _ _ _)).trans (linkNoted_other hl)

/-- Lost in SOLO. -/
theorem linkLost_solo (h : m.regFld (leStop l) 1 0x48 0 2 = 2) (hs : m.pairState = 0) :
    (m.linkLost l).reg (leStop l) 1 0x48 = m.lostStatus l := by
  rw [linkLost_up h, linkTick_solo (linkMoved_srcState.trans hs), linkSrc_reg, linkMoved_status]

theorem epnUp_regs (h : m.epnUp l = true) : m.regFld (leStop l) 1 0x40 0 1 = 1 ∧ m.regFld (leStop l) 1 0x48 0 2 = 2 := by
  unfold Mach.epnUp at h
  simpa using h

/-- Lost while the other link is up: a PAIRED device is DEGRADED. -/
theorem linkLost_degrades (hl : l < 2) (hu : m.epnUp l = true) (ho : m.epnUp (1 - l) = true) (hs : m.pairState = 2) :
    (m.linkLost l).epnUp l = false ∧ (m.linkLost l).epnUp (1 - l) = true ∧ (m.linkLost l).pairState = 3 ∧
      ((m.linkLost l).pair.link l).unacked = [] := by
  obtain ⟨h40, h48⟩ := epnUp_regs hu
  have hd : ((m.linkMoved l).linkSrc l).epnUp l = false := linkMoved_down h40
  have hup : ((m.linkMoved l).linkSrc l).epnUp (1 - l) = true := (linkMoved_other hl).trans ho
  have hm : m.linkMoved l = (m.linkNoted l).moveFrames l := if_pos ((linkNoted_other hl).trans ho)
  rw [linkLost_up h48, linkTick_degrades (linkMoved_srcState.trans hs) (linksUp_one hl hd hup)]
  refine ⟨(setPair_epnUp (.inr (.inr rfl)) _ _).trans hd, (setPair_epnUp (.inr (.inr rfl)) _ _).trans hup,
    setPair_state (.inr (.inr rfl)) _, ?_⟩
  rw [setPair_pair (.inr (.inr rfl)), linkSrc_pair, hm]
  exact moveFrames_unacked hl

/-- The machine with the status of a link that is up. -/
def Mach.linkNotedUp (m : Mach) (l : Nat) : Mach :=
  (m.setRegFld (leStop l) 1 0x48 0 2 2).setRegFld (leStop l) 1 0x48 2 1 (fld (m.pairReg 0x90) 3 1)

/-- The frames that waited for a link go out on it. -/
def Mach.linkTaken (m : Mach) (l : Nat) : Mach :=
  if (m.linkNotedUp l).epnUp (1 - l) then m.linkNotedUp l else (m.linkNotedUp l).moveFrames (1 - l)

theorem linkTaken_reg (st k off : Nat) : (m.linkTaken l).reg st k off = (m.linkNotedUp l).reg st k off := by
  unfold Mach.linkTaken
  split
  · rfl
  · exact moveFrames_reg _ _ _

theorem linkNotedUp_reg {st k off : Nat} (h : cellKey st k off ≠ cellKey (leStop l) 1 0x48) :
    (m.linkNotedUp l).reg st k off = m.reg st k off :=
  (reg_setReg_ne _ _ h).trans (reg_setReg_ne _ _ h)

theorem linkTaken_pairReg {off : Nat} (ho : off / 8 < 512) (h : off / 8 ≠ 9) : (m.linkTaken l).pairReg off = m.pairReg off :=
  (linkTaken_reg _ _ _).trans (linkNotedUp_reg (leKey_ne (by omega) (by omega) ho (by omega) (.inr (by omega))))

theorem linkTaken_up (h40 : m.regFld (leStop l) 1 0x40 0 1 = 1) : (m.linkTaken l).epnUp l = true := by
  have h40' : (m.linkTaken l).reg (leStop l) 1 0x40 = m.reg (leStop l) 1 0x40 :=
    (linkTaken_reg _ _ _).trans (linkNotedUp_reg (leKey_ne (by omega) (by omega) (by omega) (by omega) (.inr (by omega))))
  have h48' : (m.linkTaken l).reg (leStop l) 1 0x48 =
      setFld (setFld (m.reg (leStop l) 1 0x48) 0 2 2) 2 1 (fld (m.pairReg 0x90) 3 1) := by
    rw [linkTaken_reg]
    exact (reg_setReg_self _ _ _ _ _).trans (by rw [Mach.setRegFld, reg_setReg_self])
  unfold Mach.regFld at h40
  unfold Mach.epnUp Mach.regFld
  rw [h40', h48', h40, fld_setFld_ne _ _ (by omega) (by omega), fld_setFld_same _ _ (by omega)]
  rfl

theorem linkTaken_other (hl : l < 2) : (m.linkTaken l).epnUp (1 - l) = m.epnUp (1 - l) :=
  epnUp_of_regs
    ((linkTaken_reg _ _ _).trans (linkNotedUp_reg (leKey_other hl (by omega) (by omega) (by omega) (by omega))))
    ((linkTaken_reg _ _ _).trans (linkNotedUp_reg (leKey_other hl (by omega) (by omega) (by omega) (by omega))))

theorem linkTaken_relinks (h : m.pair.relinks = []) : (m.linkTaken l).pair.relinks = [] := by
  have hset : ∀ (p : PairRt) k r, (p.setLink k r).relinks = p.relinks := fun p k r => by
    unfold PairRt.setLink
    split <;> rfl
  unfold Mach.linkTaken Mach.moveFrames
  simp only []
  split
  · exact h
  · split
    · exact h
    · change (PairRt.setLink (PairRt.setLink _ _ _) _ _).relinks = []
      rw [hset, hset]
      exact h

theorem linkGained_gains (ha : m.answers (leStop l) 1 = true) (h40 : m.regFld (leStop l) 1 0x40 0 1 = 1) (hd : m.epnUp l = false)
    (hp : m.phase = .run) : m.linkGained l =
      if ((((m.linkTaken l).linkSrc l).linkTick).autoJoin).pair.relinks.head? = some l then
        ((((m.linkTaken l).linkSrc l).linkTick.autoJoin).modPair (fun p => { p with relinks := p.relinks.drop 1 })).relink
      else ((m.linkTaken l).linkSrc l).linkTick.autoJoin := by
  have h48 : m.regFld (leStop l) 1 0x48 0 2 ≠ 2 := by
    intro h
    unfold Mach.epnUp at hd
    rw [h40, h] at hd
    cases hd
  unfold Mach.linkGained
  exact if_neg (by simp [ha, h40, h48, hp])

theorem autoJoin_off (h : bit (m.pairReg 0x80) 0 = false) : m.autoJoin = m := by
  unfold Mach.autoJoin
  rw [h]
  simp

/-- A device that is neither in SOLO nor FENCED does not join. -/
theorem autoJoin_paired (h : m.pairState = 2) : m.autoJoin = m := by
  unfold Mach.autoJoin Mach.canJoin
  rw [h]
  simp

/-- Gained in SOLO without AUTOJOIN. -/
theorem linkGained_solo (ha : m.answers (leStop l) 1 = true) (h40 : m.regFld (leStop l) 1 0x40 0 1 = 1) (hd : m.epnUp l = false)
    (hp : m.phase = .run) (hr : m.pair.relinks = []) (hs : m.pairState = 0) (hj : bit (m.pairReg 0x80) 0 = false) :
    (m.linkGained l).epnUp l = true ∧ (m.linkGained l).pairState = 0 := by
  have hst : ((m.linkTaken l).linkSrc l).pairState = 0 := (pairState_of_reg _ (linkTaken_pairReg (off := 0x90) (by omega) (by omega))).trans hs
  have hcfg : bit (((m.linkTaken l).linkSrc l).pairReg 0x80) 0 = false := by
    change bit ((m.linkTaken l).pairReg 0x80) 0 = false
    rw [linkTaken_pairReg (by omega) (by omega)]
    exact hj
  rw [linkGained_gains ha h40 hd hp, linkTick_solo hst, autoJoin_off hcfg, linkSrc_pair, linkTaken_relinks hr, if_neg (by simp)]
  exact ⟨linkTaken_up h40, hst⟩

/-- Gained beside the other link: a DEGRADED device is PAIRED. -/
theorem linkGained_pairs (hl : l < 2) (ha : m.answers (leStop l) 1 = true) (h40 : m.regFld (leStop l) 1 0x40 0 1 = 1)
    (hd : m.epnUp l = false) (hp : m.phase = .run) (hr : m.pair.relinks = []) (hs : m.pairState = 3) (ho : m.epnUp (1 - l) = true) :
    (m.linkGained l).epnUp l = true ∧ (m.linkGained l).pairState = 2 := by
  have hst : ((m.linkTaken l).linkSrc l).pairState = 3 := (pairState_of_reg _ (linkTaken_pairReg (off := 0x90) (by omega) (by omega))).trans hs
  have hup : ((m.linkTaken l).linkSrc l).epnUp l = true := linkTaken_up h40
  have hoth : ((m.linkTaken l).linkSrc l).epnUp (1 - l) = true := (linkTaken_other hl).trans ho
  have hk : keepsMirror 2 := .inr (.inl rfl)
  rw [linkGained_gains ha h40 hd hp, linkTick_pairs hst (linksUp_two hl hup hoth), autoJoin_paired (setPair_state hk _), setPair_pair hk,
    linkSrc_pair, linkTaken_relinks hr, if_neg (by simp)]
  exact ⟨(setPair_epnUp hk _ _).trans hup, setPair_state hk _⟩

end

/-! ### The pair-sense channel (R424) -/

section
variable {m : Mach}

/-- Where PSUP already follows the pairs nothing changes. -/
theorem psupTick_same (l : Nat) (h : (bit (m.reg (leStop 0) 2 0x40) 0 || bit (m.reg (leStop 1) 2 0x40) 0) = m.psup) : m.psupTick l = m :=
  if_pos h

/-- The machine that heard a heartbeat on a pair, before PSUP follows. -/
def Mach.psNoted (m : Mach) (p : Nat) (h : Heartbeat) : Mach :=
  ((m.heardOn (2 + p) h).setRegFld (leStop p) 2 0x40 1 1 (if h.leaving then 1 else 0)).setRegFld (leStop p) 2 0x40 0 1 1

theorem psNoted_reg (p : Nat) (h : Heartbeat) : (m.psNoted p h).reg (leStop p) 2 0x40 =
    setFld (setFld (m.reg (leStop p) 2 0x40) 1 1 (if h.leaving then 1 else 0)) 0 1 1 := by
  refine (reg_setReg_self _ _ _ _ _).trans ?_
  rw [Mach.setRegFld, reg_setReg_self]
  rfl

theorem psNoted_bits (p : Nat) (h : Heartbeat) : bit ((m.psNoted p h).reg (leStop p) 2 0x40) 0 = true ∧
    bit ((m.psNoted p h).reg (leStop p) 2 0x40) 1 = h.leaving := by
  rw [psNoted_reg]
  refine ⟨?_, ?_⟩
  · rw [bit, getLsbD_setFld _ _ _ _ _ (by omega), if_pos (by omega)]
    rfl
  · rw [bit, getLsbD_setFld _ _ _ _ _ (by omega), if_neg (by omega), getLsbD_setFld _ _ _ _ _ (by omega), if_pos (by omega)]
    cases h.leaving <;> rfl

theorem psNoted_psup (p : Nat) (h : Heartbeat) : (m.psNoted p h).psup = m.psup :=
  congrArg (bit · 15) ((reg_setReg_ne _ _ (leKey_ne (by omega) (by omega) (by omega) (by omega) (.inl (by omega)))).trans
    (reg_setReg_ne _ _ (leKey_ne (by omega) (by omega) (by omega) (by omega) (.inl (by omega)))))

/-- A heartbeat on a pair while the channel is up. -/
theorem psHeard_up {p : Nat} (hp : p < 2) (h : Heartbeat) (hup : m.psup = true) : m.psHeard p h = m.psNoted p h := by
  have h0 := (psNoted_bits (m := m) p h).1
  refine psupTick_same p ?_
  change (bit ((m.psNoted p h).reg (leStop 0) 2 0x40) 0 || bit ((m.psNoted p h).reg (leStop 1) 2 0x40) 0) = (m.psNoted p h).psup
  rw [psNoted_psup, hup]
  have h2 : p = 0 ∨ p = 1 := by omega
  rcases h2 with rfl | rfl
  · rw [h0, Bool.true_or]
  · rw [h0, Bool.or_true]

end

/-! ### Heartbeats that go out (R437) -/

section
variable {m : Mach}

/-- A frame on a link that is up, or none. -/
theorem sendUp_txNext {l k : Nat} (hl : l < 2) (hk : k < 2) : (((if m.epnUp l then m.epnSend l else m)).pair.link k).txNext =
    (m.pair.link k).txNext + if k = l ∧ m.epnUp l = true then 1 else 0 := by
  by_cases hu : m.epnUp l = true
  · rw [if_pos hu, epnSend_up m hl hu]
    by_cases hkl : k = l
    · subst hkl
      rw [link_setLink_self, if_pos ⟨rfl, hu⟩]
    · have hk1 : k = 1 - l := by omega
      rw [hk1, link_setLink_of_other _ hl, if_neg (by omega), Nat.add_zero]
  · rw [if_neg hu, if_neg fun h => hu h.2, Nat.add_zero]

theorem sendUp_epnUp (l k : Nat) : (if m.epnUp l then m.epnSend l else m).epnUp k = m.epnUp k := by
  split <;> rfl

/-- One frame goes out on each link that is up. -/
theorem sendOnLinks_txNext {l : Nat} (hl : l < 2) :
    (m.sendOnLinks.pair.link l).txNext = (m.pair.link l).txNext + if m.epnUp l then 1 else 0 := by
  unfold Mach.sendOnLinks
  rw [List.foldl_cons, List.foldl_cons, List.foldl_nil, sendUp_txNext (by omega) hl, sendUp_txNext (by omega) hl, sendUp_epnUp]
  have h2 : l = 0 ∨ l = 1 := by omega
  rcases h2 with rfl | rfl <;> simp

end

/-! ### The end of a period (R437, R438) -/

section
variable {m : Mach}

/-- Whether path `i` was heard in the period. -/
def Mach.heard (m : Mach) (i : Nat) : Bool := (m.pair.seen[i]?).getD false

/-- The counts of missed periods of one link and of one pair. -/
def Mach.missCounted (m : Mach) (l : Nat) : Mach :=
  let m1 := if m.heard l then m.setRegFld (leStop l) 1 0x48 32 8 0 else m.countReg (leStop l) 1 0x48 32 8 1
  if m.heard (2 + l) then m1.setRegFld (leStop l) 2 0x40 8 8 0 else m1.countReg (leStop l) 2 0x40 8 8 1

/-- Whatever no write of an engine's two registers changes is left by the counts of missed periods. -/
theorem missCounted_keeps {α : Type} (f : Mach → α) (l : Nat)
    (hset : ∀ (t : Mach) (k off : Nat) (v : W64), (k = 1 ∧ off = 0x48) ∨ (k = 2 ∧ off = 0x40) → f (t.setReg (leStop l) k off v) = f t) :
    f (m.missCounted l) = f m := by
  unfold Mach.missCounted
  simp only []
  have h1 : ∀ t : Mach, f t = f m → f (if m.heard (2 + l) then t.setRegFld (leStop l) 2 0x40 8 8 0 else t.countReg (leStop l) 2 0x40 8 8 1)
      = f m := fun t ht => by
    split
    · exact (hset _ _ _ _ (.inr ⟨rfl, rfl⟩)).trans ht
    · exact (hset _ _ _ _ (.inr ⟨rfl, rfl⟩)).trans ht
  refine h1 _ ?_
  split
  · exact hset _ _ _ _ (.inl ⟨rfl, rfl⟩)
  · exact hset _ _ _ _ (.inl ⟨rfl, rfl⟩)

theorem missCounted_reg (l : Nat) {l' k off : Nat} (hk : k < 256) (ho : off / 8 < 512) (h : ¬ (k = 1 ∧ off / 8 = 9))
    (h' : ¬ (k = 2 ∧ off / 8 = 8)) : (m.missCounted l).reg (leStop l') k off = m.reg (leStop l') k off :=
  missCounted_keeps (·.reg (leStop l') k off) l fun t k' off' v hcase => by
    rcases hcase with ⟨rfl, rfl⟩ | ⟨rfl, rfl⟩
    · exact reg_setReg_ne _ _ (leKey_ne hk (by omega) ho (by omega) (by omega))
    · exact reg_setReg_ne _ _ (leKey_ne hk (by omega) ho (by omega) (by omega))

theorem missCounted_pair (l : Nat) : (m.missCounted l).pair = m.pair := missCounted_keeps (·.pair) l fun _ _ _ _ _ => rfl
theorem missCounted_dt (l : Nat) : (m.missCounted l).dt = m.dt := missCounted_keeps (·.dt) l fun _ _ _ _ _ => rfl
theorem missCounted_phase (l : Nat) : (m.missCounted l).phase = m.phase := missCounted_keeps (·.phase) l fun _ _ _ _ _ => rfl

theorem missCounted_other {l l' : Nat} (hl : l < 2) (hl' : l' < 2) (hne : l' ≠ l) :
    (m.missCounted l).reg (leStop l') 2 0x40 = m.reg (leStop l') 2 0x40 := by
  obtain rfl : l' = 1 - l := by omega
  refine missCounted_keeps (·.reg (leStop (1 - l)) 2 0x40) l fun t k' off' v hcase => ?_
  rcases hcase with ⟨rfl, rfl⟩ | ⟨rfl, rfl⟩
  · exact reg_setReg_ne _ _ (leKey_other hl (by omega) (by omega) (by omega) (by omega))
  · exact reg_setReg_ne _ _ (leKey_other hl (by omega) (by omega) (by omega) (by omega))

/-- One more missed period of a pair that has fewer than 19 is no loss of the channel. -/
theorem missCounted_few {l : Nat} (h : m.regFld (leStop l) 2 0x40 8 8 < 19) : (m.missCounted l).regFld (leStop l) 2 0x40 8 8 < 20 := by
  have hreg : ∀ t : Mach, t.reg (leStop l) 2 0x40 = m.reg (leStop l) 2 0x40 →
      (if m.heard (2 + l) then t.setRegFld (leStop l) 2 0x40 8 8 0 else t.countReg (leStop l) 2 0x40 8 8 1).regFld (leStop l) 2 0x40 8 8 < 20 :=
    fun t ht => by
      split
      · unfold Mach.regFld Mach.setRegFld
        rw [reg_setReg_self, fld_setFld_same _ _ (by omega)]
        omega
      · unfold Mach.regFld Mach.countReg Mach.setRegFld Mach.regFld
        rw [reg_setReg_self, fld_setFld_same _ _ (by omega), ht]
        unfold Mach.regFld at h
        omega
  unfold Mach.missCounted
  refine hreg _ ?_
  split
  · exact reg_setReg_ne _ _ (leKey_ne (by omega) (by omega) (by omega) (by omega) (.inl (by omega)))
  · exact reg_setReg_ne _ _ (leKey_ne (by omega) (by omega) (by omega) (by omega) (.inl (by omega)))

theorem missOn_few {l : Nat} (h : m.regFld (leStop l) 2 0x40 8 8 < 19) : m.missOn l = m.missCounted l :=
  if_neg (Nat.not_le.mpr (missCounted_few h))

/-- The machine at the end of a period, with the missed periods counted. -/
def Mach.periodCounted (m : Mach) : Mach :=
  ((({ m with dt := (m.dt / 10000 + 1) * 10000 } : Mach).missCounted 0).missCounted 1).modPair (fun p => { p with
    seen := [false, false, false, false]
    epMiss := if m.heard 0 || m.heard 1 then 0 else p.epMiss + 1
    psMiss := if m.heard 2 || m.heard 3 then 0 else p.psMiss + 1 })

theorem periodEnd_counted (hp : m.phase = .run) (h : ∀ l, l < 2 → m.regFld (leStop l) 2 0x40 8 8 < 19) : m.periodEnd =
    if m.periodCounted.selfFences then m.periodCounted.caldera 3 0 false false
    else if 20 ≤ m.periodCounted.pair.psMiss ∧ (20 ≤ m.periodCounted.pair.epMiss ∨ m.periodCounted.pairState = 5) then
      m.periodCounted.partnerLost 1
    else m.periodCounted.autoJoin := by
  have h0 : ({ m with dt := (m.dt / 10000 + 1) * 10000 } : Mach).missOn 0 = ({ m with dt := (m.dt / 10000 + 1) * 10000 } : Mach).missCounted 0 :=
    missOn_few (h 0 (by omega))
  have h1 : (({ m with dt := (m.dt / 10000 + 1) * 10000 } : Mach).missCounted 0).missOn 1 =
      (({ m with dt := (m.dt / 10000 + 1) * 10000 } : Mach).missCounted 0).missCounted 1 := by
    refine missOn_few ?_
    rw [Mach.regFld, missCounted_other (by omega) (by omega) (by omega)]
    exact h 1 (by omega)
  unfold Mach.periodEnd
  rw [if_neg (by rw [hp]; decide), h0, h1]
  rfl

theorem periodCounted_pair : m.periodCounted.pair = { m.pair with
    seen := [false, false, false, false]
    epMiss := if m.heard 0 || m.heard 1 then 0 else m.pair.epMiss + 1
    psMiss := if m.heard 2 || m.heard 3 then 0 else m.pair.psMiss + 1 } := by
  unfold Mach.periodCounted Mach.modPair
  simp only [missCounted_pair]

theorem periodCounted_dt : m.periodCounted.dt = (m.dt / 10000 + 1) * 10000 := (missCounted_dt 1).trans (missCounted_dt 0)

theorem periodCounted_pairReg {off : Nat} (ho : off / 8 < 512) (h : off / 8 ≠ 9) : m.periodCounted.pairReg off = m.pairReg off := by
  refine (missCounted_reg 1 (l' := 0) (by omega) ho (by omega) (by omega)).trans ?_
  exact missCounted_reg 0 (l' := 0) (by omega) ho (by omega) (by omega)

theorem periodCounted_status : m.periodCounted.pairReg 0x90 = m.pairReg 0x90 := periodCounted_pairReg (by omega) (by omega)

theorem periodCounted_state : m.periodCounted.pairState = m.pairState := pairState_of_reg _ periodCounted_status

/-- A device joins of its own or stays as it is: the period's counts stand. -/
theorem autoJoin_keeps : m.autoJoin.dt = m.dt ∧ m.autoJoin.pair.seen = m.pair.seen ∧ m.autoJoin.pair.epMiss = m.pair.epMiss := by
  have hk : keepsMirror 1 := .inl rfl
  unfold Mach.autoJoin
  split
  · unfold Mach.joinBegin
    refine ⟨?_, ?_, ?_⟩
    · exact setPair_keeps (·.dt) (fun _ _ => rfl) (fun _ _ => rfl) (fun _ _ => rfl) (fun _ _ => rfl) hk false
    · rw [setPair_pair hk]
      rfl
    · rw [setPair_pair hk]
      rfl
  · exact ⟨rfl, rfl, rfl⟩

theorem mirroring_not_solo (h : m.pairState = 0) : m.mirroring = false := by
  unfold Mach.mirroring
  rw [h]
  rfl

theorem partnerLost_solo (h : m.pairState = 0) (why : Nat) : m.partnerLost why = m := by
  unfold Mach.partnerLost
  simp [h]

theorem partnerLost_mirroring (h : m.mirroring = true) (why : Nat) : m.partnerLost why = m.sendOnLinks.takeoverBegin why true := by
  unfold Mach.mirroring at h
  unfold Mach.partnerLost
  exact if_pos (by simpa using h)

/-- The end of a period in SOLO. -/
theorem periodEnd_solo (hp : m.phase = .run) (hs : m.pairState = 0) (h : ∀ l, l < 2 → m.regFld (leStop l) 2 0x40 8 8 < 19) :
    m.periodEnd = m.periodCounted ∨ m.periodEnd = m.periodCounted.autoJoin := by
  have hst : m.periodCounted.pairState = 0 := periodCounted_state.trans hs
  have hsf : m.periodCounted.selfFences = false := by
    unfold Mach.selfFences
    rw [mirroring_not_solo hst]
    rfl
  rw [periodEnd_counted hp h, hsf, if_neg Bool.false_ne_true]
  split
  · exact .inl (partnerLost_solo hst 1)
  · exact .inr rfl

/-- SELF_FENCE after ten missed periods on both paths. -/
theorem periodEnd_fences (hp : m.phase = .run) (hm : m.mirroring = true) (hid : m.pairId = true) (hf : m.fenceIn = false)
    (hl : m.pair.leftAt = none) (hseen : m.pair.seen = [false, false, false, false]) (he : 9 ≤ m.pair.epMiss) (hps : 9 ≤ m.pair.psMiss)
    (h : ∀ l, l < 2 → m.regFld (leStop l) 2 0x40 8 8 < 19) : m.periodEnd = m.periodCounted.caldera 3 0 false false := by
  have hheard : ∀ i, i < 4 → m.heard i = false := fun i hi => by
    unfold Mach.heard
    rw [hseen]
    have : ∀ i : Fin 4, (([false, false, false, false] : List Bool)[i.val]?).getD false = false := by decide
    exact this ⟨i, hi⟩
  have hmir : m.periodCounted.mirroring = true := by
    unfold Mach.mirroring at hm ⊢
    rw [periodCounted_state]
    exact hm
  have hid' : m.periodCounted.pairId = true := (congrArg (bit · 5) periodCounted_status).trans hid
  have hf' : m.periodCounted.fenceIn = false := (congrArg (bit · 6) periodCounted_status).trans hf
  have hsf : m.periodCounted.selfFences = true := by
    unfold Mach.selfFences
    rw [hmir, hid', hf', periodCounted_pair]
    simp only [hheard 0 (by omega), hheard 1 (by omega), hheard 2 (by omega), hheard 3 (by omega), hl]
    simp
    omega
  rw [periodEnd_counted hp h, hsf, if_pos rfl]

theorem caldera_phase (cause src : Nat) (sh inj : Bool) : (m.caldera cause src sh inj).phase = .caldera := by
  by_cases h : m.phase = .caldera
  · rw [caldera_again h]
    exact h
  · exact (caldera_leaves h _ rfl).1

end

/-- The commands of Epnis frames and links. -/
theorem exec_epnisFrameReceive {s : State} {l : Nat} (hl : l < 2) (num corr : Nat) (bad : Bool) (ack nak : Option Nat) (b : EpBody) :
    exec (.epnisFrameReceive l num corr bad ack nak b) s = .next (s.withM (s.m.epnisIn l num corr bad ack nak b)) := by
  change s.upd (fun m => if 2 ≤ l then m else m.epnisIn l num corr bad ack nak b) = _
  rw [upd_eq, if_neg (by omega)]

theorem exec_epnisLinkDown {s : State} {l : Nat} (hl : l < 2) : exec (.epnisLinkDown l) s = .next (s.withM (s.m.linkLost l)) := by
  change s.upd (fun m => if 2 ≤ l then m else m.linkLost l) = _
  rw [upd_eq, if_neg (by omega)]

theorem exec_epnisLinkUp {s : State} {l : Nat} (hl : l < 2) : exec (.epnisLinkUp l) s = .next (s.withM (s.m.linkGained l)) := by
  change s.upd (fun m => if 2 ≤ l then m else m.linkGained l) = _
  rw [upd_eq, if_neg (by omega)]

theorem exec_fenceCommandReceive {s : State} {path : Nat} (hp : path < 4) (hr : s.m.phase = .run) (id : Bool) :
    exec (.fenceCommandReceive path id) s = .next (s.withM (s.m.fenceCommand (path % 2) id)) := by
  change s.upd (fun m => if 4 ≤ path ∨ m.phase ≠ .run then m else m.fenceCommand (path % 2) id) = _
  rw [upd_eq, if_neg (by rw [hr]; simp; omega)]

theorem exec_fenceInAsserted {s : State} {t0 : Nat} (ht : s.m.pair.fenceAt = some t0) (hp : s.m.phase = .run) :
    exec .fenceInAsserted s = .next (s.withM (({ s.m with dt := max s.m.dt (t0 + 1000) } : Mach).partnerLost 2)) := by
  change Host.Outcome.next (s.withM (match s.m.pair.fenceAt with
    | some t => if s.m.phase ≠ .run then s.m else ({ s.m with dt := max s.m.dt (t + 1000) } : Mach).partnerLost 2
    | none => s.m)) = _
  rw [ht]
  exact congrArg (fun t => Host.Outcome.next (s.withM t)) (if_neg (by rw [hp]; decide))

/-- Settles O46: frames by their number, links by the state of the pair, and the end of a heartbeat period by what was heard in it. -/
theorem epnisAndHeartbeats : Obligations.EpnisAndHeartbeats := by
  unfold Obligations.EpnisAndHeartbeats
  refine ⟨⟨?frames, ?links⟩, ?psense, ?heartbeats, ?edge, ?edgeOff⟩
  case frames =>
    intro s l num corr b hl hu hp m1 r
    refine ⟨fun ack nak => ?_, fun hn => ?_, fun hn => ?_, fun h hn hb => ⟨_, exec_epnisFrameReceive hl _ _ _ _ _ _, ?_⟩, fun n hn => ?_⟩
    · rw [exec_epnisFrameReceive hl, epnisIn_bad hu hp]
      rfl
    · rw [exec_epnisFrameReceive hl, epnisIn_other_number hu hp _ _ _ hn]
      rfl
    · rw [exec_epnisFrameReceive hl, epnisIn_next hu hp _ _ hn]
      rfl
    · rw [hb, epnisIn_heartbeat hu hp _ _ hn]
      obtain ⟨hseen, hid, hst, hlink⟩ := heardOn_pair (s.m.tookFrame l corr) l h (by omega)
      refine ⟨hseen, hid, hst, ?_⟩
      rw [hlink]
      exact congrArg LinkRt.rxNext (link_setLink_self _ _ _)
    · rw [exec_epnisFrameReceive hl, epnisIn_ack hu hp _ _ _ n hn]
      rfl
  case links =>
    intro s l hl
    refine ⟨fun h => ?_, fun h hs => ⟨_, exec_epnisLinkDown hl, ?_⟩, fun hu ho hs => ⟨_, exec_epnisLinkDown hl, linkLost_degrades hl hu ho hs⟩,
      fun ha h40 hd hp hr => ⟨fun hs hj => ⟨_, exec_epnisLinkUp hl, linkGained_solo ha h40 hd hp hr hs hj⟩,
        fun hs ho => ⟨_, exec_epnisLinkUp hl, linkGained_pairs hl ha h40 hd hp hr hs ho⟩⟩⟩
    · rw [exec_epnisLinkDown hl, linkLost_down h, withM_self]
    · unfold Mach.regFld
      rw [linkLost_solo h hs]
      exact lostStatus_fields
  case psense =>
    intro s p hp hr ha
    have hexec : ∀ f, exec (.psenseFrameReceive p f) s = .next (s.withM (match f with
        | .badCrc => s.m.countReg (leStop p) 2 0x40 32 16 1
        | .heartbeat h => s.m.psHeard p h
        | .leave => (s.m.modPair (fun x => { x with leftAt := some s.m.dt })).setRegFld (leStop p) 2 0x40 1 1 1
        | .fence id => s.m.fenceCommand p id)) := fun f =>
      congrArg (fun t => Host.Outcome.next (s.withM t)) (if_neg (by rw [hr, ha]; simp; omega))
    refine ⟨hexec _, fun h hup => ⟨_, hexec _, ?_⟩, ⟨_, hexec _, rfl⟩⟩
    change (s.m.psHeard p h).pair.seen[2 + p]? = _ ∧ bit ((s.m.psHeard p h).reg (leStop p) 2 0x40) 0 = _ ∧
      bit ((s.m.psHeard p h).reg (leStop p) 2 0x40) 1 = _ ∧ (s.m.psHeard p h).psup = _
    rw [psHeard_up hp h hup]
    obtain ⟨h0, h1⟩ := psNoted_bits (m := s.m) p h
    exact ⟨(heardOn_pair s.m (2 + p) h (by omega)).1, h0, h1, (psNoted_psup p h).trans hup⟩
  case heartbeats =>
    intro s hp
    refine ⟨fun hl => ?_, fun hl => ⟨_, rfl, ?_⟩, fun hs hmiss => ⟨_, rfl, ?_⟩,
      fun hm hid hf hleft hseen he hps hmiss => ⟨_, rfl, ?_⟩, fun path id hpath => ⟨fun hid => ?_, fun hid => ?_⟩, fun t0 ht => ?_⟩
    · change Host.Outcome.next (s.withM s.m.heartbeatSend) = _
      rw [Mach.heartbeatSend, if_pos (.inr hl), withM_self]
    · intro l hl'
      have hsend : s.m.heartbeatSend = s.m.sendOnLinks := if_neg (by rw [hp, hl]; decide)
      rw [hsend]
      exact sendOnLinks_txNext hl'
    · have hepm : s.m.periodCounted.pair.epMiss =
          if s.m.pair.seen[0]? = some true ∨ s.m.pair.seen[1]? = some true then 0 else s.m.pair.epMiss + 1 := by
        rw [periodCounted_pair]
        have hheard : ∀ i, s.m.heard i = true ↔ s.m.pair.seen[i]? = some true := fun i => by
          unfold Mach.heard
          cases s.m.pair.seen[i]? <;> simp
        simp only [Bool.or_eq_true, hheard]
      have hseen : s.m.periodCounted.pair.seen = [false, false, false, false] := congrArg PairRt.seen periodCounted_pair
      rcases periodEnd_solo hp hs hmiss with h | h
      · rw [h]
        exact ⟨periodCounted_dt, hseen, hepm⟩
      · rw [h]
        obtain ⟨hdt, hse, hep⟩ := autoJoin_keeps (m := s.m.periodCounted)
        exact ⟨hdt.trans periodCounted_dt, hse.trans hseen, hep.trans hepm⟩
    · rw [periodEnd_fences hp hm hid hf hleft hseen he hps hmiss]
      exact caldera_phase _ _ _ _
    · rw [exec_fenceCommandReceive hpath hp, Mach.fenceCommand, if_pos hid]
    · rw [exec_fenceCommandReceive hpath hp, Mach.fenceCommand, if_neg hid]
    · intro m1
      have hexec := exec_fenceInAsserted ht hp
      exact ⟨fun hm => hexec.trans (congrArg (fun t => Host.Outcome.next (s.withM t)) (partnerLost_mirroring (m := m1) hm 2)),
        fun hs => hexec.trans (congrArg (fun t => Host.Outcome.next (s.withM t)) (partnerLost_solo (m := m1) hs 2))⟩
  case edge =>
    intro s
    refine ⟨_, rfl, ?_, rfl⟩
    change bit ((s.m.setPairFld 6 1 1).pairReg 0x90) 6 = true
    rw [setPairFld_status, bit, getLsbD_setFld _ _ _ _ _ (by omega), if_pos (by omega)]
    rfl
  case edgeOff =>
    intro s
    refine ⟨_, rfl, ?_, rfl⟩
    change bit ((s.m.setPairFld 6 1 0).pairReg 0x90) 6 = false
    rw [setPairFld_status, bit, getLsbD_setFld _ _ _ _ _ (by omega), if_pos (by omega)]
    rfl

end Sys2Proof.Machine

/-! SUPPORT. The states of the pair (R425, R426, R429, R441 to R444, R447): the commands of EPN_PAIR_CTRL, the handshake, the end of a
resynchronisation and of a raise, and the queues of a takeover. -/

namespace Sys2Proof.Machine

/-! ### Commands -/

section
variable {m : Mach}

theorem mirroring_eq : m.mirroring = (decide (m.pairState = 2) || decide (m.pairState = 3)) := rfl

theorem canJoin_state (h : m.canJoin = true) : m.pairState = 0 ∨ m.pairState = 5 := by
  unfold Mach.canJoin at h
  simp only [Bool.and_eq_true, Bool.or_eq_true, decide_eq_true_eq] at h
  exact h.1.1.1

theorem joinBegin_joins : m.joinBegin.pairState = 1 ∧ m.joinBegin.pair.shaken = false := by
  refine ⟨setPair_state (.inl rfl) false, ?_⟩
  unfold Mach.joinBegin
  rw [setPair_pair (.inl rfl)]
  rfl

theorem pairJoin_joins (h : m.canJoin = true) : m.pairJoin = m.joinBegin := if_pos h
theorem pairJoin_ignored (h : m.canJoin = false) : m.pairJoin = m.setPairFld 14 1 1 := if_neg (by rw [h]; exact Bool.false_ne_true)
theorem pairFence_fences (h : m.mirroring = true) : m.pairFence = (m.epnSend 0).setPair 5 false := if_pos h
theorem pairFence_ignored (h : m.mirroring = false) : m.pairFence = m.setPairFld 14 1 1 := if_neg (by rw [h]; exact Bool.false_ne_true)

theorem setLink_flags (p : PairRt) (l : Nat) (r : LinkRt) :
    (p.setLink l r).raising = p.raising ∧ (p.setLink l r).partnerQuiet = p.partnerQuiet := by
  unfold PairRt.setLink
  split <;> exact ⟨rfl, rfl⟩

/-- A raise that begins waits for the partner. -/
theorem raiseBegin_waits (l : Nat) : (m.raiseBegin.epnSend l).raiseTick = m.raiseBegin.epnSend l := by
  have hq : (m.raiseBegin.epnSend l).pair.partnerQuiet = false := (setLink_flags _ _ _).2
  unfold Mach.raiseTick
  rw [hq]
  exact if_neg (by simp)

theorem raiseBegin_raises (l : Nat) : (m.raiseBegin.epnSend l).pair.raising = true :=
  (setLink_flags _ _ _).1

theorem pairRaise_raises (hs : m.pairState = 2) (h3 : bit (m.pairReg 0x90) 3 = false) (h4 : bit (m.pairReg 0x90) 4 = true)
    (hc : bit (m.pairReg 0x80) 1 = true) (hr : m.pair.raising = false) : m.pairRaise = m.raiseBegin.epnSend 0 := by
  have hcan : m.canRaise = true := by
    unfold Mach.canRaise
    simp only [hs, h3, h4, hc, hr]
    rfl
  unfold Mach.pairRaise
  rw [if_pos hcan, raiseBegin_waits]

theorem pairRaise_ignored (hs : m.pairState ≠ 2) : m.pairRaise = m.setPairFld 14 1 1 := by
  have hcan : m.canRaise = false := by
    unfold Mach.canRaise
    simp [hs]
  unfold Mach.pairRaise
  rw [hcan]
  rfl

theorem pairTakeover_taken (h : m.pairState = 0 ∨ m.pairState = 5) : m.pairTakeover 0x7A4E = m.takeoverBegin 3 false := if_pos ⟨h, rfl⟩

theorem pairTakeover_ignored {key : Nat} (h : m.pairState ≠ 0 ∧ m.pairState ≠ 5 ∨ key ≠ 0x7A4E) :
    m.pairTakeover key = m.setPairFld 14 1 1 := by
  refine if_neg fun ⟨hs, hk⟩ => ?_
  rcases h with ⟨h0, h5⟩ | h
  · exact hs.elim h0 h5
  · exact h hk

/-! ### The handshake (R443) -/

theorem joinShake_not (h : m.pairState ≠ 1) (p : JoinInfo) : m.joinShake p = m := if_pos (.inl h)

variable (hs : m.pairState = 1) (hsh : m.pair.shaken = false)
include hs hsh

theorem joinShake_answers (p : JoinInfo) : m.joinShake p =
    if p.id = m.pairId then m.joinFail 1
    else match p.level with
    | none => m.joinFail 2
    | some l => if p.takeover then m.joinFail 3 else m.joinWith p (l && bit (m.pairReg 0x80) 1) :=
  if_neg (by rw [hs, hsh]; simp)

theorem joinShake_level {p : JoinInfo} {l : Bool} (hid : p.id ≠ m.pairId) (hl : p.level = some l) : m.joinShake p =
    if p.takeover then m.joinFail 3 else m.joinWith p (l && bit (m.pairReg 0x80) 1) := by
  rw [joinShake_answers hs hsh, if_neg hid, hl]

end

/-! ### The end of a resynchronisation and of a raise (R444, R447) -/

section
variable {m : Mach}

/-- The OUT entries of a machine that is resynchronised. -/
def Mach.synced (m : Mach) : Mach :=
  { m with mirWins := Tab.mapV .off (fun _ w => if w.st = 2 then { w with st := 3 } else w) m.mirWins }

theorem resyncDone_joined (hs : m.pairState = 1) (hsh : m.pair.shaken = true) : m.resyncDone =
    if m.linksUp = 2 then m.synced.setPair 2 false else if m.linksUp = 1 then m.synced.setPair 3 false else m := by
  have hm : m.mirroring = false := by
    rw [mirroring_eq, hs]
    rfl
  unfold Mach.resyncDone
  simp only [hm, Bool.false_eq_true, if_false]
  exact if_pos ⟨hs, hsh⟩

theorem raiseEnd_idle (h : m.pair.raising = false) : m.raiseEnd = m := if_pos (by rw [h]; rfl)

theorem raiseEnd_ends (h : m.pair.raising = true) (hput : ∀ p ∈ m.cores, p.2.put = none) :
    m.raiseEnd = (m.modPair (fun p => { p with raising := false, partnerQuiet := false })).setPairFld 13 1 1 := by
  unfold Mach.raiseEnd
  have hidle := retryPuts_idle (m := (m.modPair (fun p => { p with raising := false, partnerQuiet := false })).setPairFld 13 1 1) hput
  rw [if_neg (by rw [h]; decide), hidle, hidle]

end

/-! ### Takeover (R441) -/

section
variable (m : Mach)

theorem takeover_not (h : m.pairState ≠ 4) : m.takeover = m := if_pos (.inl h)

theorem takeover_takes (hs : m.pairState = 4) (hp : m.phase = .run) (hf : fld (m.pairReg 0x90) 8 2 ≠ 3) : m.takeover =
    (m.queues.foldl (fun (acc : Mach) p => if m.primary p.1 = false ∧ p.2.mirrored = true ∧ p.2.mir = true
      then acc.takeQueue p.1 else acc) m).setPair 0 false := by
  unfold Mach.takeover
  rw [if_neg (by rw [hs, hp]; decide)]
  simp only [hf, decide_false, Bool.false_eq_true, false_or, if_false, Bool.not_eq_true']

/-- The machine whose queue has taken the copies over. -/
theorem takeQueue_queue (q : Nat) : ∃ n, (m.takeQueue q).queue q = { m.queue q with
    recs := (m.queue q).copies.map LRec.taken, next := n, copies := [], expected := 0, relAt := 0, mirrored := false } :=
  ⟨_, (queue_setQueue m q q _).trans (if_pos rfl)⟩

theorem takeQueue_primary (q : Nat) : (m.takeQueue q).primary q = true := bit_setRegBit_self _ _ (by omega)

end

/-- A write of EPN_PAIR_CTRL through an open window. -/
theorem exec_pairRow {s : State} {mst : Master} {e : Nat} (he : e < 2) (h : s.m.Opens mst (leStop e) 1 0x88) (f : Mach → Mach) :
    pairRow mst e f s = .next (s.withM (f s.m)) := by
  change s.upd (fun m => if 2 ≤ e then m else m.window mst (leStop e) 1 0x88 f) = _
  rw [upd_eq, if_neg (by omega), window_open h]

/-- Settles O47: the commands by the state of the pair, the handshake by the partner's answer, and the queues that a takeover takes. -/
theorem pairStates : Obligations.PairStates := by
  unfold Obligations.PairStates
  refine ⟨?commands, ?shake, ?resync, ?raise, ?takeover, ?queue⟩
  case commands =>
    intro s mst e he hop ign st
    have hrow : ∀ {f t}, f s.m = t → pairRow mst e f s = .next (s.withM t) := fun h => (exec_pairRow he hop _).trans (by rw [h])
    refine ⟨fun h => ⟨_, hrow (pairJoin_joins h), joinBegin_joins⟩, fun h => hrow (pairJoin_ignored h),
      fun h => hrow (pairFence_fences h), fun h => hrow (pairFence_ignored h),
      fun hs h3 h4 hc hr => ⟨_, hrow (pairRaise_raises hs h3 h4 hc hr), raiseBegin_raises 0, hs⟩,
      fun h => hrow (pairRaise_ignored h), fun h => hrow (f := fun m => m.pairTakeover 0x7A4E) (pairTakeover_taken h),
      fun key h => hrow (f := fun m => m.pairTakeover key) (pairTakeover_ignored h)⟩
  case shake =>
    intro s p
    have hexec : ∀ {t}, s.m.joinShake p = t → exec (.joinHandshake p) s = .next (s.withM t) := fun h =>
      congrArg (fun t => Host.Outcome.next (s.withM t)) h
    refine ⟨fun h => hexec (joinShake_not h p), fun hs hsh => ⟨fun hid => ?_, fun hid hl => ?_, fun l hid hl ht => ?_,
      fun l hid hl ht => ?_⟩⟩
    · exact hexec ((joinShake_answers hs hsh p).trans (if_pos hid))
    · exact hexec ((joinShake_answers hs hsh p).trans (by rw [if_neg hid, hl]))
    · exact hexec ((joinShake_level hs hsh hid hl).trans (if_pos ht))
    · exact hexec ((joinShake_level hs hsh hid hl).trans (if_neg (by rw [ht]; exact Bool.false_ne_true)))
  case resync =>
    intro s hs hsh
    refine ⟨fun h => ⟨s.m.resyncDone, rfl, ?_⟩, fun h => ⟨s.m.resyncDone, rfl, ?_⟩⟩
    · rw [resyncDone_joined hs hsh, if_pos h]
      exact setPair_state (.inr (.inl rfl)) false
    · rw [resyncDone_joined hs hsh, if_neg (by omega), if_pos h]
      exact setPair_state (.inr (.inr rfl)) false
  case raise =>
    intro s
    exact ⟨fun h => congrArg (fun t => Host.Outcome.next (s.withM t)) (raiseEnd_idle h),
      fun h hput => congrArg (fun t => Host.Outcome.next (s.withM t)) (raiseEnd_ends h hput)⟩
  case takeover =>
    intro s
    exact ⟨fun h => congrArg (fun t => Host.Outcome.next (s.withM t)) (takeover_not s.m h),
      fun hs hp hf => congrArg (fun t => Host.Outcome.next (s.withM t)) (takeover_takes s.m hs hp hf)⟩
  case queue =>
    intro m q
    obtain ⟨n, hq⟩ := takeQueue_queue m q
    rw [hq]
    exact ⟨rfl, rfl, takeQueue_primary m q⟩

end Sys2Proof.Machine

/-! SUPPORT. Mirroring (R394, R427, R430, R431, R433 to R435, R444, R450, R466): the copies of a standby, the acknowledgements of the partner,
mirror windows and roles. -/

namespace Sys2Proof.Machine

/-! ### The standby's copies -/

section
variable {m : Mach} {q : Nat}

theorem mirrorIn_not (n : Nat) (r : MirRec) (h : m.standsBy q = false) : m.mirrorIn q n r false = m := by
  unfold Mach.mirrorIn
  exact if_pos (.inl (by rw [h]; rfl))

theorem mirrorIn_outOfOrder {n : Nat} (r : MirRec) (h : m.linkSeq q n ≠ (m.queue q).expected) : m.mirrorIn q n r false = m := by
  unfold Mach.mirrorIn
  exact if_pos (.inr (.inl ⟨rfl, h⟩))

theorem markerIn_not (n : Nat) (h : m.standsBy q = false) : m.markerIn q n = m := if_pos (by rw [h]; rfl)
theorem dropIn_not (h : m.standsBy q = false) : m.dropIn q = m := if_pos (by rw [h]; rfl)

/-- The copy that a mirrored record of at most 192 bytes becomes. -/
def Mach.copyOf (m : Mach) (q s : Nat) (p : MirRec) : LRec :=
  let ml := bit (m.pairReg 0x90) 3
  ⟨s, .accepted, p.flags, p.data, p.port, p.lput, p.pri, p.handle, if ml then p.vqf else (m.queue q).vqf, p.ts,
    if ml then p.atime else 0, p.hcount, if ml then p.pcmp else 0, none, 0, [], none, none, .none, .none, false⟩

/-- The standby's queue with one more copy. -/
def Mach.copyQueue (m : Mach) (q s : Nat) (p : MirRec) : Queue :=
  { m.queue q with copies := (m.queue q).copies ++ [m.copyOf q s p], expected := (s + 1) % 2 ^ 48 }

/-- A mirrored record that is next in order joins the copies. -/
theorem mirrorIn_next {n : Nat} {r : MirRec} (hs : m.standsBy q = true) (hn : m.linkSeq q n = (m.queue q).expected)
    (hj : (m.engine (q / 2048)).journal.length < m.jSize (q / 2048)) (hd : r.data.length ≤ 192) :
    (m.mirrorIn q n r false).queue q = m.copyQueue q (m.linkSeq q n) r := by
  have hbuf : ¬ 192 < r.data.length := by omega
  have hset : (m.setQueue q (m.copyQueue q (m.linkSeq q n) r)).Lists (m.setQueue q (m.copyQueue q (m.linkSeq q n) r)).queues
      m.handovers := ⟨rfl, rfl⟩
  have hcopy := appendEntry_lists (q / 2048) 0 [(q, m.linkSeq q n)]
    ((m.setQueue q (m.copyQueue q (m.linkSeq q n) r)).slotWords q (m.copyOf q (m.linkSeq q n) r) false) [false] hset
  have heq : m.mirrorIn q n r false = ((m.setQueue q (m.copyQueue q (m.linkSeq q n) r)).appendEntry (q / 2048) 0 [(q, m.linkSeq q n)]
      ((m.setQueue q (m.copyQueue q (m.linkSeq q n) r)).slotWords q (m.copyOf q (m.linkSeq q n) r) false) [false]).epnSend (q / 2048) := by
    unfold Mach.mirrorIn
    simp only [Bool.false_eq_true, if_false, if_neg hbuf]
    rw [if_neg (by
      simp only [hs, hn, hbuf, Bool.not_true, Bool.false_eq_true, Bool.not_false, ne_eq, not_true_eq_false, and_false, false_and,
        or_false, false_or]
      omega)]
    rfl
  rw [heq, epnSend_queue]
  exact (queue_of_queues hcopy.1 q).trans ((queue_setQueue m q q _).trans (if_pos rfl))

theorem dropCopies_queue : (m.dropCopies q).queue q = { m.queue q with copies := [] } := by
  unfold Mach.dropCopies
  simp only []
  rw [freeEntries_queue, queue_setQueue, if_pos rfl]

/-- A marker drops the copies up to its number. -/
theorem markerIn_drops {n : Nat} (hs : m.standsBy q = true) : ∃ e, (m.markerIn q n).queue q = { m.queue q with
    copies := (m.queue q).copies.filter (fun r => ! seqLe r.seq (m.linkSeq q n)), relAt := (m.linkSeq q n + 1) % 2 ^ 48, expected := e } := by
  unfold Mach.markerIn
  simp only [hs, Bool.not_true, Bool.false_eq_true, if_false]
  refine ⟨if seqLe (m.queue q).expected (m.linkSeq q n) then (m.linkSeq q n + 1) % 2 ^ 48 else (m.queue q).expected, ?_⟩
  rw [epnSend_queue, freeEntries_queue, queue_setQueue, if_pos rfl]

theorem dropIn_drops (hs : m.standsBy q = true) : ((m.dropIn q).queue q).copies = [] ∧ ((m.dropIn q).queue q).expected = 0 := by
  unfold Mach.dropIn
  rw [hs, if_neg (by decide), epnSend_queue, queue_setQueue, if_pos rfl, dropCopies_queue]
  exact ⟨rfl, rfl⟩

end

theorem exec_partnerCopyRead (s : State) (q n : Nat) : exec (.partnerCopyRead q n) s = .next (s.withM
    (if s.m.standsBy q ∧ (s.m.queue q).copies.any (fun r => decide (r.seq = n)) then s.m.epnSend (q / 2048) else s.m)) := rfl

/-! ### Acknowledgements (R394) -/

section
variable {m : Mach}

theorem partnerAck_not (h : m.mirroring = false) (a : MirAck) : m.partnerAck a = m := by
  unfold Mach.partnerAck
  exact if_pos (by rw [h]; rfl)

theorem partnerAck_record {q n : Nat} {r : LRec} (h : m.mirroring = true) (hr : (m.queue q).rec? n = some r) (hp : r.partner = .awaited) :
    m.partnerAck (.record q n) =
      (m.modRec q n (fun r => { r with partner := .here })).countUncore (queueStop q) (.plain 0x266) 1 := by
  unfold Mach.partnerAck
  rw [h, if_neg (by decide)]
  simp only [hr, hp, if_true]

section
variable {α : Type} (f : Mach → α) (hev : ∀ (t : Mach) l, f { t with evPend := l } = f t)
  (hreg : ∀ (t : Mach) st k off v, f (t.setReg st k off v) = f t)
include hev hreg

/-- A counter that counts leaves what neither registers nor pending events are part of. -/
theorem bumpCount_same (t : Mach) (st k ctrl ovf cnt i by_ : Nat) : f (t.bumpCount st k ctrl ovf cnt i by_) = f t := by
  have hite : ∀ p : Prop, ∀ _ : Decidable p, ∀ a b : Mach, f a = f t → f b = f t → f (if p then a else b) = f t := fun p _ a b ha hb => by
    split
    · exact ha
    · exact hb
  have hv : ∀ v, f (t.setRegFld st k (cnt + 8 * i) 0 48 v) = f t := fun v => hreg _ _ _ _ _
  have ho : ∀ v, f ((t.setRegFld st k (cnt + 8 * i) 0 48 v).setRegBit st k ovf i true) = f t := fun v => (hreg _ _ _ _ _).trans (hv v)
  unfold Mach.bumpCount
  simp only []
  refine hite _ _ _ _ (hv _) (hite _ _ _ _ ?raised (hite _ _ _ _ ((hreg _ _ _ _ _).trans (ho _)) (ho _)))
  exact (raiseAssigned_same f hev (fun _ _ => hreg _ _ _ _ _) _ _).trans (hite _ _ _ _ ((hreg _ _ _ _ _).trans (ho _)) (ho _))

theorem countUncore_same (m : Mach) (st : Nat) (u : UncoreEv) (by_ : Nat) : f (m.countUncore st u by_) = f m := by
  unfold Mach.countUncore
  simp only []
  split
  · rfl
  · refine foldl_keeps (P := fun t : Mach => f t = f m) _ _ rfl fun t ht i => ?_
    split
    · exact (bumpCount_same f hev hreg _ _ _ _ _ _ _ _).trans ht
    · exact ht

end

theorem countUncore_pair (st : Nat) (u : UncoreEv) (by_ : Nat) : (m.countUncore st u by_).pair = m.pair :=
  countUncore_same (·.pair) (fun _ _ => rfl) (fun _ _ _ _ _ => rfl) _ _ _ _

/-! ### Forwarded writes (R434) -/

/-- An enabled IN entry holds the line. -/
def Mach.heldIn (m : Mach) (a : Nat) : Bool :=
  m.mirWins.any (fun p => p.2.en && ! p.2.out && decide (p.2.lbase ≤ a) && decide (a < p.2.llimit))

theorem heldIn_iff (a : Nat) : m.heldIn a = true ↔
    ∃ p ∈ m.mirWins, p.2.en = true ∧ p.2.out = false ∧ p.2.lbase ≤ a ∧ a < p.2.llimit := by
  simp [Mach.heldIn, and_assoc]

theorem forwardIn_run (hp : m.phase = .run) (hm : m.mirroring = true) (l line mask : Nat) (data : List W64) (poison : Nat) :
    m.forwardIn l line mask data poison =
      (if m.heldIn (line * 64) then m.homeBytes (leStop l) 0x3F none line mask data poison else m).epnSend l := by
  unfold Mach.forwardIn
  rw [if_neg (by rw [hp, hm]; simp)]
  rfl

/-! ### Mirror windows (R435) -/

/-- The entry that the selection names, and the one that the data registers describe. -/
def Mach.mwIdx (m : Mach) : Nat := m.regFld (leStop 0) 1 0x200 0 6
def Mach.mwData (m : Mach) : MirWin := winOf (m.reg (leStop 0) 1 0x210) (m.reg (leStop 0) 1 0x218) (m.reg (leStop 0) 1 0x220)
/-- A refused command. -/
def Mach.mwErr (m : Mach) (k : Nat) : Mach := m.setReg (leStop 0) 1 0x208 (setBit (setFld 0 8 4 k) 62 true)

theorem mwRead_barred : m.mwRead false = m.mwErr 1 := rfl

theorem mwWhy_barred (i : Nat) (w : MirWin) : m.mwWhy i false w = 1 := rfl

theorem mwWrite_refused (mir : Bool) (h : m.mwWhy m.mwIdx mir m.mwData ≠ 0) : m.mwWrite mir = m.mwErr (m.mwWhy m.mwIdx mir m.mwData) := if_pos h

theorem mwWrite_barred : m.mwWrite false = m.mwErr 1 := mwWrite_refused false (by rw [mwWhy_barred]; decide)

/-- A read gives the entry's EN and direction. -/
theorem mwRead_words : bit ((m.mwRead true).reg (leStop 0) 1 0x210) 0 = (m.mirWin m.mwIdx).en ∧
    bit ((m.mwRead true).reg (leStop 0) 1 0x210) 1 = ! (m.mirWin m.mwIdx).out := by
  have hreg : (m.mwRead true).reg (leStop 0) 1 0x210 = ((m.mirWin m.mwIdx).words[0]?).getD 0 := by
    unfold Mach.mwRead
    rw [if_neg (by decide)]
    change (((((m.setReg (leStop 0) 1 0x208 0).setReg (leStop 0) 1 0x210 _).setReg (leStop 0) 1 0x218 _).setReg (leStop 0) 1 0x220 _)).reg
      (leStop 0) 1 0x210 = _
    rw [reg_setReg_ne _ _ (winKey_ne _ _ (by omega)), reg_setReg_ne _ _ (winKey_ne _ _ (by omega)), reg_setReg_self]
    rfl
  rw [hreg]
  generalize m.mirWin m.mwIdx = w
  change bit (setFld (setFld (setBit (setBit (setBit 0 0 w.en) 1 (! w.out)) 2 (decide (w.link = 1))) 4 3 w.st) 12 40 (w.lbase / 4096)) 0 =
    w.en ∧ bit (setFld (setFld (setBit (setBit (setBit 0 0 w.en) 1 (! w.out)) 2 (decide (w.link = 1))) 4 3 w.st) 12 40 (w.lbase / 4096)) 1 =
      ! w.out
  refine ⟨?_, ?_⟩
  · rw [bit_setFld_outside _ _ (by omega) (by omega), bit_setFld_outside _ _ (by omega) (by omega), bit_setBit_ne _ _ (by omega) (by omega),
      bit_setBit_ne _ _ (by omega) (by omega), bit_setBit_self _ _ (by omega)]
  · rw [bit_setFld_outside _ _ (by omega) (by omega), bit_setFld_outside _ _ (by omega) (by omega), bit_setBit_ne _ _ (by omega) (by omega),
      bit_setBit_self _ _ (by omega)]

/-- A mirror-window entry is written. -/
theorem mirWin_put (t : Mach) (i : Nat) (x : MirWin) : ({ t with mirWins := Tab.set .off t.mirWins i x } : Mach).mirWin i = x :=
  Tab.get_set_self _ _ _ _

theorem mwWrite_off (h : m.mwWhy m.mwIdx true m.mwData = 0) (he : m.mwData.en = false) :
    (m.mwWrite true).mirWin m.mwIdx = { m.mwData with en := false, st := 0 } := by
  have heq : m.mwWrite true = { m.setReg (leStop 0) 1 0x208 0 with
      mirWins := Tab.set .off (m.setReg (leStop 0) 1 0x208 0).mirWins m.mwIdx (m.mwData.with_ false 0) } :=
    (if_neg (not_not.mpr h)).trans (if_pos (by
      change (! m.mwData.en) = true
      rw [he]
      rfl))
  rw [heq]
  exact mirWin_put _ _ _

theorem mwWrite_out (h : m.mwWhy m.mwIdx true m.mwData = 0) (he : m.mwData.en = true) (ho : m.mwData.out = true) :
    (m.mwWrite true).mirWin m.mwIdx = { m.mwData with en := true, st := if m.pairState = 0 ∨ m.pairState = 5 then 1 else 2 } := by
  have heq : ∃ t : Mach, m.mwWrite true = { t with
      mirWins := Tab.set .off t.mirWins m.mwIdx (m.mwData.with_ true (if m.pairState = 0 ∨ m.pairState = 5 then 1 else 2)) } :=
    ⟨_, (if_neg (not_not.mpr h)).trans ((if_neg (by
      change ¬ (! m.mwData.en) = true
      rw [he]
      decide)).trans (if_neg (by
      change ¬ (! m.mwData.out) = true
      rw [ho]
      decide)))⟩
  obtain ⟨t, ht⟩ := heq
  rw [ht]
  exact mirWin_put _ _ _

/-! ### Roles (R425) -/

theorem roleWrite_ignored (e n : Nat) (v : W64) (h0 : m.pairState ≠ 0) (h5 : m.pairState ≠ 5) : m.roleWrite e n v = m.setPairFld 14 1 1 :=
  if_pos ⟨h0, h5⟩

/-- The bits that a role register takes: those whose queue is DISABLED. -/
theorem roleBits (p : Nat → Bool) (v old : W64) {n i : Nat} (hn : n ≤ 64) (hi : i < 64) :
    bit ((List.range n).foldl (fun w i => if p i = true then setBit w i (bit v i) else w) old) i =
      if i < n ∧ p i = true then bit v i else bit old i := by
  induction n with
  | zero => simp
  | succ n ih =>
    rw [List.range_succ, List.foldl_append, List.foldl_cons, List.foldl_nil]
    have ih := ih (by omega)
    by_cases hin : i = n
    · subst hin
      by_cases hp : p i = true
      · rw [if_pos hp, bit_setBit_self _ _ hi, if_pos ⟨by omega, hp⟩]
      · rw [if_neg hp, ih, if_neg (by omega), if_neg fun h => hp h.2]
    · have hlt : i < n + 1 ↔ i < n := by omega
      by_cases hp : p n = true
      · rw [if_pos hp, bit_setBit_ne _ _ (by omega) (by omega), ih]
        simp only [hlt]
      · rw [if_neg hp, ih]
        simp only [hlt]

/-- The role of queue `i` of a register of roles. -/
theorem primary_of_reg {e n i : Nat} (hn : n < 32) (hi : i < 64) (t : Mach) :
    t.primary (e * 2048 + 64 * n + i) = bit (t.reg (leStop e) 1 (0x100 + 8 * n)) i := by
  have h1 : (e * 2048 + 64 * n + i) / 2048 = e := by omega
  have h2 : (e * 2048 + 64 * n + i) % 2048 / 64 = n := by omega
  have h3 : (e * 2048 + 64 * n + i) % 64 = i := by omega
  unfold Mach.primary queueStop
  rw [h1, h2, h3]

theorem roleWrite_roles {e n i : Nat} (v : W64) (h : m.pairState = 0 ∨ m.pairState = 5) (hn : n < 32) (hi : i < 64) :
    (m.roleWrite e n v).primary (e * 2048 + 64 * n + i) =
      if (m.queue (e * 2048 + 64 * n + i)).st = 0 then bit v i else m.primary (e * 2048 + 64 * n + i) := by
  have heq : m.roleWrite e n v = m.setReg (leStop e) 1 (0x100 + 8 * n) ((List.range 64).foldl (fun w i =>
      if (m.queue (e * 2048 + 64 * n + i)).st = 0 then setBit w i (bit v i) else w) (m.reg (leStop e) 1 (0x100 + 8 * n))) :=
    if_neg fun ⟨h0, h5⟩ => h.elim h0 h5
  have hbits := roleBits (fun i => decide ((m.queue (e * 2048 + 64 * n + i)).st = 0)) v (m.reg (leStop e) 1 (0x100 + 8 * n))
    (Nat.le_refl 64) hi
  simp only [decide_eq_true_eq] at hbits
  rw [primary_of_reg hn hi, primary_of_reg hn hi, heq, reg_setReg_self, hbits]
  simp only [hi, true_and]

end

/-! ### The commands -/

section
variable {s : State} {mst : Master} {e : Nat} (he : e < 2)
include he

theorem exec_epnMwRead (h : s.m.Opens mst (leStop e) 1 0x208) (mir : Bool) :
    exec (.epnMwRead mst e mir) s = .next (s.withM (s.m.mwRead mir)) := by
  change s.upd (fun m => if 2 ≤ e then m else m.window mst (leStop e) 1 0x208 (fun m => m.mwRead mir)) = _
  rw [upd_eq, if_neg (by omega), window_open h]

theorem exec_epnMwWrite (h : s.m.Opens mst (leStop e) 1 0x208) (mir : Bool) :
    exec (.epnMwWrite mst e mir) s = .next (s.withM (s.m.mwWrite mir)) := by
  change s.upd (fun m => if 2 ≤ e then m else m.window mst (leStop e) 1 0x208 (fun m => m.mwWrite mir)) = _
  rw [upd_eq, if_neg (by omega), window_open h]

theorem exec_epnRoleWrite {n : Nat} (hn : n < 32) (h : s.m.Opens mst (leStop e) 1 (0x100 + 8 * n)) (v : W64) :
    exec (.epnRoleWrite mst e n v) s = .next (s.withM (s.m.roleWrite e n v)) := by
  change s.upd (fun m => if 2 ≤ e ∨ 32 ≤ n then m else m.window mst (leStop e) 1 (0x100 + 8 * n) (fun m => m.roleWrite e n v)) = _
  rw [upd_eq, if_neg (by omega), window_open h]

end

theorem exec_forwardedWriteReceive {s : State} {l : Nat} (hl : l < 2) (line mask : Nat) (data : List W64) (poison : Nat) :
    exec (.forwardedWriteReceive l line mask data poison) s = .next (s.withM (s.m.forwardIn l line mask data poison)) := by
  change s.upd (fun m => if 2 ≤ l then m else m.forwardIn l line mask data poison) = _
  rw [upd_eq, if_neg (by omega)]

theorem exec_mirrorAckReceive (s : State) (a : MirAck) : exec (.mirrorAckReceive a) s = .next (s.withM (s.m.partnerAck a).raiseTick) := rfl

/-- Settles O48: the standby by the order of what arrives, forwarded writes by the IN entries, window entries and roles by their rules. -/
theorem mirrorTraffic : Obligations.MirrorTraffic := by
  unfold Obligations.MirrorTraffic
  refine ⟨?standby, ?acks, ?writes, ?windows, ?roles⟩
  case standby =>
    intro s q n r
    have hnext : ∀ {t u : Mach}, t = u → (.next (s.withM t) : Out) = .next (s.withM u) := fun h => by rw [h]
    refine ⟨fun h => ⟨hnext (mirrorIn_not n r h), hnext (markerIn_not n h), hnext (dropIn_not h), ?_⟩, fun h => ⟨fun hn => ?_,
      fun hn hj hd => ⟨s.m.mirrorIn q n r false, s.m.copyOf q (s.m.linkSeq q n) r, rfl, ?_⟩, ⟨s.m.markerIn q n, rfl, ?_⟩,
      ⟨s.m.dropIn q, rfl, dropIn_drops h⟩, fun hy => ?_⟩⟩
    · rw [exec_partnerCopyRead, if_neg (by rw [h]; simp), withM_self]
    · exact hnext (mirrorIn_outOfOrder r hn)
    · rw [mirrorIn_next h hn hj hd]
      exact ⟨rfl, rfl, rfl, rfl, rfl⟩
    · obtain ⟨e, he⟩ := markerIn_drops (n := n) h
      rw [he]
      exact ⟨rfl, rfl⟩
    · rw [exec_partnerCopyRead, if_pos ⟨h, by simpa using hy⟩]
  case acks =>
    intro s q n r hr
    refine ⟨fun h a => ?_, fun h hrec hp => ?_⟩
    · rw [exec_mirrorAckReceive, partnerAck_not h, raiseTick_idle hr, withM_self]
    · rw [exec_mirrorAckReceive, partnerAck_record h hrec hp, raiseTick_idle]
      rw [countUncore_pair]
      exact hr
  case writes =>
    intro s l line mask poison data hl hp hm held
    have hexec := exec_forwardedWriteReceive (s := s) hl line mask data poison
    rw [forwardIn_run hp hm] at hexec
    refine ⟨fun h => ?_, fun h => ?_⟩
    · rw [hexec, if_pos ((heldIn_iff _).mpr h)]
    · rw [hexec, if_neg fun hh => h ((heldIn_iff _).mp hh)]
  case windows =>
    intro s mst e he hop i w err
    refine ⟨?_, ?_, ⟨_, exec_epnMwRead he hop true, mwRead_words⟩, fun h => ?_, fun h hen => ⟨_, exec_epnMwWrite he hop true, mwWrite_off h hen⟩,
      fun h hen ho => ⟨_, exec_epnMwWrite he hop true, mwWrite_out h hen ho⟩⟩
    · rw [exec_epnMwRead he hop, mwRead_barred]
      rfl
    · rw [exec_epnMwWrite he hop, mwWrite_barred]
      rfl
    · rw [exec_epnMwWrite he hop, mwWrite_refused true h]
      rfl
  case roles =>
    intro s mst e n v he hn hop
    refine ⟨fun h0 h5 => ?_, fun h => ⟨_, exec_epnRoleWrite he hn hop v, fun i hi => roleWrite_roles v h hn hi⟩⟩
    rw [exec_epnRoleWrite he hn hop, roleWrite_ignored _ _ _ h0 h5]

end Sys2Proof.Machine

/-! SUPPORT. Frames into the engines and onto the wire (R350, R354 to R359, R364, R366 to R369): what a frame that the MAC passes leaves, and
the one transmission of a port whose frames wait in one plain queue. -/

namespace Sys2Proof.Machine

/-! ### Frames in -/

section
variable {m : Mach} {q : Nat} {f : RxFrame}

theorem Mach.RestIs.pxTab {m x : Mach} (h : m.RestIs x) : m.pxTab = x.pxTab := by
  obtain rfl : m.rest = x := h
  rfl

/-- A frame in a window's counts changes the port alone. -/
theorem fumCount_port (m : Mach) (q pri len : Nat) (sent last : Bool) : m.fumCount q pri len sent last = m ∨
    ∃ x : PortRt, x.eqs = (m.port q).eqs ∧ m.fumCount q pri len sent last = m.setPort q x := by
  unfold Mach.fumCount
  simp only []
  split
  · exact .inl rfl
  · refine .inr ⟨_, ?_, rfl⟩
    split <;> rfl

section
variable (hq : q < 128) (ha : m.answers (portStop q) (portWin q) = true) (he : (m.blk (portStop q) (portWin q)).enable = true)
include hq ha he

theorem frameReceive_down (hl : m.linkUp q = false) : m.frameReceive q f = m.countPort q 0x80 0 16 := by
  unfold Mach.frameReceive
  simp only [ha, he, hl, Bool.not_true, Bool.false_eq_true, or_false, if_neg (show ¬ 128 ≤ q by omega), Bool.not_false, if_true]

theorem frameReceive_discards (hl : m.linkUp q = true) (hb : f.bad = true ∨ f.bytes.length + 4 < 64 ∨ m.maxFrm q < f.bytes.length + 4) :
    m.frameReceive q f = (m.fumCount q (m.priOf q f.bytes) (f.bytes.length + 4) false true).countPort q 0x80 0 16 := by
  unfold Mach.frameReceive
  simp only [ha, he, hl, Bool.not_true, Bool.false_eq_true, or_false, if_neg (show ¬ 128 ≤ q by omega), if_false, if_pos hb]

theorem frameReceive_passes (hl : m.linkUp q = true) (hb : f.bad = false) (hlo : 64 ≤ f.bytes.length + 4)
    (hhi : f.bytes.length + 4 ≤ m.maxFrm q) (ht : be16 f.bytes 12 ≠ 0x8808) :
    m.frameReceive q f = (m.fumCount q (m.priOf q f.bytes) (f.bytes.length + 4) false true).ingress q f := by
  unfold Mach.frameReceive
  simp only [ha, he, hl, hb, Bool.not_true, Bool.false_eq_true, or_false, if_neg (show ¬ 128 ≤ q by omega), if_false, false_or,
    if_neg (show ¬ (f.bytes.length + 4 < 64 ∨ m.maxFrm q < f.bytes.length + 4) by omega), if_neg ht]

/-- What holds of the pipeline from any runtime of the port holds of a received frame. -/
theorem frameReceive_ingress {P : Mach → Prop} (hl : m.linkUp q = true) (hb : f.bad = false) (hlo : 64 ≤ f.bytes.length + 4)
    (hhi : f.bytes.length + 4 ≤ m.maxFrm q) (ht : be16 f.bytes 12 ≠ 0x8808) (hm : P (m.ingress q f))
    (hx : ∀ x, P ((m.setPort q x).ingress q f)) : P (m.frameReceive q f) := by
  rw [frameReceive_passes hq ha he hl hb hlo hhi ht]
  rcases fumCount_port m q (m.priOf q f.bytes) (f.bytes.length + 4) false true with h | ⟨x, -, h⟩ <;> rw [h]
  · exact hm
  · exact hx x

end

theorem countPx_handovers (m : Mach) (px ev : Nat) : (m.countPx px ev).handovers = m.handovers :=
  countUncore_same (·.handovers) (fun _ _ => rfl) (fun _ _ _ _ _ => rfl) m _ _ _

theorem steer_handovers (h : m.engineHere queue = true) (o : Option Nat) (bs : List (BitVec 8)) (pri ts : Nat) (tc0 : Bool) :
    (m.steer q queue o bs pri ts tc0).handovers = m.handovers ++ [(q / 32, ⟨q, queue, bs, o, pri, ts, tc0⟩)] := by
  unfold Mach.steer
  simp only [h, if_true]
  refine (pfcUpdate_lists q ⟨rfl, rfl⟩).2.trans ?_
  exact congrArg (· ++ _) (countPx_handovers m _ _)

/-- A frame that the pipeline takes. -/
def Mach.TakesFrames (m : Mach) (q : Nat) : Prop := m.phase = .run ∧ m.portShut q = false ∧ bit (m.portReg q 0x78) 0 = false

theorem Mach.TakesFrames.not (h : m.TakesFrames q) : ¬ (m.phase ≠ .run ∨ m.portShut q ∨ bit (m.portReg q 0x78) 0) := by
  obtain ⟨hp, hs, hb⟩ := h
  simp [hp, hs, hb]

/-- The device time of a received frame (R372). -/
def Mach.rxTime (m : Mach) (q : Nat) (f : RxFrame) : Nat := (f.time - fld (m.portReg q 0x60) 0 16) / 16

theorem ingress_default (hk : m.TakesFrames q) (hs : m.streamOf q f.bytes = none) (hb : m.bufferSpace (q / 32) f.bytes.length false = some false)
    (hd : bit (m.portReg q 0x50) 12 = true) (he : m.engineHere (fld (m.portReg q 0x50) 0 12) = true) :
    (m.ingress q f).handovers = m.handovers ++
      [(q / 32, ⟨q, fld (m.portReg q 0x50) 0 12, f.bytes, none, m.priOf q f.bytes, m.rxTime q f, false⟩)] := by
  unfold Mach.ingress
  simp only [hs, hb, if_neg hk.not, hd, if_true]
  exact steer_handovers he _ _ _ _ _

/-- A frame of a stream whose valid filter does not block it, with space in the buffer. -/
structure Mach.InStream (m : Mach) (q : Nat) (f : RxFrame) (h : Nat) (tc0 : Bool) : Prop where
  takes : m.TakesFrames q
  stream : m.streamOf q f.bytes = some h
  space : m.bufferSpace (q / 32) f.bytes.length
    (bit (m.sf (q / 32) 1 h 0) 63 && decide (m.queueTc (fld (m.sf (q / 32) 1 h 0) 0 12) = 0)) = some tc0
  valid : bit (m.sf (q / 32) 1 h 0) 63 = true
  free : bit (m.sf (q / 32) 1 h 0) 61 = false

theorem ingress_stream {h : Nat} {tc0 : Bool} (hi : m.InStream q f h tc0) :
    m.ingress q f = m.streamSteps q h f.bytes (m.priOf q f.bytes) (m.rxTime q f) tc0 := by
  unfold Mach.ingress
  simp only [hi.stream, hi.space, if_neg hi.takes.not]
  rfl

/-! ### The steps of a stream -/

section
variable {h : Nat} {bs : List (BitVec 8)} {pri ts : Nat} {tc0 : Bool}

theorem streamSteps_long (hv : bit (m.sf (q / 32) 1 h 0) 63 = true) (hblk : bit (m.sf (q / 32) 1 h 0) 61 = false)
    (hl : fld (m.sf (q / 32) 1 h 0) 16 14 < bs.length) : m.streamSteps q h bs pri ts tc0 =
    (if bit (m.sf (q / 32) 1 h 0) 60 then (m.countSf (q / 32) 1 h 2 0 32).modSf (q / 32) 1 h 0 (fun w => setBit w 61 true)
      else m.countSf (q / 32) 1 h 2 0 32).refuseFilter (q / 32) h 0 := by
  unfold Mach.streamSteps
  simp only [hv, hblk, Bool.not_true, Bool.false_eq_true, if_false, if_pos hl]

theorem streamSteps_plain (hv : bit (m.sf (q / 32) 1 h 0) 63 = true) (hblk : bit (m.sf (q / 32) 1 h 0) 61 = false)
    (hl : bs.length ≤ fld (m.sf (q / 32) 1 h 0) 16 14) (hg : bit (m.sf (q / 32) 1 h 0) 41 = false)
    (hm : bit (m.sf (q / 32) 1 h 0) 59 = false) (hr : bit (m.sf (q / 32) 1 h 0) 62 = false) : m.streamSteps q h bs pri ts tc0 =
    ((m.countSf (q / 32) 1 h 2 0 32).countSf (q / 32) 1 h 2 32 32).steer q (fld (m.sf (q / 32) 1 h 0) 0 12) (some h) bs pri ts tc0 := by
  unfold Mach.streamSteps
  simp only [hv, hblk, hg, hm, hr, Bool.not_true, Bool.not_false, Bool.false_eq_true, if_false, if_true,
    if_neg (show ¬ fld (m.sf (q / 32) 1 h 0) 16 14 < bs.length by omega), reduceCtorEq, false_and]

end

theorem countSf_handovers (m : Mach) (px t idx i lo n : Nat) : (m.countSf px t idx i lo n).handovers = m.handovers := rfl
theorem countSf_engineHere (m : Mach) (px t idx i lo n k : Nat) : (m.countSf px t idx i lo n).engineHere k = m.engineHere k := rfl

theorem sf_modSf (m : Mach) (px t idx i : Nat) (g : W64 → W64) {j : Nat} (hj : j < 4) :
    (m.modSf px t idx i g).sf px t idx j = if j = i then g (m.sf px t idx j) else m.sf px t idx j := by
  unfold Mach.modSf
  rw [sf_setSf_self, sf_words hj]

theorem refuseFilter_rest (m : Mach) (px h lo : Nat) : (m.refuseFilter px h lo).RestIs (m.countSf px 1 h 3 lo 16).rest :=
  ite_rest (raiseAssigned_rest _ (countUncore_rest _ _ _ (Eq.refl (m.countSf px 1 h 3 lo 16).rest)))
    (countUncore_rest _ _ _ (Eq.refl (m.countSf px 1 h 3 lo 16).rest))

theorem refuseFilter_handovers (m : Mach) (px h lo : Nat) : (m.refuseFilter px h lo).handovers = m.handovers :=
  (refuseFilter_rest m px h lo).handovers

theorem refuseFilter_filter (m : Mach) (px h lo : Nat) : (m.refuseFilter px h lo).sf px 1 h 0 = m.sf px 1 h 0 := by
  have hsf : (m.refuseFilter px h lo).sf px 1 h 0 = (m.countSf px 1 h 3 lo 16).sf px 1 h 0 := by
    unfold Mach.sf
    rw [(refuseFilter_rest m px h lo).pxTab]
    rfl
  rw [hsf]
  exact (sf_modSf m px 1 h 3 _ (by decide)).trans (if_neg (by decide))

section
variable {h : Nat} {tc0 : Bool} (hi : m.InStream q f h tc0)
include hi

/-- A frame longer than its filter's MAXSDU is refused, and blocks the stream where the filter says so (R356). -/
theorem ingress_long (hl : fld (m.sf (q / 32) 1 h 0) 16 14 < f.bytes.length) : (m.ingress q f).handovers = m.handovers ∧
    bit ((m.ingress q f).sf (q / 32) 1 h 0) 61 = bit (m.sf (q / 32) 1 h 0) 60 := by
  have hcount : (m.countSf (q / 32) 1 h 2 0 32).sf (q / 32) 1 h 0 = m.sf (q / 32) 1 h 0 :=
    (sf_modSf m (q / 32) 1 h 2 _ (by decide)).trans (if_neg (by decide))
  rw [ingress_stream hi, streamSteps_long hi.valid hi.free hl, refuseFilter_handovers, refuseFilter_filter]
  cases hb : bit (m.sf (q / 32) 1 h 0) 60 with
  | false => exact ⟨rfl, by rw [if_neg (by decide), hcount, hi.free]⟩
  | true => exact ⟨rfl, by rw [if_pos rfl, sf_modSf _ _ _ _ _ _ (by decide), if_pos rfl, bit_setBit_self _ _ (by decide)]⟩

/-- A frame within MAXSDU, of a stream without gate, meter and recovery, goes to its filter's queue. -/
theorem ingress_plain (hl : f.bytes.length ≤ fld (m.sf (q / 32) 1 h 0) 16 14) (hg : bit (m.sf (q / 32) 1 h 0) 41 = false)
    (hm : bit (m.sf (q / 32) 1 h 0) 59 = false) (hr : bit (m.sf (q / 32) 1 h 0) 62 = false)
    (he : m.engineHere (fld (m.sf (q / 32) 1 h 0) 0 12) = true) : (m.ingress q f).handovers = m.handovers ++
      [(q / 32, ⟨q, fld (m.sf (q / 32) 1 h 0) 0 12, f.bytes, some h, m.priOf q f.bytes, m.rxTime q f, tc0⟩)] := by
  rw [ingress_stream hi, streamSteps_plain hi.valid hi.free hl hg hm hr, steer_handovers, countSf_handovers, countSf_handovers]
  rwa [countSf_engineHere, countSf_engineHere]

end

end

/-! ### Sequence recovery (R364) -/

section
variable (len : Nat) (h : RcvHist)

theorem recoverSeq_again (v : Bool) : (recoverSeq v len (some h) h.seq).1 = false := by
  have hd : (h.seq + 65536 - h.seq) % 65536 = 0 := by omega
  unfold recoverSeq
  simp only [hd]
  cases v <;> rfl

theorem ahead_eq {seq d : Nat} (hs : seq < 65536) (hd : d < 65536) : ((seq + d) % 65536 + 65536 - seq) % 65536 = d := by omega

theorem recoverSeq_ahead {d : Nat} (hs : h.seq < 65536) (hlo : 1 ≤ d) (hd : d < len) (hl : len ≤ 32) :
    recoverSeq true len (some h) ((h.seq + d) % 65536) = (true, ⟨(h.seq + d) % 65536, (h.hist * 2 ^ d + 1) % 2 ^ len⟩) := by
  unfold recoverSeq
  simp only [ahead_eq hs (show d < 65536 by omega), Bool.not_true, Bool.false_eq_true, if_false, if_neg (show ¬ d = 0 by omega),
    if_pos (show d < 32768 by omega), if_pos hd]

theorem recoverSeq_past {d : Nat} (hs : h.seq < 65536) (hl : len ≤ d) (hd : d < 32768) :
    (recoverSeq true len (some h) ((h.seq + d) % 65536)).1 = false := by
  unfold recoverSeq
  simp only [ahead_eq hs (show d < 65536 by omega), Bool.not_true, Bool.false_eq_true, if_false, if_pos hd, if_neg (show ¬ d < len by omega)]
  split <;> rfl

end

/-! ### Frames out -/

section
variable {m : Mach} {q e : Nat}

theorem foldl_idle {α : Type} {g : Mach → α → Mach} {l : List α} (h : ∀ i ∈ l, g m i = m) : l.foldl g m = m := by
  induction l with
  | nil => rfl
  | cons i l ih =>
    rw [List.foldl_cons, h i List.mem_cons_self]
    exact ih fun j hj => h j (List.mem_cons_of_mem i hj)

theorem creditTick_idle (h : ∀ i, i < 8 → bit (m.eg q 3 i 0) 0 = false) : m.creditTick q = m := by
  refine foldl_idle fun i hi => ?_
  rw [h i (List.mem_range.mp hi)]
  rfl

theorem gateOf_plain (h : bit (m.eg q 0 0 0) 0 = false) : m.gateOf q e = (true, none) := by
  unfold Mach.gateOf
  simp only [h, Bool.not_false, if_true]

/-- Without a gate list every head frame may go. -/
theorem gateLets_plain (h : bit (m.eg q 0 0 0) 0 = false) (f : EgFrame) : m.gateLets q e f = true := by
  unfold Mach.gateLets Mach.macHeld Mach.fits
  simp only [gateOf_plain h, h, Bool.not_false, Bool.true_or, if_true, ite_self, Bool.and_self]

/-- A head frame within MAXSDU stays. -/
theorem dropLong_within (h : ∀ f ∈ ((m.port q).frames e).head?, fld (m.eg q 3 e 0) 16 14 = 0 ∨ f.len ≤ fld (m.eg q 3 e 0) 16 14) (k : Nat) :
    m.dropLong q e k = m := by
  cases k with
  | zero => rfl
  | succ k =>
    unfold Mach.dropLong
    cases hf : (m.port q).frames e with
    | nil => rfl
    | cons f fs =>
      have hl := h f (by rw [hf]; rfl)
      exact if_neg (by omega)

theorem markWait_plain (h : bit (m.eg q 0 0 0) 0 = false) : m.markWait q e = m := by
  unfold Mach.markWait
  split
  · rw [gateLets_plain h, Bool.or_true, if_pos rfl]
  · rfl

theorem eqEligible_head {f : EgFrame} {fs : List EgFrame} (hf : (m.port q).frames e = f :: fs) (h : bit (m.eg q 0 0 0) 0 = false)
    (hc : bit (m.eg q 3 e 0) 0 = false) (hp : (m.port q).paused = 0) : m.eqEligible q e = true := by
  unfold Mach.eqEligible Mach.eqPaused
  simp only [hf, gateLets_plain h, hc, hp, Nat.zero_testBit, Bool.not_false, Bool.true_or, Bool.and_true, Bool.false_or, Bool.false_and]
  simp

theorem eqEligible_empty {i : Nat} (hf : (m.port q).frames i = []) : m.eqEligible q i = false := by
  unfold Mach.eqEligible
  simp only [hf]

/-- The only queue that meets a condition is the highest one. -/
theorem topQueue_only {p : Nat → Bool} (he : e < 8) (hp : p e = true) (ho : ∀ i, i ≠ e → p i = false) : topQueue p = some e := by
  have hpe : p = fun i => decide (i = e) := funext fun i => by
    by_cases h : i = e
    · simp [h, hp]
    · simp [h, ho i h]
  subst hpe
  interval_cases e <;> rfl

/-- A port that may send has one plain queue with frames. -/
structure Mach.OnePlain (m : Mach) (q e : Nat) (f : EgFrame) (fs : List EgFrame) : Prop where
  cut : (m.port q).cut = none
  paused : (m.port q).paused = 0
  frames : (m.port q).frames e = f :: fs
  only : ∀ i, i ≠ e → (m.port q).frames i = []
  ungated : bit (m.eg q 0 0 0) 0 = false
  unshaped : ∀ i, i < 8 → bit (m.eg q 3 i 0) 0 = false
  within : fld (m.eg q 3 e 0) 16 14 = 0 ∨ f.len ≤ fld (m.eg q 3 e 0) 16 14

variable {f : EgFrame} {fs : List EgFrame}

/-- The queues of such a port stay as they are until its head is sent. -/
theorem Mach.OnePlain.settled (h : m.OnePlain q e f fs) : (List.range 8).foldl
    (fun acc e => (acc.dropLong q e ((acc.port q).frames e).length).markWait q e) (m.creditTick q) = m := by
  rw [creditTick_idle h.unshaped]
  refine foldl_idle fun i _ => ?_
  rw [dropLong_within, markWait_plain h.ungated]
  intro g hg
  by_cases hi : i = e
  · subst hi
    rw [h.frames] at hg
    obtain rfl : f = g := Option.some.inj hg
    exact h.within
  · rw [h.only i hi] at hg
    cases hg

theorem transmit_down (hl : m.linkUp q = false) (part : Option Nat) (late : Bool) : m.transmit q part late = m := by
  unfold Mach.transmit
  simp [hl]

theorem transmit_sends (hq : q < 128) (hr : m.phase = .run) (ha : m.answers (portStop q) (portWin q) = true)
    (he : (m.blk (portStop q) (portWin q)).enable = true) (hl : m.linkUp q = true) (hd : bit (m.portReg q 0x78) 1 = false) (h8 : e < 8) (h : m.OnePlain q e f fs)
    (part : Option Nat) (late : Bool) : m.transmit q part late = m.sendHead q e part late := by
  have htop : topQueue (fun i => m.eqEligible q i) = some e :=
    topQueue_only h8 (eqEligible_head h.frames h.ungated (h.unshaped e h8) h.paused) fun i hi => eqEligible_empty (h.only i hi)
  unfold Mach.transmit
  simp only [hr, ha, he, hl, hd, Bool.not_true, Bool.false_eq_true, or_false, ne_eq, not_true_eq_false, if_neg (show ¬ 128 ≤ q by omega),
    h.settled, h.cut, htop]

/-! ### One frame on the wire -/

/-- The frames of port `q`, the egress tables and the bytes of memory. -/
def Mach.Sends (m : Mach) (q : Nat) (eqs : List (Nat × List EgFrame)) (tab : List (Nat × List W64)) (bytes : List Host.Cell) : Prop :=
  (m.port q).eqs = eqs ∧ m.egTab = tab ∧ m.mem = bytes

section
variable {eqs : List (Nat × List EgFrame)} {tab : List (Nat × List W64)} {bytes : List Host.Cell}

theorem setPort_sends {x : PortRt} (hx : x.eqs = (m.port q).eqs) (h : m.Sends q eqs tab bytes) : (m.setPort q x).Sends q eqs tab bytes := by
  obtain ⟨he, ht, hb⟩ := h
  exact ⟨by rw [port_setPort_self, hx, he], ht, hb⟩

theorem countPx_sends (px ev : Nat) (h : m.Sends q eqs tab bytes) : (m.countPx px ev).Sends q eqs tab bytes := by
  obtain ⟨he, ht, hb⟩ := h
  unfold Mach.countPx
  exact ⟨(countUncore_same (fun t => (t.port q).eqs) (fun _ _ => rfl) (fun _ _ _ _ _ => rfl) m _ _ _).trans he,
    (countUncore_same (·.egTab) (fun _ _ => rfl) (fun _ _ _ _ _ => rfl) m _ _ _).trans ht,
    (countUncore_same (·.mem) (fun _ _ => rfl) (fun _ _ _ _ _ => rfl) m _ _ _).trans hb⟩

theorem fumCount_sends (pri len : Nat) (sent last : Bool) (h : m.Sends q eqs tab bytes) :
    (m.fumCount q pri len sent last).Sends q eqs tab bytes := by
  rcases fumCount_port m q pri len sent last with hf | ⟨x, hx, hf⟩ <;> rw [hf]
  · exact h
  · exact setPort_sends hx h

theorem spendCredit_sends (n : Nat) (h : m.Sends q eqs tab bytes) : (m.spendCredit q e n).Sends q eqs tab bytes := by
  unfold Mach.spendCredit
  split
  · exact h
  · exact setPort_sends rfl h

theorem txStamp_sends (g : EgFrame) (h : m.Sends q eqs tab bytes) : (m.txStamp q g).Sends q eqs tab bytes := by
  unfold Mach.txStamp
  split
  · exact h
  · simp only []
    split <;> exact setPort_sends rfl h

/-- The last fragment of a frame counts it as sent, and leaves the frames that wait and the bytes of memory. -/
theorem lastFragment_sends (g : EgFrame) (n : Nat) (h : m.Sends q eqs tab bytes) :
    (m.lastFragment q e g n).Sends q eqs (m.countEq q e true).egTab bytes := by
  obtain ⟨he, -, hb⟩ := h
  exact spendCredit_sends _ (fumCount_sends _ _ _ _ (countPx_sends _ _ ⟨he, rfl, hb⟩))

end

theorem eg_of_egTab {t u : Mach} (h : t.egTab = u.egTab) (q k idx i : Nat) : t.eg q k idx i = u.eg q k idx i := by
  unfold Mach.eg
  rw [h]

/-- Sending counts once in EQ word 1, to its limit (R383). -/
theorem countEq_sent (m : Mach) (q e : Nat) : fld ((m.countEq q e true).eg q 3 e 1) 0 32 = min (fld (m.eg q 3 e 1) 0 32 + 1) 0xFFFFFFFF := by
  unfold Mach.countEq
  rw [eg_setEg_self]
  refine (fld_setFld_same _ _ (by decide)).trans (Nat.mod_eq_of_lt ?_)
  omega

/-- Without an upset and without poison an output's data is read as it is. -/
theorem fetchOut_clean (hu : m.upsets = []) (hp : ∀ i, (m.metaAt ((f.pa / 8 + i) * 8)).poison = false) : m.fetchOut f = (none, m) := by
  have hread : m.readUpsets none false f.pa f.len = m := by
    unfold Mach.readUpsets Mach.upsetsAt
    rw [hu]
    rfl
  unfold Mach.fetchOut
  simp only [hread, Prod.mk.injEq, and_true]
  refine List.find?_eq_none.mpr fun a ha => ?_
  obtain ⟨i, -, rfl⟩ := List.mem_map.mp ha
  simp [hp]

/-- The head of the queue leaves with its data: the rest of the queue stays. -/
theorem sendHead_sends (h : m.OnePlain q e f fs) (hu : m.upsets = []) (hp : ∀ i, (m.metaAt ((f.pa / 8 + i) * 8)).poison = false) :
    ((m.sendHead q e none false).port q).frames e = fs ∧
    fld ((m.sendHead q e none false).eg q 3 e 1) 0 32 = min (fld (m.eg q 3 e 1) 0 32 + 1) 0xFFFFFFFF ∧
    (m.sendHead q e none false).mem = m.mem := by
  let m1 := m.setPort q ((m.port q).setFrames e fs)
  let m2 := (m1.outDone f).txStamp q f
  have hfetch : (m.setPort q ((m.port q).setFrames e fs)).fetchOut f = (none, m.setPort q ((m.port q).setFrames e fs)) := fetchOut_clean hu hp
  have hsend : m.sendHead q e none false = (m2.setPort q { m2.port q with cut := none }).lastFragment q e f (f.wire - 0) := by
    unfold Mach.sendHead
    simp only [h.frames, creditTick_idle h.unshaped, hfetch]
    rfl
  have hstart : m1.Sends q ((m.port q).setFrames e fs).eqs m.egTab m.mem := ⟨by rw [port_setPort_self], rfl, rfl⟩
  have hbody : (m2.setPort q { m2.port q with cut := none }).Sends q ((m.port q).setFrames e fs).eqs m.egTab m.mem :=
    setPort_sends rfl (txStamp_sends f hstart)
  obtain ⟨heqs, htab, hmem⟩ := lastFragment_sends (e := e) f (f.wire - 0) hbody
  rw [hsend]
  refine ⟨?frames, ?count, hmem⟩
  case frames =>
    unfold PortRt.frames
    rw [heqs]
    exact Tab.get_set_self _ _ _ _
  case count => rw [eg_of_egTab htab, countEq_sent, eg_of_egTab hbody.2.1]

end

/-! ### The commands -/

theorem exec_frameReceive (s : State) (q : Nat) (f : RxFrame) : exec (.frameReceive q f) s = .next (s.withM (s.m.frameReceive q f)) := rfl
theorem exec_frameTransmit (s : State) (q : Nat) (part : Option Nat) (late : Bool) :
    exec (.frameTransmit q part late) s = .next (s.withM (s.m.transmit q part late)) := rfl

/-- Settles O42: the course of a frame that the MAC refuses, of one without a stream and of one of a stream; the sequence recovery; and the
transmission of a head frame. -/
theorem frameTraffic : Obligations.FrameTraffic := by
  unfold Obligations.FrameTraffic
  refine ⟨⟨?receive, ?recover⟩, ?transmit⟩
  case receive =>
    intro s q f hq ha he
    simp only []
    refine ⟨fun hl => ?_, fun hl hb => ?_, fun hl hb hlo hhi ht hr hs hd => ⟨fun hn hsp h12 heng => ?default, ?stream⟩⟩
    · rw [exec_frameReceive, frameReceive_down hq ha he hl]
    · rw [exec_frameReceive, frameReceive_discards hq ha he hl hb]
    case default =>
      exact ⟨_, rfl, frameReceive_ingress (P := fun t => t.handovers = _) hq ha he hl hb hlo hhi ht (ingress_default ⟨hr, hs, hd⟩ hn hsp h12 heng)
        fun x => ingress_default (m := s.m.setPort q x) ⟨hr, hs, hd⟩ hn hsp h12 heng⟩
    case stream =>
      intro h tc0 hst hsp hv hg hm hblk hrec _
      have hi : s.m.InStream q f h tc0 := ⟨⟨hr, hs, hd⟩, hst, hsp, hv, hblk⟩
      have hix : ∀ x, (s.m.setPort q x).InStream q f h tc0 := fun x => ⟨⟨hr, hs, hd⟩, hst, hsp, hv, hblk⟩
      refine ⟨fun hlen heng => ⟨_, rfl, ?taken⟩, fun hlen => ⟨_, rfl, ?long⟩⟩
      case taken =>
        exact frameReceive_ingress (P := fun t => t.handovers = _) hq ha he hl hb hlo hhi ht (ingress_plain hi hlen hg hm hrec heng)
          fun x => ingress_plain (hix x) hlen hg hm hrec heng
      case long =>
        exact frameReceive_ingress (P := fun t => t.handovers = s.m.handovers ∧ bit (t.sf (q / 32) 1 h 0) 61 = bit (s.m.sf (q / 32) 1 h 0) 60)
          hq ha he hl hb hlo hhi ht (ingress_long hi hlen) fun x => ingress_long (hix x) hlen
  case recover =>
    intro v len n d h hn hs
    exact ⟨rfl, rfl, recoverSeq_again len h v, recoverSeq_ahead len h hs, recoverSeq_past len h hs⟩
  case transmit =>
    intro s q e f fs hq h8 hr ha he
    refine ⟨fun hl part late => ?_, fun hl hd hcut hp hf ho hg hc hw hu hpo => ⟨_, rfl, ?sent⟩⟩
    · rw [exec_frameTransmit, transmit_down hl, withM_self]
    case sent =>
      have hone : s.m.OnePlain q e f fs := ⟨hcut, hp, hf, ho, hg, hc, hw⟩
      simp only []
      rw [transmit_sends hq hr ha he hl hd h8 hone]
      exact sendHead_sends hone hu hpo

end Sys2Proof.Machine

/-! SUPPORT. The slots of the maintenance engine (R275, R276, R278, R281, R282): what a line command, the end of a slot and an abort leave. -/

namespace Sys2Proof.Machine

section
variable {m : Mach} {n : Nat}

/-- A slot that runs and may go on to its next line. -/
structure Mach.SlotRuns (m : Mach) (n : Nat) : Prop where
  lt : n < 16
  running : (m.slot n).state = 1
  goesOn : (m.slot n).ending = none
  lines : (m.slot n).ranges ≠ []
  powered : m.powered mntStop 0 = true
  run : m.phase = .run

theorem Mach.SlotRuns.works (h : m.SlotRuns n) : ¬ (16 ≤ n ∨ (m.slot n).state ≠ 1 ∨ (m.slot n).ending.isSome ∨ (m.slot n).ranges.isEmpty ∨
    ! m.powered mntStop 0 ∨ m.phase ≠ .run) := by
  obtain ⟨hn, hs, he, hr, hp, hph⟩ := h
  simp [hs, he, hp, hph, List.isEmpty_iff, hr]
  omega

theorem failSlot_ending (m : Mach) (n status : Nat) : ((m.failSlot n status).slot n).ending = some status := by
  rw [Mach.failSlot, slot_setSlot, if_pos rfl]

theorem lineCommand_revoked {pa gen : Nat} (h : m.SlotRuns n) (hc : (m.slot n).cap = some (pa, gen)) (hv : (m.readGrant pa).valid = false) :
    m.lineCommand n = m.failSlot n 4 := by
  unfold Mach.lineCommand
  simp only [if_neg h.works, hc, hv, Bool.not_false, Bool.true_or, if_true]

/-- The authority of a slot: its grant is as it was when the slot was taken. -/
def Mach.LiveAuthority (m : Mach) (n : Nat) : Prop :=
  ∀ pa gen, (m.slot n).cap = some (pa, gen) → (m.readGrant pa).valid = true ∧ (m.readGrant pa).gen = gen

/-- The checks of the line of a physical slot, and the command on a line that passes them (R278). -/
def Mach.checkedLine (m : Mach) (n : Nat) : Mach :=
  let x := m.slot n
  match (if x.world = .secure then none else m.carveOf x.addr) with
  | some b => m.refuseLine n (m.carveSite x.addr b).1 (m.carveSite x.addr b).2.1 (m.carveSite x.addr b).2.2 .carve
  | none =>
    match m.locate x.addr with
    | .window st k _ => if m.answers st k then m.refuseLine n st k x.addr .ctlForm else m.refuseLine n st 0xFE x.addr .ctlUnpowered
    | .bell q _ => m.refuseLine n (leStop (q / 2048)) 0 x.addr .ctlForm
    | .hole st => m.refuseLine n st 0xFE x.addr .ctlUnmapped
    | .none => m.refuseLine n mntStop 0xFE x.addr .ctlUnmapped
    | .rp r _ => if m.answers (rpStop r) (rpWin r) then m.carryOut n x.addr else m.refuseLine n (rpStop r) 0xFE x.addr .ctlUnpowered
    | .cm k _ => if m.answers (ccStop k) 0 then m.carryOut n x.addr else m.refuseLine n (ccStop k) 0xFE x.addr .ctlUnpowered
    | _ =>
      if x.need ≠ 0 ∧ ! m.tagonly ∧ (lineWords x.addr).any (fun w => decide ((m.metaAt (w * 8)).colour.toNat ≠ x.need))
      then (m.logViol mntStop 0 ⟨x.addr % 2 ^ 48, true, mntStop, 0x3F, .dmawr, .cap⟩).failSlot n 2
      else m.carryOut n x.addr

section
variable (h : m.SlotRuns n) (hl : m.LiveAuthority n) (hv : (m.slot n).virt = false) (ho : m.lineOpen ((m.slot n).addr / 64) = false)
  (hm : m.sltMove = none)
include h hl hv ho hm

/-- A physical slot under a live authority, with no transaction on its line, comes to the checks of the line. -/
theorem lineCommand_checks : m.lineCommand n = m.checkedLine n := by
  have hpa : m.slotPa (m.slot n) = some ((m.slot n).addr, m) := by
    unfold Mach.slotPa
    simp only [hv, Bool.not_false, if_true]
  unfold Mach.lineCommand
  simp only [if_neg h.works, hpa, ho, hm, Option.map_none, Bool.false_eq_true, reduceCtorEq, or_false, and_false, if_false]
  cases hc : (m.slot n).cap with
  | none => rfl
  | some p =>
    obtain ⟨hvalid, hgen⟩ := hl p.1 p.2 hc
    simp only [hvalid, hgen, Bool.not_true, ne_eq, not_true_eq_false, decide_false, Bool.or_false, Bool.false_eq_true, if_false]
    rfl

theorem lineCommand_carries (hd : m.locate (m.slot n).addr = .dram) (hc : m.carveOf (m.slot n).addr = none) (hn : (m.slot n).need = 0) :
    m.lineCommand n = m.carryOut n (m.slot n).addr := by
  rw [lineCommand_checks h hl hv ho hm, Mach.checkedLine]
  simp only [hc, hd, hn, ite_self, ne_eq, not_true_eq_false, false_and, if_false]

theorem lineCommand_carveOut {b : Nat} (hw : (m.slot n).world ≠ .secure) (hc : m.carveOf (m.slot n).addr = some b) :
    ((m.lineCommand n).slot n).ending = some 2 := by
  rw [lineCommand_checks h hl hv ho hm, Mach.checkedLine]
  simp only [if_neg hw, hc]
  exact failSlot_ending _ _ _

end

/-! ### The end of a slot -/

theorem slotDone_ends {k : Nat} (hn : n < 16) (hs : (m.slot n).state = 1) (he : (m.slot n).ending = some k) : m.slotDone n = m.endSlot n k := by
  unfold Mach.slotDone
  simp only [hs, he, if_neg (show ¬ (16 ≤ n ∨ (1 : Nat) ≠ 1) by omega)]

theorem slotDone_finished (hn : n < 16) (hs : (m.slot n).state = 1) (he : (m.slot n).ending = none) (hr : (m.slot n).ranges = [])
    (ho : (m.slot n).op ≠ 4) (hu : (m.slot n).ueAt = none) : m.slotDone n = m.endSlot n 0 := by
  unfold Mach.slotDone
  simp only [hs, he, hr, hu, ho, if_neg (show ¬ (16 ≤ n ∨ (1 : Nat) ≠ 1) by omega), List.isEmpty_nil, Bool.not_true, Bool.false_eq_true, false_and,
    or_self, if_false]

/-- A slot that ended with a status. -/
def Slot.ended (x : Slot) (k : Nat) : Slot := { x with state := 2, status := k, ending := none }

/-- The end of a slot writes that slot, and no other. -/
theorem endSlot_slot (m : Mach) (n k j : Nat) : (m.endSlot n k).slot j =
    if j = n then (m.slot n).ended k else m.slot j := by
  let m1 : Mach := { m.setSlot n ((m.slot n).ended k) with
    sweepsRun := m.sweepsRun.filter (fun q => decide ((m.slot n).op ≠ 4) || decide (q ≠ (m.slot n).sweep)) }
  have howned : (if k = 5 then m1.raiseOwn mntStop 1 none else m1).slots = m1.slots := by
    split <;> rfl
  have hslots : (m.endSlot n k).slots = m1.slots := by
    unfold Mach.endSlot
    simp only []
    split
    · exact (raiseEvent_same (·.slots) (fun _ _ => rfl) (fun _ _ => rfl) _ _).trans howned
    · exact howned
  rw [Mach.slot, hslots]
  exact slot_setSlot m n j ((m.slot n).ended k)

end

/-! ### Aborted slots (R282) -/

/-- A slot after an abort that names it or not. -/
def Slot.aborted (x : Slot) (named : Bool) : Slot := if named ∧ x.state = 1 then x.ended 1 else x

theorem mntAbort_slot (m : Mach) (v : W64) {n : Nat} (hn : n < 16) : (m.mntAbort v).slot n = (m.slot n).aborted (bit v n) := by
  unfold Mach.mntAbort
  rw [get_foldl_range (get := Mach.slot) (g := fun i x => x.aborted (bit v i)), if_pos hn]
  intro t i j
  unfold Slot.aborted
  split
  · exact endSlot_slot t i 1 j
  · by_cases hj : j = i
    · rw [hj, if_pos rfl]
    · rw [if_neg hj]

/-! ### The sweep of a core -/

theorem sweepWord_data (x : Core) (q : SweepReq) (w : Word) : (x.sweepWord q w).data = w.data := by
  unfold Core.sweepWord
  split <;> rfl

theorem sweepWord_tag (x : Core) (q : SweepReq) (w : Word) : (x.sweepWord q w).tag = true ↔
    w.tag = true ∧ ¬ (w.tsel = q.tsel ∧ w.index = q.index ∧ (q.tsel = true ∨ x.gtab = q.gtab)) := by
  have hswept : x.sweptBy q w = true ↔ w.tag = true ∧ w.tsel = q.tsel ∧ w.index = q.index ∧ (q.tsel = true ∨ x.gtab = q.gtab) := by
    simp [Core.sweptBy, and_assoc]
  unfold Core.sweepWord
  split
  case isTrue h => simp [(hswept.mp h).2]
  case isFalse h =>
    rw [hswept] at h
    exact ⟨fun ht => ⟨ht, fun hn => h ⟨ht, hn⟩⟩, And.left⟩

/-! ### The commands -/

section
variable {s : State} {n : Nat}

theorem exec_maintenanceCommand : exec (.maintenanceCommand n) s = .next (s.withM (s.m.lineCommand n)) := rfl
theorem exec_slotDone : exec (.slotDone n) s = .next (s.withM (s.m.slotDone n)) := rfl
theorem exec_mntAbort {mst : Master} {v : W64} (h : s.m.Opens mst mntStop 0 0x48) :
    exec (.mntAbort mst v) s = .next (s.withM (s.m.mntAbort v)) := by
  change s.upd (fun m => m.window mst mntStop 0 0x48 (fun m => m.mntAbort v)) = _
  rw [upd_eq, window_open h]

end

/-- Settles O35: the next line of a slot, the authority that was revoked, the ends of a slot, its abort, and the sweep of a core. -/
theorem maintenanceSlots : Obligations.MaintenanceSlots := by
  unfold Obligations.MaintenanceSlots
  refine ⟨⟨?line, ?revoked, ?done, ?ends, ?abort⟩, ?sweep⟩
  case line =>
    intro s n ⟨hn, hs, he, hr, hp, hph, hv, hl⟩
    have h : s.m.SlotRuns n := ⟨hn, hs, he, hr, hp, hph⟩
    refine fun hd ho hm => ⟨fun hc hneed => ?_, fun hw b hc => ⟨_, rfl, lineCommand_carveOut h hl hv ho hm hw hc⟩⟩
    rw [exec_maintenanceCommand, lineCommand_carries h hl hv ho hm hd hc hneed]
  case revoked =>
    intro s n pa gen hn hs he hr hp hph hc hv
    refine ⟨_, exec_maintenanceCommand, ?_⟩
    rw [lineCommand_revoked ⟨hn, hs, he, hr, hp, hph⟩ hc hv]
    exact failSlot_ending _ _ _
  case done =>
    refine fun s n hn hs => ⟨fun k he => ?_, fun he hr ho hu => ?_⟩
    · rw [exec_slotDone, slotDone_ends hn hs he]
    · rw [exec_slotDone, slotDone_finished hn hs he hr ho hu]
  case ends =>
    intro m n k
    rw [endSlot_slot, if_pos rfl]
    exact ⟨rfl, rfl⟩
  case abort =>
    intro s mst v hopen
    refine ⟨_, exec_mntAbort hopen, fun n hn hb hs => ?_⟩
    rw [mntAbort_slot s.m v hn, Slot.aborted, if_pos ⟨hb, hs⟩]
    exact ⟨rfl, rfl⟩
  case sweep =>
    exact fun x q => ⟨fun w => ⟨sweepWord_data x q w, sweepWord_tag x q w⟩, rfl, rfl, rfl, rfl, rfl,
      fun l hl => of_decide_eq_true (List.mem_filter.mp hl).2, rfl, rfl⟩

end Sys2Proof.Machine

/-! SUPPORT. Memory controllers (R295 to R298, R301, R303, R305): what a request, a refresh, a calibration, RETRAIN, a failure and the
ordering mode leave. -/

namespace Sys2Proof.Machine

section
variable {m : Mach}

/-! ### Requests -/

/-- The request that a line of DRAM gives at its channel (R295). -/
def Mach.requestOf (m : Mach) (mst : Master) (line tc : Nat) (op : McOp) : McReq :=
  ⟨(m.channelOf (line * 64)).1, (m.channelOf (line * 64)).2, line, mst.stop, mst.unit, tc, mst.world, decide (op ≠ .read),
    bit (m.reg (chanStop (m.channelOf (line * 64)).1) 0 0x40) 0, false, false⟩

section
variable {mst : Master} {line tc : Nat} {op : McOp} (hd : m.locate (line * 64) = .dram) (hr : m.phase = .run)
include hd hr

/-- A request for DRAM meets no carve-out of a pinned region. -/
theorem mcRequest_failed (hs : m.chanState (m.channelOf (line * 64)).1 = 4) :
    m.mcRequest mst line tc op false 0 = m.raiseOpt (chanStop (m.channelOf (line * 64)).1) (some 4) (line * 64) := by
  unfold Mach.mcRequest Mach.isPinned
  simp only [hd, hr, hs, Bool.not_true, Bool.not_false, Bool.false_eq_true, ne_eq, not_true_eq_false, or_self, or_true, if_false, if_true]

theorem mcRequest_inactive (h2 : m.chanState (m.channelOf (line * 64)).1 ≠ 2) (h4 : m.chanState (m.channelOf (line * 64)).1 ≠ 4) :
    m.mcRequest mst line tc op false 0 = m := by
  unfold Mach.mcRequest Mach.isPinned
  simp only [hd, hr, h2, h4, Bool.not_true, Bool.not_false, Bool.false_eq_true, ne_eq, not_true_eq_false, not_false_eq_true, or_self, or_true,
    if_false, if_true]

variable (hq : m.mcRetried = []) (hs : m.chanState (m.channelOf (line * 64)).1 = 2)
include hq hs

theorem mcRequest_takes (hp : m.positionFree (m.channelOf (line * 64)).1 tc = true) (ht : tc ≠ 0) : m.mcRequest mst line tc op false 0 =
    (Mach.positionStat { m with mcReqs := m.mcReqs ++ [m.requestOf mst line tc op] } ((m.channelOf (line * 64)).1 / 2)).accept
      (m.requestOf mst line tc op) op := by
  have hm : { m with mcRetried := [] } = m := by rw [← hq]
  have hrun : (m.phase ≠ .run) = False := by simp [hr]
  unfold Mach.mcRequest Mach.isPinned
  simp only [hd, hrun, hs, hq, hm, hp, ht, Bool.not_true, Bool.not_false, Bool.false_eq_true, ne_eq, not_true_eq_false, or_self, or_true, if_false, if_true,
    List.any_nil, List.filter_nil, Nat.reduceEqDiff]
  cases op <;> rfl

theorem mcRequest_retried (hp : m.positionFree (m.channelOf (line * 64)).1 tc = false) : m.mcRequest mst line tc op false 0 =
    (({ m with mcRetried := [m.requestOf mst line tc op] }).countReg (chanStop (m.channelOf (line * 64)).1) 0 0x48 32 32 1).countMc
      (m.requestOf mst line tc op) 0x227 := by
  have hm : { m with mcRetried := [] } = m := by rw [← hq]
  have hrun : (m.phase ≠ .run) = False := by simp [hr]
  unfold Mach.mcRequest Mach.isPinned
  simp only [hd, hrun, hs, hq, hm, hp, Bool.not_true, Bool.not_false, Bool.false_eq_true, ne_eq, not_true_eq_false, or_self, or_true, if_false, if_true,
    List.any_nil, List.filter_nil, Nat.reduceEqDiff, List.nil_append]
  cases op <;> rfl

end

/-- A count at a controller leaves what neither registers nor pending events are part of. -/
theorem countMc_same {α : Type} (f : Mach → α) (hev : ∀ (t : Mach) l, f { t with evPend := l } = f t)
    (hreg : ∀ (t : Mach) st k off v, f (t.setReg st k off v) = f t) (m : Mach) (q : McReq) (ev : Nat) : f (m.countMc q ev) = f m :=
  countUncore_same f hev hreg m _ _ _

/-! ### Maintenance of a channel -/

theorem openRow_closeRow (m : Mach) (key : Nat) : (m.closeRow key).openRow key = 0 := (Tab.get_del _ _ _ _).trans (if_pos rfl)

section
variable {ch : Nat} (hs : m.chanState ch = 2)
include hs

theorem refresh_runs (sub rank bank : Nat) : m.refresh ch sub rank bank false =
    { m.closeRow (bankKey ch sub rank bank) with refreshDue := Tab.del m.refreshDue (bankKey ch sub rank bank) } := by
  unfold Mach.refresh
  simp only [hs, ne_eq, not_true_eq_false, if_false, Bool.false_and, Bool.false_eq_true]

theorem refresh_postponed (sub rank bank : Nat) {q : McReq} (hq : q ∈ m.mcReqs) (hc : q.chan = ch) (h0 : q.cls = 0) :
    m.refresh ch sub rank bank true = { m with refreshDue := (Tab.set 0 m.refreshDue (bankKey ch sub rank bank)
      (min (Tab.get 0 m.refreshDue (bankKey ch sub rank bank) + 1) 5)) } := by
  have hwait : m.mcReqs.any (fun q => decide (q.chan = ch) && decide (q.cls ≤ 1)) = true :=
    List.any_eq_true.mpr ⟨q, hq, by simp [hc, h0]⟩
  unfold Mach.refresh
  simp only [hs, ne_eq, not_true_eq_false, if_false, hwait, Bool.and_self, if_true]

theorem calibrate_active (sub : Nat) : m.calibrate ch sub =
    { m.closeSub ch sub with retrains := Tab.set 0 m.retrains ch (Tab.get 0 m.retrains ch - 1) } :=
  if_neg (not_not_intro hs)

theorem retrain_active : m.retrain ch = { m with retrains := Tab.set 0 m.retrains ch (Tab.get 0 m.retrains ch + 2) } :=
  if_neg (not_not_intro hs)

end

/-- A failed channel shows FAILED and its cause (R305). -/
theorem failChannel_fails {ch why : Nat} (hc : ch < 12) (hw : why < 16) (hs : m.chanState ch ≠ 4) :
    (m.failChannel ch why).chanState ch = 4 ∧ fld ((m.failChannel ch why).dphy ch 0x40) 16 4 = why := by
  have hkey : cellKey (chanStop ch) (dphyWin ch) 0x40 ≠ cellKey (mcStop (ch / 2)) 0 0x48 := by
    unfold cellKey dphyWin chanStop
    omega
  have hown : ∀ u : Mach, (u.raiseOwn (chanStop ch) 4 none).dphy ch 0x40 = u.dphy ch 0x40 := fun _ => rfl
  have hstat : ∀ u : Mach, (u.positionStat (ch / 2)).dphy ch 0x40 = u.dphy ch 0x40 := fun u => reg_setReg_ne u _ hkey
  have hreqs : ∀ (u : Mach) l l', ({ u with mcReqs := l, mcRetried := l' } : Mach).dphy ch 0x40 = u.dphy ch 0x40 := fun _ _ _ => rfl
  have hdphy : (m.failChannel ch why).dphy ch 0x40 = setFld (setFld (m.dphy ch 0x40) 0 3 4) 16 4 why := by
    unfold Mach.failChannel
    rw [if_neg (by omega)]
    simp only [hown, hstat, hreqs]
    exact reg_setReg_self _ _ _ _ _
  have hstate : (m.failChannel ch why).chanState ch = fld ((m.failChannel ch why).dphy ch 0x40) 0 3 := rfl
  rw [hstate, hdphy]
  refine ⟨?_, (fld_setFld_same _ _ (by decide)).trans (Nat.mod_eq_of_lt hw)⟩
  exact (fld_setFld_ne _ _ (by decide) (by decide)).trans (fld_setFld_same _ _ (by decide))

end

/-! ### The commands -/

section
variable {s : State} {mst : Master}

theorem exec_mcRequest (line tc : Nat) (op : McOp) (summMiss : Bool) (slots : Nat) : exec (.mcRequest mst line tc op summMiss slots) s =
    .next (s.withM (s.m.mcRequest mst line tc op summMiss slots)) := rfl
theorem exec_refresh (ch sub rank bank : Nat) (postpone : Bool) : exec (.refresh ch sub rank bank postpone) s =
    .next (s.withM (s.m.refresh ch sub rank bank postpone)) := rfl
theorem exec_calibration (ch sub : Nat) : exec (.calibration ch sub) s = .next (s.withM (s.m.calibrate ch sub)) := rfl
theorem exec_rowIdleClose (ch sub rank bank : Nat) : exec (.rowIdleClose ch sub rank bank) s =
    .next (s.withM (s.m.closeRow (bankKey ch sub rank bank))) := rfl

theorem exec_parityRetryFail {ch : Nat} (hs : s.m.chanState ch = 2) : exec (.parityRetryFail ch) s =
    .next (s.withM (s.m.failChannel ch 4)) := by
  change s.upd (fun m => if m.chanState ch = 2 then m.failChannel ch 4 else m) = _
  rw [upd_eq, if_pos hs]

theorem exec_dphyRetrain {ch : Nat} (hc : ch < 12) (h : s.m.Opens mst (chanStop ch) (dphyWin ch) 0x58) :
    exec (.dphyRetrain mst ch) s = .next (s.withM (s.m.retrain ch)) := by
  change s.upd (fun m => if 12 ≤ ch then m else m.window mst (chanStop ch) (dphyWin ch) 0x58 (fun m => m.retrain ch)) = _
  rw [upd_eq, if_neg (by omega), window_open h]

theorem exec_dphyFail {ch : Nat} (hc : ch < 12) (h : s.m.Opens mst (chanStop ch) (dphyWin ch) 0x58) :
    exec (.dphyFail mst ch) s = .next (s.withM (s.m.failChannel ch 5)) := by
  change s.upd (fun m => if 12 ≤ ch then m else m.window mst (chanStop ch) (dphyWin ch) 0x58 (fun m => m.failChannel ch 5)) = _
  rw [upd_eq, if_neg (by omega), window_open h]

theorem exec_mcOrderWrite {mc : Nat} (hc : mc < 6) (h : s.m.Opens mst (mcStop mc) 0 0x40) (compat : Bool) :
    exec (.mcOrderWrite mst mc compat) s = .next (s.withM (s.m.orderWrite mc compat)) := by
  change s.upd (fun m => if 6 ≤ mc then m else m.window mst (mcStop mc) 0 0x40 (fun m => m.orderWrite mc compat)) = _
  rw [upd_eq, if_neg (by omega), window_open h]

end

/-- Settles O36: a request by its channel's state and positions, and the maintenance, failure and ordering of channels. -/
theorem memoryChannels : Obligations.MemoryChannels := by
  unfold Obligations.MemoryChannels
  refine ⟨?requests, ⟨?active, ?idle, ?dphy, ?parity, ?order⟩⟩
  case requests =>
    intro s mst line tc op
    refine fun hd hr hq => ⟨fun hs => ?_, fun h2 h4 => ?_, fun hs hp ht => ?_, fun hs hp => ⟨_, exec_mcRequest _ _ _ _ _, ?_⟩⟩
    · rw [exec_mcRequest, mcRequest_failed hd hr hs]
    · rw [exec_mcRequest, mcRequest_inactive hd hr h2 h4, withM_self]
    · rw [exec_mcRequest, mcRequest_takes hd hr hq hs hp ht]
      rfl
    · rw [mcRequest_retried hd hr hq hs hp]
      exact ⟨countMc_same (·.mcRetried) (fun _ _ => rfl) (fun _ _ _ _ _ => rfl) _ _ _,
        countMc_same (·.mcReqs) (fun _ _ => rfl) (fun _ _ _ _ _ => rfl) _ _ _,
        countMc_same (·.mem) (fun _ _ => rfl) (fun _ _ _ _ _ => rfl) _ _ _⟩
  case active =>
    refine fun s ch sub rank bank hs => ⟨⟨_, exec_refresh _ _ _ _ _, ?_⟩, fun q hq hc h0 => ⟨_, exec_refresh _ _ _ _ _, ?_⟩,
      ⟨_, exec_calibration _ _, ?_⟩⟩
    · rw [refresh_runs hs]
      exact ⟨openRow_closeRow _ _, (Tab.get_del _ _ _ _).trans (if_pos rfl)⟩
    · rw [refresh_postponed hs sub rank bank hq hc h0]
      exact ⟨rfl, Tab.get_set_self (β := Nat) _ _ _ _⟩
    · rw [calibrate_active hs]
      exact ⟨rfl, Tab.get_set_self _ _ _ _⟩
  case idle => exact fun s ch sub rank bank => ⟨_, exec_rowIdleClose _ _ _ _, openRow_closeRow _ _⟩
  case dphy =>
    refine fun s mst ch hc hopen => ⟨fun hs => ⟨_, exec_dphyRetrain hc hopen, ?_⟩, fun hs => ⟨_, exec_dphyFail hc hopen, ?_⟩⟩
    · rw [retrain_active hs]
      exact Tab.get_set_self 0 s.m.retrains ch (Tab.get 0 s.m.retrains ch + 2)
    · exact failChannel_fails hc (by decide) hs
  case parity =>
    exact fun s ch hc hs => ⟨_, exec_parityRetryFail hs, failChannel_fails hc (by decide) (by omega)⟩
  case order =>
    refine fun s mst mc compat hc hopen => ⟨fun h => ?_, fun hcompat hcopy => ?_⟩
    · rw [exec_mcOrderWrite hc hopen, Mach.orderWrite, if_neg (by rcases h with h | h <;> simp [h])]
    · rw [exec_mcOrderWrite hc hopen, Mach.orderWrite, if_pos ⟨hcompat, hcopy⟩]

end Sys2Proof.Machine

/-! SUPPORT. Requests to a home and the snoops they need (R247, R250 to R252, R254). -/

namespace Sys2Proof.Machine

section
variable {m : Mach}

/-! ### A request reaches its home -/

theorem isC_vcore {a : Nat} (h : a < 144) : isC a = false := decide_eq_false (by omega)

/-- A request that needs no way of the directory, or finds one, goes to its home as it is (R254). -/
theorem cacheReq_submits {k : ReqKind} {a : Nat} (line tc : Nat) (ha : a < 176) (hk : k = .rds ∨ a < 144) :
    m.cacheReq k a line tc none false = m.submit (m.agentReq k a line tc) := by
  have hkind : ¬ (176 ≤ a ∨ (isC a ∧ k ≠ .rds)) := by
    rcases hk with rfl | ha'
    · simp
      omega
    · simp [isC_vcore ha']
      omega
  unfold Mach.cacheReq
  simp only [if_neg hkind, Bool.false_eq_true, if_false, ite_self]

/-- A request that no bucket move, carve-out or earlier Retry holds up. -/
structure Mach.ReachesHome (m : Mach) (t : Txn) : Prop where
  homed : m.homed (t.line * 64) = true
  settled : m.sltMove = none
  open_ : m.carveOf (t.line * 64) = none
  first : m.retried = []

section
variable {t : Txn} (h : m.ReachesHome t)
include h

theorem submit_taken (hf : m.trackerFree (m.home t.line) t.tc = true) : m.submit t = Mach.run { m with txns := m.txns ++ [t] } t.line := by
  unfold Mach.submit
  simp only [h.homed, h.settled, h.open_, h.first, hf, Bool.not_true, Bool.false_eq_true, if_false, if_true, Option.map_none, reduceCtorEq, ite_self,
    List.find?_nil]

theorem submit_retried (hf : m.trackerFree (m.home t.line) t.tc = false) : m.submit t =
    ((Mach.countReg { m with retried := [⟨m.home t.line, t, false, false⟩] } (podStop (m.home t.line)) 5 0x108 32 32 1).countReq t 0x205 1) := by
  unfold Mach.submit
  simp only [h.homed, h.settled, h.open_, h.first, hf, Bool.not_true, Bool.false_eq_true, if_false, Option.map_none, reduceCtorEq, ite_self,
    List.find?_nil, List.nil_append]

end

theorem countReq_same {α : Type} (f : Mach → α) (hev : ∀ (t : Mach) l, f { t with evPend := l } = f t)
    (hreg : ∀ (t : Mach) st k off v, f (t.setReg st k off v) = f t) (m : Mach) (t : Txn) (ev n : Nat) : f (m.countReq t ev n) = f m :=
  countUncore_same f hev hreg m _ _ _

end

/-! ### Snoops -/

section
variable {e : DirEnt} {t : Txn}

/-- A read for sharing asks for copies only. -/
theorem snoopsOf_rds_copies (hk : t.kind = .rds) : ∀ q ∈ snoopsOf e t, q.2 = .K := by
  unfold snoopsOf
  simp only [hk]
  intro q hq
  obtain ⟨a, -, rfl⟩ := Option.map_eq_some_iff.mp (Option.mem_toList.mp hq)
  rfl

theorem snoopsOf_rds_owner {o : Nat} (hk : t.kind = .rds) (ho : e.owner = some o) (ha : t.agent ≠ some o) : snoopsOf e t = [(o, .K)] := by
  unfold snoopsOf
  simp only [hk, ho, Option.filter_some, decide_eq_true ha, if_true]
  rfl

theorem snoopsOf_rdx_owner {o : Nat} (hk : t.kind = .rdx) (ho : e.owner = some o) (ha : t.agent ≠ some o) : (o, .X) ∈ snoopsOf e t := by
  unfold snoopsOf
  simp only [hk, ho, Option.filter_some, decide_eq_true ha, if_true]
  exact List.mem_append_left _ (List.mem_singleton.mpr rfl)

/-- A sharer that is neither the requester nor the keeper is among the others that an invalidation goes to. -/
theorem mem_others {a : Nat} (hm : a ∈ e.agents) (ha : t.agent ≠ some a) (hk : e.keeper ≠ some a) :
    (a, Snp.I) ∈ ((e.agents.filter (fun a => decide (t.agent ≠ some a) && decide (e.keeper ≠ some a))).eraseDups).map (fun a => (a, Snp.I)) :=
  List.mem_map.mpr ⟨a, List.mem_eraseDups.mpr (List.mem_filter.mpr ⟨hm, by simp [ha, hk]⟩), rfl⟩

/-- The keeper, where it is not the requester, is snooped. -/
theorem mem_keeper {a : Nat} (k : Snp) (ha : t.agent ≠ some a) (hk : e.keeper = some a) :
    (a, k) ∈ ((e.keeper.filter (fun a => decide (t.agent ≠ some a))).map (fun a => (a, k))).toList := by
  simp [hk, ha]

/-- A read to own invalidates every sharer of a line without an owner. -/
theorem snoopsOf_own_sharer {a : Nat} (hk : t.kind = .rdx ∨ t.kind = .upg) (ho : e.owner = none) (hm : a ∈ e.agents) (ha : t.agent ≠ some a) :
    ∃ k, (a, k) ∈ snoopsOf e t ∧ (k = .X ∨ k = .I) := by
  by_cases hkeep : e.keeper = some a
  · refine ⟨.X, ?_, .inl rfl⟩
    unfold snoopsOf
    rcases hk with hk | hk <;> simp only [hk, ho] <;> exact List.mem_append_left _ (mem_keeper _ ha hkeep)
  · refine ⟨.I, ?_, .inr rfl⟩
    unfold snoopsOf
    rcases hk with hk | hk <;> simp only [hk] <;> exact List.mem_append_right _ (mem_others hm ha hkeep)

/-- A write at the home invalidates every sharer. -/
theorem snoopsOf_write_sharer {a : Nat} (hk : t.kind = .wru ∨ t.kind = .atomf) (hm : a ∈ e.agents) (ha : t.agent ≠ some a) :
    (a, Snp.I) ∈ snoopsOf e t := by
  unfold snoopsOf
  by_cases hkeep : e.keeper = some a
  · rcases hk with hk | hk <;> simp only [hk] <;> exact List.mem_append_left _ (List.mem_append_right _ (mem_keeper _ ha hkeep))
  · rcases hk with hk | hk <;> simp only [hk] <;> exact List.mem_append_right _ (mem_others hm ha hkeep)

theorem snoopsOf_rdu_unowned (hk : t.kind = .rdu) (ho : e.owner = none) : snoopsOf e t = [] := by
  unfold snoopsOf
  simp only [hk, ho]
  rfl

end

/-! ### The commands -/

section
variable {s : State} {a line tc : Nat}

theorem exec_rds (v : Option Nat) (p : Bool) : exec (.rds a line tc v p) s = .next (s.withM (s.m.cacheReq .rds a line tc v p)) := rfl
theorem exec_rdx (v : Option Nat) (p : Bool) : exec (.rdx a line tc v p) s = .next (s.withM (s.m.cacheReq .rdx a line tc v p)) := rfl
theorem exec_upg (v : Option Nat) (p : Bool) : exec (.upg a line tc v p) s = .next (s.withM (s.m.cacheReq .upg a line tc v p)) := rfl

theorem exec_wrm {mst : Master} {mask poison : Nat} {data : List W64} (h : s.m.inMirror (line * 64) = true) :
    exec (.wrm mst line tc mask data poison) s = .next (s.withM (s.m.submit
      { Txn.new .wrm line mst.stop mst.unit (coreOf mst.stop mst.unit) tc mst.world with
        mask := mask % 2 ^ 64, data := data, poison := poison })) := by
  change s.upd (fun m => if ! m.inMirror (line * 64) then m else m.submit _) = _
  rw [upd_eq, h, if_neg (by decide)]

end

/-- Settles O32: every request comes to `submit`, which takes or retries it; and the snoops of each kind. -/
theorem coherenceRequests : Obligations.CoherenceRequests := by
  unfold Obligations.CoherenceRequests
  refine ⟨⟨?known, ?unknown, ?devices, ?home⟩, ?snoops⟩
  case known =>
    refine fun s a line tc ha _ => ⟨?_, fun hv => ⟨?_, ?_⟩⟩
    · rw [exec_rds, cacheReq_submits line tc ha (.inl rfl)]
    · rw [exec_rdx, cacheReq_submits line tc ha (.inr hv)]
    · rw [exec_upg, cacheReq_submits line tc ha (.inr hv)]
  case unknown =>
    refine fun s a line tc hv _ => ⟨?_, ?_⟩
    · rw [exec_rds, cacheReq_submits line tc (by omega) (.inl rfl)]
    · rw [exec_rdx, cacheReq_submits line tc (by omega) (.inr hv)]
  case devices => exact fun s mst line tc mask i op poison data a b => ⟨rfl, rfl, exec_wrm, rfl⟩
  case home =>
    intro m t hh hs hc hr
    have h : m.ReachesHome t := ⟨hh, hs, hc, hr⟩
    refine ⟨submit_taken h, fun hf => ?_⟩
    rw [submit_retried h hf]
    exact ⟨countReq_same (·.retried) (fun _ _ => rfl) (fun _ _ _ _ _ => rfl) _ _ _ _,
      countReq_same (·.txns) (fun _ _ => rfl) (fun _ _ _ _ _ => rfl) _ _ _ _⟩
  case snoops =>
    exact fun e t => ⟨snoopsOf_rds_copies, fun hk o ho ha => snoopsOf_rds_owner hk ho ha, fun hk o ho ha => snoopsOf_rdx_owner hk ho ha,
      fun hk ho a hm ha => snoopsOf_own_sharer hk ho hm ha, fun hk a hm ha => ⟨_, snoopsOf_write_sharer hk hm ha⟩, snoopsOf_rdu_unowned⟩

end Sys2Proof.Machine

/-! SUPPORT. What the messages of the coherence protocol leave (R247, R250 to R253). -/

namespace Sys2Proof.Machine

/-! ### The L3 leaves the cores alone -/

section
variable {cs : List (Nat × Core)} {m : Mach}

/-- The cores of a machine are `cs`. -/
def Mach.CoresAre (m : Mach) (cs : List (Nat × Core)) : Prop := m.cores = cs

theorem coresAre_of {t : Mach} (h : m.CoresAre cs) (ht : t.cores = m.cores) : t.CoresAre cs := ht.trans h

theorem ite_coresAre {p : Prop} [Decidable p] {t : Mach} (hm : m.CoresAre cs) (ht : t.CoresAre cs) : (if p then m else t).CoresAre cs := by
  split
  · exact hm
  · exact ht

theorem countUncore_coresAre (st : Nat) (u : UncoreEv) (by_ : Nat) (h : m.CoresAre cs) : (m.countUncore st u by_).CoresAre cs :=
  (countUncore_same (·.cores) (fun _ _ => rfl) (fun _ _ _ _ _ => rfl) m _ _ _).trans h

theorem armedWrite_coresAre (st k cls a : Nat) (h : m.CoresAre cs) : (m.armedWrite st k cls a).CoresAre cs := by
  have hdrawn : ∀ u : Mach, ∀ b : Bool, (if b = true then u.drawn else u).cores = u.cores := fun u b => by
    cases b <;> rfl
  unfold Mach.armedWrite
  simp only []
  split
  · exact (hdrawn _ _).trans h
  · exact h

theorem dramStored_coresAre (a : Nat) (h : m.CoresAre cs) : (m.dramStored a).CoresAre cs :=
  foldl_keeps (P := fun t : Mach => t.CoresAre cs) _ _ h fun _ ht _ =>
    ite_coresAre (armedWrite_coresAre _ _ _ _ ht) (armedWrite_coresAre _ _ _ _ (armedWrite_coresAre _ _ _ _ ht))

theorem unstale_coresAre (line : Nat) (h : m.CoresAre cs) : (m.unstale line).CoresAre cs :=
  ite_coresAre (dramStored_coresAre _ ((touchDram_cores _ _).trans h)) h

theorem noteStale_coresAre (line : Nat) (h : m.CoresAre cs) : (m.noteStale line).CoresAre cs := ite_coresAre h h

theorem takeLost_coresAre (line : Nat) (h : m.CoresAre cs) : (m.takeLost line).CoresAre cs := by
  unfold Mach.takeLost
  split
  · exact h
  · exact coresAre_of h rfl

theorem l3ToMemory_coresAre (e : L3Line) (h : m.CoresAre cs) : (m.l3ToMemory e).CoresAre cs := by
  unfold Mach.l3ToMemory
  split
  · exact h
  · split
    · exact h
    · exact unstale_coresAre _ h

theorem allocWay_coresAre (p line stop : Nat) (h : m.CoresAre cs) : (m.allocWay p line stop).2.CoresAre cs := by
  unfold Mach.allocWay
  simp only []
  split
  · exact h
  · split
    · split <;> exact h
    · split <;> exact h

theorem allocL3_coresAre (line stop : Nat) (dirty : Bool) (h : m.CoresAre cs) : (m.allocL3 line stop dirty).2.CoresAre cs := by
  have hway := allocWay_coresAre (m.homeSlice (line * 64)) line stop h
  unfold Mach.allocL3
  simp only []
  split
  · exact h
  · split
    · next he => rwa [he] at hway
    · next he =>
      rw [he] at hway
      refine countUncore_coresAre _ _ _ (takeLost_coresAre line ?_)
      exact foldl_keeps (P := fun t : Mach => t.CoresAre cs) _ _ hway fun _ ht _ =>
        ite_coresAre (countUncore_coresAre _ _ _ (l3ToMemory_coresAre _ ht)) (l3ToMemory_coresAre _ ht)

theorem l3Return_coresAre (line stop : Nat) (h : m.CoresAre cs) : (m.l3Return line stop).CoresAre cs := by
  have hal := allocL3_coresAre line stop true h
  unfold Mach.l3Return
  split
  · exact noteStale_coresAre _ h
  · split
    · next he => rwa [he] at hal
    · next he =>
      rw [he] at hal
      exact unstale_coresAre _ hal

theorem countCore_coresAre (c e by_ : Nat) (h : m.CoresAre cs) : (m.countCore c e by_).CoresAre cs := by
  unfold Mach.countCore Mach.countAs
  simp only []
  refine ite_coresAre h (foldl_keeps (P := fun t : Mach => t.CoresAre cs) _ _ h fun _ ht _ => ite_coresAre ?_ ht)
  exact (bumpCount_same (·.cores) (fun _ _ => rfl) (fun _ _ _ _ _ => rfl) _ _ _ _ _ _ _ _).trans ht

theorem setDir_coresAre (line : Nat) (e : DirEnt) (h : m.CoresAre cs) : (m.setDir line e).CoresAre cs := by
  have hm : (if e = .none then m else m.takeLost line).CoresAre cs := ite_coresAre h (takeLost_coresAre _ h)
  exact hm

end

/-! ### Snoops -/

section
variable {m : Mach} {a line : Nat} {t : Txn}

/-- What a snoop of kind `k` leaves of the transaction: the agent's answer, with or without the line. -/
def Mach.answeredBy (m : Mach) (a line : Nat) (k : Snp) (r : Rsp) (withLine fwd : Bool) : Mach :=
  m.modActive line (fun x => { x with
    snoops := x.snoops.filter (fun q => decide (q ≠ (a, k))), answers := x.answers ++ [(a, r, withLine)], dataSent := x.dataSent || fwd })

/-- A read for sharing or a read to own takes its line from the holder. -/
def Txn.reads (t : Txn) : Bool := decide (t.kind = .rds) || decide (t.kind = .rdx)

/-- A dirty line goes to the home with the answer, but not from a read to own. -/
def Mach.returns (m : Mach) (a line : Nat) (t : Txn) : Bool := decide (m.lineSt a line = .M) && ! decide (t.kind = .rdx)

variable (ha : a < 144) (hact : m.active line = some t) (hst : m.lineSt a line ≠ .I)
include ha hact hst

theorem snoop_keeps (h : t.snoops.contains (a, .K) = true) :
    m.snoop a line .K false = (m.setLine a line .K).answeredBy a line .K .S (m.returns a line t) t.reads := by
  unfold Mach.snoop Mach.heldAs
  simp only [hact, h, isC_vcore ha, hst, Bool.not_true, Bool.false_eq_true, if_false, Bool.and_false]
  rfl

theorem snoop_takes (h : t.snoops.contains (a, .X) = true) :
    m.snoop a line .X false = (m.setLine a line .I).answeredBy a line .X .I (m.returns a line t) t.reads := by
  unfold Mach.snoop Mach.heldAs Mach.loseLine
  simp only [hact, h, isC_vcore ha, hst, Bool.not_true, Bool.false_eq_true, if_false, Bool.and_false]
  rfl

theorem snoop_invalidates (h : t.snoops.contains (a, .I) = true) :
    m.snoop a line .I false = (m.setLine a line .I).answeredBy a line .I .I false false := by
  unfold Mach.snoop Mach.heldAs Mach.loseLine
  simp only [hact, h, isC_vcore ha, hst, Bool.not_true, Bool.false_eq_true, if_false, Bool.and_false]
  rfl

theorem snoop_cleans (h : t.snoops.contains (a, .C) = true) : m.snoop a line .C false =
    (if m.lineSt a line = .M then m.setLine a line .E else m).answeredBy a line .C .S (m.returns a line t) false := by
  unfold Mach.snoop Mach.heldAs
  simp only [hact, h, isC_vcore ha, hst, Bool.not_true, Bool.false_eq_true, if_false, Bool.and_false]
  rfl

end

/-! ### Answers -/

section
variable {m : Mach} {a line : Nat} {t : Txn} (hact : m.active line = some t)
include hact

theorem answer_kept (h : t.answers = [(a, .S, false)]) : m.answer a line .S =
    ((m.modActive line (fun x => { x with answers := x.answers.filter (fun y => decide (y ≠ (a, .S, false))) })).setDir line
      (((m.modActive line (fun x => { x with answers := x.answers.filter (fun y => decide (y ≠ (a, .S, false))) })).dirOf line).keep a)).runEnd
        line := by
  unfold Mach.answer
  simp only [hact, h, List.find?_cons, decide_true, Bool.and_self, Bool.false_eq_true, if_false]

theorem answer_gone (h : t.answers = [(a, .I, false)]) : m.answer a line .I =
    ((m.modActive line (fun x => { x with answers := x.answers.filter (fun y => decide (y ≠ (a, .I, false))) })).setDir line
      (((m.modActive line (fun x => { x with answers := x.answers.filter (fun y => decide (y ≠ (a, .I, false))) })).dirOf line).remove a)).runEnd
        line := by
  unfold Mach.answer
  simp only [hact, h, List.find?_cons, decide_true, Bool.and_self, Bool.false_eq_true, if_false]

theorem answer_writeback (h : t.answers = [(a, .wbf, false)]) (hw : t.wbHere = []) : m.answer a line .wbf =
    ((m.modActive line (fun x => { x with answers := x.answers.filter (fun y => decide (y ≠ (a, .wbf, false))) })).modActive line
      (fun x => { x with wbAwaited := x.wbAwaited ++ [a] })).runEnd line := by
  unfold Mach.answer
  simp only [hact, h, hw, List.find?_cons, decide_true, Bool.and_self, Bool.false_eq_true, if_false, List.contains_nil]

/-! ### Data, GO and CMP -/

variable {stop unit : Nat} (hof : t.of stop unit line = true)
include hof

theorem arrive_data (hs : t.dataSent = true) (hg : t.gotGo = false) :
    m.arrive stop unit line false = m.modActive line (fun _ => { t with gotData := true }) := by
  unfold Mach.arrive
  simp only [hact, hof, hs, hg, if_true, Bool.false_eq_true, if_false, Bool.and_false, Bool.false_and]

theorem arrive_go (hs : t.goSent = true) (hd : t.gotData = true) (hg : t.gotGo = false) :
    m.arrive stop unit line true = (m.modActive line (fun _ => { t with gotGo := true })).installLine { t with gotGo := true } := by
  unfold Mach.arrive
  simp only [hact, hof, hs, hd, hg, if_true, Bool.and_false, Bool.not_false, Bool.and_self]

theorem cmp_ends (hd : t.gotData = true) (hg : t.gotGo = true) : m.cmp stop unit line =
    (Mach.run { m with txns := m.txns.filter (fun x => ! (decide (x.line = line) && x.active)) } line).unpin (m.home line) := by
  unfold Mach.cmp
  simp only [hact, hof, hd, hg, Bool.and_self, if_true]

end

/-! ### Writebacks and evictions -/

section
variable {m : Mach} {a line : Nat} (ha : a < 144) (hh : m.homed (line * 64) = true)
include ha hh

/-- A line that leaves its cache for a writeback buffer. -/
def Mach.toBuffer (m : Mach) (a line : Nat) : Mach := { m.setLine a line .I with wbufs := m.wbufs ++ [(a, line)] }

theorem writeback_dirty (hact : m.active line = none) (hs : m.lineSt a line = .M) : m.writeback a line =
    ((((m.toBuffer a line).countCore a 0x013 1).l3Return line (coreStop a)).setDir line ((m.dirOf line).remove a)) := by
  unfold Mach.writeback
  simp only [hact, hh, hs, isC_vcore ha, Bool.not_true, Bool.false_eq_true, or_self, if_false, ne_eq, not_true_eq_false]
  rfl

theorem evict_clean (hs : m.lineSt a line = .E ∨ m.lineSt a line = .K) (ho : m.lineOpen line = false) :
    m.evict a line = (m.toBuffer a line).setDir line ((m.dirOf line).remove a) := by
  unfold Mach.evict
  simp only [hh, hs, ho, isC_vcore ha, Bool.not_true, Bool.false_eq_true, if_false, false_or]
  rfl

end

theorem lineSt_setLine_self (m : Mach) (a line : Nat) (st : LineSt) : (m.setLine a line st).lineSt a line = st := by
  unfold Mach.setLine Mach.lineSt
  rw [core_setCore, if_pos rfl]
  exact Tab.get_set_self _ _ _ _

theorem Mach.RestIs.wbufs {m x : Mach} (h : m.RestIs x) : m.wbufs = x.wbufs := by
  obtain rfl : m.rest = x := h
  rfl

theorem remove_owner {e : DirEnt} {a : Nat} (h : e.owner = some a) : (e.remove a).owner = none := if_pos h

theorem dirOf_setDir_self (m : Mach) (line : Nat) (e : DirEnt) : (m.setDir line e).dirOf line = e := Tab.get_set_self _ _ _ _

/-- A writeback takes the line from the cache, holds a buffer, and takes the owner from the directory. -/
theorem writeback_leaves {m : Mach} {a line : Nat} (ha : a < 144) (hh : m.homed (line * 64) = true) (hact : m.active line = none)
    (hs : m.lineSt a line = .M) : (m.writeback a line).lineSt a line = .I ∧ (a, line) ∈ (m.writeback a line).wbufs ∧
      ((m.dirOf line).owner = some a → ((m.writeback a line).dirOf line).owner = none) := by
  rw [writeback_dirty ha hh hact hs]
  have hcores : (((((m.toBuffer a line).countCore a 0x013 1).l3Return line (coreStop a)).setDir line ((m.dirOf line).remove a))).CoresAre
      (m.setLine a line .I).cores := setDir_coresAre _ _ (l3Return_coresAre _ _ (countCore_coresAre _ _ _ rfl))
  have hrest := setDir_rest line ((m.dirOf line).remove a) (l3Return_rest line (coreStop a)
    (countCore_rest a 0x013 1 (Eq.refl (m.toBuffer a line).rest)))
  refine ⟨?line, ?buffer, fun ho => ?owner⟩
  case line =>
    have hself := lineSt_setLine_self m a line .I
    unfold Mach.lineSt Mach.core at hself ⊢
    rwa [hcores]
  case buffer =>
    rw [hrest.wbufs]
    exact List.mem_append_right _ (List.mem_singleton.mpr rfl)
  case owner =>
    rw [dirOf_setDir_self]
    exact remove_owner ho

/-! ### Credit -/

theorem credit_one {m : Mach} {p : Nat} {r : Retried} (hr : m.retried = [r]) (hs : r.slice = p) (ht : r.told = true) (hc : r.credited = false)
    (hf : m.trackerFree p r.req.tc = true) : m.credit p = { m with retried := [{ r with credited := true }] } := by
  unfold Mach.credit
  simp only [hr, hs, ht, hc, hf, List.find?_cons, decide_true, Bool.and_self, Bool.not_false, List.map_cons, List.map_nil, if_true]

/-! ### The commands -/

section
variable {s : State} {a line : Nat}

theorem exec_snpk (wb : Bool) : exec (.snpk a line wb) s = .next (s.withM (s.m.snoop a line .K wb)) := rfl
theorem exec_snpx (wb : Bool) : exec (.snpx a line wb) s = .next (s.withM (s.m.snoop a line .X wb)) := rfl
theorem exec_snpi : exec (.snpi a line) s = .next (s.withM (s.m.snoop a line .I false)) := rfl
theorem exec_snpc (wb : Bool) : exec (.snpc a line wb) s = .next (s.withM (s.m.snoop a line .C wb)) := rfl
theorem exec_rsps : exec (.rsps a line) s = .next (s.withM (s.m.answer a line .S)) := rfl
theorem exec_rspi : exec (.rspi a line) s = .next (s.withM (s.m.answer a line .I)) := rfl
theorem exec_rspwbf : exec (.rspwbf a line) s = .next (s.withM (s.m.answer a line .wbf)) := rfl
theorem exec_data {stop unit : Nat} : exec (.data stop unit line) s = .next (s.withM (s.m.arrive stop unit line false)) := rfl
theorem exec_go {stop unit : Nat} : exec (.go stop unit line) s = .next (s.withM (s.m.arrive stop unit line true)) := rfl
theorem exec_cmp {stop unit : Nat} : exec (.cmp stop unit line) s = .next (s.withM (s.m.cmp stop unit line)) := rfl
theorem exec_wbd : exec (.wbd a line) s = .next (s.withM (s.m.writeback a line)) := rfl
theorem exec_evc : exec (.evc a line) s = .next (s.withM (s.m.evict a line)) := rfl
theorem exec_credit {p : Nat} : exec (.credit p) s = .next (s.withM (s.m.credit p)) := rfl

end

/-- Settles O33: each message by what it finds at the holder, the home or the requester. -/
theorem coherenceMessages : Obligations.CoherenceMessages := by
  unfold Obligations.CoherenceMessages
  refine ⟨?snoops, ?answers, ?arrivals, ?evictions, fun s a line => rfl, fun s stop unit line => rfl, ?credit⟩
  case snoops =>
    refine fun s a line t ha hact hst => ⟨fun h => ?_, fun h => ?_, fun h => ?_, fun h => ?_⟩
    · rw [exec_snpk, snoop_keeps ha hact hst h]
      rfl
    · rw [exec_snpx, snoop_takes ha hact hst h]
      rfl
    · rw [exec_snpi, snoop_invalidates ha hact hst h]
      rfl
    · rw [exec_snpc, snoop_cleans ha hact hst h]
      rfl
  case answers =>
    refine fun s a line t hact => ⟨fun h => ?_, fun h => ?_, fun h hw => ?_⟩
    · rw [exec_rsps, answer_kept hact h]
    · rw [exec_rspi, answer_gone hact h]
    · rw [exec_rspwbf, answer_writeback hact h hw]
  case arrivals =>
    refine fun s stop unit line t hact hof => ⟨fun hs _ hg => ?_, fun hs hd hg => ?_, fun hd hg => ?_⟩
    · rw [exec_data, arrive_data hact hof hs hg]
    · rw [exec_go, arrive_go hact hof hs hd hg]
    · rw [exec_cmp, cmp_ends hact hof hd hg]
  case evictions =>
    refine fun s a line ha hh hact => ⟨fun hs => ⟨_, exec_wbd, writeback_leaves ha hh hact hs⟩, fun hs ho => ?_⟩
    rw [exec_evc, evict_clean ha hh hs ho]
    rfl
  case credit =>
    intro s p r hr hs ht hc hf
    rw [exec_credit, credit_one hr hs ht hc hf]

end Sys2Proof.Machine

/-! SUPPORT. Gates and returns (R61, R62, R192): what CGATE and CRETG leave of the compartment of their core. -/

namespace Sys2Proof.Machine

/-! ### Stores and checks leave the core's registers -/

section
variable {d₀ : Nat} {x₀ : Core} {m : Mach}

theorem drainAll_runs (c : Nat) (h : m.RunsAs d₀ x₀) : (m.drainAll c).RunsAs d₀ x₀ := drainOldest_runs _ _ h

theorem orderDevice_runs (c pt : Nat) (h : m.RunsAs d₀ x₀) : (m.orderDevice c pt).RunsAs d₀ x₀ := ite_runs (drainAll_runs _ h) h

theorem coreMesh_runs (c pa : Nat) (h : m.RunsAs d₀ x₀) : (m.coreMesh c pa).RunsAs d₀ x₀ := by
  unfold Mach.coreMesh Mach.countMesh
  split
  · exact countUncore_runs _ _ _ h
  · exact h

theorem loadSide_runs (c : Nat) (p : Piece) (h : m.RunsAs d₀ x₀) : (m.loadSide c p).RunsAs d₀ x₀ := by
  unfold Mach.loadSide
  split
  · exact h
  · exact ite_runs (coreMesh_runs _ _ (orderDevice_runs _ _ h)) (l1Access_runs _ _ _ h)

theorem mbStore_runs (c a n v : Nat) (tag poison : Bool) (h : m.RunsAs d₀ x₀) : (m.mbStore c a n v tag poison).RunsAs d₀ x₀ := by
  unfold Mach.mbStore
  simp only []
  split
  · exact ite_runs (drainAll_runs _ (setCore_runs _ _ h rfl)) (setCore_runs _ _ h rfl)
  · exact ite_runs (drainAll_runs _ (setCore_runs _ _ h rfl)) (drainOldest_runs _ _ (setCore_runs _ _ h rfl))

theorem storeWord_runs (c pt a n v : Nat) (tag poison : Bool) (h : m.RunsAs d₀ x₀) : (m.storeWord c pt a n v tag poison).RunsAs d₀ x₀ := by
  have hside : (if m.ownCm c a then m else (m.orderDevice c pt).coreMesh c a).RunsAs d₀ x₀ :=
    ite_runs h (coreMesh_runs _ _ (orderDevice_runs _ _ h))
  unfold Mach.storeWord
  split
  · exact mbStore_runs _ _ _ _ _ _ h
  · exact l1Inval_runs _ _ (mirrorWrite_runs _ _ _ _ (stored_runs _ (ite_runs
      (setMeta_runs _ _ (writeN_runs _ _ _ (ownFor_runs _ _ _ hside))) (setMeta_runs _ _ (writeN_runs _ _ _ (ownFor_runs _ _ _ hside))))))

theorem storeFrame_runs (c pt : Nat) (ws : List Word) (pa : Nat) (h : m.RunsAs d₀ x₀) : (m.storeFrame c pt pa ws).RunsAs d₀ x₀ := by
  induction ws generalizing m pa with
  | nil => exact h
  | cons w ws ih => exact ih _ (storeWord_runs _ _ _ _ _ _ _ h)

theorem firstPiece_runs (c : Nat) (cap : Word) (ea : Int) (rq : Req) (h : m.RunsAs d₀ x₀) :
    OkAll (fun r => r.2.RunsAs d₀ x₀) (m.firstPiece c cap ea rq) := by
  unfold Mach.firstPiece
  split
  · exact trivial
  · next he =>
    have hchecked := OkAll.elim he (check_runs _ _ _ _ h) id
    split
    · exact trivial
    · exact trivial
    · exact hchecked

theorem gateDesc_runs (c : Nat) (g : Grant) (w2 : W64) (h : m.RunsAs d₀ x₀) : OkAll (fun r => r.2.RunsAs d₀ x₀) (m.gateDesc c g w2) := by
  unfold Mach.gateDesc
  split
  · exact trivial
  · next he =>
    have htrans := OkAll.elim he (translate_runs _ _ _ _ h) id
    split
    · split
      · exact htrans
      · exact trivial
    · split
      · exact trivial
      · split
        · exact trivial
        · exact htrans

end

/-- Core `c` runs, and is outside as it was in `u`. -/
def Mach.RunsFrom (m : Mach) (c : Nat) (u : Mach) : Prop := m.RunsAs c (u.core c).outside

theorem begins_runsFrom {m m1 : Mach} {c : Nat} (h : m.Begins c m1) : m1.RunsFrom c m1 := by
  obtain ⟨-, -, hst, -⟩ := begins_running h
  exact ⟨(congrArg Core.st (begins_outside h)).trans hst, rfl⟩

/-! ### The compartment of a core -/

/-- What of a core says which compartment it runs, with the cursors of its special capabilities. -/
structure Compart where
  st : CoreState
  cmpid : Nat
  gtab : W64
  world : World
  link : Nat
  savecap : Nat
  evcap : Nat
  evmask : W64
  na : Bool

def Core.compart (x : Core) : Compart := ⟨x.st, x.cmpid, x.gtab, x.world, x.link.cursor, x.savecap.cursor, x.evcap.cursor, x.evmask, x.na⟩

theorem compart_of_outside {x y : Core} (h : x.outside = y.outside) : x.compart = y.compart :=
  (congrArg Core.compart h : x.outside.compart = y.outside.compart)

section
variable {m : Mach} {c : Nat}

theorem sweepWord_cursor (x : Core) (q : SweepReq) (w : Word) : (x.sweepWord q w).cursor = w.cursor := by
  unfold Word.cursor
  rw [sweepWord_data]

theorem sweep_compart (x : Core) (q : SweepReq) : (x.sweep q).compart = x.compart := by
  unfold Core.compart Core.sweep
  simp only [sweepWord_cursor]

theorem serialise_compart : ((m.serialise c).core c).compart = (m.core c).compart := by
  unfold Mach.serialise
  simp only []
  split
  · rfl
  · rw [core_setCore_self]
    exact foldl_keeps (P := fun x : Core => x.compart = (m.core c).compart) _ _ rfl fun x hx q => (sweep_compart x q).trans hx

theorem drainAll_compart (h : (m.core c).st = .running) : ((m.drainAll c).core c).compart = (m.core c).compart := by
  have hr : m.RunsAs c (m.core c).outside := ⟨h, rfl⟩
  obtain ⟨-, hout⟩ := drainAll_runs c hr
  exact compart_of_outside hout

theorem enterDomain_compart : ((m.enterDomain c).core c).compart = (m.core c).compart := by
  have hset : ∀ p ds, (((m.setCore c { m.core c with pdom := p, domains := ds }).core c)).compart = (m.core c).compart := fun p ds => by
    rw [core_setCore_self]
    rfl
  have hcount : ∀ u : Mach, ((u.countCore c 0x014 1).core c) = u.core c := fun u => by
    unfold Mach.core
    rw [countCore_coresAre c 0x014 1 (Eq.refl u.cores)]
  unfold Mach.enterDomain
  simp only []
  split
  · rfl
  · split
    · exact hset _ _
    · split
      · exact hset _ _
      · rw [hcount]
        exact hset _ _

theorem gateFlush_compart : ((m.gateFlush c).core c).compart = (m.core c).compart := by
  unfold Mach.gateFlush
  split
  · rw [core_setCore_self]
    rfl
  · rfl

/-- The end of a gate keeps the compartment that the core entered (R61, R62). -/
theorem gateEnd_compart (h : (m.core c).st = .running) : ((m.gateEnd c).core c).compart = (m.core c).compart := by
  have hflush : (((m.enterDomain c).gateFlush c).core c).compart = (m.core c).compart := gateFlush_compart.trans enterDomain_compart
  unfold Mach.gateEnd Mach.serialPoint
  rw [serialise_compart, drainAll_compart ((congrArg Compart.st hflush).trans h), hflush]

/-! ### CGATE -/

/-- The core in the callee's compartment, before its exception grants are taken (R61). -/
def Core.entered (x k y : Core) (d : GateDesc) : Core :=
  { x with world := y.world, vmid := y.vmid, s1 := y.s1, s2root := y.s2root, wtab := y.wtab, gtab := d.gtab, cmpid := d.cmpid
           link := k.link.withCursor (k.link.cursor + 64) }

theorem setExcCaps_core (x : Core) : ((m.setCore c x).setExcCaps c).core c =
    { x with savecap := (m.setCore c x).excCap c 0, evcap := (m.setCore c x).excCap c 1 } := by
  unfold Mach.setExcCaps
  rw [core_setCore_self, core_setCore_self]

/-- The world of a descriptor that is no guest's, or the caller's own, can be entered. -/
theorem gate_world {k : Core} {d : GateDesc} (h : d.world ≠ .guest ∨ d.world = k.world) :
    ∃ y, (if d.world = k.world then some k else m.intoWorld c k d.world d.vmid) = some y ∧ y.world = d.world := by
  by_cases hw : d.world = k.world
  · exact ⟨k, if_pos hw, hw.symm⟩
  · rw [if_neg hw]
    unfold Mach.intoWorld
    cases hd : d.world with
    | host => exact ⟨_, rfl, rfl⟩
    | secure => exact ⟨_, rfl, rfl⟩
    | guest =>
      rcases h with h | h
      · exact absurd hd h
      · exact absurd h hw

theorem gateEnter_jumps {d : GateDesc} {w2 : W64} {p : Piece} {m1 : Mach}
    (hp : m.firstPiece c (m.core c).link (m.core c).link.cursor linkStore = .ok (p, m1)) (hw : d.world ≠ .guest ∨ d.world = (m.core c).world) :
    ∃ (y : Core) (m2 : Mach), y.world = d.world ∧ m2 = m1.storeFrame c p.pt p.pa (linkFrame (m.core c) d.cmpid) ∧
      m.gateEnter c d w2 = .jump (((m2.setCore c ((m2.core c).entered (m.core c) y d)).setExcCaps c).gateEnd c) d.pcc true := by
  obtain ⟨y, hy, hyw⟩ := gate_world (m := m1) (c := c) hw
  refine ⟨y, _, hyw, rfl, ?_⟩
  unfold Mach.gateEnter
  simp only [hp, hy]
  rfl

/-- What CGATE leaves of its core. -/
theorem gateEnter_compart {d : GateDesc} {w2 : W64} {p : Piece} {m1 : Mach} (hr : m.RunsFrom c m)
    (hp : m.firstPiece c (m.core c).link (m.core c).link.cursor linkStore = .ok (p, m1)) (hw : d.world ≠ .guest ∨ d.world = (m.core c).world) :
    ∃ t : Mach, m.gateEnter c d w2 = .jump t d.pcc true ∧ (t.core c).cmpid = d.cmpid ∧ (t.core c).gtab = d.gtab ∧
      (t.core c).world = d.world ∧ (t.core c).link.cursor = ((m.core c).link.cursor + 64) % 2 ^ 48 := by
  obtain ⟨y, m2, hyw, hm2, hjump⟩ := gateEnter_jumps (w2 := w2) hp hw
  obtain ⟨hst, -⟩ : m2.RunsFrom c m := hm2 ▸ storeFrame_runs _ _ _ _ (OkAll.elim hp (firstPiece_runs _ _ _ _ hr) id)
  let m3 := (m2.setCore c ((m2.core c).entered (m.core c) y d)).setExcCaps c
  have hcore : m3.core c = _ := setExcCaps_core _
  have hst3 : (m3.core c).st = .running := by
    rw [hcore]
    exact hst
  have hend := gateEnd_compart hst3
  refine ⟨_, hjump, (congrArg Compart.cmpid hend).trans ?_, (congrArg Compart.gtab hend).trans ?_, (congrArg Compart.world hend).trans ?_,
    (congrArg Compart.link hend).trans ?_⟩ <;> rw [hcore]
  · rfl
  · rfl
  · exact hyw
  · exact fld_setFld_same _ _ (by decide)

/-! ### CRETG -/

/-- A core that returns from an exception (R192). -/
def Core.excReturned (x : Core) (c : Nat) (s : Word) (w3 : W64) : Core :=
  { x with
    savecap := s.withCursor (s.cursor - 32)
    evmask := setBit x.evmask 63 (bit w3 2)
    na := bit w3 3
    handLive := isC c && bit w3 1
    handBank := if bit w3 1 then .clear else x.handBank }

/-- A core that returns from the latest CGATE within its world (R62). -/
def Core.gateReturned (x : Core) (k : Core) (f : Nat → Word) : Core :=
  { x with
    wtab := setFld 0 16 32 (fld (f 2).data 16 32), vmid := fld (f 3).data 18 10
    gtab := setFld 0 16 32 (fld (f 1).data 16 32), cmpid := fld (f 3).data 0 16
    savecap := f 4, evcap := f 5, link := k.link.withCursor (k.link.cursor - 64) }

section
variable {p : Piece} {m1 m2 : Mach}

theorem excReturn_jumps (hp : m.firstPiece c (m.core c).savecap (((m.core c).savecap.cursor : Int) - 32) frameLoad = .ok (p, m1))
    (hm : m2 = (m1.loadSide c p).readUpsets (some c) false p.pa 32) (h0 : (m2.coreWord c p.pa).poison = false)
    (h3 : (m2.coreWord c (p.pa + 24)).poison = false) (ht : (m2.coreWord c p.pa).tag = true) (ha : (m2.coreWord c p.pa).cursor % 4 = 0) :
    m.excReturn c = .jump ((m2.setCore c ((m2.core c).excReturned c (m.core c).savecap (m2.coreWord c (p.pa + 24)).data)).gateEnd c)
      (m2.coreWord c p.pa) false := by
  unfold Mach.excReturn
  simp only [hp, ← hm, h0, h3, ht, ha, Bool.not_true, Bool.or_self, ne_eq, not_true_eq_false, decide_false, Bool.false_eq_true, if_false]
  rfl

/-- What the return from an exception leaves of its core. -/
theorem excReturn_compart (hr : m.RunsFrom c m)
    (hp : m.firstPiece c (m.core c).savecap (((m.core c).savecap.cursor : Int) - 32) frameLoad = .ok (p, m1))
    (hm : m2 = (m1.loadSide c p).readUpsets (some c) false p.pa 32) (h0 : (m2.coreWord c p.pa).poison = false)
    (h3 : (m2.coreWord c (p.pa + 24)).poison = false) (ht : (m2.coreWord c p.pa).tag = true) (ha : (m2.coreWord c p.pa).cursor % 4 = 0) :
    ∃ t : Mach, m.excReturn c = .jump t (m2.coreWord c p.pa) false ∧ bit (t.core c).evmask 63 = bit (m2.coreWord c (p.pa + 24)).data 2 ∧
      (t.core c).na = bit (m2.coreWord c (p.pa + 24)).data 3 ∧ (t.core c).savecap.cursor = ((m.core c).savecap.cursor - 32) % 2 ^ 48 := by
  obtain ⟨hst, -⟩ : m2.RunsFrom c m := hm ▸ readUpsets_runs _ _ _ _ (loadSide_runs _ _ (OkAll.elim hp (firstPiece_runs _ _ _ _ hr) id))
  let m3 := m2.setCore c ((m2.core c).excReturned c (m.core c).savecap (m2.coreWord c (p.pa + 24)).data)
  have hcore : m3.core c = (m2.core c).excReturned c (m.core c).savecap (m2.coreWord c (p.pa + 24)).data := core_setCore_self _ _ _
  have hend := gateEnd_compart (m := m3) (c := c) (by rw [hcore]; exact hst)
  rw [hcore] at hend
  refine ⟨_, excReturn_jumps hp hm h0 h3 ht ha, ?_, congrArg Compart.na hend, (congrArg Compart.savecap hend).trans ?_⟩
  · exact (congrArg (fun x => bit (Compart.evmask x) 63) hend).trans (bit_setBit_self _ _ (by decide))
  · exact fld_setFld_same _ _ (by decide)

theorem gateReturn_jumps (hp : m.firstPiece c (m.core c).link (((m.core c).link.cursor : Int) - 64) linkLoad = .ok (p, m1))
    (hm : m2 = (m1.loadSide c p).readUpsets (some c) false p.pa 64) (hpo : ∀ i, i < 6 → (m2.coreWord c (p.pa + 8 * i)).poison = false)
    (hc : fld (m2.coreWord c (p.pa + 8 * 3)).data 32 16 = (m.core c).cmpid) (ht : (m2.coreWord c (p.pa + 8 * 0)).tag = true)
    (ha : (m2.coreWord c (p.pa + 8 * 0)).cursor % 4 = 0)
    (hw : World.ofCode (fld (m2.coreWord c (p.pa + 8 * 3)).data 16 2) = some (m.core c).world) (hg : (m.core c).world ≠ .guest) :
    m.gateReturn c = .jump ((m2.setCore c ((m2.core c).gateReturned (m.core c) (fun i => m2.coreWord c (p.pa + 8 * i)))).gateEnd c)
      (m2.coreWord c (p.pa + 8 * 0)) true := by
  have hclean : (List.range 6).any (fun i => (m2.coreWord c (p.pa + 8 * i)).poison) = false :=
    List.any_eq_false.mpr fun i hi => by simp [hpo i (List.mem_range.mp hi)]
  unfold Mach.gateReturn
  simp only [hp, ← hm, hclean, hc, ht, ha, hw, hg, Bool.not_true, ne_eq, not_true_eq_false, not_false_eq_true, true_or, and_self, or_self,
    Bool.false_eq_true, if_false, if_true]
  rfl

/-- What the return from the latest CGATE leaves of its core. -/
theorem gateReturn_compart (hr : m.RunsFrom c m)
    (hp : m.firstPiece c (m.core c).link (((m.core c).link.cursor : Int) - 64) linkLoad = .ok (p, m1))
    (hm : m2 = (m1.loadSide c p).readUpsets (some c) false p.pa 64) (x : Core) (hx : x.st = (m2.core c).st) :
    (((m2.setCore c x).gateEnd c).core c).compart = x.compart := by
  obtain ⟨hst, -⟩ : m2.RunsFrom c m := hm ▸ readUpsets_runs _ _ _ _ (loadSide_runs _ _ (OkAll.elim hp (firstPiece_runs _ _ _ _ hr) id))
  have hcore : (m2.setCore c x).core c = x := core_setCore_self _ _ _
  rw [gateEnd_compart (by rw [hcore, hx]; exact hst), hcore]

end

end

/-! ### The instructions -/

section
variable {s : State} {c : Nat} {m1 : Mach} (h : s.m.Begins c m1)
include h

theorem exec_cgate {a : BitVec 6} {m2 m3 : Mach} {g : Grant} {pg pa : Nat} {d : GateDesc}
    (hpo : (m1.g c a.toNat).poison = false) (hl : m1.live c (m1.g c a.toNat) .noacc 0 (m1.g c a.toNat).cursor = .ok (g, pg, m2))
    (hg : ¬ (g.otype = 0 ∨ ! g.has .GT ∨ (m1.g c a.toNat).cursor ≠ g.base ∨ g.base % 32 ≠ 0 ∨ g.limit < g.base + 32))
    (hd : m2.gateDesc c g (BitVec.ofNat 64 (m1.g c a.toNat).cursor) = .ok (pa, m3))
    (ho : GateDesc.ofWords ((m3.readUpsets (some c) false pa 32).descWords c pa) = some d) (hs : d.world = .secure → g.owner = 0xFFFF) :
    exec (.cgate c a) s = ends s m1 c [0x00D]
      ((m3.readUpsets (some c) false pa 32).gateEnter c d (BitVec.ofNat 64 (m1.g c a.toNat).cursor)) := by
  have hsec : ¬ (d.world = .secure ∧ g.owner ≠ 0xFFFF) := fun hx => hx.2 (hs hx.1)
  refine exec_of_upd (i := .cgate c a) (f := cgate c a) rfl ?_
  rw [cgate, instr_begins h]
  simp only [hpo, hl, if_neg hg, hd, ho, if_neg hsec, Bool.false_eq_true, if_false]

theorem exec_cretg : exec (.cretg c) s = ends s m1 c [0x00D] (if m1.frameOpen c then m1.excReturn c else m1.gateReturn c) := by
  refine exec_of_upd (i := .cretg c) (f := cretg c) rfl ?_
  rw [cretg, instr_begins h]

end

/-- Settles O17: the compartment that CGATE enters, and those that CRETG returns to. -/
theorem gateResults : Obligations.GateResults := by
  unfold Obligations.GateResults
  refine ⟨?call, fun s c m1 m2 m3 p h => ⟨?exception, ?return_⟩⟩
  case call =>
    intro s c a m1 m2 m3 m4 m5 g pg pa d p h
    simp only []
    intro hpo hl hot hgt hb hal hlim hd hm4 ho hs hw hp
    have hg : ¬ (g.otype = 0 ∨ ! g.has .GT ∨ (m1.g c a.toNat).cursor ≠ g.base ∨ g.base % 32 ≠ 0 ∨ g.limit < g.base + 32) := by
      simp [hot, hgt, hb, hal]
      omega
    have hr4 : m4.RunsFrom c m1 := hm4 ▸ readUpsets_runs _ _ _ _ (OkAll.elim hd (gateDesc_runs _ _ _
      (OkAll.elim hl (live_runs _ _ _ _ _ (begins_runsFrom h)) id)) id)
    obtain ⟨t, hjump, hc, hgt, hwd, hlink⟩ := gateEnter_compart (w2 := BitVec.ofNat 64 (m1.g c a.toNat).cursor) ⟨hr4.1, rfl⟩ hp hw
    refine ⟨t, ?_, hc, hgt, hwd, hlink⟩
    rw [exec_cgate h hpo hl hg hd (by rw [← hm4]; exact ho) hs, ← hm4, hjump]
  case exception =>
    intro hopen hp hm h0 h3 ht ha
    obtain ⟨t, hjump, hmask, hna, hsave⟩ := excReturn_compart (begins_runsFrom h) hp hm h0 h3 ht ha
    refine ⟨t, ?_, hmask, hna, hsave⟩
    rw [exec_cretg h, if_pos hopen, hjump]
    rfl
  case return_ =>
    intro hopen hp hm hpo hc ht ha hw hg
    have hend := gateReturn_compart (begins_runsFrom h) hp hm
      ((m3.core c).gateReturned (m1.core c) (fun i => m3.coreWord c (p.pa + 8 * i))) rfl
    refine ⟨_, ?_, congrArg Compart.cmpid hend, congrArg Compart.gtab hend, congrArg Compart.savecap hend, congrArg Compart.evcap hend,
      (congrArg Compart.link hend).trans (fld_setFld_same _ _ (by decide))⟩
    rw [exec_cretg h, if_neg (by rw [hopen]; decide), gateReturn_jumps hp hm hpo hc ht ha hw hg]

end Sys2Proof.Machine

/-! SUPPORT. Floating-point operations on long vectors (R111, R113): the flags that the active elements raise, and the element-wise results. -/

namespace Sys2Proof.Machine

section
variable {m : Mach} {c : Nat}

/-- The flags of results for every element number are those that the active elements below VL raise. -/
theorem vFlags_some (k : Bool) (e : Nat → VElem) : m.vFlags c k (fun i => some (e i)) = raised m c k (fun i => (e i).flags) := by
  unfold Mach.vFlags raised
  rw [List.foldl_map, List.foldl_filter]
  refine List.foldl_ext _ _ _ fun a i _ => ?_
  cases m.vActive c k i <;> rfl

theorem vWrite_some (k : Bool) (vd : Nat) (e : Nat → VElem) : m.vWrite c k vd (fun i => some (e i)) =
    .ok (((m.setV c vd (m.vMap c k (m.v c vd) (fun i => some (e i)))).accrue c (raised m c k (fun i => (e i).flags))).vRetire c) := by
  rw [Mach.vWrite, vFlags_some]

/-- The format of the element width is as wide as the elements (R111). -/
theorem vfmt_width {x : Core} {fm : Fp.Fmt} (h : x.vfmt = some fm) : fm.width = x.ew := by
  unfold Core.vfmt at h
  unfold Core.ew
  split at h
  · next hw =>
    obtain rfl := Option.some.inj h
    rw [hw]
    split <;> rfl
  · next hw =>
    obtain rfl := Option.some.inj h
    rw [hw]
    rfl
  · next hw =>
    obtain rfl := Option.some.inj h
    rw [hw]
    rfl
  · cases h

end

/-! ### Two sources -/

/-- Element `i` of the result of a floating-point instruction with two sources (R113). -/
def Mach.vfloatElem (m : Mach) (c : Nat) (vd va : BitVec 5) (sc : Bool) (b : BitVec 6) (acc : Bool) (r : Nat → Nat × Flags) (i : Nat) : VElem :=
  let w := (m.core c).ew
  ⟨(r i).1, (m.v c va.toNat).pois w i || (m.vB c sc b.toNat i).2 || (acc && (m.v c vd.toNat).pois w i), (r i).2⟩

/-- The instruction `i` is the floating-point operation `f`; `acc` makes the old destination a source. -/
def IsVfloat (i : VecCtor) (acc : Bool) (f : Fp.Fmt → Nat → Nat → Nat → Nat → Nat × Flags) : Prop :=
  ∀ c k vd va sc b s, exec (i c k vd va sc b) s = s.upd (vfloat c k vd va sc b acc f)

theorem vecFloatTable_isVfloat : ∀ q ∈ vecFloatTable, IsVfloat q.1 q.2.1 q.2.2 := by
  simp only [vecFloatTable, List.forall_mem_cons, List.not_mem_nil, false_imp_iff, implies_true, and_true]
  exact ⟨fun _ _ _ _ _ _ _ => rfl, fun _ _ _ _ _ _ _ => rfl, fun _ _ _ _ _ _ _ => rfl, fun _ _ _ _ _ _ _ => rfl, fun _ _ _ _ _ _ _ => rfl,
    fun _ _ _ _ _ _ _ => rfl, fun _ _ _ _ _ _ _ => rfl, fun _ _ _ _ _ _ _ => rfl⟩

section
variable {i : VecCtor} {acc : Bool} {f : Fp.Fmt → Nat → Nat → Nat → Nat → Nat × Flags} {s : State} {c : Nat} {m1 : Mach}

/-- A floating-point instruction that begins completes element by element. -/
theorem IsVfloat.exec_begins (hi : IsVfloat i acc f) (h : VecBegins s c m1) (k : Bool) (vd va : BitVec 5) {sc : Bool} {b : BitVec 6}
    (hb : vbLegal sc b = true) {fm : Fp.Fmt} (hfm : (m1.core c).vfmt = some fm) :
    let w := (m1.core c).ew
    let x := m1.v c va.toNat
    let z := m1.v c vd.toNat
    let r := fun i => f fm (fcsrRm (m1.core c).fcsr) (z.elem w i) (x.elem w i) (m1.vB c sc b.toNat i).1
    ∃ v, exec (i c k vd va sc b) s =
        ends s m1 c [0x010] (.ok (((m1.setV c vd.toNat v).accrue c (raised m1 c k (fun i => (r i).2))).vRetire c)) ∧
      Elementwise m1 c k z v (fun i => (r i).1) (fun i => x.pois w i || (m1.vB c sc b.toNat i).2 || (acc && z.pois w i)) := by
  intro w x z r
  obtain ⟨hbegin, hc, hv⟩ := h
  refine ⟨_, ?_, elementwise_vMap_some m1 c k z (m1.vfloatElem c vd va sc b acc r) _ _ (fun i => rfl) (fun i => rfl)⟩
  rw [hi, upd_eq, vfloat, hb, vinstr_begins hbegin hc hv]
  simp only [hfm]
  exact congrArg (ends s m1 c [0x010]) (vWrite_some k vd.toNat (m1.vfloatElem c vd va sc b acc r))

/-- With elements of 8 bits it traps VECTOR. -/
theorem IsVfloat.exec_bytes (hi : IsVfloat i acc f) (h : VecBegins s c m1) (k : Bool) (vd va : BitVec 5) {sc : Bool} {b : BitVec 6}
    (hb : vbLegal sc b = true) (hfm : (m1.core c).vfmt = none) :
    exec (i c k vd va sc b) s = ends s m1 c [0x010] (.trap (.plain .vector 0 0)) := by
  obtain ⟨hbegin, hc, hv⟩ := h
  rw [hi, upd_eq, vfloat, hb, vinstr_begins hbegin hc hv]
  simp only [hfm]
  rfl

end

/-! ### One source -/

/-- The constructors of element-wise instructions with one source. -/
abbrev VecCtor1 := Nat → Bool → BitVec 5 → BitVec 5 → Instr

/-- The instruction `i` is the floating-point operation `f` on elements of its format's width. -/
def IsVfloat1 (i : VecCtor1) (f : Fp.Fmt → Nat → Nat → Nat × Flags) : Prop :=
  ∃ g : Fp.Fmt → Nat → Nat → Nat × Flags, (∀ c k vd va s, exec (i c k vd va) s = s.upd (vfloat1 c k vd va g)) ∧
    ∀ fm rm x, 0 < fm.width → x < 2 ^ fm.width → g fm rm x = f fm rm x

theorem vecFloatUnaryTable_isVfloat1 : ∀ q ∈ vecFloatUnaryTable, IsVfloat1 q.1 q.2 := by
  simp only [vecFloatUnaryTable, List.forall_mem_cons, List.not_mem_nil, false_imp_iff, implies_true, and_true]
  refine ⟨⟨_, fun _ _ _ _ _ => rfl, fun _ _ _ _ _ => rfl⟩, ⟨_, fun _ _ _ _ _ => rfl, fun fm rm x hw hx => ?_⟩,
    ⟨_, fun _ _ _ _ _ => rfl, fun _ _ _ _ _ => rfl⟩⟩
  rw [toInt_ofNat_eq_sgn hw hx]

section
variable {i : VecCtor1} {f : Fp.Fmt → Nat → Nat → Nat × Flags} {s : State} {c : Nat} {m1 : Mach}

theorem IsVfloat1.exec_begins (hi : IsVfloat1 i f) (h : VecBegins s c m1) (k : Bool) (vd va : BitVec 5) {fm : Fp.Fmt}
    (hfm : (m1.core c).vfmt = some fm) :
    let w := (m1.core c).ew
    let x := m1.v c va.toNat
    let r := fun i => f fm (fcsrRm (m1.core c).fcsr) (x.elem w i)
    ∃ v, exec (i c k vd va) s =
        ends s m1 c [0x010] (.ok (((m1.setV c vd.toNat v).accrue c (raised m1 c k (fun i => (r i).2))).vRetire c)) ∧
      Elementwise m1 c k (m1.v c vd.toNat) v (fun i => (r i).1) (fun i => x.pois w i) := by
  intro w x r
  obtain ⟨hbegin, hc, hv⟩ := h
  obtain ⟨g, hexec, agree⟩ := hi
  have hr : ∀ i, g fm (fcsrRm (m1.core c).fcsr) ((m1.v c va.toNat).elem (m1.core c).ew i) =
      f fm (fcsrRm (m1.core c).fcsr) ((m1.v c va.toNat).elem (m1.core c).ew i) := fun i =>
    agree fm _ _ (by rw [vfmt_width hfm]; exact ew_pos _) (by rw [vfmt_width hfm]; exact elem_lt _ _ i)
  refine ⟨_, ?_, elementwise_vMap_some m1 c k (m1.v c vd.toNat) (fun i => ⟨(r i).1, x.pois w i, (r i).2⟩) _ _ (fun i => rfl) (fun i => rfl)⟩
  rw [hexec, upd_eq, vfloat1, vinstr_begins hbegin hc hv]
  simp only [hfm, Mach.rm, hr]
  exact congrArg (ends s m1 c [0x010]) (vWrite_some k vd.toNat (fun i => ⟨(r i).1, x.pois w i, (r i).2⟩))

theorem IsVfloat1.exec_bytes (hi : IsVfloat1 i f) (h : VecBegins s c m1) (k : Bool) (vd va : BitVec 5) (hfm : (m1.core c).vfmt = none) :
    exec (i c k vd va) s = ends s m1 c [0x010] (.trap (.plain .vector 0 0)) := by
  obtain ⟨hbegin, hc, hv⟩ := h
  obtain ⟨g, hexec, -⟩ := hi
  rw [hexec, upd_eq, vfloat1, vinstr_begins hbegin hc hv]
  simp only [hfm]
  rfl

end

/-- Settles O22: every instruction of the two tables is a floating-point operation on its elements. -/
theorem vectorFloatResults : Obligations.VectorFloatResults := by
  unfold Obligations.VectorFloatResults
  intro s c k vd va sc b m1 h
  exact ⟨fun fm hfm => ⟨fun hsrc q hq => (vecFloatTable_isVfloat q hq).exec_begins h k vd va (vbLegal_of hsrc) hfm,
      fun q hq => (vecFloatUnaryTable_isVfloat1 q hq).exec_begins h k vd va hfm⟩,
    fun hfm => ⟨fun hsrc q hq => (vecFloatTable_isVfloat q hq).exec_bytes h k vd va (vbLegal_of hsrc) hfm,
      fun q hq => (vecFloatUnaryTable_isVfloat1 q hq).exec_bytes h k vd va hfm⟩⟩

end Sys2Proof.Machine

/-! SUPPORT. Masks (R114 to R116): the bits that a compare or mask logic writes, and the moves between masks, elements and general registers. -/

namespace Sys2Proof.Machine

section
variable {m : Mach} {c : Nat}

/-! ### Mask bits -/

/-- The bits of active elements below VL take the outcome, every other one stays. -/
theorem maskBits_getLsbD (k : Bool) (old : BitVec 128) (f : Nat → Bool) {i : Nat} (hi : i < 128) :
    (m.maskBits c k old f).getLsbD i = if i < (m.core c).vl ∧ m.vActive c k i = true then f i else old.getLsbD i := by
  have hstep : ∀ (r j l : Nat), (if m.vActive c k j then replBits r j 1 (if f j then 1 else 0) else r).testBit l =
      if l = j then (if m.vActive c k j then f j else r.testBit j) else r.testBit l := fun r j l => by
    by_cases ha : m.vActive c k j = true
    · rw [if_pos ha, if_pos ha, replBits_testBit]
      by_cases hl : l = j
      · subst hl
        rw [if_pos (by omega), if_pos rfl]
        cases f l <;> simp
      · rw [if_neg (by omega), if_neg hl]
    · rw [if_neg ha, if_neg ha]
      by_cases hl : l = j
      · rw [if_pos hl, hl]
      · rw [if_neg hl]
  unfold Mach.maskBits
  rw [BitVec.getLsbD_ofNat, get_foldl_range (get := fun (r : Nat) j => r.testBit j) (g := fun j b => if m.vActive c k j then f j else b) hstep]
  simp only [hi, decide_true, Bool.true_and, BitVec.getLsbD]
  by_cases hv : i < (m.core c).vl
  · simp only [hv, if_true, true_and]
  · simp only [hv, if_false, false_and]

/-- The active elements below VL. -/
def Mach.active' (m : Mach) (c : Nat) (k : Bool) : List Nat := (List.range (m.core c).vl).filter (m.vActive c k)

theorem mem_active' {k : Bool} {i : Nat} : i ∈ m.active' c k ↔ i < (m.core c).vl ∧ m.vActive c k i = true := by
  simp [Mach.active']

theorem maskBits_active {k : Bool} (old : BitVec 128) (f : Nat → Bool) {i : Nat} (hi : i < 128) (h : i ∈ m.active' c k) :
    (m.maskBits c k old f).getLsbD i = f i := by
  rw [maskBits_getLsbD k old f hi, if_pos (mem_active'.mp h)]

theorem maskBits_inactive {k : Bool} (old : BitVec 128) (f : Nat → Bool) {i : Nat} (hi : i < 128) (h : i ∉ m.active' c k) :
    (m.maskBits c k old f).getLsbD i = old.getLsbD i := by
  rw [maskBits_getLsbD k old f hi, if_neg fun hx => h (mem_active'.mpr hx)]

theorem maskBits_all (old : BitVec 128) (f : Nat → Bool) {i : Nat} (hi : i < 128) :
    (m.maskBits c false old f).getLsbD i = if i < (m.core c).vl then f i else old.getLsbD i := by
  rw [maskBits_getLsbD false old f hi]
  simp [Mach.vActive]

end

/-! ### Compares -/

/-- The constructors of compares. -/
abbrev CmpCtor := Nat → Bool → BitVec 3 → BitVec 5 → Bool → BitVec 6 → Instr

section
variable {s : State} {c : Nat} {m1 : Mach} (h : VecBegins s c m1)
include h

/-- A compare that begins writes the outcomes of the active elements and accrues their flags. -/
theorem vcmp_begins (k : Bool) (md : BitVec 3) (va : BitVec 5) {sc : Bool} {b : BitVec 6} (hb : vbLegal sc b = true) {fp : Bool}
    (f : Option Fp.Fmt → Nat → Nat → Nat → Bool × Flags) (hfp : fp = false ∨ (m1.core c).vfmt ≠ none) :
    let w := (m1.core c).ew
    let x := m1.v c va.toNat
    let r := fun i => f (m1.core c).vfmt w (x.elem w i) (m1.vB c sc b.toNat i).1
    vcmp c k md va sc b fp f s.m = m1.finish c [0x010] (.ok (((m1.setMaskReg c md.toNat
      ⟨m1.maskBits c k (m1.maskReg c md.toNat).bits (fun i => (r i).1),
        (m1.active' c k).any (fun i => x.pois w i || (m1.vB c sc b.toNat i).2)⟩).accrue c (raised m1 c k (fun i => (r i).2))).vRetire c)) := by
  intro w x r
  obtain ⟨hbegin, hc, hv⟩ := h
  rw [vcmp, hb, vinstr_begins hbegin hc hv, raised, List.foldl_map]
  exact congrArg (m1.finish c [0x010]) (if_neg fun hx => hfp.elim (fun hf => Bool.false_ne_true (hf ▸ hx.1)) fun hf => hf hx.2)

end

theorem raised_none (m : Mach) (c : Nat) (k : Bool) : raised m c k (fun _ => .none) = .none := by
  unfold raised
  rw [List.foldl_map]
  exact foldl_keeps (P := fun a : Flags => a = .none) _ _ rfl fun a ha _ => by
    rw [ha]
    rfl

/-- The instruction `i` compares elements of `w` bits by `r`. -/
def IsVcmp (i : CmpCtor) (r : Nat → Nat → Nat → Prop) : Prop :=
  ∃ g : Nat → Nat → Nat → Bool, (∀ c k md va sc b s, exec (i c k md va sc b) s = s.upd (vcmp c k md va sc b false (fun _ w x y => (g w x y, .none)))) ∧
    ∀ w x y, 0 < w → x < 2 ^ w → y < 2 ^ w → (g w x y = true ↔ r w x y)

theorem vecCompareTable_isVcmp : ∀ q ∈ vecCompareTable, IsVcmp q.1 q.2 := by
  simp only [vecCompareTable, List.forall_mem_cons, List.not_mem_nil, false_imp_iff, implies_true, and_true]
  refine ⟨⟨fun _ x y => decide (x = y), fun _ _ _ _ _ _ _ => rfl, fun _ _ _ _ _ _ => decide_eq_true_iff⟩,
    ⟨fun _ x y => decide (x ≠ y), fun _ _ _ _ _ _ _ => rfl, fun _ _ _ _ _ _ => decide_eq_true_iff⟩,
    ⟨fun w x y => decide ((BitVec.ofNat w x).toInt < (BitVec.ofNat w y).toInt), fun _ _ _ _ _ _ _ => rfl, fun w x y hw hx hy => ?_⟩,
    ⟨fun _ x y => decide (x < y), fun _ _ _ _ _ _ _ => rfl, fun _ _ _ _ _ _ => decide_eq_true_iff⟩⟩
  rw [decide_eq_true_iff, toInt_ofNat_eq_sgn hw hx, toInt_ofNat_eq_sgn hw hy]

/-- The instruction `i` compares floating-point elements: less, equal, and whether a quiet NaN is silent. -/
def IsVfcmp (i : CmpCtor) (lt eq quiet : Bool) : Prop :=
  ∀ c k md va sc b s, exec (i c k md va sc b) s = s.upd (vcmp c k md va sc b true (fun f _ x y =>
    Fp.compare (Fp.unpack (f.getD Fp.f64) x) (Fp.unpack (f.getD Fp.f64) y) lt eq quiet))

theorem vecFloatCompareTable_isVfcmp : ∀ q ∈ vecFloatCompareTable, IsVfcmp q.1 q.2.1 q.2.2.1 q.2.2.2 := by
  simp only [vecFloatCompareTable, List.forall_mem_cons, List.not_mem_nil, false_imp_iff, implies_true, and_true]
  exact ⟨fun _ _ _ _ _ _ _ => rfl, fun _ _ _ _ _ _ _ => rfl, fun _ _ _ _ _ _ _ => rfl⟩

section
variable {i : CmpCtor} {s : State} {c : Nat} {m1 : Mach} (h : VecBegins s c m1)
include h

theorem IsVcmp.exec_begins {r : Nat → Nat → Nat → Prop} (hi : IsVcmp i r) (k : Bool) (md : BitVec 3) (va : BitVec 5) {sc : Bool} {b : BitVec 6}
    (hb : vbLegal sc b = true) :
    let w := (m1.core c).ew
    let x := m1.v c va.toNat
    let act := m1.active' c k
    ∃ v : BitVec 128, exec (i c k md va sc b) s = ends s m1 c [0x010] (.ok (((m1.setMaskReg c md.toNat
        ⟨v, act.any (fun i => x.pois w i || (m1.vB c sc b.toNat i).2)⟩).accrue c .none).vRetire c)) ∧
      ∀ i, i < 128 → (i ∈ act → (v.getLsbD i = true ↔ r w (x.elem w i) (m1.vB c sc b.toNat i).1)) ∧
        (i ∉ act → v.getLsbD i = (m1.maskReg c md.toNat).bits.getLsbD i) := by
  intro w x act
  obtain ⟨g, hexec, agree⟩ := hi
  refine ⟨_, ?_, fun i hi => ⟨fun ha => ?_, fun ha => maskBits_inactive _ (fun i => g w (x.elem w i) (m1.vB c sc b.toNat i).1) hi ha⟩⟩
  · rw [hexec, upd_eq, vcmp_begins h k md va hb _ (.inl rfl)]
    simp only [raised_none]
    rfl
  · rw [maskBits_active _ _ hi ha]
    exact agree w _ _ (ew_pos _) (elem_lt x w i) (vB_lt m1 c sc b.toNat i)

theorem IsVfcmp.exec_begins {lt eq quiet : Bool} (hi : IsVfcmp i lt eq quiet) (k : Bool) (md : BitVec 3) (va : BitVec 5) {sc : Bool}
    {b : BitVec 6} (hb : vbLegal sc b = true) {fm : Fp.Fmt} (hfm : (m1.core c).vfmt = some fm) :
    let w := (m1.core c).ew
    let x := m1.v c va.toNat
    let act := m1.active' c k
    let o := fun i => Fp.compare (Fp.unpack fm (x.elem w i)) (Fp.unpack fm (m1.vB c sc b.toNat i).1) lt eq quiet
    ∃ v : BitVec 128, exec (i c k md va sc b) s = ends s m1 c [0x010] (.ok (((m1.setMaskReg c md.toNat
        ⟨v, act.any (fun i => x.pois w i || (m1.vB c sc b.toNat i).2)⟩).accrue c (raised m1 c k (fun i => (o i).2))).vRetire c)) ∧
      ∀ i, i < 128 → (i ∈ act → v.getLsbD i = (o i).1) ∧ (i ∉ act → v.getLsbD i = (m1.maskReg c md.toNat).bits.getLsbD i) := by
  intro w x act o
  refine ⟨m1.maskBits c k (m1.maskReg c md.toNat).bits (fun i => (o i).1), ?_,
    fun i hi => ⟨fun ha => maskBits_active _ _ hi ha, fun ha => maskBits_inactive _ _ hi ha⟩⟩
  rw [hi, upd_eq, vcmp_begins h k md va hb _ (.inr (by rw [hfm]; exact Option.some_ne_none fm))]
  simp only [hfm]
  rfl

/-! ### Mask logic -/

theorem vmlogic_begins (md ma mb : BitVec 3) (two : Bool) (f : Bool → Bool → Bool) : vmlogic c md ma mb two f s.m =
    m1.finish c [0x010] (.ok ((m1.setMaskReg c md.toNat
      ⟨m1.maskBits c false (m1.maskReg c md.toNat).bits
          (fun i => f ((m1.maskReg c ma.toNat).bits.getLsbD i) ((m1.maskReg c mb.toNat).bits.getLsbD i)),
        (m1.maskReg c ma.toNat).poison || (two && (m1.maskReg c mb.toNat).poison)⟩).vRetire c)) := by
  obtain ⟨hbegin, hc, hv⟩ := h
  rw [vmlogic, vinstr_begins hbegin hc hv]

/-! ### Moves -/

theorem vmread_begins (d : BitVec 6) (ma : BitVec 3) (f : Nat → BitVec 128 → W64) : vmread c d ma f s.m =
    m1.finish c [0x010] (.ok ((m1.setG c d.toNat
      ⟨f (m1.core c).vl (m1.maskReg c ma.toNat).bits, false, (m1.maskReg c ma.toNat).poison, 0⟩).vRetire c)) := by
  obtain ⟨hbegin, hc, hv⟩ := h
  rw [vmread, vinstr_begins hbegin hc hv]
  rfl

theorem vmwrite_begins (md : BitVec 3) (a : BitVec 6) (lo : Nat) : vmwrite c md a lo s.m =
    m1.finish c [0x010] (.ok ((m1.setMaskReg c md.toNat
      ⟨BitVec.ofNat 128 (replBits (m1.maskReg c md.toNat).bits.toNat lo 64 (m1.g c a.toNat).data.toNat), (m1.g c a.toNat).poison⟩).vRetire c)) := by
  obtain ⟨hbegin, hc, hv⟩ := h
  rw [vmwrite, vinstr_begins hbegin hc hv]

theorem exec_vmvXS (d : BitVec 6) (va : BitVec 5) : exec (.vmvXS c d va) s = ends s m1 c [0x010] (.ok ((m1.setG c d.toNat
    ⟨BitVec.ofInt 64 (sgn (m1.core c).ew ((m1.v c va.toNat).elem (m1.core c).ew 0)), false, (m1.v c va.toNat).pois (m1.core c).ew 0, 0⟩).vRetire
      c)) := by
  obtain ⟨hbegin, hc, hv⟩ := h
  rw [← toInt_ofNat_eq_sgn (ew_pos _) (elem_lt _ _ 0)]
  refine exec_of_upd (i := .vmvXS c d va) (f := vinstr c true _) rfl ?_
  rw [vinstr_begins hbegin hc hv]
  rfl

end

/-- The number of the lowest 1 bit below `n`, or all ones (R114). -/
def firstBit (n : Nat) (x : BitVec 128) : W64 :=
  match (List.range n).find? (fun i => x.getLsbD i) with
  | some i => BitVec.ofNat 64 i
  | none => BitVec.allOnes 64

theorem firstBit_eq (n : Nat) (x : BitVec 128) : firstBit n x =
    if (List.range n).filter (fun i => x.getLsbD i) = [] then 0xFFFFFFFFFFFFFFFF
      else BitVec.ofNat 64 (((List.range n).filter (fun i => x.getLsbD i)).headD 0) := by
  unfold firstBit
  rw [← List.head?_filter]
  cases (List.range n).filter (fun i => x.getLsbD i) with
  | nil => decide
  | cons i l => rfl

/-- The low half of a mask is written, the high half stays. -/
theorem replBits_low (x : BitVec 128) (y : W64) :
    BitVec.ofNat 128 (replBits x.toNat 0 64 y.toNat) = x.extractLsb' 64 64 ++ y := by
  apply BitVec.eq_of_getLsbD_eq
  intro j hj
  rw [BitVec.getLsbD_ofNat, replBits_testBit, BitVec.getLsbD_append, BitVec.getLsbD_extractLsb']
  by_cases hlo : j < 64
  · simp [hj, hlo, BitVec.getLsbD]
  · simp [hj, hlo, BitVec.getLsbD, show j - 64 < 64 by omega, show 64 + (j - 64) = j by omega]

/-- The high half of a mask is written, the low half stays. -/
theorem replBits_high (x : BitVec 128) (y : W64) :
    BitVec.ofNat 128 (replBits x.toNat 64 64 y.toNat) = y ++ x.extractLsb' 0 64 := by
  apply BitVec.eq_of_getLsbD_eq
  intro j hj
  rw [BitVec.getLsbD_ofNat, replBits_testBit, BitVec.getLsbD_append, BitVec.getLsbD_extractLsb']
  by_cases hlo : j < 64
  · simp [hj, hlo, BitVec.getLsbD, show ¬ 64 ≤ j by omega]
  · simp [hj, hlo, BitVec.getLsbD, show 64 ≤ j by omega]

/-! ### The obligation -/

theorem exec_maskLogic {s : State} {c : Nat} {m1 : Mach} (h : VecBegins s c m1) (md ma mb : BitVec 3) :
    ∀ q ∈ maskLogicTable, exec (q.1 c md ma mb) s = ends s m1 c [0x010] (.ok ((m1.setMaskReg c md.toNat
      ⟨m1.maskBits c false (m1.maskReg c md.toNat).bits
          (fun i => q.2 ((m1.maskReg c ma.toNat).bits.getLsbD i) ((m1.maskReg c mb.toNat).bits.getLsbD i)),
        (m1.maskReg c ma.toNat).poison || (m1.maskReg c mb.toNat).poison⟩).vRetire c)) := by
  simp only [maskLogicTable, List.forall_mem_cons, List.not_mem_nil, false_imp_iff, implies_true, and_true]
  refine ⟨?and, ?or, ?xor, ?andn⟩
  case and => exact exec_of_upd (i := .vmand c md ma mb) rfl (vmlogic_begins h md ma mb true _)
  case or => exact exec_of_upd (i := .vmor c md ma mb) rfl (vmlogic_begins h md ma mb true _)
  case xor => exact exec_of_upd (i := .vmxor c md ma mb) rfl (vmlogic_begins h md ma mb true _)
  case andn => exact exec_of_upd (i := .vmandn c md ma mb) rfl (vmlogic_begins h md ma mb true _)

/-- Settles O23: compares, mask logic, and the moves between masks, elements and general registers. -/
theorem vectorMaskResults : Obligations.VectorMaskResults := by
  unfold Obligations.VectorMaskResults
  refine ⟨fun s c k md ma mb va sc b m1 h => ⟨?compare, ?float, ?logic, ?not⟩, fun s c d a ma md va m1 h => ?moves⟩
  case compare => exact fun hsrc q hq => (vecCompareTable_isVcmp q hq).exec_begins h k md va (vbLegal_of hsrc)
  case float => exact fun hsrc fm hfm q hq => (vecFloatCompareTable_isVfcmp q hq).exec_begins h k md va (vbLegal_of hsrc) hfm
  case logic => exact fun q hq => ⟨_, exec_maskLogic h md ma mb q hq, fun i hi => maskBits_all _ _ hi⟩
  case not =>
    refine ⟨m1.maskBits c false (m1.maskReg c md.toNat).bits (fun i => ! (m1.maskReg c ma.toNat).bits.getLsbD i), ?_,
      fun i hi => maskBits_all _ _ hi⟩
    refine exec_of_upd (i := .vmnot c md ma) rfl ((vmlogic_begins h md ma ma false (fun x _ => ! x)).trans ?_)
    rw [Bool.false_and, Bool.or_false]
  case moves =>
    refine ⟨?popc, ?first, ?rdl, ?rdh, ?wrl, ?wrh, exec_vmvXS h d va⟩
    case popc => exact exec_of_upd (i := .vmpopc c d ma) rfl (vmread_begins h d ma _)
    case first =>
      refine exec_of_upd (i := .vmfirst c d ma) rfl ((vmread_begins h d ma firstBit).trans ?_)
      rw [firstBit_eq]
    case rdl => exact exec_of_upd (i := .vmrdl c d ma) rfl (vmread_begins h d ma (fun _ x => x.truncate 64))
    case rdh => exact exec_of_upd (i := .vmrdh c d ma) rfl (vmread_begins h d ma (fun _ x => (x >>> 64).truncate 64))
    case wrl =>
      refine exec_of_upd (i := .vmwrl c md a) rfl ((vmwrite_begins h md a 0).trans ?_)
      rw [replBits_low]
    case wrh =>
      refine exec_of_upd (i := .vmwrh c md a) rfl ((vmwrite_begins h md a 64).trans ?_)
      rw [replBits_high]

end Sys2Proof.Machine

/-! SUPPORT. Vector memory accesses (R117 to R119): the course of an access whose checks pass, and the elements of a load. -/

namespace Sys2Proof.Machine

/-! ### The course of an access -/

section
variable {s : State} {c : Nat} {k st : Bool} {vd : BitVec 5} {a : BitVec 6} {ip : Mach → Bool} {ea : Mach → Nat → Nat → Int}
  {ep : Mach → Nat → Nat → Bool} {m1 m2 m3 : Mach} {g : Grant} {qs : List VPiece}
  (h : VecBegins s c m1) (hmask : m1.vMaskPoison c k = false)
include h hmask

/-- With no active element nothing is accessed. -/
theorem vmem_none (hact : (List.range (m1.core c).vl).filter (m1.vActive c k) = []) :
    vmem c true k st vd a ip ea ep s.m = m1.finish c [0x010] (.ok (m1.vRetire c)) := by
  obtain ⟨hbegin, hc, hv⟩ := h
  rw [vmem, instr_begins hbegin]
  simp only [hv, hmask, hact, isC_vcore hc, Bool.not_true, Bool.or_self, Bool.false_eq_true, if_false, List.isEmpty_nil, if_true]

/-- Every check of the active elements passes, and they lie at `qs` (R118). -/
structure Mach.VecPasses (m1 m2 m3 : Mach) (c : Nat) (k st : Bool) (x : Word) (pi : Bool) (ea : Nat → Int) (ep : Nat → Bool) (g : Grant)
    (qs : List VPiece) : Prop where
  active : (List.range (m1.core c).vl).filter (m1.vActive c k) ≠ []
  instr : m1.vInstrCheck c x pi st = .ok (g, m2)
  elems : m2.vElems c g st ((m1.core c).ew / 8) ea ep ((List.range (m1.core c).vl).filter (m1.vActive c k)) = .ok (qs, m3)

variable (hp : m1.VecPasses m2 m3 c k st (m1.g c a.toNat) (ip m1) (ea m1 (m1.core c).ew) (ep m1 (m1.core c).ew) g qs)
include hp

theorem vmem_loads (hst : st = false) (hr : m3.vRefuse c g qs = none) : vmem c true k st vd a ip ea ep s.m =
    m1.finish c [0x010] (.ok (((m3.vLoadAll c (m1.core c).ew (m1.v c vd.toNat) qs).2.setV c vd.toNat
      (m3.vLoadAll c (m1.core c).ew (m1.v c vd.toNat) qs).1).vRetire c)) := by
  obtain ⟨hbegin, hc, hv⟩ := h
  obtain ⟨hact, hinstr, helems⟩ := hp
  subst hst
  rw [vmem, instr_begins hbegin]
  simp only [hv, hmask, isC_vcore hc, Bool.not_true, Bool.or_self, Bool.false_eq_true, if_false, List.isEmpty_iff, hact, hinstr, helems, hr]

theorem vmem_stores (hst : st = true) (hf : m3.mirrorFull c (qs.map VPiece.p) = false) : vmem c true k st vd a ip ea ep s.m =
    m1.finish c [0x010] (.ok ((m3.vStoreAll c (m1.core c).ew g (m1.v c vd.toNat) qs).vRetire c)) := by
  obtain ⟨hbegin, hc, hv⟩ := h
  obtain ⟨hact, hinstr, helems⟩ := hp
  subst hst
  rw [vmem, instr_begins hbegin]
  simp only [hv, hmask, isC_vcore hc, Bool.not_true, Bool.or_self, Bool.false_eq_true, if_false, List.isEmpty_iff, hact, hinstr, helems, hf,
    if_true]

end

/-! ### Unit stride and strided accesses -/

/-- The instruction `i` is an access whose element `i` lies at `ea`, a store or a load. -/
def IsVmem (i : Nat → Bool → BitVec 5 → BitVec 6 → BitVec 6 → Instr) (st : Bool) (ea : Nat → Word → Word → Nat → Int) : Prop :=
  ∀ c k vd (a b : BitVec 6) s, exec (i c k vd a b) s = s.upd (vmem c true k st vd a (fun m => (m.g c b.toNat).poison)
    (fun m w i => ea (w / 8) (m.g c a.toNat) (m.g c b.toNat) i) (fun _ _ _ => false))

theorem vUnit_eq (c : Nat) (k st : Bool) (vd : BitVec 5) (a b : BitVec 6) : vUnit c k st vd a b = vmem c true k st vd a
    (fun m => (m.g c b.toNat).poison)
    (fun m w i => (m.g c a.toNat).cursor + (m.g c b.toNat).data.toInt + i * (w / 8 : Nat)) (fun _ _ _ => false) := by
  unfold vUnit
  simp only [Int.natCast_ediv, Nat.cast_ofNat]

theorem vecMemTable_isVmem : ∀ q ∈ vecMemTable, IsVmem q.1 q.2.1 q.2.2 := by
  simp only [vecMemTable, List.forall_mem_cons, List.not_mem_nil, false_imp_iff, implies_true, and_true]
  refine ⟨fun c k vd a b s => ?load, fun c k vd a b s => ?store, fun _ _ _ _ _ _ => rfl, fun _ _ _ _ _ _ => rfl⟩
  case load => exact congrArg s.upd (vUnit_eq c k false vd a b)
  case store => exact congrArg s.upd (vUnit_eq c k true vd a b)

/-! ### The elements of a load -/

/-- An element beyond the register reads 0. -/
theorem elem_beyond (r : VReg) {w i : Nat} (h : 1024 ≤ i * w) : r.elem w i = 0 := by
  unfold VReg.elem
  rw [Nat.shiftRight_eq_div_pow, Nat.div_eq_of_lt (r.bits.isLt.trans_le (Nat.pow_le_pow_right (by decide) h)), Nat.zero_mod]

theorem pois_beyond (r : VReg) {w i : Nat} (h : 128 ≤ i * (w / 8)) : r.pois w i = false := by
  unfold VReg.pois
  rw [Nat.shiftRight_eq_div_pow, Nat.div_eq_of_lt (r.poison.isLt.trans_le (Nat.pow_le_pow_right (by decide) h)), Nat.zero_mod]
  rfl

/-- Element `i` of a register whose elements are 8, 16, 32 or 64 bits lies within it, or beyond it. -/
theorem elem_place {e w : Nat} (he : e < 4) (hw : w = 8 * 2 ^ e) (i : Nat) : 8 ≤ w ∧
    ((i < 1024 / w ∧ i * w + w ≤ 1024 ∧ i * (w / 8) + w / 8 ≤ 128) ∨ (1024 / w ≤ i ∧ 1024 ≤ i * w ∧ 128 ≤ i * (w / 8))) := by
  subst hw
  interval_cases e <;> omega

/-- An element that is put holds what was put, and every other one stays. -/
theorem put_elements {e w : Nat} (he : e < 4) (hw : w = 8 * 2 ^ e) (r : VReg) (j x : Nat) (p : Bool) (hj : j < 1024 / w) (i : Nat) :
    (r.put w j x p).elem w j = x % 2 ^ w ∧ (r.put w j x p).pois w j = p ∧
    (i ≠ j → (r.put w j x p).elem w i = r.elem w i ∧ (r.put w j x p).pois w i = r.pois w i) := by
  obtain ⟨h8, hin | hout⟩ := elem_place he hw j
  · obtain ⟨-, hbits, hbytes⟩ := hin
    refine ⟨?_, ?_, fun hne => ?_⟩
    · rw [elem_put _ _ _ _ _ _ hbits, if_pos rfl]
    · rw [pois_put _ _ _ _ _ _ h8 hbytes, if_pos rfl]
    · obtain ⟨-, hi | hi⟩ := elem_place he hw i
      · rw [elem_put _ _ _ _ _ _ hi.2.1, pois_put _ _ _ _ _ _ h8 hi.2.2, if_neg hne, if_neg hne]
        exact ⟨rfl, rfl⟩
      · rw [elem_beyond _ hi.2.1, elem_beyond _ hi.2.1, pois_beyond _ hi.2.2, pois_beyond _ hi.2.2]
        exact ⟨rfl, rfl⟩
  · exact absurd hj (Nat.not_lt.mpr hout.1)

/-- Settles O25: each access by the checks it passes, and the elements that a load puts. -/
theorem vectorMemoryResults : Obligations.VectorMemoryResults := by
  unfold Obligations.VectorMemoryResults
  refine ⟨?access, fun m c e r q qs he => ⟨rfl, rfl, fun i hi => put_elements he rfl r q.i _ _ hi i⟩⟩
  case access =>
    intro s c k vd vb a b sc m1 m2 m3 g qs h hmask
    refine ⟨fun q hq => ⟨fun hst hall hr => ?load, fun hst hall hf => ?store, fun hact => ?idle⟩, fun hall hr => ?gather, fun hall hf => ?scatter⟩
    case load =>
      obtain ⟨hact, hinstr, helems⟩ := hall
      rw [vecMemTable_isVmem q hq, upd_eq, vmem_loads h hmask (m2 := m2) (g := g) (qs := qs) ⟨hact, hst ▸ hinstr, hst ▸ helems⟩ hst hr]
      rfl
    case store =>
      obtain ⟨hact, hinstr, helems⟩ := hall
      rw [vecMemTable_isVmem q hq, upd_eq, vmem_stores h hmask (m2 := m2) ⟨hact, hst ▸ hinstr, hst ▸ helems⟩ hst hf]
      rfl
    case idle =>
      rw [vecMemTable_isVmem q hq, upd_eq, vmem_none h hmask hact]
      rfl
    case gather =>
      obtain ⟨hact, hinstr, helems⟩ := hall
      exact exec_of_upd (i := .vgather c k vd a vb sc) rfl (vmem_loads h hmask (m2 := m2) ⟨hact, hinstr, helems⟩ rfl hr)
    case scatter =>
      obtain ⟨hact, hinstr, helems⟩ := hall
      exact exec_of_upd (i := .vscatter c k vd a vb sc) rfl (vmem_stores h hmask (m2 := m2) ⟨hact, hinstr, helems⟩ rfl hf)

end Sys2Proof.Machine
